-- ==== Sys2Proof/Word.lean ====
section
/-!
DEFINITION. The word types of the model and the plainest arithmetic on them.
Bit 0 is the least significant bit and every multi-byte field is little-endian (R7).
-/
namespace Sys2Proof

/-- One byte. -/
abbrev Byte := BitVec 8
/-- A 32-bit word: a vector element, an instruction word, a Local Control Space register. -/
abbrev Word := BitVec 32
/-- A 64-bit word: a scalar register or a mask. -/
abbrev Word64 := BitVec 64

/-- A sparse table: key and value pairs, keys strictly rising. -/
abbrev Tbl (α : Type) := List (Nat × α)

/-- A status of R79 with the error payload fields of R80. -/
structure Err where
  status : Nat
  detail : Nat := 0
  arg : Nat := 0xFFFF
  detector : Nat := 0
  deriving DecidableEq, Repr

/-- The statuses of R79. -/
abbrev stOk : Nat := 0x0000
abbrev stVersion : Nat := 0x0101
abbrev stSession : Nat := 0x0102
abbrev stUnsupported : Nat := 0x0103
abbrev stArg : Nat := 0x0201
abbrev stRange : Nat := 0x0202
abbrev stAlign : Nat := 0x0203
abbrev stOverlap : Nat := 0x0204
abbrev stLimit : Nat := 0x0205
abbrev stPerm : Nat := 0x0301
abbrev stXlate : Nat := 0x0302
abbrev stBusy : Nat := 0x0401
abbrev stNoSpace : Nat := 0x0402
abbrev stState : Nat := 0x0403
abbrev stCorrupt : Nat := 0x0501
abbrev stBudget : Nat := 0x0502
abbrev stHw : Nat := 0x0601
abbrev stAuth : Nat := 0x0701

end Sys2Proof
end

