-- ==== Sys2Proof/Syntax.lean ====
section
/-!
DEFINITION. The commands and events of the block: one constructor per row of spec/opcode_table.json,
with the row's operands, and the data those operands carry.
-/
namespace Sys2Proof

/-- Where an RCP frame came in: the Host Port or the SMBus/MCTP binding (R88). -/
inductive Path where
  | host
  | mctp
  deriving DecidableEq, Repr

/-- A received RCP frame that passed steps 1 to 4 of R64: the header fields of R61 other than MAGIC, OPCODE
and PAYLOAD_LENGTH, the payload, the MAC of R60 (empty when FLAGS.MAC is 0), the path, and the sender. -/
structure Frame where
  verMajor : BitVec 8
  verMinor : BitVec 8
  sessionId : BitVec 32
  requestId : BitVec 64
  flags : BitVec 16
  status : BitVec 16
  reserved : BitVec 48
  payload : List Byte
  mac : List Byte
  path : Path
  srcIp : Nat
  srcPort : Nat
  deriving DecidableEq, Repr

/-- A datagram on the RCP port: its UDP payload and its sender (R60, R64). -/
structure Datagram where
  bytes : List Byte
  path : Path
  srcIp : Nat
  srcPort : Nat
  deriving DecidableEq, Repr

/-- The request operations of RoCEv2 Reliable Connected transport that Veong implements, and any other (R49). -/
inductive RoceOp where
  | write
  | writeImm
  | read
  | send
  | sendImm
  | other
  deriving DecidableEq, Repr

/-- An inbound RoCEv2 request message of one queue pair (R49, R51): its packet sequence number, operation, key,
remote address, length, the bytes it carries, whether it was marked CE, and the priority it came on (R47). -/
structure RoceReq where
  qpn : Nat
  psn : Nat
  op : RoceOp
  rkey : Nat
  addr : Nat
  length : Nat
  data : List Byte
  imm : Nat
  ce : Bool
  prio : Nat
  deriving DecidableEq, Repr

/-- What answers a work request of a send queue (R57). -/
inductive RoceResp where
  | ack
  | readData (data : List Byte)
  | nakAccess
  | nakInvalid
  | nakOperational
  | nakSequence
  | rnr
  deriving DecidableEq, Repr

/-- A response as it arrives: on a priority, its packet marked CE or not (R46, R49). -/
structure RoceReply where
  resp : RoceResp
  ce : Bool
  prio : Nat
  deriving DecidableEq, Repr

/-- A congestion notification for a queue pair, on a priority (R46, R49). -/
structure RoceCnp where
  qpn : Nat
  prio : Nat
  deriving DecidableEq, Repr

/-- One Pod instruction as fetched: the 32-bit word and its extension word when the X bit asks for one (R95, R96). -/
structure Insn where
  word : Word
  ext : Word
  deriving DecidableEq, Repr

/-- What an outstanding access meets when it reaches memory beside the errors the state already holds: nothing new, a single-bit or an
uncorrectable error of an ECC block (R215), a parity error of a store's word (R218), a corrected or uncorrected link error (R216). -/
inductive MemEvent where
  | clean
  | corrected
  | uncorrectable
  | parity
  | linkCorrected
  | linkUncorrected
  deriving DecidableEq, Repr

/-- An Ethernet frame as a Fabric Port received it, from its destination address to its FCS (R445). -/
structure LinkFrame where
  bytes : List Byte
  deriving DecidableEq, Repr

/-- The state of training of one memory channel: absent, failed or passed with its package density in GiB (R198, R221). -/
inductive Training where
  | absent
  | fail
  | pass (density : Nat)
  deriving DecidableEq, Repr

/-- The commands and events: one constructor per row of spec/opcode_table.json, in the table's order. -/
inductive Instr where
  /-- SPEED_MON_WINDOW (R22): A 1,024-REFCLK speed monitor window ends and its oscillator count becomes the readable COUNT with VALID set. -/
  | speedMonWindow (c : Fin 32) (count : BitVec 20)
  /-- ISLAND_LOCK_LOSS (R20): A clocked island's PLL loses lock; the island returns to core-level reset, its bridges discard FIFO contents and answer requests as unavailable. -/
  | islandLockLoss (isl : Fin 47)
  /-- ISLAND_RELEASE (R559): An island whose PLL has held lock for 64 µs leaves reset and its bridges open; a relocked memory controller is retrained. -/
  | islandRelease (isl : Fin 47)
  /-- AVS_LOOP_ITERATION (R24): The 1 ms adaptive-voltage loop iteration reads the speed monitors and power, chooses a branch and requests VCORE over AVSBus. -/
  | avsLoopIteration (vread : BitVec 12) (iread : BitVec 16) (failed : Bool)
  /-- SET_SPEED_TARGET (R27): Sets the whole-percent speed target used from the next loop iteration. -/
  | setSpeedTarget (f : Frame)
  /-- GET_SPEED (R28): Returns the target, flags and values of the last completed loop iteration. -/
  | getSpeed (f : Frame)
  /-- GET_CONFIG (R34): Returns the bytes of the configuration record. -/
  | getConfig (f : Frame)
  /-- HANDSHAKE_STALL_WATCHDOG (R525): A request held without acknowledge for more than 2^20 local periods fires the stall watchdog. -/
  | handshakeStallWatchdog (u : Nat)
  /-- HOST_LINK_TRAINING (R39): The Host Port completes auto-negotiation and link training and brings up the fastest mode both ends advertise. -/
  | hostLinkTraining (peer : BitVec 3)
  /-- HOST_LINK_DOWN (R557): The Host Port link leaves UP; RoCEv2 connections see a transport timeout and a link event is raised. -/
  | hostLinkDown
  /-- HOST_FRAME_RECEIVE (R40): An Ethernet frame arrives at the Host Port and is checked, classified to a priority, buffered or discarded and counted. -/
  | hostFrameReceive (bytes : List Byte)
  /-- PFC_PAUSE_RECEIVE (R46): A priority flow control frame from the link partner pauses or resumes transmit on a priority. -/
  | pfcPauseReceive (p : Fin 8) (pause : Bool)
  /-- INGRESS_QUEUE_RESUME (R48): A stopped ingress queue drains again once its flow accepts items, and XON is sent when occupancy falls below half headroom. -/
  | ingressQueueResume (qpn : Nat)
  /-- ROCE_INBOUND_REQUEST (R51): An inbound RoCEv2 request packet is checked by R_Key, region and ATU and is served or NAKed. -/
  | roceInboundRequest (q : RoceReq)
  /-- ROCE_CNP_RECEIVE (R49): A received congestion notification packet halves the queue pair's injection rate. -/
  | roceCnpReceive (c : RoceCnp)
  /-- SQ_POLL (R56): The Host Port reads SQ_PROD_ADDR at least every 2 µs and takes posted work requests in ring order. -/
  | sqPoll (qpn : Nat)
  /-- ROCE_RESPONSE_RECEIVE (R57): An acknowledgment, NAK or READ response arrives for a work request and completes or fails it. -/
  | roceResponseReceive (qpn : Nat) (r : RoceReply)
  /-- ROCE_ACK_TIMEOUT (R57): The acknowledgment timeout of a queue pair expires and triggers a retry or exhausts RETRY. -/
  | roceAckTimeout (qpn : Nat)
  /-- QP_COMPLETION_ENTER (R57): A held work completion item enters COMPL_FLOW once the flow can accept it. -/
  | qpCompletionEnter (qpn : Nat)
  /-- SET_PORT_CONFIG (R43): Sets advertised modes, PFC enables, RCP priority and DSCP map of the Host Port. -/
  | setPortConfig (f : Frame)
  /-- SET_NET_CONFIG (R44): Sets or reads the Host Port's addresses, gateways, VLAN and RCP port. -/
  | setNetConfig (f : Frame)
  /-- QP_CREATE (R53): Creates a queue pair in state INIT in the session's context. -/
  | qpCreate (f : Frame)
  /-- QP_MODIFY (R54): Moves a queue pair to RTR, RTS or ERROR. -/
  | qpModify (f : Frame)
  /-- QP_DESTROY (R55): Flushes and destroys a queue pair. -/
  | qpDestroy (f : Frame)
  /-- MR_REGISTER (R58): Registers a memory region and returns its R_Key. -/
  | mrRegister (f : Frame)
  /-- MR_DEREGISTER (R59): Deregisters a memory region. -/
  | mrDeregister (f : Frame)
  /-- RCP_FRAME_RECEIVE (R64): A datagram on the RCP port is checked in order and discarded, answered with an error or executed. -/
  | rcpFrameReceive (d : Datagram)
  /-- COMMAND_COMPLETION (R78): A command that took time ends, its completion is sent and enters the replay cache. -/
  | commandCompletion (sid : Nat) (rid : Nat)
  /-- HELLO (R67): Negotiates the protocol major version and maximum payload statelessly. -/
  | hello (f : Frame)
  /-- OPEN_SESSION (R68): Opens a session bound to a context, with optional key agreement. -/
  | openSession (f : Frame)
  /-- OPEN_SESSION_MEMORY_EXPIRY (R71): The 60 s memory of an OPEN_SESSION request expires. -/
  | openSessionMemoryExpiry (ip : Nat) (port : Nat) (rid : Nat)
  /-- CLOSE_SESSION (R75): Ends the session after sending the completion. -/
  | closeSession (f : Frame)
  /-- KEEPALIVE (R75): Resets the session's idle timer. -/
  | keepalive (f : Frame)
  /-- SESSION_IDLE_TIMEOUT (R72): No frame passes step 9 for IDLE_TIMEOUT seconds and the session ends. -/
  | sessionIdleTimeout (sid : Nat)
  /-- SUBSCRIBE (R86): Sets the session's event class mask. -/
  | subscribe (f : Frame)
  /-- GET_EVENTS (R87): Returns retained event records from START_SEQ. -/
  | getEvents (f : Frame)
  /-- RESUME (R84): Continues or abandons a suspended operation over RCP. -/
  | resume (f : Frame)
  /-- SALU (R102): Scalar integer operation selected by F. -/
  | salu (t : Fin 8192) (w : Insn)
  /-- ADDI (R103): Immediate add, and, or or xor (ADDI, ANDI, ORI, XORI). -/
  | addi (t : Fin 8192) (w : Insn)
  /-- SHI (R103): Shift by immediate. -/
  | shi (t : Fin 8192) (w : Insn)
  /-- LIH (R103): Load upper immediate into bits [63:32]. -/
  | lih (t : Fin 8192) (w : Insn)
  /-- SFP (R104): Scalar floating-point operation selected by F. -/
  | sfp (t : Fin 8192) (w : Insn)
  /-- BR (R105): Conditional branch. -/
  | br (t : Fin 8192) (w : Insn)
  /-- JAL (R105): Jump and link by offset. -/
  | jal (t : Fin 8192) (w : Insn)
  /-- JALR (R105): Jump and link to register plus immediate. -/
  | jalr (t : Fin 8192) (w : Insn)
  /-- VINT (R106): Vector integer operation. -/
  | vint (t : Fin 8192) (w : Insn)
  /-- VFLT (R107): Vector floating-point operation. -/
  | vflt (t : Fin 8192) (w : Insn)
  /-- VDOT (R108): Packed dot product accumulated into V[D]. -/
  | vdot (t : Fin 8192) (w : Insn)
  /-- VCVT (R109): Vector conversion between formats, optionally stochastic or saturating. -/
  | vcvt (t : Fin 8192) (w : Insn)
  /-- VPERM (R110): Vector element movement. -/
  | vperm (t : Fin 8192) (w : Insn)
  /-- VCMP (R111): Vector compare into a mask. -/
  | vcmp (t : Fin 8192) (w : Insn)
  /-- VRED (R112): Vector reduction into a scalar. -/
  | vred (t : Fin 8192) (w : Insn)
  /-- MASK (R113): Mask operation selected by F. -/
  | mask (t : Fin 8192) (w : Insn)
  /-- LD (R114): Scalar load LD8 to LD64 issued through a load slot. -/
  | ld (t : Fin 8192) (w : Insn)
  /-- ST (R114): Scalar store ST8 to ST64. -/
  | st (t : Fin 8192) (w : Insn)
  /-- VLD (R115): Vector load in contiguous, strided, gather or broadcast form. -/
  | vld (t : Fin 8192) (w : Insn)
  /-- VST (R115): Vector store or scatter. -/
  | vst (t : Fin 8192) (w : Insn)
  /-- ATOM (R117): Atomic read-modify-write at the memory that owns the address. -/
  | atom (t : Fin 8192) (w : Insn)
  /-- FENCE (R118): Completes earlier memory accesses before later ones begin. -/
  | fence (t : Fin 8192) (w : Insn)
  /-- LOAD_COMPLETE (R93): An outstanding load, atomic or synchronous unit result returns, writes its register and frees its slot and tracker entries. -/
  | loadComplete (t : Fin 8192) (slot : Fin 8) (ev : MemEvent)
  /-- VHASH (R119): Hashes one key per active element. -/
  | vhash (t : Fin 8192) (w : Insn)
  /-- HASHS (R120): Hashes a byte range from memory into S[D]. -/
  | hashs (t : Fin 8192) (w : Insn)
  /-- VSORT (R298): Sorts a register pair through the sort network. -/
  | vsort (t : Fin 8192) (w : Insn)
  /-- VMERGE (R299): Merges two sorted pairs into 128 results. -/
  | vmerge (t : Fin 8192) (w : Insn)
  /-- VTOPK (R300): Keeps the best 64 of two pairs. -/
  | vtopk (t : Fin 8192) (w : Insn)
  /-- ACCA (R123): Requests an accumulator allocation, blocking until a run is free. -/
  | acca (t : Fin 8192) (w : Insn)
  /-- ACC_ALLOC_GRANT (R123): A waiting allocation request is granted in issue order once a zeroed run is free. -/
  | accAllocGrant (pod : Fin 512)
  /-- ACCF (R122): Frees the thread's accumulator allocation. -/
  | accf (t : Fin 8192) (w : Insn)
  /-- VACCADD (R122): Adds a vector into accumulator words. -/
  | vaccadd (t : Fin 8192) (w : Insn)
  /-- VACCMAX (R122): Takes the maximum into accumulator words. -/
  | vaccmax (t : Fin 8192) (w : Insn)
  /-- VACCMIN (R122): Takes the minimum into accumulator words. -/
  | vaccmin (t : Fin 8192) (w : Insn)
  /-- VACCRD (R122): Reads accumulator words into a vector. -/
  | vaccrd (t : Fin 8192) (w : Insn)
  /-- VACCWR (R122): Writes a vector into accumulator words. -/
  | vaccwr (t : Fin 8192) (w : Insn)
  /-- VACCZ (R122): Zeroes accumulator words. -/
  | vaccz (t : Fin 8192) (w : Insn)
  /-- ASK (R124): Blocks the thread until an item arrives on one of its flow slots; replacement and drain unbind take effect here. -/
  | ask (t : Fin 8192) (w : Insn)
  /-- ASKNB (R124): Asks for an item without blocking. -/
  | asknb (t : Fin 8192) (w : Insn)
  /-- ASK_OFFER (R172): A slice's offer reaches an asking thread, which accepts or declines it. -/
  | askOffer (t : Fin 8192) (flow : Nat)
  /-- DONE (R125): Retires the held item, first waiting for the thread's outstanding unit operations. -/
  | done (t : Fin 8192) (w : Insn)
  /-- DONE_RETIRE (R125): Once outstanding operations end, DONE makes stores visible, frees the allocation and hands the completion to the Dispatcher. -/
  | doneRetire (t : Fin 8192)
  /-- POST (R124): Posts a descriptor to a flow slot, blocking while the flow is full. -/
  | post (t : Fin 8192) (w : Insn)
  /-- POST_RESUME (R179): A thread blocked in POST posts its item once the flow has room. -/
  | postResume (t : Fin 8192)
  /-- POSTNB (R124): Posts without blocking and reports whether the flow was full. -/
  | postnb (t : Fin 8192) (w : Insn)
  /-- GSRCH_T (R349): Synchronous Gazetteer search returning the total match count. -/
  | gsrchT (t : Fin 8192) (w : Insn)
  /-- GSRCH_G (R349): Synchronous Gazetteer search returning counts per group. -/
  | gsrchG (t : Fin 8192) (w : Insn)
  /-- GBKT (R350): Synchronous Gazetteer search returning the BUCKETIZE result. -/
  | gbkt (t : Fin 8192) (w : Insn)
  /-- GUPD (R357): Asynchronous Gazetteer entry update from a descriptor. -/
  | gupd (t : Fin 8192) (w : Insn)
  /-- GUPD_END (R359): A GUPD finishes writing entries and writes its completion record. -/
  | gupdEnd (t : Fin 8192) (tag : Fin 8)
  /-- JINS (R277): Inserts active keys with payloads into a thread table. -/
  | jins (t : Fin 8192) (w : Insn)
  /-- JPROBE (R278): Probes a thread table and fixes the cursor. -/
  | jprobe (t : Fin 8192) (w : Insn)
  /-- JNEXT (R278): Returns the next match of the thread's cursor. -/
  | jnext (t : Fin 8192) (w : Insn)
  /-- EMBG (R323): Embedding gather into memory or the accumulator. -/
  | embg (t : Fin 8192) (w : Insn)
  /-- EMBU (R327): Embedding gradient update sending deltas to row homes, optionally counting STEP_END. -/
  | embu (t : Fin 8192) (w : Insn)
  /-- PROJ (R381): Issues a Projection Engine tensor copy. -/
  | proj (t : Fin 8192) (w : Insn)
  /-- ACCST (R384): Issues a fused store of the accumulator allocation through a Projection Engine. -/
  | accst (t : Fin 8192) (w : Insn)
  /-- TABLE_INTAKE_JOB (R236): JOB with JOB_KIND 5 checks and queues a Table Intake job. -/
  | tableIntakeJob (t : Fin 8192) (w : Insn)
  /-- COLUMN_JOB (R259): JOB with JOB_KIND 3 checks and queues a column job. -/
  | columnJob (t : Fin 8192) (w : Insn)
  /-- JOIN_JOB (R281): JOB with JOB_KIND 2 checks and queues a join job. -/
  | joinJob (t : Fin 8192) (w : Insn)
  /-- CODEC_JOB (R404): JOB with JOB_KIND 1 checks and queues a codec job. -/
  | codecJob (t : Fin 8192) (w : Insn)
  /-- FABRIC_OPERATION (R462): JOB with JOB_KIND 8 checks and sends a remote operation. -/
  | fabricOperation (t : Fin 8192) (w : Insn)
  /-- UNIT_RESUME (R130): UNIT F = 3 resumes or abandons a suspended operation from a Pod. -/
  | unitResume (t : Fin 8192) (w : Insn)
  /-- WAITU (R130): Blocks until a tag completes and returns its packed status. -/
  | waitu (t : Fin 8192) (w : Insn)
  /-- WAITANY (R130): Blocks until any outstanding tag completes and returns status and tag. -/
  | waitany (t : Fin 8192) (w : Insn)
  /-- IMAGE_LOAD (R135): Copies, maps and binds a program image to threads. -/
  | imageLoad (f : Frame)
  /-- IMAGE_UNLOAD (R138): Unbinds an image's threads at once or by drain. -/
  | imageUnload (f : Frame)
  /-- FLOW_CREATE (R168): Creates a flow in the session's context. -/
  | flowCreate (f : Frame)
  /-- FLOW_DESTROY (R170): Destroys a flow, discarding items with FORCE. -/
  | flowDestroy (f : Frame)
  /-- FLOW_BIND_INGRESS (R180): Binds or unbinds a queue pair as ingress queue of a flow. -/
  | flowBindIngress (f : Frame)
  /-- GRAPH_SUBMIT (R184): Copies and starts a graph on a graph queue, completing when the graph ends. -/
  | graphSubmit (f : Frame)
  /-- GRAPH_CANCEL (R187): GRAPH_SUBMIT with CANCEL skips the queue's ready nodes. -/
  | graphCancel (f : Frame)
  /-- FLOW_STATS (R188): Returns a flow's counts taken at one instant. -/
  | flowStats (f : Frame)
  /-- STARVE_PROMOTION (R173): A head item waits longer than STARVE_US and its flow competes as class 0. -/
  | starvePromotion (flow : Nat)
  /-- COMPLETION_RELEASE_RESUME (R176): Held completions are released once the destination flow or ring has room. -/
  | completionReleaseResume (flow : Nat)
  /-- COMPL_RING_POLL (R178): While a completion ring is full the slice rereads the consumer index at least every 2 µs. -/
  | complRingPoll (flow : Nat)
  /-- DESCRIPTOR_PARITY_ERROR (R193): A stored descriptor fails parity; the item is discarded and replaced in ordered release. -/
  | descriptorParityError (flow : Nat) (k : Nat)
  /-- POD_BUSY_WINDOW (R190): A 1,048,576-REFCLK observation window ends and POD_BUSYn is updated. -/
  | podBusyWindow (cluster : Fin 32) (pod : Fin 16)
  /-- CONTEXT_CREATE (R203): Creates a work context. -/
  | contextCreate (f : Frame)
  /-- CONTEXT_DESTROY (R204): Destroys a context and every object in it in order. -/
  | contextDestroy (f : Frame)
  /-- MAP (R205): Creates one mapping in a context. -/
  | map (f : Frame)
  /-- UNMAP (R208): Removes whole mappings from a context. -/
  | unmap (f : Frame)
  /-- RETRAIN_CHANNEL (R221): ACTION 0 drains, retrains and restores a channel. -/
  | retrainChannel (f : Frame)
  /-- CHANNEL_DRAIN (R221): ACTION 1 drains a channel to OUT_OF_SERVICE. -/
  | channelDrain (f : Frame)
  /-- CHANNEL_RETRAIN_RESTORE (R221): ACTION 2 retrains and restores an out-of-service or lost channel. -/
  | channelRetrainRestore (f : Frame)
  /-- GRANULE_COPY_DONE (R222): A granule copy completes and the ATU translation switches to the new location. -/
  | granuleCopyDone (ch : Fin 128)
  /-- CHANNEL_TRAINING_DONE (R221): Training of a channel passes or fails and the command moves to RESTORING or OUT_OF_SERVICE. -/
  | channelTrainingDone (ch : Fin 128) (r : Training)
  /-- PER_BANK_REFRESH (R199): A controller performs per-bank refresh at its temperature-set rate. -/
  | perBankRefresh (mc : Fin 32)
  /-- ZQ_CALIBRATION (R199): A controller performs background ZQ calibration. -/
  | zqCalibration (mc : Fin 32)
  /-- DQS_TRACKING (R199): A channel's DQS interval-oscillator tracking runs every 32 ms. -/
  | dqsTracking (ch : Fin 128)
  /-- LEGEND_CREATE (R234): Registers a Legend. -/
  | legendCreate (f : Frame)
  /-- LEGEND_DESTROY (R234): LEGEND_CREATE with DESTROY removes a Legend. -/
  | legendDestroy (f : Frame)
  /-- TABLE_INTAKE_START (R239): A queued Table Intake job takes its free engine. -/
  | tableIntakeStart (e : Fin 16)
  /-- INTAKE_BATCH_OUTPUT (R246): An engine writes one output batch, enters its item, or suspends when space runs out. -/
  | intakeBatchOutput (e : Fin 16)
  /-- INTAKE_OUTPUT_RESUME (R253): A held batch item enters OUT_FLOW once it can accept and the engine continues. -/
  | intakeOutputResume (e : Fin 16)
  /-- TABLE_INTAKE_END (R250): A Table Intake job ends with OK or a failure and writes its completion record. -/
  | tableIntakeEnd (e : Fin 16)
  /-- COLUMN_JOB_START (R275): A queued column job starts on its slice engine. -/
  | columnJobStart (sl : Fin 32)
  /-- COLUMN_JOB_END (R292): A column job ends, suspends or fails and writes its result block. -/
  | columnJobEnd (sl : Fin 32)
  /-- JOIN_JOB_START (R285): A join job starts, zeroes and claims its region. -/
  | joinJobStart (sl : Fin 32)
  /-- JOIN_JOB_END (R285): A join job ends, returns its region zeroed and writes its result block. -/
  | joinJobEnd (sl : Fin 32)
  /-- EMB_TABLE_CREATE (R314): Creates and maps an embedding table. -/
  | embTableCreate (f : Frame)
  /-- PARTITION_MAP_SET (R319): Sets or removes a table's partition map. -/
  | partitionMapSet (f : Frame)
  /-- EMB_TABLE_PREPARE (R334): EMB_TABLE_SWAP PREPARE maps storage for a new version. -/
  | embTablePrepare (f : Frame)
  /-- EMB_TABLE_COMMIT (R335): EMB_TABLE_SWAP COMMIT makes the prepared version current. -/
  | embTableCommit (f : Frame)
  /-- EMB_TABLE_CANCEL (R334): EMB_TABLE_SWAP CANCEL unmaps the prepared version. -/
  | embTableCancel (f : Frame)
  /-- EMB_TABLE_DESTROY (R336): EMB_TABLE_SWAP DESTROY ends the table. -/
  | embTableDestroy (f : Frame)
  /-- EMB_TABLE_QUERY (R337): EMB_TABLE_SWAP QUERY returns the table's counters. -/
  | embTableQuery (f : Frame)
  /-- EMB_ROW_READ_DONE (R324): A coalescer row read completes and delivers the row to every attached request. -/
  | embRowReadDone (u : Fin 32) (k : Nat) (ev : MemEvent)
  /-- EMB_STEP_CLOSE (R328): A part closes its open step, sends step tokens and resumes blocked threads. -/
  | embStepClose (tbl : Nat)
  /-- EMB_DELTA_RECEIVE (R329): A delta enters the coalescing buffer, splitting an entry when full. -/
  | embDeltaReceive (k : Nat)
  /-- EMB_TOKEN_RECEIVE (R470): A step token arrives at a home with its delta count. -/
  | embTokenReceive (k : Nat)
  /-- EMB_NOTICE_RECEIVE (R470): A step-closed notice arrives from a participant. -/
  | embNoticeReceive (k : Nat)
  /-- EMB_LOST_RECEIVE (R470): An EMB_LOST report counts lost records as received and in LOST_DELTAS. -/
  | embLostReceive (k : Nat)
  /-- EMB_HOME_STEP_CLOSE (R329): A home holding all tokens and deltas reads the hyperparameters, applies its entries and sends notices. -/
  | embHomeStepClose (tbl : Nat)
  /-- COALESCE_BUFFER_PARITY (R342): A buffer entry tag parity error frees the entry and counts its deltas lost. -/
  | coalesceBufferParity (u : Fin 32) (k : Nat)
  /-- GAZ_CREATE (R355): GAZ_LOAD CREATE takes free segments for a new set. -/
  | gazCreate (f : Frame)
  /-- GAZ_WRITE (R355): GAZ_LOAD WRITE checks and writes entry records. -/
  | gazWrite (f : Frame)
  /-- GAZ_SEGTAGS (R355): GAZ_LOAD SEGTAGS writes segment TAG and TAG_MASK pairs. -/
  | gazSegtags (f : Frame)
  /-- GAZ_DESTROY (R355): GAZ_LOAD DESTROY frees a set after admitted searches. -/
  | gazDestroy (f : Frame)
  /-- GAZ_SCRUB_COMPARE (R361): The scrubber compares one entry with both shadows and repairs by majority. -/
  | gazScrubCompare (b : Fin 8) (k : Nat) (upset : List (Fin 3 × Fin 384))
  /-- GAZ_THROTTLE_WINDOW (R365): At each 1,024-REFCLK window the Gazetteer sensor sets the throttle level and admissions restart. -/
  | gazThrottleWindow
  /-- GAZ_POWER_WINDOW (R366): A new limiter window resets the segment activation count and held searches are admitted. -/
  | gazPowerWindow
  /-- GAZ_POWER_WRITE (R368): A WRITE_REG of GAZ_POWER sets SEG_LIMIT within its ceiling. -/
  | gazPowerWrite (f : Frame)
  /-- GAZ_RELOAD (R370): GAZ_BANK_SERVICE RELOAD rewrites a bank from its shadows. -/
  | gazReload (f : Frame)
  /-- GAZ_EVACUATE (R370): GAZ_BANK_SERVICE EVACUATE moves every set to other banks. -/
  | gazEvacuate (f : Frame)
  /-- GAZ_RESTORE (R370): GAZ_BANK_SERVICE RESTORE tests an out-of-service bank. -/
  | gazRestore (f : Frame)
  /-- GAZ_SCRUB_PERIOD (R370): GAZ_BANK_SERVICE SCRUB_PERIOD sets the bank's scrub period. -/
  | gazScrubPeriod (f : Frame)
  /-- PROJ_OP_START (R387): A queued Projection operation takes its engine and copies its descriptors. -/
  | projOpStart (e : Fin 16)
  /-- PROJ_SLAB_DONE (R390): An engine completes a slab, or suspends or ends at the next slab. -/
  | projSlabDone (e : Fin 16)
  /-- CODEC_QUEUE_PLACE (R406): A place frees in an engine queue and a blocked JOB joins it. -/
  | codecQueuePlace (e : Fin 16)
  /-- CODEC_LANE_START (R406): A free lane takes the oldest queued job or resumed job. -/
  | codecLaneStart (e : Fin 16) (l : Fin 8)
  /-- CODEC_JOB_END (R408): A codec job ends or suspends, saves its context and places its completion item. -/
  | codecJobEnd (e : Fin 16) (l : Fin 8)
  /-- FRAME_SESSION_OPEN (R419): Opens a frame session. -/
  | frameSessionOpen (f : Frame)
  /-- FRAME_SESSION_CLOSE (R419): FRAME_SESSION_OPEN CLOSE closes a session, optionally by drain. -/
  | frameSessionClose (f : Frame)
  /-- FRAME_RING_POLL (R423): The device reads PROD_ADDR and takes sample descriptors, starting samples. -/
  | frameRingPoll (id : Nat)
  /-- FRAME_STORE_GRANT (R427): A waiting sample receives its frame store allocation. -/
  | frameStoreGrant (id : Nat) (k : Nat)
  /-- FRAME_DECODE_TURN (R429): An engine gives a ready sample one turn of one frame or 4,096 coding units. -/
  | frameDecodeTurn (id : Nat) (k : Nat)
  /-- SAMPLE_END (R432): A sample ends, writes its record and emits its item or passes to the Batch Assembler. -/
  | sampleEnd (id : Nat) (k : Nat)
  /-- SAMPLE_ITEM_RELEASE (R430): A held sample item is accepted by its flow or the Assembler. -/
  | sampleItemRelease (id : Nat) (k : Nat)
  /-- BATCH_EMIT (R439): A complete batch writes its manifest and enters its item into BATCH_FLOW. -/
  | batchEmit (id : Nat)
  /-- MANIFEST_RING_POLL (R434): While the manifest ring is full the Assembler rereads MCONS_ADDR every 2 µs. -/
  | manifestRingPoll (id : Nat)
  /-- BATCH_ATTACH (R434): BATCH_CONFIG ATTACH attaches an assembler to a frame session. -/
  | batchAttach (f : Frame)
  /-- BATCH_FLUSH (R440): BATCH_CONFIG FLUSH emits the partly assembled batch. -/
  | batchFlush (f : Frame)
  /-- BATCH_DETACH (R434): BATCH_CONFIG DETACH removes the assembler. -/
  | batchDetach (f : Frame)
  /-- FABRIC_LINK_TRAINING (R444): A Fabric Port link trains at 800GBASE-R. -/
  | fabricLinkTraining (p : Fin 12)
  /-- INIT_SEND (R448): Every 10 µs until the peer's INIT arrives, a port sends an INIT frame. -/
  | initSend (p : Fin 12)
  /-- INIT_RECEIVE (R448): An INIT frame arrives and the link version is chosen and the port enters UP or stays in INIT. -/
  | initReceive (p : Fin 12) (f : LinkFrame)
  /-- INIT_RETRY (R448): A port with mismatched versions repeats the INIT exchange once a second. -/
  | initRetry (p : Fin 12)
  /-- FABRIC_DATA_RECEIVE (R449): A link frame arrives and is checked, accepted in SEQ order, forwarded or delivered, and its ACK and credits processed. -/
  | fabricDataReceive (p : Fin 12) (f : LinkFrame)
  /-- NAK_RECEIVE (R449): A NAK arrives and the sender replays from the named SEQ. -/
  | nakReceive (p : Fin 12) (f : LinkFrame)
  /-- IDLE_SEND (R449): A receiver that sent nothing for 1 µs sends an IDLE frame. -/
  | idleSend (p : Fin 12)
  /-- LINK_SILENCE_TIMEOUT (R450): No valid frame for 100 µs declares the link failed. -/
  | linkSilenceTimeout (p : Fin 12)
  /-- FABRIC_LINK_FAIL (R461): A port leaves UP; it is removed from routes, its replay buffer discarded with loss reports, and it retrains. -/
  | fabricLinkFail (p : Fin 12)
  /-- DISCOVERY_SETTLE_TIMER (R455): 10 ms after the last port change the part floods START. -/
  | discoverySettleTimer
  /-- DISCOVERY_START_RECEIVE (R455): A START message is received and the epoch, root and parent adopted. -/
  | discoveryStartReceive (p : Fin 12)
  /-- DISCOVERY_REPORT_TIMER (R455): After 1 ms with no change a part sends REPORT to its parent. -/
  | discoveryReportTimer
  /-- DISCOVERY_REPORT_RECEIVE (R455): A REPORT is forwarded parent-ward or, at the root, addresses and routes are computed. -/
  | discoveryReportReceive (p : Fin 12)
  /-- DISCOVERY_TABLE_RECEIVE (R455): A TABLE segment is installed in the shadow table or forwarded. -/
  | discoveryTableReceive (p : Fin 12)
  /-- DISCOVERY_TABLE_ACK_RECEIVE (R455): A TABLE_ACK reaches the root, which floods COMMIT when all are in. -/
  | discoveryTableAckReceive (p : Fin 12)
  /-- DISCOVERY_COMMIT_RECEIVE (R455): COMMIT switches the part to its shadow table and reports EPOCH_COMMITTED. -/
  | discoveryCommitReceive (p : Fin 12)
  /-- REMOTE_WRITE_RECEIVE (R465): A WRITE frame is written at the target and WRITE_ACK sent. -/
  | remoteWriteReceive (p : Fin 13)
  /-- READ_REQ_RECEIVE (R465): A READ_REQ is served at the target with READ_DATA. -/
  | readReqReceive (p : Fin 13)
  /-- ATOMIC_RECEIVE (R465): An ATOMIC is applied at the target and the old value returned. -/
  | atomicReceive (p : Fin 13)
  /-- SEND_RECEIVE (R465): A SEND frame forms items in the named flow and SEND_ACK follows. -/
  | sendReceive (p : Fin 13)
  /-- REMOTE_RESPONSE_RECEIVE (R468): A response or loss report reaches the issuer and may end the operation. -/
  | remoteResponseReceive (p : Fin 13)
  /-- REMOTE_REQUEST_TIMEOUT (R467): A request without response for 1 s ends its operation with E_HW. -/
  | remoteRequestTimeout (req : Nat)
  /-- FABRIC_STATUS (R473): Returns the fabric state and port records. -/
  | fabricStatus (f : Frame)
  /-- FABRIC_REDISCOVER (R474): Starts or joins discovery and completes at the next commit. -/
  | fabricRediscover (f : Frame)
  /-- BOOT_ROM_START (R564): The boot ROM starts and selects firmware by BOOTSRC under R484. -/
  | bootRomStart
  /-- SURVEYOR_RELOCK_PATH (R558): After a Surveyor lock loss the boot ROM rechecks the running image and restores firmware state. -/
  | surveyorRelockPath
  /-- FIRMWARE_START (R566): Firmware reads the board record, starts monitoring, trains memory, sets up its reservation and starts discovery and the loop. -/
  | firmwareStart (training : List Training)
  /-- BOOT_LOAD_WRITE (R565): BOOT_LOAD WRITE places data in the staging area. -/
  | bootLoadWrite (f : Frame)
  /-- BOOT_LOAD_RUN (R565): BOOT_LOAD RUN checks the staged image and jumps to it. -/
  | bootLoadRun (f : Frame)
  /-- BOOT_LOAD_ABORT (R565): BOOT_LOAD ABORT empties the staging area. -/
  | bootLoadAbort (f : Frame)
  /-- FW_UPDATE_WRITE (R486): FW_UPDATE WRITE writes image data to the inactive slot. -/
  | fwUpdateWrite (f : Frame)
  /-- FW_UPDATE_ACTIVATE (R500): FW_UPDATE ACTIVATE checks the image, marks it PENDING and starts a live handover. -/
  | fwUpdateActivate (f : Frame)
  /-- HANDOVER_READY (R500): The new firmware becomes ready, the pause ends and ACTIVATE completes. -/
  | handoverReady
  /-- HANDOVER_TIMEOUT (R502): The new firmware is not ready 4 ms into the pause and the old firmware resumes. -/
  | handoverTimeout
  /-- FW_UPDATE_COMMIT (R488): FW_UPDATE COMMIT commits the running slot and blows SVN and revoke fuses. -/
  | fwUpdateCommit (f : Frame)
  /-- FW_UPDATE_ABORT (R486): FW_UPDATE ABORT erases the inactive slot record. -/
  | fwUpdateAbort (f : Frame)
  /-- FW_UPDATE_CONFIG (R495): FW_UPDATE CONFIG replaces the admitted host and signer key lists. -/
  | fwUpdateConfig (f : Frame)
  /-- GET_CERTS (R491): Returns the current certificate chain from an offset. -/
  | getCerts (f : Frame)
  /-- CERT_ROTATE (R492): Checks and installs a new certificate chain. -/
  | certRotate (f : Frame)
  /-- ATTEST (R499): Returns a signed attestation report. -/
  | attest (f : Frame)
  /-- POD_QUARANTINE (R504): POD_QUARANTINE QUARANTINE takes a Pod out of service, with or without drain. -/
  | podQuarantine (f : Frame)
  /-- QUARANTINE_ABANDON_TIMER (R504): 1 ms after a quarantine without drain, unfinished unit operations of the Pod are abandoned. -/
  | quarantineAbandonTimer (pod : Fin 512)
  /-- POD_SELFTEST (R505): POD_QUARANTINE SELFTEST tests a quarantined Pod and returns RESULT. -/
  | podSelftest (f : Frame)
  /-- POD_REINSTATE (R506): POD_QUARANTINE REINSTATE returns a Pod to service. -/
  | podReinstate (f : Frame)
  /-- SERVICE_QUERY (R514): SERVICE_STATUS QUERY returns the service state of the part. -/
  | serviceQuery (f : Frame)
  /-- ENGINE_RESET (R510): SERVICE_STATUS ENGINE_RESET resets a Frame Intake engine. -/
  | engineReset (f : Frame)
  /-- PORT_RELINK (R511): SERVICE_STATUS PORT_RELINK takes a port down and retrains it. -/
  | portRelink (f : Frame)
  /-- RELINK_TIMEOUT (R511): A relinked port not up after 500 ms ends the command with E_HW. -/
  | relinkTimeout
  /-- AVS_RECAL (R512): SERVICE_STATUS AVS_RECAL recalibrates every cluster's speed monitor trim. -/
  | avsRecal (f : Frame)
  /-- AVS_RECAL_TIMER (R512): Every 24 hours firmware runs the recalibration by itself. -/
  | avsRecalTimer (trims : List (BitVec 6))
  /-- CLAIM (R520): Claims a shared resource, pre-empting a lower class. -/
  | claim (f : Frame)
  /-- RELEASE (R521): Releases a shared resource. -/
  | release (f : Frame)
  /-- INJECT_ARM (R528): INJECT ARM arms an error injection on a detector. -/
  | injectArm (f : Frame)
  /-- INJECT_DISARM (R528): INJECT DISARM disarms a detector's injection. -/
  | injectDisarm (f : Frame)
  /-- CONTEXT_COUNTERS_READ (R533): COUNTERS_READ GROUP 0 returns a context's fault counters. -/
  | contextCountersRead (f : Frame)
  /-- SNAPSHOT_READ (R533): COUNTERS_READ GROUP 1 returns a register range at one instant. -/
  | snapshotRead (f : Frame)
  /-- SMP_CTL_WRITE (R534): A write to the sampler registers is checked and enables or configures sampling. -/
  | smpCtlWrite (f : Frame)
  /-- SAMPLE_TAKE (R535): At every 2^SMP_PERIOD-th issue opportunity a Pod writes a sample record. -/
  | sampleTake (pod : Fin 512)
  /-- TRAVERSE_START (R540): TRAVERSE_CONFIG START begins a capture. -/
  | traverseStart (f : Frame)
  /-- TRAVERSE_STOP (R540): TRAVERSE_CONFIG STOP ends the capture. -/
  | traverseStop (f : Frame)
  /-- TRAVERSE_STATUS (R540): TRAVERSE_CONFIG STATUS returns the Traverse registers. -/
  | traverseStatus (f : Frame)
  /-- TRAVERSE_READ (R540): TRAVERSE_CONFIG READ returns records from an offset. -/
  | traverseRead (f : Frame)
  /-- TRAVERSE_RECORD (R537): A Surveyor core event produces a Traverse record, a lost record or a GAP. -/
  | traverseRecord (core : Fin 4)
  /-- TRAVERSE_TRIGGER (R538): A trigger source fires in mode 2, writing TRIGGER and starting the post count and any armed freeze. -/
  | traverseTrigger (src : Fin 3)
  /-- TRIGGER_PULSE_END (R540): The 1 µs trigger out pulse ends. -/
  | triggerPulseEnd
  /-- WAIT_GRAPH (R543): Assembles or reads the wait-for graph. -/
  | waitGraph (f : Frame)
  /-- WAIT_GRAPH_SECOND_READ (R544): 1 ms after the first reading firmware rereads the wait records and marks STABLE and KNOT. -/
  | waitGraphSecondRead (sid : Nat)
  /-- FREEZE_NOW (R546): FREEZE NOW injects markers and completes when the cut is complete. -/
  | freezeNow (f : Frame)
  /-- FREEZE_ARM (R545): FREEZE ARM arms a freeze at the next Traverse trigger. -/
  | freezeArm (f : Frame)
  /-- FREEZE_DISARM (R545): FREEZE DISARM disarms a pending freeze. -/
  | freezeDisarm (f : Frame)
  /-- FREEZE_MARKER (R546): A freeze marker reaches a part, which stops and forwards markers and freezes once all inputs have one. -/
  | freezeMarker (u : Nat)
  /-- FREEZE_CUT_TIMEOUT (R546): A cut not complete within 1 ms ends FREEZE with E_HW. -/
  | freezeCutTimeout
  /-- THAW (R548): Releases every frozen part with release markers. -/
  | thaw (f : Frame)
  /-- FREEZE_TIMEOUT_THAW (R548): TIMEOUT_MS expires and firmware thaws by itself. -/
  | freezeTimeoutThaw
  /-- RAIL_BELOW_THRESHOLD (R552): A rail falls below its good threshold and power-on reset is asserted. -/
  | railBelowThreshold (r : Fin 6)
  /-- POR_RELEASE (R552): 16,384 REFCLK periods after the last rail is good, power-on reset is released and release runs. -/
  | porRelease (straps : BitVec 4)
  /-- RESET_N_CORE_THRESHOLD (R552): RESET_N low count reaches the core threshold and core reset is asserted. -/
  | resetNCoreThreshold
  /-- RESET_N_SYSTEM_THRESHOLD (R552): RESET_N low count reaches the system threshold and the reset becomes system reset. -/
  | resetNSystemThreshold
  /-- RESET_N_RELEASE (R559): RESET_N is high for 4 periods and the held reset is released. -/
  | resetNRelease (straps : BitVec 4)
  /-- RESET_CORE (R553): RESET with LEVEL 0 completes and schedules a driven core reset pulse. -/
  | resetCore (f : Frame)
  /-- RESET_SYSTEM (R553): RESET with LEVEL 1 completes and schedules a driven system reset pulse. -/
  | resetSystem (f : Frame)
  /-- RESET_DRIVE_START (R553): 1 ms after the RESET completion the controller drives RESET_N low and sets SELF. -/
  | resetDriveStart
  /-- RESET_DRIVE_END (R553): The drive timer ends and the controller stops driving RESET_N. -/
  | resetDriveEnd
  /-- REFCLK_STOP (R551): REFCLK stops; PLLs lose lock and REFCLK-driven counters stop. -/
  | refclkStop
  /-- REFCLK_RETURN (R551): REFCLK returns and the controller records every lock loss. -/
  | refclkReturn
  /-- RAIL_MONITOR_WINDOW (R568): A rail monitor reading completes and may fire the voltage detector. -/
  | railMonitorWindow (r : Fin 6) (mv : BitVec 12)
  /-- THERMAL_SENSOR_WINDOW (R573): Sensor readings complete and the Alert, Throttle, Hot and Trip thresholds are applied. -/
  | thermalSensorWindow (temps : List (BitVec 8))
  /-- GET_THERMAL (R575): Returns thermal and VCORE state at one instant. -/
  | getThermal (f : Frame)
  /-- TACH_WINDOW (R603): Each second the FAN_TACH edge count becomes the TACH reading. -/
  | tachWindow (edges : List (BitVec 16))
  /-- MCTP_MESSAGE_RECEIVE (R594): An MCTP message arrives over SMBus and its RCP frame is checked as R64. -/
  | mctpMessageReceive (bytes : List Byte)
  /-- SET_ENDPOINT_ID (R594): MCTP control message that assigns the endpoint ID. -/
  | setEndpointId (bytes : List Byte)
  /-- GET_ENDPOINT_ID (R594): MCTP control message returning the endpoint ID. -/
  | getEndpointId (bytes : List Byte)
  /-- GET_ENDPOINT_UUID (R594): MCTP control message returning the endpoint UUID. -/
  | getEndpointUuid (bytes : List Byte)
  /-- GET_MCTP_VERSION_SUPPORT (R594): MCTP control message returning supported versions. -/
  | getMctpVersionSupport (bytes : List Byte)
  /-- GET_MESSAGE_TYPE_SUPPORT (R594): MCTP control message returning supported message types. -/
  | getMessageTypeSupport (bytes : List Byte)
  /-- GET_VENDOR_DEFINED_MESSAGE_SUPPORT (R594): MCTP control message returning vendor-defined message support. -/
  | getVendorDefinedMessageSupport (bytes : List Byte)
  /-- ALERT_RESPONSE_READ (R595): The bus owner reads the alert response address and SMB_ALERT_N is released. -/
  | alertResponseRead
  /-- SMB_ADDR_WRITE (R593): A WRITE_REG of SMB_ADDR sets the target address and alert enable. -/
  | smbAddrWrite (f : Frame)
  /-- JTAG_BYPASS (R592): JTAG BYPASS instruction. -/
  | jtagBypass
  /-- JTAG_IDCODE (R592): JTAG IDCODE instruction reads 0x0560_1A4B. -/
  | jtagIdcode
  /-- JTAG_SAMPLE_PRELOAD (R592): JTAG SAMPLE/PRELOAD instruction. -/
  | jtagSamplePreload
  /-- JTAG_EXTEST (R592): JTAG EXTEST instruction, effective only in system reset. -/
  | jtagExtest
  /-- JTAG_CLAMP (R592): JTAG CLAMP instruction, effective only in system reset. -/
  | jtagClamp
  /-- JTAG_HIGHZ (R592): JTAG HIGHZ instruction, effective only in system reset. -/
  | jtagHighz
  /-- READ_REG (R597): Reads consecutive registers. -/
  | readReg (f : Frame)
  /-- WRITE_REG (R598): Writes a register that has no row of its own, applying RW and W1C fields. -/
  | writeReg (f : Frame)
  /-- GPIO_OUT_WRITE (R603): A WRITE_REG of GPIO_OUT sets owned output pins. -/
  | gpioOutWrite (f : Frame)
  /-- GET_PORT_STATUS (R606): Returns a port's registers at one instant. -/
  | getPortStatus (f : Frame)
  /-- RAIL_GOOD (R552): A supply rail rises above its good threshold; when it is the last rail to become good, the 16,384-period power-on count starts. -/
  | railGood (r : Fin 6)
  /-- PLL_LOCKED (R559): A PLL's lock detector gains lock, PLL_LOCK shows it, and the 64 µs hold before island release begins. -/
  | pllLocked (isl : Fin 47)
  /-- STORE_COMPLETE (R116): An outstanding store or scatter reaches memory and completes, or meets a memory error and faults under R217 with DETAIL 0x0004. -/
  | storeComplete (t : Fin 8192) (k : Nat) (ev : MemEvent)
  /-- NMU_ROW_WRITE_DONE (R333): An NMU row read-modify-write completes in memory, freeing a place in the unit's queue of pending row updates; after the last entry of a closing step, HOME_STEP advances and notices are sent. -/
  | nmuRowWriteDone (u : Fin 32) (ev : MemEvent)
  /-- RESERVATION_REBUILT (R516): Firmware finishes rebuilding the copies of its reservation and the Gazetteer shadows lost with a controller, so both copies serve again. -/
  | reservationRebuilt
  deriving DecidableEq, Repr

end Sys2Proof
end

