-- ==== Sys2Proof/Decode.lean ====
section
/-!
DEFINITION. The commands that words of spec/opcode_table.json spell. The block fetches no instruction: no row of the table gives bits, so no word
spells a command. Frames, datagrams and Pod instructions are decoded where their commands' meanings read them (Machine/RcpRecv.lean,
Machine/Operands.lean).
-/
namespace Sys2Proof

/-- The command that a word of nbits bits spells by the table: none, since the table gives its rows no bits. -/
def decodeTableWord (_nbits _w : Nat) : Option Instr := none

end Sys2Proof
end

