-- ==== Sys2Proof/Machine/Bytes.lean ====
section
/-!
DEFINITION. Little-endian byte strings (R7), bit fields, sparse tables in canonical form, and the list
operations the meanings share.
-/
namespace Sys2Proof

/-! Sparse tables: keys strictly rising. -/

/-- The entry of a key. -/
def Tbl.find {α : Type} : Tbl α → Nat → Option α
  | [], _ => none
  | (k, v) :: t, a => if k = a then some v else if a < k then none else Tbl.find t a

/-- The table with the key's entry set, in key order. -/
def Tbl.put {α : Type} : Tbl α → Nat → α → Tbl α
  | [], a, x => [(a, x)]
  | (k, v) :: t, a, x =>
    if k = a then (a, x) :: t else if a < k then (a, x) :: (k, v) :: t else (k, v) :: Tbl.put t a x

/-- The table without the key's entry. -/
def Tbl.del {α : Type} (t : Tbl α) (a : Nat) : Tbl α := t.filter (fun e => e.1 != a)

/-- The value of a key in a table whose unlisted keys hold d. -/
def Tbl.at {α : Type} (t : Tbl α) (d : α) (a : Nat) : α := (Tbl.find t a).getD d

/-- The table whose unlisted keys hold d, with one value set: d itself is never listed. -/
def Tbl.upd {α : Type} [DecidableEq α] (t : Tbl α) (d : α) (a : Nat) (x : α) : Tbl α :=
  if x = d then Tbl.del t a else Tbl.put t a x

/-- The keys in rising order. -/
def Tbl.keys {α : Type} (t : Tbl α) : List Nat := t.map Prod.fst

/-- The values in rising order of their keys. -/
def Tbl.vals {α : Type} (t : Tbl α) : List α := t.map Prod.snd

/-- The table with f applied to every value. -/
def Tbl.mapV {α β : Type} (t : Tbl α) (f : α → β) : Tbl β := t.map (fun p => (p.1, f p.2))

/-- The entries that satisfy p. -/
def Tbl.keep {α : Type} (t : Tbl α) (p : Nat → α → Bool) : Tbl α := t.filter (fun e => p e.1 e.2)

/-- The keys of a table are strictly rising. -/
def Tbl.sorted {α : Type} : Tbl α → Bool
  | [] => true
  | [_] => true
  | (a, _) :: (b, y) :: t => decide (a < b) && Tbl.sorted ((b, y) :: t)

end Sys2Proof

namespace Sys2Proof.Machine
open Sys2Proof

/-! Byte strings. -/

/-- The little-endian value of a byte string (R7). -/
def le : List Byte → Nat
  | [] => 0
  | b :: bs => b.toNat + 256 * le bs

/-- The n little-endian bytes of a value (R7). -/
def leb : Nat → Nat → List Byte
  | 0, _ => []
  | n + 1, v => BitVec.ofNat 8 v :: leb n (v / 256)

/-- The big-endian value of a byte string (published standards keep their own order, R7). -/
def be (bs : List Byte) : Nat := bs.foldl (fun a b => a * 256 + b.toNat) 0

/-- The n big-endian bytes of a value. -/
def beb (n v : Nat) : List Byte := (leb n v).reverse

/-- The little-endian field of size bytes at a byte offset (R9). -/
def fld (bs : List Byte) (off size : Nat) : Nat := le ((bs.drop off).take size)

/-- The bytes of a field, unread. -/
def sub (bs : List Byte) (off size : Nat) : List Byte := (bs.drop off).take size

/-- n zero bytes. -/
def zeros (n : Nat) : List Byte := List.replicate n 0

/-- Whether every byte of the field is zero. -/
def fldZero (bs : List Byte) (off size : Nat) : Bool := (sub bs off size).all (· == 0)

/-- The first n bytes, filled up with zeros. -/
def padTo (n : Nat) (bs : List Byte) : List Byte := (bs ++ zeros (n - bs.length)).take n

/-- bs with the bytes at off replaced by vs. -/
def splice (bs : List Byte) (off : Nat) (vs : List Byte) : List Byte :=
  bs.take off ++ vs ++ bs.drop (off + vs.length)

/-! Numbers. -/

/-- Bits [hi:lo] of a number (R7). -/
def bits (v hi lo : Nat) : Nat := (v / 2 ^ lo) % 2 ^ (hi + 1 - lo)

/-- Bit i of a number. -/
def bit (v i : Nat) : Bool := (v / 2 ^ i) % 2 == 1

/-- A truth value as a bit. -/
def b2n (b : Bool) : Nat := if b then 1 else 0

/-- v with bit i set. -/
def setBit (v i : Nat) : Nat := if bit v i then v else v + 2 ^ i

/-- v with bit i clear. -/
def clearBit (v i : Nat) : Nat := if bit v i then v - 2 ^ i else v

/-- A bit vector with bit i set or cleared. -/
def putBit {n : Nat} (v : BitVec n) (i : Nat) (b : Bool) : BitVec n :=
  (v &&& ~~~ ((1 : BitVec n) <<< i)) ||| (if b then (1 : BitVec n) <<< i else 0)

/-- A power of two. -/
def isPow2 (v : Nat) : Bool := v != 0 && v == 2 ^ Nat.log2 v

/-- The count of set bits below a width. -/
def popcountTo : Nat → Nat → Nat
  | 0, _ => 0
  | n + 1, v => v % 2 + popcountTo n (v / 2)

/-- Division rounded up. -/
def ceilDiv (a b : Nat) : Nat := (a + b - 1) / b

/-- v rounded up to a multiple of a. -/
def alignUp (v a : Nat) : Nat := ceilDiv v a * a

/-- A counter of 32 bits that saturates. -/
def sat32 (v n : Nat) : Nat := min (v + n) 0xFFFF_FFFF

/-- The two's complement reading of w bits. -/
def signed (w v : Nat) : Int := if 2 * v < 2 ^ w then v else (v : Int) - 2 ^ w

/-- The w-bit two's complement pattern of an integer. -/
def unsigned (w : Nat) (v : Int) : Nat := (v % (2 : Int) ^ w).toNat

/-! Lists. -/

/-- The i-th element or a default. -/
def nth {α : Type} (l : List α) (d : α) (i : Nat) : α := l.getD i d

/-- The list with the i-th element changed. -/
def modNth {α : Type} (l : List α) (i : Nat) (f : α → α) : List α := l.modify i f

/-- The first index below n for which p holds. -/
def firstIdx (p : Nat → Bool) (n : Nat) : Option Nat := (List.range n).find? p

/-- The error of a failing row whose first entry at fault is e: the entries after it with the same status and DETAIL belong to the row, and the one at the
lowest payload offset names the field (R610). An entry that names no field stands alone. -/
def rowErr (e : Err) (t : List (Bool × Err)) : Err :=
  if e.arg = 0xFFFF then e
  else ((t.takeWhile (fun x => x.2.status == e.status && x.2.detail == e.detail)).filter Prod.fst).foldl (fun a x => if x.2.arg < a.arg then x.2 else a) e

/-- The first failing row of a table of failures, taken in the order listed (R610). -/
def firstFail : List (Bool × Err) → Option Err
  | [] => none
  | (c, e) :: t => if c then some (rowErr e t) else firstFail t

/-- The last n elements. -/
def lastN {α : Type} (n : Nat) (l : List α) : List α := l.drop (l.length - n)

/-- Insertion into an order given by le. -/
def insertBy {α : Type} (le : α → α → Bool) (x : α) : List α → List α
  | [] => [x]
  | y :: t => if le x y then x :: y :: t else y :: insertBy le x t

/-- Stable insertion sort. -/
def sortBy {α : Type} (le : α → α → Bool) (l : List α) : List α :=
  l.foldr (insertBy le) []

/-- The element with the least key, the first on ties. -/
def minBy {α : Type} (key : α → Nat) : List α → Option α
  | [] => none
  | x :: t => match minBy key t with
    | none => some x
    | some y => if key x ≤ key y then some x else some y

/-- Apply f n times. -/
def times {α : Type} (n : Nat) (f : α → α) (x : α) : α := n.rec x (fun _ y => f y)

end Sys2Proof.Machine
end

