-- ==== Sys2Proof/Machine/Crypto.lean ====
section
/-!
DEFINITION. CRC-32C (R60, R255), CRC-32 (R242, R445), SHA-384 (FIPS 180-4), HMAC and HKDF over it (R63, R493), and ECDSA over P-384
(FIPS 186-5; R481, R489, R494).
-/
namespace Sys2Proof.Machine
open Sys2Proof

/-! CRCs of 32 bits. -/

/-- Eight steps of a reflected CRC register of 32 bits with the polynomial poly. -/
def crcStep (poly c : BitVec 32) (b : Byte) : BitVec 32 :=
  times 8 (fun x => if x.getLsbD 0 then (x >>> 1) ^^^ poly else x >>> 1) (c ^^^ b.setWidth 32)

/-- Eight steps of the reflected CRC-32C register. -/
def crcByte (c : BitVec 32) (b : Byte) : BitVec 32 := crcStep 0x82F63B78#32 c b

/-- The CRC-32 of Ethernet frames (FCS, R40, R445) and of Parquet pages (R242). -/
def crc32 (bs : List Byte) : Nat := (~~~ (bs.foldl (crcStep 0xEDB88320#32) 0xFFFFFFFF#32)).toNat

/-- CRC-32C of a byte string, with the register started from an earlier CRC. -/
def crc32cFrom (seed : BitVec 32) (bs : List Byte) : BitVec 32 := ~~~ (bs.foldl crcByte (~~~ seed))

/-- CRC-32C of a byte string (R60). -/
def crc32c (bs : List Byte) : Nat := (crc32cFrom 0 bs).toNat

/-! SHA-384. -/

/-- n 64-bit words from one number, the most significant first. -/
def wordsOf (n v : Nat) : List (BitVec 64) := (List.range n).map (fun i => BitVec.ofNat 64 (v / 2 ^ (64 * (n - 1 - i))))

/-- The round constants of SHA-512 and SHA-384, five to a row. -/
def shaK : List (BitVec 64) := ([
  0x428a2f98d728ae227137449123ef65cdb5c0fbcfec4d3b2fe9b5dba58189dbbc3956c25bf348b538,
  0x59f111f1b605d019923f82a4af194f9bab1c5ed5da6d8118d807aa98a303024212835b0145706fbe,
  0x243185be4ee4b28c550c7dc3d5ffb4e272be5d74f27b896f80deb1fe3b1696b19bdc06a725c71235,
  0xc19bf174cf692694e49b69c19ef14ad2efbe4786384f25e30fc19dc68b8cd5b5240ca1cc77ac9c65,
  0x2de92c6f592b02754a7484aa6ea6e4835cb0a9dcbd41fbd476f988da831153b5983e5152ee66dfab,
  0xa831c66d2db43210b00327c898fb213fbf597fc7beef0ee4c6e00bf33da88fc2d5a79147930aa725,
  0x06ca6351e003826f142929670a0e6e7027b70a8546d22ffc2e1b21385c26c9264d2c6dfc5ac42aed,
  0x53380d139d95b3df650a73548baf63de766a0abb3c77b2a881c2c92e47edaee692722c851482353b,
  0xa2bfe8a14cf10364a81a664bbc423001c24b8b70d0f89791c76c51a30654be30d192e819d6ef5218,
  0xd69906245565a910f40e35855771202a106aa07032bbd1b819a4c116b8d2d0c81e376c085141ab53,
  0x2748774cdf8eeb9934b0bcb5e19b48a8391c0cb3c5c95a634ed8aa4ae3418acb5b9cca4f7763e373,
  0x682e6ff3d6b2b8a3748f82ee5defb2fc78a5636f43172f6084c87814a1f0ab728cc702081a6439ec,
  0x90befffa23631e28a4506cebde82bde9bef9a3f7b2c67915c67178f2e372532bca273eceea26619c,
  0xd186b8c721c0c207eada7dd6cde0eb1ef57d4f7fee6ed17806f067aa72176fba0a637dc5a2c898a6,
  0x113f9804bef90dae1b710b35131c471b28db77f523047d8432caab7b40c724933c9ebe0a15c9bebc,
  0x431d67c49c100d4c4cc5d4becb3e42b6597f299cfc657e2a5fcb6fab3ad6faec6c44198c4a475817] : List Nat).flatMap (wordsOf 5)

/-- The initial hash value of SHA-384. -/
def sha384Init : List (BitVec 64) := wordsOf 8
  0xcbbb9d5dc1059ed8629a292a367cd5079159015a3070dd17152fecd8f70e593967332667ffc00b318eb44a8768581511db0c2e0d64f98fa747b5481dbefa4fa4

/-- The exclusive or of the rotations of x right by the amounts of a list. -/
def rotXor (l : List Nat) (x : BitVec 64) : BitVec 64 := l.foldl (fun a n => a ^^^ x.rotateRight n) 0

/-- The next word of the message schedule, from the last sixteen words, the newest first. -/
def shaSched (w : List (BitVec 64)) : BitVec 64 :=
  let x := nth w 0 1; let y := nth w 0 14
  ((rotXor [19, 61] x ^^^ (x >>> 6)) + nth w 0 6) + ((rotXor [1, 8] y ^^^ (y >>> 7)) + nth w 0 15)

/-- The eighty words of the message schedule of a block. -/
def shaWords (block : List (BitVec 64)) : List (BitVec 64) :=
  (times 64 (fun w => shaSched w :: w) block.reverse).reverse

/-- One round of SHA-512's compression function on the working variables a to h. -/
def shaRound (v : List (BitVec 64)) (kw : BitVec 64 × BitVec 64) : List (BitVec 64) :=
  match v with
  | [a, b, c, d, e, f, g, h] =>
    let x := kw.1 + kw.2 + h + rotXor [14, 18, 41] e + (g ^^^ (e &&& (f ^^^ g)))
    let y := rotXor [28, 34, 39] a + ((a &&& (b ||| c)) ||| (b &&& c))
    [x + y, a, b, c, x + d, e, f, g]
  | _ => v

/-- The compression function on one block of sixteen words. -/
def shaBlock (h : List (BitVec 64)) (block : List (BitVec 64)) : List (BitVec 64) :=
  List.zipWith (· + ·) h ((shaK.zip (shaWords block)).foldl shaRound h)

/-- The padded message of SHA-384. -/
def shaPad (bs : List Byte) : List Byte :=
  bs ++ [0x80] ++ zeros ((239 - bs.length % 128) % 128) ++ beb 16 (8 * bs.length)

/-- n blocks of sixteen big-endian words, in order. -/
def shaBlocks : Nat → List Byte → List (BitVec 64) → List (BitVec 64)
  | 0, _, h => h
  | n + 1, bs, h =>
    shaBlocks n (bs.drop 128)
      (shaBlock h ((List.range 16).map (fun i => BitVec.ofNat 64 (be (sub bs (8 * i) 8)))))

/-- SHA-384 (FIPS 180-4). -/
def sha384 (bs : List Byte) : List Byte :=
  let p := shaPad bs
  ((shaBlocks (p.length / 128) p sha384Init).take 6).flatMap (fun w => beb 8 w.toNat)

/-- HMAC-SHA-384 (R63). -/
def hmac384 (key msg : List Byte) : List Byte :=
  let k := padTo 128 (if key.length > 128 then sha384 key else key)
  sha384 (k.map (· ^^^ 0x5C) ++ sha384 (k.map (· ^^^ 0x36) ++ msg))

/-- HKDF-SHA-384 with one output block of 48 bytes (RFC 5869, R493). -/
def hkdf384 (salt ikm info : List Byte) : List Byte := hmac384 (hmac384 salt ikm) (info ++ [1])

/-! P-384. -/

/-- The field prime of P-384. -/
def p384P : Nat := 2 ^ 384 - 2 ^ 128 - 2 ^ 96 + 2 ^ 32 - 1
/-- The group order of P-384. -/
def p384N : Nat :=
  0xffffffffffffffffffffffffffffffffffffffffffffffffc7634d81f4372ddf581a0db248b0a77aecec196accc52973
/-- The curve coefficient b of P-384; a is -3. -/
def p384B : Nat :=
  0xb3312fa7e23ee7e4988e056be3f82d19181d9c6efe8141120314088f5013875ac656398d8a2ed19d2a85c8edd3ec2aef
/-- The base point of P-384. -/
def p384G : Nat × Nat :=
  (0xaa87ca22be8b05378eb1c71ef320ad746e1d3b628ba79b9859f741e082542a385502f25dbf55296c3a545e3872760ab7,
   0x3617de4a96262c6f5d9e98bf9292dc29f8f41dbd289a147ce9da3113b5f0b8c00a60b1ce1d7e819d7a431d7c90ea0e5f)

/-- x to the power e modulo m, over n bits of e from the least significant. -/
def powModFuel : Nat → Nat → Nat → Nat → Nat
  | 0, _, _, m => 1 % m
  | n + 1, x, e, m =>
    let r := powModFuel n (x * x % m) (e / 2) m
    if e % 2 = 1 then r * x % m else r

/-- The inverse modulo a prime of at most 384 bits. -/
def invMod (x m : Nat) : Nat := powModFuel 384 (x % m) (m - 2) m

/-- Points of P-384; none is the point at infinity. -/
abbrev Point := Option (Nat × Nat)

/-- Addition on P-384. -/
def ptAdd (a b : Point) : Point :=
  match a, b with
  | none, q => q
  | p, none => p
  | some (x1, y1), some (x2, y2) =>
    if x1 = x2 then
      if (y1 + y2) % p384P = 0 then none
      else
        let l := (3 * x1 * x1 + (p384P - 3)) * invMod (2 * y1) p384P % p384P
        let x3 := (l * l + 2 * (p384P - x1)) % p384P
        some (x3, (l * (x1 + p384P - x3) + (p384P - y1)) % p384P)
    else
      let l := (y2 + p384P - y1) * invMod (x2 + p384P - x1) p384P % p384P
      let x3 := (l * l + (p384P - x1) + (p384P - x2)) % p384P
      some (x3, (l * (x1 + p384P - x3) + (p384P - y1)) % p384P)

/-- A point of P-384 as (X, Y, Z) for x = X/Z², y = Y/Z³ modulo the prime; Z = 0 is the point at infinity. -/
abbrev Jac := Nat × Nat × Nat

/-- x - y modulo the prime, for y below it. -/
def subP (x y : Nat) : Nat := (x + (p384P - y)) % p384P

/-- A point doubled. -/
def jacDouble (p : Jac) : Jac :=
  let x := p.1; let y := p.2.1; let z := p.2.2
  let d := z * z % p384P
  let g := y * y % p384P
  let b := x * g % p384P
  let a := 3 * (subP x d * (x + d)) % p384P
  let x3 := subP (a * a) (8 * b % p384P)
  (x3, subP (a * subP (4 * b) x3) (8 * (g * g) % p384P), 2 * y * z % p384P)

/-- The sum of two points. -/
def jacAdd (p q : Jac) : Jac :=
  if p.2.2 = 0 then q
  else if q.2.2 = 0 then p
  else
    let z1 := p.2.2 * p.2.2 % p384P
    let z2 := q.2.2 * q.2.2 % p384P
    let u := p.1 * z2 % p384P
    let v := p.2.1 * (z2 * q.2.2) % p384P
    let h := subP (q.1 * z1) u
    let r := subP (q.2.1 * (z1 * p.2.2)) v
    if h = 0 then (if r = 0 then jacDouble p else (1, 1, 0))
    else
      let h2 := h * h % p384P
      let h3 := h * h2 % p384P
      let w := u * h2 % p384P
      let x3 := subP (r * r) ((h3 + 2 * w) % p384P)
      (x3, subP (r * subP w x3) (v * h3 % p384P), h * (p.2.2 * q.2.2) % p384P)

/-- The multiple of a point by n bits of k. -/
def jacMul : Nat → Nat → Jac → Jac
  | 0, _, _ => (1, 1, 0)
  | n + 1, k, p =>
    let r := jacMul n (k / 2) (jacDouble p)
    if k % 2 = 1 then jacAdd r p else r

/-- The point with its own coordinates. -/
def jacPoint (p : Jac) : Point :=
  if p.2.2 = 0 then none
  else
    let w := invMod p.2.2 p384P
    some (p.1 * (w * w % p384P) % p384P, p.2.1 * (w * w % p384P * w) % p384P)

/-- k times a point. -/
def ptMul (k : Nat) (p : Point) : Point :=
  match p with
  | none => none
  | some (x, y) => jacPoint (jacMul 384 k (x, y, 1))

/-- The point of a 97-byte SEC1 uncompressed key, none where it is no point of the curve. -/
def ptDecode (key : List Byte) : Point :=
  let x := be (sub key 1 48); let y := be (sub key 49 48)
  if key.length = 97 ∧ fld key 0 1 = 4 ∧ x < p384P ∧ y < p384P ∧
      y * y % p384P = (x * x * x + (p384P - 3) * x + p384B) % p384P then some (x, y) else none

/-- The SEC1 uncompressed form of a point. -/
def ptEncode : Point → List Byte
  | none => zeros 97
  | some (x, y) => [4] ++ beb 48 x ++ beb 48 y

/-- The integer of a 48-byte digest. -/
def digestInt (d : List Byte) : Nat := be d

/-- ECDSA verification of a 96-byte signature over a digest (R481). -/
def ecdsaVerify (key digest sig : List Byte) : Bool :=
  let r := be (sub sig 0 48); let s := be (sub sig 48 48)
  match ptDecode key with
  | none => false
  | some q =>
    decide (0 < r ∧ r < p384N ∧ 0 < s ∧ s < p384N) &&
    (let w := invMod s p384N
     match ptAdd (ptMul (digestInt digest * w % p384N) (some p384G)) (ptMul (r * w % p384N) (some q)) with
     | none => false
     | some (x, _) => decide (x % p384N = r))

/-- ECDSA signing with private key d and nonce k (R494, R499). -/
def ecdsaSign (d k : Nat) (digest : List Byte) : List Byte :=
  let r := match ptMul k (some p384G) with
    | none => 0
    | some (x, _) => x % p384N
  beb 48 r ++ beb 48 (invMod k p384N * (digestInt digest + r * d) % p384N)

/-- A private key or nonce in 1 to n - 1 from any number. -/
def scalarOf (v : Nat) : Nat := v % (p384N - 1) + 1

/-- The bytes of "GHERVANOR-IDENTITY-1" (R489). -/
def identityLabel : List Byte := [0x47, 0x48, 0x45, 0x52, 0x56, 0x41, 0x4E, 0x4F, 0x52, 0x2D,
  0x49, 0x44, 0x45, 0x4E, 0x54, 0x49, 0x54, 0x59, 0x2D, 0x31]

/-- The identity private key of R489. -/
def identityKey (uds : List Byte) : Nat := be (hmac384 uds identityLabel) % (p384N - 1) + 1

/-- The bytes of "RCP1-SESSION" (R493). -/
def sessionLabel : List Byte := [0x52, 0x43, 0x50, 0x31, 0x2D, 0x53, 0x45, 0x53, 0x53, 0x49, 0x4F, 0x4E]

end Sys2Proof.Machine
end

