-- ==== Sys2Proof/Machine/Hash.lean ====
section
/-!
DEFINITION. The hash functions of R119 and R255 to R257: CRC-32C, xxHash64, MurmurHash3 x64_128, SipHash-2-4, G-hash and its combine step.
-/
namespace Sys2Proof.Machine
open Sys2Proof

/-- A little-endian 64-bit word at an offset, bytes past the end taken as zero. -/
def w64 (b : List Byte) (off : Nat) : Word64 := BitVec.ofNat 64 (fld b off 8)

/-! xxHash64, the published reference algorithm. -/

def xxP1 : Word64 := 0x9E3779B185EBCA87
def xxP2 : Word64 := 0xC2B2AE3D27D4EB4F
def xxP3 : Word64 := 0x165667B19E3779F9
def xxP4 : Word64 := 0x85EBCA77C2B2AE63
def xxP5 : Word64 := 0x27D4EB2F165667C5

/-- One accumulation round. -/
def xxRound (acc x : Word64) : Word64 := (acc + x * xxP2).rotateLeft 31 * xxP1

/-- An accumulator merged into the hash. -/
def xxMerge (h acc : Word64) : Word64 := (h ^^^ xxRound 0 acc) * xxP1 + xxP4

/-- n stripes of 32 bytes over the four accumulators. -/
def xxStripes : Nat → List Byte → Word64 × Word64 × Word64 × Word64 → Word64 × Word64 × Word64 × Word64
  | 0, _, v => v
  | n + 1, b, (a, c, d, e) =>
    xxStripes n (b.drop 32) (xxRound a (w64 b 0), xxRound c (w64 b 8), xxRound d (w64 b 16), xxRound e (w64 b 24))

/-- The bytes after the last stripe: words of 8, one of 4, then single bytes; fuel bounds the steps. -/
def xxTail : Nat → List Byte → Word64 → Word64
  | 0, _, h => h
  | n + 1, b, h =>
    if b.length ≥ 8 then xxTail n (b.drop 8) ((h ^^^ xxRound 0 (w64 b 0)).rotateLeft 27 * xxP1 + xxP4)
    else if b.length ≥ 4 then
      xxTail n (b.drop 4) ((h ^^^ (BitVec.ofNat 64 (fld b 0 4) * xxP1)).rotateLeft 23 * xxP2 + xxP3)
    else match b with
      | [] => h
      | x :: t => xxTail n t ((h ^^^ (x.setWidth 64 * xxP5)).rotateLeft 11 * xxP1)

/-- The final mix. -/
def xxFinal (h : Word64) : Word64 :=
  let h := (h ^^^ (h >>> 33)) * xxP2
  let h := (h ^^^ (h >>> 29)) * xxP3
  h ^^^ (h >>> 32)

/-- xxHash64 of bytes under a seed. -/
def xxHash64 (b : List Byte) (seed : Word64) : Word64 :=
  let k := b.length / 32
  let h := if k = 0 then seed + xxP5
    else
      let (a, c, d, e) := xxStripes k b (seed + xxP1 + xxP2, seed + xxP2, seed, seed - xxP1)
      xxMerge (xxMerge (xxMerge (xxMerge
        (a.rotateLeft 1 + c.rotateLeft 7 + d.rotateLeft 12 + e.rotateLeft 18) a) c) d) e
  xxFinal (xxTail (b.length + 1) (b.drop (32 * k)) (h + BitVec.ofNat 64 b.length))

/-! MurmurHash3 x64_128, the published reference algorithm; the first half. -/

def murC1 : Word64 := 0x87C37B91114253D5
def murC2 : Word64 := 0x4CF5AD432745937F

/-- The two key mixes. -/
def murK1 (k : Word64) : Word64 := (k * murC1).rotateLeft 31 * murC2
def murK2 (k : Word64) : Word64 := (k * murC2).rotateLeft 33 * murC1

/-- The finalisation mix. -/
def murFmix (k : Word64) : Word64 :=
  let k := (k ^^^ (k >>> 33)) * 0xFF51AFD7ED558CCD
  let k := (k ^^^ (k >>> 33)) * 0xC4CEB9FE1A85EC53
  k ^^^ (k >>> 33)

/-- n blocks of 16 bytes. -/
def murBlocks : Nat → List Byte → Word64 × Word64 → Word64 × Word64
  | 0, _, h => h
  | n + 1, b, (h1, h2) =>
    let h1 := ((h1 ^^^ murK1 (w64 b 0)).rotateLeft 27 + h2) * 5 + 0x52DCE729
    let h2 := ((h2 ^^^ murK2 (w64 b 8)).rotateLeft 31 + h1) * 5 + 0x38495AB5
    murBlocks n (b.drop 16) (h1, h2)

/-- MurmurHash3 x64_128 of bytes under a 32-bit seed: h1. -/
def murmur3 (b : List Byte) (seed : Nat) : Word64 :=
  let k := b.length / 16
  let (h1, h2) := murBlocks k b (BitVec.ofNat 64 seed, BitVec.ofNat 64 seed)
  let t := b.drop (16 * k)
  let h2 := if t.length > 8 then h2 ^^^ murK2 (w64 t 8) else h2
  let h1 := if t.length > 0 then h1 ^^^ murK1 (w64 (t.take 8) 0) else h1
  let n := BitVec.ofNat 64 b.length
  let h1 := h1 ^^^ n
  let h2 := h2 ^^^ n
  let h1 := h1 + h2
  let h2 := h2 + h1
  murFmix h1 + murFmix h2

/-! SipHash-2-4. -/

/-- One SipRound. -/
def sipRound (v : Word64 × Word64 × Word64 × Word64) : Word64 × Word64 × Word64 × Word64 :=
  let (a, b, c, d) := v
  let a := a + b
  let b := b.rotateLeft 13 ^^^ a
  let a := a.rotateLeft 32
  let c := c + d
  let d := d.rotateLeft 16 ^^^ c
  let a := a + d
  let d := d.rotateLeft 21 ^^^ a
  let c := c + b
  let b := b.rotateLeft 17 ^^^ c
  (a, b, c.rotateLeft 32, d)

/-- One message word with its two compression rounds. -/
def sipWord (v : Word64 × Word64 × Word64 × Word64) (m : Word64) : Word64 × Word64 × Word64 × Word64 :=
  let (a, b, c, d) := v
  let (a, b, c, d) := sipRound (sipRound (a, b, c, d ^^^ m))
  (a ^^^ m, b, c, d)

/-- SipHash-2-4 of bytes under k0 and k1. -/
def sipHash (bs : List Byte) (k0 k1 : Word64) : Word64 :=
  let n := bs.length
  let ws := (List.range (n / 8)).map (fun i => w64 bs (8 * i))
  let last := BitVec.ofNat 64 (fld bs (8 * (n / 8)) 7 + (n % 256) * 2 ^ 56)
  let v0 := (k0 ^^^ 0x736F6D6570736575, k1 ^^^ 0x646F72616E646F6D, k0 ^^^ 0x6C7967656E657261, k1 ^^^ 0x7465646279746573)
  let (a, b, c, d) := sipWord (ws.foldl sipWord v0) last
  let (a, b, c, d) := times 4 sipRound (a, b, c ^^^ 0xFF, d)
  a ^^^ b ^^^ c ^^^ d

/-! G-hash (R256). -/

def gK0 : Word64 := 0x6A09E667F3BCC908
def gK1 : Word64 := 0x3C6EF372FE94F82B
def gM1 : Word64 := 0xA24BAED4963EE407
def gM2 : Word64 := 0x9FB21C651E98DF25

/-- absorb over n words of 8 bytes. -/
def gAbsorb : Nat → List Byte → Word64 → Word64
  | 0, _, h => h
  | n + 1, b, h =>
    let h := (h ^^^ w64 b 0) * gM1
    gAbsorb n (b.drop 8) (h ^^^ (h >>> 31))

/-- fin. -/
def gFin (h : Word64) : Word64 :=
  let h := (h ^^^ (h >>> 33)) * gM2
  h ^^^ (h >>> 29)

/-- ghash of bytes under a seed. -/
def gHash (b : List Byte) (seed : Word64) : Word64 :=
  gFin (gAbsorb (ceilDiv b.length 8) b (seed ^^^ gK0 ^^^ BitVec.ofNat 64 b.length))

/-- The combine step on a running hash. -/
def gCombine (r : Word64) (b : List Byte) : Word64 :=
  gFin (gAbsorb (ceilDiv b.length 8) b ((r * gM1) ^^^ gK1 ^^^ BitVec.ofNat 64 b.length))

/-- Function f of R119 on bytes, with its seed or keys; CRC-32C fills the low 32 bits. -/
def hashFn (f : Nat) (b : List Byte) (k0 k1 : Word64) : Word64 :=
  if f = 0 then (crc32cFrom (k0.setWidth 32) b).setWidth 64
  else if f = 1 then xxHash64 b k0
  else if f = 2 then murmur3 b (k0.toNat % 2 ^ 32)
  else if f = 3 then sipHash b k0 k1
  else if f = 4 then gHash b k0
  else gCombine k0 b

end Sys2Proof.Machine
end

