-- ==== Sys2Proof/Config.lean ====
section
/-!
DEFINITION. What the spec leaves open: free values and published standards whose bytes the spec does not give.
Nothing in Lean can evaluate a constant of this file, so a statement holds for every value of it.
-/
namespace Sys2Proof

/-- The type of an Arrow field (R230, R240). A time unit is numbered as TS_UNIT of R233; large types have offsets of 8 bytes. -/
inductive ArrowType where
  | int (bits : Nat) (signed : Bool)
  | floating (bits : Nat)
  | bool
  | utf8 (large : Bool)
  | binary (large : Bool)
  | fixedBinary (bytes : Nat)
  | timestamp (unit : Nat)
  | list (large : Bool)
  | fixedList (len : Nat)
  | other
  deriving DecidableEq, Repr, Inhabited

/-- A field of an Arrow schema: its type, the types of its child fields, and whether it is dictionary-encoded. -/
structure ArrowField where
  type : ArrowType
  children : List ArrowType
  dictionary : Bool
  deriving DecidableEq, Repr, Inhabited

/-- What an Arrow IPC message carries (R240, R241). Field nodes are lengths and null counts, buffers are offsets and lengths. -/
inductive ArrowHeader where
  | schema (bigEndian : Bool) (fields : List ArrowField)
  | dictionaryBatch
  | recordBatch (rows : Nat) (nodes buffers : List (Nat × Nat)) (compression : Bool)
  | other
  deriving DecidableEq, Repr, Inhabited

/-- The metadata of an Arrow IPC message as they stand in its flatbuffer: the metadata version (V5 is 5), the header, the length of
the body, and the pairs of custom_metadata. -/
structure ArrowMessage where
  version : Nat
  header : ArrowHeader
  bodyLength : Nat
  pairs : List (List Byte × List Byte)
  deriving DecidableEq, Repr, Inhabited

/-- One value of a column: null, its bytes, or the elements of a list. -/
inductive Cell where
  | null
  | val (b : List Byte)
  | list (es : List (Option (List Byte)))
  deriving DecidableEq, Repr, Inhabited

/-- A sequence-level header that takes effect (R417, R426, R427): an AV1 sequence header, an SPS or an SOF, by the fields of its standard. profiles:
seq_profile, general_profile_idc with the compatibility flags that are set, profile_idc, or the number of the SOF marker; constraint1 and constraint3 the
constraint_set flags of H.264; the bit depths of luma and chroma; chroma 0 for monochrome, 1 for 4:2:0, 2 for 4:2:2, 3 for 4:4:4; the declared maxima of
width and height in luma samples; the luma samples cropped at the left, right, top and bottom; the declared number of buffered frames
(sps_max_dec_pic_buffering_minus1, max_dec_frame_buffering), none where absent; level_idc; the side of an AV1 superblock or an H.265 CTU; the
sampling factors of JPEG components. -/
structure VideoHeader where
  profiles : List Nat
  constraint1 : Bool
  constraint3 : Bool
  depthY : Nat
  depthC : Nat
  chroma : Nat
  width : Nat
  height : Nat
  crop : Nat × Nat × Nat × Nat
  buffering : Option Nat
  level : Nat
  unit : Nat
  factors : List (Nat × Nat)
  deriving DecidableEq, Repr, Inhabited

/-- A coded picture or field (R418, R428): its H.265 layer; its width and height in luma samples as coded, and the width after AV1 superresolution; of a
field, whether it is the bottom one, and whether it is the second of its pair; whether it begins a coded video sequence, its place in the output order of
that sequence, whether it is output; whether it refers to a frame that was never decoded; the coding units decoded before one that its standard
forbids; its planes as reconstructed, without film grain. -/
structure CodedPicture where
  layer : Nat
  width : Nat
  height : Nat
  upscaled : Nat
  bottom : Option Bool
  second : Bool
  first : Bool
  order : Nat
  output : Bool
  missing : Bool
  bad : Option Nat
  planes : List (List Nat)
  deriving DecidableEq, Repr, Inhabited

/-- One thing a decoder meets, in stream order: a header, a picture, an AV1 show_existing_frame with the frame it shows, a profile, tool or format that R417
does not name, an element that the standard forbids between pictures, the input's end inside a frame. -/
inductive CodedStep where
  | header (h : VideoHeader)
  | picture (p : CodedPicture)
  | again (p : CodedPicture)
  | outside
  | forbidden
  | cut
  deriving DecidableEq, Repr, Inhabited

end Sys2Proof

namespace Sys2Proof.Config

/-- The k-th free value the model draws: a session identifier, a key, a handle, an undefined byte (R5). DESIGN CHOICE: see log entry 3. -/
opaque freeNat : Nat → Nat

/-- Which of the values inside the bound of R151 VFLOG1P (0) and VFEXP (1) return, per operation, format and operand pattern:
the same for the same input on every run. -/
opaque ulpPick : Nat → Nat → Nat → Nat

/-- The metadata of an Arrow IPC message as its flatbuffer reads (R240): none where verification of the flatbuffer fails. What is accepted
of them is the model's own text. -/
opaque arrowMessage : List Byte → Option ArrowMessage

/-- What a bitstream holds by the standard of its CODEC, in stream order, each with the offset at which it ends (R417, R418). Arguments: codec, bitstream. What of
it is accepted, in which order frames are shown, how they are cropped and paired, what a coding unit is and what stores a sequence needs are the
model's, by R417 to R428. -/
opaque decodeVideo : Nat → List Byte → List (CodedStep × Nat)

/-- The memory controllers that hold the two shadow copies of a Gazetteer entry or segment pair, as one number (R360). Arguments: bank, entry. -/
opaque shadowHome : Nat → Nat → Nat

/-- The updates that the queue of a near-memory update unit holds (R333). -/
opaque nmuDepth : Nat

/-- The items of a flow that its slice holds on die (R164). -/
opaque onDieEntries : Nat

/-- The bytes of the MCTP endpoint's UUID (R594, log entry 3). -/
opaque endpointUuid : Nat → Byte

/-- The four bytes of the version that the endpoint reports for an MCTP message type (R594, log entry 3). -/
opaque mctpVersion : Nat → Nat → Byte

/-- The vendor command set type that the endpoint reports (R594, log entry 3). -/
opaque vendorCommandSet : Nat

end Sys2Proof.Config
end

