-- ==== Sys2Proof/Machine/Num.lean ====
section
/-!
DEFINITION. Number formats and arithmetic (R139 to R160): decoding, exact values, rounding with flags, the operations of the Pods and
units, conversions, stochastic rounding, row-coded values.
-/
namespace Sys2Proof.Machine
open Sys2Proof

/-! Formats (R139). -/

/-- A floating-point format: exponent bits, fraction bits, bias, whether it has infinities. -/
structure Fmt where
  eb : Nat
  fb : Nat
  bias : Nat
  inf : Bool
  deriving DecidableEq, Repr

def fp64 : Fmt := ⟨11, 52, 1023, true⟩
def fp32 : Fmt := ⟨8, 23, 127, true⟩
def bf16 : Fmt := ⟨8, 7, 127, true⟩
def fp16 : Fmt := ⟨5, 10, 15, true⟩
def e5m2 : Fmt := ⟨5, 2, 15, true⟩
def e4m3 : Fmt := ⟨4, 3, 7, false⟩

/-- Bits of a format. -/
def Fmt.width (f : Fmt) : Nat := 1 + f.eb + f.fb
/-- The all-ones exponent field. -/
def Fmt.emax (f : Fmt) : Nat := 2 ^ f.eb - 1
/-- The canonical NaN (R139). -/
def Fmt.nan (f : Fmt) : Nat := if f.inf then f.emax * 2 ^ f.fb + 2 ^ (f.fb - 1) else 2 ^ (f.eb + f.fb) - 1
/-- The largest finite magnitude's pattern. -/
def Fmt.maxFinite (f : Fmt) : Nat := if f.inf then f.emax * 2 ^ f.fb - 1 else 2 ^ (f.eb + f.fb) - 2
/-- The sign bit. -/
def Fmt.signBit (f : Fmt) (neg : Bool) : Nat := if neg then 2 ^ (f.eb + f.fb) else 0
/-- Infinity of a sign, in a format that has it. -/
def Fmt.infinity (f : Fmt) (neg : Bool) : Nat := f.signBit neg + f.emax * 2 ^ f.fb
/-- The exponent of the least significant bit of a subnormal. -/
def Fmt.qmin (f : Fmt) : Int := 1 - (f.bias : Int) - f.fb

/-- A value: NaN, an infinity, or sign and m times 2 to the e. -/
inductive FVal where
  | nan
  | inf (neg : Bool)
  | fin (neg : Bool) (m : Nat) (e : Int)
  deriving DecidableEq, Repr

/-- The value of a pattern (R139, R140). -/
def Fmt.decode (f : Fmt) (b : Nat) : FVal :=
  let frac := b % 2 ^ f.fb
  let ex := b / 2 ^ f.fb % 2 ^ f.eb
  let neg := bit b (f.eb + f.fb)
  if f.inf ∧ ex = f.emax then (if frac = 0 then .inf neg else .nan)
  else if !f.inf ∧ b % 2 ^ (f.eb + f.fb) = f.nan then .nan
  else if ex = 0 then .fin neg frac f.qmin
  else .fin neg (2 ^ f.fb + frac) (f.qmin + (ex - 1 : Nat))

/-! Flags (R158). -/

def flNX : Nat := 1
def flUF : Nat := 2
def flOF : Nat := 4
def flDZ : Nat := 8
def flNV : Nat := 16
def flSAT : Nat := 32

/-- A result: its pattern and the flags raised. -/
structure FRes where
  val : Nat
  fl : Nat
  deriving DecidableEq, Repr

/-- How a result is rounded: to nearest even, or stochastically with the 16 bits drawn (R146, R157). -/
inductive Rnd where
  | near
  | stoch (r : Nat)
  deriving DecidableEq, Repr

/-- An integer m over 2^d rounded: the quotient and whether it differs from the exact value (R146, R157). -/
def rndShift (mode : Rnd) (m d : Nat) : Nat × Bool :=
  let q := m / 2 ^ d
  let rem := m % 2 ^ d
  let up := match mode with
    | .near => decide (2 * rem > 2 ^ d) || (decide (2 * rem = 2 ^ d) && d != 0 && q % 2 == 1)
    | .stoch r => decide (rem * 2 ^ 16 / 2 ^ d + r ≥ 2 ^ 16)
  (if up then q + 1 else q, rem != 0)

/-- The magnitude m times 2^e rounded at the quantum 2^q. -/
def rndAt (mode : Rnd) (m : Nat) (e q : Int) : Nat × Bool :=
  if q ≤ e then (m * 2 ^ (e - q).toNat, false) else rndShift mode m (q - e).toNat

/-- The result of a sign and magnitude M times 2^q, with q at least the format's least, where M has at most fb + 2 bits: overflow as R155. -/
def Fmt.encode (f : Fmt) (neg : Bool) (M : Nat) (q : Int) (sat : Bool) : FRes :=
  let (M, q) := if M ≥ 2 ^ (f.fb + 1) then (M / 2, q + 1) else (M, q)
  let pat := if M < 2 ^ f.fb then M else (q - f.qmin + 1).toNat * 2 ^ f.fb + (M - 2 ^ f.fb)
  if pat > f.maxFinite then
    if sat then ⟨f.signBit neg + f.maxFinite, flSAT ||| flNX⟩
    else if f.inf then ⟨f.infinity neg, flOF ||| flNX⟩
    else ⟨f.nan, flOF ||| flNX⟩
  else ⟨f.signBit neg + pat, 0⟩

/-- A nonzero exact magnitude m times 2^e rounded to a format, with NX, UF after rounding (R147) and overflow (R155). -/
def Fmt.round (f : Fmt) (mode : Rnd) (sat neg : Bool) (m : Nat) (e : Int) : FRes :=
  if m = 0 then ⟨f.signBit neg, 0⟩ else
  let E := (Nat.log2 m : Int) + e
  let q := max (E - f.fb) f.qmin
  let (M, inexact) := rndAt mode m e q
  let r := f.encode neg M q sat
  let tiny := match mode with
    | .near => decide (E < f.qmin + f.fb) &&
        decide (((rndAt .near m e (E - f.fb)).1 : Int) < 2 ^ (f.fb + 1) ∨ E + 1 < f.qmin + f.fb)
    | .stoch _ => decide (M < 2 ^ f.fb) && q == f.qmin
  ⟨r.val, r.fl ||| (if inexact then flNX else 0) ||| (if inexact && tiny then flUF else 0)⟩

/-- A value delivered in a format: the canonical NaN, an infinity, or the rounded magnitude (R143, R155). -/
def Fmt.deliver (f : Fmt) (mode : Rnd) (sat : Bool) (v : FVal) : FRes :=
  match v with
  | .nan => ⟨f.nan, 0⟩
  | .inf neg =>
    if sat then ⟨f.signBit neg + f.maxFinite, flSAT⟩
    else if f.inf then ⟨f.infinity neg, 0⟩ else ⟨f.nan, flNV⟩
  | .fin neg m e => f.round mode sat neg m e

/-! Exact arithmetic. -/

/-- The signed integer of a sign and magnitude. -/
def sint (neg : Bool) (m : Nat) : Int := if neg then -(m : Int) else m

/-- The product of two values; none where it is 0 times infinity (R148). -/
def FVal.mul : FVal → FVal → Option FVal
  | .nan, .inf _ => some .nan
  | .nan, _ => some .nan
  | _, .nan => some .nan
  | .inf a, .inf b => some (.inf (a != b))
  | .inf a, .fin b m _ => if m = 0 then none else some (.inf (a != b))
  | .fin a m _, .inf b => if m = 0 then none else some (.inf (a != b))
  | .fin a m e, .fin b n g => some (.fin (a != b) (m * n) (e + g))

/-- The exact sum of terms: canonical where a NaN stands among them, invalid (none) for infinities of both signs; a sum of zeros of
one sign keeps it, any other zero sum is +0 (R149). -/
def sumVals (ts : List FVal) : Option FVal :=
  let infs := ts.filterMap (fun t => match t with
    | .inf n => some n
    | .nan => none
    | .fin _ _ _ => none)
  if infs.contains true && infs.contains false then none
  else if ts.contains .nan then some .nan
  else match infs with
    | n :: _ => some (.inf n)
    | [] =>
      let fins := ts.filterMap (fun t => match t with
        | .fin n m e => some (n, m, e)
        | .nan => none
        | .inf _ => none)
      let lo := fins.foldl (fun a t => if t.2.1 = 0 then a else min a t.2.2) (fins.foldl (fun a t => max a t.2.2) 0)
      let tot := fins.foldl (fun (a : Int) t => a + (if t.2.1 = 0 then 0 else sint t.1 (t.2.1 * 2 ^ (t.2.2 - lo).toNat))) 0
      if tot = 0 then some (.fin (!fins.isEmpty && fins.all (fun t => t.1 && t.2.1 == 0)) 0 0)
      else some (.fin (tot < 0) tot.natAbs lo)

/-- An invalid operation: the canonical NaN and NV (R148). -/
def Fmt.invalid (f : Fmt) : FRes := ⟨f.nan, flNV⟩

/-- Negation of a value. -/
def FVal.neg : FVal → FVal
  | .nan => .nan
  | .inf n => .inf !n
  | .fin n m e => .fin (!n) m e

/-- A sum of products and addends with one rounding: a product of 0 and infinity is invalid even beside a NaN (R148). -/
def Fmt.sumProducts (f : Fmt) (ps : List (FVal × FVal)) (cs : List FVal) (mode : Rnd := .near) : FRes :=
  let bad := ps.any (fun p => match p with
    | (.inf _, .fin _ 0 _) => true
    | (.fin _ 0 _, .inf _) => true
    | _ => false)
  if bad then f.invalid
  else match sumVals (ps.filterMap (fun p => FVal.mul p.1 p.2) ++ cs) with
    | none => f.invalid
    | some v => f.deliver mode false v

/-- Addition, subtraction, multiplication and fused multiply-add on patterns of one format (R146). -/
def Fmt.add (f : Fmt) (a b : Nat) : FRes := f.sumProducts [] [f.decode a, f.decode b]
def Fmt.sub (f : Fmt) (a b : Nat) : FRes := f.sumProducts [] [f.decode a, (f.decode b).neg]
def Fmt.mul (f : Fmt) (a b : Nat) : FRes := f.sumProducts [(f.decode a, f.decode b)] []
def Fmt.fma (f : Fmt) (a b c : Nat) : FRes := f.sumProducts [(f.decode a, f.decode b)] [f.decode c]

/-- The quotient of two values rounded once (R146, R151). -/
def Fmt.divVal (f : Fmt) (a b : FVal) (mode : Rnd := .near) : FRes :=
  match a, b with
  | .nan, _ => ⟨f.nan, 0⟩
  | _, .nan => ⟨f.nan, 0⟩
  | .inf _, .inf _ => f.invalid
  | .inf x, .fin y _ _ => f.deliver mode false (.inf (x != y))
  | .fin x _ _, .inf y => ⟨f.signBit (x != y), 0⟩
  | .fin x m e, .fin y n g =>
    if n = 0 then (if m = 0 then f.invalid else ⟨f.infinity (x != y), flDZ⟩)
    else if m = 0 then ⟨f.signBit (x != y), 0⟩
    else
      let k := f.fb + 20 + Nat.log2 n
      let num := m * 2 ^ k
      f.round mode false (x != y) (2 * (num / n) + (if num % n = 0 then 0 else 1)) (e - g - k - 1)

/-- Division of patterns. -/
def Fmt.div (f : Fmt) (a b : Nat) : FRes := f.divVal (f.decode a) (f.decode b)

/-- The reciprocal (VFRCP, R151). -/
def Fmt.rcp (f : Fmt) (a : Nat) : FRes := f.divVal (.fin false 1 0) (f.decode a)

/-- The integer square root by bits, over n bit pairs. -/
def isqrtBits : Nat → Nat → Nat
  | 0, _ => 0
  | n + 1, x =>
    let r := 2 * isqrtBits n (x / 4)
    if (r + 1) * (r + 1) ≤ x then r + 1 else r

/-- The integer square root. -/
def isqrt (x : Nat) : Nat := isqrtBits (Nat.log2 x / 2 + 1) x

/-- The square root (VFSQRT, R148, R151). -/
def Fmt.sqrt (f : Fmt) (a : Nat) : FRes :=
  match f.decode a with
  | .nan => ⟨f.nan, 0⟩
  | .inf neg => if neg then f.invalid else ⟨f.infinity false, 0⟩
  | .fin neg m e =>
    if m = 0 then ⟨f.signBit neg, 0⟩
    else if neg then f.invalid
    else
      let odd := e % 2 != 0
      let m1 := if odd then 2 * m else m
      let e1 := if odd then e - 1 else e
      let k := f.fb + 20
      let x := m1 * 2 ^ (2 * k)
      let r := isqrt x
      f.round .near false false (2 * r + (if r * r = x then 0 else 1)) (e1 / 2 - k - 1)

/-! Logarithm and exponential (R151). -/

/-- Fixed-point bits of the series. -/
def fx : Nat := 320

/-- z plus z^3/3 plus z^5/5 and so on, n terms from the odd number k, in fixed point: p is the present power of z. -/
def atanhTerms (z2 : Int) : Nat → Int → Int → Int
  | 0, _, _ => 0
  | n + 1, p, k => p / k + atanhTerms z2 n (p * z2 / 2 ^ fx) (k + 2)

/-- atanh of a fixed-point number of magnitude at most 1/3. -/
def atanhFx (z : Int) : Int := atanhTerms (z * z / 2 ^ fx) 110 z 1

/-- The logarithm of 2 in fixed point. -/
def ln2Fx : Int := 2 * atanhFx (2 ^ fx / 3)

/-- ln(1 + x) in fixed point of x = sn / 2^fx above -1. -/
def log1pFx (x : Int) : Int :=
  if 2 * x.natAbs ≤ 2 ^ fx then 2 * atanhFx (x * 2 ^ fx / (2 * 2 ^ fx + x))
  else
    let y := (2 ^ fx + x).toNat
    let k : Int := (Nat.log2 y : Int) - fx
    let g : Int := if 0 ≤ k then (y : Int) / 2 ^ k.toNat else (y : Int) * 2 ^ (-k).toNat
    k * ln2Fx + 2 * atanhFx ((g - 2 ^ fx) * 2 ^ fx / (g + 2 ^ fx))

/-- 1 + r + r^2/2 and so on, in fixed point. -/
def expTerms (r : Int) : Nat → Int → Int → Int
  | 0, _, _ => 0
  | n + 1, p, k => p + expTerms r n (p * r / 2 ^ fx / k) (k + 1)

/-- The value inside the bound of R151 that the part returns: from the magnitude m times 2^e, truncated at the format's quantum, some
number of patterns away, chosen by the free value: for FP32 within 2 ulp, else within 1. Above the last value of a binade a pattern is 2 ulp away from the
one before it. -/
def Fmt.pick (f : Fmt) (op a : Nat) (neg : Bool) (m : Nat) (e : Int) : FRes :=
  let E := (Nat.log2 m : Int) + e
  let q := max (E - f.fb) f.qmin
  let t := (rndAt (.stoch 0) m e q).1
  let c := Config.ulpPick op f.width a
  let p := if t < 2 ^ f.fb then t else (q - f.qmin + 1).toNat * 2 ^ f.fb + (t - 2 ^ f.fb)
  let r := if f = fp32 then p + c % (if t + 1 = 2 ^ (f.fb + 1) then 3 else 4) - 1 else p + c % 2
  if r > f.maxFinite then ⟨f.infinity neg, flOF ||| flNX⟩
  else ⟨f.signBit neg + r, flNX ||| (if r < 2 ^ f.fb then flUF else 0)⟩

/-- VFLOG1P (R148, R151). -/
def Fmt.log1p (f : Fmt) (a : Nat) : FRes :=
  match f.decode a with
  | .nan => ⟨f.nan, 0⟩
  | .inf neg => if neg then f.invalid else ⟨f.infinity false, 0⟩
  | .fin neg m e =>
    if m = 0 then ⟨f.signBit neg, 0⟩
    else
      let x : Int := if 0 ≤ e + fx then sint neg (m * 2 ^ (e + fx).toNat) else sint neg (m / 2 ^ (-(e + fx)).toNat)
      if x < -(2 ^ fx) then f.invalid
      else if x = -(2 ^ fx) then ⟨f.infinity true, flDZ⟩
      else
        let y := log1pFx x
        f.pick 0 a (y < 0) (2 * y.natAbs + 1) (-(fx : Int) - 1)

/-- VFEXP (R151): a result too large is infinite and raises OF. -/
def Fmt.exp (f : Fmt) (a : Nat) : FRes :=
  match f.decode a with
  | .nan => ⟨f.nan, 0⟩
  | .inf neg => if neg then ⟨0, 0⟩ else ⟨f.infinity false, 0⟩
  | .fin neg m e =>
    if m = 0 then ⟨f.bias * 2 ^ f.fb, 0⟩
    else
      let big := 2 ^ 12
      if (if 0 ≤ e then m * 2 ^ e.toNat else m / 2 ^ (-e).toNat) > big then
        (if neg then f.pick 1 a false 1 (-(2 ^ 12 : Int)) else ⟨f.infinity false, flOF ||| flNX⟩)
      else
        let x : Int := if 0 ≤ e + fx then sint neg (m * 2 ^ (e + fx).toNat) else sint neg (m / 2 ^ (-(e + fx)).toNat)
        let k := x / ln2Fx
        let r := x - k * ln2Fx
        let y := expTerms r 90 (2 ^ fx) 1
        f.pick 1 a false (2 * y.natAbs + 1) (k - fx - 1)

/-! Comparison (R149, R150). -/

/-- The order of two values that are no NaN: less, equal or greater. -/
def FVal.cmp : FVal → FVal → Ordering
  | .inf a, .inf b => if a = b then .eq else if a then .lt else .gt
  | .inf a, _ => if a then .lt else .gt
  | _, .inf b => if b then .gt else .lt
  | .fin a m e, .fin b n g =>
    let lo := min e g
    compare (sint a (m * 2 ^ (e - lo).toNat)) (sint b (n * 2 ^ (g - lo).toNat))
  | .nan, _ => .eq
  | _, .nan => .eq

/-- Whether a pattern is a NaN. -/
def Fmt.isNan (f : Fmt) (a : Nat) : Bool := f.decode a == .nan

/-- The ordered and unordered compares: less, less or equal, equal, each false with a NaN, and whether an operand is a NaN. -/
def Fmt.lt (f : Fmt) (a b : Nat) : Bool := !f.isNan a && !f.isNan b && (f.decode a).cmp (f.decode b) == .lt
def Fmt.le (f : Fmt) (a b : Nat) : Bool := !f.isNan a && !f.isNan b && (f.decode a).cmp (f.decode b) != .gt
def Fmt.feq (f : Fmt) (a b : Nat) : Bool := !f.isNan a && !f.isNan b && (f.decode a).cmp (f.decode b) == .eq
def Fmt.unord (f : Fmt) (a b : Nat) : Bool := f.isNan a || f.isNan b

/-- The minimum or maximum of R150: the other operand beside one NaN, the first where they compare equal. -/
def Fmt.minmax (f : Fmt) (isMax : Bool) (a b : Nat) : Nat :=
  if f.isNan a && f.isNan b then f.nan
  else if f.isNan a then b
  else if f.isNan b then a
  else if isMax then (if f.lt a b then b else a)
  else (if f.lt b a then b else a)

/-! Conversions (R154, R155). -/

/-- A float converted to a float format. -/
def cvtFloat (src dst : Fmt) (mode : Rnd) (sat : Bool) (a : Nat) : FRes := dst.deliver mode sat (src.decode a)

/-- A float converted to a two's complement integer of w bits: saturates and raises NV; NaN gives 0 and NV. -/
def cvtToInt (src : Fmt) (w : Nat) (mode : Rnd) (a : Nat) : FRes :=
  let hi : Int := 2 ^ (w - 1) - 1
  let lo : Int := -(2 ^ (w - 1))
  match src.decode a with
  | .nan => ⟨0, flNV⟩
  | .inf neg => ⟨unsigned w (if neg then lo else hi), flNV⟩
  | .fin neg m e =>
    let (M, inexact) := rndAt mode m e 0
    let v := sint neg M
    if v > hi then ⟨unsigned w hi, flNV⟩
    else if v < lo then ⟨unsigned w lo, flNV⟩
    else ⟨unsigned w v, if inexact then flNX else 0⟩

/-- An integer converted to a float format. -/
def cvtFromInt (dst : Fmt) (mode : Rnd) (sat : Bool) (v : Int) : FRes := dst.round mode sat (v < 0) v.natAbs 0

/-- An integer converted to a two's complement integer of w bits: wraps, or saturates and raises SAT. -/
def cvtIntInt (w : Nat) (sat : Bool) (v : Int) : FRes :=
  let hi : Int := 2 ^ (w - 1) - 1
  let lo : Int := -(2 ^ (w - 1))
  if sat && v > hi then ⟨unsigned w hi, flSAT⟩
  else if sat && v < lo then ⟨unsigned w lo, flSAT⟩
  else ⟨unsigned w v, 0⟩

/-- Whether a float conversion can be inexact (R156). -/
def floatMayRound (src dst : Fmt) : Bool :=
  !(src.fb ≤ dst.fb && decide (dst.qmin ≤ src.qmin) && decide ((src.emax : Int) - src.bias ≤ (dst.emax : Int) - dst.bias))

/-- Whether an integer conversion to a float can be inexact (R156). -/
def intMayRound (w : Nat) (sg : Bool) (dst : Fmt) : Bool := !((if sg then w - 1 else w) ≤ dst.fb + 1)

/-! Stochastic rounding (R156). -/

/-- One step of a generator. -/
def genStep (s : Word) : Word :=
  let b := ((s >>> 31) ^^^ (s >>> 21) ^^^ (s >>> 1) ^^^ s) &&& 1
  (s <<< 1) ||| b

/-! Row-coded values (R144, R145). -/

/-- The FP32 value of a code under an FP16 scale and offset (R144). -/
def rowValue (c scale offset : Nat) : Nat :=
  (fp32.sumProducts [(.fin false c 0, fp16.decode scale)] [fp16.decode offset]).val

/-- A row quantised to b-bit codes: FP16 scale and offset, codes, and the flags raised (R145). rs gives the bits drawn for value i,
none for rounding to nearest. -/
def quantRow (b : Nat) (xs : List Nat) (rs : Nat → Option Nat) : Nat × Nat × List Nat × Nat :=
  let fin := xs.filter (fun x => match fp32.decode x with
    | .fin _ _ _ => true
    | .nan => false
    | .inf _ => false)
  let top := 2 ^ b - 1
  match fin with
  | [] => (0, 0, xs.map (fun x => match fp32.decode x with
      | .inf neg => if neg then 0 else top
      | .nan => 0
      | .fin _ _ _ => 0), if xs.isEmpty then 0 else flNV)
  | x0 :: t =>
    let lo := t.foldl (fun a x => if fp32.lt x a then x else a) x0
    let hi := t.foldl (fun a x => if fp32.lt a x then x else a) x0
    let off := cvtFloat fp32 fp16 .near true lo
    let off32 := (cvtFloat fp16 fp32 .near false off.val).val
    let d := fp32.sub hi off32
    let q := fp32.div d.val (cvtFromInt fp32 .near false top).val
    let sc := cvtFloat fp32 fp16 .near true q.val
    let sc32 := (cvtFloat fp16 fp32 .near false sc.val).val
    let zero := sc.val % 0x8000 = 0
    let cs := xs.mapIdx (fun i x => match fp32.decode x with
      | .nan => (0, flNV)
      | .inf neg => (if neg then 0 else top, flNV)
      | .fin _ _ _ =>
        if zero then (0, 0)
        else
          let d1 := fp32.sub x off32
          let y := fp32.div d1.val sc32
          let mode := match rs i with
            | none => Rnd.near
            | some r => .stoch r
          match fp32.decode y.val with
          | .nan => (0, flNV)
          | .inf neg => (if neg then 0 else top, flSAT)
          | .fin neg m e =>
            let (M, ix) := rndAt mode m e 0
            let v := sint neg M
            let fl := d1.fl ||| y.fl ||| (if ix then flNX else 0)
            if v < 0 then (0, fl ||| flSAT) else if v > top then (top, fl ||| flSAT) else (v.toNat, fl))
    (sc.val, off.val, cs.map Prod.fst, cs.foldl (fun a c => a ||| c.2) (off.fl ||| d.fl ||| q.fl ||| sc.fl))

end Sys2Proof.Machine
end

