-- ==== Sys2Proof/Machine/PartsDbg.lean ====
section
/-!
DEFINITION. The parts of the state that belong to observation, Freeze, and the pins.
-/
namespace Sys2Proof.Machine
open Sys2Proof

/-- The sampler registers (R534). -/
structure Sampler where
  enable : Bool
  period : Nat
  ctx : Nat
  ring : Nat
  entries : Nat
  seq : Nat
  dropped : Nat
  deriving DecidableEq, Repr

/-- A Traverse record (R536). -/
structure TrvRec where
  kind : Nat
  core : Nat
  info : Nat
  time : Nat
  a : Nat
  b : Nat
  deriving DecidableEq, Repr

/-- The Traverse block and buffer (R536 to R542): state is 0 IDLE, 1 CAPTURING, 2 POST_TRIGGER, 3 STOPPED; recs the records
kept, the oldest first; fired says that the detector of trigDet has fired since START; postLeft those still to capture after the trigger; gaps the records lost per core whose GAP record is
still to be written. -/
structure Trv where
  state : Nat
  mode : Nat
  post : Nat
  cores : Nat
  stall : Bool
  redirect : Bool
  trigOut : Bool
  trigSrc : Nat
  trigPc : Nat
  trigDet : Nat
  triggered : Bool
  fired : Bool
  wrapped : Bool
  written : Nat
  lost : Nat
  capacity : Nat
  trigPos : Nat
  postLeft : Nat
  recs : List TrvRec
  gaps : List Nat
  deriving DecidableEq, Repr

/-- An armed freeze (R545). -/
structure FreezeArm where
  stopTrv : Bool
  timeout : Nat
  deriving DecidableEq, Repr

/-- Freeze (R545 to R549): in effect or not, its sequence number, the parts frozen by part number (unit numbers of R524; island i is part
0x300 + i), whether the cut is complete, whether its time ran out, when it began, its time-out, an armed freeze, and what to do at the cut. -/
structure Frz where
  on : Bool
  seq : Nat
  parts : List Nat
  cut : Bool
  late : Bool
  began : Nat
  timeout : Nat
  arm : Option FreezeArm
  stopTrv : Bool
  deriving DecidableEq, Repr

/-- A wait record as a reading found it (R541, R543): waiter kind and number, wait kind, object, aux, change number, the context
it serves, its possible releasers as waiter kind and number, and whether a releaser lies outside the part. -/
structure WaitRec where
  wkind : Nat
  waiter : Nat
  kind : Nat
  object : Nat
  aux : Nat
  change : Nat
  ctx : Nat
  by_ : List (Nat × Nat)
  outside : Bool
  stable : Bool
  knot : Bool
  deriving DecidableEq, Repr

/-- A wait-for graph (R543, R544): the number of its assembly, its filter, the records, whether both readings come from a freeze, and when it
began. -/
structure WaitGraph where
  snapshot : Nat
  ctx : Nat
  knotOnly : Bool
  recs : List WaitRec
  frozen : Bool
  began : Nat
  deriving DecidableEq, Repr

/-- Observation. graphs: each session's last graph, assembled; assembling: graphs that wait for their second reading, in order, with the session
and the request. -/
structure Dbg where
  smp : Sampler
  trv : Trv
  frz : Frz
  graphs : Tbl WaitGraph
  assembling : List (Nat × Nat × WaitGraph)
  snapshots : Nat
  deriving DecidableEq, Repr

/-- Instructions of the JTAG port (R592). -/
inductive JtagInstr where
  | bypass
  | idcode
  | samplePreload
  | extest
  | clamp
  | highz
  deriving DecidableEq, Repr

/-- Pins and low-speed interfaces (R592 to R595, R603): GPIO levels and registers, trigger out pulse, SMBus address and alert, MCTP
endpoint, JTAG instruction and whether it drives the pins. -/
structure Pins where
  gpioIn : BitVec 8
  gpioOut : BitVec 8
  duty : List Nat
  tach : List (BitVec 16)
  trigPulse : Bool
  smbAddr : BitVec 7
  alertEn : Bool
  smbAlert : Bool
  eid : BitVec 8
  jtag : JtagInstr
  preload : Nat
  deriving DecidableEq, Repr

end Sys2Proof.Machine
end

