-- ==== Sys2Proof/Machine/PartsMem.lean ====
section
/-!
DEFINITION. The parts of the state that belong to memory, contexts and translation, to Pods and threads, and to
the Dispatcher.
-/
namespace Sys2Proof.Machine
open Sys2Proof

/-! Memory and translation. -/

/-- A run of physical memory that backs part of a mapping: bytes and first physical address. -/
structure Extent where
  len : Nat
  pa : Nat
  deriving DecidableEq, Repr

/-- Who made a mapping: MAP with its KIND, IMAGE_LOAD, or the storage of an embedding table version (R205, R135, R314). -/
inductive MapKind where
  | alloc
  | aliased
  | store
  | image
  | table
  deriving DecidableEq, Repr

/-- A mapping (R205, R206). dying means that UNMAP has removed it for later accesses while accesses that passed the ATU end (R208). -/
structure Mapping where
  va : Nat
  len : Nat
  kind : MapKind
  page : Nat
  r : Bool
  w : Bool
  x : Bool
  ecc : Bool
  exts : List Extent
  dying : Bool
  deriving DecidableEq, Repr

/-- The fault counters of a context (R532). -/
structure CtxFaults where
  xlate : Nat
  perm : Nat
  align : Nat
  hw : Nat
  pod : Nat
  samples : Nat
  deriving DecidableEq, Repr

/-- A context (R203). other is memory charged to it beside its mappings (R202). -/
structure Ctx where
  signedImages : Bool
  quota : Nat
  maps : List Mapping
  other : Nat
  faults : CtxFaults
  destroying : Bool
  deriving DecidableEq, Repr

/-- The states of a channel (R224). -/
inductive ChState where
  | absent
  | active
  | draining
  | retraining
  | restoring
  | outOfService
  | lost
  deriving DecidableEq, Repr

/-- A granule moved off its channel (R221): its own and its present number, and how many moves were made before it. -/
structure Moved where
  own : Nat
  now : Nat
  nth : Nat
  deriving DecidableEq, Repr

/-- One channel: its state, error counts (R225), activity counts (R531), and the granules moved off it (R221). -/
structure Channel where
  state : ChState
  ce : Nat
  ue : Nat
  reads : Nat
  writes : Nat
  acts : Nat
  moved : List Moved
  deriving DecidableEq, Repr

/-- A RETRAIN_CHANNEL that runs on a channel: its action, and the granules copied (R221). -/
structure Retrain where
  action : Nat
  count : Nat
  deriving DecidableEq, Repr

/-- Who waits for an operation: a thread's tag with its completion record address (0 for none) and the thread's epoch at issue, or a RESUME command. -/
inductive Issuer where
  | pod (t tag record epoch : Nat)
  | rcp (sid rid : Nat)
  deriving DecidableEq, Repr

/-- Whose output a record of R5 is about: an operation, by who waits for it, or a sample of Frame Intake. -/
inductive OutputOf where
  | op (iss : Issuer)
  | sample (session sample : Nat)
  deriving DecidableEq, Repr

/-- An operation whose output becomes undefined where another access meets it (R5): an EMBG until its tag is collected, where a thread reads or writes its
destination bytes or accumulator words (R325); PROJ, ACCST, the output of a sample and a codec job while they run, where another requester writes bytes that they write (R388,
R407); an ACCST until its tag is collected, where its thread writes the accumulator words it reads (R384). ranges: the output bytes, as address and length;
words: the accumulator words of an EMBG; feeds: the accumulator word that each destination element of an ACCST comes from, with the element's
address and length, of which the first fed are written; spoiled and lost: the bytes and words met so far. -/
structure Watch where
  owner : OutputOf
  ctx : Nat
  gather : Bool
  ranges : List (Nat × Nat)
  words : List (Nat × Nat)
  feeds : List (Nat × Nat × Nat)
  fed : Nat
  spoiled : List Nat
  lost : List Nat
  deriving DecidableEq, Repr

/-- Memory: bytes by physical address, contexts, channels, the density of a package in GiB (R223), MEM_GIB, firmware's reservation (R202), check
granules with the data granules whose check words they hold (R214), block and word errors (R215, R218), lost granules with their controller
(R227), channels being retrained, how many granules have been moved off their channel, operations whose output another access may meet (R5). -/
structure Mem where
  bytes : Tbl Byte
  contexts : Tbl Ctx
  channels : Tbl Channel
  density : Nat
  memGib : Nat
  reserved : List Extent
  checks : Tbl (List Nat)
  badBlocks : Tbl Bool
  badWords : List Nat
  lost : Tbl Nat
  retrains : Tbl Retrain
  moves : Nat
  watch : List Watch
  deriving DecidableEq, Repr

/-! Pods and threads. -/

/-- A work item (R165): bytes 0x00 to 0x27, the Dispatcher's fields, and the time it entered. -/
structure Item where
  body : List Byte
  srcKind : Nat
  srcId : Nat
  flow : Nat
  seq : Nat
  status : Nat
  fpflags : Nat
  cflags : Nat
  waited : Nat
  entered : Nat
  deriving DecidableEq, Repr

/-- A tag of a thread (R126): free, an operation outstanding of a unit kind, or a status not yet collected. -/
inductive Tag where
  | free
  | busy (kind : Nat)
  | done (packed : Nat)
  deriving DecidableEq, Repr

/-- Where an outstanding load, atomic or synchronous result goes and what it reads (R93). -/
inductive SlotOp where
  /-- A scalar load of size bytes into S[d]. -/
  | scalar (d size addr : Nat)
  /-- A vector load into V[d]: the address of each active element. -/
  | vector (d : Nat) (elems : List (Nat × Nat))
  /-- An atomic of function f on size bytes; S[d] receives the old value; cmp is S[D] at issue. -/
  | atomic (f d size addr : Nat) (src cmp : Nat)
  /-- A vector atomic: address and addend of each active element. -/
  | vatomic (float : Bool) (elems : List (Nat × Nat))
  /-- HASHS of len bytes at addr into S[d], of which the groups read so far gave got. -/
  | hashs (f d addr len k0 k1 : Nat) (got : List Byte)
  /-- A Gazetteer search: its kind (0 total, 1 groups, 2 bucket), the registers of its result and of its number (0 for none), key and control word;
  its result once the bank has run it. -/
  | gaz (kind d e : Nat) (key ctl : Nat) (res : Option (List Nat))
  /-- A join instruction whose result is ready: its two destination registers and the elements to write. -/
  | join (d0 d1 : Nat) (elems : List (Nat × Nat × Nat))
  deriving DecidableEq, Repr

/-- An occupied load slot (R93): its operation and its tracker entries, and its place in program order. -/
structure Slot where
  op : SlotOp
  tracker : Nat
  order : Nat
  pc : Nat
  deriving DecidableEq, Repr

/-- A store outstanding (R116): its pieces in element order, its place in program order and the address of its instruction. -/
structure StoreOp where
  order : Nat
  pc : Nat
  pieces : List (Nat × List Byte)
  deriving DecidableEq, Repr

/-- Why a thread is BLOCKED (R91): d is the destination register of WAITANY and ACCA; faulted waits for the unit operations of a thread that has
faulted, or that a quarantine stops, to run to their end (R132, R504). -/
inductive Block where
  | loadSlot
  | tracker
  | result
  | tagFree
  | tag (k : Nat)
  | anyTag (d : Nat)
  | post (flow : Nat) (body : List Byte)
  | acc (words d : Nat)
  | done (status : Nat)
  | codec (engine : Nat)
  | remote
  | embStep (handle : Nat)
  | sort
  | faulted
  deriving DecidableEq, Repr

/-- The state of a thread (R91). asking keeps the flow slot set and the destination register of its ASK. -/
inductive TState where
  | unbound
  | asking (set d : Nat)
  | running
  | blocked (why : Block)
  | quarantined
  deriving DecidableEq, Repr

/-- The cursor of the last JPROBE (R278): per element, the payloads still to be delivered. -/
structure Cursor where
  table : Nat
  remaining : List (Nat × List Nat)
  deriving DecidableEq, Repr

/-- A wait record that the thread keeps for a failing ACAS (R541). -/
structure LockRec where
  addr : Nat
  change : Nat
  deriving DecidableEq, Repr

/-- A thread (R89 to R91). entry is the image handle it is bound to; handed is the time its item was handed over and
lastSlot the flow slot that last served it (R172); nextOrder numbers its memory accesses; epoch counts its restarts, so that an operation that outlives one finds its tag gone (R132); waitChange counts the changes of its wait record (R541); tagAge the place in program order of each tag's last issue. -/
structure Thread where
  st : TState
  pc : Nat
  s : List Word64
  v : List (List Word)
  m : List Word64
  item : Option Item
  tags : List Tag
  acc : Option (Nat × Nat)
  fp : BitVec 6
  image : Option Nat
  epoch : Nat
  slots : List (Option Slot)
  stores : List StoreOp
  cursor : Option Cursor
  handed : Nat
  lastSlot : Nat
  nextOrder : Nat
  waitChange : Nat
  tagAge : List Nat
  lock : Option LockRec
  deriving DecidableEq, Repr

/-- A Pod (R122, R123, R156, R190, R503 to R507): accumulator words, requests waiting for an allocation, the
stochastic generator, observation, service state (selftest is the result since the quarantine, quarAt when a quarantine without DRAIN began, whose operations are abandoned 1 ms later), the sampler (R535); turn is the local number of the thread that issued last (R92), sortBeats the beats for which the sort network is
still occupied (R302), winFrom the start of the window of R190, busyFrom and busyTime since when a thread holds an item and how long one did in the
window before. -/
structure Pod where
  acc : Tbl Word
  accQueue : List Nat
  gen : Option Word
  busy : BitVec 16
  held : Nat
  busyValid : Bool
  quarantine : Bool
  draining : Bool
  selftest : Option Nat
  quarAt : Nat
  lastSampled : Nat
  turn : Nat
  sortBeats : Nat
  winFrom : Nat
  busyFrom : Nat
  busyTime : Nat
  deriving DecidableEq, Repr

/-- A program image (R133 to R138). stop: none while loaded; some none while an IMAGE_UNLOAD with DRAIN unloads it; some (some h) once the image h replaced it. -/
structure Image where
  ctx : Nat
  id : Nat
  version : Nat
  privileged : Bool
  sig : Bool
  digest : List Byte
  codeVa : Nat
  codeLen : Nat
  dataVa : Nat
  dataLen : Nat
  entry : Nat
  arg : Nat
  ring : Nat
  ringEntries : Nat
  faultSeq : Nat
  slots : List Nat
  stop : Option (Option Nat)
  order : Nat
  deriving DecidableEq, Repr

/-- Pods: threads by global index (R90), Pods and images by handle. -/
structure Pods where
  threads : Tbl Thread
  pods : Tbl Pod
  images : Tbl Image
  deriving DecidableEq, Repr

/-! The Dispatcher. -/

/-- An item of an ordered or unordered flow that has been handed out and not released: by whom it is held, or the
completion of it once retired (R175). hw marks a descriptor lost to parity, early one that was lost before it was handed out (R188, R193). -/
structure Held where
  item : Item
  thread : Nat
  handed : Nat
  retired : Bool
  service : Nat
  hw : Bool
  early : Bool
  deriving DecidableEq, Repr

/-- A flow (R163 to R189). ready lists the items not handed out, in entry order; out the items handed out and not released
in SEQ order; waiters the waiting threads, the longest waiting first; dropped marks SEQs that never release; cons is the
last consumer index read. -/
structure Flow where
  gen : Nat
  ctx : Nat
  ordered : Bool
  cls : Nat
  complKind : Nat
  complFlow : Nat
  slice : Nat
  capacity : Nat
  starveUs : Nat
  promoted : Bool
  ringAddr : Nat
  ringEntries : Nat
  consAddr : Nat
  ringCount : Nat
  cons : Nat
  nextSeq : Nat
  oldest : Nat
  ready : List Item
  out : List Held
  waiters : List Nat
  stalled : Bool
  maxDepth : Nat
  entered : Nat
  released : Nat
  complDropped : Nat
  hwDiscards : Nat
  windowStalls : Nat
  fullEvents : Nat
  hist : List Nat
  deriving DecidableEq, Repr

/-- The states of a graph node (R186). -/
inductive NodeState where
  | waiting
  | ready
  | held
  | done
  | failed
  | skipped
  deriving DecidableEq, Repr

/-- A node of a running graph (R183, R186). -/
structure Node where
  payload : List Byte
  deps : Nat
  succ : List Nat
  state : NodeState
  deriving DecidableEq, Repr

/-- A running graph and who waits for it (R184 to R187). -/
structure Graph where
  nodes : List Node
  abort : Bool
  cancelled : Bool
  firstStatus : Nat
  firstFailed : Option Nat
  deriving DecidableEq, Repr

/-- The Dispatcher: flows by INDEX, the generation of each index, graph queues and the flow of each, the flow each slice
served last, handover counts (R191). -/
structure Disp where
  flows : Tbl Flow
  gens : Tbl Nat
  graphs : Tbl Graph
  graphFlows : Tbl Flow
  lastServed : Tbl Nat
  handovers : Tbl Nat
  deriving DecidableEq, Repr

/-! Operations of the fixed-function units. -/

end Sys2Proof.Machine
end

