-- ==== Sys2Proof/Machine/PartsEmb.lean ====
section
/-!
DEFINITION. The parts of the state that belong to the Embedding Units (R312 to R343).
-/
namespace Sys2Proof.Machine
open Sys2Proof

/-- The counters of a table (R337). -/
structure EmbCtr where
  gatherRows : Nat
  coalesced : Nat
  substNull : Nat
  substNegative : Nat
  substRange : Nat
  substInvalid : Nat
  substRemote : Nat
  gradDiscarded : Nat
  deltasReceived : Nat
  rowsUpdated : Nat
  splits : Nat
  splitsAhead : Nat
  frozenSkips : Nat
  nonfinite : Nat
  lost : Nat
  rmwFailed : Nat
  deriving DecidableEq, Repr

/-- A version of a table (R335): its number, its storage and the EMBG that pin it. -/
structure EmbVersion where
  va : Nat
  pins : Nat
  deriving DecidableEq, Repr

/-- An entry of a coalescing buffer (R329): the unit, the local row, the step, the sums as FP32 patterns and the deltas it has taken. -/
structure EmbEntry where
  unit : Nat
  row : Nat
  step : Nat
  sums : List Nat
  count : Nat
  deriving DecidableEq, Repr

/-- A partition map (R319, R320): entries of GLOBAL_START, LOCAL_BASE and GRAT. -/
structure PartMap where
  stripe : Bool
  entries : List (Nat × Nat × Nat)
  rows : Nat
  deriving DecidableEq, Repr

/-- A step token or notice that has not been delivered (R328, R466): kind 5 or 6, the part, the step and the count. -/
structure EmbToken where
  part : Nat
  step : Nat
  count : Nat
  deriving DecidableEq, Repr

/-- An embedding table (R314 to R337). ended lists the threads whose STEP_END has counted in the open step; sent, received and tokens count deltas by part and step; lost counts the deltas that EMB_LOST
reported, by part; closing is the hyperparameter block of a step that the home is closing; dying says that DESTROY ended the handle while storage of it is in use. -/
structure EmbTable where
  ctx : Nat
  tag : Nat
  d : Nat
  bits : Nat
  opt : Nat
  rows : Nat
  itype : Nat
  deltaBf16 : Bool
  flags : Nat
  barrier : Nat
  hyper : Nat
  version : Nat
  versions : Tbl EmbVersion
  prepared : Option Nat
  pmap : Option PartMap
  startStep : Nat
  step : Nat
  homeStep : Nat
  ended : List Nat
  ends : Nat
  entries : List EmbEntry
  sent : List EmbToken
  received : List EmbToken
  lost : List EmbToken
  tokens : List EmbToken
  notices : List EmbToken
  closing : Option (List Byte)
  lostParts : List Nat
  degraded : Bool
  dying : Bool
  ctr : EmbCtr
  deriving DecidableEq, Repr

/-- An EMBG in progress (R322 to R326): who waits, its control block, table and version, its weights, the elements still to be delivered, the active
elements of each bag, its first failure. -/
structure Gather where
  iss : Issuer
  thread : Nat
  ctx : Nat
  table : Nat
  version : Nat
  ctl : List Byte
  weights : List Nat
  acc : Nat
  left : List Nat
  active : List Nat
  failed : Option (Nat × Nat × Nat)
  deriving DecidableEq, Repr

/-- A row read of a unit (R324): the table, version and row, and the requests attached, as gather and element; started once it is among the 256
outstanding. -/
structure RowRead where
  table : Nat
  version : Nat
  row : Nat
  attached : List (Nat × Nat)
  started : Bool
  deriving DecidableEq, Repr

/-- A delta of an EMBU that has not found a place: destination part, local row, values. -/
structure Delta where
  part : Nat
  row : Nat
  vals : List Nat
  deriving DecidableEq, Repr

/-- An EMBU whose deltas have not all been placed, or whose STEP_END has not counted yet (R327, R328, R333). -/
structure Embu where
  iss : Issuer
  thread : Nat
  ctx : Nat
  table : Nat
  deltas : List Delta
  stepEnd : Bool
  ended : Bool
  deriving DecidableEq, Repr

/-- A row update pending at a unit (R330, R333): the table, the entry, the hyperparameter block, and whether it closes a step. -/
structure RowUpdate where
  table : Nat
  entry : EmbEntry
  hyper : List Byte
  closing : Bool
  deriving DecidableEq, Repr

/-- The registers of an Embedding Unit (R338). -/
structure EmbUnitCtr where
  rowReads : Nat
  coalesced : Nat
  rmw : Nat
  splits : Nat
  deltasIn : Nat
  dropped : Nat
  deriving DecidableEq, Repr

/-- The Embedding Units: tables by handle, gathers and updates in progress, row reads and pending row updates by unit, the generator of each
unit (R156), registers. -/
structure Emb where
  tables : Tbl EmbTable
  gathers : Tbl Gather
  nextGather : Nat
  embus : List Embu
  reads : Tbl (List RowRead)
  updates : Tbl (List RowUpdate)
  gens : Tbl Word
  ctr : Tbl EmbUnitCtr
  deriving DecidableEq, Repr

end Sys2Proof.Machine
end

