-- ==== Sys2Proof/Machine/PartsFab.lean ====
section
/-!
DEFINITION. The parts of the state that belong to the Fabric Ports, discovery and remote operations (R444 to R479), and to Frame
Intake and the Batch Assembler (R417 to R443).
-/
namespace Sys2Proof.Machine
open Sys2Proof

/-! The fabric. -/

/-- A DATA frame's transport header and payload (R464). want: the bytes that a READ_REQ asks for, as its LENGTH states them; in a SEND that waits at its flow, the items that
have entered. -/
structure TFrame where
  dst : Nat
  src : Nat
  op : Nat
  hops : Nat
  key : Nat
  ctx : Nat
  flags : Nat
  tag : Nat
  addr : Nat
  aux : Nat
  payload : List Byte
  want : Nat
  deriving DecidableEq, Repr

/-- The states of a Fabric Port (R476). -/
inductive PortState where
  | down
  | training
  | init
  | up
  | failed
  deriving DecidableEq, Repr

/-- A Fabric Port (R445 to R452, R476, R477): the peer as its INIT named it, its MAC address the source of that frame; sequence numbers; the replay buffer, each frame with its sequence number and virtual
channel; the frames that wait to be sent, each with its virtual channel and the port it came in by (12 for the part itself); credits spent, the peer's INIT_CREDITS, the
credits it returned and those returned to it by virtual channel, and those that its last frame showed; the receive buffer in order of arrival; the last NAK sent with its
time; replays since ACK advanced, whether a NAK received while frozen awaits its replay; when a valid frame last came and a frame last went; counters. -/
structure FPort where
  state : PortState
  peerSerial : Nat
  peerPort : Nat
  peerGrat : Nat
  peerMac : Option (List Byte)
  gotInit : Bool
  txSeq : Nat
  rxSeq : Nat
  replay : List (Nat × Nat × TFrame)
  queue : List (Nat × Nat × TFrame)
  spent : List Nat
  init : List Nat
  granted : List Nat
  returned : List Nat
  shown : List Nat
  rx : List (Nat × TFrame)
  nak : Option (Nat × Nat)
  replays : Nat
  owes : Bool
  lastRx : Nat
  lastTx : Nat
  crcErr : Nat
  replayCount : Nat
  failures : Nat
  discards : Nat
  txBytes : Nat
  rxBytes : Nat
  deriving DecidableEq, Repr

/-- A REPORT that a part has received or made (R454): the part, the port towards it (12 for itself), its address, and its links as port, peer port and peer serial. -/
structure PartReport where
  serial : Nat
  via : Nat
  grat : Nat
  links : List (Nat × Nat × Nat)
  deriving DecidableEq, Repr

/-- Discovery as it runs (R455): the epoch and root in hand, the parent port, when it last changed, whether its REPORT has gone, the reports, the
shadow table with its segments, the acknowledgments at the root. -/
structure Discovery where
  epoch : Nat
  root : Nat
  parent : Option Nat
  changed : Nat
  reported : Bool
  reports : List PartReport
  shadow : Tbl Nat
  segments : List Nat
  newGrat : Nat
  acks : List Nat
  waiting : Bool
  deriving DecidableEq, Repr

/-- A remote request frame without its response (R464, R467): the operation, its place in address order, the frame, the local address of its bytes, when it left the part. -/
structure RemoteReq where
  op : Nat
  index : Nat
  frame : TFrame
  vc : Nat
  localAddr : Nat
  sentAt : Option Nat
  deriving DecidableEq, Repr

/-- A remote operation in progress (R462, R468): who waits, its thread and descriptor, the frames not yet sent, the bytes of every
frame in address order, the places of those done, the failures by place, the places of frames whose bytes could not be read, so that they were never sent. -/
structure RemoteOp where
  iss : Issuer
  thread : Nat
  ctx : Nat
  desc : List Byte
  unsent : List (Nat × Nat × TFrame)
  lengths : List Nat
  done : List Nat
  fails : List (Nat × Nat × Nat × Nat)
  unread : List Nat
  deriving DecidableEq, Repr

/-- The fabric: ports, the address kept (0xFFFF for none), the committed epoch and root, the highest epoch seen, the routing table by address in the format of R457, the
serials known of addresses, discovery, the root's record of serial to address, when a port last entered or left UP, requests by tag, remote operations by the order of
their issue, the step tokens and notices sent by tag, frames of the part to itself, reports and other discovery messages that wait for firmware, each with its port, the addresses of
other parts that the table reached at its last commit. -/
structure Fab where
  ports : Tbl FPort
  grat : Nat
  epoch : Nat
  rootSerial : Nat
  rootGrat : Nat
  highest : Nat
  routes : Tbl Nat
  serials : Tbl Nat
  disc : Option Discovery
  record : Tbl Nat
  changedAt : Option Nat
  reqs : Tbl RemoteReq
  ops : Tbl RemoteOp
  nextOp : Nat
  embSent : Tbl TFrame
  loop : List TFrame
  msgs : List (Nat × TFrame)
  committed : List Nat
  deriving DecidableEq, Repr

/-! Frame Intake. -/

/-- What a sample is doing (R427, R429, R430, R433): waits for stores, is ready for a turn, has stopped with its result, holds its item, or is suspended. -/
inductive SampleState where
  | stores
  | ready
  | ending
  | held
  | suspended
  deriving DecidableEq, Repr

/-- An output frame (R418, R422): width, height, the bit depths of luma and chroma, the subsampling shifts, its planes Y, Cb, Cr. -/
structure VideoFrame where
  width : Nat
  height : Nat
  depth : Nat
  depthC : Nat
  subX : Nat
  subY : Nat
  planes : List (List Nat)
  deriving DecidableEq, Repr

/-- A sample in progress (R424 to R433): its descriptor, its engine and the Projection Engine of its output; the bytes of its input as it began and how many of
them it has read; whether it has begun, whether bytes it read differed from those; the steps of its bitstream, the next of them, and the coding units
left of the picture in hand; the header in effect, the first field of a pair that waits for its second; its stores, what it asked for and its place among those
that wait; the display frames met, the output frames by number and whether no more come; the slabs written, the first of the running segment and its output space;
whether its output is in hand at its Projection Engine, and whether an operation for it has been issued there; its handle and who resumed it; how it
ended; its place in a strict batch. -/
structure Sample where
  desc : List Byte
  engine : Nat
  proj : Nat
  state : SampleState
  begun : Bool
  input : List Byte
  seen : Nat
  dirty : Bool
  steps : List (CodedStep × Nat)
  next : Nat
  inFrame : Nat
  seq : Option VideoHeader
  field : Option CodedPicture
  store : Nat
  need : Nat
  order : Nat
  shown : Nat
  frames : Tbl VideoFrame
  complete : Bool
  units : Nat
  slabs : Nat
  first : Nat
  outAddr : Nat
  limit : Option Nat
  placed : Bool
  issued : Bool
  handle : Nat
  iss : Option Issuer
  result : Option Err
  position : Option Nat
  deriving DecidableEq, Repr

/-- An entry of a manifest (R438). -/
structure ManEntry where
  id : Nat
  addr : Nat
  units : Nat
  frames : Nat
  status : Nat
  detail : Nat
  engine : Nat
  deriving DecidableEq, Repr

/-- A batch being assembled (R436, R437, R440): its members by position, the positions whose sample has started, its omissions in the order they ended, whether FLUSH closed it. -/
structure Batch where
  members : Tbl ManEntry
  started : List Nat
  omissions : List ManEntry
  flushed : Bool
  deriving DecidableEq, Repr

/-- A Batch Assembler (R434 to R440): its configuration, the oldest batch not emitted, the batches from it on, manifests written and the last count of
consumed ones read, and the item of a manifest that is written and that BATCH_FLOW has not taken. -/
structure Assembler where
  strict : Bool
  size : Nat
  flow : Nat
  man : Nat
  entries : Nat
  mcons : Nat
  dflt : Nat
  idBase : Nat
  index : Nat
  batches : List Batch
  written : Nat
  consumed : Nat
  item : Option (List Byte)
  deriving DecidableEq, Repr

/-- A frame session (R419 to R423): its OPEN payload and template, the descriptors taken, the last producer count read, samples by number, the
store bytes in use, whether it is closing, its assembler. -/
structure FSession where
  ctx : Nat
  open_ : List Byte
  template : List Byte
  taken : Nat
  prod : Nat
  samples : Tbl Sample
  nextSample : Nat
  stores : Nat
  closing : Bool
  asm : Option Assembler
  deriving DecidableEq, Repr

/-- Counters of a Frame Intake engine (R442). -/
structure FiCtr where
  pixels : Nat
  samples : Nat
  corrupt : Nat
  limit : Nat
  budget : Nat
  storeWait : Nat
  held : Nat
  deriving DecidableEq, Repr

/-- Frame Intake: sessions by FSESSION, counters by engine, the order in which samples began to wait for stores, the sample that each engine served last
(R429), the ended samples whose items have not left, in the order they ended (R430). -/
structure Frames where
  sessions : Tbl FSession
  ctr : Tbl FiCtr
  waits : Nat
  turns : Tbl (Nat × Nat)
  ended : List (Nat × Nat)
  deriving DecidableEq, Repr

end Sys2Proof.Machine
end

