-- ==== Sys2Proof/Machine/PartsHost.lean ====
section
/-!
DEFINITION. The parts of the state that belong to the reset controller, clocks and power, the Host Port,
RCP sessions, RoCEv2, service and detectors.
-/
namespace Sys2Proof.Machine
open Sys2Proof

/-- The reset levels of R554, nested in this order. -/
inductive Level where
  | core
  | system
  | power
  deriving DecidableEq, Repr

/-- What the Surveyor complex is doing: held, released and about to start the boot ROM, waiting for BOOT_LOAD,
started on an image, running firmware ready for RCP, or paused in a live handover (R500, R564 to R567). -/
inductive Surveyor where
  | held
  | atRom
  | netboot
  | starting
  | ready
  | paused
  deriving DecidableEq, Repr

/-- The reset controller, its clock and the boot registers (R550 to R567). now counts the 10 ns periods in which REFCLK ran; fabricAt is its value when
the fabric was last released, from which the Dispatcher slices count (R530). held is the level asserted, pinLevel the level the RESET_N pulse in hand has
reached, driveLevel and driveAt a RESET whose drive is due or runs, and since when; goodAt is when the last rail became good and lockAt when each PLL gained
the lock it holds; unrecorded lists the islands that lost lock while REFCLK was absent (R551); trained says
that firmware has trained the channels since the last system reset (R566). -/
structure Ctl where
  now : Nat
  surveyorTime : Nat
  refclk : Bool
  railGood : List Bool
  porCounting : Bool
  goodAt : Nat
  held : Option Level
  pinLevel : Option Level
  driveLevel : Option Level
  driveAt : Nat
  driving : Bool
  rstCause : BitVec 4
  lockStatus : BitVec 47
  pllLock : BitVec 47
  lockAt : Tbl Nat
  pllStarted : Bool
  islandUp : BitVec 47
  fabricOn : Bool
  straps : BitVec 4
  stage : BitVec 4
  slot : BitVec 2
  bootDetail : BitVec 16
  surveyor : Surveyor
  resetSinceRom : Bool
  fabricAt : Nat
  unrecorded : BitVec 47
  trained : Bool
  staging : Tbl Byte
  stagingLen : Nat
  deriving DecidableEq, Repr

/-- One speed monitor (R21): COUNT and VALID. -/
structure SpeedMon where
  count : BitVec 20
  valid : Bool
  deriving DecidableEq, Repr

/-- One rail monitor (R568): the last reading, the count of consecutive readings outside the window, and whether
the present excursion has fired. -/
structure RailMon where
  mv : BitVec 12
  outRun : Nat
  fired : Bool
  deriving DecidableEq, Repr

/-- Clocks, voltage loop, rails and temperature (R21 to R28, R513, R568 to R578, R611). gazInj: the Gazetteer sensor's last reading was injected. -/
structure Clk where
  mons : List SpeedMon
  target : Nat
  targetLast : Nat
  thermalLast : Bool
  powerLast : Bool
  limited : Bool
  slowest : Nat
  tCount : Nat
  sCount : Nat
  iterations : Nat
  limitedCount : Nat
  iterated : Bool
  vreq : Nat
  vreqTime : Nat
  vread : Nat
  iread : Nat
  pread : Nat
  avsFails : Nat
  allowance : Nat
  trims : List (BitVec 6)
  calTime : Nat
  recal : Bool
  rails : List RailMon
  temps : List (Option (BitVec 8))
  gazInj : Bool
  hottest : Nat
  sensor : Nat
  throttle : Bool
  alert : Bool
  hot : Bool
  trip : Bool
  alertC : Nat
  throttleC : Nat
  deriving DecidableEq, Repr

/-- A completion or event frame as the device sends it (R60, R61). -/
structure RcpOut where
  verMajor : Nat
  verMinor : Nat
  sessionId : Nat
  requestId : Nat
  opcode : Nat
  flags : Nat
  status : Nat
  payload : List Byte
  mac : List Byte
  deriving DecidableEq, Repr

/-- What a queue pair or the responder sends (R49, R51, R57): an acknowledgment or NAK of a packet sequence number, a sequence-error
NAK with the number expected, READ data, a congestion notification, or a work request. -/
inductive RoceOut where
  | ack (psn : Nat)
  | nakAccess (psn : Nat)
  | nakInvalid (psn : Nat)
  | nakOperational (psn : Nat)
  | nakSequence (psn : Nat)
  | readData (psn : Nat) (data : List Byte)
  | cnp
  | request (psn index opcode rkey addr : Nat) (length : Nat) (imm : Nat) (data : List Byte)
  deriving DecidableEq, Repr

/-- What leaves the device. -/
inductive Sent where
  /-- A completion or event frame to its path, address and port, on a priority and VLAN (R43), by way of hop: the address itself or the gateway of
  its family (R44). -/
  | rcp (path : Path) (ip port prio vlan hop : Nat) (out : RcpOut)
  /-- A RoCEv2 message of a queue pair, on its priority and the VLAN (R43), from the queue pair's source address (R54), by way of hop (R44). -/
  | roce (qpn prio vlan src hop : Nat) (out : RoceOut)
  /-- A priority flow control frame: XOFF or XON for a priority (R46). -/
  | pfc (prio : Nat) (xoff : Bool)
  /-- The answer to neighbour discovery, ARP or an echo request (R41): which, to whom, and by way of hop (R44). -/
  | reply (kind dst hop : Nat) (data : List Byte)
  /-- A frame of a Fabric Port (R445). -/
  | fabric (port : Nat) (bytes : List Byte)
  /-- An AVSBus Voltage write in mV (R569). -/
  | avs (mv : Nat)
  /-- An SMBus/MCTP message (R594). -/
  | mctp (bytes : List Byte)
  /-- The device's SMBus address to an alert response read (R595). -/
  | alert (addr : Nat)
  /-- Bits shifted out of the JTAG port: the instruction's data register and its value (R592). -/
  | jtag (reg : Nat) (value : Nat)
  deriving DecidableEq, Repr

/-- One IPv6 address of SET_NET_CONFIG (R44). -/
structure V6Addr where
  addr : Nat
  plen : Nat
  deriving DecidableEq, Repr

/-- What a buffered frame carries (R41, R46). -/
inductive RxKind where
  | rcp
  | roce
  deriving DecidableEq, Repr

/-- A frame held in the receive buffer: its priority, its bytes on the wire, and the UDP payload and sender of its
datagram (R46). -/
structure RxFrame where
  prio : Nat
  size : Nat
  kind : RxKind
  payload : List Byte
  srcIp : Nat
  srcPort : Nat
  deriving DecidableEq, Repr

/-- The link state of HP_STATUS (R605). -/
inductive LinkState where
  | down
  | training
  | up
  deriving DecidableEq, Repr

/-- The counters of the Host Port block (R604). -/
structure HpCounters where
  fcsErr : Nat
  lenErr : Nat
  otherMac : Nat
  fragDrop : Nat
  otherIp : Nat
  dropMalformed : Nat
  dropCrc : Nat
  dropMac : Nat
  dupInflight : Nat
  ingPrioMismatch : Nat
  linkDowns : Nat
  rxBytes : Nat
  txBytes : Nat
  xoffTx : List Nat
  rxOverflow : Nat
  deriving DecidableEq, Repr

/-- The Host Port: configuration (R43, R44), link (R39, R605), receive buffer and flow control (R46), counters. txq: frames that wait while the link
partner pauses their priority, in order, with their priority and size (R46). -/
structure HostPort where
  advertise : BitVec 3
  pfcEnable : BitVec 8
  rcpPriority : Nat
  classify : Nat
  dscpMap : List Nat
  rcpPort : Nat
  vlan : Nat
  v4Valid : Bool
  v4Addr : Nat
  v4Prefix : Nat
  v4Gateway : Nat
  v6Gateway : Nat
  v6Addrs : List V6Addr
  link : LinkState
  mode : Nat
  rx : List RxFrame
  xoff : BitVec 8
  paused : BitVec 8
  txq : List (Nat × Nat × Sent)
  ctr : HpCounters
  deriving DecidableEq, Repr

/-- The states of a queue pair (R53, R54). -/
inductive QpState where
  | init
  | rtr
  | rts
  | error
  deriving DecidableEq, Repr

/-- A work request taken from a send queue and not yet completed (R56, R57). -/
structure WorkReq where
  index : Nat
  psn : Nat
  opcode : Nat
  signaled : Bool
  imm : Nat
  localAddr : Nat
  length : Nat
  rkey : Nat
  remoteAddr : Nat
  userId : Nat
  deriving DecidableEq, Repr

/-- A work completion item that waits for COMPL_FLOW (R57): the request's index, USER_ID and opcode, bytes,
STATUS and DETAIL. -/
structure WorkDone where
  index : Nat
  userId : Nat
  opcode : Nat
  nbytes : Nat
  status : Nat
  detail : Nat
  deriving DecidableEq, Repr

/-- A queue pair (R53 to R57, R180, R181). rate is the injection rate in 1/65,536 of line rate and rateTime the time it was
last halved (R49). src is the source address chosen at RTR (R54). nakSent: a sequence-error NAK answers the gap before the number expected.
ingress is the flow and the priority of a binding (R180). -/
structure Qp where
  ctx : Nat
  session : Nat
  prio : Nat
  sqEntries : Nat
  sqAddr : Nat
  prodAddr : Nat
  consAddr : Nat
  complFlow : Nat
  state : QpState
  mtu : Nat
  remoteQpn : Nat
  rqPsn : Nat
  remoteIp : Nat
  src : Nat
  nakSent : Bool
  sqPsn : Nat
  timeoutUs : Nat
  retry : Nat
  rnrRetry : Nat
  retriesLeft : Nat
  rnrLeft : Nat
  taken : Nat
  outstanding : List WorkReq
  held : List WorkDone
  rate : Nat
  rateTime : Nat
  destroying : Bool
  ingress : Option (Nat × Nat)
  deriving DecidableEq, Repr

/-- A memory region (R58). -/
structure Mr where
  ctx : Nat
  addr : Nat
  length : Nat
  access : Nat
  deriving DecidableEq, Repr

/-- Queue pairs and memory regions; issued lists the R_Keys of the last 2^24 registrations (R58); stopped holds
the requests that ingress queues could not take, in their order of arrival (R48). -/
structure Roce where
  qps : Tbl Qp
  mrs : Tbl Mr
  issued : List Nat
  stopped : List RoceReq
  deriving DecidableEq, Repr

/-- What ends a command that takes time (R78 and the chapters of the commands). -/
inductive Wait where
  /-- QP_DESTROY: the queue pair has entered its last completion item (R55). -/
  | qpDestroy (qpn : Nat)
  /-- RESUME: the resumed operation stops again (R84). -/
  | resume (op : Nat)
  /-- IMAGE_LOAD with REPLACE or IMAGE_UNLOAD with DRAIN: no thread is bound to the image (R137, R138). -/
  | imageDrain (img : Nat)
  /-- GRAPH_SUBMIT: the graph queue's graph ends (R184). -/
  | graph (q : Nat)
  /-- GRAPH_SUBMIT with CANCEL: the original submission's completion has been sent (R187). -/
  | graphCancel (q : Nat)
  /-- RETRAIN_CHANNEL on a global channel (R221). -/
  | channel (ch : Nat)
  /-- UNMAP of a range: accesses that passed the ATU settle (R208). -/
  | unmap (ctx va len : Nat)
  /-- MAP or UNMAP in a context where an UNMAP has not ended (R209): the request. -/
  | mapQueue (ctx : Nat) (f : Frame)
  /-- CONTEXT_DESTROY (R204). -/
  | contextDestroy (ctx : Nat)
  /-- GAZ_LOAD DESTROY or WRITE, GAZ_BANK_SERVICE (R356, R370). -/
  | gaz (bank : Nat)
  /-- FRAME_SESSION_OPEN CLOSE with DRAIN (R419). -/
  | frameClose (id : Nat)
  /-- FABRIC_REDISCOVER: the next commit (R474). -/
  | rediscover
  /-- FW_UPDATE ACTIVATE: the handover ends (R500). -/
  | handover
  /-- POD_QUARANTINE with DRAIN (R504). -/
  | quarantine (pod : Nat)
  /-- PORT_RELINK (R511). -/
  | relink (port : Nat)
  /-- AVS_RECAL (R512). -/
  | recal
  /-- FREEZE NOW: the cut completes (R546). -/
  | freeze
  /-- WAIT_GRAPH ASSEMBLE: the second reading (R544). -/
  | waitGraph
  /-- POD_QUARANTINE SELFTEST (R505). -/
  | selftest (pod : Nat)
  /-- ENGINE_RESET (R510). -/
  | engineReset (e : Nat)
  /-- BATCH_CONFIG FLUSH: the item of the batch's manifest has entered BATCH_FLOW (R440). -/
  | flush (session batch : Nat)
  /-- A command that acts on frozen units: it runs after THAW (R547). -/
  | deferred (f : Frame)
  /-- FLOW_BIND_INGRESS with UNBIND: the items of SENDs already received have entered the flow (R180). -/
  | unbind (qpn : Nat)
  deriving DecidableEq, Repr

/-- A command in flight: its request ID and opcode, its sender, what ends it (R77, R78), and its place in the order in which commands passed step
15 of R64 (R74, R209). -/
structure InFlight where
  rid : Nat
  opcode : Nat
  path : Path
  ip : Nat
  port : Nat
  wait : Wait
  order : Nat
  deriving DecidableEq, Repr

/-- An event record (R86). -/
structure EventRec where
  seq : Nat
  cls : Nat
  code : Nat
  data : List Byte
  deriving DecidableEq, Repr

/-- A session (R68 to R87). cache lists the completed requests, the earliest first; events the retained events, the
oldest first; unsent those raised while firmware could not send (R501); fetched the highest
EVENT_SEQ returned by GET_EVENTS (R595); latches the _HI registers latched (R601);
idle the IDLE_TIMEOUT in seconds and lastSeen the time of the last frame that passed step 9 of R64 (R72); boot a boot ROM session. -/
structure Session where
  path : Path
  ip : Nat
  port : Nat
  verMajor : Nat
  verMinor : Nat
  priv : Bool
  ctx : Nat
  maxPayload : Nat
  key : Option (List Byte)
  idle : Nat
  lastSeen : Nat
  boot : Bool
  cache : List RcpOut
  floor : Nat
  inFlight : List InFlight
  mask : Nat
  evSeq : Nat
  events : List EventRec
  unsent : List EventRec
  fetched : Nat
  latches : Tbl Nat
  deriving DecidableEq, Repr

/-- A remembered OPEN_SESSION: its key of R71, the time it came, and the completion sent. -/
structure OpenMem where
  path : Path
  ip : Nat
  port : Nat
  rid : Nat
  at_ : Nat
  out : RcpOut
  deriving DecidableEq, Repr

/-- A command that still runs though its session has ended: it runs to completion, and its completion is discarded (R72). -/
structure Orphan where
  sid : Nat
  session : Session
  cmd : InFlight
  deriving DecidableEq, Repr

/-- What waits for the end of a handover pause (R73): a datagram in the receive buffer, not yet checked, or a frame given decoded, with its
opcode. -/
inductive HeldFrame where
  | datagram (d : Datagram)
  | frame (op : Nat) (f : Frame)
  deriving DecidableEq, Repr

/-- RCP: open sessions by SESSION_ID, the memory of OPEN_SESSION requests, what waits during a handover pause, in arrival order (R73), the
completions that the new firmware is to send after it (R501), the commands of ended sessions that still run (R72), and how many commands have
started (R74). -/
structure Rcp where
  sessions : Tbl Session
  opens : List OpenMem
  heldFrames : List HeldFrame
  owed : List (Path × Nat × Nat × RcpOut)
  orphans : List Orphan
  nextStart : Nat
  deriving DecidableEq, Repr

/-- An owner of a shared resource (R518 to R522). -/
structure Owner where
  session : Nat
  firmware : Bool
  cls : Nat
  fn : Nat
  deriving DecidableEq, Repr

/-- An armed injection (R528). -/
structure Injection where
  severity : Nat
  ctx : Nat
  addr : Nat
  phys : Nat
  value : Nat
  deriving DecidableEq, Repr

/-- One error detector (R526, R527). -/
structure Detector where
  fired : Bool
  fromInject : Bool
  armed : Option Injection
  detail : Nat
  count : Nat
  lastEvent : Option Nat
  deriving DecidableEq, Repr

/-- Service and shared resources (R500 to R529). abandoned lists the threads and epochs whose unit operations a quarantine
abandoned (R504); stalled the units whose watchdog fired while firmware did not run (R508, R510). fwClaims are firmware's claims set aside while hardware owns a pin (R520, R573). fiPlaced lists the Frame Intake engines in placement (R510);
relink the ports being relinked, 0 for the Host Port and 1 + p for Fp, each with the time it began (R511). -/
structure Svc where
  owners : Tbl Owner
  fwClaims : Tbl Owner
  detectors : Tbl Detector
  abandoned : List (Nat × Nat)
  fiPlaced : BitVec 32
  relink : Tbl Nat
  lostControllers : List Nat
  stalled : List Nat
  deriving DecidableEq, Repr

/-- The running or staged firmware image (R482, R484): slot 0 A, 1 B, 2 network. -/
structure FwImage where
  slot : Nat
  release : Nat
  svn : Nat
  revoke : Nat
  keySlot : Nat
  digest : List Byte
  deriving DecidableEq, Repr

/-- One copy of the certificate store (R490). -/
structure CertCopy where
  seq : Nat
  chain : List Byte
  deriving DecidableEq, Repr

/-- One copy of the security configuration record (R495). -/
structure SecCopy where
  seq : Nat
  hosts : List (List Byte)
  signers : List (List Byte)
  deriving DecidableEq, Repr

/-- A boot flash (R483): its bytes by offset, unlisted bytes erased, and the two copies of the certificate and security configuration areas. -/
structure Flash where
  bytes : Tbl Byte
  certs : List CertCopy
  secs : List SecCopy
  deriving DecidableEq, Repr

/-- The fuses (R480), the Host Port's fused MAC address (R41) and those of the Fabric Ports (R445), each a number whose most significant byte goes first. -/
structure Fuses where
  rootHash : List (List Byte)
  revoke : BitVec 4
  svn : Nat
  uds : List Byte
  caHash : List Byte
  serial : Nat
  mac : Nat
  portMac : List Nat
  deriving DecidableEq, Repr

/-- Firmware, boot flash, fuses and measurements (R480 to R502). writing: FW_UPDATE WRITE has erased the inactive
slot record. kept: the network-booted image that firmware keeps (R558). handover: the image a live handover
starts (R500), pauseAt when its pause began. -/
structure Fw where
  fuses : Fuses
  primary : Flash
  secondary : Flash
  running : Option FwImage
  kept : List Byte
  writing : Bool
  handover : Option FwImage
  pauseAt : Nat
  mr : List (List Byte)
  extends_ : List Nat
  deriving DecidableEq, Repr

end Sys2Proof.Machine
end

