-- ==== Sys2Proof/Machine/PartsUnit.lean ====
section
/-!
DEFINITION. The parts of the state that belong to the fixed-function units: Legends and jobs of Table Intake, the slice engines, the Projection
Engines and the Dictionary Codec, suspended operations, the Join store, the Gazetteer.
-/
namespace Sys2Proof.Machine
open Sys2Proof

/-- A Legend (R232 to R234): its context and its bytes. -/
structure Legend where
  ctx : Nat
  bytes : List Byte
  deriving DecidableEq, Repr

/-- What every streaming operation keeps (R81, R82, R84): who waits, the issuing thread, its context, its OP_HANDLE (0 until it is first suspended), the
output space of the running segment, the counts of that segment, a work item that its flow has not accepted, and the state area as the unit left it at its suspension. -/
structure JobHead where
  iss : Issuer
  thread : Nat
  ctx : Nat
  handle : Nat
  outAddr : Nat
  outLen : Nat
  inC : Nat
  outP : Nat
  held : Option (List Byte)
  saved : List Byte
  deriving DecidableEq, Repr

/-- A Table Intake job (R236 to R253): its descriptor and Legend, the schema once read, the place of the message in delivery and the rows of it
delivered, the rows and batches delivered in all; the buffers of a GDS-compressed message, none while a codec lane has yet to decode one,
and what each decoded to. -/
structure TableJob where
  head : JobHead
  desc : List Byte
  legend : List Byte
  fields : Option (List ArrowField)
  pos : Nat
  row : Nat
  total : Nat
  batches : Nat
  decodes : List (Option (Option (List Byte)))
  deriving DecidableEq, Repr

/-- A column job (R259 to R275, R290 to R292): the descriptor, what is copied at its start, the input rows acted on, the rows and batches
written, the events of each step, the rows of the batch in progress with its FIRST_ROW, the results of the searches of the row in hand, and whether one of
them waits at its bank (R353). -/
structure ColJob where
  head : JobHead
  desc : List Byte
  steps : List Byte
  map : List Byte
  bounds : List (List Byte)
  inLeg : List Byte
  outLeg : List Byte
  row : Nat
  rowsOut : Nat
  batches : Nat
  events : List Nat
  rows : List (List Cell)
  first : Nat
  found : List Nat
  asking : Bool
  deriving DecidableEq, Repr

/-- A join job (R281 to R292): the descriptor, the Legends of its sides and output, the pages of its region, the next outcome, the rows and batches
written, and what its result block says of its input: build rows, probe rows, null-key rows, parts, levels, chunked parts. -/
structure JoinJob where
  head : JobHead
  desc : List Byte
  bLeg : List Byte
  pLeg : List Byte
  oLeg : List Byte
  map : List Byte
  pages : List Nat
  next : Nat
  rowsOut : Nat
  batches : Nat
  stats : List Nat
  deriving DecidableEq, Repr

/-- A codec job (R396 to R416): the descriptor; the lane's state as the input bytes read (each once, R407), the place in the sequence of items
the job reads or writes, the bits of its last code not yet in a whole byte, the totals of R410; where the earlier segments put their output;
and how the job has ended where its flow has not yet taken its item. -/
structure CodecJob where
  head : JobHead
  desc : List Byte
  got : List Byte
  item : Nat
  hold : Nat
  holdBits : Nat
  totalIn : Nat
  totalOut : Nat
  verified : Nat
  block : Nat
  outs : List (Nat × Nat)
  resumed : Bool
  ending : Option (Nat × Nat × Nat × Nat)
  deriving DecidableEq, Repr

/-- A GDS decode of Table Intake (R241, R406): the Table Intake engine it is for, which buffer of the message it is, the frame, and the length that
the buffer states. -/
structure GdsDecode where
  engine : Nat
  buffer : Nat
  frame : List Byte
  want : Nat
  deriving DecidableEq, Repr

/-- What a codec engine queues and a lane holds (R406). -/
inductive LaneWork where
  | job (j : CodecJob)
  | gds (g : GdsDecode)
  deriving DecidableEq, Repr

/-- The codec job of a lane's work. -/
def LaneWork.job? : LaneWork → Option CodecJob
  | .job j => some j
  | .gds _ => none

/-- A Projection operation (R381 to R391): whether it is an ACCST, the address of its descriptor, the three descriptors as copied at its start, the next
slab and the first of the running segment, the destination base and the limit of that segment; of an ACCST where its allocation begins and its words. -/
structure ProjJob where
  head : JobHead
  acc : Bool
  addr : Nat
  desc : List Byte
  src : List Byte
  dst : List Byte
  slab : Nat
  first : Nat
  base : Int
  limit : Option Nat
  accAt : Nat
  accLen : Nat
  deriving DecidableEq, Repr

/-- What a Projection Engine queues and runs: an operation, or slabs of a sample's output (R422). -/
inductive ProjWork where
  | job (j : ProjJob)
  | sample (session sample : Nat)
  deriving DecidableEq, Repr

/-- The operation of an engine's work. -/
def ProjWork.job? : ProjWork → Option ProjJob
  | .job j => some j
  | .sample _ _ => none

/-- A suspended operation by unit (R81, R83). A suspended sample lives in its frame session. -/
inductive UnitJob where
  | codec (engine : Nat) (j : CodecJob)
  | join (slice : Nat) (j : JoinJob)
  | column (slice : Nat) (j : ColJob)
  | proj (engine : Nat) (j : ProjJob)
  | table (engine : Nat) (j : TableJob)
  | frame (session sample : Nat)
  deriving DecidableEq, Repr

/-- A suspended operation: its context, and whether a RESUME runs it (R83 to R85). -/
structure Susp where
  ctx : Nat
  job : UnitJob
  resuming : Bool
  deriving DecidableEq, Repr

/-- The queue of an engine and the job it runs (R239, R275, R387). -/
structure Engine (α : Type) where
  queue : List α
  run : Option α
  deriving DecidableEq, Repr

/-- A thread table in the Join store (R276 to R279): its pages by physical address, its bytes as the slice engines left them, its entries in the order
of their inserts. -/
structure JoinTable where
  pages : List Nat
  snap : List Byte
  entries : List (Nat × Nat)
  deriving DecidableEq, Repr

/-- Counters of a Projection Engine (R394). -/
structure ProjCtr where
  bytes : Nat
  ops : Nat
  misaligned : Nat
  clamped : Nat
  convev : Nat
  netpass : Nat
  suspends : Nat
  deriving DecidableEq, Repr

/-- Counters of a codec engine (R415). -/
structure CodecCtr where
  inBytes : Nat
  outBytes : Nat
  jobs : Nat
  clears : Nat
  corrupt : Nat
  suspends : Nat
  deriving DecidableEq, Repr

/-- The streaming units: engines by number, codec lanes by 8 × engine + lane, what waits for a place in a codec engine's queue, the free lanes
of each engine, the longest free first, suspended operations by OP_HANDLE. -/
structure Units where
  legends : Tbl Legend
  table : Tbl (Engine TableJob)
  column : Tbl (Engine ColJob)
  join : Tbl (Engine JoinJob)
  proj : Tbl (Engine ProjWork)
  codecQ : Tbl (List LaneWork)
  lanes : Tbl LaneWork
  codecWait : Tbl (List LaneWork)
  laneOrder : Tbl (List Nat)
  susp : Tbl Susp
  joins : List JoinTable
  projCtr : Tbl ProjCtr
  codecCtr : Tbl CodecCtr
  deriving DecidableEq, Repr

/-! The Gazetteer. -/

/-- The states of a bank (R371). -/
inductive BankState where
  | active
  | reloading
  | moving
  | outOfService
  | testing
  deriving DecidableEq, Repr

/-- A set (R345, R346). -/
structure GazSet where
  gen : Nat
  ctx : Nat
  bank : Nat
  first : Nat
  segs : Nat
  deriving DecidableEq, Repr

/-- Who writes entries of a bank: a GUPD or a GAZ_LOAD WRITE, whose records are checked beforehand (R355, R357). -/
inductive GazSource where
  | gupd (iss : Issuer) (ctx addr : Nat) (invalidate : Bool)
  | load (sid rid : Nat) (records : List Nat)
  deriving DecidableEq, Repr

/-- A writer of entries that has not ended: its set, first entry, count, and how many entries it has written. -/
structure GazWriter where
  set : Nat
  first : Nat
  count : Nat
  done : Nat
  src : GazSource
  deriving DecidableEq, Repr

/-- A search that waits for admission (R353): of a thread, with its load slot and its epoch, or of the column job of a slice engine, with its key and
control word. -/
inductive GazWait where
  | pod (thread slot epoch : Nat)
  | job (engine key ctl : Nat)
  deriving DecidableEq, Repr

/-- A bank (R344 to R373). Entries are 48-byte records as numbers, by number within the bank, the array and its two shadows; an unlisted entry is
invalid. tags holds TAG + 256 × TAG_MASK by segment, with its shadows. seen is the search number at an entry's last write or last comparison in
agreement, seenSeg that at the last time all entries of a segment were written. late lists what the scrubber has found to rewrite while firmware did not run
(R373). admitted counts the searches of the window; thermHeld and capHeld say that a limit held one back; moved counts the entries an EVACUATE has moved. -/
structure GazBank where
  state : BankState
  arr : Tbl Nat
  sh0 : Tbl Nat
  sh1 : Tbl Nat
  tags : Tbl Nat
  tags0 : Tbl Nat
  tags1 : Tbl Nat
  seen : Tbl Nat
  seenSeg : Tbl Nat
  late : List Nat
  seq : Nat
  scrubMs : Nat
  scrubbed : List Nat
  admitted : Nat
  thermHeld : Bool
  capHeld : Bool
  waiting : List GazWait
  writers : List GazWriter
  segAct : Nat
  thermWin : Nat
  capWin : Nat
  writes : Nat
  scrubPass : Nat
  scrubFix : Nat
  moved : Nat
  deriving DecidableEq, Repr

/-- The Gazetteer: banks, sets and generations by INDEX, the throttle level, CAP_HELD, the last reading, SEG_LIMIT, its value in the window in hand, the
segment activations of the window, and shadow copies that a lost controller held (R360) by controller. -/
structure Gaz where
  banks : Tbl GazBank
  sets : Tbl GazSet
  gens : Tbl Nat
  level : Nat
  capHeld : Bool
  temp : Nat
  segLimit : Nat
  windowLimit : Nat
  activations : Nat
  deriving DecidableEq, Repr

end Sys2Proof.Machine
end

