-- ==== Sys2Proof/Machine/State.lean ====
section
/-!
DEFINITION. The state of the block, the reasons a step can stop, and the state right after reset.
-/
namespace Sys2Proof.Machine
open Sys2Proof

/-- The block's state: the queue of waiting commands, then what the spec gives the hardware, part by part, then the model's
own fields: the count of free values drawn, and what has left the device, the newest first. -/
structure State where
  pending : List Instr
  ctl : Ctl
  clk : Clk
  fw : Fw
  host : HostPort
  roce : Roce
  rcp : Rcp
  svc : Svc
  mem : Mem
  pods : Pods
  disp : Disp
  units : Units
  gaz : Gaz
  emb : Emb
  fab : Fab
  frames : Frames
  dbg : Dbg
  pins : Pins
  free : Nat
  sent : List Sent
  deriving DecidableEq, Repr

/-- Reasons the machine stops with a fault. -/
inductive Fault where
  /-- No command of the block raises a fault: errors are completions, counters and events (R79). The constructor keeps
  the type inhabited; safe, since no step answers it. -/
  | none
  deriving DecidableEq, Repr

/-- Reasons a command has no meaning. -/
inductive Refusal where
  /-- Raised by the arm of a command whose meaning is not modelled yet; safe, the machine stops. -/
  | notModelled (mnemonic : String)
  deriving DecidableEq, Repr

/-- The reset controller while power-on reset is asserted with REFCLK running and no rail good yet (R552, R555, R561, R567).
STRAPS holds its sampled value only after release; 0 is a DESIGN CHOICE of log entry 2. -/
def Ctl.reset : Ctl where
  now := 0
  surveyorTime := 0
  refclk := true
  railGood := [false, false, false, false, false, false]
  porCounting := false
  goodAt := 0
  held := some .power
  pinLevel := none
  driveLevel := none
  driveAt := 0
  driving := false
  rstCause := 1
  lockStatus := 0
  pllLock := 0
  lockAt := []
  pllStarted := false
  islandUp := 0
  fabricOn := false
  straps := 0
  stage := 0
  slot := 3
  bootDetail := 0
  surveyor := .held
  resetSinceRom := true
  fabricAt := 0
  unrecorded := 0
  trained := false
  staging := []
  stagingLen := 0

/-- Clock, power and thermal registers at their Reset values (R21, R23, R28, R513, R577, R578). -/
def Clk.reset : Clk where
  mons := List.replicate 32 ⟨0, false⟩
  target := 100
  targetLast := 0
  thermalLast := false
  powerLast := false
  limited := false
  slowest := 0
  tCount := 0
  sCount := 0
  iterations := 0
  limitedCount := 0
  iterated := false
  vreq := 0x2EE
  vreqTime := 0
  vread := 0
  iread := 0
  pread := 0
  avsFails := 0
  allowance := 180
  trims := List.replicate 32 0
  calTime := 0
  recal := false
  rails := List.replicate 6 ⟨0, 0, false⟩
  temps := List.replicate 38 none
  gazInj := false
  hottest := 0
  sensor := 0
  throttle := false
  alert := false
  hot := false
  trip := false
  alertC := 95
  throttleC := 100

/-- The Host Port's counters at reset (R604). -/
def HpCounters.reset : HpCounters where
  fcsErr := 0
  lenErr := 0
  otherMac := 0
  fragDrop := 0
  otherIp := 0
  dropMalformed := 0
  dropCrc := 0
  dropMac := 0
  dupInflight := 0
  ingPrioMismatch := 0
  linkDowns := 0
  rxBytes := 0
  txBytes := 0
  xoffTx := List.replicate 8 0
  rxOverflow := 0

/-- The Host Port at the defaults of R43 and R45. -/
def HostPort.reset : HostPort where
  advertise := 7
  pfcEnable := 0xFF
  rcpPriority := 6
  classify := 0
  dscpMap := (List.range 64).map (· / 8)
  rcpPort := 41890
  vlan := 0
  v4Valid := false
  v4Addr := 0
  v4Prefix := 0
  v4Gateway := 0
  v6Gateway := 0
  v6Addrs := []
  link := .down
  mode := 0
  rx := []
  xoff := 0
  paused := 0
  txq := []
  ctr := HpCounters.reset

/-- The Gazetteer at reset (R373): every bank ACTIVE with every entry invalid, SEG_LIMIT at the ceiling of CLKMODE 0b00. -/
def Gaz.reset : Gaz := ⟨[], [], [], 0, false, 0, 0x4E_2000, 0x4E_2000, 0⟩

/-- The fabric at reset (R475, R476, R479): no address, every port DOWN, no route. -/
def Fab.reset : Fab := ⟨[], 0xFFFF, 0, 0, 0xFFFF, 0, [], [], none, [], none, [], [], 0, [], [], [], []⟩

/-- Observation at reset (R534, R542, R545). -/
def Dbg.reset : Dbg where
  smp := ⟨false, 0, 0, 0, 0, 0, 0⟩
  trv := ⟨0, 0, 0, 0, false, false, false, 0, 0, 0, false, false, false, 0, 0, 0, 0, 0, [], [0, 0, 0, 0]⟩
  frz := ⟨false, 0, [], false, false, 0, 0, none, false⟩
  graphs := []
  assembling := []
  snapshots := 0

/-- Pins and low-speed interfaces at reset (R593, R594, R603). -/
def Pins.reset : Pins where
  gpioIn := 0
  gpioOut := 0
  duty := List.replicate 8 0
  tach := List.replicate 8 0
  trigPulse := false
  smbAddr := 0x2C
  alertEn := true
  smbAlert := false
  eid := 0
  jtag := .idcode
  preload := 0

/-- Fuses and flash as manufactured: every value a DESIGN CHOICE of log entry 2, since the spec fuses and programs them per part. -/
def Fw.reset : Fw where
  fuses := ⟨List.replicate 4 (List.replicate 48 0), 0, 0, List.replicate 32 0, List.replicate 48 0, 0, 0, List.replicate 12 0⟩
  primary := ⟨[], [], []⟩
  secondary := ⟨[], [], []⟩
  running := none
  kept := []
  writing := false
  handover := none
  pauseAt := 0
  mr := List.replicate 4 (List.replicate 48 0)
  extends_ := [0, 0, 0, 0]

/-- The machine while power-on reset is asserted: every register at its Reset value, nothing mapped, no session. -/
def State.reset : State where
  pending := []
  ctl := Ctl.reset
  clk := Clk.reset
  fw := Fw.reset
  host := HostPort.reset
  roce := ⟨[], [], [], []⟩
  rcp := ⟨[], [], [], [], [], 0⟩
  svc := ⟨[], [], [], [], 0xFFFF_FFFF, [], [], []⟩
  mem := ⟨[], [(0, ⟨false, 0, [], 0, ⟨0, 0, 0, 0, 0, 0⟩, false⟩)], [], 0, 0, [], [], [], [], [], [], 0, []⟩
  pods := ⟨[], [], []⟩
  disp := ⟨[], [], [], [], [], []⟩
  units := ⟨[], [], [], [], [], [], [], [], [], [], [], [], []⟩
  gaz := Gaz.reset
  emb := ⟨[], [], 0, [], [], [], [], []⟩
  fab := Fab.reset
  frames := ⟨[], [], 0, [], []⟩
  dbg := Dbg.reset
  pins := Pins.reset
  free := 0
  sent := []

end Sys2Proof.Machine
end

