-- ==== Sys2Proof/Machine/Ops.lean ====
section
/-!
DEFINITION. The named operations over the state that every family shares: the initial values of table entries, free
values, what is sent, sessions and events, detectors and injections, completions.
-/
namespace Sys2Proof.Machine
open Sys2Proof

/-! Initial values of entries that a table does not list. -/

/-- A thread after reset (R138): UNBOUND, its registers zero (log entry 2). -/
def Thread.init : Thread where
  st := .unbound
  pc := 0
  s := List.replicate 32 0
  v := List.replicate 16 (List.replicate 64 0)
  m := List.replicate 8 0
  item := none
  tags := List.replicate 8 .free
  acc := none
  fp := 0
  image := none
  epoch := 0
  slots := List.replicate 8 none
  stores := []
  cursor := none
  handed := 0
  lastSlot := 63
  nextOrder := 0
  waitChange := 0
  tagAge := List.replicate 8 0
  lock := none

/-- A Pod after reset. -/
def Pod.init : Pod where
  acc := []
  accQueue := []
  gen := none
  busy := 0
  held := 0
  busyValid := false
  quarantine := false
  draining := false
  selftest := none
  quarAt := 0
  lastSampled := 15
  turn := 15
  sortBeats := 0
  winFrom := 0
  busyFrom := 0
  busyTime := 0

/-- A channel after power-on reset (R223, R225). -/
def Channel.init : Channel := ⟨.absent, 0, 0, 0, 0, 0, []⟩

/-- A detector after power-on reset (R526). -/
def Detector.init : Detector := ⟨false, false, none, 0, 0, none⟩

/-- A thread by its global index (R90). -/
def State.thread (s : State) (t : Nat) : Thread := s.pods.threads.at Thread.init t

/-- The state with a thread replaced. -/
def State.setThread (s : State) (t : Nat) (x : Thread) : State :=
  { s with pods := { s.pods with threads := s.pods.threads.upd Thread.init t x } }

/-- The state with a thread changed. -/
def State.modThread (s : State) (t : Nat) (f : Thread → Thread) : State := s.setThread t (f (s.thread t))

/-- A Pod by number. -/
def State.pod (s : State) (p : Nat) : Pod := s.pods.pods.at Pod.init p

/-- The state with a Pod changed. -/
def State.modPod (s : State) (p : Nat) (f : Pod → Pod) : State :=
  { s with pods := { s.pods with pods := s.pods.pods.upd Pod.init p (f (s.pod p)) } }

/-- A channel by global number. -/
def State.channel (s : State) (c : Nat) : Channel := s.mem.channels.at Channel.init c

/-- The state with a channel changed. -/
def State.modChannel (s : State) (c : Nat) (f : Channel → Channel) : State :=
  { s with mem := { s.mem with channels := s.mem.channels.upd Channel.init c (f (s.channel c)) } }

/-- The state with a context changed, where it exists. -/
def State.modCtx (s : State) (c : Nat) (f : Ctx → Ctx) : State :=
  match s.mem.contexts.find c with
  | none => s
  | some x => { s with mem := { s.mem with contexts := s.mem.contexts.put c (f x) } }

/-- A context's fault counter counted up (R213, R532). -/
def State.countFault (s : State) (c : Nat) (f : CtxFaults → CtxFaults) : State :=
  s.modCtx c (fun x => { x with faults := f x.faults })

/-- A refused access counted (R213). -/
def State.countRefused (s : State) (c status : Nat) : State :=
  s.countFault c (fun f =>
    if status = stXlate then { f with xlate := f.xlate + 1 }
    else if status = stPerm then { f with perm := f.perm + 1 }
    else if status = stHw then { f with hw := f.hw + 1 }
    else if status = stAlign then { f with align := f.align + 1 } else f)

/-! Free values and what is sent. -/

/-- The next free value and the state with it drawn. -/
def State.draw (s : State) : Nat × State := (Config.freeNat s.free, { s with free := s.free + 1 })

/-- n free bytes and the state with them drawn. -/
def State.drawBytes (s : State) (n : Nat) : List Byte × State :=
  ((List.range n).map (fun i => BitVec.ofNat 8 (Config.freeNat (s.free + i))), { s with free := s.free + n })

/-- The first number from v upward, counted modulo m within n tries, that is not taken. -/
def nextFree (taken : Nat → Bool) (m : Nat) : Nat → Nat → Nat
  | 0, v => v % m
  | n + 1, v => if taken (v % m) then nextFree taken m n (v % m + 1) else v % m

/-- A fresh identifier below m that is not taken, chosen freely: a free value, and past it the next one not taken. At most n
are taken. -/
def State.fresh (s : State) (taken : Nat → Bool) (m n : Nat) : Nat × State :=
  (nextFree taken m (n + 1) (s.draw).1, (s.draw).2)

/-- The state with something sent. -/
def State.send (s : State) (x : Sent) : State := { s with sent := x :: s.sent }

/-! Islands. -/

/-- A detector identifier (R524). -/
def detId (kind inst : Nat) : Nat := kind * 0x0100_0000 + inst * 0x100

/-- Island numbers of R524. -/
def islHost : Nat := 0
def islFabric (p : Nat) : Nat := 1 + p
def islMc (n : Nat) : Nat := 13 + n
def islSurveyor : Nat := 45
def islLow : Nat := 46

/-- Whether an island is out of reset. -/
def State.up (s : State) (i : Nat) : Bool := s.ctl.islandUp.getLsbD i

/-- The error of a request to an island that is held (R20). -/
def unavailable (i : Nat) : Err := ⟨stHw, 0, 0xFFFF, detId 3 i⟩

/-! What the Host Port sends (R41, R44). Addresses are 128-bit numbers, an IPv4 address in its IPv4-mapped form. -/

/-- The IPv4 address of an IPv4-mapped address. -/
def v4Of (ip : Nat) : Option Nat := if ip / 2 ^ 32 = 0xFFFF then some (ip % 2 ^ 32) else none

/-- An IPv6 link-local address. -/
def isLinkLocal (ip : Nat) : Bool := ip / 2 ^ 118 == 0x3FA

/-- Whether a prefix of an address of w bits covers another address. -/
def covers (w addr len ip : Nat) : Bool := addr / 2 ^ (w - len) == ip / 2 ^ (w - len)

/-- An IPv4 address as an IPv4-mapped IPv6 address. -/
def v4Mapped (a : Nat) : Nat := 0xFFFF_0000_0000 + a

/-- Where a frame for an address goes (R44): to the address itself on the link or inside a configured prefix, else to the gateway of its family;
none where there is no gateway. -/
def HostPort.nextHop (h : HostPort) (ip : Nat) : Option Nat :=
  match v4Of ip with
  | some a =>
    if !h.v4Valid then none else if covers 32 h.v4Addr h.v4Prefix a then some ip
    else if h.v4Gateway != 0 then some (v4Mapped h.v4Gateway) else none
  | none =>
    if isLinkLocal ip || h.v6Addrs.any (fun x => covers 128 x.addr x.plen ip) then some ip
    else if h.v6Gateway != 0 then some h.v6Gateway else none

/-- Whether the Host Port has a way to an address. -/
def HostPort.hasRoute (h : HostPort) (ip : Nat) : Bool := (h.nextHop ip).isSome

/-- The fused MAC address in transmission order (R41, R604). -/
def Fuses.macBytes (f : Fuses) : List Byte := beb 6 f.mac

/-- A Fabric Port's fused MAC address in transmission order (R445). -/
def Fuses.portMacBytes (f : Fuses) (p : Nat) : List Byte := beb 6 (nth f.portMac 0 p)

/-- Whether the Host Port's link can carry a frame. -/
def State.linkUp (s : State) : Bool := s.up islHost && s.host.link == .up

/-- Bytes of a frame that carries n bytes of UDP payload to an address, FCS included. -/
def HostPort.frameSize (h : HostPort) (ip n : Nat) : Nat :=
  max 64 (18 + (if h.vlan = 0 then 0 else 4) + (if (v4Of ip).isSome then 20 else 40) + 8 + n)

/-- Frame bytes counted as sent (R604). -/
def State.countTx (s : State) (n : Nat) : State :=
  { s with host := { s.host with ctr := { s.host.ctr with txBytes := s.host.ctr.txBytes + n } } }

/-- Whether a frame on a path leaves the device: over a Host Port whose link is up and that has a way to the address, or over the
low-speed island (R44, R557). -/
def State.reaches (s : State) (p : Path) (ip : Nat) : Bool :=
  match p with
  | .host => s.linkUp && s.host.hasRoute ip
  | .mctp => s.up islLow

/-- Whether the link partner pauses a priority (R46). -/
def State.paused (s : State) (p : Nat) : Bool := s.host.paused.getLsbD p && s.host.pfcEnable.getLsbD p

/-- A frame of a size sent on a priority: at once, or once the link partner no longer pauses it (R46). -/
def State.hostSend (s : State) (prio size : Nat) (x : Sent) : State :=
  if s.paused prio then { s with host := { s.host with txq := s.host.txq ++ [(prio, size, x)] } } else (s.countTx size).send x

/-- The frames that wait for a priority which is no longer paused go out, in their order. -/
def State.drainTx (s : State) : State :=
  s.host.txq.foldl (fun a e => a.hostSend e.1 e.2.1 e.2.2) { s with host := { s.host with txq := [] } }

/-- An RCP frame sent, or lost where it cannot leave. -/
def State.sendRcp (s : State) (p : Path) (ip port : Nat) (o : RcpOut) : State :=
  if s.reaches p ip then
    match p with
    | .host => s.hostSend s.host.rcpPriority (s.host.frameSize ip (36 + o.payload.length + o.mac.length))
        (.rcp .host ip port s.host.rcpPriority s.host.vlan ((s.host.nextHop ip).getD ip) o)
    | .mctp => s.send (.rcp .mctp ip port 0 0 ip o)
  else s

/-! Sessions. -/

/-- A session by its identifier. -/
def State.session (s : State) (sid : Nat) : Option Session := s.rcp.sessions.find sid

/-- The state with a session changed, where it is open. -/
def State.modSession (s : State) (sid : Nat) (f : Session → Session) : State :=
  match s.session sid with
  | none => s
  | some x => { s with rcp := { s.rcp with sessions := s.rcp.sessions.put sid (f x) } }

/-- The 32 header bytes of a frame (R61). -/
def headerBytes (maj min sid rid op flags len status : Nat) (res : List Byte) : List Byte :=
  leb 2 0x5259 ++ leb 1 maj ++ leb 1 min ++ leb 4 sid ++ leb 8 rid ++ leb 2 op ++ leb 2 flags ++ leb 4 len
    ++ leb 2 status ++ res

/-- The header of a frame the device sends. -/
def RcpOut.header (o : RcpOut) : List Byte :=
  headerBytes o.verMajor o.verMinor o.sessionId o.requestId o.opcode o.flags o.payload.length o.status (zeros 6)

/-- The bytes of a frame the device sends (R60). -/
def RcpOut.bytes (o : RcpOut) : List Byte :=
  let b := o.header ++ o.payload ++ o.mac
  b ++ leb 4 (crc32c b)

/-- A frame with its MAC, where the session has a key (R63): FLAGS.MAC set and the first 16 bytes of the HMAC. -/
def RcpOut.seal (o : RcpOut) (key : Option (List Byte)) : RcpOut :=
  match key with
  | none => o
  | some k =>
    let o' := { o with flags := setBit o.flags 1 }
    { o' with mac := (hmac384 k (o'.header ++ o'.payload)).take 16 }

/-- The 8-byte error payload of R80. -/
def errPayload (e : Err) : List Byte := leb 2 e.detail ++ leb 2 e.arg ++ leb 4 e.detector

/-- A completion entered in a session's replay cache: the earliest entry is evicted beyond 1,024 and the floor rises
to it (R77, R78). -/
def Session.cachePut (x : Session) (o : RcpOut) : Session :=
  let c := x.cache ++ [o]
  if c.length > 1024 then
    { x with cache := c.drop 1, floor := max x.floor ((c.head?.map RcpOut.requestId).getD 0) }
  else { x with cache := c }

/-- The completion of a request of an open session, with its MAC (R64, R78). -/
def Session.completion (x : Session) (sid rid op status : Nat) (payload : List Byte) : RcpOut :=
  RcpOut.seal ⟨x.verMajor, x.verMinor, sid, rid, op, 1, status, payload, []⟩ x.key

/-- A completion sent and entered in the replay cache; where the session has ended it is discarded (R72). During a handover
pause it is left to the new firmware (R501). -/
def State.complete (s : State) (sid rid op : Nat) (path : Path) (ip port status : Nat) (payload : List Byte) : State :=
  match s.session sid with
  | none => s
  | some x =>
    let o := x.completion sid rid op status payload
    let s1 := s.modSession sid (fun y => y.cachePut o)
    if s.ctl.surveyor = .paused then { s1 with rcp := { s1.rcp with owed := s1.rcp.owed ++ [(path, ip, port, o)] } }
    else s1.sendRcp path ip port o

/-- Whether firmware or the boot ROM can end a command: it runs, or hands over to a new image. -/
def State.canFinish (s : State) : Bool :=
  s.ctl.surveyor == .ready || s.ctl.surveyor == .netboot || s.ctl.surveyor == .paused

/-- A command in flight ends with a status and payload (R78); while firmware does not run it stays in flight (R557). A command of an ended session
ends without a completion (R72). -/
def State.finish (s : State) (sid rid status : Nat) (payload : List Byte) : State :=
  match s.session sid with
  | none =>
    if !s.canFinish then s
    else { s with rcp := { s.rcp with orphans := s.rcp.orphans.filter (fun o => !(o.sid == sid && o.cmd.rid == rid)) } }
  | some x =>
    if !s.canFinish then s else
    match x.inFlight.find? (fun c => c.rid == rid) with
    | none => s
    | some c =>
      (s.modSession sid (fun y => { y with inFlight := y.inFlight.filter (fun d => d.rid != rid) })).complete
        sid rid c.opcode c.path c.ip c.port status payload

/-- Every command that runs, of open and of ended sessions, with its session's number. -/
def State.running (s : State) : List (Nat × InFlight) :=
  s.rcp.sessions.flatMap (fun e => e.2.inFlight.map (fun c => (e.1, c))) ++ s.rcp.orphans.map (fun o => (o.sid, o.cmd))

/-- Every command in flight that waits for w, with its session. -/
def State.waiting (s : State) (w : Wait) : List (Nat × Nat) :=
  s.rcp.sessions.flatMap (fun e => (e.2.inFlight.filter (fun c => c.wait == w)).map (fun c => (e.1, c.rid)))
    ++ (s.rcp.orphans.filter (fun o => o.cmd.wait == w)).map (fun o => (o.sid, o.cmd.rid))

/-- Every command in flight that waits for w ends. -/
def State.finishAll (s : State) (w : Wait) (status : Nat) (payload : List Byte) : State :=
  (s.waiting w).foldl (fun a c => a.finish c.1 c.2 status payload) s

/-- Every command in flight that waits for w ends with an error. -/
def State.failAll (s : State) (w : Wait) (e : Err) : State := s.finishAll w e.status (errPayload e)

/-! Events (R86, R87). -/

/-- The payload of an event frame. -/
def EventRec.bytes (e : EventRec) : List Byte :=
  leb 8 e.seq ++ leb 2 e.cls ++ leb 2 e.code ++ zeros 4 ++ padTo 48 e.data

/-- The frame of an event (R86). -/
def Session.eventFrame (x : Session) (sid : Nat) (e : EventRec) : RcpOut :=
  RcpOut.seal ⟨x.verMajor, x.verMinor, sid, 0, 0x0006, 0x0009, 0, e.bytes, []⟩ x.key

/-- An event raised in one session that subscribes to its class: numbered, retained, and sent once firmware runs (R501). -/
def State.eventTo (s : State) (sid cls code : Nat) (data : List Byte) : State :=
  match s.session sid with
  | none => s
  | some x =>
    if bit x.mask cls then
      let e : EventRec := ⟨x.evSeq + 1, cls, code, data⟩
      let x' := { x with evSeq := x.evSeq + 1, events := lastN 256 (x.events ++ [e]) }
      let s := if x.path = .mctp ∧ s.pins.alertEn then { s with pins := { s.pins with smbAlert := true } } else s
      if s.ctl.surveyor = .ready then
        (s.modSession sid (fun _ => x')).sendRcp x.path x.ip x.port (x.eventFrame sid e)
      else s.modSession sid (fun _ => { x' with unsent := x.unsent ++ [e] })
    else s

/-- An event raised in every session that p selects and that subscribes to its class. -/
def State.event (s : State) (p : Session → Bool) (cls code : Nat) (data : List Byte) : State :=
  ((s.rcp.sessions.filter (fun e => p e.2)).map Prod.fst).foldl (fun a sid => a.eventTo sid cls code data) s

/-- Every event retained while firmware could not send is sent (R501). -/
def State.flushEvents (s : State) : State :=
  s.rcp.sessions.foldl (fun a e =>
    let b := e.2.unsent.foldl (fun c ev => c.sendRcp e.2.path e.2.ip e.2.port (e.2.eventFrame e.1 ev)) a
    b.modSession e.1 (fun x => { x with unsent := [] })) s

/-! Detectors (R524 to R528). -/

/-- A detector by identifier. -/
def State.detector (s : State) (id : Nat) : Detector := s.svc.detectors.at Detector.init id

/-- The state with a detector changed. -/
def State.modDetector (s : State) (id : Nat) (f : Detector → Detector) : State :=
  { s with svc := { s.svc with detectors := s.svc.detectors.upd Detector.init id (f (s.detector id)) } }

/-- A detector fires: FIRED, DETAIL and FROM_INJECT are set, the count rises, and an event of class 0 goes to subscribed
privileged sessions unless one was sent for it within the last millisecond (R526, R527). -/
def State.fire (s : State) (kind inst detail : Nat) (inj : Bool) : State :=
  let id := detId kind inst
  let d := s.detector id
  let n := sat32 d.count 1
  let due := match d.lastEvent with
    | none => true
    | some t => decide (t + 100000 ≤ s.ctl.now)
  let s0 := if s.dbg.trv.trigDet = id then { s with dbg := { s.dbg with trv := { s.dbg.trv with fired := true } } } else s
  let s1 := s0.modDetector id (fun d => { d with
    fired := true, fromInject := inj, detail := detail, count := n,
    lastEvent := if due then some s.ctl.now else d.lastEvent })
  if due then
    s1.event (·.priv) 0 0x0010 (leb 4 id ++ leb 4 n ++ leb 2 detail ++ leb 1 (b2n inj))
  else s1

/-- The injection armed on a detector. -/
def State.armed (s : State) (kind inst : Nat) : Option Injection := (s.detector (detId kind inst)).armed

/-- The state with a detector's injection disarmed (R528). -/
def State.disarm (s : State) (kind inst : Nat) : State :=
  s.modDetector (detId kind inst) (fun d => { d with armed := none })

/-- An armed injection fires at its first qualifying event: it disarms and the detector fires as injected. -/
def State.fireInjected (s : State) (kind inst detail : Nat) : State :=
  (s.disarm kind inst).fire kind inst detail true

/-- A port that was being relinked is up (R511). -/
def State.relinked (s : State) (t : Nat) : State :=
  if (s.svc.relink.find t).isSome then ({ s with svc := { s.svc with relink := s.svc.relink.del t } }).finishAll (.relink t) stOk [] else s

/-! Units. -/

/-- Whether a part of the fabric or an island is frozen (R546, R547): unit numbers of R524; island i is part 0x300 + i. -/
def State.frozen (s : State) (u : Nat) : Bool := s.dbg.frz.parts.contains u

/-- Part numbers of Freeze. -/
def partIsland (i : Nat) : Nat := 0x300 + i

/-- Unit numbers of R524. -/
def unitSlice (n : Nat) : Nat := 0x200 + n
def unitJoin (n : Nat) : Nat := 0x220 + n
def unitEmb (n : Nat) : Nat := 0x240 + n
def unitFrame (n : Nat) : Nat := 0x260 + n
def unitProj (n : Nat) : Nat := 0x280 + n
def unitCodec (n : Nat) : Nat := 0x290 + n
def unitTable (n : Nat) : Nat := 0x2A0 + n
def unitGaz (n : Nat) : Nat := 0x2B0 + n

/-- Whether a unit of the clockless fabric can act: the fabric is enabled and the unit not frozen (R546, R559). -/
def State.active (s : State) (u : Nat) : Bool := s.ctl.fabricOn && !s.frozen u

/-- Whether some memory controller is frozen and accepts no request (R228). -/
def State.memFrozen (s : State) : Bool := (List.range 32).any (fun n => s.frozen (partIsland (islMc n)))

/-- Whether a unit can act and reach memory: one that comes before a frozen controller in a Freeze waits for the thaw (DESIGN CHOICE, log entry 71:
also where it would have gone on at another controller). -/
def State.works (s : State) (u : Nat) : Bool := s.active u && !s.memFrozen

/-- Whether firmware runs and takes frames. -/
def State.fwReady (s : State) : Bool := s.ctl.surveyor == .ready

/-- The strapped clock mode. -/
def State.clkMode (s : State) : Nat := s.ctl.straps.toNat / 4

end Sys2Proof.Machine
end

