-- ==== Sys2Proof/Machine/Atu.lean ====
section
/-!
DEFINITION. The physical map and its interleave (R200, R201), the ATU's translation and checks (R210 to R213), error
correction and parity (R214 to R218), reads and writes of memory, and the free pool (R202, R206).
-/
namespace Sys2Proof.Machine
open Sys2Proof

/-- An operation of a unit or thread on the state that may fail with an error; the state it reached stands. -/
abbrev Io := ExceptT Err (StateM State)

/-- Run an operation. -/
def Io.exec {α : Type} (m : Io α) (s : State) : Except Err α × State := m s

/-! The physical map. -/

/-- The controller of an LPDDR5X physical address (R201). -/
def ctrlOf (pa : Nat) : Nat :=
  bits pa 16 12 ^^^ bits pa 21 17 ^^^ bits pa 26 22 ^^^ bits pa 31 27 ^^^ bits pa 36 32 ^^^ bits pa 40 37

/-- The channel within the controller (R201). -/
def chanOf (pa : Nat) : Nat := bits pa 18 17 ^^^ bits pa 24 23 ^^^ bits pa 30 29 ^^^ bits pa 36 35

/-- The byte address within the channel (R201). -/
def localOf (pa : Nat) : Nat := bits pa 40 19 * 4096 + bits pa 11 0

/-- The global channel of an LPDDR5X physical address. -/
def channelOf (pa : Nat) : Nat := 4 * ctrlOf pa + chanOf pa

/-- LPDDR5X below this address (R200). -/
def lpddrEnd : Nat := 0x0200_0000_0000
/-- The Pod stores' first address. -/
def podStoreBase : Nat := 0x0200_0000_0000
/-- The Join store's first address. -/
def joinStoreBase : Nat := 0x0200_1000_0000
/-- The end of the on-die stores. -/
def storeEnd : Nat := 0x0200_1800_0000

/-- The store that a physical address lies in, as the kind and instance of its parity detector (R524, R525). -/
def storeDetector (pa : Nat) : Nat × Nat :=
  if pa < joinStoreBase then (4, (pa - podStoreBase) / 0x8_0000) else (5, 0x220 + (pa - joinStoreBase) / 0x40_0000)

/-- The store that holds a physical address, as its first address and size; none outside the stores. -/
def storeOf (pa : Nat) : Option (Nat × Nat) :=
  if pa < podStoreBase then none
  else if pa < joinStoreBase then
    some (podStoreBase + (pa - podStoreBase) / 0x8_0000 * 0x8_0000, 0x8_0000)
  else if pa < storeEnd then
    some (joinStoreBase + (pa - joinStoreBase) / 0x40_0000 * 0x40_0000, 0x40_0000)
  else none

/-! Bytes of memory. -/

/-- A byte of memory: an address nothing has written reads zero (log entry 4). -/
def Mem.byte (m : Mem) (pa : Nat) : Byte := m.bytes.at 0 pa

/-- Bytes of memory from a physical address. -/
def Mem.read (m : Mem) (pa : Nat) : Nat → List Byte
  | 0 => []
  | n + 1 => m.byte pa :: m.read (pa + 1) n

/-- Bytes written to memory at a physical address. -/
def Mem.write (m : Mem) (pa : Nat) : List Byte → Mem
  | [] => m
  | b :: bs => Mem.write { m with bytes := m.bytes.upd 0 pa b } (pa + 1) bs

/-- The memory keeps its canonical form: addresses strictly rising, no entry equal to what an unlisted address reads as. -/
def Mem.wf (m : Mem) : Bool := m.bytes.sorted && m.bytes.all (fun e => e.2 != 0)

/-- A range of physical memory zeroed (R206); errors of its blocks and words go with the contents. -/
def Mem.zero (m : Mem) (pa len : Nat) : Mem :=
  { m with
    bytes := m.bytes.keep (fun a _ => !(pa ≤ a && a < pa + len))
    badBlocks := m.badBlocks.keep (fun b _ => !(pa ≤ 64 * b && 64 * b < pa + len))
    badWords := m.badWords.filter (fun w => !(pa ≤ 4 * w && 4 * w < pa + len)) }

/-! Translation (R210, R211). -/

/-- The permission an access needs (R211). -/
inductive Need where
  | x
  | r
  | w
  | rw
  deriving DecidableEq, Repr

/-- Whether a mapping grants it. -/
def Need.met (n : Need) (m : Mapping) : Bool :=
  match n with
  | .x => m.x
  | .r => m.r
  | .w => m.w
  | .rw => m.r && m.w

/-- The DETAIL of a refused access (R131, R212): 0x0002 fetch, 0x0003 read, 0x0004 write or atomic. -/
def Need.detail (n : Need) : Nat :=
  match n with
  | .x => 2
  | .r => 3
  | .w => 4
  | .rw => 4

/-- The physical address at an offset into a list of extents. -/
def extAt : List Extent → Nat → Option Nat
  | [], _ => none
  | e :: es, off => if off < e.len then some (e.pa + off) else extAt es (off - e.len)

/-- The mapping of a context that covers an address; old admits one that UNMAP has removed for later accesses (R208). -/
def Ctx.mapAt (c : Ctx) (va : Nat) (old : Bool) : Option Mapping :=
  c.maps.find? (fun m => m.va ≤ va && va < m.va + m.len && (old || !m.dying))

/-- The translation of one address in a context with the checks of R210, in order: its physical address and whether it lies in an ECC
region, or the status that refuses it. -/
def atu (s : State) (ctx va : Nat) (n : Need) (old : Bool := false) : Except Nat (Nat × Bool) :=
  if va ≥ 2 ^ 48 then .error stXlate
  else match s.mem.contexts.find ctx with
    | none => .error stXlate
    | some c => match c.mapAt va old with
      | none => .error stXlate
      | some m => match extAt m.exts (va - m.va) with
        | none => .error stXlate
        | some pa => if n.met m then .ok (pa, m.ecc) else .error stPerm

/-- The pieces of a range that lie within aligned blocks of a size, as address and length; at most n of them. -/
def blocks (size : Nat) : Nat → Nat → Nat → List (Nat × Nat)
  | 0, _, _ => []
  | n + 1, va, len =>
    if len = 0 then [] else
      let k := min len (size - va % size)
      (va, k) :: blocks size n (va + k) (len - k)

/-- The pieces of a range by 64-byte blocks. -/
def blocks64 (va len : Nat) : List (Nat × Nat) := blocks 64 (len / 64 + 2) va len

/-- The first status that refuses one of the next pages of a range, by 4 KiB page; at most n of them. -/
def pageRefused (s : State) (ctx : Nat) (need : Need) : Nat → Nat → Nat → Option Nat
  | 0, _, _ => none
  | n + 1, va, len =>
    if len = 0 then none else
      match atu s ctx va need with
      | .error e => some e
      | .ok _ => pageRefused s ctx need n (va + min len (4096 - va % 4096)) (len - min len (4096 - va % 4096))

/-- The first status that refuses an access to a range. -/
def rangeRefused (s : State) (ctx va len : Nat) (n : Need) : Option Nat := pageRefused s ctx n (len / 4096 + 2) va len

/-! Errors in memory (R20, R215 to R218, R227). -/

/-- An access counted on its channel: a full write, or a read; an activation is a free value (R531). -/
def State.countAccess (s : State) (ch : Nat) (full : Bool) : State :=
  (s.draw).2.modChannel ch (fun c => { c with
    writes := c.writes + b2n full, reads := c.reads + b2n (!full), acts := c.acts + (s.draw).1 % 2 })

/-- An armed link error of a channel fires (R216, R528): whether it fails the access. -/
def linkMeet (s : State) (ch : Nat) : State × Bool :=
  match s.armed 2 ch with
  | none => (s, false)
  | some i =>
    ((s.modChannel ch (fun c => if i.severity = 0 then { c with ce := sat32 c.ce 1 } else { c with ue := sat32 c.ue 1 })).fireInjected 2 ch
      (i.severity + 1), i.severity == 1)

/-- An ECC error of a block found by a read: an armed injection for it, or one that memory holds. -/
def eccFound (s : State) (blk : Nat) (inj : Option Injection) : Option Bool :=
  match inj with
  | some i => some (i.severity != 0 || s.mem.badBlocks.find blk == some true)
  | none => s.mem.badBlocks.find blk

/-- The injection armed for a block of a channel. -/
def eccArmed (s : State) (ch blk : Nat) : Option Injection :=
  match s.armed 1 ch with
  | none => none
  | some i => if i.phys / 64 = blk then some i else none

/-- A detector fires, as injected or not. -/
def State.fireAs (s : State) (inj : Bool) (kind inst detail : Nat) : State :=
  if inj then s.fireInjected kind inst detail else s.fire kind inst detail false

/-- A read of a block of an ECC region (R215): a corrected error is repaired, an uncorrectable one fails the read. -/
def eccRead (s : State) (ch blk : Nat) : State × Option Err :=
  match eccFound s blk (eccArmed s ch blk) with
  | none => (s, none)
  | some false =>
    (({ (s.modChannel ch (fun c => { c with ce := sat32 c.ce 1 })) with
        mem := { (s.modChannel ch (fun c => { c with ce := sat32 c.ce 1 })).mem with badBlocks := s.mem.badBlocks.del blk } }).fireAs
      (eccArmed s ch blk).isSome 1 ch 1, none)
  | some true =>
    (({ (s.modChannel ch (fun c => { c with ue := sat32 c.ue 1 })) with
        mem := { (s.modChannel ch (fun c => { c with ue := sat32 c.ue 1 })).mem with badBlocks := s.mem.badBlocks.put blk true } }).fireAs
      (eccArmed s ch blk).isSome 1 ch 2, some ⟨stHw, 0, 0xFFFF, detId 1 ch⟩)

/-- What an access to one 64-byte block of LPDDR5X meets (R215, R216, R227): the state with what is counted and detected, and the error. ecc:
the block lies in an ECC region; reads: the access reads it first; full: it writes all 64 bytes. A lost granule answers with the detector of the
controller that lost it, wherever it has been moved since. -/
def lpddrBlock (s : State) (pa : Nat) (ecc reads full : Bool) : State × Option Err :=
  let ch := channelOf pa
  let mc := ctrlOf pa
  if (s.mem.lost.find (pa / 4096)).isSome || !s.up (islMc mc) || (s.channel ch).state == .lost then
    (s, some (unavailable (islMc ((s.mem.lost.find (pa / 4096)).getD mc))))
  else
    let r := linkMeet (s.countAccess ch full) ch
    if r.2 then (r.1, some ⟨stHw, 0, 0xFFFF, detId 2 ch⟩)
    else if !ecc then (r.1, none)
    else if full then ({ r.1 with mem := { r.1.mem with badBlocks := r.1.mem.badBlocks.del (pa / 64) } }, none)
    else if !reads then (r.1, none)
    else eccRead r.1 ch (pa / 64)

/-- What a read of words of an on-die store meets (R218): a parity error fails it with the store's detector. -/
def storeWords (s : State) (pa len : Nat) : State × Option Err :=
  let (k, i) := storeDetector pa
  let inj := match s.armed k i with
    | none => false
    | some j => decide (pa / 4 ≤ j.phys / 4 ∧ j.phys / 4 ≤ (pa + len - 1) / 4)
  if inj then (s.fireInjected k i 0, some ⟨stHw, 0, 0xFFFF, detId k i⟩)
  else if s.mem.badWords.any (fun w => pa / 4 ≤ w && w ≤ (pa + len - 1) / 4) then
    (s.fire k i 0 false, some ⟨stHw, 0, 0xFFFF, detId k i⟩)
  else (s, none)

/-- One piece within a 64-byte block, as address, length, physical address and ECC, read or written: what it meets. -/
def pieceAccess (s : State) (pa len : Nat) (ecc write reads : Bool) : State × Option Err :=
  if pa < lpddrEnd then lpddrBlock s pa ecc (reads || (write && len < 64)) (write && len == 64)
  else if reads then storeWords s pa len
  else ({ s with mem := { s.mem with badWords := s.mem.badWords.filter (fun w => !(pa ≤ 4 * w && 4 * w + 4 ≤ pa + len)) } }, none)

/-! Bytes that an access shares with an operation in progress (R5, R325, R388). -/

/-- The offsets into a list of extents, from an offset on, at which a physical address lies. -/
def extOffs : List Extent → Nat → Nat → List Nat
  | [], _, _ => []
  | e :: es, pa, off => (if e.pa ≤ pa ∧ pa < e.pa + e.len then [off + (pa - e.pa)] else []) ++ extOffs es pa (off + e.len)

/-- The addresses of a context that translate to a physical address. -/
def Ctx.vasOf (c : Ctx) (pa : Nat) : List Nat := c.maps.flatMap (fun m => (extOffs m.exts pa 0).map (m.va + ·))

/-- Whether an operation still has its output watched: a thread's ends at the latest when its tag has been collected (R126). -/
def Watch.open (s : State) (w : Watch) : Bool :=
  match w.owner with
  | .op (.pod t k _ ep) => (s.thread t).epoch == ep && nth (s.thread t).tags .free k != .free
  | .op (.rcp _ _) => true
  | .sample _ _ => true

/-- Whether an operation of a thread has its output watched. -/
def Watch.ofThread (s : State) (t : Nat) (w : Watch) : Bool :=
  match w.owner with
  | .op (.pod k _ _ _) => k == t && w.open s
  | _ => false

/-- The output bytes of a watched operation that a physical address holds. -/
def Watch.bytesAt (s : State) (w : Watch) (pa : Nat) : List Nat :=
  match s.mem.contexts.find w.ctx with
  | none => []
  | some c => (c.vasOf pa).filter (fun va => w.ranges.any (fun r => r.1 ≤ va && va < r.1 + r.2))

/-- Whether an access counts against a watched operation: that of a thread against an EMBG, any requester's write against another. -/
def Watch.minds (s : State) (w : Watch) (thr reads : Bool) : Bool := (if w.gather then thr else !reads) && w.open s

/-- One byte accessed: whether it is shared with an operation in progress, which keeps the byte in mind. -/
def State.share (s : State) (thr reads : Bool) (pa : Nat) : Bool × State :=
  let l := s.mem.watch.map (fun w => (w, if w.minds s thr reads then w.bytesAt s pa else []))
  (l.any (fun x => !x.2.isEmpty), { s with mem := { s.mem with watch := l.map (fun x => { x.1 with spoiled := x.1.spoiled ++ x.2 }) } })

/-- Bytes accessed one by one at a physical address, with what is written there: a shared byte holds a free value after it. Answered: the bytes left there. -/
def State.shareAll (thr reads : Bool) : Nat → List Byte → State → List Byte × State
  | _, [], s => ([], s)
  | pa, b :: t, s =>
    let r := s.share thr reads pa
    let u := if r.1 then { (r.2.draw).2 with mem := (r.2.draw).2.mem.write pa [BitVec.ofNat 8 (r.2.draw).1] }
      else { r.2 with mem := r.2.mem.write pa [b] }
    let q := shareAll thr reads (pa + 1) t u
    (u.mem.byte pa :: q.1, q.2)

/-- Bytes written to physical memory, by a thread or by another requester. -/
def State.store (s : State) (thr : Bool) (pa : Nat) (bs : List Byte) : State :=
  if s.mem.watch.isEmpty then { s with mem := s.mem.write pa bs } else (s.shareAll thr false pa bs).2

/-- Bytes of physical memory as a thread or another requester reads them. -/
def State.view (s : State) (thr : Bool) (pa len : Nat) : List Byte × State :=
  if s.mem.watch.isEmpty then (s.mem.read pa len, s) else s.shareAll thr true pa (s.mem.read pa len)

/-! Reads and writes by a requester in a context. -/

/-- The translation of a range piece by piece; a refusal is counted in the context (R213). -/
def translate (ctx va len : Nat) (n : Need) (old : Bool := false) : Io (List (Nat × Nat × Bool)) := fun s =>
  match (blocks64 va len).mapM (fun p => (atu s ctx p.1 n old).map (fun q => (q.1, p.2, q.2))) with
  | .ok l => (.ok l, s)
  | .error e => (.error ⟨e, n.detail, 0xFFFF, 0⟩, s.countRefused ctx e)

/-- The pieces touched in order until one fails: the failure is counted in HW_FAULTS of the context (R532). -/
def touchAll (ctx : Nat) (n : Need) (write reads : Bool) : List (Nat × Nat × Bool) → Io Unit
  | [] => pure ()
  | (pa, len, ecc) :: t => fun s =>
    match pieceAccess s pa len ecc write reads with
    | (s', none) => touchAll ctx n write reads t s'
    | (s', some e) => (.error { e with detail := n.detail }, s'.countRefused ctx e.status)

/-- The bytes of translated pieces. -/
def readPieces (m : Mem) (ps : List (Nat × Nat × Bool)) : List Byte := ps.flatMap (fun p => m.read p.1 p.2.1)

/-- The bytes of translated pieces as a requester reads them. -/
def viewPieces (thr : Bool) : List (Nat × Nat × Bool) → State → List Byte × State
  | [], s => ([], s)
  | (pa, len, _) :: t, s =>
    let r := s.view thr pa len
    let q := viewPieces thr t r.2
    (r.1 ++ q.1, q.2)

/-- Bytes written over translated pieces. -/
def storePieces (thr : Bool) : List (Nat × Nat × Bool) → List Byte → State → State
  | [], _, s => s
  | (pa, len, _) :: t, bs, s => storePieces thr t (bs.drop len) (s.store thr pa (bs.take len))

/-- A read of len bytes at va in a context, with the permission n: refused by the ATU, failed by memory, or the bytes. -/
def memReadN (n : Need) (ctx va len : Nat) (old : Bool := false) : Io (List Byte) := do
  let ps ← translate ctx va len n old
  touchAll ctx n false true ps
  fun s => (.ok (readPieces s.mem ps), s)

/-- A unit's or Pod's read (R211). -/
def memRead (ctx va len : Nat) (old : Bool := false) : Io (List Byte) := memReadN .r ctx va len old

/-- A write of bytes at va in a context; a piece that fails leaves its block unchanged and later pieces unwritten. old marks a thread's access. -/
def memWrite (ctx va : Nat) (bs : List Byte) (old : Bool := false) : Io Unit := do
  let ps ← translate ctx va bs.length .w old
  let rec go : List (Nat × Nat × Bool) → List Byte → Io Unit
    | [], _ => pure ()
    | p :: t, b => do
      touchAll ctx .w true false [p]
      fun s => (.ok (), storePieces old [p] b s)
      go t (b.drop p.2.1)
  go ps bs

/-- A read-modify-write of len bytes at va (R117, R211): what f makes of the old bytes replaces them, and the old bytes are
answered. -/
def memModify (ctx va len : Nat) (f : List Byte → List Byte) (old : Bool := false) : Io (List Byte) := do
  let ps ← translate ctx va len .rw old
  touchAll ctx .r true true ps
  fun s =>
    let r := viewPieces old ps s
    (.ok r.1, storePieces old ps (f r.1) r.2)

/-- A write whose refusal or failure is dropped once counted: a record (R126), a ring entry (R133, R178). -/
def State.writeDropped (s : State) (ctx va : Nat) (bs : List Byte) : State := (Io.exec (memWrite ctx va bs) s).2

/-! The free pool (R202, R206). -/

/-- A granule as an extent. -/
def granuleExt (g : Nat) : Extent := ⟨4096, 4096 * g⟩

/-- The in-use extents of LPDDR5X: every mapping of every context, check granules and the reservation included. -/
def State.usedExtents (s : State) : List Extent :=
  s.mem.reserved ++ s.mem.contexts.vals.flatMap (fun c => c.maps.flatMap Mapping.exts) ++ s.mem.checks.keys.map granuleExt

/-- The bytes that a list of extents covers, each once. -/
def unionBytes (es : List Extent) : Nat :=
  ((sortBy (fun a b : Extent => decide (a.pa ≤ b.pa)) es).foldl (fun (a : Nat × Nat) e =>
    (a.1 + (e.pa + e.len - max e.pa a.2), max a.2 (e.pa + e.len))) (0, 0)).1

/-- The in-use extent that covers a physical address. -/
def coveredBy (es : List Extent) (pa : Nat) : Option Extent := es.find? (fun e => e.pa ≤ pa && pa < e.pa + e.len)

/-- An extent added at the end of a list, joined to the last where they touch. -/
def addExtent (es : List Extent) (e : Extent) : List Extent :=
  match es.reverse with
  | [] => [e]
  | l :: t => if l.pa + l.len = e.pa then (⟨l.len + e.len, l.pa⟩ :: t).reverse else es ++ [e]

/-- need pages of a size, found from pa upward, lowest first (log entry 5): each wholly free, aligned, and on channels that ok
admits. -/
def findPages (used : List Extent) (ok : Nat → Bool) (size top : Nat) : Nat → Nat → Nat → List Extent → Option (List Extent)
  | 0, _, _, _ => none
  | n + 1, pa, need, acc =>
    if need = 0 then some acc
    else if pa + size > top then none
    else match used.find? (fun e => e.pa < pa + size && pa < e.pa + e.len) with
      | some e => findPages used ok size top n (max (pa + size) (alignUp (e.pa + e.len) size)) need acc
      | none =>
        if ok pa then findPages used ok size top n (pa + size) (need - 1) (addExtent acc ⟨size, pa⟩)
        else findPages used ok size top n (pa + size) need acc

/-- The end of the LPDDR5X present (R200). -/
def State.lpddrTop (s : State) : Nat := if s.mem.density = 32 then 2 ^ 40 else 2 ^ 41

/-- Whether every granule of a page may be allocated: its channels ACTIVE, and of one controller where PLACE names it (R205, R221). -/
def State.pageOk (s : State) (place size pa : Nat) : Bool :=
  if size = 4096 then
    (s.channel (channelOf pa)).state == .active && (place == 0xFF || ctrlOf pa == place)
  else (List.range 128).all (fun c => (s.channel c).state == .active)

/-- count pages of a size allocated, or none where the pool cannot give them. -/
def State.allocPages (s : State) (place size count : Nat) (extra : List Extent) : Option (List Extent) :=
  findPages (extra ++ s.usedExtents) (s.pageOk place size) size s.lpddrTop (s.lpddrTop / 4096 + 1) 0 count []

/-- The bytes of a list of extents. -/
def extBytes (es : List Extent) : Nat := (es.map Extent.len).sum

/-- The bytes that n bytes of mapped memory take: an ECC region takes a thirty-second part more (R214). -/
def eccBytes (ecc : Bool) (n : Nat) : Nat := if ecc then n + n / 32 else n

/-- The memory charged to a context: what its mappings hold, each byte once, with the check words of its ECC regions, and what firmware holds for it
(R202, R206, R214). Memory that only an alias still holds stays charged (DESIGN CHOICE, log entry 69). -/
def Ctx.used (c : Ctx) : Nat :=
  c.other + unionBytes (c.maps.flatMap Mapping.exts) + unionBytes ((c.maps.filter Mapping.ecc).flatMap Mapping.exts) / 32

/-- The LPDDR5X in use outside the reservation, whichever context holds it: 128 bytes of check words for each data granule of an ECC region. -/
def State.memUsed (s : State) : Nat :=
  (s.mem.contexts.vals.map Ctx.other).sum +
    unionBytes ((s.mem.contexts.vals.flatMap (fun c => c.maps.flatMap Mapping.exts)).filter (fun e => decide (e.pa < lpddrEnd))) +
    128 * (s.mem.checks.vals.map List.length).sum

/-- The memory available to contexts (R202). -/
def State.memAvailable (s : State) : Nat := s.mem.memGib * 2 ^ 30 - 32 * 2 ^ 30

/-- Whether n more bytes fit a context's quota (R203). -/
def State.quotaOk (s : State) (ctx n : Nat) : Bool :=
  match s.mem.contexts.find ctx with
  | none => false
  | some c => c.quota == 0 || c.used + n ≤ c.quota

/-- Whether n more bytes fit a context's quota and the available memory (R202, R203). -/
def State.fits (s : State) (ctx n : Nat) : Bool := s.quotaOk ctx n && s.memUsed + n ≤ s.memAvailable

/-- Memory that firmware takes for a context outside any mapping, charged or returned (R202). -/
def State.charge (s : State) (ctx n : Nat) : State := s.modCtx ctx (fun c => { c with other := c.other + n })
def State.uncharge (s : State) (ctx n : Nat) : State := s.modCtx ctx (fun c => { c with other := c.other - n })

/-- The mappings of every context but one mapping. -/
def State.otherMaps (s : State) (ctx va : Nat) : List Mapping :=
  s.mem.contexts.flatMap (fun e => e.2.maps.filter (fun m => !(e.1 == ctx && m.va == va)))

/-- Check words without those of data granules that are gone; a check granule left without any is free (R214). -/
def Mem.dropChecks (m : Mem) (gone : Nat → Bool) : Tbl (List Nat) :=
  (m.checks.mapV (fun l => l.filter (fun g => !gone g))).keep (fun _ l => !l.isEmpty)

/-- A mapping removed: memory that no mapping holds any more returns to the free pool (R206), its check granules, its lost granules
and its moved granules with it (R214, R222, R227). -/
def State.dropMap (s : State) (ctx va : Nat) : State :=
  match s.mem.contexts.find ctx with
  | none => s
  | some c =>
    let s1 := s.modCtx ctx (fun c => { c with maps := c.maps.filter (fun m => m.va != va) })
    match c.maps.find? (fun m => m.va == va) with
    | none => s1
    | some m =>
      let still := (s1.otherMaps ctx va).flatMap Mapping.exts
      let gone := fun g : Nat => (coveredBy m.exts (g * 4096)).isSome && (coveredBy still (g * 4096)).isNone
      let checks := s1.mem.dropChecks gone
      { s1 with mem := { s1.mem with
        checks := checks
        lost := s1.mem.lost.keep (fun g _ => !gone g && !((s1.mem.checks.find g).isSome && (checks.find g).isNone))
        channels := s1.mem.channels.mapV (fun c => { c with moved := c.moved.filter (fun p => !gone p.now) }) } }

/-- A mapping added in address order. -/
def Ctx.addMap (c : Ctx) (m : Mapping) : Ctx := { c with maps := insertBy (fun a b => a.va ≤ b.va) m c.maps }

/-- Whether a range of addresses overlaps a mapping of a context (R207). -/
def Ctx.overlaps (c : Ctx) (va len : Nat) : Bool := c.maps.any (fun m => m.va < va + len && va < m.va + m.len)

/-- The lowest address from base upward, in steps of a size, at which a range overlaps no mapping. -/
def Ctx.freeVa (c : Ctx) (size len : Nat) : Nat → Nat → Nat
  | 0, va => va
  | n + 1, va =>
    match c.maps.find? (fun m => m.va < va + len && va < m.va + m.len) with
    | none => va
    | some m => c.freeVa size len n (alignUp (m.va + m.len) size)

/-- An address the device chooses for len bytes in a context (R135, R314): a free value, and past it the next that overlaps nothing. -/
def State.chooseVa (s : State) (ctx len : Nat) : Nat × State :=
  let v := (s.draw).1 % (2 ^ 47 / 4096) * 4096 + 2 ^ 30
  match s.mem.contexts.find ctx with
  | none => (v, (s.draw).2)
  | some c =>
    let a := c.freeVa 4096 len (c.maps.length + 1) v
    (if a + len ≤ 2 ^ 48 then a else c.freeVa 4096 len (c.maps.length + 1) 4096, (s.draw).2)

end Sys2Proof.Machine
end

