-- ==== Sys2Proof/Machine/Flow.lean ====
section
/-!
DEFINITION. The Dispatcher's operations: naming flows (R163), items entering (R166, R171, R179), handing out (R172, R173), release
(R175 to R178) and graph queues (R186).
-/
namespace Sys2Proof.Machine
open Sys2Proof

/-! Naming (R163). -/

def fidIndex (fid : Nat) : Nat := bits fid 15 0
def fidGen (fid : Nat) : Nat := bits fid 27 16
def fidKind (fid : Nat) : Nat := bits fid 31 28

/-- Whether a FLOW_ID has a reserved KIND (R163). -/
def flowReserved (fid : Nat) : Bool := fid != 0xFFFF_FFFF && fidKind fid > 1

/-- The FLOW_ID of an index and generation. -/
def mkFid (gen idx : Nat) : Nat := gen * 0x1_0000 + idx

/-- A graph queue's flow when nothing has used it: unordered, of context 0 (R182). -/
def graphFlowInit (q : Nat) : Flow where
  gen := 0
  ctx := 0
  ordered := false
  cls := 0
  complKind := 0
  complFlow := 0
  slice := q
  capacity := 1048577
  starveUs := 0
  promoted := false
  ringAddr := 0
  ringEntries := 0
  consAddr := 0
  ringCount := 0
  cons := 0
  nextSeq := 0
  oldest := 0
  ready := []
  out := []
  waiters := []
  stalled := false
  maxDepth := 0
  entered := 0
  released := 0
  complDropped := 0
  hwDiscards := 0
  windowStalls := 0
  fullEvents := 0
  hist := List.replicate 16 0

/-- The flow a FLOW_ID names: a live flow of that generation, or a graph queue 0 to 15 (R163). -/
def State.flow (s : State) (fid : Nat) : Option Flow :=
  if fidKind fid = 0 then
    match s.disp.flows.find (fidIndex fid) with
    | none => none
    | some f => if f.gen = fidGen fid then some f else none
  else if fidKind fid = 1 ∧ fidGen fid = 0 ∧ fidIndex fid < 16 then
    some ((s.disp.graphFlows.find (fidIndex fid)).getD (graphFlowInit (fidIndex fid)))
  else none

/-- The state with a named flow replaced. -/
def State.putFlow (s : State) (fid : Nat) (f : Flow) : State :=
  if fidKind fid = 0 then { s with disp := { s.disp with flows := s.disp.flows.put (fidIndex fid) f } }
  else { s with disp := { s.disp with graphFlows := s.disp.graphFlows.put (fidIndex fid) f } }

/-- The state with a named flow changed, where it exists. -/
def State.modFlow (s : State) (fid : Nat) (g : Flow → Flow) : State :=
  match s.flow fid with
  | none => s
  | some f => s.putFlow fid (g f)

/-! Entering (R166, R171, R179). -/

/-- What a flow does with an item offered to it. -/
inductive Offer where
  | entered
  | full
  | gone
  deriving DecidableEq, Repr

/-- Whether a flow is full (R179). -/
def Flow.full (f : Flow) : Bool := f.ready.length ≥ f.capacity

/-- The head item that may be handed out now: within the window of an ordered flow (R175). -/
def Flow.head (f : Flow) : Option Item :=
  match f.ready with
  | [] => none
  | i :: _ => if f.ordered && i.seq ≥ f.oldest + 4096 then none else some i

/-- Counts a stop of handout with the window full, once per stop (R188). -/
def Flow.settle (f : Flow) : Flow :=
  let stop := !f.ready.isEmpty && f.head.isNone
  if stop && !f.stalled then { f with stalled := true, windowStalls := f.windowStalls + 1 }
  else { f with stalled := stop }

/-- An item placed at the tail of a flow. -/
def Flow.push (f : Flow) (i : Item) : Flow :=
  let r := f.ready ++ [i]
  Flow.settle { f with
    ready := r
    nextSeq := f.nextSeq + 1
    entered := f.entered + 1
    maxDepth := max f.maxDepth r.length
    fullEvents := if r.length = f.capacity then f.fullEvents + 1 else f.fullEvents }

/-- An item offered by FLOW_ID (R166, R170, R171, R179): a flow that is gone takes nothing, a context being destroyed discards it at
once, a full flow holds its producer. -/
def State.offer (s : State) (fid : Nat) (body : List Byte) (srcKind srcId status fpflags cflags : Nat) : Offer × State :=
  match s.flow fid with
  | none => (.gone, s)
  | some f =>
    if ((s.mem.contexts.find f.ctx).map Ctx.destroying).getD false then (.entered, s)
    else if f.full then (.full, s)
    else (.entered, s.putFlow fid (f.push
      ⟨padTo 40 body, srcKind, srcId, fid, f.nextSeq, status, fpflags, cflags, 0, s.ctl.now⟩))

/-! The descriptor (R165). -/

/-- The 64 bytes of a work item. -/
def Item.bytes (i : Item) : List Byte :=
  padTo 40 i.body ++ leb 2 i.srcKind ++ leb 2 i.srcId ++ leb 4 i.flow ++ leb 8 i.seq ++ leb 2 i.status ++ leb 1 i.fpflags
    ++ leb 1 i.cflags ++ leb 4 i.waited

/-- The producer's USER_ID of an item (R165). -/
def Item.userId (i : Item) : Nat := fld i.body 0x20 8

/-! Release (R175 to R178). -/

/-- A completion record (R177). -/
def complRecord (f : Flow) (h : Held) : List Byte :=
  leb 8 h.item.seq ++ leb 8 (if h.hw then 0 else h.item.userId) ++ leb 2 h.item.status ++ leb 1 h.item.fpflags
    ++ leb 1 (b2n ((f.ringCount / f.ringEntries) % 2 == 0) + 2 * b2n (bit h.item.cflags 1))
    ++ leb 2 h.thread ++ zeros 2 ++ leb 4 (min h.service 0xFFFF_FFFF) ++ zeros 4

/-- The consumer index of a flow read again: none where it cannot be read (R178). -/
def readCons (s : State) (f : Flow) : Option Nat × State :=
  match Io.exec (memRead f.ctx f.consAddr 4) s with
  | (.ok b, s') => (some (le b), s')
  | (.error _, s') => (none, s')

/-- One completion released to its destination (R176, R178), or none where it has to wait; the place of an item discarded before handout is not
counted again (R188). -/
def releaseOne (s : State) (fid : Nat) (f : Flow) (h : Held) : Option State :=
  let n := f.released + if h.early then 0 else 1
  if f.complKind = 0 then some (s.putFlow fid { f with released := n })
  else if f.complKind = 1 then
    let (c, s1) := readCons s f
    let (room, f1) := match c with
      | none => (true, { f with complDropped := sat32 f.complDropped 1 })
      | some c => (decide ((f.ringCount + 2 ^ 32 - c) % 2 ^ 32 ≠ f.ringEntries), { f with cons := c })
    if room then
      let (r, s2) := Io.exec (memWrite f.ctx (f.ringAddr + (f.ringCount % f.ringEntries) * 32) (complRecord f h)) s1
      let f2 := match r with
        | .ok _ => f1
        | .error _ => { f1 with complDropped := sat32 f1.complDropped 1 }
      some (s2.putFlow fid { f2 with ringCount := f2.ringCount + 1, released := n })
    else none
  else
    match s.offer f.complFlow (if h.hw then zeros 40 else h.item.body) 6 (fidIndex fid) h.item.status h.item.fpflags
        (setBit h.item.cflags 0) with
    | (.full, _) => none
    | (_, s1) => some (s1.putFlow fid { f with released := n })

/-- The completion a flow would release next: of an ordered flow the one of SEQ O, of an unordered one the first retired (R175). -/
def Flow.nextRelease (f : Flow) : Option Held :=
  if f.ordered then f.out.find? (fun h => h.item.seq == f.oldest && h.retired)
  else f.out.find? (·.retired)

/-- A flow without a held item that was released; the window of an ordered flow moves past it. -/
def Flow.dropOut (f : Flow) (seq : Nat) : Flow :=
  Flow.settle { f with
    out := f.out.filter (fun h => h.item.seq != seq)
    oldest := if f.ordered then seq + 1 else f.oldest }

/-- Releases as many completions of a flow as may be, at most n (R175, R176). -/
def releaseLoop (fid : Nat) : Nat → State → State
  | 0, s => s
  | n + 1, s =>
    match s.flow fid with
    | none => s
    | some f => match f.nextRelease with
      | none => s
      | some h => match releaseOne s fid f h with
        | none => s
        | some s1 => releaseLoop fid n (s1.modFlow fid (fun f => f.dropOut h.item.seq))

/-- A flow releases what it can. -/
def State.release (s : State) (fid : Nat) : State :=
  match s.flow fid with
  | none => s
  | some f => releaseLoop fid (f.out.length + 1) s

/-! Graph queues (R186, R187). -/

/-- A running graph's node, where it exists. -/
def Graph.node (g : Graph) (i : Nat) : Node := nth g.nodes ⟨[], 0, [], .skipped⟩ i

/-- Successors of nodes that failed or were skipped can no longer become ready (R186): one round. -/
def Graph.skipRound (g : Graph) : Graph :=
  let dead := g.nodes.filter (fun n => n.state == .failed || n.state == .skipped)
  let hit := dead.flatMap Node.succ
  { g with nodes := g.nodes.mapIdx (fun i n =>
      if n.state == .waiting && hit.contains i then { n with state := .skipped } else n) }

/-- Every node that can no longer become ready is skipped under ABORT_ON_FAIL (R186). -/
def Graph.skipDead (g : Graph) : Graph := if g.abort then times g.nodes.length Graph.skipRound g else g

/-- Whether a graph has ended: every node retired or skipped. -/
def Graph.ended (g : Graph) : Bool :=
  g.nodes.all (fun n => n.state == .done || n.state == .failed || n.state == .skipped)

/-- The 32-byte completion payload of GRAPH_SUBMIT (R184). -/
def Graph.payload (g : Graph) : List Byte :=
  let n := fun st => (g.nodes.filter (fun n => n.state == st)).length
  leb 4 (n .done) ++ leb 4 (n .failed) ++ leb 4 (n .skipped) ++ leb 4 (g.firstFailed.getD 0xFFFF_FFFF)
    ++ leb 2 g.firstStatus ++ zeros 14

/-- The state with a graph queue's graph replaced. -/
def State.putGraph (s : State) (q : Nat) (g : Graph) : State :=
  { s with disp := { s.disp with graphs := s.disp.graphs.put q g } }

/-- A node becomes ready and enters its queue, SEQ its index (R186). -/
def graphReady (q i : Nat) (s : State) : State :=
  match s.disp.graphs.find q with
  | none => s
  | some g =>
    let fid := 0x1000_0000 + q
    let s1 := s.putGraph q { g with nodes := modNth g.nodes i (fun n => { n with state := .ready }) }
    s1.modFlow fid (fun f => f.push ⟨padTo 40 (g.node i).payload, 7, q, fid, i, 0, 0, 0, 0, s.ctl.now⟩)

/-- One successor's counter is decremented; at zero it becomes ready (R186). -/
def graphDecr (q : Nat) (s : State) (i : Nat) : State :=
  match s.disp.graphs.find q with
  | none => s
  | some g =>
    let n := g.node i
    let s1 := s.putGraph q { g with nodes := modNth g.nodes i (fun n => { n with deps := n.deps - 1 }) }
    if n.deps = 1 ∧ n.state = .waiting ∧ !g.cancelled then graphReady q i s1 else s1

/-- A graph that has ended: its submission completes, then a cancel of it (R184, R187). -/
def graphEnd (q : Nat) (s : State) : State :=
  match s.disp.graphs.find q with
  | none => s
  | some g =>
    if g.ended then
      let s1 := { s with disp := { s.disp with graphs := s.disp.graphs.del q } }
      (s1.finishAll (.graph q) stOk g.payload).finishAll (.graphCancel q) stOk []
    else s

/-- A node is retired with a status (R186). -/
def graphRetire (q i status : Nat) (s : State) : State :=
  match s.disp.graphs.find q with
  | none => s
  | some g =>
    let ok := status == stOk
    let first := match g.firstFailed with
      | none => true
      | some j => decide (i < j)
    let g1 : Graph := { g with
      nodes := modNth g.nodes i (fun n => { n with state := if ok then .done else .failed })
      firstFailed := if !ok && first then some i else g.firstFailed
      firstStatus := if !ok && first then status else g.firstStatus }
    let s1 := s.putGraph q g1.skipDead
    let s2 := if ok || !g.abort then (g.node i).succ.foldl (graphDecr q) s1 else s1
    graphEnd q s2

/-! Retirement (R125, R175). -/

/-- The threads of a Pod that hold an item. -/
def State.holders (s : State) (p : Nat) : Nat := (List.range 16).countP (fun k => (s.thread (16 * p + k)).item.isSome)

/-- Where the window of a Pod's observation began (R190). -/
def State.winStart (s : State) (p : Nat) : Nat := max (s.pod p).winFrom s.ctl.fabricAt

/-- A thread's item taken away; the time in which its Pod held one is counted when the last goes (R190). -/
def State.dropHeld (s : State) (t : Nat) : State :=
  let s1 := s.modThread t (fun th => { th with item := none })
  if s1.holders (t / 16) = 0 then
    s1.modPod (t / 16) (fun x => { x with busyTime := x.busyTime + (s.ctl.now - max x.busyFrom (s.winStart (t / 16))) })
  else s1

/-- An item given to a thread (R190). -/
def State.giveItem (s : State) (t : Nat) (i : Item) : State :=
  let s1 := if s.holders (t / 16) = 0 then s.modPod (t / 16) (fun x => { x with busyFrom := s.ctl.now }) else s
  s1.modThread t (fun th => { th with item := some i })

/-- Whether an item handed out is the one a thread holds: of a graph queue by its source as well, since an item posted to it has no node. -/
def Held.isOf (h : Held) (i : Item) : Bool := h.item.seq == i.seq && h.item.srcKind == i.srcKind && !h.retired

/-- The item a thread holds is retired with a status, FPFLAGS and whether a fault did it: the completion goes to its flow or
its graph, which releases what it can. An item that descriptor parity has meanwhile discarded has its completion already (R193). -/
def State.retire (s : State) (t : Nat) (status : Nat) (faulted : Bool) : State :=
  let th := s.thread t
  match th.item with
  | none => s
  | some i =>
    let s1 := s.dropHeld t
    let mine := ((s.flow i.flow).map (fun f => f.out.any (·.isOf i))).getD false
    if !mine then s1
    else if fidKind i.flow = 1 then
      let s2 := s1.modFlow i.flow (fun f => { f with out := f.out.filter (fun h => !h.isOf i), released := f.released + 1 })
      if i.srcKind = 7 then graphRetire (fidIndex i.flow) i.seq status s2 else s2
    else
      (s1.modFlow i.flow (fun f => { f with out := f.out.map (fun h =>
        if h.isOf i then
          { h with
            retired := true
            service := s.ctl.now - h.handed
            item := { h.item with status := status, fpflags := th.fp.toNat, cflags := 2 * b2n faulted } }
        else h) })).release i.flow

/-! Descriptor parity (R193, R525). -/

/-- The completion that takes the place of an item whose descriptor is lost: E_HW, with its SEQ and nothing else of it (R193). -/
def Held.ofLost (i : Item) (thread now : Nat) (early : Bool) : Held :=
  ⟨{ i with status := stHw, fpflags := 0, cflags := 0 }, thread, now, true, 0, true, early⟩

/-- The k-th stored descriptor of a flow, those not handed out first, is discarded: in an ordered flow a completion takes the item's place; a graph node
has failed; of an unordered flow nothing is released, and an item handed out counts as released (DESIGN CHOICE, log entry 62). -/
def State.discardItem (s : State) (fid k : Nat) : State :=
  match s.flow fid with
  | none => s
  | some f =>
    let f1 := { f with hwDiscards := sat32 f.hwDiscards 1 }
    let put := fun (h : Held) (out : List Held) => insertBy (fun a b => a.item.seq ≤ b.item.seq) h out
    match f.ready[k]? with
    | some i =>
      let f2 := { f1 with ready := f.ready.eraseIdx k }
      if fidKind fid = 1 then
        if i.srcKind = 7 then graphRetire (fidIndex fid) i.seq stHw (s.putFlow fid f2) else s.putFlow fid f2.settle
      else if f.ordered then (s.putFlow fid { f2 with out := put (.ofLost i 0 s.ctl.now true) f.out }).release fid
      else s.putFlow fid f2.settle
    | none => match f.out[k - f.ready.length]? with
      | none => s
      | some h =>
        let f2 := { f1 with out := f.out.eraseIdx (k - f.ready.length) }
        if f.ordered then (s.putFlow fid { f2 with out := put (.ofLost h.item h.thread h.handed h.early) f2.out }).release fid
        else
          let s1 := s.putFlow fid { f2 with released := f2.released + 1 }
          if fidKind fid = 1 ∧ h.item.srcKind = 7 then graphRetire (fidIndex fid) h.item.seq stHw s1 else s1

/-- The k-th stored descriptor of a flow has a parity error: its slice's detector fires and it is discarded. -/
def State.dropItem (s : State) (fid k : Nat) (inj : Bool) : State :=
  match s.flow fid with
  | none => s
  | some f =>
    let u := unitSlice f.slice
    if f.ready.length + f.out.length ≤ k then s
    else (if inj then s.fireInjected 7 u 0 else s.fire 7 u 0 false).discardItem fid k

/-- Whether the next descriptor that a flow's slice reads is to have a parity error. -/
def State.parityArmed (s : State) (fid : Nat) : Bool :=
  match s.flow fid with
  | none => false
  | some f => !f.ready.isEmpty && (s.armed 7 (unitSlice f.slice)).isSome

/-! Handing out (R172). -/

/-- The effective class of a flow (R173). -/
def Flow.effClass (f : Flow) : Nat := if f.promoted then 0 else f.cls

/-- The histogram bucket of a wait (R189). -/
def waitBucket (w : Nat) : Nat := if w = 0 then 0 else min 15 (Nat.log2 w + 1)

/-- The flow slots of a thread's image. -/
def State.flowSlots (s : State) (t : Nat) : List Nat :=
  match (s.thread t).image with
  | none => []
  | some h => ((s.pods.images.find h).map Image.slots).getD []

/-- A thread's registrations in every waiter list are cancelled (R172). -/
def State.unwait (s : State) (t : Nat) : State :=
  let drop := fun f : Flow => { f with waiters := f.waiters.filter (· != t) }
  { s with disp := { s.disp with flows := s.disp.flows.mapV drop, graphFlows := s.disp.graphFlows.mapV drop } }

/-- The vector that ASK writes: the descriptor in elements 0 to 15, the slot in element 16, zero above (R124). -/
def itemVector (i : Item) (slot : Nat) : List Word :=
  (List.range 16).map (fun k => BitVec.ofNat 32 (fld i.bytes (4 * k) 4)) ++ [BitVec.ofNat 32 slot] ++ List.replicate 47 0

/-- The head item of a flow handed to a thread that asked with destination V[d], as flow slot k: the thread runs on with it (R171,
R172, R158). -/
def State.handOut (s : State) (t fid k d : Nat) : State :=
  match s.flow fid with
  | none => s
  | some f => match f.head with
    | none => s
    | some i0 =>
      let w := min (s.ctl.now - i0.entered) 0xFFFF_FFFF
      let i := { i0 with waited := w }
      let f1 : Flow := Flow.settle { f with
        ready := f.ready.drop 1
        out := insertBy (fun a b => a.item.seq ≤ b.item.seq) ⟨i, t, s.ctl.now, false, 0, false, false⟩ f.out
        promoted := false
        hist := modNth f.hist (waitBucket w) (· + 1) }
      let s1 := (s.putFlow fid f1).unwait t
      let s2 := { s1 with disp := { s1.disp with
        lastServed := s1.disp.lastServed.put f.slice (fidIndex fid)
        handovers := s1.disp.handovers.put f.slice (s1.disp.handovers.at 0 f.slice + 1)
        graphs := if fidKind fid = 1 ∧ i.srcKind = 7 then
            match s1.disp.graphs.find (fidIndex fid) with
            | none => s1.disp.graphs
            | some g => s1.disp.graphs.put (fidIndex fid) { g with nodes := modNth g.nodes i.seq (fun n => { n with state := .held }) }
          else s1.disp.graphs } }
      (s2.giveItem t i).modThread t (fun th => { th with
        st := .running
        fp := 0
        handed := s.ctl.now
        lastSlot := k
        v := th.v.set d (itemVector i k) })

end Sys2Proof.Machine
end

