-- ==== Sys2Proof/Machine/Thread.lean ====
section
/-!
DEFINITION. Threads: registers (R89), starting at the entry point (R134), outstanding stores (R116, R118), tags and the end of unit
operations (R126), faults (R131 to R133).
-/
namespace Sys2Proof.Machine
open Sys2Proof

/-! Registers (R89). -/

/-- S[i]: S0 reads zero. -/
def Thread.rs (th : Thread) (i : Nat) : Word64 := if i = 0 then 0 else nth th.s 0 i

/-- S[i] written: writes to S0 are discarded. -/
def Thread.ws (th : Thread) (i : Nat) (v : Word64) : Thread := if i = 0 then th else { th with s := th.s.set i v }

/-- M[i]: M0 reads all ones. -/
def Thread.rm (th : Thread) (i : Nat) : Word64 := if i = 0 then BitVec.allOnes 64 else nth th.m 0 i

/-- M[i] written: writes to M0 are discarded. -/
def Thread.wm (th : Thread) (i : Nat) (v : Word64) : Thread := if i = 0 then th else { th with m := th.m.set i v }

/-- V[i]. -/
def Thread.rv (th : Thread) (i : Nat) : List Word := nth th.v (List.replicate 64 0) i

/-- V[i] written. -/
def Thread.wv (th : Thread) (i : Nat) (v : List Word) : Thread := { th with v := th.v.set i v }

/-! Registers by code: S i is i, V i is 32 + i, M i is 64 + i. -/

def rS (i : Nat) : Nat := i
def rV (i : Nat) : Nat := 32 + i
def rM (i : Nat) : Nat := 64 + i

/-- The slot with a destination that a later instruction has overwritten taken away: S0, or no vector register. -/
def SlotOp.kill (o : SlotOp) (r : Nat) : SlotOp :=
  let s := fun d => if rS d = r then 0 else d
  let v := fun d => if rV d = r then 16 else d
  match o with
  | .scalar d n a => .scalar (s d) n a
  | .vector d es => .vector (v d) es
  | .atomic f d n a x c => .atomic f (s d) n a x c
  | .vatomic fl es => .vatomic fl es
  | .hashs f d a n k l g => .hashs f (s d) a n k l g
  | .gaz k d e x c y => if k = 1 then .gaz k (v d) e x c y else .gaz k (s d) (s e) x c y
  | .join d e l => .join (v d) (v e) l

/-- Earlier outstanding slots no longer write registers that a later instruction has written (R94). -/
def Thread.overwrite (th : Thread) (rs : List Nat) (before : Nat) : Thread :=
  { th with slots := th.slots.map (Option.map (fun x =>
      if x.order < before then { x with op := rs.foldl SlotOp.kill x.op } else x)) }

/-- Element e of a vector. -/
def elem (v : List Word) (e : Nat) : Word := nth v 0 e

/-- Whether an element is active under M[i] (R98). -/
def Thread.on (th : Thread) (i e : Nat) : Bool := (th.rm i).getLsbD e

/-- The active elements in index order. -/
def Thread.active (th : Thread) (i : Nat) : List Nat := (List.range 64).filter (th.on i)

/-- The context of a thread's image (R210). -/
def State.ctxOf (s : State) (t : Nat) : Nat :=
  match (s.thread t).image with
  | none => 0
  | some h => ((s.pods.images.find h).map Image.ctx).getD 0

/-- The Pod of a thread (R90). -/
def podOf (t : Nat) : Nat := t / 16

/-! Starting (R134). -/

/-- The registers of a thread that starts at an image's entry point. -/
def startThread (t h : Nat) (img : Image) (th : Thread) : Thread :=
  { Thread.init with
    st := .running
    pc := img.codeVa + img.entry
    s := (((Thread.init.s.set 1 (BitVec.ofNat 64 img.arg)).set 2 (BitVec.ofNat 64 t)).set 3 (BitVec.ofNat 64 img.ctx)).set 4
      (BitVec.ofNat 64 img.dataVa)
    image := some h
    epoch := th.epoch + 1
    lastSlot := th.lastSlot
    nextOrder := th.nextOrder
    waitChange := th.waitChange }

/-- A thread starts at the entry point of an image it is bound to. -/
def State.start (s : State) (t h : Nat) : State :=
  match s.pods.images.find h with
  | none => s
  | some img => s.modThread t (startThread t h img)

/-- A thread becomes UNBOUND. -/
def State.unbind (s : State) (t : Nat) : State :=
  s.modThread t (fun th => { Thread.init with epoch := th.epoch + 1, waitChange := th.waitChange })

/-! What an access meets in memory (R215 to R218). -/

/-- A natural event on an access of a thread or unit, at an address, before the access is made: an error found in the block or word it names,
or on the channel's link. It answers the error that fails the access at once. -/
def State.meet (s : State) (ctx va : Nat) (ev : MemEvent) : Option Err × State :=
  match atu s ctx va .r true with
  | .error _ => (none, s)
  | .ok (pa, ecc) =>
    let ch := channelOf pa
    let low := decide (pa < lpddrEnd)
    match ev with
    | .clean => (none, s)
    | .corrected =>
      if low && ecc && (s.mem.badBlocks.find (pa / 64)).isNone then
        (none, { s with mem := { s.mem with badBlocks := s.mem.badBlocks.put (pa / 64) false } })
      else (none, s)
    | .uncorrectable =>
      if low && ecc then (none, { s with mem := { s.mem with badBlocks := s.mem.badBlocks.put (pa / 64) true } })
      else if low then
        (none, { (s.drawBytes 4).2 with mem := s.mem.write (pa / 4 * 4) (s.drawBytes 4).1 })
      else (none, s)
    | .parity =>
      if low then (none, s) else (none, { s with mem := { s.mem with badWords := pa / 4 :: s.mem.badWords } })
    | .linkCorrected =>
      if low then (none, (s.modChannel ch (fun c => { c with ce := sat32 c.ce 1 })).fire 2 ch 1 false) else (none, s)
    | .linkUncorrected =>
      if low then
        (some ⟨stHw, 0, 0xFFFF, detId 2 ch⟩,
          ((s.modChannel ch (fun c => { c with ue := sat32 c.ue 1 })).fire 2 ch 2 false).countRefused ctx stHw)
      else (none, s)

/-- Reads of a list of addresses and lengths, each within one 64-byte block, one memory request for each distinct block of LPDDR5X (R93,
R115): the bytes of each, or the address that failed. thr: by a thread. -/
def readList (ctx : Nat) (thr : Bool) : List (Nat × Nat) → List Nat → State → Except (Nat × Err) (List (List Byte)) × State
  | [], _, s => (.ok [], s)
  | (va, len) :: t, seen, s =>
    let r := match atu s ctx va .r true with
      | .error e => (Except.error (⟨e, 3, 0xFFFF, 0⟩ : Err), s.countRefused ctx e)
      | .ok (pa, ecc) =>
        if pa < lpddrEnd ∧ seen.contains (pa / 64) then (Except.ok ((s.view thr pa len).1, seen), (s.view thr pa len).2)
        else match pieceAccess s pa len ecc false true with
          | (s', none) => (Except.ok ((s'.view thr pa len).1, pa / 64 :: seen), (s'.view thr pa len).2)
          | (s', some e) => (Except.error { e with detail := 3 }, s'.countRefused ctx e.status)
    match r with
    | (.error e, s') => (.error (va, e), s')
    | (.ok (b, seen'), s') => match readList ctx thr t seen' s' with
      | (.error e, s2) => (.error e, s2)
      | (.ok bs, s2) => (.ok (b :: bs), s2)

/-! Outstanding stores (R116, R118). -/

/-- Pieces that continue one another joined, so that a full block is written as one. -/
def joinPieces : List (Nat × List Byte) → List (Nat × List Byte)
  | [] => []
  | (va, b) :: t => match joinPieces t with
    | [] => [(va, b)]
    | (vb, c) :: u => if va + b.length = vb then (va, b ++ c) :: u else (va, b) :: (vb, c) :: u

/-- Pieces cut at 64-byte blocks. -/
def cutPieces (l : List (Nat × List Byte)) : List (Nat × List Byte) :=
  l.flatMap (fun p => (blocks64 p.1 p.2.length).map (fun q => (q.1, sub p.2 (q.1 - p.1) q.2)))

/-- Writes in order until one fails: the address of the piece that failed and its error. -/
def storeTry (ctx : Nat) : List (Nat × List Byte) → State → Option (Nat × Err) × State
  | [], s => (none, s)
  | (va, b) :: t, s =>
    match Io.exec (memWrite ctx va b true) s with
    | (.ok _, s') => storeTry ctx t s'
    | (.error e, s') => (some (va, e), s')

/-- Bytes of an output unit in progress when its operation failed: undefined where they may be written (R5, R212). -/
def State.scramble (s : State) (ctx va n : Nat) : State :=
  let b := (s.drawBytes n).1
  (blocks64 va n).foldl (fun a p => match atu a ctx p.1 .w true with
    | .error _ => a
    | .ok (pa, _) => { a with mem := a.mem.write pa (sub b (p.1 - va) p.2) }) (s.drawBytes n).2

/-- One element that a thread changes in memory without a check; nothing where its address has no translation. -/
def pokeElem (ctx va len : Nat) (f : List Byte → List Byte) (s : State) : State :=
  match atu s ctx va .w true with
  | .error _ => s
  | .ok (pa, _) => (s.view true pa len).2.store true pa (f (s.view true pa len).1)

/-- The bytes that fail together with an address: its block, or its word on die (R116, R218). -/
def failSpan (s : State) (ctx va : Nat) : Nat :=
  match atu s ctx va .w true with
  | .error _ => 64
  | .ok (pa, _) => if pa < lpddrEnd then 64 else 4

/-- After an error in memory at one address of a vector store or vector atomic: every element outside that address's block or word is done or
not as a free value says, and the others are not (R116). -/
def partialElems (ctx bad : Nat) (els : List (Nat × Nat × (List Byte → List Byte))) (s : State) : State :=
  let g := failSpan s ctx bad
  els.foldl (fun a e =>
    if e.1 / g = bad / g then a
    else if (a.draw).1 % 2 = 1 then pokeElem ctx e.1 e.2.1 e.2.2 (a.draw).2 else (a.draw).2) s

/-- A store reaches memory: the failing address and error where it meets one, with what R116 leaves. -/
def StoreOp.run (st : StoreOp) (ctx : Nat) (s : State) : Option (Nat × Err) × State :=
  match storeTry ctx (cutPieces (joinPieces st.pieces)) s with
  | (none, s') => (none, s')
  | (some (va, e), s') =>
    (some (va, e), partialElems ctx va (st.pieces.map (fun p => (p.1, p.2.length, fun _ => p.2)))
      { s' with mem := { s'.mem with bytes := s.mem.bytes, watch := s.mem.watch } })

/-- Every outstanding store of a thread below a place in program order reaches memory, in program order; the first error in memory is left
to the caller as the store's instruction, the address and the error. -/
def State.drainStores (s : State) (t : Nat) (below : Nat := 2 ^ 64) : Option (Nat × Nat × Err) × State :=
  let ctx := s.ctxOf t
  let r := ((s.thread t).stores.filter (fun st => st.order < below)).foldl
    (fun (a : Option (Nat × Nat × Err) × State) st =>
      match st.run ctx a.2 with
      | (none, s') => (a.1, s')
      | (some (va, e), s') => ((match a.1 with
          | none => some (st.pc, va, e)
          | some x => some x), s')) (none, s)
  (r.1, r.2.modThread t (fun th => { th with stores := th.stores.filter (fun st => !decide (st.order < below)) }))

/-! Blocking (R91). -/

/-- Whether an awaited event lets a blocked thread issue again. -/
def Block.retries (b : Block) : Bool :=
  match b with
  | .post _ _ => false
  | .acc _ _ => false
  | .done _ => false
  | .codec _ => false
  | .embStep _ => false
  | .loadSlot => true
  | .tracker => true
  | .result => true
  | .tagFree => true
  | .tag _ => true
  | .anyTag _ => false
  | .remote => true
  | .sort => true
  | .faulted => false

/-- A thread blocked on an event that has come runs again and issues its instruction anew. -/
def Thread.wake (th : Thread) : Thread :=
  match th.st with
  | .blocked b => if b.retries then { th with st := .running } else th
  | .unbound => th
  | .asking _ _ => th
  | .running => th
  | .quarantined => th

/-- A thread wakes. -/
def State.wake (s : State) (t : Nat) : State := s.modThread t Thread.wake

/-- A thread blocks for a reason; its wait record changes (R541, R543). -/
def State.block (s : State) (t : Nat) (b : Block) : State :=
  s.modThread t (fun th => { th with st := .blocked b, waitChange := th.waitChange + 1 })

/-! Steps 3 to 6 of a fault (R132). -/

/-- Threads of a Pod that wait for a tracker entry look again. -/
def State.wakePod (s : State) (p : Nat) : State :=
  (List.range 16).foldl (fun a k => a.modThread (16 * p + k) (fun th =>
    match th.st with
    | .blocked .tracker => th.wake
    | _ => th)) s

/-- Whether a unit operation of a thread has not ended. -/
def Thread.busyTag (th : Thread) : Bool := th.tags.any (fun k => match k with
  | .busy _ => true
  | _ => false)

/-- A thread left without operations: its tags are discarded, its stores complete, its loads are discarded, its allocation is freed. -/
def State.quiesce (s : State) (t : Nat) : State :=
  (((s.drainStores t).2.unwait t).modThread t (fun th => { th with
    tags := Thread.init.tags, slots := Thread.init.slots, acc := none, cursor := none, lock := none,
    epoch := th.epoch + 1 })).wakePod (podOf t)

/-- A faulted thread whose unit operations have ended restarts at its image's entry point. -/
def State.restart (s : State) (t : Nat) : State :=
  let s1 := s.quiesce t
  match (s1.thread t).image with
  | none => s1
  | some h => s1.start t h

/-- A thread is stopped as by steps 3 to 5 of R132 and becomes QUARANTINED, its image kept. -/
def quarantineThread (t : Nat) (s : State) : State :=
  (s.quiesce t).modThread t (fun th => { th with st := .quarantined })

/-- A stopped thread whose unit operations have ended: in a Pod under a quarantine without DRAIN it becomes QUARANTINED (R504), else it restarts. -/
def State.stopEnd (s : State) (t : Nat) : State :=
  let p := s.pod (podOf t)
  if p.quarantine && !p.draining then quarantineThread t s else s.restart t

/-! Tags and the end of unit operations (R126). -/

/-- How an operation ends or suspends: the fields of its completion record (R81, R126). -/
structure OpEnd where
  handle : Nat := 0
  status : Nat
  kind : Nat
  consumed : Nat := 0
  produced : Nat := 0
  stateAddr : Nat := 0
  detail : Nat := 0
  arg : Nat := 0xFFFF
  detector : Nat := 0

/-- The 64-byte completion record (R81, R126). -/
def OpEnd.bytes (e : OpEnd) : List Byte :=
  leb 8 e.handle ++ leb 2 e.status ++ leb 2 e.kind ++ zeros 4 ++ leb 8 e.consumed ++ leb 8 e.produced ++ leb 8 e.stateAddr
    ++ zeros 8 ++ leb 2 e.detail ++ leb 2 e.arg ++ leb 4 e.detector ++ zeros 8

/-- The packed status of WAITU (R126). -/
def packStatus (status detail detector : Nat) : Nat := status + detail * 2 ^ 16 + detector * 2 ^ 32

/-- A completed tag collected by WAITANY: the status in S[d], the tag in S[d+1], and the thread runs on (R130). -/
def Thread.collectAny (th : Thread) (k packed d : Nat) : Thread :=
  { (th.ws d (BitVec.ofNat 64 packed)).ws (d + 1) (BitVec.ofNat 64 k) with tags := th.tags.set k .free }

/-- A thread one of whose tags completes: a thread in WAITANY collects it at once, and a faulted thread discards it (R130, R132). -/
def Thread.tagEnd (th : Thread) (k packed : Nat) : Thread :=
  match th.st with
  | .blocked (.anyTag d) => { (th.overwrite [rS d, rS (d + 1)] th.nextOrder).collectAny k packed d with st := .running, pc := th.pc + 4 }
  | .blocked .faulted => { th with tags := th.tags.set k .free }
  | _ => Thread.wake { th with tags := th.tags.set k (.done packed) }

/-- A tag completes with a packed status, where its thread has not restarted since; after its last a faulted thread restarts (R132). -/
def State.tagDone (s : State) (t k epoch packed : Nat) : State :=
  if (s.thread t).epoch = epoch then
    let s1 := s.modThread t (fun th => th.tagEnd k packed)
    if (s1.thread t).st = .blocked .faulted ∧ !(s1.thread t).busyTag then s1.stopEnd t else s1
  else s

/-- A unit operation of a context ends or suspends: its record is written, dropped where it cannot be, and its tag completes, or
the RESUME that runs it does (R84, R126). An operation that a quarantine abandoned writes nothing (R504). -/
def State.endOp (s : State) (iss : Issuer) (ctx : Nat) (e : OpEnd) : State :=
  let s := if e.status = stAlign then s.countRefused ctx stAlign else s
  match iss with
  | .rcp sid rid => s.finish sid rid e.status e.bytes
  | .pod t k record epoch =>
    if s.svc.abandoned.contains (t, epoch) then s
    else
      let s1 := if record = 0 then s else s.writeDropped ctx record e.bytes
      s1.tagDone t k epoch (packStatus e.status e.detail e.detector)

/-- An operation ends with an error before or during its run (R212). -/
def State.failOp (s : State) (iss : Issuer) (ctx kind consumed produced : Nat) (e : Err) : State :=
  s.endOp iss ctx { status := e.status, kind := kind, consumed := consumed, produced := produced, detail := e.detail,
                    arg := e.arg, detector := e.detector }

/-! The accumulator file (R122, R123). -/

/-- The accumulator allocations held by the threads of a Pod. -/
def State.accHeld (s : State) (p : Nat) : List (Nat × Nat) :=
  (List.range 16).filterMap (fun k => (s.thread (16 * p + k)).acc)

/-- The first free run of n words in granules of 64. -/
def accFind (held : List (Nat × Nat)) (n : Nat) : Option Nat :=
  (List.range 64).findSome? (fun g =>
    let b := 64 * g
    if b + n ≤ 4096 ∧ held.all (fun h => b + n ≤ h.1 || h.1 + h.2 ≤ b) then some b else none)

/-! Faults (R132, R133). -/

/-- The fault record of R133 written to the image's ring. -/
def faultRecord (s : State) (t pc addr : Nat) (e : Err) : State :=
  match (s.thread t).image with
  | none => s
  | some h => match s.pods.images.find h with
    | none => s
    | some img =>
      let s1 := { s with pods := { s.pods with images := s.pods.images.put h { img with faultSeq := (img.faultSeq + 1) % 2 ^ 32 } } }
      let s2 := s1.countFault img.ctx (fun f => { f with
        pod := f.pod + 1, align := if e.status = stAlign then f.align + 1 else f.align,
        hw := if e.detail = 8 then f.hw + 1 else f.hw })
      if img.ring = 0 then s2 else s2.writeDropped img.ctx (img.ring + (img.faultSeq % img.ringEntries) * 32)
        (leb 8 pc ++ leb 8 addr ++ leb 2 e.status ++ leb 2 e.detail ++ leb 2 t ++ zeros 2 ++ leb 4 e.detector ++ leb 4 img.faultSeq)

/-- Steps 2 to 5 of R132: the item is retired with a status, then the thread waits for its unit operations to end; its stores complete, its loads are
discarded, its allocation is freed. -/
def State.stop (s : State) (t status : Nat) : State :=
  let s1 := s.retire t status true
  if (s1.thread t).busyTag then (s1.unwait t).block t .faulted else s1.stopEnd t

/-- A fault of a thread at an instruction, in the order of R132: the record, then its stop, after which it restarts. -/
def State.fault (s : State) (t pc addr : Nat) (e : Err) : State := (faultRecord s t pc addr e).stop t e.status

end Sys2Proof.Machine
end

