-- ==== Sys2Proof/Machine/Flags.lean ====
section
/-!
DEFINITION. The floating-point status flags of a thread (R158, R159).
-/
namespace Sys2Proof.Machine
open Sys2Proof

/-- A thread with flags raised; the flags are sticky (R158). -/
def Thread.raise (th : Thread) (fl : Nat) : Thread := { th with fp := th.fp ||| BitVec.ofNat 6 fl }

/-- The flags of a list of results together. -/
def allFlags (rs : List FRes) : Nat := rs.foldl (fun a r => a ||| r.fl) 0

end Sys2Proof.Machine
end

