-- ==== Sys2Proof/Machine/Operands.lean ====
section
/-!
DEFINITION. Instruction fields and formats (R95 to R97), register hazards (R94), fetch (R100, R131), and the issue of one
instruction of a thread.
-/
namespace Sys2Proof.Machine
open Sys2Proof

/-! Fields (R95). -/

def insMajor (w : Insn) : Nat := bits w.word.toNat 31 26
def insX (w : Insn) : Bool := bit w.word.toNat 25
def insD (w : Insn) : Nat := bits w.word.toNat 24 20
def insA (w : Insn) : Nat := bits w.word.toNat 19 15
def insB (w : Insn) : Nat := bits w.word.toNat 14 10
def insM (w : Insn) : Nat := bits w.word.toNat 9 7
def insT (w : Insn) : Nat := bits w.word.toNat 6 4
def insF (w : Insn) : Nat := bits w.word.toNat 3 0
/-- IMM15 of format I. -/
def insImm (w : Insn) : Nat := bits w.word.toNat 14 0
/-- A, B, C and OFF12 of format B. -/
def insBrA (w : Insn) : Nat := bits w.word.toNat 24 20
def insBrB (w : Insn) : Nat := bits w.word.toNat 19 15
def insC (w : Insn) : Nat := bits w.word.toNat 14 12
def insOff12 (w : Insn) : Nat := bits w.word.toNat 11 0
/-- OFF20 of format J. -/
def insOff20 (w : Insn) : Nat := bits w.word.toNat 19 0

/-- The major opcodes of R101 with whether X may be set and whether it must be. -/
def majors : List (Nat × Bool × Bool) :=
  [(0x01, true, false), (0x02, true, false), (0x03, true, false), (0x04, true, false), (0x05, true, false), (0x06, false, false),
   (0x07, true, true), (0x08, false, false), (0x09, true, false), (0x0A, true, false), (0x0B, true, false), (0x10, true, false),
   (0x11, true, false), (0x12, false, false), (0x13, false, false), (0x14, false, false), (0x15, true, false), (0x16, false, false),
   (0x18, false, false)] ++
  [(0x20, true, false), (0x21, true, false), (0x22, true, false), (0x23, true, false), (0x24, true, false), (0x25, true, false),
   (0x26, true, false), (0x27, true, false), (0x28, false, false), (0x29, false, false), (0x2A, false, false), (0x2B, false, false),
   (0x30, false, false), (0x31, false, false), (0x32, false, false), (0x34, false, false), (0x38, false, false),
   (0x3C, false, false), (0x3D, false, false), (0x3E, false, false), (0x3F, false, false)]

/-- The entry of a major opcode; none where it is reserved. -/
def majorOf (m : Nat) : Option (Bool × Bool) := (majors.find? (fun e => e.1 == m)).map Prod.snd

/-- Whether an extension word belongs to a word: X is set on a major that allows it (R96, R101). -/
def hasExt (w : Nat) : Bool := bit w 25 && ((majorOf (bits w 31 26)).map Prod.fst).getD false

/-- Whether X is as the major's table has it (R101). -/
def xOk (w : Insn) : Bool :=
  match majorOf (insMajor w) with
  | none => false
  | some (may, must) => (may || !insX w) && (!must || insX w)

/-- The extension word's signed immediate (R96). -/
def extImm (w : Insn) : Int := w.ext.toInt

/-- The immediate of format I: the extension where there is one. -/
def immI (w : Insn) : Int := if insX w then extImm w else signed 15 (insImm w)

/-- Whether the field that an extension replaces is zero in format A, I, B or J (R96). -/
def extA (w : Insn) : Bool := !insX w || insB w == 0
def extI (w : Insn) : Bool := !insX w || insImm w == 0
def extB (w : Insn) : Bool := !insX w || insOff12 w == 0
def extJ (w : Insn) : Bool := !insX w || insOff20 w == 0

/-- A vector register field, a mask register field (R97). -/
def vOk (r : Nat) : Bool := r < 16
def mOk (r : Nat) : Bool := r < 8
/-- The base of a pair or of a quad of vector registers. -/
def vPair (r : Nat) : Bool := r < 16 && r % 2 == 0
def vQuad (r : Nat) : Bool := r < 16 && r % 4 == 0

/-- The B operand field of majors 0x10, 0x11 and 0x15: a vector, a broadcast scalar, or an immediate (R97). -/
def bOperandReads (w : Insn) : List Nat :=
  if insX w then [] else if insB w ≥ 16 then [insB w - 16] else [32 + insB w]

/-- Element i of that operand. -/
def bOperand (w : Insn) (th : Thread) (i : Nat) : Word :=
  if insX w then w.ext
  else if insB w ≥ 16 then (th.rs (insB w - 16)).setWidth 32
  else elem (th.rv (insB w)) i

/-! Hazards (R94). -/

/-- A masked vector destination whose inactive elements keep their value is read as well (R98). -/
def keeps (w : Insn) (rs : List Nat) : List Nat := if insM w = 0 then [] else rM (insM w) :: rs

/-- The registers an outstanding slot still writes. -/
def SlotOp.dests (o : SlotOp) : List Nat :=
  match o with
  | .scalar d _ _ => [rS d]
  | .vector d _ => [rV d]
  | .atomic _ d _ _ _ _ => [rS d]
  | .vatomic _ _ => []
  | .hashs _ d _ _ _ _ _ => [rS d]
  | .gaz k d e _ _ _ => if k = 1 then [rV d] else [rS d, rS e]
  | .join d e _ => [rV d, rV e]

/-- Whether an outstanding slot still has to write one of some registers; S0 never counts. -/
def Thread.awaits (th : Thread) (rs : List Nat) : Bool :=
  th.slots.any (fun s => match s with
    | none => false
    | some x => x.op.dests.any (fun d => d != 0 && rs.contains d))

/-! Fetch (R100, R131). -/

/-- The instruction at a thread's PC, or the fault of R131 with the address whose fetch failed. -/
def podFetch (s : State) (t : Nat) : Except (Nat × Err) Insn × State :=
  let th := s.thread t
  let read := fun (va : Nat) (s : State) => Io.exec (memReadN .x (s.ctxOf t) va 4) s
  if th.pc % 4 ≠ 0 then (.error (th.pc, ⟨stAlign, 2, 0xFFFF, 0⟩), s)
  else match read th.pc s with
    | (.error e, s1) => (.error (th.pc, { e with detail := 2 }), s1)
    | (.ok b, s1) =>
      if hasExt (le b) then
        let va := (th.pc + 4) % 2 ^ 64
        match read va s1 with
        | (.error e, s2) => (.error (va, { e with detail := 2 }), s2)
        | (.ok x, s2) => (.ok ⟨BitVec.ofNat 32 (le b), BitVec.ofNat 32 (le x)⟩, s2)
      else (.ok ⟨BitVec.ofNat 32 (le b), 0⟩, s1)

/-! The Pod's choice (R92). -/

/-- Whether a range lies on a controller that is frozen (R228). -/
def State.heldRange (s : State) (ctx va len : Nat) : Bool :=
  (blocks64 va len).any (fun b => match atu s ctx b.1 .r true, atu s ctx b.1 .w true with
    | .ok (pa, _), _ => decide (pa < lpddrEnd) && s.frozen (partIsland (islMc (ctrlOf pa)))
    | _, .ok (pa, _) => decide (pa < lpddrEnd) && s.frozen (partIsland (islMc (ctrlOf pa)))
    | _, _ => false)

/-- How many places in the round a thread stands after the one that issued last. -/
def State.placeInRound (s : State) (t : Nat) : Nat := (t % 16 + 15 - (s.pod (podOf t)).turn) % 16

/-- Whether a thread is the one its Pod issues from next: it is RUNNING, the Pod acts, no frozen controller holds its fetch (R228), and no RUNNING thread
stands before it in the round. -/
def State.chosen (s : State) (t : Nat) : Bool :=
  decide ((s.thread t).st = .running) && (s.active (podOf t) && !s.heldRange (s.ctxOf t) (s.thread t).pc 8) &&
    (List.range 16).all (fun k => decide ((s.thread (16 * podOf t + k)).st ≠ .running) ||
      decide (s.placeInRound t ≤ s.placeInRound (16 * podOf t + k)))

/-- A thread that waits for the sort network of its Pod looks again. -/
def Thread.wakeSort (th : Thread) : Thread := if th.st = .blocked .sort then th.wake else th

/-- The sort network of a Pod free again (R302). -/
def State.sortFree (s : State) (p : Nat) : State :=
  let s1 := s.modPod p (fun x => { x with sortBeats := 0 })
  { s1 with pods := { s1.pods with threads := s1.pods.threads.map (fun e => (e.1, if podOf e.1 = p then e.2.wakeSort else e.2)) } }

/-- A cycle of a Pod passes on the sort network. -/
def State.sortBeat (s : State) (p : Nat) : State :=
  match (s.pod p).sortBeats with
  | 0 => s
  | 1 => s.sortFree p
  | n + 1 => s.modPod p (fun x => { x with sortBeats := n })

/-- A thread has its turn: the round goes on from it, and a cycle of its Pod passes. -/
def State.turned (s : State) (t : Nat) : State := (s.sortBeat (podOf t)).modPod (podOf t) (fun x => { x with turn := t % 16 })

/-! Issue. -/

/-- What an instruction does when it issues: its effect with the PC moving on, a jump, an effect that leaves the PC (the thread blocks or
asks), or a fault with its address. -/
inductive Issue where
  | next (s : State)
  | goto (pc : Nat) (s : State)
  | stay (s : State)
  | fault (e : Err) (addr : Nat) (s : State)

/-- A row of the instruction set: its words, which of them are free of reserved encodings, the registers it reads and writes,
and its effect. -/
structure Row where
  mine : Insn → Bool
  ok : Insn → Bool
  reads : Insn → List Nat
  writes : Insn → List Nat
  run : Nat → Insn → State → Issue

/-- A fault of R131. -/
def fErr (status detail : Nat) : Err := ⟨status, detail, 0xFFFF, 0⟩

/-- The address of the next sequential instruction (R100). -/
def nextPc (w : Insn) (pc : Nat) : Nat := (pc + if insX w then 8 else 4) % 2 ^ 64

/-- An instruction that has passed decoding and whose registers are ready. -/
def Row.perform (r : Row) (t : Nat) (w : Insn) (s : State) : State :=
  let th := s.thread t
  let settle := fun (pc : Nat) (s : State) =>
    s.modThread t (fun y => { y.overwrite (r.writes w) th.nextOrder with pc := pc })
  match r.run t w s with
  | .next s' => settle (nextPc w th.pc) s'
  | .goto pc s' => settle pc s'
  | .stay s' => s'
  | .fault e addr s' => s'.fault t th.pc addr e

/-- The issue of an instruction (R92, R94, R131): the thread that its Pod chooses fetches it; a word that is not the row's changes nothing. -/
def Row.issue (r : Row) (t : Nat) (w : Insn) (s : State) : State :=
  let th := s.thread t
  if !s.chosen t then s
  else match podFetch (s.turned t) t with
    | (.error (va, e), s') => s'.fault t th.pc va e
    | (.ok v, s') =>
      if v.word ≠ w.word ∨ (hasExt w.word.toNat ∧ v.ext ≠ w.ext) ∨ !r.mine w then s
      else
        let s1 := s'
        if !(xOk w && r.ok w) then s1.fault t th.pc 0 (fErr stArg 1)
        else match (if (r.reads w).isEmpty then none else s1.armed 6 (podOf t)) with
          | some _ => (s1.fireInjected 6 (podOf t) 0).fault t th.pc 0 ⟨stHw, 8, 0xFFFF, detId 6 (podOf t)⟩
          | none =>
            if th.awaits (r.reads w) then s1.block t .result
            else r.perform t w s1

/-- Words of a major opcode. -/
def isMajor (m : Nat) (w : Insn) : Bool := insMajor w == m

/-- An instruction that only changes its thread. -/
def onThread (f : Thread → Insn → Thread) (t : Nat) (w : Insn) (s : State) : Issue :=
  .next (s.modThread t (fun th => f th w))

end Sys2Proof.Machine
end

