-- ==== Sys2Proof/Machine/PodScalar.lean ====
section
/-!
DEFINITION. Scalar instructions: SALU, the immediate forms, SFP, branches and jumps (R102 to R105).
-/
namespace Sys2Proof.Machine
open Sys2Proof

/-- A 64-bit word of an integer. -/
def w64i (v : Int) : Word64 := BitVec.ofInt 64 v

/-- The operation of SALU on n-bit operands: the result as n bits (R102). -/
def saluOp {n : Nat} (f : Nat) (a b : BitVec n) : BitVec n :=
  let sh := b.toNat % n
  match f with
  | 0 => a + b
  | 1 => a - b
  | 2 => a &&& b
  | 3 => a ||| b
  | 4 => a ^^^ b
  | 5 => a <<< sh
  | 6 => a >>> sh
  | 7 => a.sshiftRight sh
  | 8 => a * b
  | 9 => BitVec.ofNat n (a.toNat * b.toNat / 2 ^ n)
  | 10 => if b = 0 then BitVec.allOnes n else a / b
  | 11 => if b = 0 then a else a % b
  | 12 => if b = 0 then BitVec.allOnes n else a.sdiv b
  | 13 => if b = 0 then a else a.srem b
  | 14 => if a.slt b then 1 else 0
  | _ => if a.ult b then 1 else 0

/-- The second operand of SALU: the extension or S[B]. -/
def saluB (w : Insn) (th : Thread) : Word64 := if insX w then w64i (extImm w) else th.rs (insB w)

/-- SALU on a thread. -/
def saluRun (th : Thread) (w : Insn) : Thread :=
  let a := th.rs (insA w)
  let b := saluB w th
  th.ws (insD w) (if insT w = 0 then saluOp (insF w) a b
    else (saluOp (insF w) (a.setWidth 32) (b.setWidth 32)).signExtend 64)

/-- SALU, and every word whose major opcode is reserved: an illegal instruction (R101, R131). -/
def rowSalu : Row where
  mine := fun w => isMajor 0x01 w || (majorOf (insMajor w)).isNone
  ok := fun w => isMajor 0x01 w && insT w ≤ 1 && insM w == 0 && extA w
  reads := fun w => rS (insA w) :: (if insX w then [] else [rS (insB w)])
  writes := fun w => [rS (insD w)]
  run := onThread saluRun

/-- The operation of ADDI, ANDI, ORI and XORI (R103). -/
def addiRun (th : Thread) (w : Insn) : Thread :=
  let a := th.rs (insA w)
  let b := w64i (immI w)
  let m := insMajor w
  th.ws (insD w) (if m = 0x02 then a + b else if m = 0x03 then a &&& b else if m = 0x04 then a ||| b else a ^^^ b)

def rowAddi : Row where
  mine := fun w => 0x02 ≤ insMajor w && insMajor w ≤ 0x05
  ok := extI
  reads := fun w => [rS (insA w)]
  writes := fun w => [rS (insD w)]
  run := onThread addiRun

/-- SHI: IMM15[7:6] selects the shift, IMM15[5:0] the amount (R103). -/
def shiRun (th : Thread) (w : Insn) : Thread :=
  th.ws (insD w) (saluOp (5 + bits (insImm w) 7 6) (th.rs (insA w)) (BitVec.ofNat 64 (bits (insImm w) 5 0)))

def rowShi : Row where
  mine := isMajor 0x06
  ok := fun w => bits (insImm w) 14 8 == 0 && bits (insImm w) 7 6 != 3
  reads := fun w => [rS (insA w)]
  writes := fun w => [rS (insD w)]
  run := onThread shiRun

/-- LIH: the upper half of S[D] replaced by the extension (R103). -/
def lihRun (th : Thread) (w : Insn) : Thread :=
  th.ws (insD w) (((th.rs (insD w)).setWidth 32).setWidth 64 ||| (w.ext.setWidth 64 <<< 32))

def rowLih : Row where
  mine := isMajor 0x07
  ok := fun w => insA w == 0 && extI w
  reads := fun w => [rS (insD w)]
  writes := fun w => [rS (insD w)]
  run := onThread lihRun

/-! SFP (R104, R149, R154). -/

/-- The format of T: FP64 or FP32. -/
def sfpFmt (t : Nat) : Fmt := if t = 0 then fp64 else fp32

/-- A scalar operand as a pattern of the format. -/
def sfpArg (f : Fmt) (v : Word64) : Nat := v.toNat % 2 ^ f.width

/-- NV of the ordered compares with a NaN (R149). -/
def cmpFlags (f : Fmt) (a b : Nat) : Nat := if f.unord a b then flNV else 0

/-- The result of SFP and the flags it raises. -/
def sfpOp (w : Insn) (a b : Word64) : FRes :=
  let f := sfpFmt (insT w)
  let o := sfpFmt (1 - insT w)
  let x := sfpArg f a
  let y := sfpArg f b
  match insF w with
  | 0 => f.add x y
  | 1 => f.sub x y
  | 2 => f.mul x y
  | 3 => ⟨b2n (f.lt x y), cmpFlags f x y⟩
  | 4 => ⟨b2n (f.le x y), cmpFlags f x y⟩
  | 5 => ⟨b2n (f.feq x y), 0⟩
  | 6 => cvtToInt f 64 .near x
  | 7 => cvtFromInt f .near false a.toInt
  | _ => cvtFloat o f .near false (sfpArg o a)

def sfpRun (th : Thread) (w : Insn) : Thread :=
  let r := sfpOp w (th.rs (insA w)) (th.rs (insB w))
  (th.ws (insD w) (BitVec.ofNat 64 r.val)).raise r.fl

def rowSfp : Row where
  mine := isMajor 0x08
  ok := fun w => insF w ≤ 8 && insT w ≤ 1 && insM w == 0 && (insF w < 6 || insB w == 0)
  reads := fun w => [rS (insA w), rS (insB w)]
  writes := fun w => [rS (insD w)]
  run := onThread sfpRun

/-! Branches and jumps (R100, R105). -/

/-- The target of a branch or jump: its own address plus 4 times the offset. -/
def target (pc : Nat) (off : Int) : Nat := (((pc : Int) + 4 * off) % 2 ^ 64).toNat

/-- The condition of BR. -/
def brTaken (w : Insn) (th : Thread) : Bool :=
  let a := th.rs (insBrA w)
  let b := th.rs (insBrB w)
  match insC w with
  | 0 => a == b
  | 1 => a != b
  | 2 => a.slt b
  | 3 => !a.slt b
  | 4 => a.ult b
  | 5 => !a.ult b
  | 6 => th.rm (insBrA w) != 0
  | _ => th.rm (insBrA w) == 0

def rowBr : Row where
  mine := isMajor 0x09
  ok := fun w => extB w && (insC w < 6 || (insBrB w == 0 && mOk (insBrA w)))
  reads := fun w => if insC w < 6 then [rS (insBrA w), rS (insBrB w)] else [rM (insBrA w)]
  writes := fun _ => []
  run := fun t w s =>
    let th := s.thread t
    if brTaken w th then .goto (target th.pc (if insX w then extImm w else signed 12 (insOff12 w))) s else .next s

def rowJal : Row where
  mine := isMajor 0x0A
  ok := extJ
  reads := fun _ => []
  writes := fun w => [rS (insD w)]
  run := fun t w s =>
    let th := s.thread t
    .goto (target th.pc (if insX w then extImm w else signed 20 (insOff20 w)))
      (s.modThread t (fun th => th.ws (insD w) (BitVec.ofNat 64 (nextPc w th.pc))))

def rowJalr : Row where
  mine := isMajor 0x0B
  ok := extI
  reads := fun w => [rS (insA w)]
  writes := fun w => [rS (insD w)]
  run := fun t w s =>
    let th := s.thread t
    .goto ((th.rs (insA w) + w64i (immI w)).toNat / 4 * 4)
      (s.modThread t (fun th => th.ws (insD w) (BitVec.ofNat 64 (nextPc w th.pc))))

/-! The rows. -/

def execSalu (t : Fin 8192) (w : Insn) (s : State) : Host.Outcome State Fault Refusal := .next (rowSalu.issue t w s)
def execAddi (t : Fin 8192) (w : Insn) (s : State) : Host.Outcome State Fault Refusal := .next (rowAddi.issue t w s)
def execShi (t : Fin 8192) (w : Insn) (s : State) : Host.Outcome State Fault Refusal := .next (rowShi.issue t w s)
def execLih (t : Fin 8192) (w : Insn) (s : State) : Host.Outcome State Fault Refusal := .next (rowLih.issue t w s)
def execSfp (t : Fin 8192) (w : Insn) (s : State) : Host.Outcome State Fault Refusal := .next (rowSfp.issue t w s)
def execBr (t : Fin 8192) (w : Insn) (s : State) : Host.Outcome State Fault Refusal := .next (rowBr.issue t w s)
def execJal (t : Fin 8192) (w : Insn) (s : State) : Host.Outcome State Fault Refusal := .next (rowJal.issue t w s)
def execJalr (t : Fin 8192) (w : Insn) (s : State) : Host.Outcome State Fault Refusal := .next (rowJalr.issue t w s)

end Sys2Proof.Machine
end

