-- ==== Sys2Proof/Machine/PodMem.lean ====
section
/-!
DEFINITION. Memory instructions: LD, ST, VLD, VST, ATOM, FENCE (R114 to R118), HASHS (R120), and the completion of outstanding loads and
stores (R93, R116, R215 to R218).
-/
namespace Sys2Proof.Machine
open Sys2Proof

/-! Checks before an access (R116, R131). -/

/-- The first address of a list that the ATU or its alignment refuses, with the fault of R131; a refusal is counted (R213). -/
def checkElems (ctx : Nat) (n : Need) (size : Nat) : List Nat → State → Option (Nat × Err) × State
  | [], s => (none, s)
  | va :: t, s =>
    match atu s ctx va n with
    | .error e => (some (va, fErr e n.detail), s.countRefused ctx e)
    | .ok _ => if va % size ≠ 0 then (some (va, fErr stAlign 5), s) else checkElems ctx n size t s

/-- An access that passes its checks, or the fault of the first that fails. -/
def checked (t : Nat) (n : Need) (size : Nat) (addrs : List Nat) (s : State) (go : State → Issue) : Issue :=
  match checkElems (s.ctxOf t) n size addrs s with
  | (some (va, e), s') => .fault e va s'
  | (none, s') => go s'

/-! Slots and the tracker (R93). -/

/-- The tracker entries taken in a Pod. -/
def State.trackerUsed (s : State) (p : Nat) : Nat :=
  ((List.range 16).map (fun k => ((s.thread (16 * p + k)).slots.map (fun x => (x.map Slot.tracker).getD 0)).sum)).sum

/-- The distinct 64-byte blocks of a list of addresses. -/
def distinctBlocks (addrs : List Nat) : Nat := (addrs.map (· / 64)).eraseDups.length

/-- The first free load slot of a thread. -/
def Thread.freeSlot (th : Thread) : Option Nat := firstIdx (fun k => (nth th.slots none k).isNone) 8

/-- An operation takes a load slot and n tracker entries, or the thread blocks until it can (R93). -/
def takeSlot (t n : Nat) (op : SlotOp) (s : State) : Issue :=
  let th := s.thread t
  match th.freeSlot with
  | none => .stay (s.block t .loadSlot)
  | some k =>
    if s.trackerUsed (podOf t) + n > 128 then .stay (s.block t .tracker)
    else .next (s.modThread t (fun th => { th with
      slots := th.slots.set k (some ⟨op, n, th.nextOrder, th.pc⟩), nextOrder := th.nextOrder + 1 }))

/-- The addresses and lengths a slot reads or writes. -/
def SlotOp.ranges (o : SlotOp) : List (Nat × Nat) :=
  match o with
  | .scalar _ n a => [(a, n)]
  | .vector _ es => es.map (fun e => (e.2, 4))
  | .atomic _ _ n a _ _ => [(a, n)]
  | .vatomic _ es => es.map (fun e => (e.1, 4))
  | .hashs _ _ a n _ _ g => [(a + g.length, n - g.length)]
  | .gaz _ _ _ _ _ _ => []
  | .join _ _ _ => []

/-- Whether two lists of ranges share a byte. -/
def overlap (l m : List (Nat × Nat)) : Bool := l.any (fun a => m.any (fun b => a.1 < b.1 + b.2 && b.1 < a.1 + a.2))

/-- The bytes a store writes. -/
def StoreOp.ranges (st : StoreOp) : List (Nat × Nat) := st.pieces.map (fun p => (p.1, p.2.length))

/-- The occupied slots of a thread. -/
def Thread.occupied (th : Thread) : List Slot := th.slots.filterMap id

/-- Whether a store waits for an earlier access of its thread to the same bytes (R118). -/
def Thread.storeWaits (th : Thread) (st : StoreOp) : Bool :=
  th.occupied.any (fun x => x.order < st.order && overlap x.op.ranges st.ranges)

/-- Every outstanding store of a thread made visible, for what must come after them (R118): the thread waits where a store itself waits
for an outstanding load; an error in memory faults at the store (R217). -/
def withStores (t : Nat) (s : State) (go : State → Issue) : Issue :=
  let th := s.thread t
  if s.memFrozen then .stay s
  else if th.stores.any th.storeWaits then .stay (s.block t .loadSlot)
  else match s.drainStores t with
    | (some (pc, va, e), s') => .stay (s'.fault t pc va { e with detail := 4 })
    | (none, s') => go s'

/-! Scalar loads and stores (R114). -/

/-- The access size of LD8 to LD64 and ST8 to ST64. -/
def ldSize (w : Insn) : Nat := 2 ^ (insMajor w % 4)

/-- The address S[A] + imm. -/
def ldAddr (th : Thread) (w : Insn) : Nat := (th.rs (insA w) + w64i (immI w)).toNat

def rowLd : Row where
  mine := fun w => 0x20 ≤ insMajor w && insMajor w ≤ 0x23
  ok := extI
  reads := fun w => [rS (insA w)]
  writes := fun w => [rS (insD w)]
  run := fun t w s =>
    let a := ldAddr (s.thread t) w
    checked t .r (ldSize w) [a] s (takeSlot t 1 (.scalar (insD w) (ldSize w) a))

/-- A store becomes outstanding; it clears the thread's lock record (R541). -/
def Thread.addStore (th : Thread) (pieces : List (Nat × List Byte)) : Thread :=
  { th with stores := th.stores ++ [⟨th.nextOrder, th.pc, pieces⟩], nextOrder := th.nextOrder + 1, lock := none }

def rowSt : Row where
  mine := fun w => 0x24 ≤ insMajor w && insMajor w ≤ 0x27
  ok := extI
  reads := fun w => [rS (insA w), rS (insD w)]
  writes := fun _ => []
  run := fun t w s =>
    let a := ldAddr (s.thread t) w
    checked t .w (ldSize w) [a] s (fun s => .next (s.modThread t (fun th =>
      th.addStore [(a, leb (ldSize w) (th.rs (insD w)).toNat)])))

/-! Vector loads and stores (R115). -/

/-- The address of element i. -/
def vldAddr (th : Thread) (w : Insn) (i : Nat) : Nat :=
  let a := th.rs (insA w)
  (match insF w with
    | 0 => a + BitVec.ofNat 64 (4 * i)
    | 1 => a + BitVec.ofNat 64 i * th.rs (insB w)
    | 2 => a + (elem (th.rv (insB w)) i).setWidth 64
    | _ => a).toNat

/-- Encodings of VLD and VST: the forms from 0 to n. -/
def vldOk (n : Nat) (w : Insn) : Bool :=
  insF w ≤ n && insT w == 0 && vOk (insD w) && (match insF w with
    | 0 => insB w == 0
    | 1 => true
    | 2 => vOk (insB w)
    | _ => insB w == 0)

/-- The registers that address a vector access. -/
def vldReads (w : Insn) : List Nat :=
  rS (insA w) :: rM (insM w) :: (if insF w = 1 then [rS (insB w)] else if insF w = 2 then [rV (insB w)] else [])

def rowVld : Row where
  mine := isMajor 0x28
  ok := vldOk 3
  reads := fun w => vldReads w ++ keeps w [rV (insD w)]
  writes := fun w => [rV (insD w)]
  run := fun t w s =>
    let th := s.thread t
    let es := (th.active (insM w)).map (fun i => (i, vldAddr th w i))
    let addrs := es.map Prod.snd
    checked t .r 4 addrs s (takeSlot t (distinctBlocks addrs) (.vector (insD w) es))

def rowVst : Row where
  mine := isMajor 0x29
  ok := vldOk 2
  reads := fun w => rV (insD w) :: vldReads w
  writes := fun _ => []
  run := fun t w s =>
    let th := s.thread t
    let es := (th.active (insM w)).map (fun i => (vldAddr th w i, leb 4 (elem (th.rv (insD w)) i).toNat))
    checked t .w 4 (es.map Prod.fst) s (fun s => .next (s.modThread t (fun th => th.addStore es)))

/-! Atomics (R117). -/

/-- The value an atomic of n bytes leaves, from the old value, S[B], and S[D] for ACAS. -/
def atomNew (f n old src cmp : Nat) : Nat :=
  let m := 2 ^ (8 * n)
  let x := src % m
  match f with
  | 0 => (old + x) % m
  | 1 => x
  | 2 => if old = cmp % m then x else old
  | 3 => (fp32.add old x).val
  | 4 => if signed (8 * n) x < signed (8 * n) old then x else old
  | _ => if signed (8 * n) old < signed (8 * n) x then x else old

def rowAtom : Row where
  mine := isMajor 0x2A
  ok := fun w => insF w ≤ 7 && (if insF w ≤ 5 then insM w == 0 && insT w ≤ 1 && (insF w != 3 || insT w == 1)
    else insT w == 1 && vOk (insD w) && vOk (insB w))
  reads := fun w => rS (insA w) :: (if insF w ≤ 5 then rS (insB w) :: (if insF w = 2 then [rS (insD w)] else [])
    else [rV (insB w), rV (insD w), rM (insM w)])
  writes := fun w => if insF w ≤ 5 then [rS (insD w)] else []
  run := fun t w s =>
    let th := s.thread t
    if insF w ≤ 5 then
      let n := if insT w = 0 then 8 else 4
      let a := (th.rs (insA w)).toNat
      checked t .rw n [a] s
        (takeSlot t 1 (.atomic (insF w) (insD w) n a (th.rs (insB w)).toNat (th.rs (insD w)).toNat))
    else
      let es := (th.active (insM w)).map (fun i =>
        ((th.rs (insA w) + (elem (th.rv (insB w)) i).setWidth 64).toNat, (elem (th.rv (insD w)) i).toNat))
      let addrs := es.map Prod.fst
      checked t .rw 4 addrs s (takeSlot t (distinctBlocks addrs) (.vatomic (insF w == 7) es))

/-! FENCE (R118). -/

def rowFence : Row where
  mine := isMajor 0x2B
  ok := fun w => w.word == 0xAC00_0000
  reads := fun _ => []
  writes := fun _ => []
  run := fun t _ s =>
    if (s.thread t).occupied.isEmpty then withStores t s .next else .stay (s.block t .loadSlot)

/-! HASHS (R120). -/

/-- The blocks of the next group of at most 8 of a HASHS of n bytes at a, of which k are read (R93). -/
def hashGroup (a n k : Nat) : List (Nat × Nat) := (blocks64 (a + k) (n - k)).take 8

def rowHashs : Row where
  mine := isMajor 0x31
  ok := fun w => insF w ≤ 5 && insT w == 0 && insM w == 0 && (insF w != 3 || insD w % 2 == 0)
  reads := fun w => rS (insA w) :: rS (insB w) :: rS (insD w) :: (if insF w = 3 then [rS (insD w + 1)] else [])
  writes := fun w => [rS (insD w)]
  run := fun t w s =>
    let th := s.thread t
    let n := (th.rs (insB w)).toNat
    let a := (th.rs (insA w)).toNat
    if n > 65536 then .fault (fErr stRange 6) 0 s
    else
      checked t .r 1 ((blocks64 a n).map Prod.fst) s (takeSlot t (hashGroup a n 0).length (.hashs (insF w) (insD w) a n (th.rs (insD w)).toNat
        (if insF w = 3 then (th.rs (insD w + 1)).toNat else 0) []))

/-! Completion of loads (R93, R94, R118). -/

/-- What a slot's operation does when its memory answers. -/
inductive Landed where
  | done (f : Thread → Thread) (s : State)
  | more (o : SlotOp) (s : State)
  | failed (addr : Nat) (e : Err) (s : State)

/-- A failing ACAS records its address; a second at the same address leaves the record; a successful one clears it (R541). -/
def Thread.lockAfter (th : Thread) (addr : Nat) (held : Bool) : Thread :=
  if held then { th with lock := none }
  else match th.lock with
    | some r => if r.addr = addr then th else { th with lock := some ⟨addr, th.waitChange + 1⟩, waitChange := th.waitChange + 1 }
    | none => { th with lock := some ⟨addr, th.waitChange + 1⟩, waitChange := th.waitChange + 1 }

/-- The words of a vector atomic one after another, until one fails. -/
def vatomicTry (ctx : Nat) (float : Bool) : List (Nat × Nat) → State → Option (Nat × Err) × State
  | [], s => (none, s)
  | (va, x) :: t, s =>
    match Io.exec (memModify ctx va 4 (fun b => leb 4 (atomNew (if float then 3 else 0) 4 (le b) x 0)) true) s with
    | (.ok _, s') => vatomicTry ctx float t s'
    | (.error e, s') => (some (va, e), s')

/-- A slot's operation performed: of HASHS one group of its bytes (R93). A 32-bit atomic returns the old value zero-extended (DEDUCED, log entry 60: R117
states no extension). -/
def SlotOp.land (o : SlotOp) (ctx : Nat) (s : State) : Landed :=
  match o with
  | .scalar d n a => match readList ctx true [(a, n)] [] s with
    | (.ok bs, s') => .done (fun th => th.ws d (BitVec.ofNat 64 (le bs.flatten))) s'
    | (.error (va, e), s') => .failed va e s'
  | .vector d es => match readList ctx true (es.map (fun e => (e.2, 4))) [] s with
    | (.ok bs, s') => .done (fun th => th.wv d ((es.zip bs).foldl (fun v p => v.set p.1.1 (BitVec.ofNat 32 (le p.2))) (th.rv d))) s'
    | (.error (va, e), s') => .failed va e s'
  | .atomic f d n a x c => match Io.exec (memModify ctx a n (fun b => leb n (atomNew f n (le b) x c)) true) s with
    | (.ok b, s') =>
      .done (fun th =>
        let th := if f = 2 then th.lockAfter a (le b == c % 2 ^ (8 * n)) else th
        th.ws d (BitVec.ofNat 64 (le b))) s'
    | (.error e, s') => .failed a { e with detail := 3 } s'
  | .vatomic fl es => match vatomicTry ctx fl es s with
    | (none, s') => .done id s'
    | (some (va, e), s') =>
      .failed va { e with detail := 3 } (partialElems ctx va (es.map (fun p =>
        (p.1, 4, fun b => leb 4 (atomNew (if fl then 3 else 0) 4 (le b) p.2 0)))) { s' with mem := { s'.mem with bytes := s.mem.bytes, watch := s.mem.watch } })
  | .hashs f d a n k0 k1 g => match readList ctx true (hashGroup a n g.length) [] s with
    | (.ok bs, s') =>
      let all := g ++ bs.flatten
      if all.length < n then .more (.hashs f d a n k0 k1 all) s'
      else .done (fun th => th.ws d (hashFn f all (BitVec.ofNat 64 k0) (BitVec.ofNat 64 k1))) s'
    | (.error (va, e), s') => .failed va e s'
  | .gaz k d e _ _ res =>
    let r := res.getD []
    if k = 1 then .done (fun th => th.wv d (r.map (BitVec.ofNat 32))) s
    else .done (fun th => (th.ws d (BitVec.ofNat 64 (nth r 0 0))).ws e (BitVec.ofNat 64 (nth r 0 1))) s
  | .join d e es => .done (fun th =>
      (th.wv d (es.foldl (fun v x => v.set x.1 (BitVec.ofNat 32 x.2.1)) (th.rv d))).wv e
        (es.foldl (fun v x => v.set x.1 (BitVec.ofNat 32 x.2.2)) (th.rv e))) s

/-- Whether a slot can land now: it has a result where a unit gives it, and no earlier access of its thread to the same bytes is
outstanding but stores, which go first (R118). -/
def Thread.slotReady (th : Thread) (x : Slot) : Bool :=
  (match x.op with
    | .gaz _ _ _ _ _ none => false
    | _ => true) && !th.occupied.any (fun y => y.order < x.order && overlap y.op.ranges x.op.ranges)

/-- The place below which stores must reach memory before a slot lands: past the last earlier store to the same bytes. -/
def Thread.storesBefore (th : Thread) (x : Slot) : Nat :=
  (th.stores.filter (fun st => st.order < x.order && overlap st.ranges x.op.ranges)).foldl (fun a st => max a (st.order + 1)) 0

/-- The first address a slot accesses. -/
def SlotOp.addr (o : SlotOp) : Nat := (o.ranges.head?.map Prod.fst).getD 0

/-- A thread that waits for a slot, the tracker or a result looks again. -/
def Thread.wakeLoad (th : Thread) : Thread :=
  match th.st with
  | .blocked .loadSlot => th.wake
  | .blocked .tracker => th.wake
  | .blocked .result => th.wake
  | _ => th

/-- The tracker entries that a slot's next group of requests takes. -/
def SlotOp.group (o : SlotOp) : Nat :=
  match o with
  | .hashs _ _ a n _ _ g => (hashGroup a n g.length).length
  | _ => 0

/-- A slot that holds no tracker entries takes those of its next group, where that many are free (R93). -/
def takeGroup (t k : Nat) (s : State) : State :=
  match nth (s.thread t).slots none k with
  | none => s
  | some x =>
    if s.trackerUsed (podOf t) + x.op.group > 128 then s
    else s.modThread t (fun th => { th with slots := th.slots.set k (some { x with tracker := x.op.group }) })

/-- LOAD_COMPLETE: an outstanding load, atomic or synchronous result returns with what it met in memory; of a HASHS, its next group. A faulted thread's
loads are left to be discarded (R132). -/
def loadComplete (t k : Nat) (ev : MemEvent) (s : State) : State :=
  let th := s.thread t
  let ctx := s.ctxOf t
  if !s.active (podOf t) ∨ th.st = .blocked .faulted then s
  else match nth th.slots none k with
    | none => s
    | some x =>
      if !th.slotReady x || x.op.ranges.any (fun r => s.heldRange ctx r.1 r.2) then s
      else if x.tracker < x.op.group then takeGroup t k s
      else match s.drainStores t (th.storesBefore x) with
        | (some (pc, va, e), s1) => s1.fault t pc va { e with detail := 4 }
        | (none, s1) =>
          match (if x.op.ranges.isEmpty then (none, s1) else s1.meet ctx x.op.addr ev) with
          | (some e, s2) => s2.fault t x.pc x.op.addr { e with detail := 3 }
          | (none, s2) => match x.op.land ctx s2 with
            | .failed va e s3 => s3.fault t x.pc va e
            | .more o s3 =>
              (takeGroup t k (s3.modThread t (fun th => { th with slots := th.slots.set k (some { x with op := o, tracker := 0 }) }))).wakePod (podOf t)
            | .done f s3 =>
              (s3.modThread t (fun th => Thread.wakeLoad { f th with slots := th.slots.set k none })).wakePod (podOf t)

/-- A store fails because of its own parity or link error: the error is counted and detected. -/
def storeEvent (ctx : Nat) (st : StoreOp) (ev : MemEvent) (s : State) : Option (Nat × Err) × State :=
  match st.pieces.head? with
  | none => (none, s)
  | some (va, _) =>
    match ev, atu s ctx va .w true with
    | .parity, .ok (pa, _) =>
      if pa < lpddrEnd then (none, s)
      else
        let (k, i) := storeDetector pa
        (some (va, ⟨stHw, 4, 0xFFFF, detId k i⟩), (s.fire k i 0 false).countRefused ctx stHw)
    | _, _ => match s.meet ctx va ev with
      | (some e, s') => (some (va, e), s')
      | (none, s') => (none, s')

/-- STORE_COMPLETE: an outstanding store reaches memory, or meets a memory error and faults (R116, R217). The stores of a faulted thread complete
together, once its unit operations have ended (R132). -/
def storeComplete (t k : Nat) (ev : MemEvent) (s : State) : State :=
  let th := s.thread t
  let ctx := s.ctxOf t
  if !s.active (podOf t) ∨ th.st = .blocked .faulted then s
  else match th.stores[k]? with
    | none => s
    | some st =>
      if th.storeWaits st || (th.stores.take k).any (fun y => overlap y.ranges st.ranges) || st.ranges.any (fun r => s.heldRange ctx r.1 r.2) then s
      else
        let r : Option (Nat × Err) × State := match storeEvent ctx st ev s with
          | (some (va, e), s1) =>
            (some (va, e), partialElems ctx va (st.pieces.map (fun p : Nat × List Byte => (p.1, p.2.length, fun _ => p.2))) s1)
          | (none, s1) => st.run ctx s1
        let s2 := r.2.modThread t (fun th => Thread.wakeLoad { th with stores := th.stores.eraseIdx k })
        match r.1 with
        | none => s2
        | some (va, e) => s2.fault t st.pc va { e with detail := 4 }

/-! The rows. -/

def execLd (t : Fin 8192) (w : Insn) (s : State) : Host.Outcome State Fault Refusal := .next (rowLd.issue t w s)
def execSt (t : Fin 8192) (w : Insn) (s : State) : Host.Outcome State Fault Refusal := .next (rowSt.issue t w s)
def execVld (t : Fin 8192) (w : Insn) (s : State) : Host.Outcome State Fault Refusal := .next (rowVld.issue t w s)
def execVst (t : Fin 8192) (w : Insn) (s : State) : Host.Outcome State Fault Refusal := .next (rowVst.issue t w s)
def execAtom (t : Fin 8192) (w : Insn) (s : State) : Host.Outcome State Fault Refusal := .next (rowAtom.issue t w s)
def execFence (t : Fin 8192) (w : Insn) (s : State) : Host.Outcome State Fault Refusal := .next (rowFence.issue t w s)
def execHashs (t : Fin 8192) (w : Insn) (s : State) : Host.Outcome State Fault Refusal := .next (rowHashs.issue t w s)
def execLoadComplete (t : Fin 8192) (slot : Fin 8) (ev : MemEvent) (s : State) : Host.Outcome State Fault Refusal :=
  .next (loadComplete t slot ev s)
def execStoreComplete (t : Fin 8192) (k : Nat) (ev : MemEvent) (s : State) : Host.Outcome State Fault Refusal :=
  .next (storeComplete t k ev s)

end Sys2Proof.Machine
end

