-- ==== Sys2Proof/Machine/Rcp.lean ====
section
/-!
DEFINITION. How a received RCP frame is checked and answered: steps 5 to 16 of R64, request IDs and the replay cache
(R76 to R78), the command catalogue (R88).
-/
namespace Sys2Proof.Machine
open Sys2Proof

/-- What a command answers once it has passed step 15 of R64: OK with a payload, OK with what follows the completion, an error of R80, a
status with a payload of its own, or a command that takes time, with what follows once it is in flight. -/
inductive Reply where
  | ok (payload : List Byte) (s : State)
  | okThen (payload : List Byte) (s : State) (after : State → State)
  | err (e : Err) (s : State)
  | raw (status : Nat) (payload : List Byte) (s : State)
  | wait (w : Wait) (s : State)
  | waitThen (w : Wait) (s : State) (after : State → State)

/-- A command's own rules: the frame, its SESSION_ID, its session, the state. -/
abbrev Handler := Frame → Nat → Session → State → Reply

/-- An error at a request payload offset (R80). -/
def errAt (status off : Nat) : Err := ⟨status, 0, off, 0⟩

/-- An error with a DETAIL, and DETECTOR_ID 0: so end the commands whose chapters give E_HW a DETAIL and name no detector (R500 0x0D01, R510 0x0D04,
R511 0x0D05, R512 0x0D06, the RESTORE of R370). That R80's field is 0 there is the model's choice (log entry 59). -/
def errD (status detail : Nat) : Err := ⟨status, detail, 0xFFFF, 0⟩

/-- An error with neither. -/
def err0 (status : Nat) : Err := ⟨status, 0, 0xFFFF, 0⟩

/-- The command catalogue (R88): opcode, and whether it needs a privileged session, is offered by the boot ROM, and over
SMBus/MCTP. -/
def catalogue : List (Nat × Bool × Bool × Bool) := [
  (0x0001, false, true, true), (0x0002, false, true, true), (0x0003, false, true, true),
  (0x0004, false, true, true), (0x0005, false, false, true), (0x0006, false, false, true),
  (0x0007, false, false, false), (0x0010, false, false, true), (0x0011, true, false, false),
  (0x0012, true, false, true), (0x0013, false, false, false), (0x0014, false, false, false),
  (0x0015, false, false, false), (0x0016, false, false, false), (0x0017, false, false, false),
  (0x0100, false, true, true), (0x0101, false, true, true), (0x0102, true, false, true),
  (0x0103, false, false, true), (0x0104, true, false, false), (0x0200, true, false, false),
  (0x0201, true, false, false), (0x0202, false, false, false), (0x0203, false, false, false),
  (0x0204, true, false, false), (0x0300, false, false, false), (0x0301, false, false, false),
  (0x0302, false, false, false), (0x0303, true, false, false), (0x0304, false, false, false),
  (0x0400, false, false, false), (0x0401, false, false, false)] ++ [
  (0x0500, false, false, false), (0x0510, false, false, false), (0x0511, false, false, false),
  (0x0512, false, false, false), (0x0520, false, false, false), (0x0521, true, false, false),
  (0x0530, false, false, false), (0x0531, false, false, false), (0x0600, false, false, true),
  (0x0601, true, false, false), (0x0700, false, false, true), (0x0701, false, false, true),
  (0x0702, true, false, true), (0x0703, true, false, false), (0x0800, false, false, true),
  (0x0801, false, false, true), (0x0802, false, false, true), (0x0803, true, false, false),
  (0x0804, true, false, false), (0x0900, true, false, false), (0x0901, true, false, false),
  (0x0902, true, false, false), (0x0903, false, false, false), (0x0904, false, false, true),
  (0x0A00, true, false, true), (0x0A01, false, false, true), (0x0A02, false, true, false)]

/-- The catalogue's entry of an opcode, none where it is reserved. -/
def catalogued (op : Nat) : Option (Bool × Bool × Bool) := (catalogue.find? (fun e => e.1 == op)).map Prod.snd

/-- Whether a frame can arrive on a path: the Host Port's link is up, or the low-speed island is released. -/
def State.canReceive (s : State) (p : Path) : Bool :=
  match p with
  | .host => s.linkUp
  | .mctp => s.up islLow

/-- Whether a command is offered on the path a frame came in by (step 13 of R64): the boot ROM offers the commands marked
B, SMBus/MCTP those marked M, and firmware never offers BOOT_LOAD. -/
def offered (s : State) (path : Path) (op : Nat) : Bool :=
  match catalogued op with
  | none => false
  | some (_, b, m) =>
    if s.ctl.surveyor = .netboot then b && (match path with
      | .host => true
      | .mctp => m)
    else op != 0x0A02 && (match path with
      | .host => true
      | .mctp => m)

/-- The header bytes of a received frame. -/
def frameHeader (f : Frame) (op : Nat) : List Byte :=
  headerBytes f.verMajor.toNat f.verMinor.toNat f.sessionId.toNat f.requestId.toNat op f.flags.toNat f.payload.length
    f.status.toNat (leb 6 f.reserved.toNat)

/-- An answer without a session: version 1.0, no MAC (R64 steps 5 and 6). -/
def frameAnswer (f : Frame) (op status : Nat) (payload : List Byte) (s : State) : State :=
  s.sendRcp f.path f.srcIp f.srcPort ⟨1, 0, f.sessionId.toNat, f.requestId.toNat, op, 1, status, payload, []⟩

/-- An answer in a session that does not enter the replay cache (steps 8 and 9 of R64, R78). -/
def frameAnswerIn (f : Frame) (x : Session) (op : Nat) (e : Err) (s : State) : State :=
  s.sendRcp f.path f.srcIp f.srcPort (x.completion f.sessionId.toNat f.requestId.toNat op e.status (errPayload e))

/-- The completion of an executed or refused command, from step 10 onward (R78). -/
def frameComplete (f : Frame) (op status : Nat) (payload : List Byte) (s : State) : State :=
  s.complete f.sessionId.toNat f.requestId.toNat op f.path f.srcIp f.srcPort status payload

/-- The MAC a frame of a session must carry (R63). -/
def frameMacOk (f : Frame) (op : Nat) (key : List Byte) : Bool :=
  bit f.flags.toNat 1 && f.mac == (hmac384 key (frameHeader f op ++ f.payload)).take 16

/-- The header checks of step 9 of R64 in a session. -/
def frameHeaderBad (f : Frame) (mac : Bool) : Bool :=
  f.status != 0 || bits f.flags.toNat 15 4 != 0 || f.reserved != 0 || f.requestId == 0 ||
    (bit f.flags.toNat 1 && !mac)

/-- Requests in flight in the device. -/
def State.allInFlight (s : State) : Nat := (s.rcp.sessions.map (fun e => e.2.inFlight.length)).sum + s.rcp.orphans.length

/-- The command in flight until what w names ends it. -/
def frameInFlight (f : Frame) (op : Nat) (w : Wait) (s : State) : State :=
  let s1 := s.modSession f.sessionId.toNat (fun y => { y with
    inFlight := y.inFlight ++ [⟨f.requestId.toNat, op, f.path, f.srcIp, f.srcPort, w, s.rcp.nextStart⟩] })
  { s1 with rcp := { s1.rcp with nextStart := s.rcp.nextStart + 1 } }

/-- Step 16 of R64: the command runs, and is answered or left in flight. -/
def rcpExecute (op : Nat) (h : Handler) (f : Frame) (x : Session) (s : State) : State :=
  match h f f.sessionId.toNat x s with
  | .ok p s' => frameComplete f op stOk p s'
  | .okThen p s' after => after (frameComplete f op stOk p s')
  | .err e s' => frameComplete f op e.status (errPayload e) s'
  | .raw st p s' => frameComplete f op st p s'
  | .wait w s' => frameInFlight f op w s'
  | .waitThen w s' after => after (frameInFlight f op w s')

/-- Steps 11 to 15 of R64, the first that fails. -/
def rcpRefusal (op : Nat) (f : Frame) (x : Session) (s : State) : Option Err :=
  firstFail [
    (f.payload.length > x.maxPayload, err0 stLimit),
    ((catalogued op).isNone, err0 stArg),
    (!offered s f.path op, err0 stUnsupported),
    (((catalogued op).map Prod.fst).getD false && !x.priv, err0 stPerm),
    (x.inFlight.length ≥ 256 || s.allInFlight ≥ 16384, err0 stLimit)]

/-- Commands that act on units which Freeze stops: they wait until THAW (R547). -/
def needsFabric (op : Nat) : Bool :=
  [0x0007, 0x0013, 0x0014, 0x0015, 0x0016, 0x0017, 0x0201, 0x0202, 0x0203, 0x0204, 0x0300, 0x0301, 0x0302, 0x0303, 0x0304, 0x0400, 0x0401, 0x0500,
    0x0510, 0x0511, 0x0512, 0x0520, 0x0521, 0x0530, 0x0531, 0x0601].contains op

/-- Whether a command of a session that acts on frozen units waits: for THAW (R547), or behind one of the session that waited for it and has not
started yet (R74). -/
def mustWait (op : Nat) (x : Session) (s : State) : Bool :=
  needsFabric op && (s.dbg.frz.on || x.inFlight.any (fun c => match c.wait with
    | .deferred _ => true
    | _ => false))

/-- Step 10 and what follows it (R77). -/
def rcpReplay (op : Nat) (h : Handler) (f : Frame) (x : Session) (s : State) : State :=
  match x.cache.find? (fun o => o.requestId == f.requestId.toNat) with
  | some o => s.sendRcp f.path f.srcIp f.srcPort (RcpOut.seal { o with flags := 5, mac := [] } x.key)
  | none =>
    if x.inFlight.any (fun c => c.rid == f.requestId.toNat) then
      { s with host := { s.host with ctr := { s.host.ctr with dupInflight := sat32 s.host.ctr.dupInflight 1 } } }
    else if f.requestId.toNat ≤ x.floor then frameAnswerIn f x op (errD stState 1) s
    else match rcpRefusal op f x s with
      | some e => frameComplete f op e.status (errPayload e) s
      | none => if mustWait op x s then frameInFlight f op (.deferred f) s else rcpExecute op h f x s

/-- The open session a frame names on the path it came by: a session opened over one path is none on the other (R64 step 6, R595). -/
def sessionOf (s : State) (f : Frame) : Option Session :=
  match s.session f.sessionId.toNat with
  | none => none
  | some x => if x.path = f.path then some x else none

/-- Steps 6 to 16 of R64 for a command of a session. -/
def rcpSession (op : Nat) (h : Handler) (f : Frame) (s : State) : State :=
  match sessionOf s f with
  | none => frameAnswer f op stSession (errPayload (err0 stSession)) s
  | some x =>
    if (match x.key with
        | none => false
        | some k => !frameMacOk f op k) then
      { s with host := { s.host with ctr := { s.host.ctr with dropMac := sat32 s.host.ctr.dropMac 1 } } }
    else if f.verMajor.toNat ≠ x.verMajor ∨ f.verMinor.toNat ≠ x.verMinor then frameAnswerIn f x op (err0 stVersion) s
    else if frameHeaderBad f x.key.isSome then frameAnswerIn f x op (err0 stArg) s
    else
      let s' := s.modSession f.sessionId.toNat (fun y => { y with lastSeen := s.ctl.now })
      rcpReplay op h f { x with lastSeen := s.ctl.now } s'

/-- A received frame whose path can deliver it: run by firmware or the boot ROM, held during a handover pause (R73), and
otherwise discarded (R558, R566). -/
def rcpGate (op : Nat) (f : Frame) (s : State) (run : State → State) : State :=
  if s.canReceive f.path then
    match s.ctl.surveyor with
    | .ready => run s
    | .netboot => run s
    | .paused => { s with rcp := { s.rcp with heldFrames := s.rcp.heldFrames ++ [.frame op f] } }
    | .held => s
    | .atRom => s
    | .starting => s
  else s

/-- A command of a session, from the frame that carries it. -/
def rcpRun (op : Nat) (h : Handler) (f : Frame) (s : State) : State := rcpGate op f s (rcpSession op h f)

/-- A row that stands for one ACTION of a command: the frame is the row's only where its payload has that byte at off. -/
def rcpAction (op off act : Nat) (h : Handler) (f : Frame) (s : State) : State :=
  if f.payload.length > off ∧ fld f.payload off 1 = act then rcpRun op h f s else s

/-- A payload of a fixed length: any other is malformed (R79). -/
def badLength (f : Frame) (n : Nat) : Bool := f.payload.length != n

/-- Fields that must be zero, as ranges of offset and length: the error at the lowest one that is not. -/
def reservedErr (p : List Byte) (fields : List (Nat × Nat)) : Option Err :=
  (fields.find? (fun r => !fldZero p r.1 r.2)).map (fun r => errAt stArg r.1)

/-- A reply from a table of failures and what follows when none holds (R610). -/
def Reply.check (fails : List (Bool × Err)) (s : State) (go : Reply) : Reply :=
  match firstFail fails with
  | some e => .err e s
  | none => go

end Sys2Proof.Machine
end

