-- ==== Sys2Proof/Machine/Units.lean ====
section
/-!
DEFINITION. What the fixed-function units share: issue of an asynchronous operation (R126, R130), descriptor checks, engine choice, work
items, suspension and the end of an operation (R81 to R84), saved state areas.
-/
namespace Sys2Proof.Machine
open Sys2Proof

/-! Issue (R126, R130). -/

/-- The free tags of a thread. -/
def Thread.freeTags (th : Thread) : List Nat := (List.range 8).filter (fun k => nth th.tags .free k == .free)

/-- An asynchronous instruction issues: its record address must be a multiple of 64, a free tag is chosen freely and written to S[D], and
the operation sees every earlier store of the thread. -/
def asyncIssue (t : Nat) (w : Insn) (record kind : Nat) (s : State) (go : Issuer → State → State) : Issue :=
  let th := s.thread t
  if record % 64 ≠ 0 then .fault (fErr stAlign 5) record s
  else if th.freeTags.isEmpty then .stay (s.block t .tagFree)
  else withStores t s (fun s0 =>
    let k := nextFree (fun k => !th.freeTags.contains k) 8 8 (s0.draw).1
    let s1 := (s0.draw).2.modThread t (fun th => { th.ws (insD w) (BitVec.ofNat 64 k) with
      tags := th.tags.set k (.busy kind), tagAge := th.tagAge.set k th.nextOrder, nextOrder := th.nextOrder + 1 })
    .next (go (.pod t k record th.epoch) s1))

/-- The fields of UNIT and GUPD that must be zero. -/
def asyncOk (w : Insn) : Bool := insM w == 0 && insT w == 0

/-- The thread that issued an operation. -/
def Issuer.thread (i : Issuer) : Nat :=
  match i with
  | .pod t _ _ _ => t
  | .rcp _ _ => 0

/-! Descriptors. -/

/-- A read that finds out only what a range holds: nothing where it cannot be read, and what it met is not kept. -/
def State.peek (s : State) (ctx va len : Nat) : Option (List Byte) :=
  match Io.exec (memRead ctx va len) s with
  | (.ok b, _) => some b
  | (.error _, _) => none

/-- The same for a thread whose outstanding stores come first (R118). -/
def State.peekStored (s : State) (t ctx va len : Nat) : Option (List Byte) := (s.drainStores t).2.peek ctx va len

/-- Whether two ranges share a byte. -/
def rangesMeet (a b : Nat × Nat) : Bool := a.2 != 0 && b.2 != 0 && a.1 < b.1 + b.2 && b.1 < a.1 + a.2

/-- The error of the first range that an operation may not access (R211, R212). -/
def rangesErr (s : State) (ctx : Nat) (l : List (Nat × Nat × Need)) : Option Err :=
  l.findSome? (fun r => (rangeRefused s ctx r.1 r.2.1 r.2.2).map (fun e => ⟨e, r.2.2.detail, 0xFFFF, 0⟩))

/-- A descriptor rejected before its operation starts: both counts are zero, a refused access counts (R213), and the descriptor
checker of the unit kind fires (R525). refused is the error of an access that the check found refused, where its DETAIL is not that of R212. -/
def State.rejectOp (s : State) (iss : Issuer) (ctx kind : Nat) (refused : Option Err) (e : Err) : State :=
  let access := refused == some e || ((e.status == stXlate || e.status == stPerm) && (e.detail == 3 || e.detail == 4))
  ((if access then s.countRefused ctx e.status else s).fire 0x0F kind 0 false).failOp iss ctx kind 0 0 e

/-- The checks of a descriptor in table order (R610), after an injection armed on its checker, which rejects it with E_ARG (R525). -/
def State.checkJob (s : State) (iss : Issuer) (ctx kind argDetail : Nat) (refused : Option Err) (fails : List (Bool × Err))
    (go : State → State) : State :=
  match s.armed 0x0F kind with
  | some _ => (s.fireInjected 0x0F kind 0).failOp iss ctx kind 0 0 (errD stArg argDetail)
  | none => match firstFail fails with
    | some e => s.rejectOp iss ctx kind refused e
    | none => go s

/-- The same for a descriptor whose refused accesses have the DETAIL of R212. -/
def State.checkOp (s : State) (iss : Issuer) (ctx kind argDetail : Nat) (fails : List (Bool × Err)) (go : State → State) : State :=
  s.checkJob iss ctx kind argDetail none fails go

/-- An operation's descriptor of n bytes fetched: a refused fetch ends it (R212). -/
def State.withDesc (s : State) (iss : Issuer) (ctx addr n kind : Nat) (go : List Byte → State → State) : State :=
  match Io.exec (memRead ctx addr n) s with
  | (.ok d, s') => go d s'
  | (.error e, s') => s'.failOp iss ctx kind 0 0 e

/-- The lowest offset of a list whose condition holds, as the field at fault (R610). -/
def fieldErr (status detail : Nat) (l : List (Bool × Nat)) : Bool × Err :=
  match minBy Prod.snd (l.filter Prod.fst) with
  | none => (false, errD status detail)
  | some (_, off) => (true, ⟨status, detail, off, 0⟩)

/-- A row of ATU checks of ranges (R211). -/
def rangesRow (s : State) (ctx : Nat) (l : List (Nat × Nat × Need)) : Bool × Err :=
  match rangesErr s ctx l with
  | none => (false, err0 stXlate)
  | some e => (true, e)

/-- One row of a table whose conditions are told apart by DETAIL: the one at the lowest offset (R610). -/
def oneRow (l : List (Bool × Err)) : Bool × Err := (minBy (fun x => x.2.arg) (l.filter Prod.fst)).getD (false, err0 stOk)

/-- A row of ATU checks whose DETAIL the table gives (R274): the first refused range with its DETAIL. -/
def accessErr (s : State) (ctx : Nat) (l : List ((Nat × Nat × Need) × Nat)) : Option Err :=
  l.findSome? (fun r => (rangesErr s ctx [r.1]).map (fun e => errD e.status r.2))

/-- An error that may be there, as a row. -/
def mayErr (o : Option Err) : Bool × Err := (o.isSome, o.getD (err0 stOk))

/-- Fields that must be zero, as ranges of offset and length, as conditions for fieldErr. -/
def reservedBytes (d : List Byte) (l : List (Nat × Nat)) : List (Bool × Nat) := l.map (fun r => (!fldZero d r.1 r.2, r.1))

/-- The engine among n that a descriptor names, 0xFF naming the one with the least load, the lowest-numbered on ties. -/
def pickEngine (n : Nat) (load : Nat → Nat) (e : Nat) : Nat :=
  if e = 0xFF then (minBy load (List.range n)).getD 0 else e

/-- Whether a FLOW_ID can take a unit's items: none, or a live flow that is no graph queue; whether its KIND is reserved (R163); whether
another context owns it. -/
def flowUsable (s : State) (fid : Nat) : Bool := fid == 0xFFFF_FFFF || (fidKind fid == 0 && (s.flow fid).isSome)
def flowForeign (s : State) (ctx fid : Nat) : Bool :=
  fid != 0xFFFF_FFFF && fidKind fid == 0 && (match s.flow fid with
    | none => false
    | some f => f.ctx != ctx)

/-- An item offered to a unit's flow: whether the unit is rid of it (R179). -/
def State.emit (s : State) (fid : Nat) (body : List Byte) (srcKind srcId : Nat) : Bool × State :=
  match s.offer fid body srcKind srcId 0 0 0 with
  | (.full, s') => (false, s')
  | (_, s') => (true, s')

/-! Engines. -/

/-- An engine with nothing to do. -/
def Engine.idle {α : Type} : Engine α := ⟨[], none⟩

/-- A Table Intake engine. -/
def State.tableEng (s : State) (e : Nat) : Engine TableJob := s.units.table.at Engine.idle e
def State.setTable (s : State) (e : Nat) (x : Engine TableJob) : State :=
  { s with units := { s.units with table := s.units.table.upd Engine.idle e x } }

/-- A slice engine's column jobs. -/
def State.colEng (s : State) (e : Nat) : Engine ColJob := s.units.column.at Engine.idle e
def State.setCol (s : State) (e : Nat) (x : Engine ColJob) : State :=
  { s with units := { s.units with column := s.units.column.upd Engine.idle e x } }

/-- An engine's load: the jobs queued at it. -/
def Engine.load {α : Type} (e : Engine α) : Nat := e.queue.length

/-! Suspension and end (R81 to R84). -/

/-- Suspended operations of a context; one being resumed still counts until it ends. -/
def State.suspCount (s : State) (ctx : Nat) : Nat := (s.units.susp.filter (fun e => e.2.ctx == ctx)).length

/-- The state with a suspended operation's entry removed. -/
def State.dropSusp (s : State) (h : Nat) : State :=
  if h = 0 then s else { s with units := { s.units with susp := s.units.susp.del h } }

/-- An operation ends: its handle ends with it. -/
def State.endJob (s : State) (h : JobHead) (kind : Nat) (e : Err) : State :=
  (s.dropSusp h.handle).failOp h.iss h.ctx kind h.inC h.outP e

/-- The handle under which an operation is suspended: its own where it has one, else a fresh one, taken at once (job stands under it, not yet to be
resumed), none where its context holds as many suspended operations as it may (R83). -/
def State.takeHandle (s : State) (h : JobHead) (job : UnitJob) : Option JobHead × State :=
  if h.handle ≠ 0 then (some h, s)
  else if s.suspCount h.ctx ≥ 4096 then (none, s)
  else
    let r := s.fresh (fun k => k == 0 || (s.units.susp.find k).isSome) (2 ^ 64) (s.units.susp.length + 1)
    (some { h with handle := r.1 }, { r.2 with units := { r.2.units with susp := r.2.units.susp.put r.1 ⟨h.ctx, job, true⟩ } })

/-- An operation suspended under its handle, with the suspension record (R81). -/
def State.parkJob (s : State) (h : JobHead) (kind stateAddr : Nat) (job : UnitJob) : State :=
  { s with units := { s.units with susp := s.units.susp.put h.handle ⟨h.ctx, job, false⟩ } }.endOp h.iss h.ctx
    { handle := h.handle, status := stNoSpace, kind := kind, consumed := h.inC, produced := h.outP, stateAddr := stateAddr }

/-- An operation whose output space has run out: suspended, or ended with E_LIMIT (R83). -/
def State.suspendJob (s : State) (h : JobHead) (kind stateAddr : Nat) (mk : JobHead → UnitJob) : State :=
  match s.takeHandle h (mk h) with
  | (none, s1) => s1.endJob h kind (err0 stLimit)
  | (some h1, s1) => s1.parkJob h1 kind stateAddr (mk h1)

/-- A state area written by a unit: its bytes are the unit's own, free values; it answers what was written, or the error. -/
def State.saveArea (s : State) (ctx addr n : Nat) : Except Err (List Byte) × State :=
  let b := (s.drawBytes n).1
  match Io.exec (memWrite ctx addr b) (s.drawBytes n).2 with
  | (.ok _, s') => (.ok b, s')
  | (.error e, s') => (.error e, s')

/-- Whether a state area still holds what a unit saved there: the error where it cannot be read. -/
def State.areaIntact (s : State) (ctx addr : Nat) (saved : List Byte) : Except Err Bool × State :=
  match Io.exec (memRead ctx addr saved.length) s with
  | (.ok b, s') => (.ok (b == saved), s')
  | (.error e, s') => (.error e, s')

/-! Operations whose output is undefined where another access meets it (R5). -/

/-- An operation's output is watched from now on. -/
def State.watchOp (s : State) (w : Watch) : State :=
  { s with mem := { s.mem with watch := s.mem.watch.filter (fun x => x.owner != w.owner && x.open s) ++ [w] } }

/-- The output of an operation is watched no more. -/
def State.unwatch (s : State) (o : OutputOf) : State := { s with mem := { s.mem with watch := s.mem.watch.filter (fun x => x.owner != o) } }

/-- An operation's record changed. -/
def State.modWatch (s : State) (o : OutputOf) (f : Watch → Watch) : State :=
  { s with mem := { s.mem with watch := s.mem.watch.map (fun x => if x.owner == o then f x else x) } }

/-- A watched operation's own write: its bytes that another access has met stay undefined. -/
def State.ownWrite (s : State) (o : OutputOf) (ctx va : Nat) (bs : List Byte) : Except Err Unit × State :=
  match s.mem.watch.find? (fun w => w.owner == o) with
  | none => Io.exec (memWrite ctx va bs) s
  | some w =>
    let r := Io.exec (memWrite ctx va bs) (s.unwatch o)
    let s1 := { r.2 with mem := { r.2.mem with watch := r.2.mem.watch ++ [w] } }
    (r.1, (w.spoiled.filter (fun a => va ≤ a && a < va + bs.length)).foldl (fun a v => a.scramble ctx v 1) s1)

/-- A write in 64-byte blocks until one fails: how many bytes were written before it, and the error. o: the watched operation that writes. -/
def State.writeSome (s : State) (o : OutputOf) (ctx va : Nat) (bs : List Byte) : Nat × Option Err × State :=
  (blocks64 va bs.length).foldl (fun (a : Nat × Option Err × State) p =>
    match a.2.1 with
    | some _ => a
    | none => match a.2.2.ownWrite o ctx p.1 (sub bs (p.1 - va) p.2) with
      | (.ok _, s') => (a.1 + p.2, none, s')
      | (.error e, s') => (a.1, some e, s')) (0, none, s)

/-- A read in 64-byte blocks until one fails: the bytes before it, and the error. -/
def State.readSome (s : State) (ctx va n : Nat) : List Byte × Option Err × State :=
  (blocks64 va n).foldl (fun (a : List Byte × Option Err × State) p =>
    match a.2.1 with
    | some _ => a
    | none => match Io.exec (memRead ctx p.1 p.2) a.2.2 with
      | (.ok b, s') => (a.1 ++ b, none, s')
      | (.error e, s') => (a.1, some e, s')) ([], none, s)

/-- A job's head when it is issued. -/
def JobHead.first (iss : Issuer) (ctx outAddr outLen : Nat) : JobHead :=
  ⟨iss, iss.thread, ctx, 0, outAddr, outLen, 0, 0, none, []⟩

/-- A job's head when it is resumed: new output space, counts from the start of the segment (R84, R85). -/
def JobHead.again (h : JobHead) (iss : Issuer) (outAddr outLen : Nat) : JobHead :=
  { h with iss := iss, outAddr := outAddr, outLen := outLen, inC := 0, outP := 0, held := none }

/-! UNIT JOB (R130). -/

/-- The JOB_KIND that a JOB instruction's descriptor holds, where it can be read. -/
def jobKind (s : State) (t : Nat) (w : Insn) : Option Nat :=
  (s.peekStored t (s.ctxOf t) ((s.thread t).rs (insA w)).toNat 2).map le

/-- A row of UNIT function 2: it is the row's own where the descriptor's JOB_KIND is, or cannot be read. -/
def rowJob (kind : Nat) (go : Issuer → Nat → Nat → State → State) : Row where
  mine := fun w => isMajor 0x3F w && insF w == 2
  ok := asyncOk
  reads := fun w => [rS (insA w), rS (insB w)]
  writes := fun w => [rS (insD w)]
  run := fun t w s =>
    let ctx := s.ctxOf t
    let a := ((s.thread t).rs (insA w)).toNat
    asyncIssue t w ((s.thread t).rs (insB w)).toNat kind s (fun iss s => go iss ctx a s)

/-- The issue of a JOB row: nothing happens where the descriptor is another row's. -/
def issueJob (mine : Nat → Bool) (kind : Nat) (go : Issuer → Nat → Nat → State → State) (t : Nat) (w : Insn) (s : State) : State :=
  if ((jobKind s t w).map mine).getD true then (rowJob kind go).issue t w s else s

end Sys2Proof.Machine
end

