-- ==== Sys2Proof/Machine/Batch.lean ====
section
/-!
DEFINITION. Columns and batches: Legend entries (R230 to R233), the layout of an output batch (R246 to R248), its work item (R249), and the reading
of a batch as an operator's input (R272, R291).
-/
namespace Sys2Proof.Machine
open Sys2Proof

/-! Legends (R230 to R233). -/

def legColumns (leg : List Byte) : Nat := fld leg 6 2
def legSchema (leg : List Byte) : Nat := fld leg 8 8
/-- Column entry c. -/
def legEntry (leg : List Byte) (c : Nat) : List Byte := sub leg (0x40 + 32 * c) 32
def legEntries (leg : List Byte) : List (List Byte) := (List.range (legColumns leg)).map (legEntry leg)

def colType (e : List Byte) : Nat := fld e 0 1
def colElem (e : List Byte) : Nat := fld e 1 1
def colUnit (e : List Byte) : Nat := fld e 2 1
def colNullable (e : List Byte) : Bool := bit (fld e 3 1) 0
def colElemNullable (e : List Byte) : Bool := bit (fld e 3 1) 1
def colFixedLen (e : List Byte) : Nat := fld e 8 4
def colMaxElems (e : List Byte) : Nat := if fld e 0xC 4 = 0 then 4194304 else fld e 0xC 4
def colMaxBytes (e : List Byte) : Nat := if fld e 0x10 4 = 0 then 16777216 else fld e 0x10 4

/-- Type codes by name. -/
def tBool : Nat := 0x0D
def tUtf8 : Nat := 0x0E
def tBinary : Nat := 0x0F
def tTime : Nat := 0x10
def tList : Nat := 0x11
def tFixed : Nat := 0x12

/-- The bits of a fixed-width value; 0 for the other types. -/
def typeBits (t : Nat) : Nat :=
  if t = 1 ∨ t = 5 then 8 else if t = 2 ∨ t = 6 ∨ t = 9 ∨ t = 0xA then 16 else if t = 3 ∨ t = 7 ∨ t = 0xB then 32
  else if t = 4 ∨ t = 8 ∨ t = 0xC ∨ t = tTime then 64 else if t = tBool then 1 else 0

/-- A type of fixed width, which may also be an element type (R231). -/
def isFixedType (t : Nat) : Bool := typeBits t != 0
/-- Signed integers, unsigned integers, integers, floating point (R261). -/
def isSigned (t : Nat) : Bool := 1 ≤ t && t ≤ 4
def isUnsigned (t : Nat) : Bool := 5 ≤ t && t ≤ 8
def isInt (t : Nat) : Bool := 1 ≤ t && t ≤ 8
def isFloat (t : Nat) : Bool := 9 ≤ t && t ≤ 0xC
def isNumeric (t : Nat) : Bool := 1 ≤ t && t ≤ 0xC
def isVar (t : Nat) : Bool := t == tUtf8 || t == tBinary
def isList (t : Nat) : Bool := t == tList || t == tFixed

/-- The bytes of a value as memory between kernels holds it; a BOOL takes one. -/
def typeBytes (t : Nat) : Nat := ceilDiv (typeBits t) 8

/-! Bits. -/

/-- Bits packed least significant first into n bytes. -/
def packBits : Nat → List Bool → List Byte
  | 0, _ => []
  | n + 1, l => BitVec.ofNat 8 ((l.take 8).foldr (fun b a => b2n b + 2 * a) 0) :: packBits n (l.drop 8)

/-- The first n bits of a bitmap. -/
def unpackBits (bs : List Byte) (n : Nat) : List Bool :=
  (bs.flatMap (fun b => (List.range 8).map b.getLsbD)).take n

/-- Values of a fixed-width type packed (R248). -/
def packValues (t : Nat) (vs : List (List Byte)) : List Byte :=
  if t = tBool then packBits (ceilDiv vs.length 8) (vs.map (fun v => le v % 2 == 1)) else vs.flatMap (padTo (typeBytes t))

/-- A list cut into pieces of k. -/
def chunks {α : Type} (k : Nat) : Nat → List α → List (List α)
  | 0, _ => []
  | n + 1, l => l.take k :: chunks k n (l.drop k)

/-- n values of a fixed-width type from their buffer. -/
def unpackValues (t n : Nat) (bs : List Byte) : List (List Byte) :=
  if t = tBool then (unpackBits bs n).map (fun b => leb 1 (b2n b)) else chunks (typeBytes t) n bs

/-! One column of a batch (R248). -/

/-- The buffers of a column in their order, absent ones none, and its counts. -/
structure ColOut where
  validity : Option (List Byte)
  offsets : Option (List Byte)
  elemValidity : Option (List Byte)
  values : List Byte
  nulls : Nat
  elemNulls : Nat

/-- Running offsets from 0. -/
def offsetsOf (lens : List Nat) : List Nat :=
  (lens.foldl (fun (a : List Nat × Nat) n => (a.1 ++ [a.2 + n], a.2 + n)) ([0], 0)).1

/-- The elements of a list cell: a null FIXED_SIZE_LIST row holds zero elements of FIXED_LEN, another null row none. -/
def cellElems (e : List Byte) (c : Cell) : List (Option (List Byte)) :=
  match c with
  | .list es => es
  | .null => if colType e = tFixed then List.replicate (colFixedLen e) (some (zeros (typeBytes (colElem e)))) else []
  | .val _ => []

/-- The bytes of a value cell, zero for a null. -/
def cellBytes (e : List Byte) (c : Cell) : List Byte :=
  match c with
  | .val b => b
  | .null => if isVar (colType e) then [] else zeros (typeBytes (colType e))
  | .list _ => []

/-- The buffers of a column's cells. -/
def colOut (e : List Byte) (cells : List Cell) : ColOut :=
  let n := cells.length
  let nulls := (cells.filter (· == .null)).length
  let validity := if colNullable e then some (packBits (ceilDiv n 8) (cells.map (· != .null))) else none
  let off := fun lens => (offsetsOf lens).flatMap (leb 4)
  if isList (colType e) then
    let es := cells.map (cellElems e)
    let all := es.flatten
    { validity := validity
      offsets := if colType e = tList then some (off (es.map List.length)) else none
      elemValidity := if colElemNullable e then some (packBits (ceilDiv all.length 8) (all.map Option.isSome)) else none
      values := packValues (colElem e) (all.map (fun x => x.getD (zeros (typeBytes (colElem e)))))
      nulls := nulls
      elemNulls := (all.filter Option.isNone).length }
  else if isVar (colType e) then
    let vs := cells.map (cellBytes e)
    ⟨validity, some (off (vs.map List.length)), none, vs.flatten, nulls, 0⟩
  else ⟨validity, none, none, packValues (colType e) (cells.map (cellBytes e)), nulls, 0⟩

/-- The elements or bytes of a column in a batch (R248). -/
def colCount (e : List Byte) (cells : List Cell) : Nat :=
  if isList (colType e) then (cells.map (fun c => (cellElems e c).length)).sum else (cells.map (fun c => (cellBytes e c).length)).sum

/-- A buffer with its padding. -/
def padded (b : List Byte) : List Byte := padTo (alignUp b.length 64) b

/-! A batch (R247, R248). -/

/-- The directory's length. -/
def dirBytes (cols : Nat) : Nat := alignUp (64 + 48 * cols) 64

/-- Column records and buffers from an address on. -/
def placeCols (base : Nat) : List ColOut → Nat → List Byte × List Byte
  | [], _ => ([], [])
  | c :: t, pos =>
    let put := fun (b : Option (List Byte)) (p : Nat) => match b with
      | none => (0, p, [])
      | some b => (base + p, p + alignUp b.length 64, padded b)
    let (va, p1, b1) := put c.validity pos
    let (oa, p2, b2) := put c.offsets p1
    let (ea, p3, b3) := put c.elemValidity p2
    let (xa, p4, b4) := put (some c.values) p3
    let r := placeCols base t p4
    (leb 8 va ++ leb 8 oa ++ leb 8 ea ++ leb 8 xa ++ leb 4 c.nulls ++ leb 4 c.elemNulls ++ leb 8 c.values.length ++ r.1,
      b1 ++ b2 ++ b3 ++ b4 ++ r.2)

/-- What a directory says of its batch. -/
structure BatchInfo where
  rows : Nat
  index : Nat
  firstRow : Nat
  user : List Byte
  nulled : Nat

/-- The bytes of a batch at an address. -/
def batchImage (leg : List Byte) (base : Nat) (i : BatchInfo) (cols : List (List Cell)) : List Byte :=
  let es := legEntries leg
  let outs := (es.zip cols).map (fun p => colOut p.1 p.2)
  let d := dirBytes es.length
  let (recs, bufs) := placeCols base outs d
  padTo d (leb 4 0x5441_4254 ++ leb 2 es.length ++ zeros 2 ++ leb 4 i.rows ++ leb 4 i.index ++ leb 8 i.firstRow
    ++ leb 8 (d + bufs.length) ++ leb 8 (legSchema leg) ++ padTo 8 i.user ++ leb 4 i.nulled ++ zeros 12 ++ recs) ++ bufs

/-- Whether each column of a batch keeps to the limit of R248. -/
def countsOk (leg : List Byte) (cols : List (List Cell)) : Bool :=
  ((legEntries leg).zip cols).all (fun p => colCount p.1 p.2 ≤ 2147483647)

/-- The largest number of rows, at most n, whose batch keeps to the limit and fits in room bytes (R246). -/
def fitRows (leg : List Byte) (cols : List (List Cell)) (room : Nat) : Nat → Nat
  | 0 => 0
  | n + 1 =>
    let cut := cols.map (·.take (n + 1))
    if countsOk leg cut && (batchImage leg 0 ⟨n + 1, 0, 0, [], 0⟩ cut).length ≤ room then n + 1 else fitRows leg cols room n

/-- The work item of a batch (R249). -/
def batchItem (addr : Nat) (i : BatchInfo) (legend : Nat) : List Byte :=
  leb 8 addr ++ leb 8 i.firstRow ++ leb 4 i.rows ++ leb 4 i.index ++ leb 8 legend ++ padTo 8 i.user

/-! Reading a batch (R272, R274, R291). -/

/-- A batch as an operator's input: its rows, its FIRST_ROW and its columns' cells. -/
structure BatchIn where
  rows : Nat
  firstRow : Nat
  cols : List (List Cell)

/-- A buffer outside its mapping, or offsets that are not monotonic. -/
def batchBad : Err := errD stCorrupt 0x0704

/-- A batch's buffer read: one outside its mapping is corrupt. -/
def bufRead (ctx va n : Nat) : Io (List Byte) := fun s =>
  if n = 0 then (.ok [], s)
  else match Io.exec (memRead ctx va n) s with
    | (.ok b, s') => (.ok b, s')
    | (.error e, s') => (.error (if e.status = stXlate then batchBad else e), s')

/-- Whether offsets rise. -/
def monotone : List Nat → Bool
  | a :: b :: t => a ≤ b && monotone (b :: t)
  | _ => true

/-- The cells of a column from its record. -/
def readCol (ctx rows : Nat) (e rec : List Byte) : Io (List Cell) := do
  let vb ← if colNullable e then bufRead ctx (fld rec 0 8) (ceilDiv rows 8) else pure []
  let valid := if colNullable e then unpackBits vb rows else List.replicate rows true
  let mask := fun (cs : List Cell) => (valid.zip cs).map (fun p => if p.1 then p.2 else .null)
  let t := colType e
  if isFixedType t then do
    let b ← bufRead ctx (fld rec 0x18 8) (ceilDiv (rows * typeBits t) 8)
    pure (mask ((unpackValues t rows b).map .val))
  else do
    let offs ← if t = tFixed then pure ((List.range (rows + 1)).map (· * colFixedLen e)) else do
      let ob ← bufRead ctx (fld rec 8 8) (4 * (rows + 1))
      pure ((chunks 4 (rows + 1) ob).map le)
    let last := offs.getLastD 0
    if !(monotone offs && offs.headD 0 == 0) then throw batchBad
    let cut := fun {α : Type} (l : List α) => (offs.zip (offs.drop 1)).map (fun p => (l.drop p.1).take (p.2 - p.1))
    if isVar t then do
      let b ← bufRead ctx (fld rec 0x18 8) last
      pure (mask ((cut b).map .val))
    else do
      let b ← bufRead ctx (fld rec 0x18 8) (ceilDiv (last * typeBits (colElem e)) 8)
      let eb ← if colElemNullable e then bufRead ctx (fld rec 0x10 8) (ceilDiv last 8) else pure []
      let ev := if colElemNullable e then unpackBits eb last else List.replicate last true
      let es := (ev.zip (unpackValues (colElem e) last b)).map (fun p => if p.1 then some p.2 else none)
      pure (mask ((cut es).map .list))

/-- A batch read whole: directory, then columns. -/
def readBatch (ctx addr : Nat) (leg : List Byte) : Io BatchIn := do
  let d ← memRead ctx addr (64 + 48 * legColumns leg)
  let rows := fld d 8 4
  let cols ← ((legEntries leg).zipIdx).mapM (fun p => readCol ctx rows p.1 (sub d (0x40 + 48 * p.2) 48))
  pure ⟨rows, fld d 0x10 8, cols⟩

end Sys2Proof.Machine
end

