-- ==== Sys2Proof/Machine/ColStep.lean ====
section
/-!
DEFINITION. The steps of a column job: their types and arguments (R260, R261, R273) and their values (R258, R262 to R271).
-/
namespace Sys2Proof.Machine
open Sys2Proof

/-! Values. -/

/-- The format of a floating-point type. -/
def typeFmt (t : Nat) : Fmt := if t = 9 then fp16 else if t = 0xA then bf16 else if t = 0xB then fp32 else fp64

/-- An integer, BOOL or TIMESTAMP value. -/
def intOf (t v : Nat) : Int := if isSigned t || t == tTime then signed (typeBits t) v else v

/-- A value as a number. -/
def valOf (t v : Nat) : FVal := if isFloat t then (typeFmt t).decode v else .fin (intOf t v < 0) (intOf t v).natAbs 0

/-- The order of two values of a type; none where one is a NaN (R149, R262). -/
def valCmp (t a b : Nat) : Option Ordering :=
  if valOf t a = .nan ∨ valOf t b = .nan then none else some ((valOf t a).cmp (valOf t b))

def valNan (t v : Nat) : Bool := valOf t v == .nan

/-- A numeric value converted to FP32 (R154, R262). -/
def toFp32 (t v : Nat) : Nat := if isFloat t then (cvtFloat (typeFmt t) fp32 .near false v).val else (cvtFromInt fp32 .near false (intOf t v)).val

/-- The bytes of a value that a job hashes: a zero without sign, the canonical NaN (R258). -/
def hashBytes (t : Nat) (b : List Byte) : List Byte :=
  if isFloat t then
    let f := typeFmt t
    match f.decode (le b) with
    | .nan => leb (typeBytes t) f.nan
    | .fin _ 0 _ => zeros (typeBytes t)
    | _ => b
  else b

/-! Step entries (R260). -/

def stOp (st : List Byte) : Nat := fld st 0 1
def stOut (st : List Byte) : Nat := fld st 1 1
def stIn0 (st : List Byte) : Nat := fld st 2 2
def stIn1 (st : List Byte) : Nat := fld st 4 2
def stFlags (st : List Byte) : Nat := fld st 6 2
def stArg0 (st : List Byte) : Nat := fld st 8 8
def stArg1 (st : List Byte) : Nat := fld st 0x10 8
def stArg2 (st : List Byte) : Nat := fld st 0x18 8

/-- Step k of a step array. -/
def stepAt (steps : List Byte) (k : Nat) : List Byte := sub steps (32 * k) 32

/-- The further columns of a CROSS step, up to the end of its list. -/
def crossCols (st : List Byte) : List Nat :=
  [stIn0 st, stIn1 st, stArg2 st % 2 ^ 16, stArg2 st / 2 ^ 16 % 2 ^ 16].takeWhile (· != 0xFFFF)

/-- The columns a step reads. -/
def stepReads (st : List Byte) : List Nat :=
  if stOp st = 0x11 then crossCols st
  else if (stOp st = 1 ∧ bit (stFlags st) 3) ∨ stOp st = 3 ∨ stOp st = 4 then [stIn0 st, stIn1 st] else [stIn0 st]

/-- A column entry like a Legend's. -/
def mkEntry (t elem unit : Nat) (nullable elemNullable : Bool) (fixedLen maxElems maxBytes : Nat) : List Byte :=
  leb 1 t ++ leb 1 elem ++ leb 1 unit ++ leb 1 (b2n nullable + 2 * b2n elemNullable) ++ zeros 4 ++ leb 4 fixedLen
    ++ leb 4 maxElems ++ leb 4 maxBytes ++ zeros 12

/-- The window count n of a WINDOW step. -/
def windowN (st : List Byte) : Nat := stArg1 st / stArg2 st

/-- The boundaries of a BUCKET step as an array of values. -/
def boundVals (t n : Nat) (b : List Byte) : List Nat := (unpackValues t n b).map le

/-- Whether boundaries rise strictly and hold no NaN (R264). -/
def boundsOk (t : Nat) (l : List Nat) : Bool :=
  l.all (fun v => !valNan t v) && (l.zip (l.drop 1)).all (fun p => valCmp t p.1 p.2 == some .lt)

/-- A finite positive FP32. -/
def posFinite (v : Nat) : Bool :=
  match fp32.decode v with
  | .fin false m _ => m != 0
  | _ => false

/-- The column a step produces (R261, R273): its type, element type, unit, and whether it and its elements can be null. -/
def stepEntry (st e0 : List Byte) (nulls : Bool) : List Byte :=
  let op := stOp st
  let fl := stFlags st
  let plain := fun t n => mkEntry t 0 0 n false 0 0 0
  match op with
  | 0x06 => plain tBool false
  | 0x10 => plain 8 nulls
  | 0x11 => plain 8 (nulls && !bit fl 0)
  | 0x20 => plain 7 nulls
  | 0x21 => plain 8 nulls
  | 0x30 => plain 0xB nulls
  | 0x31 => plain (if fl % 8 = 0 then 1 else if fl % 8 ≤ 3 then 5 else if fl % 8 = 4 then 9 else 0xA) nulls
  | 0x32 => mkEntry tFixed 5 0 nulls false (if bit fl 0 then 4 + colFixedLen e0 / 2 else 4 + colFixedLen e0) 0 0
  | 0x40 => mkEntry tFixed tBool 0 (nulls && !bit fl 0) false (stArg0 st) 0 0
  | 0x41 => mkEntry tFixed (if bit fl 1 then 6 else tBool) 0 nulls false (stArg0 st) 0 0
  | 0x50 => plain 4 nulls
  | 0x51 => mkEntry tFixed (colElem e0) (colUnit e0) (nulls && !bit fl 2) (colElemNullable e0) (stArg0 st) 0 0
  | 0x52 => plain 7 nulls
  | _ => plain tBool nulls

/-- Whether a step's operation exists and takes a column of this type. -/
def stepTakes (st e0 : List Byte) : Bool :=
  let t := colType e0
  let op := stOp st
  if op = 1 then isNumeric t || t == tBool || t == tTime
  else if op = 2 ∨ op = 0x20 then isNumeric t || t == tTime
  else if op = 3 ∨ op = 4 ∨ op = 5 then t == tBool
  else if op = 6 then true
  else if op = 0x10 ∨ op = 0x11 then !isList t
  else if op = 0x21 then isFixedType t
  else if op = 0x30 ∨ op = 0x31 then isNumeric t
  else if op = 0x32 then
    t == tFixed && (colElem e0 == 0xB || colElem e0 == 9 || colElem e0 == 0xA) && 8 ≤ colFixedLen e0 && colFixedLen e0 ≤ 1024 &&
      !colElemNullable e0 && (!bit (stFlags st) 0 || colFixedLen e0 % 2 == 0)
  else if op = 0x40 then isInt t
  else if op = 0x41 then t == tList && isInt (colElem e0)
  else if op = 0x50 then t == tTime
  else (op == 0x51 || op == 0x52) && isList t

/-- Whether a step's FLAGS hold no reserved bit or value. -/
def stepFlagsOk (st : List Byte) : Bool :=
  let f := stFlags st
  match stOp st with
  | 0x01 => f < 16 && f % 8 < 6
  | 0x10 => f ≤ 4
  | 0x11 => f < 2
  | 0x21 => f < 2
  | 0x30 => f < 8 && (f < 4 || f % 4 == 1)
  | 0x31 => f < 16 && f % 8 < 6
  | 0x32 => f < 2
  | 0x40 => f < 2
  | 0x41 => f == 0 || f == 2
  | 0x50 => f < 2
  | 0x51 => f < 8
  | _ => f == 0

/-- Whether a step's arguments keep to R264 to R270, and unused ones are zero. bounds holds a BUCKET step's array where it could be read. -/
def stepArgsOk (st e0 : List Byte) (bounds : Option (List Byte)) : Bool :=
  let t := colType e0
  let a := stArg0 st
  let b := stArg1 st
  let c := stArg2 st
  let fits := fun (w v : Nat) => decide (v < 2 ^ w)
  match stOp st with
  | 0x01 => (if bit (stFlags st) 3 then a == 0 else fits (typeBits t) a) && b == 0 && c == 0
  | 0x02 => fits (typeBits t) a && fits (typeBits t) b && c == 0
  | 0x10 => c == 0 && (stFlags st == 3 || b == 0)
  | 0x11 => c < 2 ^ 32
  | 0x20 => c == 0 && (match bounds with
      | none => true
      | some x => boundsOk t (boundVals t b x))
  | 0x21 => c == 0 && a / 2 ^ 40 == 0 && bits a 38 32 ≤ 120
  | 0x30 =>
    c == 0 && (match stFlags st % 4 with
      | 0 => a < 2 ^ 32 && b < 2 ^ 32 && posFinite b
      | 1 => a < 2 ^ 32 && b < 2 ^ 32 && posFinite (fp32.sub b a).val
      | 2 => a == 0 && b == 0
      | _ => a < 2 ^ 32 && b < 2 ^ 32 && fp32.le a b)
  | 0x31 =>
    c == 0 && (if stFlags st % 8 ≤ 1 then
        a < 2 ^ 32 && b < 2 ^ 32 && posFinite a &&
          (let z := signed 32 b
           if stFlags st % 8 = 0 then decide (-128 ≤ z ∧ z ≤ 127) else decide (0 ≤ z ∧ z ≤ 255))
      else a == 0 && b == 0)
  | 0x40 => b == 0 && c == 0
  | 0x41 => b == 0 && c == 0
  | 0x50 => c == 0 || b % c == 0
  | 0x51 => fits (typeBits (colElem e0)) b && c == 0
  | _ => a == 0 && b == 0 && c == 0

/-- Whether a step's arguments keep to the ranges of R261. -/
def stepRangeOk (st : List Byte) : Bool :=
  match stOp st with
  | 0x11 => stArg1 st ≤ 2 ^ 63
  | 0x20 => 1 ≤ stArg1 st && stArg1 st ≤ 65536
  | 0x40 => 1 ≤ stArg0 st && stArg0 st ≤ 65536
  | 0x41 => 1 ≤ stArg0 st && stArg0 st ≤ 65536
  | 0x50 => 0 < signed 64 (stArg1 st) && 0 < signed 64 (stArg2 st) && 1 ≤ windowN st && windowN st ≤ 65536
  | 0x51 => 1 ≤ stArg0 st && stArg0 st ≤ 4194304
  | _ => true

/-- What a check of the steps finds: the columns' entries, inputs first, and the first step with a bad encoding, type or argument, and with an argument out
of range. -/
structure StepsSeen where
  cols : List (List Byte)
  badArg : Option Nat
  badRange : Option Nat

/-- A step checked and its column added. -/
def seeStep (v : StepsSeen) (k : Nat) (st : List Byte) (bounds : Option (List Byte)) : StepsSeen :=
  let reads := stepReads st
  let known := reads.all (fun c => c < v.cols.length) && !reads.isEmpty
  let e0 := nth v.cols [] (stIn0 st)
  let e1 := nth v.cols [] (stIn1 st)
  let nulls := reads.any (fun c => colNullable (nth v.cols [] c))
  let e := stepEntry st e0 nulls
  let two := decide (stOp st = 1 ∧ bit (stFlags st) 3 = true) || stOp st == 3 || stOp st == 4
  let in1Ok := if two then colType e1 == colType e0 && colUnit e1 == colUnit e0 else stOp st == 0x11 || stIn1 st == 0xFFFF
  let ok := known && stepTakes st e0 && stepFlagsOk st && in1Ok && stOut st == colType e && stepArgsOk st e0 bounds &&
    (stOp st != 0x11 || reads.all (fun c => !isList (colType (nth v.cols [] c))))
  { cols := v.cols ++ [e]
    badArg := v.badArg.or (if ok then none else some k)
    badRange := v.badRange.or (if stepRangeOk st then none else some k) }

/-! Values of steps. -/

/-- The bytes of a cell's value. -/
def cellVal (c : Cell) : List Byte :=
  match c with
  | .val b => b
  | _ => []

/-- A cell's value as a number of bits. -/
def cellNat (c : Cell) : Nat := le (cellVal c)

/-- A BOOL cell. -/
def boolCell (b : Bool) : Cell := .val (leb 1 (b2n b))

/-- Whether a BOOL cell is true. -/
def isTrue (c : Cell) : Bool := c != .null && cellNat c == 1

/-- A comparison's condition. -/
def condHolds (cond : Nat) (o : Option Ordering) : Bool :=
  match o with
  | none => cond == 1
  | some o => match cond with
    | 0 => o == .eq
    | 1 => o != .eq
    | 2 => o == .lt
    | 3 => o != .gt
    | 4 => o == .gt
    | _ => o != .lt

/-- The key bits of a value under ORDERED (R265). -/
def orderedBits (t : Nat) (b : List Byte) : Nat :=
  let w := typeBits t
  let v := le (hashBytes t b)
  if isFloat t then if bit v (w - 1) then 2 ^ w - 1 - v else v + 2 ^ (w - 1)
  else if isSigned t || t == tTime then Nat.xor v (2 ^ (w - 1)) else v

/-- The key of a GAZBUCKET step (R265). -/
def gazStepKey (st : List Byte) (t : Nat) (c : Cell) : Nat :=
  (if bit (stFlags st) 0 then orderedBits t (cellVal c) else cellNat c) + stArg1 st * 2 ^ 64

/-- NORM (R266). -/
def normValue (st : List Byte) (t v : Nat) : Nat :=
  let x := toFp32 t v
  let a := stArg0 st
  let b := stArg1 st
  match stFlags st % 4 with
  | 0 => (fp32.div (fp32.sub x a).val b).val
  | 1 =>
    let y := (fp32.div (fp32.sub x a).val (fp32.sub b a).val).val
    if !bit (stFlags st) 2 || fp32.isNan y then y else fp32.minmax false (fp32.minmax true y 0) 0x3F80_0000
  | 2 => (fp32.log1p x).val
  | _ => if fp32.isNan x then fp32.nan else fp32.minmax false (fp32.minmax true x a) b

/-- QUANT (R267): the pattern and whether it counts an event. -/
def quantValue (st : List Byte) (t v : Nat) : Nat × Bool :=
  let m := stFlags st % 8
  if m ≤ 1 then
    let q := signed 32 (cvtToInt fp32 32 .near (fp32.div (toFp32 t v) (stArg0 st)).val).val + signed 32 (stArg1 st)
    let lo : Int := if m = 0 then -128 else 0
    let hi : Int := if m = 0 then 127 else 255
    let r := max lo (min hi q)
    (unsigned 8 r, r != q || valNan t v)
  else
    let dst := if m = 2 then e4m3 else if m = 3 then e5m2 else if m = 4 then fp16 else bf16
    let sat := bit (stFlags st) 3
    ((if isFloat t then cvtFloat (typeFmt t) dst .near sat v else cvtFromInt dst .near sat (intOf t v)).val, false)

/-- Codes packed, two to a byte with FOUR_BIT (R142). -/
def packCodes (four : Bool) : List Nat → List Byte
  | [] => []
  | [a] => [BitVec.ofNat 8 a]
  | a :: b :: t => if four then BitVec.ofNat 8 (a + 16 * b) :: packCodes four t else BitVec.ofNat 8 a :: packCodes four (b :: t)

/-- QUANT_ROW (R268): the row's bytes and whether it has no finite value. -/
def quantRowValue (four : Bool) (elem : Nat) (es : List (Option (List Byte))) : List Byte × Bool :=
  let xs := es.map (fun e => toFp32 elem (le (e.getD [])))
  let r := quantRow (if four then 4 else 8) xs (fun _ => none)
  (leb 2 r.1 ++ leb 2 r.2.1 ++ packCodes four r.2.2.1, xs.all (fun x => match fp32.decode x with
    | .fin _ _ _ => false
    | _ => true))

/-- A list of W flags or counts with the given indices set. -/
def multiHot (W : Nat) (counts : Bool) (idx : List Nat) : Cell :=
  .list ((List.range W).map (fun v =>
    let n := (idx.filter (· == v)).length
    some (if counts then leb 2 (min n 65535) else leb 1 (b2n (n != 0)))))

/-- WINDOW (R270); none where the result lies outside INT64. -/
def windowValue (st : List Byte) (v : Nat) : Option Nat :=
  let w := (signed 64 v - signed 64 (stArg0 st)).fdiv (stArg2 st)
  let r := if bit (stFlags st) 0 then w - windowN st + 1 else w
  if -(2 ^ 63) ≤ r ∧ r < 2 ^ 63 then some (unsigned 64 r) else none

/-- TRUNCPAD (R271). -/
def truncPad (st e0 : List Byte) (es : List (Option (List Byte))) : List (Option (List Byte)) :=
  let n := stArg0 st
  let kept := if bit (stFlags st) 0 then lastN n es else es.take n
  let pad := List.replicate (n - kept.length) (some (leb (typeBytes (colElem e0)) (stArg1 st)))
  if bit (stFlags st) 1 then pad ++ kept else kept ++ pad

/-- CROSS (R263). -/
def crossValue (st : List Byte) (fields : List (List Byte)) : Nat :=
  match fields with
  | [] => 0
  | v :: t =>
    let h := (t.foldl gCombine (gHash v (BitVec.ofNat 64 (stArg0 st)))).toNat
    if stArg1 st = 0 then h else h % stArg1 st

/-- The value of a step on a row, and the events it counts (R262 to R271): cols gives the entries of the columns, row their cells, gaz
the BUCKETIZE result of a GAZBUCKET step. -/
def stepValue (st : List Byte) (bounds : List Byte) (cols : List (List Byte)) (row : List Cell) (gaz : Nat) : Cell × Nat :=
  let e0 := nth cols [] (stIn0 st)
  let t := colType e0
  let c0 := nth row .null (stIn0 st)
  let c1 := nth row .null (stIn1 st)
  let v0 := cellNat c0
  let fl := stFlags st
  let op := stOp st
  if op = 0x06 then (boolCell (c0 == .null), 0)
  else if op = 0x03 then
    ((if (c0 != .null && !isTrue c0) || (c1 != .null && !isTrue c1) then boolCell false
      else if isTrue c0 && isTrue c1 then boolCell true else .null), 0)
  else if op = 0x04 then
    ((if isTrue c0 || isTrue c1 then boolCell true else if c0 != .null && c1 != .null then boolCell false else .null), 0)
  else if op = 0x11 ∧ bit fl 0 then
    (.val (leb 8 (crossValue st ((crossCols st).map (fun c => match nth row .null c with
      | .null => []
      | x => hashBytes (colType (nth cols [] c)) (cellVal x))))), 0)
  else if op = 0x40 ∧ bit fl 0 ∧ c0 = .null then (multiHot (stArg0 st) false [], 0)
  else if op = 0x51 ∧ bit fl 2 ∧ c0 = .null then (.list (truncPad st e0 []), 0)
  else if (stepReads st).any (fun c => nth row .null c == .null) then (.null, 0)
  else match op with
    | 0x01 => (boolCell (condHolds (fl % 8) (valCmp t v0 (if bit fl 3 then cellNat c1 else stArg0 st))), 0)
    | 0x02 =>
      (boolCell (condHolds 5 (valCmp t v0 (stArg0 st)) && condHolds 2 (valCmp t v0 (stArg1 st)) && !valNan t v0), 0)
    | 0x05 => (boolCell (!isTrue c0), 0)
    | 0x10 => (.val (leb 8 (hashFn (fl % 8) (hashBytes t (cellVal c0)) (BitVec.ofNat 64 (stArg0 st)) (BitVec.ofNat 64 (stArg1 st))).toNat), 0)
    | 0x11 => (.val (leb 8 (crossValue st ((crossCols st).map (fun c => hashBytes (colType (nth cols [] c)) (cellVal (nth row .null c)))))), 0)
    | 0x20 =>
      if valNan t v0 then (.val (leb 4 (stArg1 st + 1)), 1)
      else (.val (leb 4 ((boundVals t (stArg1 st) bounds).filter (fun b => condHolds 3 (valCmp t b v0))).length), 0)
    | 0x21 => (.val (leb 8 gaz), 0)
    | 0x30 => (.val (leb 4 (normValue st t v0)), 0)
    | 0x31 =>
      let q := quantValue st t v0
      (.val (leb (if fl % 8 ≤ 3 then 1 else 2) q.1), b2n q.2)
    | 0x32 =>
      let q := quantRowValue (bit fl 0) (colElem e0) (cellElems e0 c0)
      (.list (q.1.map (fun b => some [b])), b2n q.2)
    | 0x40 =>
      let v := intOf t v0
      if 0 ≤ v ∧ v < stArg0 st then (multiHot (stArg0 st) false [v.toNat], 0) else (multiHot (stArg0 st) false [], 1)
    | 0x41 =>
      let es := cellElems e0 c0
      let good := es.filterMap (fun e => match e with
        | none => none
        | some b =>
          let v := intOf (colElem e0) (le b)
          if 0 ≤ v ∧ v < stArg0 st then some v.toNat else none)
      (multiHot (stArg0 st) (bit fl 1) good, es.length - good.length)
    | 0x50 => match windowValue st v0 with
      | none => (.null, 1)
      | some w => (.val (leb 8 w), 0)
    | 0x51 => (.list (truncPad st e0 (cellElems e0 c0)), 0)
    | _ => (.val (leb 4 (cellElems e0 c0).length), 0)

end Sys2Proof.Machine
end

