-- ==== Sys2Proof/Machine/Gaz.lean ====
section
/-!
DEFINITION. The Gazetteer: entries and sets (R344 to R346), searches (R347 to R353), loading and updating (R354 to R359), shadows and scrubbing
(R360 to R363), throttle and power limits (R365 to R368), bank service (R370 to R372).
-/
namespace Sys2Proof.Machine
open Sys2Proof

/-! Banks and sets. -/

/-- Entries of a bank, of a segment. -/
def bankEntries : Nat := 262144

/-- A bank after reset (R373). -/
def GazBank.init : GazBank :=
  ⟨.active, [], [], [], [], [], [], [], [], [], 0, 1000, [], 0, false, false, [], [], 0, 0, 0, 0, 0, 0, 0⟩

def State.gazBank (s : State) (b : Nat) : GazBank := s.gaz.banks.at GazBank.init b
def State.modBank (s : State) (b : Nat) (f : GazBank → GazBank) : State :=
  { s with gaz := { s.gaz with banks := s.gaz.banks.upd GazBank.init b (f (s.gazBank b)) } }

/-- The set that a SET_ID names (R346). -/
def State.gazSet (s : State) (id : Nat) : Option GazSet :=
  match s.gaz.sets.find (bits id 10 0) with
  | none => none
  | some g => if bits id 15 11 = 0 ∧ bits id 31 28 = 0 ∧ g.gen = bits id 27 16 then some g else none

/-- The SET_ID of an index. -/
def setId (g : GazSet) (idx : Nat) : Nat := g.gen * 0x1_0000 + idx

/-- Entries of a set. -/
def GazSet.entries (g : GazSet) : Nat := 1024 * g.segs
/-- The first bank entry of a set. -/
def GazSet.base (g : GazSet) : Nat := 1024 * g.first

/-- A malformed entry record (R344). -/
def recMalformed (r : Nat) : Bool :=
  bits r 263 262 != 0 || r / 2 ^ 273 != 0 || Nat.land (r % 2 ^ 128) (2 ^ 128 - 1 - bits r 255 128) != 0

def recValid (r : Nat) : Bool := bit r 272
def recGroup (r : Nat) : Nat := bits r 261 256
def recTag (r : Nat) : Nat := bits r 271 264

/-! Searching (R347 to R351). -/

def ctlTagEn (c : Nat) : Bool := bit c 39
def ctlTagPos (c : Nat) : Nat := bits c 38 32

/-- Whether a segment with a pair takes part in a search (R348). -/
def takesPart (key ctl pair : Nat) : Bool :=
  !ctlTagEn ctl || Nat.land (Nat.xor (key / 2 ^ ctlTagPos ctl % 256) (pair % 256)) (pair / 256) == 0

/-- Whether an entry matches (R348). -/
def entryMatches (key ctl pair r : Nat) : Bool :=
  recValid r && Nat.land (Nat.xor (key % 2 ^ 128) (r % 2 ^ 128)) (bits r 255 128) == 0 &&
    (!ctlTagEn ctl || Nat.land (Nat.xor (key / 2 ^ ctlTagPos ctl % 256) (recTag r)) (pair / 256) == 0)

/-- The segments of a set that take part, and the groups of the entries that match. -/
def searchSet (k : GazBank) (g : GazSet) (key ctl : Nat) : Nat × List Nat :=
  let segs := (List.range g.segs).filter (fun i => takesPart key ctl (k.tags.at 0 (g.first + i)))
  let hits := (k.arr.filter (fun e => g.base ≤ e.1 && e.1 < g.base + g.entries &&
    takesPart key ctl (k.tags.at 0 (e.1 / 1024)) && entryMatches key ctl (k.tags.at 0 (e.1 / 1024)) e.2)).map (fun e => recGroup e.2)
  (segs.length, hits)

/-- The BUCKETIZE result of the groups that matched (R350). -/
def bucketize (hits : List Nat) : Nat :=
  match minBy id hits with
  | none => 0
  | some g =>
    let n := (hits.filter (· == g)).length
    g + 64 + 128 * b2n (hits.any (· != g)) + 256 * min n 255 + 2 ^ 16 * hits.length

/-- The result of a search of a kind: the count, the counts by group, or the BUCKETIZE result, with the search number (R349 to R351). -/
def searchResult (kind : Nat) (hits : List Nat) (seq : Nat) : List Nat :=
  if kind = 1 then (List.range 64).map (fun g => min 255 (hits.filter (· == g)).length)
  else [if kind = 0 then hits.length else bucketize hits, seq]

/-! Entry writes (R358). -/

/-- An entry written to both shadows and the array. -/
def GazBank.writeEntry (k : GazBank) (e r : Nat) : GazBank :=
  { k with
    arr := k.arr.upd 0 e r, sh0 := k.sh0.upd 0 e r, sh1 := k.sh1.upd 0 e r, seen := k.seen.upd 0 e k.seq
    writes := sat32 k.writes 1 }

/-- The sum of a writer's next entry: the record, or what stops it. -/
def writerNext (w : GazWriter) (s : State) : Except Err Nat × State :=
  match w.src with
  | .load _ _ rs => (.ok (nth rs 0 w.done), s)
  | .gupd _ ctx addr inval =>
    if inval then (.ok 0, s)
    else match Io.exec (memRead ctx (addr + 48 * w.done) 48) s with
      | (.error e, s') => (.error e, s')
      | (.ok b, s') => (if recMalformed (le b) then .error (errD stArg 0x0101) else .ok (le b), s')

/-- Whether a bank can write entries and let searches in. -/
def bankServes (s : State) (b : Nat) : Bool :=
  ((s.gazBank b).state == .active || (s.gazBank b).state == .moving) && s.active (unitGaz b)

/-- The writer that is not done, by its place in a bank, changed. -/
def State.modWriter (s : State) (b i : Nat) (f : GazWriter → GazWriter) : State :=
  s.modBank b (fun k => { k with writers := modNth k.writers i f })

/-- The operation of a GUPD ends and leaves its bank. -/
def endWriter (b i : Nat) (w : GazWriter) (e : Err) (s : State) : State :=
  let s1 := s.modBank b (fun k => { k with writers := k.writers.eraseIdx i })
  match w.src with
  | .gupd iss ctx _ inval =>
    s1.failOp iss ctx 7 (if inval then 0 else w.done + (if e.detail = 0x0101 then 1 else 0)) w.done e
  | .load sid rid _ => if e.status = stOk then s1.finish sid rid stOk [] else s1.finish sid rid e.status (errPayload e)

/-- A writer moved on by at most n entries: it stops at an error, which ends it. -/
def advanceWriter (b i : Nat) : Nat → State → State
  | 0, s => s
  | n + 1, s =>
    match (s.gazBank b).writers[i]? with
    | none => s
    | some w =>
      if w.done ≥ w.count then s
      else match s.gazSet w.set with
        | none => s
        | some g => match writerNext w s with
          | (.error e, s1) => endWriter b i w e s1
          | (.ok r, s1) =>
            advanceWriter b i n ((s1.modBank b (fun k => k.writeEntry (g.base + w.first + w.done) r)).modWriter b i
              (fun w => { w with done := w.done + 1 }))

/-- Every writer of a bank moved on by a number of entries that nothing fixes, as the bank takes writes and searches in the order they arrive
(R353). -/
def advanceAll (b : Nat) (s : State) : State :=
  (List.range (s.gazBank b).writers.length).foldl (fun a i =>
    advanceWriter b i ((a.draw).1 % (bankEntries + 1)) (a.draw).2) s

/-! Admission (R353, R365, R366). -/

/-- Admissions per bank and window at a throttle level; none for level 0 (R365). -/
def throttleLimit (s : State) : Option Nat :=
  let full := s.ctl.straps.toNat / 4 % 4 == 0
  match s.gaz.level with
  | 0 => none
  | 1 => some (if full then 2560 else 1638)
  | 2 => some (if full then 1280 else 819)
  | 3 => some (if full then 640 else 409)
  | _ => some (if full then 320 else 204)

/-- Whether the throttle, the power limiter, holds a search of a bank back. -/
def thermHolds (s : State) (b : Nat) : Bool :=
  match throttleLimit s with
  | none => false
  | some n => decide (n ≤ (s.gazBank b).admitted)
def powerHolds (s : State) : Bool := decide (s.gaz.windowLimit ≤ s.gaz.activations)

/-- A search admitted by a bank: its number, its activations and its result. -/
def admitSearch (g : GazSet) (kind key ctl : Nat) (s : State) : List Nat × State :=
  let s1 := advanceAll g.bank s
  let k := s1.gazBank g.bank
  let r := searchSet k g key ctl
  (searchResult kind r.2 (k.seq + 1),
    { s1.modBank g.bank (fun k => { k with seq := k.seq + 1, segAct := sat32 k.segAct r.1, admitted := k.admitted + 1 }) with
      gaz := { (s1.modBank g.bank (fun k => { k with seq := k.seq + 1, segAct := sat32 k.segAct r.1, admitted := k.admitted + 1 })).gaz with
        activations := s1.gaz.activations + r.1 } })

/-- Whether a limit holds a bank's searches back, noted for the window in hand where it does (R365, R366, R367). -/
def limitsHold (b : Nat) (s : State) : Bool × State :=
  let th := thermHolds s b
  let pw := powerHolds s
  (th || pw, if th || pw then s.modBank b (fun k => { k with thermHeld := k.thermHeld || th, capHeld := k.capHeld || pw }) else s)

/-- A search that has reached the head of a bank admitted where it may be (R353): what becomes of it with the search's result, its control word being ctl;
gone is what becomes of it where its set is gone. -/
def admitAt (b : Nat) (w : GazWait) (kind key ctl : Nat) (rest s : State) (gone : State) (give : List Nat → State → State) : Bool × State :=
  if !bankServes s b then (false, s)
  else match s.gazSet (ctl % 2 ^ 32) with
    | none => (true, gone)
    | some g =>
      if g.bank ≠ b then (true, rest.modBank g.bank (fun k => { k with waiting := k.waiting ++ [w] }))
      else
        let h := limitsHold b s
        if h.1 then (false, h.2)
        else
          let r := admitSearch g kind key ctl rest
          (true, give r.1 r.2)

/-- A search that waits at the head of a bank, admitted if it may be: whether the bank goes on to the next. -/
def admitHead (b : Nat) (s : State) : Bool × State :=
  match (s.gazBank b).waiting with
  | [] => (false, s)
  | w :: t =>
    let rest := s.modBank b (fun k => { k with waiting := t })
    match w with
    | .job e key ctl => match (s.colEng e).run with
      | none => (true, rest)
      | some _ => admitAt b w 2 key ctl rest s rest (fun r s1 =>
          s1.setCol e { s1.colEng e with run := (s1.colEng e).run.map (fun j => { j with found := j.found ++ [nth r 0 0], asking := false }) })
    | .pod thread slot epoch =>
      let th := s.thread thread
      match nth th.slots none slot with
      | none => (true, rest)
      | some x => match x.op with
        | .gaz kind d e key ctl none =>
          if th.epoch ≠ epoch then (true, rest)
          else admitAt b w kind key ctl rest s (rest.fault thread x.pc 0 (fErr stState 7)) (fun r s1 =>
            s1.modThread thread (fun th => { th with slots := th.slots.set slot (some { x with op := .gaz kind d e key ctl (some r) }) }))
        | _ => (true, rest)

/-- A bank admits what waits at it as far as it may, at most n searches. -/
def drainBank (b : Nat) : Nat → State → State
  | 0, s => s
  | n + 1, s => match admitHead b s with
    | (true, s1) => drainBank b n s1
    | (false, s1) => s1

/-- Every bank admits what it may. -/
def drainBanks (s : State) : State :=
  (List.range 8).foldl (fun a b => drainBank b ((s.gaz.banks.vals.map (fun k => k.waiting.length)).sum + 1) a) s

/-! The GAZ instruction (R127, R352). -/

/-- The fault of a search's control word (R352). -/
def searchFault (s : State) (ctx kind ctl d : Nat) : Option Err :=
  if ctl / 2 ^ 41 ≠ 0 ∨ ctlTagPos ctl > 120 ∨ (bit ctl 40 ∧ (kind = 1 ∨ d % 2 = 1)) then some (fErr stArg 1)
  else match s.gazSet (ctl % 2 ^ 32) with
    | none => some (fErr stState 7)
    | some g => if g.ctx ≠ ctx then some (fErr stPerm 7) else none

/-- The key in V[A] (R127). -/
def gazKey (th : Thread) (a : Nat) : Nat :=
  (List.range 4).foldl (fun k i => k + (elem (th.rv a) i).toNat * 2 ^ (32 * i)) 0

/-- A search issued: it takes a load slot and arrives at its set's bank. -/
def gazSearch (kind : Nat) (t : Nat) (w : Insn) (s : State) : Issue :=
  let th := s.thread t
  let ctl := (th.rs (insB w)).toNat
  match searchFault s (s.ctxOf t) kind ctl (insD w) with
  | some e => .fault e 0 s
  | none => match th.freeSlot with
    | none => .stay (s.block t .loadSlot)
    | some k =>
      let op := SlotOp.gaz kind (insD w) (if bit ctl 40 then insD w + 1 else 0) (gazKey th (insA w)) ctl none
      let b := ((s.gazSet (ctl % 2 ^ 32)).map GazSet.bank).getD 0
      let s1 := s.modThread t (fun th =>
        let th := if bit ctl 40 then th.overwrite [rS (insD w + 1)] th.nextOrder else th
        { th with slots := th.slots.set k (some ⟨op, 0, th.nextOrder, th.pc⟩), nextOrder := th.nextOrder + 1 })
      .next (drainBank b ((s.gazBank b).waiting.length + 2) (s1.modBank b (fun x => { x with waiting := x.waiting ++ [.pod t k th.epoch] })))

/-- The row of a search function; GSRCH_T takes the reserved functions. -/
def rowSearch (kind : Nat) : Row where
  mine := fun w => isMajor 0x3C w && (insF w == kind || (kind == 0 && insF w ≥ 4))
  ok := fun w => insF w ≤ 3 && insT w == 0 && vOk (insA w) && (kind != 1 || vOk (insD w))
  reads := fun w => [rV (insA w), rS (insB w)]
  writes := fun w => if kind = 1 then [rV (insD w)] else [rS (insD w)]
  run := gazSearch kind

/-! GUPD (R357 to R359). -/

/-- The failures of a GUPD's descriptor in table order (R359). -/
def gupdFails (s : State) (ctx addr : Nat) (d : List Byte) : List (Bool × Err) :=
  let g := s.gazSet (fld d 0 4)
  let first := fld d 4 4
  let count := fld d 8 4
  let inval := bit (fld d 0xC 4) 0
  [ fieldErr stArg 1 ([(fld d 0xC 4 / 2 != 0, 0xC), (inval && fld d 0x10 8 != 0, 0x10)] ++ reservedBytes d [(0x18, 8)]),
    fieldErr stRange 2 [(decide (count < 1 ∨ count > bankEntries ∨ (g.map (fun g => decide (first + count > g.entries))).getD false = true), 8)],
    fieldErr stAlign 5 [(!inval && fld d 0x10 8 % 16 != 0, 0x10), (addr % 32 != 0, 0xFFFF)],
    fieldErr stState 7 [(g.isNone, 0)],
    fieldErr stPerm 7 [((g.map (fun g => g.ctx != ctx)).getD false, 0)] ]

/-- A GUPD checked; its entry writes join those of the set's bank. -/
def gupdIssue (iss : Issuer) (ctx addr : Nat) (s : State) : State :=
  s.withDesc iss ctx addr 32 7 (fun d s =>
    s.checkOp iss ctx 7 1 (gupdFails s ctx addr d) (fun s =>
      match s.gazSet (fld d 0 4) with
      | none => s
      | some g => s.modBank g.bank (fun k => { k with
          writers := k.writers ++ [⟨fld d 0 4, fld d 4 4, fld d 8 4, 0, .gupd iss ctx (fld d 0x10 8) (bit (fld d 0xC 4) 0)⟩] })))

def rowGupd : Row where
  mine := fun w => isMajor 0x3C w && insF w == 3
  ok := fun w => insT w == 0
  reads := fun w => [rS (insA w), rS (insB w)]
  writes := fun w => [rS (insD w)]
  run := fun t w s =>
    let th := s.thread t
    let ctx := s.ctxOf t
    asyncIssue t w (th.rs (insB w)).toNat 7 s (fun iss s => gupdIssue iss ctx (th.rs (insA w)).toNat s)

/-- Whether a writer is a thread's operation with a tag. -/
def GazWriter.isOf (w : GazWriter) (t k : Nat) : Bool :=
  match w.src with
  | .gupd (.pod t' k' _ _) _ _ _ => t' == t && k' == k
  | _ => false

/-- A bank's writer run to its end. -/
def finishWriter (b i : Nat) (s : State) : State :=
  match (s.gazBank b).writers[i]? with
  | none => s
  | some w =>
    let s1 := advanceWriter b i (w.count - w.done) s
    match (s1.gazBank b).writers[i]? with
    | none => s1
    | some x => if x.src = w.src ∧ x.done ≥ x.count then endWriter b i x (err0 stOk) s1 else s1

/-- GUPD_END: the update of a thread's tag writes its last entry and ends. -/
def gupdEnd (t k : Nat) (s : State) : State :=
  match (List.range 8).findSome? (fun b => ((s.gazBank b).writers.findIdx? (fun w => w.isOf t k)).map (fun i => (b, i))) with
  | none => s
  | some (b, i) => if bankServes s b && !s.memFrozen then finishWriter b i s else s

/-! GAZ_LOAD (R354 to R356). -/

/-- The segments of a bank that no set holds. -/
def freeSegs (s : State) (b : Nat) : List Nat :=
  (List.range 256).filter (fun i => s.gaz.sets.vals.all (fun g => g.bank != b || i < g.first || g.first + g.segs ≤ i))

/-- The lowest run of n free segments of a bank. -/
def freeRun (s : State) (b n : Nat) : Option Nat :=
  let f := freeSegs s b
  (List.range (257 - n)).find? (fun a => (List.range n).all (fun i => f.contains (a + i)))

/-- The bank and run that a CREATE takes: the named bank's, or those of the ACTIVE bank with the most free segments among those with a run. -/
def createRun (s : State) (bank n : Nat) : Option (Nat × Nat) :=
  let banks := if bank = 0xFF then (List.range 8).filter (fun b => (s.gazBank b).state == .active) else [bank]
  let cands := banks.filterMap (fun b => (freeRun s b n).map (fun a => (b, a)))
  minBy (fun c => 256 - (freeSegs s c.1).length) cands

/-- Every entry of a run of segments counts as written now (R363). -/
def GazBank.touch (k : GazBank) (first segs : Nat) : GazBank :=
  { k with
    seen := k.seen.keep (fun e _ => !(1024 * first ≤ e && e < 1024 * (first + segs)))
    seenSeg := (List.range segs).foldl (fun t i => t.upd 0 (first + i) k.seq) k.seenSeg }

/-- Entries and pairs of a run of segments cleared in array and shadows; no entry writes are counted for it (DESIGN CHOICE, see log entry 78). -/
def GazBank.clear (k : GazBank) (first segs : Nat) : GazBank :=
  let out := fun (t : Tbl Nat) (lo n : Nat) => t.keep (fun e _ => !(lo ≤ e && e < lo + n))
  let k := k.touch first segs
  { k with
    arr := out k.arr (1024 * first) (1024 * segs), sh0 := out k.sh0 (1024 * first) (1024 * segs)
    sh1 := out k.sh1 (1024 * first) (1024 * segs), tags := out k.tags first segs, tags0 := out k.tags0 first segs
    tags1 := out k.tags1 first segs }

/-- A set destroyed: its segments and its INDEX are free, its generation moves on. -/
def dropSet (idx : Nat) (s : State) : State :=
  match s.gaz.sets.find idx with
  | none => s
  | some g =>
    let s1 := s.modBank g.bank (fun k => k.clear g.first g.segs)
    { s1 with gaz := { s1.gaz with sets := s1.gaz.sets.del idx, gens := s1.gaz.gens.put idx ((g.gen + 1) % 4096) } }

/-- Whether a column job names a set in a GAZBUCKET step (R265). -/
def ColJob.namesSet (j : ColJob) (id : Nat) : Bool :=
  (List.range (fld j.desc 4 2)).any (fun k => fld j.steps (32 * k) 1 == 0x21 && fld j.steps (32 * k + 8) 4 == id)

/-- Every column job that has not ended. -/
def State.colJobs (s : State) : List ColJob :=
  s.units.column.vals.flatMap (fun e => e.queue ++ e.run.toList) ++ s.units.susp.vals.filterMap (fun x => match x.job with
    | .column _ j => some j
    | _ => none)

/-- Whether a set is in use by a job or a GUPD that has not ended. -/
def setBusy (s : State) (id : Nat) : Bool :=
  s.colJobs.any (fun j => j.namesSet id) || s.gaz.banks.vals.any (fun k => k.writers.any (fun w => w.set == id && (match w.src with
    | .gupd _ _ _ _ => true
    | .load _ _ _ => false)))

/-- The failures of GAZ_LOAD in table order (R356). -/
def gazLoadFails (s : State) (ctx : Nat) (p : List Byte) : List (Bool × Err) :=
  let act := fld p 0 1
  let bank := fld p 1 1
  let segs := fld p 2 2
  let id := fld p 4 4
  let first := fld p 8 4
  let count := fld p 0xC 4
  let src := fld p 0x10 8
  let g := s.gazSet id
  let create := act == 0
  let write := act == 1
  let tags := act == 2
  let srcLen := if write then 48 * count else 2 * count
  let recs := if write && count ≤ bankEntries then (s.peek ctx src (48 * count)).getD [] else []
  [ fieldErr stArg 0 ([(decide (act > 3), 0), (!create && bank != 0, 1), (!create && segs != 0, 2), (create && id != 0, 4),
        (!write && !tags && first != 0, 8), (!write && !tags && count != 0, 0xC), (!write && !tags && src != 0, 0x10)]
      ++ reservedBytes p [(0x18, 8)]),
    (write && (chunks48 recs).any (fun r => recMalformed (le r)), errD stArg 0x0101),
    fieldErr stRange 0 [(create && bank > 7 && bank != 0xFF, 1), (create && (segs < 1 || segs > 256), 2),
      (write && (match g with
        | none => false
        | some g => decide (first + count > g.entries)), 8), (tags && (match g with
        | none => false
        | some g => decide (first + count > g.segs)), 8),
      (write && (count < 1 || count > bankEntries), 0xC), (tags && (count < 1 || count > 256), 0xC)],
    fieldErr stAlign 0 [((write && src % 16 != 0) || (tags && src % 2 != 0), 0x10)],
    (match if write || tags then rangesErr s ctx [(src, srcLen, .r)] else none with
      | none => (false, err0 stXlate)
      | some e => (true, err0 e.status)),
    fieldErr stPerm 0 [((g.map (fun g => g.ctx != ctx)).getD false, 4)],
    fieldErr stState 0 [(create && bank ≤ 7 && (s.gazBank bank).state != .active, 1), (!create && g.isNone, 4), (act == 3 && setBusy s id, 4)],
    (create && ((createRun s bank segs).isNone || s.gaz.sets.length ≥ 2048), err0 stLimit) ]
where
  /-- Records of 48 bytes. -/
  chunks48 (b : List Byte) : List (List Byte) := (List.range (b.length / 48)).map (fun i => sub b (48 * i) 48)

/-- The effect of GAZ_LOAD. -/
def gazLoadRun (p : List Byte) (sid rid ctx : Nat) (s : State) : Reply :=
  let id := fld p 4 4
  match fld p 0 1 with
  | 0 =>
    match createRun s (fld p 1 1) (fld p 2 2) with
    | none => .err (err0 stLimit) s
    | some (b, a) =>
      let r := s.fresh (fun k => (s.gaz.sets.find k).isSome) 2048 (s.gaz.sets.length + 1)
      let g : GazSet := ⟨s.gaz.gens.at 0 r.1, ctx, b, a, fld p 2 2⟩
      let s1 := r.2.modBank b (fun k => k.clear a (fld p 2 2))
      .ok (leb 4 (setId g r.1) ++ leb 1 b ++ zeros 1 ++ leb 2 a)
        { s1 with gaz := { s1.gaz with sets := s1.gaz.sets.put r.1 g } }
  | 1 =>
    match s.gazSet id, Io.exec (memRead ctx (fld p 0x10 8) (48 * fld p 0xC 4)) s with
    | some g, (.ok b, s1) =>
      let rs := (List.range (fld p 0xC 4)).map (fun i => le (sub b (48 * i) 48))
      .wait (.gaz g.bank) (s1.modBank g.bank (fun k => { k with
        writers := k.writers ++ [⟨id, fld p 8 4, fld p 0xC 4, 0, .load sid rid rs⟩] }))
    | _, (.error e, s1) => .err { e with detail := 0 } s1
    | none, (.ok _, s1) => .err (err0 stState) s1
  | 2 =>
    match s.gazSet id, Io.exec (memRead ctx (fld p 0x10 8) (2 * fld p 0xC 4)) s with
    | some g, (.ok b, s1) =>
      let put := fun (t : Tbl Nat) => (List.range (fld p 0xC 4)).foldl (fun t i => t.upd 0 (g.first + fld p 8 4 + i) (fld b (2 * i) 2)) t
      .ok [] (s1.modBank g.bank (fun k => { k with tags := put k.tags, tags0 := put k.tags0, tags1 := put k.tags1 }))
    | _, (.error e, s1) => .err { e with detail := 0 } s1
    | none, (.ok _, s1) => .err (err0 stState) s1
  | _ => .ok [] (dropSet (bits id 10 0) s)

/-- GAZ_LOAD. -/
def gazLoad : Handler := fun f sid x s =>
  if badLength f 32 then .err (err0 stArg) s
  else match firstFail (gazLoadFails s x.ctx f.payload) with
    | some e => .err e (if e.status == stXlate || (e.status == stPerm && e.arg == 0xFFFF) then s.countRefused x.ctx e.status else s)
    | none => gazLoadRun f.payload sid f.requestId.toNat x.ctx s

/-! Shadows and scrubbing (R360 to R363). -/

/-- The controllers that hold the two shadow copies of an entry (R360). -/
def shadowHomes (b e : Nat) : Nat × Nat :=
  let h := Config.shadowHome b e
  (h % 32, (h % 32 + 1 + h / 32 % 31) % 32)

/-- Whether the two shadow copies of an entry can be read: not while a controller that lost lock has not had its copies rebuilt (R360). -/
def shadowsReadable (s : State) (b e : Nat) : Bool × Bool :=
  let h := shadowHomes b e
  (!s.svc.lostControllers.contains h.1, !s.svc.lostControllers.contains h.2)

/-- What the majority of array and shadows decides (R362): the value all three take, and what it means for the array: nothing (0), restored (1),
lost (2). -/
def majority (a x y : Nat) (okX okY : Bool) : Nat × Nat :=
  match okX, okY with
  | false, false => (0, 2)
  | true, false => (x, b2n (x != a))
  | false, true => (y, b2n (y != a))
  | true, true => if x = y then (x, b2n (x != a)) else if a = x ∨ a = y then (a, 0) else (0, 2)

/-- The set that holds a segment of a bank. -/
def setOfSeg (s : State) (b seg : Nat) : Option (Nat × GazSet) :=
  s.gaz.sets.find? (fun e => e.2.bank == b && e.2.first ≤ seg && seg < e.2.first + e.2.segs)

/-- The first search number exposed to what an entry has become (R363). -/
def GazBank.exposedFrom (k : GazBank) (e : Nat) : Nat := max (k.seen.at 0 e) (k.seenSeg.at 0 (e / 1024)) + 1

/-- The report of an array entry restored or lost (R363), and its detector. -/
def reportEntry (b e how : Nat) (s : State) : State :=
  let k := s.gazBank b
  let own := setOfSeg s b (e / 1024)
  let data := (match own with
    | none => leb 4 0xFFFF_FFFF ++ zeros 4
    | some (i, g) => leb 4 (setId g i) ++ leb 4 (e - g.base)) ++ leb 1 b ++ zeros 3 ++ leb 4 e
      ++ leb 8 (k.exposedFrom e) ++ leb 8 k.seq ++ leb 4 (detId 9 (unitGaz b)) ++ zeros 12
  let inj := match s.armed 9 (unitGaz b) with
    | none => false
    | some i => i.addr == e
  let s1 := if inj then s.fireInjected 9 (unitGaz b) 0 else s.fire 9 (unitGaz b) 0 false
  s1.event (fun x => x.priv || (own.map (fun o => o.2.ctx == x.ctx)).getD false) 0 how data

/-- Whether the array and both shadows of an entry are readable and agree. -/
def entryAgrees (s : State) (b e : Nat) : Bool :=
  let k := s.gazBank b
  shadowsReadable s b e == (true, true) && k.sh0.at 0 e == k.arr.at 0 e && k.sh1.at 0 e == k.arr.at 0 e

/-- An entry settled by majority (R362): rewritten where the array or a readable shadow differs, which is an entry write, reported and counted where the array
did; a comparison in agreement is noted (R363). -/
def settleEntry (b e : Nat) (s : State) : State :=
  let k := s.gazBank b
  let ok := shadowsReadable s b e
  let r := majority (k.arr.at 0 e) (k.sh0.at 0 e) (k.sh1.at 0 e) ok.1 ok.2
  if r.2 = 0 then
    if entryAgrees s b e then s.modBank b (fun k => { k with seen := k.seen.upd 0 e k.seq })
    else if ok.1 && ok.2 then s.modBank b (fun k => k.writeEntry e r.1) else s
  else (reportEntry b e r.2 s).modBank b (fun k => { k.writeEntry e r.1 with scrubFix := sat32 k.scrubFix 1 })

/-- A segment's pair settled by majority. -/
def settlePair (b g : Nat) (s : State) : State :=
  let ok := shadowsReadable s b (1024 * g)
  s.modBank b (fun k =>
    let v := (majority (k.tags.at 0 g) (k.tags0.at 0 g) (k.tags1.at 0 g) ok.1 ok.2).1
    { k with tags := k.tags.upd 0 g v, tags0 := k.tags0.upd 0 g v, tags1 := k.tags1.upd 0 g v })

/-- Bits of an entry that have changed of themselves in the array (0) or a shadow (1, 2). -/
def upsetEntry (b e : Nat) (l : List (Fin 3 × Fin 384)) (s : State) : State :=
  let flip := fun (t : Tbl Nat) (i : Nat) => t.upd 0 e (if bit (t.at 0 e) i then clearBit (t.at 0 e) i else setBit (t.at 0 e) i)
  l.foldl (fun a u => a.modBank b (fun k =>
    if u.1 = 0 then { k with arr := flip k.arr u.2 } else if u.1 = 1 then { k with sh0 := flip k.sh0 u.2 }
    else { k with sh1 := flip k.sh1 u.2 })) s

/-- An entry, or past the last entry the pair of a segment, settled. -/
def settleOne (b e : Nat) (s : State) : State := if e < bankEntries then settleEntry b e s else settlePair b (e - bankEntries) s

/-- Whether the scrubber finds an entry or a pair in agreement with its shadows. -/
def comparesWell (b e : Nat) (s : State) : Bool :=
  if e < bankEntries then entryAgrees s b e
  else
    let k := s.gazBank b
    let g := e - bankEntries
    k.tags0.at 0 g == k.tags.at 0 g && k.tags1.at 0 g == k.tags.at 0 g

/-- GAZ_SCRUB_COMPARE: the scrubber compares an entry of a bank, or past the last entry the pair of a segment, with its shadows (R361). Rewrites are
firmware's, and wait for the end of a handover's pause (R373). -/
def scrubCompare (b e : Nat) (l : List (Fin 3 × Fin 384)) (s : State) : State :=
  if !bankServes s b ∨ e ≥ bankEntries + 256 then s
  else
    let s0 := if e < bankEntries then upsetEntry b e l s else s
    let s1 := if s.fwReady || comparesWell b e s0 then settleOne b e s0 else s0.modBank b (fun k => { k with late := k.late ++ [e] })
    s1.modBank b (fun k =>
      let done := if k.scrubbed.contains e then k.scrubbed else e :: k.scrubbed
      if done.length ≥ bankEntries + 256 then { k with scrubbed := [], scrubPass := sat32 k.scrubPass 1 } else { k with scrubbed := done })

/-- The rewrites that waited for the end of a handover's pause (R373). -/
def settleLate (s : State) : State :=
  (List.range 8).foldl (fun a b =>
    ((a.gazBank b).late.foldl (fun a e => settleOne b e a) a).modBank b (fun k => { k with late := [] })) s

/-! Limits (R365, R366). -/

/-- Whether the limiter windows run: not while a bank is frozen (R373). -/
def windowsRun (s : State) : Bool := (List.range 8).all (fun b => !s.frozen (unitGaz b))

/-- The throttle level after a reading (R365). -/
def throttleLevel (level temp : Nat) : Nat :=
  let up := if temp ≥ 104 then 4 else if temp ≥ 101 then 3 else if temp ≥ 98 then 2 else if temp ≥ 95 then 1 else 0
  if up > level then up
  else if level > 0 ∧ temp < 90 + 3 * level then level - 1 else level

/-- GAZ_THROTTLE_WINDOW: a window ends; the level follows the Gazetteer sensor's last reading, each rise firing the thermal monitor (R573), and the banks'
admissions start anew. In Freeze the windows pause (R373). -/
def throttleWindow (s : State) : State :=
  let temp := (s.clk.temps[32]?).bind id
  let lvl := match temp with
    | none => s.gaz.level
    | some t => throttleLevel s.gaz.level t.toNat
  let s1 := { s with gaz := { s.gaz with
    level := lvl
    temp := (temp.map BitVec.toNat).getD s.gaz.temp
    banks := s.gaz.banks.mapV (fun k => { k with thermWin := sat32 k.thermWin (b2n k.thermHeld), thermHeld := false, admitted := 0 }) } }
  if windowsRun s then drainBanks (if lvl > s.gaz.level then s1.fire 0x0D 32 (0x10 + lvl) s.clk.gazInj else s1) else s

/-- GAZ_POWER_WINDOW: a window of the power limiter ends (R366, R367). In Freeze the windows pause. -/
def powerWindow (s : State) : State :=
  if windowsRun s then
    drainBanks { s with gaz := { s.gaz with
      activations := 0
      windowLimit := s.gaz.segLimit
      capHeld := s.gaz.banks.vals.any GazBank.capHeld
      banks := s.gaz.banks.mapV (fun k => { k with capWin := sat32 k.capWin (b2n k.capHeld), capHeld := false }) } }
  else s

/-! Bank service (R370 to R372). -/

/-- Destinations of sets, each chosen before any moves: the lowest ACTIVE other bank with a run, its lowest run. none where one has none. -/
def planMoves (b : Nat) : List (Nat × GazSet) → State → Option State
  | [], s => some s
  | (i, g) :: t, s =>
    match (List.range 8).findSome? (fun c =>
        if c ≠ b ∧ (s.gazBank c).state = .active then (freeRun s c g.segs).map (fun a => (c, a)) else none) with
    | none => none
    | some (c, a) => planMoves b t { s with gaz := { s.gaz with sets := s.gaz.sets.put i { g with bank := c, first := a } } }

/-- The sets of a bank. -/
def setsOf (s : State) (b : Nat) : List (Nat × GazSet) := s.gaz.sets.filter (fun e => e.2.bank == b)

/-- A set's entries and pairs, settled by their shadows, written to where the set now lies: an entry write for each of its entries. -/
def moveSet (old new : GazSet) (s : State) : State :=
  let k := s.gazBank old.bank
  let vals := k.sh0.filter (fun e => old.base ≤ e.1 && e.1 < old.base + old.entries)
  let prs := k.tags0.filter (fun e => old.first ≤ e.1 && e.1 < old.first + old.segs)
  let putE := fun (t : Tbl Nat) => vals.foldl (fun t e => t.upd 0 (e.1 - old.base + new.base) e.2) t
  let put := fun (t : Tbl Nat) => prs.foldl (fun t e => t.upd 0 (e.1 - old.first + new.first) e.2) t
  s.modBank new.bank (fun x =>
    let y := x.clear new.first new.segs
    { y with
      arr := putE y.arr, sh0 := putE y.sh0, sh1 := putE y.sh1, tags := put y.tags, tags0 := put y.tags0, tags1 := put y.tags1
      writes := sat32 y.writes old.entries })

/-- Every entry and pair of a bank that has something listed, or a shadow that cannot be read, settled by its shadows, and every entry then written from
them (R370): n entry writes are counted in all, those of the settling among them. -/
def settleBank (b n : Nat) (s : State) : State :=
  let k := s.gazBank b
  let lost := if s.svc.lostControllers.isEmpty then [] else (List.range bankEntries).filter (fun e => shadowsReadable s b e == (false, false))
  let es := (k.arr.keys ++ k.sh0.keys ++ k.sh1.keys ++ lost).eraseDups
  ((List.range 256).foldl (fun a g => settlePair b g a) (es.foldl (fun a e => settleEntry b e a) s)).modBank b (fun x =>
    if n = 0 then x else { x.touch 0 256 with writes := sat32 k.writes n })

/-- EVACUATE: every set of the bank settled, then moved; its writers go with it. -/
def evacuate (b : Nat) (s : State) : Option State :=
  let s0 := settleBank b 0 s
  let sets := setsOf s0 b
  match planMoves b sets s0 with
  | none => none
  | some s1 =>
    let s2 := sets.foldl (fun a e => match s1.gaz.sets.find e.1 with
      | none => a
      | some n => moveSet e.2 n a) s1
    let ws := (s2.gazBank b).writers
    let s3 := ws.foldl (fun a w => match a.gazSet w.set with
      | none => a
      | some g => a.modBank g.bank (fun k => { k with writers := k.writers ++ [w] })) s2
    some (s3.modBank b (fun k => { k.clear 0 256 with
      state := .moving, moved := (sets.map (fun e => e.2.entries)).sum, writers := [] }))

/-- The failures of GAZ_BANK_SERVICE in table order (R372). -/
def gazServiceFails (f : Frame) (s : State) : List (Bool × Err) :=
  let p := f.payload
  let b := fld p 0 1
  let act := fld p 1 1
  let ms := fld p 4 4
  let k := s.gazBank b
  [ (badLength f 8, err0 stArg),
    fieldErr stArg 0 ([(decide (act > 3), 1)] ++ reservedBytes p [(2, 2)] ++ [(act != 3 && ms != 0, 4)]),
    fieldErr stRange 0 [(decide (b > 7), 0), (act == 3 && (ms < 100 || ms > 60000), 4)],
    fieldErr stState 0 [((act ≤ 1 && k.state != .active) || (act == 2 && k.state != .outOfService) ||
      (act == 3 && k.state != .active && k.state != .outOfService), 0)],
    (act == 1 && (evacuate b s).isNone, err0 stLimit) ]

/-- GAZ_BANK_SERVICE. -/
def gazService : Handler := fun f _ _ s =>
  let p := f.payload
  let b := fld p 0 1
  Reply.check (gazServiceFails f s) s
    (match fld p 1 1 with
      | 0 => .wait (.gaz b) (s.modBank b (fun k => { k with state := .reloading }))
      | 1 => .wait (.gaz b) ((evacuate b s).getD s)
      | 2 => .wait (.gaz b) (s.modBank b (fun k => { k with state := .testing }))
      | _ => .ok (zeros 8) (s.modBank b (fun k => { k with scrubMs := fld p 4 4 })))

/-- A GAZ_LOAD WRITE or a bank service ends (R355, R370): the last entry is written, or the bank is in its new state and admits what waits. -/
def gazSettle (sid rid b : Nat) (s : State) : State :=
  match (s.gazBank b).writers.findIdx? (fun w => match w.src with
      | .load a c _ => a == sid && c == rid
      | .gupd _ _ _ _ => false) with
  | some i => if bankServes s b then finishWriter b i s else s
  | none =>
    let done := fun (s : State) (n : Nat) => drainBanks (s.finish sid rid stOk (leb 4 n ++ zeros 4))
    if !s.active (unitGaz b) then s
    else match (s.gazBank b).state with
      | .reloading =>
        done ((settleBank b bankEntries s).modBank b (fun k => { k with state := .active })) bankEntries
      | .moving => done (s.modBank b (fun k => { k with state := .outOfService })) (s.gazBank b).moved
      | .testing =>
        let s1 := ((s.draw).2).modBank b (fun k => k.clear 0 256)
        if (s.draw).1 % 2 = 0 then done (s1.modBank b (fun k => { k with state := .active })) 0
        else (s1.modBank b (fun k => { k with state := .outOfService })).finish sid rid stHw (errPayload (errD stHw 1))
      | _ => s

/-- A WRITE whose set has moved to another bank is found there. -/
def gazSettleAny (sid rid b : Nat) (s : State) : State :=
  match (List.range 8).find? (fun c => (s.gazBank c).writers.any (fun w => match w.src with
      | .load x y _ => x == sid && y == rid
      | .gupd _ _ _ _ => false)) with
  | some c => gazSettle sid rid c s
  | none => gazSettle sid rid b s

/-- A context's sets are destroyed with it, and what writes or waits on them ends (R204, R373). -/
def gazDropCtx (ctx : Nat) (s : State) : State :=
  let idx := (s.gaz.sets.filter (fun e => e.2.ctx == ctx)).map Prod.fst
  let mine := fun (w : GazWriter) => match s.gazSet w.set with
    | none => true
    | some g => g.ctx == ctx
  idx.foldl (fun a i => dropSet i a) { s with gaz := { s.gaz with banks := s.gaz.banks.mapV (fun k => { k with
    writers := k.writers.filter (fun w => !mine w) }) } }

/-! The rows. -/

def execGsrchT (t : Fin 8192) (w : Insn) (s : State) : Host.Outcome State Fault Refusal := .next ((rowSearch 0).issue t w s)
def execGsrchG (t : Fin 8192) (w : Insn) (s : State) : Host.Outcome State Fault Refusal := .next ((rowSearch 1).issue t w s)
def execGbkt (t : Fin 8192) (w : Insn) (s : State) : Host.Outcome State Fault Refusal := .next ((rowSearch 2).issue t w s)
def execGupd (t : Fin 8192) (w : Insn) (s : State) : Host.Outcome State Fault Refusal := .next (rowGupd.issue t w s)
def execGupdEnd (t : Fin 8192) (tag : Fin 8) (s : State) : Host.Outcome State Fault Refusal := .next (gupdEnd t tag s)
def execGazCreate (f : Frame) (s : State) : Host.Outcome State Fault Refusal := .next (rcpAction 0x0520 0 0 gazLoad f s)
def execGazWrite (f : Frame) (s : State) : Host.Outcome State Fault Refusal := .next (rcpAction 0x0520 0 1 gazLoad f s)
def execGazSegtags (f : Frame) (s : State) : Host.Outcome State Fault Refusal := .next (rcpAction 0x0520 0 2 gazLoad f s)
def execGazDestroy (f : Frame) (s : State) : Host.Outcome State Fault Refusal := .next (rcpAction 0x0520 0 3 gazLoad f s)
def execGazScrubCompare (b : Fin 8) (k : Nat) (upset : List (Fin 3 × Fin 384)) (s : State) : Host.Outcome State Fault Refusal :=
  .next (scrubCompare b k upset s)
def execGazThrottleWindow (s : State) : Host.Outcome State Fault Refusal := .next (throttleWindow s)
def execGazPowerWindow (s : State) : Host.Outcome State Fault Refusal := .next (powerWindow s)
def execGazReload (f : Frame) (s : State) : Host.Outcome State Fault Refusal := .next (rcpAction 0x0521 1 0 gazService f s)
def execGazEvacuate (f : Frame) (s : State) : Host.Outcome State Fault Refusal := .next (rcpAction 0x0521 1 1 gazService f s)
def execGazRestore (f : Frame) (s : State) : Host.Outcome State Fault Refusal := .next (rcpAction 0x0521 1 2 gazService f s)
def execGazScrubPeriod (f : Frame) (s : State) : Host.Outcome State Fault Refusal := .next (rcpAction 0x0521 1 3 gazService f s)

end Sys2Proof.Machine
end

