-- ==== Sys2Proof/Machine/Column.lean ====
section
/-!
DEFINITION. Column jobs (R259, R272 to R275, R290 to R292).
-/
namespace Sys2Proof.Machine
open Sys2Proof

def ColJob.stepCount (j : ColJob) : Nat := fld j.desc 4 2
def ColJob.stateAddr (j : ColJob) : Nat := fld j.desc 0x40 8
def ColJob.flow (j : ColJob) : Nat := fld j.desc 0x48 4

/-- The bytes of a Legend that a context owns or not, by handle. -/
def State.legendBytes (s : State) (h : Nat) : List Byte := ((s.units.legends.find h).map Legend.bytes).getD []
def State.legendForeign (s : State) (ctx h : Nat) : Bool := ((s.units.legends.find h).map (fun l => l.ctx != ctx)).getD false

/-! Checks (R273, R274), shared with join jobs where they are the same. -/

/-- The ranges of a column's buffers. -/
def bufRanges (rows : Nat) (e rec : List Byte) : List (Nat × Nat) :=
  let n := fld rec 0x28 8
  let elems := if typeBits (colElem e) = 0 then 0 else 8 * n / typeBits (colElem e)
  (if colNullable e then [(fld rec 0 8, ceilDiv rows 8)] else []) ++
    (if isVar (colType e) || colType e == tList then [(fld rec 8 8, 4 * (rows + 1))] else []) ++
    (if colElemNullable e then [(fld rec 0x10 8, ceilDiv elems 8)] else []) ++ [(fld rec 0x18 8, n)]

/-- The ranges of a batch's directory and buffers, as far as its directory can be read. -/
def batchRanges (s : State) (ctx addr : Nat) (leg : List Byte) : List (Nat × Nat) :=
  let n := legColumns leg
  match s.peek ctx addr (64 + 48 * n) with
  | none => [(addr, dirBytes n)]
  | some d => (addr, dirBytes n) :: ((legEntries leg).zipIdx).flatMap (fun p => bufRanges (fld d 8 4) p.1 (sub d (0x40 + 48 * p.2) 48))

/-- Whether a directory is not of its Legend (R274). -/
def dirBad (s : State) (ctx addr : Nat) (leg : List Byte) : Bool :=
  match s.peek ctx addr 64 with
  | none => false
  | some d => fld d 0 4 != 0x5441_4254 || fld d 4 2 != legColumns leg || fld d 0x18 8 != legSchema leg

/-- Whether an output column's entry matches the column it carries (R273). -/
def outMatches (o e : List Byte) : Bool :=
  colType o == colType e && colElem o == colElem e && colUnit o == colUnit e && colFixedLen o == colFixedLen e &&
    (colType e != tList || colMaxElems o ≥ colMaxElems e) && (!isVar (colType e) || colMaxBytes o ≥ colMaxBytes e) &&
    (!colElemNullable e || colElemNullable o) && (!colNullable e || colNullable o)

/-- What the check of a column job reads: its steps, its output map and its boundary arrays. -/
structure ColSeen where
  steps : List Byte
  map : List Byte
  bounds : List (Option (List Byte))
  boundRanges : List ((Nat × Nat) × Nat)
  seen : StepsSeen

def seeCol (s : State) (ctx : Nat) (d : List Byte) : ColSeen :=
  let n := min (fld d 4 2) 256
  let inLeg := s.legendBytes (fld d 8 8)
  let steps := (s.peek ctx (fld d 0x18 8) (32 * n)).getD []
  let map := (s.peek ctx (fld d 0x20 8) (2 * min (fld d 6 2) 1024)).getD []
  let z : StepsSeen := ⟨legEntries inLeg, none, none⟩
  let r := (List.range (steps.length / 32)).foldl
    (fun (a : StepsSeen × List (Option (List Byte)) × List ((Nat × Nat) × Nat)) k =>
      let st := stepAt steps k
      let w := typeBytes (colType (nth a.1.cols [] (stIn0 st)))
      let rg := if stOp st = 0x20 ∧ stArg1 st ≤ 65536 then [((stArg0 st, w * stArg1 st), k + 1)] else []
      let b := if rg.isEmpty then some [] else s.peek ctx (stArg0 st) (w * stArg1 st)
      (seeStep a.1 k st b, a.2.1 ++ [b], a.2.2 ++ rg)) (z, [], [])
  ⟨steps, map, r.2.1, r.2.2, r.1⟩

/-- The refused access of a column job's check, with the DETAIL of R274: the step of a boundary array, 0 of any other range. -/
def colRefused (s : State) (ctx : Nat) (d : List Byte) : Option Err :=
  let plain := fun (l : List (Nat × Nat × Need)) => l.map (fun r => (r, 0))
  accessErr s ctx (plain [(fld d 0x10 8, 64 + 48 * legColumns (s.legendBytes (fld d 8 8)), .r), (fld d 0x18 8, 32 * fld d 4 2, .r),
      (fld d 0x20 8, 2 * fld d 6 2, .r)]
    ++ (seeCol s ctx d).boundRanges.map (fun r => ((r.1.1, r.1.2, Need.r), r.2))
    ++ plain [(fld d 0x30 8, fld d 0x38 8, .w), (fld d 0x40 8, 256 + 8 * fld d 4 2, .w)])

/-- The failures of a column job in table order (R274). Where its step array cannot be read, a column of a step is known by its number alone. -/
def colFails (s : State) (ctx addr : Nat) (d : List Byte) : List (Bool × Err) :=
  let n := fld d 4 2
  let oc := fld d 6 2
  let inH := fld d 8 8; let outH := fld d 0x28 8
  let inA := fld d 0x10 8; let stA := fld d 0x18 8; let mapA := fld d 0x20 8
  let total := legColumns (s.legendBytes inH) + n
  let outA := fld d 0x30 8; let outL := fld d 0x38 8; let area := fld d 0x40 8
  let flow := fld d 0x48 4; let keep := fld d 0x4C 2; let rows := fld d 0x58 4
  let inLeg := s.legendBytes inH
  let outLeg := s.legendBytes outH
  let v := seeCol s ctx d
  let cols := v.seen.cols
  let badOut := (List.range (v.map.length / 2)).find? (fun j =>
    let c := fld v.map (2 * j) 2
    !(c < total) || (c < cols.length && !outLeg.isEmpty && !outMatches (legEntry outLeg j) (nth cols [] c)))
  let sets := (List.range (v.steps.length / 32)).filterMap (fun k =>
    if stOp (stepAt v.steps k) = 0x21 then some (k, s.gazSet (stArg0 (stepAt v.steps k) % 2 ^ 32)) else none)
  let foreignSet := sets.find? (fun p => (p.2.map (fun g => g.ctx != ctx)).getD false)
  let noSet := sets.find? (fun p => p.2.isNone)
  let some_ := fun (st base : Nat) (o : Option Nat) => (o.isSome, errD st (base + o.getD 0))
  [ fieldErr stArg 0 (reservedBytes d [(3, 1)] ++ [(n == 0 && stA != 0, 0x18), (!outLeg.isEmpty && legColumns outLeg != oc, 0x28),
        (flowReserved flow, 0x48), (keep != 0xFFFF && !inLeg.isEmpty && (!(keep < total) || (keep < cols.length && colType (nth cols [] keep) != tBool)), 0x4C)]
      ++ reservedBytes d [(0x4E, 2), (0x5C, 36)]),
    (if inLeg.isEmpty then (false, err0 stArg) else some_ stArg 1 v.seen.badArg),
    (if inLeg.isEmpty then (false, err0 stArg) else some_ stArg 0x1000 badOut),
    fieldErr stRange 0 [(decide (fld d 2 1 > 31 ∧ fld d 2 1 ≠ 0xFF), 2), (decide (n > 256), 4), (oc < 1 || oc > 1024, 6), (outL == 0, 0x38),
      (rows < 64 || rows > 1048576, 0x58)],
    some_ stRange 1 v.seen.badRange,
    fieldErr stAlign 0 [(inA % 64 != 0, 0x10), (stA % 64 != 0, 0x18), (mapA % 8 != 0, 0x20), (outA % 64 != 0, 0x30), (outL % 64 != 0, 0x38),
      (area % 64 != 0, 0x40), (addr % 64 != 0, 0xFFFF)],
    (((area, 256 + 8 * n) :: batchRanges s ctx inA inLeg).any (rangesMeet (outA, outL)), err0 stOverlap),
    mayErr (colRefused s ctx d),
    fieldErr stPerm 0 [(s.legendForeign ctx inH, 8), (s.legendForeign ctx outH, 0x28), (flowForeign s ctx flow, 0x48)],
    some_ stPerm 1 (foreignSet.map Prod.fst),
    fieldErr stState 0 [((s.units.legends.find inH).isNone, 8), ((s.units.legends.find outH).isNone, 0x28), (!flowUsable s flow, 0x48)],
    some_ stState 1 (noSet.map Prod.fst),
    (dirBad s ctx inA inLeg, errD stCorrupt 0x0701) ]

/-- A column job checked and queued. -/
def colIssue (iss : Issuer) (ctx addr : Nat) (s : State) : State :=
  s.withDesc iss ctx addr 128 3 (fun d s =>
    s.checkJob iss ctx 3 0 (colRefused s ctx d) (colFails s ctx addr d) (fun s =>
      let e := pickEngine 32 (fun e => (s.colEng e).load) (fld d 2 1)
      let v := seeCol s ctx d
      let j : ColJob := ⟨JobHead.first iss ctx (fld d 0x30 8) (fld d 0x38 8), d, v.steps, v.map, [], s.legendBytes (fld d 8 8),
        s.legendBytes (fld d 0x28 8), 0, 0, 0, List.replicate (fld d 4 2) 0, [], 0, [], false⟩
      s.setCol e { s.colEng e with queue := (s.colEng e).queue ++ [j] }))

/-! End and suspension (R290 to R292). -/

/-- The result block (R292). -/
def colResult (j : ColJob) (failRow : Nat) : List Byte :=
  leb 8 j.row ++ leb 8 j.rowsOut ++ leb 8 j.batches ++ leb 8 failRow ++ zeros 224 ++ j.events.flatMap (leb 8)

/-- FAIL_ROW without a failing row. -/
def noRow : Nat := 2 ^ 64 - 1

/-- A column job off its engine ends, its result block written where it can be. -/
def colEnd (j : ColJob) (er : Err) (failRow : Nat) (s : State) : State :=
  (s.writeDropped j.head.ctx j.stateAddr (colResult j failRow)).endJob j.head 3 er

/-- A column job off its engine is suspended: its state saved. -/
def colSuspend (e : Nat) (j : ColJob) (s : State) : State :=
  match s.takeHandle j.head (.column e j) with
  | (none, s1) => colEnd j (err0 stLimit) noRow s1
  | (some h, s1) => match s1.saveArea j.head.ctx j.stateAddr (256 + 8 * j.stepCount) with
    | (.error er, s2) => colEnd { j with head := h } { er with detail := 4 } noRow s2
    | (.ok b, s2) => s2.parkJob h 3 j.stateAddr (.column e { j with head := { h with saved := b } })

/-! The run (R272). -/

/-- The columns a job has, inputs first. -/
def ColJob.cols (j : ColJob) : List (List Byte) :=
  ((List.range j.stepCount).foldl (fun a k => seeStep a k (stepAt j.steps k) none) ⟨legEntries j.inLeg, none, none⟩).cols

/-- A search of a GAZBUCKET step arrives at its set's bank (R353): its result where it is admitted at once, else the job waits. -/
def askGaz (e key ctl : Nat) (j : ColJob) (s : State) : Option Nat × State :=
  let b := ((s.gazSet (ctl % 2 ^ 32)).map GazSet.bank).getD 0
  let s1 := (s.setCol e { s.colEng e with run := some { j with asking := true } }).modBank b (fun k => { k with
    waiting := k.waiting ++ [.job e key ctl] })
  let s2 := drainBank b ((s1.gazBank b).waiting.length + 1) s1
  (match (s2.colEng e).run with
    | some x => if x.asking then none else x.found.getLast?
    | none => none, s2)

/-- A row evaluated as far as its searches have results: its cells, the events of each step, the results used, the results found, whether a search waits. -/
structure RowEval where
  cells : List Cell
  events : List Nat
  used : Nat
  found : List Nat
  waits : Bool
  s : State

/-- The next step of a row. -/
def evalStep (e : Nat) (j : ColJob) (cols : List (List Byte)) (a : RowEval) (k : Nat) : RowEval :=
  if a.waits then a
  else
    let st := stepAt j.steps k
    let c := nth a.cells .null (stIn0 st)
    let searches := stOp st == 0x21 && c != .null
    let g : Option Nat × State :=
      if !searches then (some 0, a.s)
      else if a.used < a.found.length then (a.found[a.used]?, a.s)
      else askGaz e (gazStepKey st (colType (nth cols [] (stIn0 st))) c) (stArg0 st) { j with found := a.found } a.s
    match g.1 with
    | none => { a with waits := true, s := g.2 }
    | some r =>
      let v := stepValue st (nth j.bounds [] k) cols a.cells r
      { a with
        cells := a.cells ++ [v.1], events := a.events ++ [v.2], used := a.used + b2n searches
        found := if searches && a.used ≥ a.found.length then a.found ++ [r] else a.found, s := g.2 }

/-- Every step of a row in order; a GAZBUCKET step searches its set. -/
def evalRow (e : Nat) (j : ColJob) (cols : List (List Byte)) (row : List Cell) (s : State) : RowEval :=
  (List.range j.stepCount).foldl (evalStep e j cols) ⟨row, [], 0, j.found, false, s⟩

/-- Whether a cell breaks the limits of its output column (DETAIL 0x0707). -/
def cellTooLong (e : List Byte) (c : Cell) : Bool :=
  match c with
  | .list es => colType e == tList && es.length > colMaxElems e
  | .val b => isVar (colType e) && b.length > colMaxBytes e
  | .null => false

/-- A batch that an operator builds row by row: the rows it holds and what places its FIRST_ROW. -/
structure Building where
  rows : List (List Cell)
  first : Nat

/-- The columns of rows. -/
def rowsToCols (n : Nat) (rows : List (List Cell)) : List (List Cell) :=
  (List.range n).map (fun c => rows.map (fun r => nth r .null c))

/-- Whether a batch of rows fits in room bytes and keeps to the limit of R248. -/
def rowsFit (leg : List Byte) (rows : List (List Cell)) (room : Nat) : Bool :=
  let cols := rowsToCols (legColumns leg) rows
  countsOk leg cols && (batchImage leg 0 ⟨rows.length, 0, 0, [], 0⟩ cols).length ≤ room

/-- A built batch written and its item offered: the image's length, the held item, or the error. -/
def putBatch (leg : List Byte) (ctx addr : Nat) (i : BatchInfo) (rows : List (List Cell)) (legend flow thread : Nat) (s : State) :
    Except (Err × Nat) (Nat × Option (List Byte)) × State :=
  let img := batchImage leg addr i (rowsToCols (legColumns leg) rows)
  match Io.exec (memWrite ctx addr img) s with
  | (.error e, s1) => (.error ({ e with detail := 4 }, img.length), s1)
  | (.ok _, s1) =>
    let body := batchItem addr i legend
    let r := if flow = 0xFFFF_FFFF then (true, s1) else s1.emit flow body 5 thread
    (.ok (img.length, if r.1 then none else some body), r.2)

/-- How a run stops: at its end, out of space, holding an item, waiting for a search, or failed at a row, with bytes of a batch in progress. -/
inductive RunStop where
  | done
  | space
  | holds
  | waits
  | fails (e : Err) (row scrambled : Nat)

/-- A job's batch closed. -/
def colClose (j : ColJob) (b : Building) (s : State) : Except (Err × Nat) ColJob × State :=
  let i : BatchInfo := ⟨b.rows.length, j.batches, b.first, sub j.desc 0x50 8, 0⟩
  match putBatch j.outLeg j.head.ctx (j.head.outAddr + j.head.outP) i b.rows (fld j.desc 0x28 8) j.flow j.head.thread s with
  | (.error e, s1) => (.error e, s1)
  | (.ok (n, held), s1) =>
    (.ok { j with head := { j.head with outP := j.head.outP + n, held := held }, rowsOut := j.rowsOut + b.rows.length,
                  batches := j.batches + 1 }, s1)

/-- The bytes of a batch in progress. -/
def progressBytes (leg : List Byte) (rows : List (List Cell)) : Nat :=
  if rows.isEmpty then 0 else (batchImage leg 0 ⟨rows.length, 0, 0, [], 0⟩ (rowsToCols (legColumns leg) rows)).length

/-- The rows of the input from the job's place on, on slice engine e. A row out of output space keeps the results of its searches. -/
def colRows (e : Nat) (cols : List (List Byte)) (firstRow : Nat) : Nat → List (List Cell) → ColJob → Building → State →
    RunStop × ColJob × State
  | 0, _, j, _, s => (.done, j, s)
  | fuel + 1, rows, j, b, s =>
    match rows with
    | [] =>
      if b.rows.isEmpty then (.done, j, s)
      else match colClose j b s with
        | (.error er, s1) => (.fails er.1 noRow er.2, j, s1)
        | (.ok j1, s1) => (if j1.head.held.isSome then .holds else .done, j1, s1)
    | r :: t =>
      let ev := evalRow e { j with rows := b.rows, first := b.first } cols r s
      let keep := fld j.desc 0x4C 2
      let kept := keep == 0xFFFF || isTrue (nth ev.cells .null keep)
      let out := (List.range (legColumns j.outLeg)).map (fun k => nth ev.cells .null (fld j.map (2 * k) 2))
      let here := { j with found := ev.found }
      let past := { j with row := j.row + 1, events := (j.events.zip ev.events).map (fun p => p.1 + p.2), found := []
                           head := { j.head with inC := j.head.inC + 1 } }
      if ev.waits then (.waits, here, ev.s)
      else if !kept then colRows e cols firstRow fuel t past b ev.s
      else if ((legEntries j.outLeg).zip out).any (fun p => cellTooLong p.1 p.2) then
        (.fails (errD stLimit 0x0707) j.row (progressBytes j.outLeg b.rows), j, ev.s)
      else
        let b1 : Building := ⟨b.rows ++ [out], if b.rows.isEmpty then (firstRow + j.row) % 2 ^ 64 else b.first⟩
        if b1.rows.length ≤ fld j.desc 0x58 4 ∧ rowsFit j.outLeg b1.rows (j.head.outLen - j.head.outP) then
          colRows e cols firstRow fuel t past b1 ev.s
        else if b.rows.isEmpty then (.space, here, ev.s)
        else match colClose here b ev.s with
          | (.error er, s1) => (.fails er.1 noRow er.2, here, s1)
          | (.ok j1, s1) => if j1.head.held.isSome then (.holds, j1, s1) else colRows e cols firstRow fuel rows j1 ⟨[], 0⟩ s1

/-- The rows of a batch. -/
def BatchIn.rowsOf (b : BatchIn) : List (List Cell) := (List.range b.rows).map (fun i => b.cols.map (fun c => nth c .null i))

/-- The arrays of a job that starts: its steps, its output map, the boundaries of its BUCKETIZE steps (R275). -/
def colArrays (j : ColJob) : Io (List Byte × List Byte × List (List Byte)) := do
  let st ← if j.stepCount = 0 then pure [] else memRead j.head.ctx (fld j.desc 0x18 8) (32 * j.stepCount)
  let map ← memRead j.head.ctx (fld j.desc 0x20 8) (2 * fld j.desc 6 2)
  let cols := ({ j with steps := st } : ColJob).cols
  let bs ← (List.range j.stepCount).mapM (fun k =>
    let x := stepAt st k
    if stOp x = 0x20 then memRead j.head.ctx (stArg0 x) (typeBytes (colType (nth cols [] (stIn0 x))) * stArg1 x) else pure [])
  pure (st, map, bs)

/-- COLUMN_JOB_START: a free engine takes the oldest job of its queue (R275): arrays are copied; a resumed job finds its state as it was left, or ends
(R290). -/
def colStart (e : Nat) (s : State) : State :=
  let g := s.colEng e
  match g.run, g.queue with
  | none, j :: t =>
    if !s.works (unitJoin e) then s
    else
      let s1 := s.setCol e ⟨t, none⟩
      if j.head.saved.isEmpty then
        match Io.exec (colArrays j) s1 with
        | (.error er, s2) => colEnd j er noRow s2
        | (.ok (st, map, bs), s2) => s2.setCol e ⟨t, some { j with steps := st, map := map, bounds := bs }⟩
      else match s1.areaIntact j.head.ctx j.stateAddr j.head.saved with
        | (.error er, s2) => colEnd j er noRow s2
        | (.ok true, s2) => s2.setCol e ⟨t, some { j with head := { j.head with saved := [] } }⟩
        | (.ok false, s2) => colEnd j (errD stCorrupt 0x0703) noRow s2
  | _, _ => s

/-- A running job run to its end, its suspension, an item that its flow does not take, or a search that waits. -/
def colRun (e : Nat) (j : ColJob) (s : State) : State :=
  let off := fun (s : State) => s.setCol e { s.colEng e with run := none }
  match Io.exec (readBatch j.head.ctx (fld j.desc 0x10 8) j.inLeg) s with
  | (.error er, s1) => colEnd j er noRow (off s1)
  | (.ok b, s1) =>
    match colRows e j.cols b.firstRow (3 * b.rows + 3) (b.rowsOf.drop j.row) { j with rows := [], first := 0 } ⟨j.rows, j.first⟩ s1 with
    | (.done, j1, s2) => colEnd j1 (err0 stOk) noRow (off s2)
    | (.space, j1, s2) => colSuspend e j1 (off s2)
    | (.holds, j1, s2) => s2.setCol e { s2.colEng e with run := some j1 }
    | (.waits, _, s2) => s2
    | (.fails er row n, j1, s2) => colEnd j1 er row (off (s2.scramble j.head.ctx (j1.head.outAddr + j1.head.outP) n))

/-- COLUMN_JOB_END: an item held for its flow is offered again; the running job goes on to its end or suspension, unless a search of it waits. -/
def colJobEnd (e : Nat) (s : State) : State :=
  match (s.colEng e).run with
  | none => s
  | some j =>
    if !s.works (unitJoin e) ∨ j.asking then s
    else match j.head.held with
      | none => colRun e j s
      | some body =>
        let r := s.emit j.flow body 5 j.head.thread
        if r.1 then colRun e { j with head := { j.head with held := none } } r.2 else s

/-- A suspended column job resumed. -/
def colResume (e : Nat) (j : ColJob) (iss : Issuer) (outAddr outLen : Nat) (s : State) : State :=
  let j1 := { j with head := j.head.again iss outAddr outLen }
  if outAddr % 64 ≠ 0 then colEnd j1 (err0 stAlign) noRow s
  else s.setCol e { s.colEng e with queue := (s.colEng e).queue ++ [j1] }

/-! The rows. -/

def execColumnJob (t : Fin 8192) (w : Insn) (s : State) : Host.Outcome State Fault Refusal := .next (issueJob (· == 3) 3 colIssue t w s)
def execColumnJobStart (sl : Fin 32) (s : State) : Host.Outcome State Fault Refusal := .next (colStart sl s)
def execColumnJobEnd (sl : Fin 32) (s : State) : Host.Outcome State Fault Refusal := .next (colJobEnd sl s)

end Sys2Proof.Machine
end

