-- ==== Sys2Proof/Machine/Proj.lean ====
section
/-!
DEFINITION. Tensor layouts (R374 to R380) and the Projection Engines (R381 to R395).
-/
namespace Sys2Proof.Machine
open Sys2Proof

/-! Tensor descriptors (R374 to R379). -/

def tNdim (d : List Byte) : Nat := fld d 1 1
def tElem (d : List Byte) : Nat := fld d 2 1
def tBlocked (d : List Byte) : Bool := fld d 3 1 == 1
def tBase (d : List Byte) : Nat := fld d 8 8
def tExtent (d : List Byte) (k : Nat) : Nat := fld d (0x40 + 24 * k) 4
def tOrigin (d : List Byte) (k : Nat) : Nat := fld d (0x48 + 24 * k) 8
def tStride (d : List Byte) (k : Nat) : Int := signed 64 (fld d (0x50 + 24 * k) 8)
/-- The dimensions of a tensor, at most the eight that a descriptor holds. -/
def tDims (d : List Byte) : List Nat := List.range (min (tNdim d) 8)
/-- Element size in bytes, 1 for 4-bit elements; whether elements take 4 bits; the bytes of a Blocked-64 block (R374). -/
def tBytes (d : List Byte) : Nat := if tElem d = 0 then 1 else 2 ^ (tElem d - 1)
def tNibble (d : List Byte) : Bool := tElem d == 0
def tBlockBytes (d : List Byte) : Nat := 32 * 2 ^ tElem d

/-- The lowest and highest byte offset that one dimension adds to an element, its own last byte included for dimension 0. -/
def tSpan (d : List Byte) (k : Nat) : Int × Int :=
  let n : Int := tExtent d k
  let s := tStride d k
  let m := if k = 0 ∧ tBlocked d then ((ceilDiv (tExtent d 0) 64 : Nat) : Int) - 1 else n - 1
  let tail : Int := if k = 0 then (if tBlocked d then (tBlockBytes d : Int) else (tBytes d : Int)) - 1 else 0
  if k = 0 ∧ tNibble d ∧ !tBlocked d then (0, (n - 1) / 2)
  else (min 0 (m * s), max 0 (m * s) + tail)

/-- The lowest and highest byte of a tensor, relative to its base, over some of its dimensions. -/
def tReach (d : List Byte) (dims : List Nat) : Int × Int :=
  dims.foldl (fun a k => (a.1 + (tSpan d k).1, a.2 + (tSpan d k).2)) (0, 0)

/-- The footprint of a tensor at a base: its lowest and highest byte (R379). -/
def tFootprint (d : List Byte) (base : Int) : Int × Int := ((tReach d (tDims d)).1 + base, (tReach d (tDims d)).2 + base)

/-- The byte of an element and whether it is that byte's high half (R375, R376). -/
def tAddr (d : List Byte) (base : Int) (idx : List Nat) : Int × Bool :=
  let i0 : Nat := nth idx 0 0
  let rest := ((tDims d).drop 1).foldl (fun (a : Int) k => a + (nth idx 0 k : Nat) * tStride d k) base
  if tBlocked d then
    let c := i0 % 64
    (rest + (i0 / 64 : Nat) * tStride d 0 + ((if tNibble d then c / 2 else c * tBytes d : Nat) : Int), tNibble d && c % 2 == 1)
  else if tNibble d then (rest + (i0 / 2 : Nat), i0 % 2 == 1)
  else (rest + (i0 : Nat) * tStride d 0, false)

/-- Index tuples under extents, the first index fastest. -/
def tuples : List Nat → List (List Nat)
  | [] => [[]]
  | e :: t => (tuples t).flatMap (fun r => (List.range e).map (fun i => i :: r))

/-- The slabs of a tensor, and the lowest dimensions that one slab spans (R390). -/
def tSlabs (d : List Byte) : Nat := if tNdim d ≤ 1 then 1 else tExtent d (tNdim d - 1)
def slabDims (d : List Byte) : List Nat := if tNdim d ≤ 1 then tDims d else (tDims d).dropLast

/-- The distance between slabs. -/
def slabStride (d : List Byte) : Int := if tNdim d ≤ 1 then 0 else tStride d (tNdim d - 1)

/-- The elements of a slab in groups: a whole row of dimension 0, or 64 channels of it in a Blocked-64 tensor. -/
def slabGroups (d : List Byte) (k : Nat) : List (List (List Nat)) :=
  let outer := if tNdim d ≤ 1 then [[]] else (tuples (((slabDims d).drop 1).map (tExtent d))).map (· ++ [k])
  let c := tExtent d 0
  let row := if tBlocked d then chunks 64 (ceilDiv c 64) (List.range c) else [List.range c]
  outer.flatMap (fun o => row.map (fun g => g.map (fun i => i :: o)))

/-- Element values packed into bytes. -/
def packElems (d : List Byte) : List Nat → List Byte
  | [] => []
  | a :: t =>
    if tNibble d then match t with
      | [] => leb 1 a
      | b :: u => leb 1 (a % 16 + 16 * b) ++ packElems d u
    else leb (tBytes d) a ++ packElems d t

/-- The pieces of memory that a group of a destination writes with its values; a Blocked-64 block with its padding (R376). -/
def groupPieces (d : List Byte) (base : Int) (g : List (List Nat)) (vals : List Nat) : List (Nat × List Byte) :=
  let at_ := fun (i : List Nat) => (tAddr d base i).1.toNat
  if tBlocked d then [(at_ (g.headD []), padTo (tBlockBytes d) (packElems d vals))]
  else if tNibble d then
    (((chunks 2 g.length g).zip (chunks 2 g.length vals)).filter (fun p => !p.1.isEmpty)).map (fun p => (at_ (p.1.headD []), packElems d p.2))
  else (g.zip vals).map (fun p => (at_ p.1, leb (tBytes d) p.2))

/-- The bytes of memory that a slab of a destination takes. -/
def slabBytes (d : List Byte) (base : Int) (k : Nat) : List Nat :=
  (slabGroups d k).flatMap (fun g => (groupPieces d base g (g.map (fun _ => 0))).flatMap (fun p => (List.range p.2.length).map (p.1 + ·)))

/-! The map (R382, R383). -/

def pSrcDim (d : List Byte) (k : Nat) : Nat := fld d (0x20 + k) 1
def pMul (d : List Byte) (k : Nat) : Int := signed 16 (fld d (0x28 + 2 * k) 2)
def pOff (d : List Byte) (k : Nat) : Int := signed 64 (fld d (0x40 + 8 * k) 8)

/-- The source element of a destination element, and whether an index was clamped. -/
def projSource (d src dst : List Byte) (i : List Nat) : List Nat × Bool :=
  let js := (tDims src).map (fun s =>
    let g := (tDims dst).foldl (fun (a : Int) k =>
      if pSrcDim d k = s then a + pMul d k * ((tOrigin dst k : Int) + (nth i 0 k : Nat)) else a) (pOff d s)
    let j := g - (tOrigin src s : Int)
    let hi : Int := (tExtent src s : Int) - 1
    ((min (max j 0) hi).toNat, decide (j < 0 ∨ hi < j)))
  (js.map Prod.fst, js.any Prod.snd)

/-- A conversion of ACCST (R384). -/
def accConvert (conv type : Nat) (sat : Bool) (w : Word) : FRes :=
  let int := fun (n : Nat) => if type = 0 then cvtToInt fp32 n .near w.toNat else cvtIntInt n sat w.toInt
  let flt := fun (f : Fmt) => if type = 0 then cvtFloat fp32 f .near sat w.toNat else cvtFromInt f .near sat w.toInt
  match conv with
  | 0 => ⟨w.toNat, 0⟩
  | 1 => flt bf16
  | 2 => flt fp16
  | 3 => flt e4m3
  | 4 => flt e5m2
  | 5 => int 16
  | 6 => int 8
  | _ => int 4

/-- The destination ELEM of a CONVERT. -/
def convElem (c : Nat) : Nat := if c = 0 then 3 else if c = 1 ∨ c = 2 ∨ c = 5 then 2 else if c = 7 then 0 else 1

/-! Checks (R385, R386). -/

/-- The offsets of a tensor descriptor at which it has a reserved encoding; a 4-bit strided S_0 that is not zero. -/
def tensorArg (d : List Byte) : List (Bool × Nat) :=
  [(bits (fld d 0 1) 7 4 != 0, 0), (decide (tElem d > 4), 2), (fld d 3 1 > 1, 3)] ++ reservedBytes d [(4, 4), (0x10, 48)] ++
    (List.range 8).flatMap (fun k => (fld d (0x44 + 24 * k) 4 != 0, 0x44 + 24 * k) ::
      (if k < tNdim d then [] else reservedBytes d [(0x40 + 24 * k, 4), (0x48 + 24 * k, 8), (0x50 + 24 * k, 8)])) ++
    [(tNibble d && fld d 3 1 == 0 && fld d 0x50 8 != 0, 0x50)]

/-- The offsets at which a tensor descriptor has a value outside its range; memory: its footprint lies in memory. -/
def tensorRange (d : List Byte) (memory : Bool) : List (Bool × Nat) :=
  [(tNdim d < 1 || tNdim d > 8, 1)] ++
    (tDims d).flatMap (fun k => [(tExtent d k == 0, 0x40 + 24 * k), (decide (tOrigin d k + tExtent d k > 2 ^ 63), 0x48 + 24 * k)]) ++
    [(tNibble d && fld d 3 1 == 0 && tExtent d 0 % 2 == 1, 0x40),
      ((memory && decide ((tFootprint d (tBase d)).1 < 0)) || decide ((tFootprint d (tBase d)).2 ≥ 2 ^ 48), 8)]

/-- The offsets at which a tensor descriptor is not aligned. -/
def tensorAlign (d : List Byte) : List (Bool × Nat) :=
  [(tBase d % tBytes d != 0, 8)] ++ (tDims d).map (fun k => (tStride d k % (tBytes d : Int) != 0, 0x50 + 24 * k)) ++
    [(tBlocked d && tStride d 0 % (tBlockBytes d : Int) != 0, 0x50)]

/-- Whether two footprints share a byte. -/
def footprintsMeet (a b : Int × Int) : Bool := decide (a.1 ≤ b.2) && decide (b.1 ≤ a.2)

/-- The failures of an operation in table order (R385): its descriptor, its tensors, the allocation of an ACCST. -/
def projFails (acc : Bool) (addr : Nat) (alloc : Option (Nat × Nat)) (d src dst : List Byte) : List (Bool × Err) :=
  let fed := fun (s : Nat) => (List.range (min (tNdim dst) 8)).countP (fun k => pSrcDim d k == s)
  let fp := tFootprint src (tBase src)
  [ fieldErr stArg 0x0801 ([(fld d 0 2 != 4, 0), (bits (fld d 3 1) 7 1 != 0 || (!acc && fld d 3 1 != 0), 3),
        (if acc then fld d 4 1 > 7 || tElem dst != convElem (fld d 4 1) else fld d 4 1 != 0 || tElem src != tElem dst, 4),
        (if acc then fld d 5 1 > 1 else fld d 5 1 != 0, 5)] ++ reservedBytes d [(6, 2)] ++
      (List.range 8).map (fun k => (if k < tNdim dst then pSrcDim d k != 0xFF && (pSrcDim d k ≥ tNdim src || fed (pSrcDim d k) > 2)
        else pSrcDim d k != 0, 0x20 + k)) ++
      (List.range 8).map (fun k => (pMul d k != 0 && (k ≥ tNdim dst || pSrcDim d k == 0xFF), 0x28 + 2 * k)) ++
      reservedBytes d [(0x38, 8)] ++ (List.range 8).map (fun k => (k ≥ tNdim src && pOff d k != 0, 0x40 + 8 * k))),
    fieldErr stArg 0x0802 (tensorArg src ++ (if acc then [(tElem src != 3, 2), (fld src 3 1 != 0, 3)] ++
      (tDims src).flatMap (fun k => [(tOrigin src k != 0, 0x48 + 24 * k), (tStride src k % 4 != 0, 0x50 + 24 * k)]) else [])),
    fieldErr stArg 0x0803 (tensorArg dst ++ (tDims dst).map (fun k =>
      (decide (tStride dst k < 0) || (tStride dst k == 0 && tExtent dst k > 1 && !(k == 0 && tNibble dst && !tBlocked dst)), 0x50 + 24 * k))),
    fieldErr stRange 0x0804 ([(decide (fld d 2 1 > 15 ∧ fld d 2 1 ≠ 0xFF), 2)] ++ tensorRange src (!acc) ++ tensorRange dst true),
    (acc && (match alloc with
      | none => true
      | some (_, n) => decide (fp.1 < 0) || decide (fp.2 ≥ 4 * (n : Int))), errD stRange 0x0805),
    fieldErr stAlign 0x0806 ([(addr % 64 != 0, 0xFFFF), (fld d 8 8 % 64 != 0, 8), (fld d 0x10 8 % 64 != 0, 0x10)] ++ tensorAlign src ++
      tensorAlign dst),
    (!acc && footprintsMeet fp (tFootprint dst (tBase dst)), errD stOverlap 0x0807),
    fieldErr stUnsupported 0x0808 [(bits (fld src 0 1) 3 0 != 1 || bits (fld dst 0 1) 3 0 != 1, 0)] ]

/-! Engines. -/

def State.projEng (s : State) (e : Nat) : Engine ProjWork := s.units.proj.at Engine.idle e
def State.setProj (s : State) (e : Nat) (x : Engine ProjWork) : State :=
  { s with units := { s.units with proj := s.units.proj.upd Engine.idle e x } }
/-- Work at the end of an engine's queue. -/
def State.queueProj (s : State) (e : Nat) (w : ProjWork) : State := s.setProj e { s.projEng e with queue := (s.projEng e).queue ++ [w] }
def ProjCtr.init : ProjCtr := ⟨0, 0, 0, 0, 0, 0, 0⟩
def State.modProjCtr (s : State) (e : Nat) (f : ProjCtr → ProjCtr) : State :=
  { s with units := { s.units with projCtr := s.units.projCtr.upd ProjCtr.init e (f (s.units.projCtr.at ProjCtr.init e)) } }

/-- The three descriptors of an operation. -/
def projDescs (ctx addr : Nat) : Io (List Byte × List Byte × List Byte) := do
  let d ← memRead ctx addr 128
  let src ← memRead ctx (fld d 8 8) 256
  let dst ← memRead ctx (fld d 0x10 8) 256
  pure (d, src, dst)

/-- Where slab j would have base so that the segment's slabs stand where R391 puts them. -/
def slabBase (j : ProjJob) (k : Nat) : Int := j.base + (k : Nat) * slabStride j.dst

/-- The output that an operation has still to write, as R384 and R388 watch it. -/
def ProjJob.watch (j : ProjJob) : Watch :=
  let slabs := (List.range (tSlabs j.dst - j.slab)).map (j.slab + ·)
  { owner := .op j.head.iss, ctx := j.head.ctx, gather := false, words := [], fed := 0, spoiled := [], lost := []
    ranges := slabs.flatMap (fun k => (slabGroups j.dst k).flatMap (fun g =>
      (groupPieces j.dst j.base g (g.map (fun _ => 0))).map (fun p => (p.1, p.2.length))))
    feeds := if !j.acc then [] else slabs.flatMap (fun k => (slabGroups j.dst k).flatten.map (fun i =>
      (j.accAt + (tAddr j.src (tBase j.src) (projSource j.desc j.src j.dst i).1).1.toNat / 4, (tAddr j.dst j.base i).1.toNat, tBytes j.dst))) }

/-- PROJ and ACCST checked and queued. -/
def projIssue (acc : Bool) (iss : Issuer) (ctx addr : Nat) (s : State) : State :=
  match Io.exec (projDescs ctx addr) s with
  | (.error e, s1) => s1.failOp iss ctx 4 0 0 e
  | (.ok (d, src, dst), s1) =>
    let alloc := (s1.thread iss.thread).acc
    s1.checkOp iss ctx 4 0x0801 (projFails acc addr alloc d src dst) (fun s =>
      let e := pickEngine 16 (fun e => (s.projEng e).load) (fld d 2 1)
      let j : ProjJob := {
        head := JobHead.first iss ctx (tBase dst) 0, acc := acc, addr := addr, desc := d, src := src, dst := dst, slab := 0, first := 0,
        base := tBase dst, limit := if fld d 0x18 8 = 0 then none else some (fld d 0x18 8), accAt := (alloc.getD (0, 0)).1,
        accLen := (alloc.getD (0, 0)).2 }
      (s.watchOp j.watch).queueProj e (.job j))

/-- An operation leaves its engine: its output is watched no more; what an ACCST read stays watched until its tag is collected (R384). -/
def projRest (j : ProjJob) (s : State) : State :=
  if j.acc then s.modWatch (.op j.head.iss) (fun w => { w with ranges := [] }) else s.unwatch (.op j.head.iss)

/-- An operation off its engine ends. -/
def projFinish (e : Nat) (j : ProjJob) (er : Err) (s : State) : State :=
  ((projRest j s).modProjCtr e (fun c => { c with ops := sat32 c.ops 1 })).endJob j.head 4 er

/-- An operation that its engine takes: its descriptors are copied, and checked again (R381). -/
def projBegin (e : Nat) (j : ProjJob) (s : State) : State :=
  let run := fun (j : ProjJob) (s : State) => s.setProj e { s.projEng e with run := some (.job j) }
  if j.first ≠ 0 ∨ j.head.handle ≠ 0 then run j s
  else match Io.exec (projDescs j.head.ctx j.addr) s with
    | (.error er, s1) => projFinish e j er s1
    | (.ok (d, src, dst), s1) =>
      match firstFail (projFails j.acc j.addr (some (j.accAt, j.accLen)) d src dst) with
      | some er => projFinish e j er s1
      | none =>
        let j1 := { j with desc := d, src := src, dst := dst, base := tBase dst, limit := if fld d 0x18 8 = 0 then none else some (fld d 0x18 8) }
        run j1 (s1.modWatch (.op j.head.iss) (fun w => { w with ranges := j1.watch.ranges, feeds := j1.watch.feeds }))

/-! One slab (R382 to R384, R390). -/

/-- Whether every byte of a slab lies below the limit of the segment. -/
def slabFits (j : ProjJob) (k : Nat) : Bool :=
  match j.limit with
  | none => true
  | some l => decide (slabBase j k + (tReach j.dst (slabDims j.dst)).2 < j.base + (j.first : Nat) * slabStride j.dst + (l : Nat))

/-- The words that the thread of an ACCST has written since the issue (R384). -/
def lostWords (s : State) (iss : Issuer) : List Nat := ((s.mem.watch.find? (fun w => w.owner == .op iss)).map Watch.lost).getD []

/-- The words of the accumulator file that an ACCST reads: one that its thread has written since its issue, or no longer holds, is undefined (R384). -/
def accWordsRead (j : ProjJob) (offs : List Nat) (s : State) : List Word × State :=
  let held := (s.thread j.head.thread).acc == some (j.accAt, j.accLen)
  offs.foldl (fun (a : List Word × State) o =>
    if held && !(lostWords s j.head.iss).contains (j.accAt + o) then (a.1 ++ [(s.pod (podOf j.head.thread)).acc.at 0 (j.accAt + o)], a.2)
    else (a.1 ++ [BitVec.ofNat 32 (a.2.draw).1], (a.2.draw).2)) ([], s)

/-- The values of a slab's elements, and the conversions that met NV, OF or SAT; or the error that refused a read. -/
def slabValues (j : ProjJob) (srcs : List (List Nat)) (s : State) : Except Err (List Nat × Nat) × State :=
  if j.acc then
    let r := accWordsRead j (srcs.map (fun i => (tAddr j.src (tBase j.src) i).1.toNat / 4)) s
    let vs := r.1.map (accConvert (fld j.desc 4 1) (fld j.desc 5 1) (bit (fld j.desc 3 1) 0))
    (.ok (vs.map FRes.val, vs.countP (fun v => v.fl &&& (flNV ||| flOF ||| flSAT) != 0)), r.2)
  else
    let at_ := srcs.map (fun i => tAddr j.src (tBase j.src) i)
    match readList j.head.ctx false (at_.map (fun p => (p.1.toNat, tBytes j.src))) [] s with
    | (.error (_, e), s1) => (.error e, s1)
    | (.ok bs, s1) =>
      (.ok ((at_.zip bs).map (fun p => if tNibble j.src then le p.2 / (if p.1.2 then 16 else 1) % 16 else le p.2), 0), s1)

/-- Whether the physical byte of a destination address is a byte of the source's footprint (R386). -/
def aliasesSource (s : State) (ctx : Nat) (src : List Byte) (va : Nat) : Bool :=
  match atu s ctx va .w with
  | .error _ => false
  | .ok (pa, _) =>
    let fp := tFootprint src (tBase src)
    let lo := fp.1.toNat
    let len := (fp.2 + 1 - fp.1).toNat
    (blocks 4096 (len / 4096 + 2) lo len).any (fun p => match atu s ctx p.1 .r with
      | .error _ => false
      | .ok (q, _) => q ≤ pa && pa < q + p.2)

/-- Pieces with every byte that R5 leaves undefined replaced by a free value: one that another element of the operation takes, or that
aliases the source. taken: bytes of earlier slabs. -/
def freePieces (s : State) (shared : Nat → Bool) (taken : List Nat) (ps : List (Nat × List Byte)) : List (Nat × List Byte) × State :=
  let all := ps.flatMap (fun p => (List.range p.2.length).map (p.1 + ·))
  ps.foldl (fun (a : List (Nat × List Byte) × State) p =>
    let r := p.2.zipIdx.foldl (fun (b : List Byte × State) x =>
      let va := p.1 + x.2
      if taken.contains va || all.count va > 1 || shared va then (b.1 ++ [BitVec.ofNat 8 (b.2.draw).1], (b.2.draw).2)
      else (b.1 ++ [x.1], b.2)) ([], a.2)
    (a.1 ++ [(p.1, r.1)], r.2)) ([], s)

/-- Pieces written in order until one fails. -/
def writeAll (o : OutputOf) (ctx : Nat) : List (Nat × List Byte) → State → Option Err × State
  | [], s => (none, s)
  | (va, b) :: t, s => match s.ownWrite o ctx va b with
    | (.ok _, s1) => writeAll o ctx t s1
    | (.error e, s1) => (some e, s1)

/-- A slab's pieces written, every byte or none (R390). -/
def writeSlab (o : OutputOf) (ctx : Nat) (ps : List (Nat × List Byte)) (s : State) : Option Err × State :=
  match rangesErr s ctx (ps.map (fun p => (p.1, p.2.length, Need.w))) with
  | some e => (some e, s.countRefused ctx e.status)
  | none => match writeAll o ctx (cutPieces (joinPieces ps)) s with
    | (some e, s1) => (some { e with detail := 4 }, { s1 with mem := { s1.mem with bytes := s.mem.bytes } })
    | (none, s1) => (none, s1)

/-- Whether a run is aligned; the block slots that misaligned runs take (R392). -/
def misalignedSlots (runs : List (Nat × Nat)) : Nat :=
  (runs.map (fun r => if r.1 % 64 = 0 ∧ r.2 % 64 = 0 then 0 else 2 * (blocks64 r.1 r.2).length)).sum

/-- Addresses and lengths with each joined to the next where it continues it. -/
def joinRuns : List (Nat × Nat) → List (Nat × Nat)
  | [] => []
  | (a, n) :: t => match joinRuns t with
    | [] => [(a, n)]
    | (b, m) :: u => if a + n = b then (a, n + m) :: u else (a, n) :: (b, m) :: u

/-- The maximal contiguous ranges of some elements, in whatever order they are taken and however often (R392). -/
def runsOf (l : List (Nat × Nat)) : List (Nat × Nat) := joinRuns ((sortBy (fun a b => a.1 ≤ b.1) l).eraseDups)

/-- Lists cut to the lengths of others. -/
def splitLike {α β : Type} : List (List α) → List β → List (List β)
  | [], _ => []
  | g :: t, l => l.take g.length :: splitLike t (l.drop g.length)

/-- Whether the operation uses the exchange network: destination dimension 0 is not fed by source dimension 0 with MUL 1. -/
def usesNetwork (d : List Byte) : Bool := !(pSrcDim d 0 == 0 && pMul d 0 == 1)

/-- The source runs of a slab: those of each group of the destination; where another dimension of the destination feeds source dimension 0, those of
each tile of 64 indices of that dimension, counted with its first (DESIGN CHOICE, log entry 82). -/
def sourceRuns (j : ProjJob) (groups : List (List (List Nat))) : List (Nat × Nat) :=
  let run := fun (l : List (List Nat)) =>
    runsOf (l.map (fun i => ((tAddr j.src (tBase j.src) (projSource j.desc j.src j.dst i).1).1.toNat, tBytes j.src)))
  match if pSrcDim j.desc 0 = 0 then none else (tDims j.dst).find? (fun k => pSrcDim j.desc k == 0) with
  | none => groups.flatMap run
  | some k => (groups.flatten.filter (fun i => nth i 0 k % 64 == 0)).flatMap (fun i =>
      run ((List.range (min 64 (tExtent j.dst k - nth i 0 k))).map (fun r => i.set k (nth i 0 k + r))))

/-- The destination elements of an ACCST's slab whose words its thread has written since its issue are undefined (R384). -/
def accFed (j : ProjJob) (n : Nat) (s : State) : State :=
  match s.mem.watch.find? (fun w => w.owner == .op j.head.iss) with
  | none => s
  | some w =>
    let fs := ((w.feeds.drop w.fed).take n).filter (fun f => w.lost.contains f.1)
    (fs.foldl (fun a f => a.scramble j.head.ctx f.2.1 f.2.2) s).modWatch w.owner (fun w => { w with fed := w.fed + n })

/-- A slab written: the operation with it done, or the error with no byte of the slab written. -/
def slabRun (e : Nat) (j : ProjJob) (s : State) : Except Err ProjJob × State :=
  let k := j.slab
  let groups := slabGroups j.dst k
  let elems := groups.flatten
  let srcs := elems.map (projSource j.desc j.src j.dst)
  match slabValues j (srcs.map Prod.fst) s with
  | (.error er, s1) => (.error er, s1)
  | (.ok (vals, ev), s1) =>
    let pieces := ((groups.zip (splitLike groups vals)).map (fun p => groupPieces j.dst j.base p.1 p.2))
    let taken := (List.range (k - j.first)).flatMap (fun i => slabBytes j.dst j.base (j.first + i))
    let r := freePieces s1 (fun va => !j.acc && aliasesSource s1 j.head.ctx j.src va) taken pieces.flatten
    match writeSlab (.op j.head.iss) j.head.ctx r.1 r.2 with
    | (some er, s2) => (.error er, s2)
    | (none, s2) =>
      let dstRuns := pieces.flatMap (fun g => runsOf (g.map (fun p => (p.1, p.2.length))))
      let n := (r.1.map (fun p => p.2.length)).sum
      let net := if usesNetwork j.desc then (groups.map (fun g => ceilDiv g.length 64)).sum else 0
      (.ok { j with slab := k + 1, head := { j.head with inC := j.head.inC + 1, outP := j.head.outP + 1 } },
        (if j.acc then accFed j elems.length s2 else s2).modProjCtr e (fun c => { c with
          bytes := c.bytes + n
          misaligned := sat32 c.misaligned (misalignedSlots ((if j.acc then [] else sourceRuns j groups) ++ dstRuns))
          clamped := sat32 c.clamped (srcs.countP Prod.snd)
          convev := sat32 c.convev ev
          netpass := sat32 c.netpass net }))

/-- The running operation writes its next slab; it is suspended at one that does not fit, and ends after its last (R390). -/
def jobSlab (e : Nat) (j : ProjJob) (s : State) : State :=
  let off := fun (s : State) => s.setProj e { s.projEng e with run := none }
  if !slabFits j j.slab then
    let s1 := (projRest j (off s)).modProjCtr e (fun c => { c with ops := sat32 c.ops 1 })
    let n := b2n (j.head.handle != 0 || decide (s1.suspCount j.head.ctx < 4096))
    (s1.modProjCtr e (fun c => { c with suspends := sat32 c.suspends n })).suspendJob j.head 4 0 (fun h => .proj e { j with head := h })
  else match slabRun e j s with
    | (.error er, s1) => projFinish e j er (off s1)
    | (.ok j1, s1) =>
      if j1.slab ≥ tSlabs j.dst then projFinish e j1 (err0 stOk) (off s1) else s1.setProj e { s1.projEng e with run := some (.job j1) }

/-! Resume (R391). -/

/-- The base that puts slab k at an address. -/
def resumeBase (j : ProjJob) (outAddr : Nat) : Int := (outAddr : Int) - (j.slab : Nat) * slabStride j.dst

/-- The remaining destination footprint. -/
def restFootprint (j : ProjJob) (outAddr : Nat) : Int × Int :=
  (outAddr, resumeBase j outAddr + ((tSlabs j.dst - 1 : Nat) : Int) * slabStride j.dst + (tReach j.dst (slabDims j.dst)).2)

/-- The failures of a RESUME of a Projection operation, which leave it suspended. -/
def projResumeFails (s : State) (j : ProjJob) (iss : Issuer) (outAddr : Nat) : List (Bool × Err) :=
  let fp := tFootprint j.src (tBase j.src)
  let own := match iss with
    | .pod t _ _ _ => t == j.head.thread
    | .rcp _ _ => false
  [ (outAddr % tBytes j.dst != 0 || (tBlocked j.dst && outAddr % tBlockBytes j.dst != 0), err0 stAlign),
    (decide ((restFootprint j outAddr).2 ≥ 2 ^ 48), err0 stRange),
    (!j.acc && footprintsMeet fp (restFootprint j outAddr), err0 stOverlap),
    (j.acc && !own, err0 stState),
    (j.acc && (match (s.thread j.head.thread).acc with
      | none => true
      | some (_, n) => decide (fp.2 ≥ 4 * (n : Int))), err0 stRange) ]

/-- A suspended Projection operation resumed. -/
def projResume (e : Nat) (j : ProjJob) (iss : Issuer) (outAddr outLen : Nat) (s : State) : State :=
  let alloc := (s.thread j.head.thread).acc
  let j1 := { j with
    head := j.head.again iss outAddr outLen, first := j.slab, base := resumeBase j outAddr, limit := some outLen,
    accAt := (alloc.getD (0, 0)).1, accLen := (alloc.getD (0, 0)).2 }
  (s.watchOp j1.watch).queueProj e (.job j1)

/-! The rows. -/

/-- PROJ and ACCST. -/
def rowProj (acc : Bool) : Row where
  mine := fun w => isMajor 0x3F w && insF w == b2n acc
  ok := asyncOk
  reads := fun w => [rS (insA w), rS (insB w)]
  writes := fun w => [rS (insD w)]
  run := fun t w s =>
    let ctx := s.ctxOf t
    let a := ((s.thread t).rs (insA w)).toNat
    asyncIssue t w ((s.thread t).rs (insB w)).toNat 4 s (fun iss s => projIssue acc iss ctx a s)

def execProj (t : Fin 8192) (w : Insn) (s : State) : Host.Outcome State Fault Refusal := .next ((rowProj false).issue t w s)
def execAccst (t : Fin 8192) (w : Insn) (s : State) : Host.Outcome State Fault Refusal := .next ((rowProj true).issue t w s)

end Sys2Proof.Machine
end

