-- ==== Sys2Proof/Machine/Assemble.lean ====
section
/-!
DEFINITION. The Batch Assembler (R434 to R440): batches, manifests, BATCH_CONFIG.
-/
namespace Sys2Proof.Machine
open Sys2Proof

/-! Sessions. -/

def State.fsession (s : State) (id : Nat) : Option FSession := s.frames.sessions.find id
def State.modFs (s : State) (id : Nat) (f : FSession → FSession) : State :=
  match s.fsession id with
  | none => s
  | some x => { s with frames := { s.frames with sessions := s.frames.sessions.put id (f x) } }
def State.modAsm (s : State) (id : Nat) (f : Assembler → Assembler) : State := s.modFs id (fun x => { x with asm := x.asm.map f })

/-- Fields of a session's OPEN payload (R419). -/
def FSession.outFlow (x : FSession) : Nat := fld x.open_ 0x14 4
def FSession.userId (x : FSession) : Nat := fld x.open_ 0x40 8
def FSession.streams (x : FSession) : Nat := fld x.open_ 0x3C 2

/-- The pollers, the Assembler and the intake of descriptors act with the engines. -/
def State.intakeActive (s : State) : Bool := s.works (unitFrame 0)

/-! Batches (R436, R437). -/

def Batch.empty : Batch := ⟨[], [], [], false⟩
def Assembler.batch (a : Assembler) (i : Nat) : Batch := nth a.batches Batch.empty i
def Assembler.setBatch (a : Assembler) (i : Nat) (b : Batch) : Assembler :=
  { a with batches := (a.batches ++ List.replicate (i + 1 - a.batches.length) Batch.empty).set i b }

/-- Whether a batch is complete, or closed by FLUSH. -/
def Assembler.done (a : Assembler) (i : Nat) : Bool := (a.batch i).flushed || (a.batch i).members.length ≥ a.size

/-- Whether a batch holds something and is not complete. -/
def Assembler.partly (a : Assembler) (i : Nat) : Bool :=
  !a.done i && (!(a.batch i).members.isEmpty || !(a.batch i).started.isEmpty || !(a.batch i).omissions.isEmpty)

/-- Whether a batch is partly assembled; the first batch that is not complete. -/
def Assembler.anyPartly (a : Assembler) : Bool := (List.range a.batches.length).any a.partly
def Assembler.current (a : Assembler) : Nat := (firstIdx (fun i => !a.done i) a.batches.length).getD a.batches.length

/-- Whether the manifest ring is full (R434). -/
def Assembler.full (a : Assembler) : Bool := (a.written + 2 ^ 32 - a.consumed) % 2 ^ 32 == a.entries

/-- Whether the Assembler takes a sample that has ended: not while its ring is full or BATCH_FLOW cannot accept its item (R439). -/
def Assembler.accepts (a : Assembler) : Bool := a.item.isNone && !a.full

/-- An omission recorded. -/
def Assembler.omit (a : Assembler) (e : ManEntry) : Assembler :=
  let i := if a.strict then (firstIdx (fun i => !(a.batch i).flushed) a.batches.length).getD a.batches.length else a.current
  a.setBatch i { a.batch i with omissions := (a.batch i).omissions ++ [{ e with addr := 0 }] }

/-- A sample that has ended taken in: a member of its batch, or an omission. pos: its position from ID_BASE, of a strict member. -/
def Assembler.take (a : Assembler) (pos : Option Nat) (e : ManEntry) : Assembler :=
  if a.strict then
    match pos with
    | none => a.omit e
    | some p =>
      let m := p / a.size
      if m < a.index ∨ (a.batch (m - a.index)).flushed then a.omit e
      else
        let b := a.batch (m - a.index)
        a.setBatch (m - a.index) { b with members := b.members.put (p % a.size) { e with addr := if e.status = stOk then e.addr else a.dflt } }
  else if e.status = stOk then
    let b := a.batch a.current
    a.setBatch a.current { b with members := b.members.put b.members.length e }
  else a.omit e

/-! Manifests (R438). -/

def Assembler.stride (a : Assembler) : Nat := alignUp (0xC0 + 32 * (a.size + 64)) 64

def ManEntry.bytes (e : ManEntry) : List Byte :=
  leb 8 e.id ++ leb 8 e.addr ++ leb 4 (min e.units 0xFFFF_FFFF) ++ leb 2 e.frames ++ leb 2 e.status ++ leb 2 e.detail ++ leb 1 e.engine ++ zeros 5

/-- The mask bits of a batch: positions whose sample is decoded. -/
def Batch.valid (b : Batch) : List Nat := (b.members.filter (fun e => e.2.status == stOk)).map Prod.fst

/-- The manifest of the oldest batch, for a frame session and its USER_ID. -/
def Assembler.manifest (a : Assembler) (id user : Nat) : List Byte :=
  let b := a.batch 0
  let mask := b.valid.foldl (fun v j => v + 2 ^ j) 0
  let om := b.omissions.take 64
  padTo a.stride (leb 4 0x5448_4342 ++ leb 1 (b2n a.strict) ++ leb 1 (b2n b.flushed + 2 * b2n (b.omissions.length > 64)) ++ leb 2 a.size
    ++ leb 8 a.index ++ leb 2 b.valid.length ++ leb 2 om.length ++ leb 4 (min b.omissions.length 0xFFFF_FFFF)
    ++ leb 8 (if a.strict then a.idBase + a.index * a.size else 0) ++ leb 4 id ++ zeros 4 ++ leb 8 user ++ zeros 16 ++ leb 128 mask
    ++ (List.range a.size).flatMap (fun j => match b.members.find j with
      | some e => e.bytes
      | none => zeros 32)
    ++ om.flatMap ManEntry.bytes)

/-- The ARGS of a batch's item (R439). -/
def Assembler.itemArgs (a : Assembler) (id : Nat) : List Byte :=
  let b := a.batch 0
  leb 8 (a.man + a.written % a.entries * a.stride) ++ leb 8 a.index ++ leb 2 b.valid.length ++ leb 2 a.size
    ++ leb 4 (min b.omissions.length 0xFFFF_FFFF) ++ leb 4 id ++ zeros 4

/-- What a FLUSH of a batch waits for. -/
def flushWait (id m : Nat) : Wait := .flush id m

/-! FLUSH (R440). -/

/-- What a position holds that has not ended when its batch is flushed: the sample that has started there, or none. -/
def holeEntry (x : FSession) (a : Assembler) (p : Nat) : ManEntry :=
  match x.samples.vals.find? (fun y => y.position == some p) with
  | some y => ⟨a.idBase + p, a.dflt, y.units, y.frames.length, stState, 0x0A10, y.engine⟩
  | none => ⟨a.idBase + p, a.dflt, 0, 0, stState, 0x0A10, 0xFF⟩

/-- The first batch that is not complete closed as it stands. -/
def flushBatch (x : FSession) (a : Assembler) : Assembler :=
  let i := a.current
  let b := a.batch i
  let holes := fun (t : Tbl ManEntry) => (List.range a.size).foldl (fun t j =>
    if (t.find j).isSome then t else t.put j (holeEntry x a ((a.index + i) * a.size + j))) t
  a.setBatch i { b with flushed := true, members := if a.strict then holes b.members else b.members }

/-! A session that closes (R419). -/

/-- A closing session without samples flushes what is partly assembled and ends once nothing is left to emit. -/
def State.settleFrames (s : State) (id : Nat) : State :=
  match s.fsession id with
  | none => s
  | some x =>
    if !x.closing || !x.samples.isEmpty then s
    else
      let gone := fun (s : State) => ({ s with frames := { s.frames with sessions := s.frames.sessions.del id } }).finishAll (.frameClose id) stOk []
      match x.asm with
      | none => gone s
      | some a =>
        if a.anyPartly then s.modAsm id (flushBatch x)
        else if a.item.isSome || a.done 0 then s
        else gone s

/-! BATCH_EMIT and MANIFEST_RING_POLL. -/

/-- The item of the manifest last written offered to BATCH_FLOW; once it has entered the batch is emitted. -/
def offerBatch (id : Nat) (s : State) : State :=
  match s.fsession id with
  | none => s
  | some x => match x.asm with
    | none => s
    | some a => match a.item with
      | none => s
      | some b =>
        let r := s.emit a.flow (b ++ leb 8 x.userId) 2 32
        if r.1 then
          ((r.2.modAsm id (fun a => { a with item := none, index := a.index + 1, batches := a.batches.drop 1 })).finishAll
            (flushWait id a.index) stOk []).settleFrames id
        else r.2

/-- BATCH_EMIT: a complete batch's manifest is written where the ring has room, and its item enters BATCH_FLOW. -/
def batchEmit (id : Nat) (s : State) : State :=
  match s.fsession id with
  | none => s
  | some x => match x.asm with
    | none => s
    | some a =>
      if !s.intakeActive then s
      else if a.item.isSome then offerBatch id s
      else if a.done 0 && !a.full then
        let s1 := s.writeDropped x.ctx (a.man + a.written % a.entries * a.stride) (a.manifest id x.userId)
        offerBatch id (s1.modAsm id (fun a => { a with item := some (a.itemArgs id), written := (a.written + 1) % 2 ^ 32 }))
      else s

/-- MANIFEST_RING_POLL: MCONS_ADDR read while the ring is full. -/
def manifestPoll (id : Nat) (s : State) : State :=
  match s.fsession id with
  | none => s
  | some x => match x.asm with
    | none => s
    | some a =>
      if s.intakeActive && a.full then
        match Io.exec (memRead x.ctx a.mcons 4) s with
        | (.error _, s1) => s1
        | (.ok b, s1) => s1.modAsm id (fun a => { a with consumed := le b })
      else s

/-! BATCH_CONFIG (R434, R435). -/

/-- The first range that a request names and that its context may not access, with its field's offset. -/
def rangesAt (s : State) (ctx : Nat) (l : List (Nat × Nat × Nat × Need)) : Bool × Err :=
  match l.findSome? (fun r => (rangeRefused s ctx r.2.1 r.2.2.1 r.2.2.2).map (fun e => errAt e r.1)) with
  | none => (false, err0 stXlate)
  | some e => (true, e)

/-- A request refused for a range counts as a refused access (R213). -/
def rangeReply (s : State) (ctx : Nat) (ranges : Bool × Err) (e : Err) : Reply :=
  .err e (if ranges.1 && ranges.2 == e then s.countRefused ctx e.status else s)

/-- The failures of BATCH_CONFIG in table order. -/
def batchFails (s : State) (ctx : Nat) (p : List Byte) : List (Bool × Err) :=
  let act := fld p 0 1
  let attach := act == 0
  let b := fld p 2 2
  let n := fld p 0x18 4
  let fs := s.fsession (fld p 4 4)
  let strict := fld p 1 1 == 1
  let dflt := match fs with
    | none => 1
    | some x => ((tFootprint (x.template.take 256) 0).2 + 1).toNat
  [ (p.length != 64, err0 stArg),
    fieldErr stArg 0 ([(decide (act > 2), 0), (attach && decide (fld p 1 1 > 1), 1), (attach && flowReserved (fld p 8 4) && fld p 8 4 != 0xFFFF_FFFF, 8)] ++
      reservedBytes p [(0xC, 4), (0x1C, 4), (0x38, 8)] ++
      (if attach then (if strict then [] else reservedBytes p [(0x28, 8), (0x30, 8)]) else 
        reservedBytes p [(1, 1), (2, 2), (8, 4), (0x10, 8), (0x18, 4), (0x20, 8), (0x28, 8), (0x30, 8)])),
    fieldErr stRange 0 [(attach && (b < 1 || b > 1024), 2), (attach && (!isPow2 n || n < 2 || n > 4096), 0x18)],
    fieldErr stAlign 0 [(attach && fld p 0x10 8 % 64 != 0, 0x10), (attach && fld p 0x20 8 % 8 != 0, 0x20)],
    (attach && (rangesAt s ctx [(0x10, fld p 0x10 8, n * alignUp (0xC0 + 32 * (b + 64)) 64, .w), (0x20, fld p 0x20 8, 4, .r)]).1,
      (rangesAt s ctx [(0x10, fld p 0x10 8, n * alignUp (0xC0 + 32 * (b + 64)) 64, .w), (0x20, fld p 0x20 8, 4, .r)]).2),
    (attach && strict && (rangesAt s ctx [(0x28, fld p 0x28 8, dflt, .r)]).1, (rangesAt s ctx [(0x28, fld p 0x28 8, dflt, .r)]).2),
    fieldErr stPerm 0 [(match fs with
      | none => false
      | some x => x.ctx != ctx, 4), (attach && flowForeign s ctx (fld p 8 4), 8)],
    fieldErr stState 0 [(fs.isNone, 4), (attach && (fld p 8 4 == 0xFFFF_FFFF || !flowUsable s (fld p 8 4)), 8)],
    (match fs with
      | none => true
      | some x => if attach then x.asm.isSome || !x.samples.isEmpty
        else match x.asm with
          | none => true
          | some a => act == 2 && (a.anyPartly || a.item.isSome || a.done 0), err0 stState) ]

/-- An assembler as ATTACH configures it. -/
def asmOf (p : List Byte) : Assembler :=
  ⟨fld p 1 1 == 1, fld p 2 2, fld p 8 4, fld p 0x10 8, fld p 0x18 4, fld p 0x20 8, fld p 0x28 8, fld p 0x30 8, 0, [], 0, 0, none⟩

/-- BATCH_CONFIG. -/
def batchConfig : Handler := fun f _ x s =>
  let p := f.payload
  let id := fld p 4 4
  match firstFail (batchFails s x.ctx p) with
  | some e => .err e (if e.status == stXlate || (e.status == stPerm && e.arg != 4 && e.arg != 8) then s.countRefused x.ctx e.status else s)
  | none => match fld p 0 1 with
    | 0 => .ok [] (s.modFs id (fun x => { x with asm := some (asmOf p) }))
    | 1 => match s.fsession id with
      | none => .ok [] s
      | some x => match x.asm with
        | none => .ok [] s
        | some a =>
          if a.anyPartly then .wait (flushWait id (a.index + a.current)) (s.modAsm id (flushBatch x)) else .ok [] s
    | _ => .ok [] (s.modFs id (fun x => { x with asm := none }))

def execBatchEmit (id : Nat) (s : State) : Host.Outcome State Fault Refusal := .next (batchEmit id s)
def execManifestRingPoll (id : Nat) (s : State) : Host.Outcome State Fault Refusal := .next (manifestPoll id s)
def execBatchAttach (f : Frame) (s : State) : Host.Outcome State Fault Refusal := .next (rcpAction 0x0531 0 0 batchConfig f s)
def execBatchFlush (f : Frame) (s : State) : Host.Outcome State Fault Refusal := .next (rcpAction 0x0531 0 1 batchConfig f s)
def execBatchDetach (f : Frame) (s : State) : Host.Outcome State Fault Refusal := .next (rcpAction 0x0531 0 2 batchConfig f s)

end Sys2Proof.Machine
end

