-- ==== Sys2Proof/Machine/FabLink.lean ====
section
/-!
DEFINITION. Fabric links: frames, credits and replay (R445 to R452), routing and loss reports (R457 to R461, R466).
-/
namespace Sys2Proof.Machine
open Sys2Proof

/-! Ports. -/

/-- A Fabric Port after reset. -/
def FPort.init0 : FPort where
  state := .down
  peerSerial := 0
  peerPort := 0
  peerGrat := 0xFFFF
  peerMac := none
  gotInit := false
  txSeq := 0
  rxSeq := 0
  replay := []
  queue := []
  spent := [0, 0, 0, 0]
  init := [0, 0, 0, 0]
  granted := [0, 0, 0, 0]
  returned := [0, 0, 0, 0]
  shown := [0, 0, 0, 0]
  rx := []
  nak := none
  replays := 0
  owes := false
  lastRx := 0
  lastTx := 0
  crcErr := 0
  replayCount := 0
  failures := 0
  discards := 0
  txBytes := 0
  rxBytes := 0

def State.fport (s : State) (p : Nat) : FPort := s.fab.ports.at FPort.init0 p
def State.modFport (s : State) (p : Nat) (f : FPort → FPort) : State :=
  { s with fab := { s.fab with ports := s.fab.ports.upd FPort.init0 p (f (s.fport p)) } }

/-- Whether a port is UP. -/
def State.fabUp (s : State) (p : Nat) : Bool := (s.fport p).state == .up

/-- The ports that are UP. -/
def State.upPorts (s : State) : List Nat := (List.range 12).filter s.fabUp

/-- Whether a port is frozen (R479). -/
def State.portFrozen (s : State) (p : Nat) : Bool := s.frozen (partIsland (islFabric p))

/-- Whether the part carries frames: it is not in core reset (R479). -/
def State.fabServes (s : State) : Bool := s.ctl.held.isNone

/-- The part's own address as it shows it: none while it is ALONE, with no UP link (R455). It keeps the address all the same (R456). -/
def State.grat (s : State) : Nat := if s.upPorts.isEmpty then 0xFFFF else s.fab.grat

/-- Whether an address is the one that the part keeps. -/
def State.isOwn (s : State) (g : Nat) : Bool := decide (g < 4096) && g == s.fab.grat

/-- A fabric event (R472). -/
def State.fabEvent (s : State) (code grat port serial : Nat) : State :=
  s.event (fun _ => true) 3 code (leb 2 grat ++ leb 1 port ++ zeros 1 ++ leb 4 s.fab.epoch ++ leb 8 serial)

/-! Frames (R446, R447, R464). -/

/-- The LENGTH of a DATA frame: its payload's bytes, or those that a READ_REQ asks for. -/
def TFrame.len (f : TFrame) : Nat := if f.op = 1 then f.want else f.payload.length

/-- The transport header and payload of a DATA frame. -/
def TFrame.bytes (f : TFrame) : List Byte :=
  leb 2 f.dst ++ leb 2 f.src ++ leb 1 f.op ++ leb 1 f.hops ++ leb 2 f.key ++ leb 1 f.ctx ++ leb 1 f.flags ++ leb 2 f.len
    ++ leb 4 f.tag ++ leb 8 f.addr ++ leb 8 f.aux ++ f.payload

/-- A DATA frame from its bytes. -/
def tframeOf (b : List Byte) : TFrame where
  dst := fld b 0 2
  src := fld b 2 2
  op := fld b 4 1
  hops := fld b 5 1
  key := fld b 6 2
  ctx := fld b 8 1
  flags := fld b 9 1
  tag := fld b 0xC 4
  addr := fld b 0x10 8
  aux := fld b 0x18 8
  payload := if fld b 4 1 = 1 then [] else sub b 0x20 (fld b 0xA 2)
  want := if fld b 4 1 = 1 then fld b 0xA 2 else 0

/-- Credits that a DATA frame costs (R452). -/
def TFrame.cost (f : TFrame) : Nat := ceilDiv (32 + f.len) 64

/-- The bytes of a link frame from its header on, with the CREDITS it shows; bad spoils its CRC (R446, R447). -/
def linkBytes (credits : List Nat) (kind vc seq ack : Nat) (body : List Byte) (bad : Bool) : List Byte :=
  let b := leb 1 1 ++ leb 1 kind ++ leb 1 vc ++ zeros 1 ++ leb 2 seq ++ leb 2 ack ++ credits.flatMap (leb 2) ++ body
  let c := crc32c b
  b ++ leb 4 (if bad then Nat.xor c 1 else c)

/-- The Ethernet frame around it: addresses, ethertype 0x88B5, zero bytes up to the minimum size, FCS (R445, R446). -/
def etherBytes (dst src b : List Byte) : List Byte :=
  let e := dst ++ src ++ beb 2 0x88B5 ++ padTo (max 46 b.length) b
  e ++ leb 4 (crc32 e)

/-- A link frame sent on a port, to its peer's address where it has learned it; a frozen port shows no more credits than before (R479). -/
def State.sendLink (s : State) (p kind vc seq ack : Nat) (body : List Byte) (bad : Bool) : State :=
  let x := s.fport p
  let credits := if s.portFrozen p then x.shown else x.returned
  (s.send (.fabric p (etherBytes (x.peerMac.getD (List.replicate 6 0xFF)) (s.fw.fuses.portMacBytes p)
    (linkBytes credits kind vc seq ack body bad)))).modFport p (fun x => { x with lastTx := s.ctl.now, shown := credits })

/-! Sending (R449, R452). -/

/-- Credits of a virtual channel left to spend. -/
def FPort.credit (x : FPort) (vc : Nat) : Nat := nth x.init 0 vc + nth x.granted 0 vc - nth x.spent 0 vc

/-- The bytes in a replay buffer. -/
def FPort.replayBytes (x : FPort) : Nat := (x.replay.map (fun e => 32 + e.2.2.payload.length)).sum

/-- A frame's credits returned to the port it came in by (R452). -/
def State.giveBack (s : State) (arr vc : Nat) (f : TFrame) : State :=
  if arr < 12 then s.modFport arr (fun x => { x with returned := modNth x.returned vc (· + f.cost) }) else s

/-- A request of the part has left it (R467). -/
def State.leaves (s : State) (arr : Nat) (f : TFrame) : State :=
  match (if arr = 12 ∧ f.op < 4 then s.fab.reqs.find f.tag else none) with
  | none => s
  | some r => { s with fab := { s.fab with reqs := s.fab.reqs.put f.tag { r with sentAt := some (r.sentAt.getD s.ctl.now) } } }

/-- A DATA frame sent with the next sequence number and kept for replay. An armed injection spoils its CRC (R525). -/
def State.transmit (s : State) (p vc arr : Nat) (f : TFrame) : State :=
  let x := s.fport p
  let bad := (s.armed 0x0A p).isSome
  let s1 := (if bad then s.disarm 0x0A p else s).sendLink p 0 vc x.txSeq x.rxSeq f.bytes bad
  (s1.modFport p (fun x => { x with
    txSeq := (x.txSeq + 1) % 65536
    replay := x.replay ++ [(x.txSeq, vc, f)]
    spent := modNth x.spent vc (· + f.cost)
    txBytes := x.txBytes + f.payload.length })).giveBack arr vc f |>.leaves arr f

/-- Every frame of the replay buffer sent again, in order (R449). -/
def State.replayPort (s : State) (p : Nat) : State :=
  let x := s.fport p
  (x.replay.foldl (fun a e => a.sendLink p 0 e.2.1 e.1 x.rxSeq e.2.2.bytes false) s).modFport p (fun x =>
    { x with replayCount := min 0xFFFF (x.replayCount + 1), replays := x.replays + 1, owes := false })

/-- A port sends what it can of its queue: in order on each virtual channel, within its credits and its 1 MiB replay buffer, after a replay that it
owes; nothing while frozen. -/
def State.pumpPort (s : State) (p : Nat) : State :=
  if (s.fport p).state ≠ .up ∨ s.portFrozen p then s
  else
    let s := if (s.fport p).owes then s.replayPort p else s
    let x := s.fport p
    let r := x.queue.foldl (fun (a : State × List (Nat × Nat × TFrame) × List Nat) e =>
      let y := a.1.fport p
      if a.2.2.contains e.1 || y.credit e.1 < e.2.2.cost || y.replayBytes + 32 + e.2.2.payload.length > 2 ^ 20 then
        (a.1, a.2.1 ++ [e], e.1 :: a.2.2)
      else (a.1.transmit p e.1 e.2.1 e.2.2, a.2.1, a.2.2)) (s, [], [])
    r.1.modFport p (fun y => { y with queue := r.2.1 })

/-- A frame queued at a port, and what can be sent, sent. -/
def State.pushPort (s : State) (p vc arr : Nat) (f : TFrame) : State :=
  (s.modFport p (fun x => { x with queue := x.queue ++ [(vc, arr, f)] })).pumpPort p

/-! Routing (R457 to R459). -/

/-- Fields of a routing entry. -/
def entCount (e : Nat) : Nat := bits e 18 16
def entPort (e i : Nat) : Nat := bits e (4 * i + 3) (4 * i)
def entSelf (e : Nat) : Bool := bit e 19
def entHops (e : Nat) : Nat := bits e 24 20
def entPorts (e : Nat) : List Nat := (List.range (entCount e)).map (entPort e)

/-- A routing entry. -/
def mkEnt (ports : List Nat) (self : Bool) (hops : Nat) : Nat :=
  ((ports.take 4).zipIdx.map (fun p => p.1 * 16 ^ p.2)).sum + (ports.take 4).length * 2 ^ 16 + b2n self * 2 ^ 19 +
    (if ports.isEmpty then 0 else hops) * 2 ^ 20

/-- Whether an address can be reached. -/
def State.reachable (s : State) (g : Nat) : Bool := entCount (s.fab.routes.at 0 g) != 0 || entSelf (s.fab.routes.at 0 g)

/-- The port of a frame (R459); none where its entry is unreachable. -/
def State.routeOf (s : State) (vc : Nat) (f : TFrame) : Option Nat :=
  let e := s.fab.routes.at 0 f.dst
  if entCount e = 0 then none
  else
    let h := (gHash (leb 2 f.dst ++ leb 2 f.src ++ leb 2 f.key ++ leb 1 vc ++ zeros 1) 0).toNat
    some (entPort e (h / 2 ^ 32 % entCount e))

/-- Whether an ERROR_RESP is a loss report. -/
def TFrame.isLoss (f : TFrame) : Bool :=
  f.op == 12 && bits f.aux 15 0 == stHw && (bits f.aux 31 16 == 0x0B05 || bits f.aux 31 16 == 0x0B09)

/-- The delta records in an EMB_DELTA frame; where the part has no table of its tag, it cannot tell, and the count is a free value. -/
def deltaRecords (s : State) (f : TFrame) : Nat × State :=
  match s.emb.tables.vals.find? (fun t => t.ctx == f.ctx && t.tag == f.aux % 2 ^ 32) with
  | some t => (f.payload.length / (8 + t.d * (if t.deltaBf16 then 2 else 4)), s)
  | none => (s.draw.1 % 2 ^ 32, s.draw.2)

/-- The report that a lost frame draws, discarded at a port (12 for the part itself) (R466). -/
def lossReport (s : State) (port detail : Nat) (f : TFrame) : Option TFrame × State :=
  let aux := stHw + detail * 2 ^ 16 + detId 0x0A port * 2 ^ 32
  let back := fun (g : Nat) => some { f with dst := g, src := s.fab.grat, op := 12, hops := 16, aux := aux, payload := [], want := 0 }
  if f.op ≤ 3 then (back f.src, s)
  else if f.op = 4 then
    let n := deltaRecords s f
    (some { f with op := 7, hops := 16, aux := f.aux % 2 ^ 32 + n.1 * 2 ^ 32, payload := [], want := 0 }, n.2)
  else if f.op = 5 ∨ f.op = 6 then (back f.src, s)
  else if f.isLoss ∨ f.op = 7 ∨ f.op > 12 then (none, s)
  else (back f.dst, s)

/-- A discard counted at a port. -/
def State.countDiscard (s : State) (p : Nat) : State := if p < 12 then s.modFport p (fun x => { x with discards := sat32 x.discards 1 }) else s

/-- A frame on its way from the part or a port of arrival: delivered on the part, sent out of the port its entry names, or none. -/
def tryRoute (s : State) (arr vc : Nat) (f : TFrame) : Option State :=
  if s.isOwn f.dst then
    if arr < 12 then some (s.modFport arr (fun x => { x with rx := x.rx ++ [(vc, f)] }))
    else some { s with fab := { s.fab with loop := s.fab.loop ++ [f] } }
  else match s.routeOf vc f with
    | none => none
    | some p => some (s.pushPort p vc arr f)

/-- The loss report of a frame discarded at a port on its way; where it cannot go it is lost in its turn and counted. The discard itself is counted
by the caller. -/
def State.report (s : State) (port detail : Nat) (f : TFrame) : State :=
  match lossReport s port detail f with
  | (none, s1) => s1
  | (some r, s1) => (tryRoute s1 12 1 r).getD (s1.countDiscard port)

/-- A frame of the part on its way. -/
def State.fabSend (s : State) (vc : Nat) (f : TFrame) : State := (tryRoute s 12 vc f).getD (s.report 12 0x0B09 f)

/-- Whether an address field holds a value that R453 rejects. -/
def gratBad (g : Nat) : Bool := decide (g ≥ 4096) && g != 0xFFFF

/-- A frame that arrived at a port moves on: kept for the part, forwarded, or discarded with a report (R453, R459). One of a reserved OP for the part is
dropped: DESIGN CHOICE of log entry 45. -/
def State.fabForward (s : State) (p vc : Nat) (f : TFrame) : State :=
  let drop := fun (s : State) => (s.countDiscard p).giveBack p vc f
  if f.op = 16 then { s with fab := { s.fab with msgs := s.fab.msgs ++ [(p, f)] } }.giveBack p vc f
  else if gratBad f.dst || gratBad f.src then drop s
  else if s.isOwn f.dst then if f.op > 12 then s.giveBack p vc f else (tryRoute s p vc f).getD s
  else if f.hops = 0 then drop (s.report p 0x0B09 f)
  else (tryRoute s p vc { f with hops := f.hops - 1 }).getD (drop (s.report p 0x0B09 f))

/-- Frames that wait in a port's receive buffer because the part was in core reset or frozen move on. -/
def State.drainRx (s : State) (p : Nat) : State :=
  if s.fabServes && !s.portFrozen p then
    (s.fport p).rx.foldl (fun a e => a.fabForward p e.1 e.2) (s.modFport p (fun x => { x with rx := [] }))
  else s

/-! A failed link (R450, R461). -/

/-- A routing table without a port. -/
def dropPort (p : Nat) (t : Tbl Nat) : Tbl Nat :=
  t.mapV (fun e => if (entPorts e).contains p then mkEnt ((entPorts e).filter (· != p)) (entSelf e) (entHops e) else e)

/-- A port's link fails: counted and reported where it had block lock. A port that leaves UP goes out of every route, its unsent frames are routed anew,
its replay buffer is discarded with loss reports. -/
def State.failPort (s : State) (p : Nat) : State :=
  let x := s.fport p
  if x.state = .up then
    let s1 := { s with fab := { s.fab with
      routes := dropPort p s.fab.routes
      disc := s.fab.disc.map (fun (d : Discovery) => { d with shadow := dropPort p d.shadow })
      changedAt := some s.ctl.now } }
    let s2 := s1.modFport p (fun x => { x with
      state := .failed, replay := [], queue := [], failures := sat32 x.failures 1, gotInit := false, replays := 0, nak := none, owes := false })
    let s3 := x.queue.foldl (fun a e =>
      if e.2.2.op = 16 then a else (tryRoute a e.2.1 e.1 e.2.2).getD (((a.report e.2.1 0x0B09 e.2.2).countDiscard e.2.1).giveBack e.2.1 e.1 e.2.2)) s2
    let s4 := x.replay.foldl (fun a e => if e.2.2.op = 16 then a else (a.report p 0x0B05 e.2.2).countDiscard p) s3
    s4.fabEvent 2 x.peerGrat p x.peerSerial
  else
    let s1 := s.modFport p (fun x => { x with state := .failed, gotInit := false })
    if x.state = .init then (s1.modFport p (fun x => { x with failures := sat32 x.failures 1 })).fabEvent 2 x.peerGrat p x.peerSerial else s1

/-- The link's numbering and credits start afresh (R448, R450). -/
def FPort.fresh (x : FPort) (room : List Nat) (now : Nat) : FPort :=
  { x with txSeq := 0, rxSeq := 0, replay := [], spent := [0, 0, 0, 0], init := room, granted := [0, 0, 0, 0],
           returned := [0, 0, 0, 0], shown := [0, 0, 0, 0], nak := none, replays := 0, owes := false, lastRx := now, state := .up }

/-! Receiving (R445 to R449). -/

/-- The link frame in an Ethernet frame, with the zero bytes after it. -/
def linkPart (f : LinkFrame) : List Byte := sub f.bytes 14 (f.bytes.length - 18)

/-- Whether an Ethernet frame is one that a Fabric Port accepts: 64 to 4,166 bytes, ethertype 0x88B5, so that it has no VLAN tag, a good FCS (R445).
Its destination address is ignored. -/
def frameSound (f : LinkFrame) : Bool :=
  let n := f.bytes.length
  decide (64 ≤ n) && decide (n ≤ 4166) && be (sub f.bytes 12 2) == 0x88B5 && fld f.bytes (n - 4) 4 == crc32 (f.bytes.take (n - 4))

/-- The length of a link frame's fields, without padding, from its header. -/
def linkLen (b : List Byte) : Nat :=
  if fld b 1 1 = 0 then 16 + 32 + (if fld b 0x14 1 = 1 then 0 else fld b 0x1A 2) + 4 else if fld b 1 1 = 3 then 52 else 20

/-- Why a received link frame is discarded: none where it is sound; false for a form that R445 discards, true for a failed check that the CRC detector
reports (R447). -/
def linkBad (f : LinkFrame) : Option Bool :=
  let b := linkPart f
  let n := linkLen b
  if !frameSound f then some false
  else if fld b 1 1 > 3 || fld b 2 1 > 3 || fld b 3 1 != 0 || (fld b 1 1 != 0 && fld b 2 1 != 0) then some true
  else if !(b.length = n || (n < 46 && b.length = 46 && fldZero b n (46 - n))) || (fld b 1 1 = 0 && fld b 0x1A 2 > 4096) then some false
  else if fld b (n - 4) 4 ≠ crc32c (b.take (n - 4)) then some true
  else none

/-- A NAK for the expected sequence number, at most one for each in 2 µs (R449). -/
def State.nakPort (s : State) (p : Nat) : State :=
  let x := s.fport p
  let due := match x.nak with
    | none => true
    | some (e, t) => e != x.rxSeq || decide (t + 200 ≤ s.ctl.now)
  if x.state == .up && due then (s.sendLink p 2 0 0 x.rxSeq [] false).modFport p (fun x => { x with nak := some (x.rxSeq, s.ctl.now) }) else s

/-- A discarded frame counted, reported and answered with a NAK. -/
def State.discardLink (s : State) (p : Nat) (report : Bool) : State :=
  let s1 := s.modFport p (fun x => { x with crcErr := sat32 x.crcErr 1 })
  (if report then s1.fire 0x0A p 0 false else s1).nakPort p

/-- The ACK and CREDITS of a sound frame taken in. -/
def State.ackPort (s : State) (p : Nat) (b : List Byte) : State :=
  let ack := fld b 6 2
  s.modFport p (fun x =>
    let keep := x.replay.dropWhile (fun e => e.1 != ack)
    let known := ack == x.txSeq || x.replay.any (fun e => e.1 == ack)
    let kept := if known then keep else x.replay
    { x with
      lastRx := s.ctl.now
      replay := kept
      replays := if kept.length < x.replay.length then 0 else x.replays
      granted := x.granted.mapIdx (fun v g => g + (fld b (8 + 2 * v) 2 + 65536 - g % 65536) % 65536) })

/-- FABRIC_DATA_RECEIVE: a frame that fails a check is discarded; a sound DATA or IDLE frame's ACK and CREDITS are taken in, and a DATA frame in sequence is
accepted and moves on. NAK and INIT frames are the rows' of their own. -/
def fabDataReceive (p : Nat) (f : LinkFrame) (s : State) : State :=
  if (s.fport p).state ≠ .up then s
  else match linkBad f with
    | some r => s.discardLink p r
    | none =>
      let b := linkPart f
      if fld b 1 1 > 1 then s
      else
        let s1 := s.ackPort p b
        if fld b 1 1 = 1 then s1.pumpPort p
        else if fld b 4 2 ≠ (s1.fport p).rxSeq then (s1.nakPort p).pumpPort p
        else
          let t := tframeOf (sub b 16 (linkLen b - 20))
          let s2 := s1.modFport p (fun x => { x with rxSeq := (x.rxSeq + 1) % 65536, rxBytes := x.rxBytes + t.payload.length })
          let s3 := if s2.fabServes && !s2.portFrozen p then s2.fabForward p (fld b 2 1) t
            else s2.modFport p (fun x => { x with rx := x.rx ++ [(fld b 2 1, t)] })
          s3.pumpPort p

/-- NAK_RECEIVE: the frames from the named sequence number on are sent again, by a frozen port once it is thawed; where eight replays have passed and ACK has not advanced
the link fails (R449, R450). A NAK that names no frame of the replay buffer asks for nothing. -/
def nakReceive (p : Nat) (f : LinkFrame) (s : State) : State :=
  if (s.fport p).state ≠ .up then s
  else match linkBad f with
    | some r => s.discardLink p r
    | none =>
      if fld (linkPart f) 1 1 ≠ 2 then s
      else
        let s1 := s.ackPort p (linkPart f)
        let x := s1.fport p
        if (x.replay.head?.map Prod.fst) ≠ some (fld (linkPart f) 6 2) then s1.pumpPort p
        else if x.replays ≥ 8 then s1.failPort p
        else (s1.modFport p (fun x => { x with owes := true })).pumpPort p

/-! Bringing a link up (R444, R448). -/

/-- The INIT frame of a port. -/
def State.sendInit (s : State) (p : Nat) : State :=
  s.sendLink p 3 0 0 0 (leb 8 s.fw.fuses.serial ++ leb 1 p ++ leb 1 1 ++ leb 1 1 ++ zeros 1 ++ leb 2 s.grat ++ zeros 2 ++ leb 4 s.fab.epoch
    ++ zeros 4 ++ [8192, 8192, 8192, 8192].flatMap (leb 2)) false

/-- FABRIC_LINK_TRAINING: a port whose island is up trains, but not in test bypass (R561); block lock takes it to INIT, where it sends its first
INIT frame. -/
def fabLinkTraining (p : Nat) (s : State) : State :=
  match (s.fport p).state with
  | .up => s
  | .init => s
  | _ => if s.up (islFabric p) ∧ s.clkMode ≠ 3 then (s.modFport p (fun x => { x with state := .init, gotInit := false })).sendInit p else s

/-- INIT_SEND: 10 µs after the last INIT frame, until the peer's INIT has come. -/
def initSend (p : Nat) (s : State) : State :=
  let x := s.fport p
  if x.state = .init ∧ !x.gotInit ∧ x.lastTx + 1000 ≤ s.ctl.now then s.sendInit p else s

/-- INIT_RETRY: a port whose versions do not meet repeats the exchange once a second: it sends INIT until the peer's INIT has come again. -/
def initRetry (p : Nat) (s : State) : State :=
  let x := s.fport p
  if x.state = .init ∧ x.gotInit ∧ x.lastTx + 100000000 ≤ s.ctl.now then (s.modFport p (fun x => { x with gotInit := false })).sendInit p else s

/-- INIT_RECEIVE: the peer's INIT: the link's version is chosen and the port enters UP, or stays in INIT. To a port that is UP it is a valid frame of a
peer that has not come so far, and nothing else. -/
def initReceive (p : Nat) (f : LinkFrame) (s : State) : State :=
  let st := (s.fport p).state
  if st ≠ .init ∧ st ≠ .up then s
  else match linkBad f with
  | some r => s.discardLink p r
  | none =>
    if fld (linkPart f) 1 1 ≠ 3 then s
    else if st = .up then s.modFport p (fun x => { x with lastRx := s.ctl.now })
    else
      let b := sub (linkPart f) 16 32
      let s1 := s.modFport p (fun x => { x with
        gotInit := true, peerSerial := fld b 0 8, peerPort := fld b 8 1, peerGrat := fld b 0xC 2, peerMac := some (sub f.bytes 6 6) })
      if fld b 9 1 ≤ 1 ∧ 1 ≤ fld b 0xA 1 then
        let s2 := s1.modFport p (fun x => x.fresh ((List.range 4).map (fun v => fld b (0x18 + 2 * v) 2)) s.ctl.now)
        (({ s2 with fab := { s2.fab with changedAt := some s.ctl.now } }).fabEvent 1 (fld b 0xC 2) p (fld b 0 8)).relinked (1 + p)
      else s1.fabEvent 7 0xFFFF p (fld b 0 8)

/-- IDLE_SEND: after 1 µs in which nothing was sent. -/
def idleSend (p : Nat) (s : State) : State :=
  let x := s.fport p
  if x.state = .up ∧ x.lastTx + 100 ≤ s.ctl.now then s.sendLink p 1 0 0 x.rxSeq [] false else s

/-- LINK_SILENCE_TIMEOUT: no valid frame for 100 µs. -/
def linkSilence (p : Nat) (s : State) : State :=
  if (s.fport p).state = .up ∧ (s.fport p).lastRx + 10000 ≤ s.ctl.now then s.failPort p else s

/-- FABRIC_LINK_FAIL: the PCS loses block lock. -/
def fabLinkFail (p : Nat) (s : State) : State :=
  match (s.fport p).state with
  | .up => s.failPort p
  | .init => s.failPort p
  | _ => s

/-! The rows. -/

def execFabricLinkTraining (p : Fin 12) (s : State) : Host.Outcome State Fault Refusal := .next (fabLinkTraining p s)
def execInitSend (p : Fin 12) (s : State) : Host.Outcome State Fault Refusal := .next (initSend p s)
def execInitReceive (p : Fin 12) (f : LinkFrame) (s : State) : Host.Outcome State Fault Refusal := .next (initReceive p f s)
def execInitRetry (p : Fin 12) (s : State) : Host.Outcome State Fault Refusal := .next (initRetry p s)
def execFabricDataReceive (p : Fin 12) (f : LinkFrame) (s : State) : Host.Outcome State Fault Refusal := .next (fabDataReceive p f s)
def execNakReceive (p : Fin 12) (f : LinkFrame) (s : State) : Host.Outcome State Fault Refusal := .next (nakReceive p f s)
def execIdleSend (p : Fin 12) (s : State) : Host.Outcome State Fault Refusal := .next (idleSend p s)
def execLinkSilenceTimeout (p : Fin 12) (s : State) : Host.Outcome State Fault Refusal := .next (linkSilence p s)
def execFabricLinkFail (p : Fin 12) (s : State) : Host.Outcome State Fault Refusal := .next (fabLinkFail p s)

end Sys2Proof.Machine
end

