-- ==== Sys2Proof/Machine/MemCmd.lean ====
section
/-!
DEFINITION. CONTEXT_CREATE (R203), MAP and UNMAP (R205 to R209), the draining and retraining of channels (R219 to R222), and maintenance (R199).
-/
namespace Sys2Proof.Machine
open Sys2Proof

/-! CONTEXT_CREATE (R203). -/

/-- A context as it is created. -/
def Ctx.init (signedImages : Bool) (quota : Nat) : Ctx := ⟨signedImages, quota, [], 0, ⟨0, 0, 0, 0, 0, 0⟩, false⟩

/-- The checks of contextCreate, in the order of its table. -/
def contextCreateFails (f : Frame) (s : State) : List (Bool × Err) :=
  let p := f.payload
  let c := fld p 0 2
  let q := fld p 8 8
  let free := firstIdx (fun k => (s.mem.contexts.find (k + 1)).isNone) 255
  [
    (badLength f 16, err0 stArg),
    (fld p 2 2 > 1, errAt stArg 2),
    (!fldZero p 4 4, (reservedErr p [(4, 4)]).getD (err0 stArg)),
    (c > 255, errAt stRange 0),
    (q % 4096 != 0, errAt stAlign 8),
    (c != 0 && (s.mem.contexts.find c).isSome, errAt stState 0),
    (c == 0 && free.isNone, err0 stLimit)]

def contextCreate : Handler := fun f _ _ s =>
  let p := f.payload
  let c := fld p 0 2
  let q := fld p 8 8
  let free := firstIdx (fun k => (s.mem.contexts.find (k + 1)).isNone) 255
  .check (contextCreateFails f s) s <|
  let n := if c = 0 then free.getD 0 + 1 else c
  .ok (leb 2 n ++ zeros 2) { s with mem := { s.mem with contexts := s.mem.contexts.put n (Ctx.init (fld p 2 2 == 1) q) } }

/-! MAP (R205 to R207). -/

/-- The bytes of a page of each PAGE code. -/
def pageBytes (p : Nat) : Nat := if p = 0 then 4096 else if p = 1 then 2 ^ 21 else 2 ^ 30

/-- The mappings of a context that a range touches, those that UNMAP has removed apart. -/
def Ctx.touching (c : Ctx) (va len : Nat) : List Mapping :=
  c.maps.filter (fun m => !m.dying && m.va < va + len && va < m.va + m.len)

/-- Whether a range is wholly covered by the mappings that ok admits. -/
def Ctx.covered (c : Ctx) (ok : Mapping → Bool) (va len : Nat) : Bool :=
  (((c.touching va len).filter ok).map (fun m => min (m.va + m.len) (va + len) - max m.va va)).sum == len

/-- The part of a list of extents from an offset, of a length. -/
def cutExtents : List Extent → Nat → Nat → List Extent
  | [], _, _ => []
  | e :: es, off, len =>
    if off ≥ e.len then cutExtents es (off - e.len) len
    else if len = 0 then []
    else
      let n := min len (e.len - off)
      ⟨n, e.pa + off⟩ :: cutExtents es 0 (len - n)

/-- The physical memory behind a covered range. -/
def Ctx.behind (c : Ctx) (va len : Nat) : List Extent :=
  (c.touching va len).flatMap (fun m =>
    let lo := max m.va va
    cutExtents m.exts (lo - m.va) (min (m.va + m.len) (va + len) - lo))

/-- Whether granules may be placed on a channel for what already lies there or comes back (R221). -/
def State.chanOpen (s : State) (ch : Nat) : Bool := (s.channel ch).state == .active || (s.channel ch).state == .restoring

/-- Check words for a data granule on its own channel: in a check granule with room, or in a free granule; used lists what else is in use (R214). -/
def State.placeCheck (s : State) (used : List Extent) (t : Tbl (List Nat)) (g : Nat) : Option (Tbl (List Nat)) :=
  let ch := channelOf (4096 * g)
  match t.find? (fun e => channelOf (4096 * e.1) == ch && decide (e.2.length < 32) && (s.mem.lost.find e.1).isNone) with
  | some e => some (t.put e.1 (e.2 ++ [g]))
  | none =>
    match findPages (used ++ t.keys.map granuleExt) (fun pa => s.chanOpen ch && channelOf pa == ch) 4096 s.lpddrTop (s.lpddrTop / 4096 + 1) 0 1 [] with
    | some (e :: _) => some (t.put (e.pa / 4096) [g])
    | _ => none

/-- The granules of a list of extents, in order. -/
def granulesOf (es : List Extent) : List Nat := es.flatMap (fun e => (List.range (e.len / 4096)).map (fun i => e.pa / 4096 + i))

/-- Memory allocated for len bytes: pages of a size, and the check granules with the words of an ECC region placed. -/
def State.allocate (s : State) (place size len : Nat) (ecc : Bool) : Option (List Extent × Tbl (List Nat)) :=
  if s.memUsed + eccBytes ecc len > s.memAvailable ∨ (place ≠ 0xFF ∧ 32 ≤ place) then none
  else match s.allocPages place size (len / size) [] with
    | none => none
    | some es =>
      if ecc then ((granulesOf es).foldlM (s.placeCheck (es ++ s.usedExtents)) s.mem.checks).map (fun t => (es, t))
      else some (es, s.mem.checks)

/-- The state with the check granules that an allocation leaves. -/
def State.withChecks (s : State) (t : Tbl (List Nat)) : State := { s with mem := { s.mem with checks := t } }

/-- Extents zeroed (R206). -/
def State.zeroAll (s : State) (es : List Extent) : State :=
  { s with mem := es.foldl (fun m e => m.zero e.pa e.len) s.mem }

/-- The mappings of other contexts that hold a page of an on-die range. -/
def State.heldByOther (s : State) (ctx : Nat) (pa len : Nat) : Bool :=
  s.mem.contexts.any (fun e => e.1 != ctx && e.2.maps.any (fun m => m.exts.any (fun x => x.pa < pa + len && pa < x.pa + x.len)))

/-- Whether a mapping of a context already holds a page. -/
def Ctx.holds (c : Ctx) (pa : Nat) : Bool := c.maps.any (fun m => m.exts.any (fun x => x.pa ≤ pa && pa < x.pa + x.len))

/-- Whether an UNMAP of a context has not ended, or a MAP or UNMAP waits for one (R209). -/
def State.mapBusy (s : State) (ctx : Nat) : Bool :=
  s.running.any (fun c => match c.2.wait with
    | .unmap k _ _ => k == ctx
    | .mapQueue k _ => k == ctx
    | _ => false)

/-- The checks of mapNow, in the order of its table. -/
def mapNowFails (f : Frame) (x : Session) (s : State) : List (Bool × Err) :=
  let p := f.payload
  let va := fld p 0 8
  let len := fld p 8 8
  let kind := fld p 0x10 1
  let page := fld p 0x11 1
  let perm := fld p 0x12 1
  let ecc := fld p 0x13 1 == 1
  let place := fld p 0x14 1
  let src := fld p 0x18 8
  let ctx := fld p 0x20 2
  let size := pageBytes page
  let c := (s.mem.contexts.find ctx).getD (Ctx.init false 0)
  let srcs := c.touching src len
  let onDie := match storeOf src with
    | none => false
    | some (b, n) => decide (src + len ≤ b + n)
  let charge := if kind = 0 then eccBytes ecc len
    else if kind = 2 then 4096 * ((List.range (len / 4096)).filter (fun i => !c.holds (src + 4096 * i))).length else 0
  let place1 := fun m => m.kind == MapKind.alloc || m.kind == MapKind.store || m.kind == MapKind.aliased
  ([
    (badLength f 40, err0 stArg),
    (decide (kind > 2), errAt stArg 0x10),
    (decide (page > 2), errAt stArg 0x11),
    (perm == 0 || decide (perm > 7), errAt stArg 0x12),
    (decide (fld p 0x13 1 > 1), errAt stArg 0x13),
    (!fldZero p 0x15 3 || !fldZero p 0x22 6, (reservedErr p [(0x15, 3), (0x22, 6)]).getD (err0 stArg)),
    (kind == 0 && src != 0, errAt stArg 0x18),
    (kind == 0 && place != 0xFF && page != 0, errAt stArg 0x11),
    (kind != 0 && place != 0xFF, errAt stArg 0x14),
    (kind == 1 && srcs.any (fun m => m.ecc != ecc), errAt stArg 0x13),
    (kind == 2 && page != 0, errAt stArg 0x11),
    (kind == 2 && ecc, errAt stArg 0x13),
    (kind == 2 && !onDie, errAt stArg 0x18)] ++ [
    (bit perm 2, errAt stPerm 0x12),
    (!x.priv && ctx != x.ctx, errAt stPerm 0x20),
    (kind == 1 && srcs.any (fun m => m.kind == .image), errAt stPerm 0x18),
    (len == 0, errAt stRange 8),
    (decide (va < 0x1000 ∨ va + len > 2 ^ 48), errAt stRange 0),
    (place != 0xFF && decide (place > 31), errAt stRange 0x14),
    (decide (ctx > 255), errAt stRange 0x20),
    (va % size != 0, errAt stAlign 0),
    (len % size != 0, errAt stAlign 8),
    ((kind == 1 && src % size != 0) || (kind == 2 && src % 4096 != 0), errAt stAlign 0x18),
    (kind == 1 && srcs.any (fun m => decide (m.page < page)), errAt stAlign 0x11),
    (!(c.touching va len).isEmpty, errAt stOverlap 0)] ++ [
    ((s.mem.contexts.find ctx).isNone || c.destroying, errAt stState 0x20),
    (kind == 1 && !c.covered place1 src len, errAt stState 0x18),
    (kind == 2 && s.heldByOther ctx src len, errAt stState 0x18),
    (!s.quotaOk ctx charge, errD stLimit 1)])

/-- MAP once its turn has come. -/
def mapNow : Handler := fun f _ x s =>
  let p := f.payload
  let va := fld p 0 8
  let len := fld p 8 8
  let kind := fld p 0x10 1
  let page := fld p 0x11 1
  let perm := fld p 0x12 1
  let ecc := fld p 0x13 1 == 1
  let place := fld p 0x14 1
  let src := fld p 0x18 8
  let ctx := fld p 0x20 2
  let size := pageBytes page
  let c := (s.mem.contexts.find ctx).getD (Ctx.init false 0)
  .check (mapNowFails f x s) s <|
  let made : Option (List Extent × Tbl (List Nat)) :=
    if kind = 0 then s.allocate place size len ecc
    else if kind = 1 then some (c.behind src len, s.mem.checks)
    else some ([⟨len, src⟩], s.mem.checks)
  match made with
  | none => .err (errD stLimit 2) s
  | some (es, ck) =>
    if c.maps.length ≥ 65536 then .err (errD stLimit 3) s
    else
      let fresh := if kind = 0 then es else if kind = 1 then [] else
        ((List.range (len / 4096)).map (fun i => src + 4096 * i)).filter (fun a => !c.holds a) |>.map (fun a => ⟨4096, a⟩)
      let m : Mapping := ⟨va, len, if kind = 0 then .alloc else if kind = 1 then .aliased else .store, page,
        bit perm 0, bit perm 1, false, ecc, es, false⟩
      .ok [] (((s.zeroAll fresh).withChecks ck).modCtx ctx (fun c => c.addMap m))

/-! UNMAP (R208). -/

/-- Whether a thread of a context has an access outstanding in a range: it passed the ATU when it was issued. -/
def State.accessing (s : State) (ctx va len : Nat) : Bool :=
  s.pods.threads.any (fun e => s.ctxOf e.1 == ctx &&
    (((e.2.slots.filterMap id).flatMap (fun x => match x.op with
        | .scalar _ n a => [(a, n)]
        | .vector _ es => es.map (fun y => (y.2, 4))
        | .atomic _ _ n a _ _ => [(a, n)]
        | .vatomic _ es => es.map (fun y => (y.1, 4))
        | .hashs _ _ a n _ _ _ => [(a, n)]
        | .gaz _ _ _ _ _ _ => []
        | .join _ _ _ => [])) ++ e.2.stores.flatMap (fun st => st.pieces.map (fun q => (q.1, q.2.length)))).any
      (fun r => r.1 < va + len && va < r.1 + r.2))

/-- The mappings of a range removed. -/
def State.unmapRange (s : State) (ctx va len : Nat) : State :=
  match s.mem.contexts.find ctx with
  | none => s
  | some c => ((c.maps.filter (fun m => va ≤ m.va && m.va + m.len ≤ va + len)).map Mapping.va).foldl (fun a v => a.dropMap ctx v) s

/-- The checks of unmapNow, in the order of its table. -/
def unmapNowFails (f : Frame) (x : Session) (s : State) : List (Bool × Err) :=
  let p := f.payload
  let va := fld p 0 8
  let len := fld p 8 8
  let ctx := fld p 0x10 2
  let c := (s.mem.contexts.find ctx).getD (Ctx.init false 0)
  let hit := c.touching va len
  [
    (badLength f 24, err0 stArg),
    (!fldZero p 0x12 6, (reservedErr p [(0x12, 6)]).getD (err0 stArg)),
    (hit.any (fun m => decide (m.va < va ∨ va + len < m.va + m.len)), errAt stRange 0),
    (hit.any (fun m => m.kind == .image), errAt stPerm 0),
    (!x.priv && ctx != x.ctx, errAt stPerm 0x10),
    ((s.mem.contexts.find ctx).isNone || hit.isEmpty, errAt stState 0)]

def unmapNow : Handler := fun f _ x s =>
  let p := f.payload
  let va := fld p 0 8
  let len := fld p 8 8
  let ctx := fld p 0x10 2
  .check (unmapNowFails f x s) s <|
  if s.accessing ctx va len then
    .wait (.unmap ctx va len) (s.modCtx ctx (fun c => { c with maps := c.maps.map (fun m =>
      if va ≤ m.va && m.va + m.len ≤ va + len then { m with dying := true } else m) }))
  else .ok [] (s.unmapRange ctx va len)

/-- MAP and UNMAP take effect one at a time, in the order they start (R209). -/
def inTurn (off : Nat) (h : Handler) : Handler := fun f sid x s =>
  if s.mapBusy (fld f.payload off 2) then .wait (.mapQueue (fld f.payload off 2) f) s else h f sid x s

def mapCmd : Handler := inTurn 0x20 mapNow
def unmapCmd : Handler := inTurn 0x10 unmapNow

/-! Moving granules (R221, R222). -/

/-- The granules of a list of extents on a channel, lowest first. -/
def granulesOn (ch : Nat) (es : List Extent) : List Nat :=
  sortBy (fun a b => decide (a ≤ b)) (es.flatMap (fun e => ((List.range (e.len / 4096)).map (fun i => e.pa / 4096 + i)).filter (fun g =>
    decide (4096 * g < lpddrEnd) && channelOf (4096 * g) == ch))).eraseDups

/-- The granules in use on a channel. -/
def State.inUse (s : State) (ch : Nat) : List Nat := granulesOn ch s.usedExtents

/-- An extent with one granule moved. -/
def Extent.move (src dst : Nat) (e : Extent) : List Extent :=
  let a := 4096 * src
  if e.pa ≤ a ∧ a < e.pa + e.len then
    [⟨a - e.pa, e.pa⟩, ⟨4096, 4096 * dst⟩, ⟨e.pa + e.len - a - 4096, a + 4096⟩].filter (fun x => x.len != 0)
  else [e]

/-- A list of extents with one granule moved. -/
def moveExtents (src dst : Nat) (es : List Extent) : List Extent := (es.flatMap (Extent.move src dst)).foldl addExtent []

/-- A context whose mappings lie elsewhere. -/
def Ctx.remap (fix : List Extent → List Extent) (c : Ctx) : Ctx := { c with maps := c.maps.map (fun x => { x with exts := fix x.exts }) }

/-- Whether a data granule has check words. -/
def State.checked (s : State) (g : Nat) : Bool := s.mem.checks.vals.any (fun l => l.contains g)

/-- The check granules after a data granule has moved: its check words go to its new channel with it (R222). -/
def State.moveChecks (s : State) (src dst : Nat) : Tbl (List Nat) :=
  if s.checked src then
    let t := s.mem.dropChecks (· == src)
    (s.placeCheck (granuleExt dst :: s.usedExtents) t dst).getD t
  else s.mem.checks

/-- A granule's contents and errors copied to a free one, and every translation of it switched (R222). -/
def State.moveGranule (s : State) (src dst : Nat) : State :=
  let m := s.mem
  let fix := moveExtents src dst
  let m1 := ((m.zero (4096 * dst) 4096).write (4096 * dst) (m.read (4096 * src) 4096)).zero (4096 * src) 4096
  let bad := m.badBlocks.filter (fun e => e.1 / 64 == src)
  let bads := bad.foldl (fun (t : Tbl Bool) (e : Nat × Bool) => t.put (64 * dst + e.1 % 64) e.2) m1.badBlocks
  let checks := s.moveChecks src dst
  let s1 := { s with mem := { m1 with
    badBlocks := bads
    reserved := fix m.reserved
    contexts := m.contexts.mapV (Ctx.remap fix)
    checks := checks
    moves := m.moves + 1
    lost := match m.lost.find src with
      | none => m.lost.keep (fun g _ => !((m.checks.find g).isSome && (checks.find g).isNone))
      | some k => ((m.lost.keep (fun g _ => !((m.checks.find g).isSome && (checks.find g).isNone))).del src).put dst k } }
  (s1.modChannel (channelOf (4096 * src)) (fun c => { c with reads := c.reads + 64 })).modChannel (channelOf (4096 * dst))
    (fun c => { c with writes := c.writes + 64 })

/-- The moved granules of every channel after a granule that lay at src has gone to dst: a channel that drained it before the n-th move still knows
where it is, one that drained it later has nothing left to bring back. -/
def State.trackMoved (s : State) (src dst n : Nat) : State :=
  { s with mem := { s.mem with channels := s.mem.channels.mapV (fun c => { c with
    moved := (c.moved.filter (fun p => p.now != src || p.nth < n)).map (fun p => if p.now = src then { p with now := dst } else p) }) } }

/-- The state of a channel set. -/
def State.setChannel (s : State) (ch : Nat) (st : ChState) : State := s.modChannel ch (fun c => { c with state := st })

/-- A RETRAIN_CHANNEL on a channel ends. -/
def State.endRetrain (s : State) (ch : Nat) : State := { s with mem := { s.mem with retrains := s.mem.retrains.del ch } }

/-- The count in the completion of RETRAIN_CHANNEL. -/
def movedPayload (n : Nat) : List Byte := leb 4 n ++ zeros 4

/-- What follows once a channel being drained is empty, and once a channel being restored has its granules back. -/
def retrainSettle (ch : Nat) (s : State) : State :=
  match s.mem.retrains.find ch with
  | none => s
  | some r => match (s.channel ch).state with
    | .draining =>
      if (s.inUse ch).isEmpty then
        if r.action = 1 then ((s.setChannel ch .outOfService).endRetrain ch).finishAll (.channel ch) stOk (movedPayload r.count)
        else s.setChannel ch .retraining
      else s
    | .restoring =>
      if (s.channel ch).moved.isEmpty then
        ((s.setChannel ch .active).endRetrain ch).finishAll (.channel ch) stOk (movedPayload r.count)
      else s
    | _ => s

/-- Free bytes on the channels other than one. What firmware holds for contexts outside any mapping is counted as lying on them (DESIGN CHOICE, log
entry 70). -/
def State.lpddrFree (s : State) (ch : Nat) : Nat :=
  ((List.range 128).map (fun c =>
    if c != ch && (s.channel c).state == .active then s.mem.density * 2 ^ 30 / 4 - 4096 * (s.inUse c).length else 0)).sum -
    (s.mem.contexts.vals.map Ctx.other).sum

/-- The checks of retrainChannel, in the order of its table. -/
def retrainChannelFails (f : Frame) (s : State) : List (Bool × Err) :=
  let p := f.payload
  let ch := fld p 0 1
  let act := fld p 1 1
  let st := (s.channel ch).state
  let room := s.lpddrFree ch
  [
    (badLength f 8, err0 stArg),
    (act > 2, errAt stArg 1),
    (!fldZero p 2 6, (reservedErr p [(2, 6)]).getD (err0 stArg)),
    (ch > 127, errAt stRange 0),
    (act != 2 && st != .active, errAt stState 0),
    (act == 2 && st != .outOfService && st != .lost, errAt stState 0),
    ((List.range 4).any (fun k => (s.mem.retrains.find (ch / 4 * 4 + k)).isSome), errAt stState 0),
    (act != 2 && room < 4096 * (s.inUse ch).length, err0 stLimit)]

/-- RETRAIN_CHANNEL (R219 to R221). -/
def retrainChannel : Handler := fun f _ _ s =>
  let p := f.payload
  let ch := fld p 0 1
  let act := fld p 1 1
  .check (retrainChannelFails f s) s <|
  let s1 := { s with mem := { s.mem with retrains := s.mem.retrains.put ch ⟨act, 0⟩ } }
  if act = 2 then .wait (.channel ch) (s1.setChannel ch .retraining)
  else if (s.inUse ch).isEmpty then
    if act = 1 then .ok (movedPayload 0) ((s1.setChannel ch .outOfService).endRetrain ch)
    else .wait (.channel ch) (s1.setChannel ch .retraining)
  else .wait (.channel ch) (s1.setChannel ch .draining)

/-- The granules copied by one move: the data granule, and the check granule that it leaves empty or begins. -/
def State.copied (s : State) (src dst : Nat) (back : Bool) : Nat :=
  let t := s.moveChecks src dst
  1 + if back then t.keys.countP (fun g => (s.mem.checks.find g).isNone) else s.mem.checks.keys.countP (fun g => (t.find g).isNone)

/-- A data granule of a channel being drained, and a free granule on another channel, with room for its check words where it has some (R221, R222). -/
def State.nextMove (s : State) (ch : Nat) : Option (Nat × Nat) :=
  match (s.inUse ch).filter (fun g => (s.mem.checks.find g).isNone) with
  | [] => none
  | g :: _ =>
    let ok := fun pa => s.pageOk 0xFF 4096 pa && channelOf pa != ch &&
      (!s.checked g || (s.placeCheck (granuleExt (pa / 4096) :: s.usedExtents) (s.mem.dropChecks (· == g)) (pa / 4096)).isSome)
    match findPages s.usedExtents ok 4096 s.lpddrTop (s.lpddrTop / 4096 + 1) 0 1 [] with
    | some (e :: _) => some (g, e.pa / 4096)
    | _ => none

/-- GRANULE_COPY_DONE: one granule of a channel being drained moves to a free granule elsewhere, or one of a channel being restored moves
back (R222). A Freeze of the controller holds the copies (R228). -/
def granuleCopyDone (ch : Nat) (s : State) : State :=
  if s.frozen (partIsland (islMc (ch / 4))) then s
  else match s.mem.retrains.find ch with
  | none => s
  | some r =>
    let count := fun n (a : State) => { a with mem := { a.mem with retrains := a.mem.retrains.put ch { r with count := r.count + n } } }
    match (s.channel ch).state with
    | .draining => match s.nextMove ch with
      | none => retrainSettle ch s
      | some (g, d) =>
        retrainSettle ch (count (s.copied g d false) (((s.moveGranule g d).trackMoved g d s.mem.moves).modChannel ch (fun c => { c with
          moved := c.moved ++ [⟨g, d, s.mem.moves⟩] })))
    | .restoring => match (s.channel ch).moved with
      | [] => retrainSettle ch s
      | x :: _ => retrainSettle ch (count (if r.action = 2 then s.copied x.now x.own true else 0) ((s.moveGranule x.now x.own).trackMoved x.now x.own x.nth))
    | _ => s

/-- CHANNEL_TRAINING_DONE: a channel in training passes, and its granules come back, or fails (R221). -/
def channelTrainingDone (ch : Nat) (r : Training) (s : State) : State :=
  if (s.channel ch).state ≠ .retraining ∨ !s.up (islMc (ch / 4)) then s
  else match r with
    | .pass _ => retrainSettle ch (s.setChannel ch .restoring)
    | .fail => ((s.setChannel ch .outOfService).endRetrain ch).failAll (.channel ch) (errD stHw 1)
    | .absent => ((s.setChannel ch .outOfService).endRetrain ch).failAll (.channel ch) (errD stHw 1)

/-! The rows. -/

def execContextCreate (f : Frame) (s : State) : Host.Outcome State Fault Refusal := .next (rcpRun 0x0200 contextCreate f s)
def execMap (f : Frame) (s : State) : Host.Outcome State Fault Refusal := .next (rcpRun 0x0202 mapCmd f s)
def execUnmap (f : Frame) (s : State) : Host.Outcome State Fault Refusal := .next (rcpRun 0x0203 unmapCmd f s)
def execRetrainChannel (f : Frame) (s : State) : Host.Outcome State Fault Refusal := .next (rcpAction 0x0204 1 0 retrainChannel f s)
def execChannelDrain (f : Frame) (s : State) : Host.Outcome State Fault Refusal := .next (rcpAction 0x0204 1 1 retrainChannel f s)
def execChannelRetrainRestore (f : Frame) (s : State) : Host.Outcome State Fault Refusal :=
  .next (rcpAction 0x0204 1 2 retrainChannel f s)
def execGranuleCopyDone (ch : Fin 128) (s : State) : Host.Outcome State Fault Refusal := .next (granuleCopyDone ch s)
def execChannelTrainingDone (ch : Fin 128) (r : Training) (s : State) : Host.Outcome State Fault Refusal :=
  .next (channelTrainingDone ch r s)

/-- Maintenance goes on beside the traffic and changes nothing that a requester sees (R199). -/
def execPerBankRefresh (_mc : Fin 32) (s : State) : Host.Outcome State Fault Refusal := .next s
def execZqCalibration (_mc : Fin 32) (s : State) : Host.Outcome State Fault Refusal := .next s
def execDqsTracking (_ch : Fin 128) (s : State) : Host.Outcome State Fault Refusal := .next s

end Sys2Proof.Machine
end

