-- ==== Sys2Proof/Machine/EmbBase.lean ====
section
/-!
DEFINITION. Embedding tables: rows (R312, R313), indices and partition maps (R317 to R320), versions (R335, R336), coalescing buffers (R329, R332),
row updates (R330, R331) and steps (R328).
-/
namespace Sys2Proof.Machine
open Sys2Proof

/-! Tables. -/

def EmbCtr.zero : EmbCtr := ⟨0, 0, 0, 0, 0, 0, 0, 0, 0, 0, 0, 0, 0, 0, 0, 0⟩
def EmbUnitCtr.zero : EmbUnitCtr := ⟨0, 0, 0, 0, 0, 0⟩

/-- Code bytes, the offset of the optimiser state, and the stride of a row (R312). -/
def EmbTable.codeBytes (t : EmbTable) : Nat := if t.bits = 8 then t.d else t.d / 2
def EmbTable.stateOff (t : EmbTable) : Nat := alignUp (8 + t.codeBytes) 4
def EmbTable.stateBytes (t : EmbTable) : Nat := if t.opt = 0 then 0 else if t.opt = 1 then 4 else 4 * t.d
def EmbTable.stride (t : EmbTable) : Nat := alignUp (t.stateOff + t.stateBytes) 32
/-- The bytes of a version's storage, and of the coalescing buffers (R315). -/
def EmbTable.storageLen (t : EmbTable) : Nat := alignUp ((t.rows + 1) * t.stride) (2 ^ 21)
def EmbTable.bufBytes (t : EmbTable) : Nat := if bit t.flags 0 then 32 * 65536 * alignUp (4 * t.d) 64 else 0
def EmbTable.updates (t : EmbTable) : Bool := bit t.flags 0
def EmbTable.defaultGrad (t : EmbTable) : Bool := bit t.flags 1
def EmbTable.stochastic (t : EmbTable) : Bool := bit t.flags 2
def EmbTable.ecc (t : EmbTable) : Bool := bit t.flags 3

/-- A table that has not been destroyed. -/
def State.embTable (s : State) (h : Nat) : Option EmbTable :=
  match s.emb.tables.find h with
  | none => none
  | some t => if t.dying then none else some t

/-- The state with a table changed. -/
def State.modEmb (s : State) (h : Nat) (f : EmbTable → EmbTable) : State :=
  match s.emb.tables.find h with
  | none => s
  | some t => { s with emb := { s.emb with tables := s.emb.tables.put h (f t) } }

def State.modEmbCtr (s : State) (h : Nat) (f : EmbCtr → EmbCtr) : State := s.modEmb h (fun t => { t with ctr := f t.ctr })
def State.modEmbUnit (s : State) (u : Nat) (f : EmbUnitCtr → EmbUnitCtr) : State :=
  { s with emb := { s.emb with ctr := s.emb.ctr.upd EmbUnitCtr.zero u (f (s.emb.ctr.at EmbUnitCtr.zero u)) } }

/-- The storage of a version. -/
def EmbTable.va (t : EmbTable) (v : Nat) : Nat := ((t.versions.find v).map EmbVersion.va).getD 0

/-- The Embedding Unit of a row: that of the controller that holds its first byte (R313). -/
def rowUnit (s : State) (t : EmbTable) (v row : Nat) : Nat :=
  match atu s t.ctx (t.va v + row * t.stride) .r true with
  | .error _ => 0
  | .ok (pa, _) => ctrlOf pa

/-! Storage (R315, R335, R336). -/

/-- Storage for a version mapped and zeroed in 2 MiB pages at an address the device chooses, never on virtual page 0 (R207); none where there is no
room. -/
def mapStorage (s : State) (ctx len : Nat) (ecc : Bool) : Option (Nat × State) :=
  match s.allocate 0xFF (2 ^ 21) len ecc, s.mem.contexts.find ctx with
  | some (es, chk), some c =>
    let v := (s.draw).1 % (2 ^ 47 / 2 ^ 21) * 2 ^ 21 + 2 ^ 30
    let a := c.freeVa (2 ^ 21) len (c.maps.length + 1) v
    let va := if a + len ≤ 2 ^ 48 then a else c.freeVa (2 ^ 21) len (c.maps.length + 1) (2 ^ 21)
    let s1 := (((s.draw).2.zeroAll es).withChecks chk).modCtx ctx (fun c => c.addMap ⟨va, len, .table, 1, true, true, false, ecc, es, false⟩)
    some (va, s1)
  | _, _ => none

/-- Storage that nothing pins any more is unmapped; a destroyed table without storage goes with its buffers. -/
def State.embReap (s : State) (h : Nat) : State :=
  match s.emb.tables.find h with
  | none => s
  | some t =>
    let gone := t.versions.filter (fun v => v.2.pins == 0 && (t.dying || (v.1 != t.version && some v.1 != t.prepared)))
    let s1 := gone.foldl (fun a v => a.dropMap t.ctx v.2.va) s
    let s2 := s1.modEmb h (fun t => { t with versions := t.versions.filter (fun v => !(gone.any (fun g => g.1 == v.1))) })
    if t.dying && gone.length == t.versions.length then
      { s2.uncharge t.ctx t.bufBytes with emb := { s2.emb with tables := s2.emb.tables.del h } }
    else s2

/-- A pin of a version taken or released. -/
def State.embPin (s : State) (h v : Nat) : State :=
  s.modEmb h (fun t => { t with versions := match t.versions.find v with
    | none => t.versions
    | some x => t.versions.put v { x with pins := x.pins + 1 } })
def State.embUnpin (s : State) (h v : Nat) : State :=
  (s.modEmb h (fun t => { t with versions := match t.versions.find v with
    | none => t.versions
    | some x => t.versions.put v { x with pins := x.pins - 1 } })).embReap h

/-! Indices (R317, R318, R320). -/

/-- What an index selects. -/
inductive Selected where
  | row (part local_ : Nat)
  | subst (case : Nat)
  deriving DecidableEq

/-- The participant number of an unpartitioned table's own part. -/
def wholeSelf : Nat := 0x1_0000

/-- The part's own number among a table's participants. -/
def EmbTable.self (s : State) (t : EmbTable) : Nat := if t.pmap.isSome then s.fab.grat else wholeSelf

/-- The home and local row of a global index (R320). -/
def PartMap.home (m : PartMap) (g : Nat) : Option (Nat × Nat) :=
  if m.stripe then (m.entries[g % m.entries.length]?).map (fun e => (e.2.2, g / m.entries.length))
  else ((m.entries.filter (fun e => e.1 ≤ g)).getLast?).map (fun e => (e.2.2, g - e.1 + e.2.1))

/-- What an index with its value selects; the first case of R318 that applies substitutes. -/
def embSelect (s : State) (t : EmbTable) (null : Bool) (raw : Nat) : Selected :=
  let w := if t.itype < 2 then 32 else 64
  let v := raw % 2 ^ w
  let limit := (t.pmap.map PartMap.rows).getD t.rows
  if null then .subst 0
  else if t.itype % 2 = 0 ∧ v ≥ 2 ^ (w - 1) then .subst 1
  else if t.itype % 2 = 1 ∧ v = 2 ^ w - 1 then .subst 2
  else if v ≥ limit then .subst 3
  else match t.pmap with
    | none => .row (t.self s) v
    | some m => match m.home v with
      | none => .subst 3
      | some (p, r) => .row p r

/-- A substitution counted in its counter. -/
def EmbCtr.subst (c : EmbCtr) (case : Nat) : EmbCtr :=
  match case with
  | 0 => { c with substNull := c.substNull + 1 }
  | 1 => { c with substNegative := c.substNegative + 1 }
  | 2 => { c with substInvalid := c.substInvalid + 1 }
  | 3 => { c with substRange := c.substRange + 1 }
  | _ => { c with substRemote := c.substRemote + 1 }

/-! Row updates (R330, R331). -/

def embScale (b : List Byte) : Nat := fld b 0 2
def embOffset (b : List Byte) : Nat := fld b 2 2
def embFlags (b : List Byte) : Nat := fld b 6 2

/-- The code of element j of a row. -/
def EmbTable.code (t : EmbTable) (b : List Byte) (j : Nat) : Nat :=
  if t.bits = 8 then fld b (8 + j) 1 else fld b (8 + j / 2) 1 / (if j % 2 = 0 then 1 else 16) % 16

/-- The dequantised values of a row (R144, R312). -/
def EmbTable.values (t : EmbTable) (b : List Byte) : List Nat :=
  (List.range t.d).map (fun j => rowValue (t.code b j) (embScale b) (embOffset b))

/-- A hyperparameter block's values: LR, EPS, BETA1, BETA2, WEIGHT_DECAY (R329). -/
def hyperAt (b : List Byte) (i : Nat) : Nat := fld b (4 * i) 4

/-- A value that is finite and not negative. -/
def notNegative (x : Nat) : Bool :=
  match fp32.decode x with
  | .fin neg m _ => !(neg && m != 0)
  | .nan => false
  | .inf _ => false

/-- Whether a hyperparameter block is as R329 requires. -/
def hyperOk (b : List Byte) : Bool :=
  b.length == 32 && fldZero b 0x14 12 && [0, 1, 4].all (fun i => notNegative (hyperAt b i)) &&
    [2, 3].all (fun i => notNegative (hyperAt b i) && fp32.lt (hyperAt b i) 0x3F80_0000)

/-- BETA to the power t, with the accuracy of VFEXP (R151). -/
def betaPow (b t : Nat) : Nat :=
  match fp32.decode b with
  | .fin _ m e => if m = 0 then 0 else (fp32.pick 2 (b + 2 ^ 32 * t) false (m ^ t) (e * t)).val
  | .nan => b
  | .inf _ => b

/-- FP32 operations by their result. -/
def fAdd (a b : Nat) : Nat := (fp32.add a b).val
def fSub (a b : Nat) : Nat := (fp32.sub a b).val
def fMul (a b : Nat) : Nat := (fp32.mul a b).val
def fDiv (a b : Nat) : Nat := (fp32.div a b).val
def fSqrt (a : Nat) : Nat := (fp32.sqrt a).val
def fOne : Nat := 0x3F80_0000
def fNat (n : Nat) : Nat := (cvtFromInt fp32 .near false n).val

/-- n draws of a generator: its 16 bits after each step, and the generator. -/
def genDraws : Nat → Word → List Nat × Word
  | 0, g => ([], g)
  | n + 1, g => ((genStep g).toNat % 2 ^ 16 :: (genDraws n (genStep g)).1, (genDraws n (genStep g)).2)

/-- The FP32 values of BF16 state from an offset. -/
def bfState (b : List Byte) (off n : Nat) : List Nat := (List.range n).map (fun j => (cvtFloat bf16 fp32 .near false (fld b (off + 2 * j) 2)).val)

/-- Codes packed as a row holds them (R142). -/
def EmbTable.packCodes (t : EmbTable) (cs : List Nat) : List Byte :=
  if t.bits = 8 then cs.flatMap (leb 1)
  else (List.range (t.d / 2)).flatMap (fun k => leb 1 (nth cs 0 (2 * k) + 16 * nth cs 0 (2 * k + 1)))

/-- A row after its update with summed gradients, whether it is counted as not finite, and the unit's generator after it (R330, R331). hy: the
hyperparameters. -/
def EmbTable.updated (t : EmbTable) (hy : List Byte) (step : Nat) (sums : List Nat) (b : List Byte) (gen : Word) : List Byte × Bool × Word :=
  let lr := hyperAt hy 0; let eps := hyperAt hy 1; let b1 := hyperAt hy 2; let b2 := hyperAt hy 3; let wd := hyperAt hy 4
  let w := t.values b
  let g := (w.zip sums).map (fun p => fAdd p.2 (fMul wd p.1))
  let p := t.stateOff
  let acc := fAdd (fld b p 4) (fDiv (g.foldl (fun a x => fAdd a (fMul x x)) 0) (fNat t.d))
  let n := step + 1 - t.startStep
  let m := ((bfState b p t.d).zip g).map (fun q => fAdd (fMul b1 q.1) (fMul (fSub fOne b1) q.2))
  let v := ((bfState b (p + 2 * t.d) t.d).zip g).map (fun q => fAdd (fMul b2 q.1) (fMul (fMul (fSub fOne b2) q.2) q.2))
  let c1 := fSub fOne (betaPow b1 n)
  let c2 := fSub fOne (betaPow b2 n)
  let w' := match t.opt with
    | 0 => (w.zip g).map (fun q => fSub q.1 (fMul lr q.2))
    | 1 => (w.zip g).map (fun q => fSub q.1 (fDiv (fMul lr q.2) (fAdd (fSqrt acc) eps)))
    | _ => (w.zip (m.zip v)).map (fun q => fSub q.1 (fDiv (fMul lr (fDiv q.2.1 c1)) (fAdd (fSqrt (fDiv q.2.2 c2)) eps)))
  let draws := genDraws (if t.stochastic then (if t.opt = 2 then 3 * t.d else t.d) else 0) gen
  let draw := fun (i : Nat) => if t.stochastic then some (nth draws.1 0 i) else none
  let (sc, off, codes, fl) := quantRow t.bits w' draw
  let bf := fun (base : Nat) (l : List Nat) => (l.zipIdx).flatMap (fun q =>
    leb 2 (cvtFloat fp32 bf16 (match draw (base + q.2) with
      | none => .near
      | some r => .stoch r) false q.1).val)
  let state := match t.opt with
    | 0 => []
    | 1 => leb 4 acc
    | _ => bf t.d m ++ bf (2 * t.d) v
  let bad := w'.any (fun x => match fp32.decode x with
    | .fin _ _ _ => false
    | .nan => true
    | .inf _ => true) || fl &&& flNV != 0
  let flags := (embFlags b % 4) ||| (if bad then 2 else 0)
  let head := leb 2 sc ++ leb 2 off ++ leb 2 step ++ leb 2 flags ++ t.packCodes codes
  (splice (splice b 0 head) p state, bad, draws.2)

/-- The generator of a unit (R156). -/
def State.embGen (s : State) (u : Nat) : Word := (s.emb.gens.find u).getD (0x7F4A_0000 ||| BitVec.ofNat 32 u)

/-- One read-modify-write of a row by a unit. -/
def applyUpdate (u : Nat) (x : RowUpdate) (ev : MemEvent) (s : State) : State :=
  match s.embTable x.table with
  | none => s
  | some t =>
    let va := t.va t.version + x.entry.row * t.stride
    let failed := fun (s : State) => s.modEmbCtr x.table (fun c => { c with rmwFailed := c.rmwFailed + 1 })
    match s.meet t.ctx va ev with
    | (some _, s1) => failed s1
    | (none, s1) => match Io.exec (memRead t.ctx va t.stride) s1 with
      | (.error _, s2) => failed s2
      | (.ok b, s2) =>
        if bit (embFlags b) 0 then s2.modEmbCtr x.table (fun c => { c with frozenSkips := c.frozenSkips + 1 })
        else
          let (b', bad, gen) := t.updated x.hyper x.entry.step x.entry.sums b (s2.embGen u)
          let s3 := if t.stochastic then { s2 with emb := { s2.emb with gens := s2.emb.gens.put u gen } } else s2
          match Io.exec (memWrite t.ctx va b') s3 with
          | (.error _, s4) => failed s4
          | (.ok _, s4) =>
            (s4.modEmbCtr x.table (fun c => { c with
              rowsUpdated := c.rowsUpdated + 1, nonfinite := if bad then c.nonfinite + 1 else c.nonfinite })).modEmbUnit u
              (fun c => { c with rmw := sat32 c.rmw 1 })

/-! Coalescing buffers (R329, R332, R333, R342). -/

def State.embUpdates (s : State) (u : Nat) : List RowUpdate := s.emb.updates.at [] u
def State.setEmbUpdates (s : State) (u : Nat) (l : List RowUpdate) : State :=
  { s with emb := { s.emb with updates := s.emb.updates.upd [] u l } }

/-- Whether a unit accepts a delta: its queue of pending row updates has room, it can act (R333). -/
def embAccepts (s : State) (u : Nat) : Bool := s.works (unitEmb u) && (s.embUpdates u).length < max 1 Config.nmuDepth

/-- A row update queued at the unit of its row. -/
def queueUpdate (h : Nat) (e : EmbEntry) (hyper : List Byte) (closing : Bool) (s : State) : State :=
  match s.embTable h with
  | none => s
  | some t =>
    let u := rowUnit s t t.version e.row
    s.setEmbUpdates u (s.embUpdates u ++ [⟨h, e, hyper, closing⟩])

/-- The hyperparameter block as it reads now; none where it is not as R329 requires. -/
def readHyper (t : EmbTable) (s : State) : Option (List Byte) × State :=
  match Io.exec (memRead t.ctx t.hyper 32) s with
  | (.ok b, s1) => (if hyperOk b then some b else none, s1)
  | (.error _, s1) => (none, s1)

/-- Counts of deltas by part and step. -/
def bumpToken (l : List EmbToken) (part step n : Nat) : List EmbToken :=
  if l.any (fun k => k.part == part && k.step == step) then
    l.map (fun k => if k.part == part && k.step == step then { k with count := k.count + n } else k)
  else l ++ [⟨part, step, n⟩]
def tokenCount (l : List EmbToken) (part step : Nat) : Nat :=
  ((l.find? (fun k => k.part == part && k.step == step)).map EmbToken.count).getD 0

/-- Entries freed with their deltas lost (R334, R342, R343): those of a table that p picks, and those of a closing step that already wait at a unit. -/
def loseEntries (h : Nat) (p : EmbEntry → Bool) (s : State) : State :=
  let queued := s.emb.updates.vals.flatMap (fun l => l.filter (fun x => x.table == h && x.closing && p x.entry))
  let s1 := { s with emb := { s.emb with updates := s.emb.updates.mapV (fun l => l.filter (fun x => !queued.contains x)) } }
  s1.modEmb h (fun t => { t with
    entries := t.entries.filter (fun e => !p e)
    ctr := { t.ctr with lost := t.ctr.lost + ((t.entries.filter p).map EmbEntry.count).sum + (queued.map (fun x => x.entry.count)).sum } })

/-- A split update: the entry chosen by R332 is applied and its place freed. -/
def splitEntry (h u : Nat) (s : State) : State :=
  match s.embTable h with
  | none => s
  | some t =>
    let mine := t.entries.filter (fun e => e.unit == u)
    let home := mine.find? (fun e => e.step == t.homeStep)
    match home.orElse (fun _ => mine.head?) with
    | none => s
    | some e =>
      let s1 := s.modEmb h (fun t => { t with
        entries := t.entries.filter (· != e)
        ctr := if home.isSome then { t.ctr with splits := t.ctr.splits + 1 } else { t.ctr with splitsAhead := t.ctr.splitsAhead + 1 } })
      let s2 := s1.modEmbUnit u (fun c => { c with splits := sat32 c.splits 1 })
      match readHyper t s2 with
      | (some hy, s3) => queueUpdate h e hy false s3
      | (none, s3) => s3.modEmbCtr h (fun c => { c with rmwFailed := c.rmwFailed + 1 })

/-- A delta of a part and step enters the buffer of its row's unit, which accepts it. -/
def placeDelta (h part step row : Nat) (vals : List Nat) (s : State) : State :=
  match s.embTable h with
  | none => s
  | some t0 =>
    let u := rowUnit s t0 t0.version row
    let s := match t0.entries.find? (fun e => e.unit == u && e.row == row && e.step == step), s.armed 8 (unitEmb u) with
      | some e, some _ => loseEntries h (· == e) (s.fireInjected 8 (unitEmb u) 0)
      | _, _ => s
    let t := (s.embTable h).getD t0
    let hit := t.entries.any (fun e => e.unit == u && e.row == row && e.step == step)
    let s1 := if hit then
        s.modEmb h (fun t => { t with entries := t.entries.map (fun e =>
          if e.unit == u && e.row == row && e.step == step then
            { e with sums := (e.sums.zip vals).map (fun p => fAdd p.1 p.2), count := e.count + 1 } else e) })
      else
        let s' := if t.entries.countP (fun e => e.unit == u) ≥ 65536 then splitEntry h u s else s
        s'.modEmb h (fun t => { t with entries := t.entries ++ [⟨u, row, step, vals, 1⟩] })
    (s1.modEmb h (fun t => { t with
      received := bumpToken t.received part step 1
      ctr := { t.ctr with deltasReceived := t.ctr.deltasReceived + 1 } })).modEmbUnit u (fun c => { c with deltasIn := sat32 c.deltasIn 1 })

/-! Steps (R328, R329, R341). -/

/-- Whether the Embedding Units take steps: not in Freeze (R340). -/
def State.embRuns (s : State) : Bool := (List.range 32).all (fun u => s.works (unitEmb u))

/-- The participants of a table (R320), and those that are not lost. -/
def EmbTable.allParts (s : State) (t : EmbTable) : List Nat :=
  match t.pmap with
  | none => [wholeSelf]
  | some m => m.entries.foldl (fun (a : List Nat) e => if a.contains e.2.2 then a else a ++ [e.2.2]) [t.self s]
def EmbTable.participants (s : State) (t : EmbTable) : List Nat := (t.allParts s).filter (fun p => !t.lostParts.contains p)

/-- A transaction tag that no request, token or notice holds. -/
def State.freshTag (s : State) : Nat × State :=
  s.fresh (fun k => (s.fab.reqs.find k).isSome || (s.fab.embSent.find k).isSome) (2 ^ 32) (s.fab.reqs.length + s.fab.embSent.length + 1)

/-- An embedding frame to another part (R464, R470). -/
def embFrame (s : State) (t : EmbTable) (op dest step tag : Nat) (payload : List Byte) : TFrame :=
  ⟨dest, s.fab.grat, op, 16, t.tag % 2 ^ 16, t.ctx, 0, tag, 0, t.tag + step % 2 ^ 32 * 2 ^ 32, payload, 0⟩

/-- A token or notice sent to a participant, kept so that it can be sent again (R466). -/
def sendStep (h op dest step : Nat) (payload : List Byte) (s : State) : State :=
  match s.emb.tables.find h with
  | none => s
  | some t =>
    let r := s.freshTag
    let f := embFrame r.2 t op dest step r.1 payload
    { r.2 with fab := { r.2.fab with embSent := r.2.fab.embSent.put r.1 f } }.fabSend 2 f

/-- A token of a part for a step taken in; a second one changes nothing (R470). -/
def takeToken (h part step n : Nat) (s : State) : State :=
  s.modEmb h (fun t => if t.tokens.any (fun k => k.part == part && k.step == step) then t else { t with tokens := t.tokens ++ [⟨part, step, n⟩] })

/-- A notice of a participant for a step taken in. -/
def takeNotice (h part step : Nat) (s : State) : State :=
  s.modEmb h (fun t => if t.notices.any (fun k => k.part == part && k.step == step) then t else { t with notices := t.notices ++ [⟨part, step, 0⟩] })

/-- Threads blocked on a table's step run on and issue again. -/
def wakeStep (h : Nat) (s : State) : State :=
  (s.pods.threads.filter (fun e => e.2.st == .blocked (.embStep h))).foldl
    (fun a e => a.modThread e.1 (fun th => { th with st := .running })) s

/-- EMB_STEP_CLOSE: the part closes its open step (R328, rules 3 and 4); the token for a lost part is discarded and counted (R341). -/
def embStepClose (h : Nat) (s : State) : State :=
  match s.embTable h with
  | none => s
  | some t =>
    let ps := t.participants s
    if !t.updates || t.ends < t.barrier ||
        (t.step > t.startStep && ps.any (fun p => !t.notices.any (fun k => k.part == p && k.step + 1 == t.step))) || !s.embRuns then s
    else
      let me := t.self s
      let s1 := ps.foldl (fun a p =>
        let n := tokenCount t.sent p t.step
        if p = me then takeToken h me t.step n a else sendStep h 5 p t.step (leb 8 n) a) s
      wakeStep h (s1.modEmb h (fun t => { t with
        step := t.step + 1, ended := [], ends := 0,
        ctr := { t.ctr with lost := t.ctr.lost + (t.allParts s).countP (t.lostParts.contains ·) }
        sent := t.sent.filter (fun k => k.step > t.step), notices := t.notices.filter (fun k => k.step ≥ t.step) }))

/-- A home's step has ended: HOME_STEP moves on and the notices go out (R329, steps 3 and 4). -/
def homeAdvance (h : Nat) (s : State) : State :=
  match s.embTable h with
  | none => s
  | some t =>
    let st := t.homeStep
    let me := t.self s
    let s1 := s.modEmb h (fun t => { t with
      homeStep := st + 1, closing := none,
      tokens := t.tokens.filter (fun k => k.step > st), received := t.received.filter (fun k => k.step > st) })
    (t.participants s).foldl (fun a p => if p = me then takeNotice h me st a else sendStep h 6 p st [] a) s1

/-- The entries of a closing step go to the queues of their rows' units as far as these have room (R333). -/
def closeFeed (h : Nat) (hy : List Byte) (s : State) : State :=
  match s.embTable h with
  | none => s
  | some t => (t.entries.filter (fun e => e.step == t.homeStep)).foldl (fun a e =>
      if (a.embUpdates (rowUnit a t t.version e.row)).length < max 1 Config.nmuDepth then
        queueUpdate h e hy true (a.modEmb h (fun t => { t with entries := t.entries.filter (· != e) }))
      else a) s

/-- A closing step goes on: its next entries are queued, and once none is left HOME_STEP moves on. -/
def closeOn (h : Nat) (s : State) : State :=
  match s.embTable h with
  | none => s
  | some t => match t.closing with
    | none => s
    | some hy =>
      let s1 := closeFeed h hy s
      if ((s1.embTable h).map (fun t => t.entries.any (fun e => e.step == t.homeStep))).getD true ||
          s1.emb.updates.vals.any (fun l => l.any (fun y => y.table == h && y.closing)) then s1
      else homeAdvance h s1
def State.closeAll (s : State) : State := s.emb.tables.keys.foldl (fun a h => closeOn h a) s

/-- Whether a home has everything of its step: every participant's token and the deltas it states, those reported lost included. -/
def homeReady (s : State) (t : EmbTable) : Bool :=
  (t.participants s).all (fun p => t.tokens.any (fun k =>
    k.part == p && k.step == t.homeStep && k.count ≤ tokenCount t.received p t.homeStep + tokenCount t.lost p 0))

/-- EMB_HOME_STEP_CLOSE: the home reads the hyperparameters and applies every entry of the step, one row update each (R329). -/
def homeStepClose (h : Nat) (s : State) : State :=
  match s.embTable h with
  | none => s
  | some t =>
    if !t.updates || t.closing.isSome || !homeReady s t || !s.embRuns then s
    else
      let st := t.homeStep
      let lost := t.lost.map (fun k =>
        { k with count := k.count - (tokenCount t.tokens k.part st - tokenCount t.received k.part st) })
      let s0 := s.modEmb h (fun t => { t with lost := lost })
      let s1 := (t.entries.filter (fun e => e.step == st)).foldl (fun a e =>
        match a.armed 8 (unitEmb e.unit) with
        | some _ => loseEntries h (· == e) (a.fireInjected 8 (unitEmb e.unit) 0)
        | none => a) s0
      match readHyper t s1 with
      | (none, s3) => homeAdvance h (s3.modEmb h (fun t => { t with
          entries := t.entries.filter (fun e => e.step != st)
          ctr := { t.ctr with rmwFailed := t.ctr.rmwFailed + t.entries.countP (fun e => e.step == st) } }))
      | (some hy, s3) => closeOn h (s3.modEmb h (fun t => { t with closing := some hy }))

/-- NMU_ROW_WRITE_DONE: the oldest pending row update of a unit is done; closing steps go on. -/
def nmuDone (u : Nat) (ev : MemEvent) (s : State) : State :=
  match s.embUpdates u with
  | [] => s
  | x :: rest => if !s.works (unitEmb u) then s else (applyUpdate u x ev (s.setEmbUpdates u rest)).closeAll

/-! Lost parts and units (R341, R343). -/

/-- The embedding records that a frame carries for a lost part and that count as lost: its deltas, or one for a token. -/
def lostRecords (s : State) (f : TFrame) : Nat × State := if f.op = 4 then deltaRecords s f else (b2n (f.op == 5), s)

/-- A frame of embedding traffic to a lost part is discarded and counted in LOST_DELTAS of its table (R341). -/
def embDiscard (f : TFrame) (s : State) : State :=
  let r := lostRecords s f
  match s.emb.tables.find? (fun e => e.2.ctx == f.ctx && e.2.tag == f.aux % 2 ^ 32 && !e.2.dying) with
  | none => s
  | some e => r.2.modEmbCtr e.1 (fun c => { c with lost := c.lost + r.1 })

/-- Embedding traffic of the part itself that still waits at a port for a lost part is discarded. -/
def embUnqueue (g p : Nat) (s : State) : State :=
  let mine := fun (e : Nat × Nat × TFrame) => e.2.1 == 12 && [4, 5, 6].contains e.2.2.op && e.2.2.dst == g
  let out := (s.fport p).queue.filter mine
  if out.isEmpty then s
  else out.foldl (fun a e => embDiscard e.2.2 a) (s.modFport p (fun x => { x with queue := x.queue.filter (fun e => !mine e) }))

/-- A participant that the fabric reports lost: every table that names it no longer awaits it, and what is bound for it is discarded. -/
def embPartLost (g : Nat) (s : State) : State :=
  let s1 := (List.range 12).foldl (fun a p => embUnqueue g p a) s
  (s1.emb.tables.filter (fun e => match e.2.pmap with
    | none => false
    | some m => m.entries.any (fun x => x.2.2 == g))).foldl (fun a e =>
      a.modEmb e.1 (fun t => { t with lostParts := if t.lostParts.contains g then t.lostParts else t.lostParts ++ [g], degraded := true })) s1

/-- A token or notice that a report says was lost is sent again (R466), or discarded where its part is lost (R341). -/
def embResend (f : TFrame) (s : State) : State :=
  if s.emb.tables.any (fun e => e.2.ctx == f.ctx && e.2.tag == f.aux % 2 ^ 32 && e.2.lostParts.contains f.dst) then embDiscard f s
  else s.fabSend 2 f

/-- A controller island that has lost lock: the entries of its unit's buffers are lost (R343). -/
def embUnitLost (u : Nat) (s : State) : State :=
  (s.emb.tables.keys.foldl (fun a h => loseEntries h (fun x => x.unit == u) a) s).closeAll

/-- COALESCE_BUFFER_PARITY: the k-th entry of a unit, counted over its tables, has a parity error in its tag (R342). -/
def bufferParity (u k : Nat) (s : State) : State :=
  let all := s.emb.tables.flatMap (fun e => (e.2.entries.filter (fun x => x.unit == u)).map (fun x => (e.1, x)))
  match all[k]? with
  | none => s
  | some (h, e) => (loseEntries h (· == e) (s.fire 8 (unitEmb u) 0 false)).closeAll

/-! The rows. -/

def execEmbStepClose (tbl : Nat) (s : State) : Host.Outcome State Fault Refusal := .next (embStepClose tbl s)
def execEmbHomeStepClose (tbl : Nat) (s : State) : Host.Outcome State Fault Refusal := .next (homeStepClose tbl s)
def execNmuRowWriteDone (u : Fin 32) (ev : MemEvent) (s : State) : Host.Outcome State Fault Refusal := .next (nmuDone u ev s)
def execCoalesceBufferParity (u : Fin 32) (k : Nat) (s : State) : Host.Outcome State Fault Refusal := .next (bufferParity u k s)

end Sys2Proof.Machine
end

