-- ==== Sys2Proof/Machine/Bind.lean ====
section
/-!
DEFINITION. The binding of threads to images and its ends: the end of an image (R137, R138), a thread that becomes QUARANTINED (R504), and what
a thread meets at its next ASK.
-/
namespace Sys2Proof.Machine
open Sys2Proof

/-- The threads bound to an image, by global index. -/
def State.boundTo (s : State) (h : Nat) : List Nat := (s.pods.threads.filter (fun e => e.2.image == some h)).map Prod.fst

/-- An image ends: its memory is freed and its handle is no longer valid. -/
def imageEnd (h : Nat) (s : State) : State :=
  match s.pods.images.find h with
  | none => s
  | some img =>
    let s1 := s.dropMap img.ctx img.codeVa
    let s2 := if img.dataLen = 0 then s1 else s1.dropMap img.ctx img.dataVa
    { s2 with pods := { s2.pods with images := s2.pods.images.del h } }

/-- An image that is being replaced or unloaded ends once no thread is bound to it; an IMAGE_UNLOAD that waits for it completes. -/
def imageSettle (h : Nat) (s : State) : State :=
  match s.pods.images.find h with
  | none => s
  | some img =>
    if img.stop.isSome && (s.boundTo h).isEmpty then (imageEnd h s).finishAll (.imageDrain h) stOk [] else s

/-- Whether every thread of a Pod is QUARANTINED. -/
def State.allQuarantined (s : State) (p : Nat) : Bool :=
  (List.range 16).all (fun k => (s.thread (16 * p + k)).st == .quarantined)

/-- A quarantine completes once the last thread of the Pod has become QUARANTINED. -/
def podSettle (p : Nat) (s : State) : State :=
  if (s.pod p).quarantine && s.allQuarantined p then
    (s.modPod p (fun x => { x with draining := false, quarAt := 0 })).finishAll (.quarantine p) stOk []
  else s

/-- A thread moves to another image: it restarts at that image's entry point (R137). -/
def moveThread (t new : Nat) (s : State) : State :=
  let old := (s.thread t).image
  let s1 := ((s.quiesce t).start t new)
  match old with
  | none => s1
  | some h => imageSettle h s1

/-- A thread becomes UNBOUND. -/
def unbindThread (t : Nat) (s : State) : State :=
  let old := (s.thread t).image
  let s1 := (s.quiesce t).unbind t
  match old with
  | none => s1
  | some h => imageSettle h s1

/-- A thread of an image that another replaced goes to it, or becomes UNBOUND where that image has ended (R137). -/
def takeThread (t new : Nat) (s : State) : State :=
  if (s.pods.images.find new).isSome then moveThread t new s else unbindThread t s

/-- What a thread meets at its next ASK before it asks: a quarantine with DRAIN (R504), a replacement (R137), an unload with DRAIN
(R138); none where it asks. -/
def askGate (t : Nat) (s : State) : Option State :=
  if (s.pod (podOf t)).draining then some (podSettle (podOf t) (quarantineThread t s))
  else match (s.thread t).image with
    | none => none
    | some h => match s.pods.images.find h with
      | none => none
      | some img => match img.stop with
        | none => none
        | some (some new) => some (takeThread t new s)
        | some none => some (unbindThread t s)

end Sys2Proof.Machine
end

