-- ==== Sys2Proof/Machine/Sort.lean ====
section
/-!
DEFINITION. The order of the sort network and its three functions (R295 to R300), on lists of (key, payload).
-/
namespace Sys2Proof.Machine
open Sys2Proof

/-- Key types of SORT: signed, unsigned, FP32. -/
inductive KeyType where
  | signed
  | unsigned
  | float
  deriving DecidableEq, Repr

/-- Whether a key is a NaN. -/
def keyNan (kt : KeyType) (k : Word) : Bool := kt == .float && fp32.isNan k.toNat

/-- Whether key x is less than key y. -/
def keyLt (kt : KeyType) (x y : Word) : Bool :=
  match kt with
  | .signed => x.slt y
  | .unsigned => x.ult y
  | .float => fp32.lt x.toNat y.toNat

/-- Whether an element precedes another (R295). -/
def precedes (kt : KeyType) (desc : Bool) (x y : Word × Word) : Bool :=
  if keyNan kt x.1 then false
  else if keyNan kt y.1 then true
  else if desc then keyLt kt y.1 x.1 else keyLt kt x.1 y.1

/-- A stable sort under R295: ties keep their input order. -/
def netSort (kt : KeyType) (desc : Bool) (l : List (Word × Word)) : List (Word × Word) :=
  sortBy (fun a b => !precedes kt desc b a) l

/-- Whether a list is arranged as VSORT would arrange it (R299). -/
def netSorted (kt : KeyType) (desc : Bool) (l : List (Word × Word)) : Bool := netSort kt desc l == l

/-- Validity for VTOPK (R300), for an element that takes part. -/
def topkValid (kt : KeyType) (x : Word × Word) : Bool := !keyNan kt x.1 && x.2 != 0xFFFF_FFFF

/-- VTOPK on pair D and the active elements of pair A; none where a source is not ordered (R300). -/
def netTopk (kt : KeyType) (desc : Bool) (d a : List (Word × Word)) : Option (List (Word × Word)) :=
  let vd := d.filter (topkValid kt)
  let va := a.filter (topkValid kt)
  if netSorted kt desc vd && netSorted kt desc va then
    let best := (netSort kt desc (vd ++ va)).take 64
    some (best ++ (d.filter (fun x => !topkValid kt x)).take (64 - best.length))
  else none

end Sys2Proof.Machine
end

