-- ==== Sys2Proof/Machine/PodVector.lean ====
section
/-!
DEFINITION. Vector instructions: VINT, VFLT, VDOT, VCVT, VPERM, VCMP, VRED, MASK (R106 to R113), VHASH (R119) and SORT (R121, R295 to R302).
-/
namespace Sys2Proof.Machine
open Sys2Proof

/-- A vector built from its elements. -/
def mkVec (f : Nat → Word) : List Word := (List.range 64).map f

/-- V[d] with g at the active elements; the others keep their value (R98). -/
def Thread.masked (th : Thread) (m d : Nat) (g : Nat → Word) : Thread :=
  th.wv d (mkVec (fun i => if th.on m i then g i else elem (th.rv d) i))

/-! VINT (R106). -/

/-- One element of VINT but VSEL. -/
def vintOp (f : Nat) (a b : Word) : Word :=
  let sh := b.toNat % 32
  match f with
  | 0 => a + b
  | 1 => a - b
  | 2 => a * b
  | 3 => a &&& b
  | 4 => a ||| b
  | 5 => a ^^^ b
  | 6 => a <<< sh
  | 7 => a >>> sh
  | 8 => a.sshiftRight sh
  | 9 => if b.slt a then b else a
  | 10 => if a.slt b then b else a
  | 11 => if b.ult a then b else a
  | 12 => if a.ult b then b else a
  | 13 => if a.slt 0 then -a else a
  | _ => BitVec.ofNat 32 (a.toNat * b.toNat / 2 ^ 32)

def vintRun (th : Thread) (w : Insn) : Thread :=
  let a := elem (th.rv (insA w))
  let b := bOperand w th
  if insF w = 15 then th.wv (insD w) (mkVec (fun i => if th.on (insM w) i then a i else b i))
  else th.masked (insM w) (insD w) (fun i => vintOp (insF w) (a i) (b i))

def rowVint : Row where
  mine := isMajor 0x10
  ok := fun w => insT w == 0 && vOk (insD w) && vOk (insA w) && extA w && (insF w != 13 || insB w == 0)
  reads := fun w => rV (insA w) :: rM (insM w) :: bOperandReads w ++ (if insF w = 15 then [] else keeps w [rV (insD w)])
  writes := fun w => [rV (insD w)]
  run := onThread vintRun

/-! Packed elements (R99). -/

/-- Bits of an element of T. -/
def elemBits (t : Nat) : Nat := if t ≤ 1 then 32 else if t ≤ 3 then 16 else if t ≤ 6 then 8 else 4

/-- The floating format of T. -/
def elemFmt (t : Nat) : Fmt := if t = 2 then bf16 else if t = 3 then fp16 else if t = 5 then e4m3 else if t = 6 then e5m2 else fp32

/-- Sub-element j of n bits. -/
def subElem (n : Nat) (x : Word) (j : Nat) : Nat := x.toNat / 2 ^ (n * j) % 2 ^ n

/-- An element from its sub-elements of n bits, lowest first. -/
def packElem (n : Nat) (l : List Nat) : Word := BitVec.ofNat 32 (l.foldr (fun v a => a * 2 ^ n + v) 0)

/-- An element with sub-element j replaced. -/
def putSub (n : Nat) (x : Word) (j v : Nat) : Word :=
  packElem n ((List.range (32 / n)).map (fun k => if k = j then v else subElem n x k))

/-! VFLT (R107). -/

/-- One value of VFLT. -/
def vfltOp (fm : Fmt) (f a b d : Nat) : FRes :=
  match f with
  | 0 => fm.add a b
  | 1 => fm.sub a b
  | 2 => fm.mul a b
  | 3 => fm.fma a b d
  | 4 => ⟨fm.minmax false a b, 0⟩
  | 5 => ⟨fm.minmax true a b, 0⟩
  | 6 => fm.rcp a
  | 7 => fm.sqrt a
  | 8 => fm.log1p a
  | _ => fm.exp a

/-- One element of VFLT, each sub-element on its own: the element and the flags. -/
def vfltElem (t f : Nat) (a b d : Word) : Word × Nat :=
  let n := elemBits t
  let rs := (List.range (32 / n)).map (fun j => vfltOp (elemFmt t) f (subElem n a j) (subElem n b j) (subElem n d j))
  (packElem n (rs.map FRes.val), allFlags rs)

/-- The active elements computed with flags: V[d] and the flags of the active elements only (R158). -/
def Thread.maskedFl (th : Thread) (m d : Nat) (g : Nat → Word × Nat) : Thread :=
  let rs := (List.range 64).map (fun i => if th.on m i then g i else (elem (th.rv d) i, 0))
  (th.wv d (rs.map Prod.fst)).raise (rs.foldl (fun a r => a ||| r.2) 0)

def vfltRun (th : Thread) (w : Insn) : Thread :=
  let b := bOperand w th
  th.maskedFl (insM w) (insD w) (fun i => vfltElem (insT w) (insF w) (elem (th.rv (insA w)) i) (b i) (elem (th.rv (insD w)) i))

def rowVflt : Row where
  mine := isMajor 0x11
  ok := fun w => 1 ≤ insT w && insT w ≤ 3 && insF w ≤ 9 && vOk (insD w) && vOk (insA w) && extA w && (insF w < 6 || insB w == 0)
  reads := fun w => rV (insA w) :: rM (insM w) :: (if insF w < 6 then bOperandReads w else [])
    ++ (if insF w = 3 then [rV (insD w)] else keeps w [rV (insD w)])
  writes := fun w => [rV (insD w)]
  run := onThread vfltRun

/-! VDOT (R108, R152). -/

/-- One element of VDOT and the flags. -/
def vdotElem (t f : Nat) (a b d : Word) : Word × Nat :=
  let n := elemBits t
  let js := List.range (32 / n)
  if t = 4 ∨ t = 7 then
    let v := fun x : Nat => if f = 0 then signed n x else (x : Int)
    (BitVec.ofInt 32 (d.toInt + (js.map (fun j => v (subElem n a j) * v (subElem n b j))).sum), 0)
  else
    let fm := elemFmt t
    let r := fp32.sumProducts (js.map (fun j => (fm.decode (subElem n a j), fm.decode (subElem n b j)))) [fp32.decode d.toNat]
    (BitVec.ofNat 32 r.val, r.fl)

def vdotRun (th : Thread) (w : Insn) : Thread :=
  th.maskedFl (insM w) (insD w)
    (fun i => vdotElem (insT w) (insF w) (elem (th.rv (insA w)) i) (elem (th.rv (insB w)) i) (elem (th.rv (insD w)) i))

def rowVdot : Row where
  mine := isMajor 0x12
  ok := fun w => 2 ≤ insT w && insF w ≤ 1 && (insF w == 0 || insT w == 4 || insT w == 7) && vOk (insD w) && vOk (insA w)
    && vOk (insB w)
  reads := fun w => [rV (insA w), rV (insB w), rV (insD w), rM (insM w)]
  writes := fun w => [rV (insD w)]
  run := onThread vdotRun

/-! VCVT (R109, R154 to R157). -/

/-- A format of VCVT: bits, whether it is an integer, and signed. -/
structure CvtFmt where
  width : Nat
  int : Bool
  sg : Bool
  fm : Fmt

/-- Format number of R109: 0 to 7 as T of R99, then INT16, UINT8, UINT16. -/
def cvtFmt (n : Nat) : CvtFmt :=
  match n with
  | 0 => ⟨32, true, true, fp32⟩
  | 1 => ⟨32, false, true, fp32⟩
  | 2 => ⟨16, false, true, bf16⟩
  | 3 => ⟨16, false, true, fp16⟩
  | 4 => ⟨8, true, true, fp32⟩
  | 5 => ⟨8, false, true, e4m3⟩
  | 6 => ⟨8, false, true, e5m2⟩
  | 7 => ⟨4, true, true, fp32⟩
  | 8 => ⟨16, true, true, fp32⟩
  | 9 => ⟨8, true, false, fp32⟩
  | _ => ⟨16, true, false, fp32⟩

/-- Values per element of a format. -/
def CvtFmt.count (c : CvtFmt) : Nat := 32 / c.width

/-- Whether a conversion's result may be inexact (R156). -/
def cvtMayRound (src dst : CvtFmt) : Bool :=
  if src.int then !dst.int && intMayRound src.width src.sg dst.fm
  else dst.int || floatMayRound src.fm dst.fm

/-- One value converted; a conversion to a wider format is exact and saturates nothing (R154). -/
def cvtValue (src dst : CvtFmt) (mode : Rnd) (sat : Bool) (x : Nat) : FRes :=
  if src.int then
    let v : Int := if src.sg then signed src.width x else x
    if dst.int then cvtIntInt dst.width sat v else cvtFromInt dst.fm mode sat v
  else if dst.int then cvtToInt src.fm dst.width mode x
  else cvtFloat src.fm dst.fm mode (sat && !decide (src.width < dst.width)) x

/-- Value n of a vector of a format. -/
def cvtGet (c : CvtFmt) (v : List Word) (n : Nat) : Nat := subElem c.width (elem v (n / c.count)) (n % c.count)

/-- A vector with value n of a format replaced. -/
def cvtPut (c : CvtFmt) (v : List Word) (n x : Nat) : List Word :=
  v.set (n / c.count) (putSub c.width (elem v (n / c.count)) (n % c.count) x)

/-- Whether a group number is allowed (R109). -/
def cvtGroupOk (src dst : CvtFmt) (g : Nat) : Bool :=
  (src.count == 1 || g < src.count) && (dst.count == 1 || g < dst.count) && (src.count != 1 || dst.count != 1 || g == 0)

/-- The generator of a Pod (R156): its reset value until the first step. -/
def State.podGen (s : State) (p : Nat) : Word := (s.pod p).gen.getD (0x9E37_0000 ||| BitVec.ofNat 32 p)

/-- VCVT: each active value in order, with one generator step each where rounding is stochastic (R157). -/
def vcvtRun (t : Nat) (w : Insn) (s : State) : Issue :=
  let th := s.thread t
  let src := cvtFmt (insF w)
  let dst := cvtFmt (insT w)
  let g := insB w / 4
  let stoch := insB w % 2 == 1 && cvtMayRound src dst
  let sat := bit (insB w) 1
  let a := th.rv (insA w)
  let r := (th.active (insM w)).foldl (fun (st : List Word × Nat × Word) q =>
    let gen := if stoch then genStep st.2.2 else st.2.2
    let mode := if stoch then Rnd.stoch (gen.toNat % 2 ^ 16) else .near
    let x := cvtGet src a (if src.count = 1 then q else 64 * g + q)
    let y := cvtValue src dst mode sat x
    (cvtPut dst st.1 (if dst.count = 1 then q else 64 * g + q) y.val, st.2.1 ||| y.fl, gen))
    (th.rv (insD w), 0, s.podGen (podOf t))
  let s1 := if stoch then s.modPod (podOf t) (fun p => { p with gen := some r.2.2 }) else s
  .next (s1.modThread t (fun th => (th.wv (insD w) r.1).raise r.2.1))

def rowVcvt : Row where
  mine := isMajor 0x13
  ok := fun w => insF w ≤ 10 && vOk (insD w) && vOk (insA w) && cvtGroupOk (cvtFmt (insF w)) (cvtFmt (insT w)) (insB w / 4)
  reads := fun w => rV (insA w) :: rM (insM w)
    :: (if (cvtFmt (insT w)).count = 1 then keeps w [rV (insD w)] else [rV (insD w)])
  writes := fun w => [rV (insD w)]
  run := vcvtRun

/-! VPERM (R110). -/

def vpermRun (th : Thread) (w : Insn) : Thread :=
  let d := insD w
  let m := insM w
  let a := elem (th.rv (insA w))
  let sb := (th.rs (insB w)).toNat
  let sa : Word := (th.rs (insA w)).setWidth 32
  match insF w with
  | 0 => th.masked m d (fun i => a ((elem (th.rv (insB w)) i).toNat % 64))
  | 1 => th.ws d ((a (sb % 64)).setWidth 64)
  | 2 => th.wv d ((th.rv d).set (sb % 64) sa)
  | 3 => th.masked m d (fun i => if i + sb ≤ 63 then a (i + sb) else 0)
  | 4 => th.masked m d (fun i => BitVec.ofNat 32 i)
  | 5 =>
    let l := (th.active m).map a
    th.wv d (mkVec (fun i => nth l 0 i))
  | _ => th.masked m d (fun _ => sa)

def rowVperm : Row where
  mine := isMajor 0x14
  ok := fun w => insT w == 0 && (match insF w with
    | 0 => vOk (insD w) && vOk (insA w) && vOk (insB w)
    | 1 => vOk (insA w)
    | 2 => vOk (insD w)
    | 3 => vOk (insD w) && vOk (insA w)
    | 4 => vOk (insD w) && insA w == 0 && insB w == 0
    | 5 => vOk (insD w) && vOk (insA w) && insB w == 0
    | 6 => vOk (insD w) && insB w == 0
    | _ => false)
  reads := fun w =>
    let k := keeps w [rV (insD w)]
    match insF w with
    | 0 => rV (insA w) :: rV (insB w) :: k
    | 1 => [rV (insA w), rS (insB w)]
    | 2 => [rV (insD w), rS (insA w), rS (insB w)]
    | 3 => rV (insA w) :: rS (insB w) :: k
    | 4 => k
    | 5 => [rV (insA w), rM (insM w)]
    | _ => rS (insA w) :: k
  writes := fun w => if insF w = 1 then [rS (insD w)] else [rV (insD w)]
  run := onThread vpermRun

/-! VCMP (R111). -/

/-- One compare: the bit and the flags. -/
def vcmpOp (f : Nat) (a b : Word) : Bool × Nat :=
  let x := a.toNat
  let y := b.toNat
  match f with
  | 0 => (a == b, 0)
  | 1 => (a != b, 0)
  | 2 => (a.slt b, 0)
  | 3 => (!b.slt a, 0)
  | 4 => (a.ult b, 0)
  | 5 => (!b.ult a, 0)
  | 6 => (fp32.feq x y, 0)
  | 7 => (fp32.lt x y, cmpFlag x y)
  | 8 => (fp32.le x y, cmpFlag x y)
  | _ => (fp32.unord x y, 0)
where
  /-- NV of an ordered compare with a NaN (R149). -/
  cmpFlag (x y : Nat) : Nat := if fp32.unord x y then flNV else 0

def vcmpRun (th : Thread) (w : Insn) : Thread :=
  let b := bOperand w th
  let rs := (th.active (insM w)).map (fun i => (i, vcmpOp (insF w) (elem (th.rv (insA w)) i) (b i)))
  let v := rs.foldl (fun a r => if r.2.1 then setBit a r.1 else a) 0
  (th.wm (insD w) (BitVec.ofNat 64 v)).raise (rs.foldl (fun a r => a ||| r.2.2) 0)

def rowVcmp : Row where
  mine := isMajor 0x15
  ok := fun w => insF w ≤ 9 && insT w == (if insF w ≤ 5 then 0 else 1) && mOk (insD w) && vOk (insA w) && extA w
  reads := fun w => rV (insA w) :: rM (insM w) :: bOperandReads w
  writes := fun w => [rM (insD w)]
  run := onThread vcmpRun

/-! VRED (R112). -/

/-- The FP32 reduction of a list that is not empty: its value and flags. SUM starts from the first active element, not from +0, so that elements that
are all -0 give -0 (DESIGN CHOICE, log entry 61: R112 names no starting value). -/
def vredFp (f x0 : Nat) (xs : List Nat) : FRes :=
  let r := xs.foldl (fun (a : FRes) x =>
    if f = 0 then
      let y := fp32.add a.val x
      ⟨y.val, a.fl ||| y.fl⟩
    else ⟨fp32.minmax (f == 2) a.val x, a.fl⟩) ⟨x0, 0⟩
  if fp32.isNan r.val then ⟨fp32.nan, r.fl⟩ else r

/-- The INT32 reduction of a list that is not empty. -/
def vredInt (f : Nat) (x0 : Word) (xs : List Word) : Word :=
  xs.foldl (fun a x => if f = 0 then a + x else if f = 1 then vintOp 9 a x else vintOp 10 a x) x0

def vredRun (th : Thread) (w : Insn) : Thread :=
  let xs := (th.active (insM w)).map (elem (th.rv (insA w)))
  if insT w = 0 then
    match xs with
    | [] => th.ws (insD w) 0
    | x :: t => th.ws (insD w) ((vredInt (insF w) x t).signExtend 64)
  else
    match xs with
    | [] => th.ws (insD w) (if insF w = 0 then 0 else BitVec.ofNat 64 fp32.nan)
    | x :: t =>
      let r := vredFp (insF w) x.toNat (t.map BitVec.toNat)
      (th.ws (insD w) (BitVec.ofNat 64 r.val)).raise r.fl

def rowVred : Row where
  mine := isMajor 0x16
  ok := fun w => insF w ≤ 2 && insT w ≤ 1 && insB w == 0 && vOk (insA w)
  reads := fun w => [rV (insA w), rM (insM w)]
  writes := fun w => [rS (insD w)]
  run := onThread vredRun

/-! MASK (R113). -/

/-- The index of the lowest set bit, or 64. -/
def firstSet (m : Word64) : Nat := (firstIdx (fun i => m.getLsbD i) 64).getD 64

def maskRun (th : Thread) (w : Insn) : Thread :=
  let a := th.rm (insA w)
  let b := th.rm (insB w)
  let d := insD w
  match insF w with
  | 0 => th.wm d (a &&& b)
  | 1 => th.wm d (a ||| b)
  | 2 => th.wm d (a ^^^ b)
  | 3 => th.wm d (a &&& ~~~ b)
  | 4 => th.wm d (~~~ a)
  | 5 => th.ws d (BitVec.ofNat 64 (popcountTo 64 a.toNat))
  | 6 => th.ws d (BitVec.ofNat 64 (firstSet a))
  | 7 => th.ws d a
  | _ => th.wm d (th.rs (insA w))

def rowMask : Row where
  mine := isMajor 0x18
  ok := fun w => insM w == 0 && insT w == 0 && (match insF w with
    | 0 | 1 | 2 | 3 => mOk (insD w) && mOk (insA w) && mOk (insB w)
    | 4 => mOk (insD w) && mOk (insA w) && insB w == 0
    | 5 | 6 | 7 => mOk (insA w) && insB w == 0
    | 8 => mOk (insD w) && insB w == 0
    | _ => false)
  reads := fun w => if insF w = 8 then [rS (insA w)] else [rM (insA w)]
  writes := fun w => if insF w = 5 ∨ insF w = 6 ∨ insF w = 7 then [rS (insD w)] else [rM (insD w)]
  run := onThread maskRun

/-! VHASH (R119). -/

def vhashRun (th : Thread) (w : Insn) : Thread :=
  let f := insF w
  let d := insD w
  let k0 := th.rs (insB w)
  let k1 := if f = 3 then th.rs (insB w + 1) else 0
  let a0 := th.rv (insA w)
  let a1 := th.rv (insA w + 1)
  let h := fun i => hashFn f (leb 4 (elem a0 i).toNat ++ (if insT w = 0 then [] else leb 4 (elem a1 i).toNat)) k0 k1
  if f = 0 then th.masked (insM w) d (fun i => (h i).setWidth 32)
  else
    let lo := th.rv d
    let hi := th.rv (d + 1)
    let hs := (List.range 64).map (fun i => if th.on (insM w) i then h i else 0)
    (th.wv d (mkVec (fun i => if th.on (insM w) i then (nth hs 0 i).setWidth 32 else elem lo i))).wv (d + 1)
      (mkVec (fun i => if th.on (insM w) i then (nth hs 0 i >>> 32).setWidth 32 else elem hi i))

def rowVhash : Row where
  mine := isMajor 0x30
  ok := fun w => insF w ≤ 5 && insT w ≤ 1 && (if insT w = 1 then vPair (insA w) else vOk (insA w))
    && (if insF w = 0 then vOk (insD w) else vPair (insD w)) && (insF w != 3 || insB w % 2 == 0)
  reads := fun w => rV (insA w) :: rM (insM w) :: rS (insB w) :: (if insT w = 1 then [rV (insA w + 1)] else [])
    ++ (if insF w = 3 then [rS (insB w + 1)] else [])
    ++ keeps w (rV (insD w) :: if insF w = 0 then [] else [rV (insD w + 1)])
  writes := fun w => rV (insD w) :: if insF w = 0 then [] else [rV (insD w + 1)]
  run := onThread vhashRun

/-! SORT (R121, R297 to R301). -/

/-- The key type of T and F bit 1. -/
def sortKey (w : Insn) : KeyType := if insT w = 1 then .float else if bit (insF w) 1 then .unsigned else .signed

/-- The pairs of keys and payloads of a register pair. -/
def Thread.pairs (th : Thread) (r : Nat) : List (Word × Word) :=
  (List.range 64).map (fun i => (elem (th.rv r) i, elem (th.rv (r + 1)) i))

/-- Those of the elements that a mask makes active. -/
def Thread.pairsOn (th : Thread) (r m : Nat) : List (Word × Word) :=
  (th.active m).map (fun i => (elem (th.rv r) i, elem (th.rv (r + 1)) i))

/-- n undefined pairs (R5, R121). -/
def State.undefPairs (s : State) (n : Nat) : List (Word × Word) × State :=
  ((List.range n).map (fun i => (BitVec.ofNat 32 (Config.freeNat (s.free + 2 * i)), BitVec.ofNat 32 (Config.freeNat (s.free + 2 * i + 1)))),
    { s with free := s.free + 2 * n })

/-- A register pair written. -/
def Thread.wpair (th : Thread) (r : Nat) (l : List (Word × Word)) : Thread :=
  (th.wv r (l.map Prod.fst)).wv (r + 1) (l.map Prod.snd)

/-- The encodings that R301 allows for function q. -/
def sortOk (q : Nat) (w : Insn) : Bool :=
  insT w ≤ 1 && !(insT w == 1 && bit (insF w) 1) && insF w / 4 == q && vPair (insA w) &&
    (if q = 1 then vQuad (insD w) && vPair (insB w) else vPair (insD w) && insB w == 0)

/-- A SORT on the Pod's sort network, which it occupies for n beats; where it finds the network busy the thread waits to issue (R302). -/
def onNetwork (t n : Nat) (s : State) (go : State → State) : Issue :=
  if (s.pod (podOf t)).sortBeats = 0 then .next (go (s.modPod (podOf t) (fun x => { x with sortBeats := n })))
  else .stay (s.modThread t (fun th => { th with st := .blocked .sort }))

def vsortRun (t : Nat) (w : Insn) (s : State) : Issue :=
  let th := s.thread t
  let on := netSort (sortKey w) (insF w % 2 == 1) (th.pairsOn (insA w) (insM w))
  onNetwork t 16 s (fun s =>
    let u := s.undefPairs (64 - on.length)
    u.2.modThread t (fun th => th.wpair (insD w) (on ++ u.1)))

/-- VSORT, and F[3:2] = 0b11, which is reserved. -/
def rowVsort : Row where
  mine := fun w => isMajor 0x32 w && (insF w / 4 == 0 || insF w / 4 == 3)
  ok := sortOk 0
  reads := fun w => [rV (insA w), rV (insA w + 1), rM (insM w)]
  writes := fun w => [rV (insD w), rV (insD w + 1)]
  run := vsortRun

def vmergeRun (t : Nat) (w : Insn) (s : State) : Issue :=
  let th := s.thread t
  let kt := sortKey w
  let desc := insF w % 2 == 1
  let a := th.pairsOn (insA w) (insM w)
  let b := th.pairsOn (insB w) (insM w ^^^ 1)
  let on := if netSorted kt desc a && netSorted kt desc b then netSort kt desc (a ++ b) else []
  onNetwork t 16 s (fun s =>
    let u := s.undefPairs (128 - on.length)
    let l := on ++ u.1
    u.2.modThread t (fun th => (th.wpair (insD w) (l.take 64)).wpair (insD w + 2) (l.drop 64)))

def rowVmerge : Row where
  mine := fun w => isMajor 0x32 w && insF w / 4 == 1
  ok := sortOk 1
  reads := fun w => [rV (insA w), rV (insA w + 1), rV (insB w), rV (insB w + 1), rM (insM w), rM (insM w ^^^ 1)]
  writes := fun w => [rV (insD w), rV (insD w + 1), rV (insD w + 2), rV (insD w + 3)]
  run := vmergeRun

def vtopkRun (t : Nat) (w : Insn) (s : State) : Issue :=
  let th := s.thread t
  onNetwork t 8 s (fun s =>
    match netTopk (sortKey w) (insF w % 2 == 1) (th.pairs (insD w)) (th.pairsOn (insA w) (insM w)) with
    | some l => s.modThread t (fun th => th.wpair (insD w) l)
    | none =>
      let u := s.undefPairs 64
      u.2.modThread t (fun th => th.wpair (insD w) u.1))

def rowVtopk : Row where
  mine := fun w => isMajor 0x32 w && insF w / 4 == 2
  ok := sortOk 2
  reads := fun w => [rV (insA w), rV (insA w + 1), rV (insD w), rV (insD w + 1), rM (insM w)]
  writes := fun w => [rV (insD w), rV (insD w + 1)]
  run := vtopkRun

/-! The rows. -/

def execVint (t : Fin 8192) (w : Insn) (s : State) : Host.Outcome State Fault Refusal := .next (rowVint.issue t w s)
def execVflt (t : Fin 8192) (w : Insn) (s : State) : Host.Outcome State Fault Refusal := .next (rowVflt.issue t w s)
def execVdot (t : Fin 8192) (w : Insn) (s : State) : Host.Outcome State Fault Refusal := .next (rowVdot.issue t w s)
def execVcvt (t : Fin 8192) (w : Insn) (s : State) : Host.Outcome State Fault Refusal := .next (rowVcvt.issue t w s)
def execVperm (t : Fin 8192) (w : Insn) (s : State) : Host.Outcome State Fault Refusal := .next (rowVperm.issue t w s)
def execVcmp (t : Fin 8192) (w : Insn) (s : State) : Host.Outcome State Fault Refusal := .next (rowVcmp.issue t w s)
def execVred (t : Fin 8192) (w : Insn) (s : State) : Host.Outcome State Fault Refusal := .next (rowVred.issue t w s)
def execMask (t : Fin 8192) (w : Insn) (s : State) : Host.Outcome State Fault Refusal := .next (rowMask.issue t w s)
def execVhash (t : Fin 8192) (w : Insn) (s : State) : Host.Outcome State Fault Refusal := .next (rowVhash.issue t w s)
def execVsort (t : Fin 8192) (w : Insn) (s : State) : Host.Outcome State Fault Refusal := .next (rowVsort.issue t w s)
def execVmerge (t : Fin 8192) (w : Insn) (s : State) : Host.Outcome State Fault Refusal := .next (rowVmerge.issue t w s)
def execVtopk (t : Fin 8192) (w : Insn) (s : State) : Host.Outcome State Fault Refusal := .next (rowVtopk.issue t w s)

end Sys2Proof.Machine
end

