-- ==== Sys2Proof/Machine/PodDisp.lean ====
section
/-!
DEFINITION. The accumulator file (R122, R123), ASK, DONE and POST (R124, R125, R172), WAITU and WAITANY (R130).
-/
namespace Sys2Proof.Machine
open Sys2Proof

/-! ACC (R122, R123). -/

/-- A word of a Pod's accumulator file. -/
def Pod.accWord (p : Pod) (i : Nat) : Word := p.acc.at 0 i

/-- The Pod with accumulator words from a base written. -/
def Pod.accPut (p : Pod) (l : List (Nat × Word)) : Pod := { p with acc := l.foldl (fun a x => a.upd 0 x.1 x.2) p.acc }

/-- Words of a Pod's accumulator file that hold free values. -/
def drawWords (p : Nat) (ws : List Nat) (s : State) : State :=
  ws.foldl (fun a i => (a.draw).2.modPod p (fun x => x.accPut [(i, BitVec.ofNat 32 (a.draw).1)])) s

/-- Whether a gather of a thread may still write a word of its allocation. -/
def Watch.pools (s : State) (t : Nat) (w : Watch) (i : Nat) : Bool := w.ofThread s t && w.words.any (fun r => r.1 ≤ i && i < r.1 + r.2)

/-- A thread reads or writes accumulator words: those of a gather whose tag it has not collected hold free values from then on (R325). -/
def accTouch (t : Nat) (ws : List Nat) (s : State) : State :=
  if s.mem.watch.isEmpty then s
  else
    let hit := ws.filter (fun i => s.mem.watch.any (fun w => w.pools s t i))
    drawWords (podOf t) hit { s with mem := { s.mem with watch := s.mem.watch.map (fun w => { w with lost := w.lost ++ hit.filter (w.pools s t) }) } }

/-- A thread has written accumulator words: the destination elements that an ACCST makes of them are undefined until its tag is collected (R384). -/
def accWritten (t : Nat) (ws : List Nat) (s : State) : State :=
  let s1 := accTouch t ws s
  let s2 := { s1 with mem := { s1.mem with watch := s1.mem.watch.map (fun (w : Watch) =>
    if w.ofThread s t && !w.gather then { w with lost := w.lost ++ ws } else w) } }
  s2.mem.watch.foldl (fun a (w : Watch) => if w.ofThread s t then ((w.feeds.take w.fed).filter (fun f => ws.contains f.1)).foldl
    (fun b f => b.scramble w.ctx f.2.1 f.2.2) a else a) s2

/-- An allocation of n words granted at a base: every word reads zero, S[d] receives the base. -/
def accGrant (t n d base : Nat) (s : State) : State :=
  (s.modPod (podOf t) (fun p => { p with acc := p.acc.keep (fun i _ => !(base ≤ i && i < base + n)) })).modThread t
    (fun th => { th.ws d (BitVec.ofNat 64 base) with acc := some (base, n) })

/-- The threads of a Pod that wait for an allocation, in the order of their requests. -/
def State.accWaiting (s : State) (p : Nat) : List Nat :=
  (s.pod p).accQueue.filter (fun t => match (s.thread t).st with
    | .blocked (.acc _ _) => true
    | _ => false)

def accaRun (t : Nat) (w : Insn) (s : State) : Issue :=
  let th := s.thread t
  let n := (th.rs (insA w)).toNat
  let p := podOf t
  if th.acc.isSome || n % 64 != 0 || n < 64 || 4096 < n then .fault (fErr stRange 6) 0 s
  else
    match (s.accWaiting p).isEmpty, accFind (s.accHeld p) n with
    | true, some base => .next (accGrant t n (insD w) base s)
    | _, _ =>
      .stay ((s.block t (.acc n (insD w))).modPod p (fun x => { x with accQueue := s.accWaiting p ++ [t] }))

/-- ACC encodings: T, M and the unused register fields of each function. -/
def accOk (w : Insn) : Bool :=
  match insF w with
  | 0 => insB w == 0 && insM w == 0 && insT w == 0
  | 1 => insD w == 0 && insA w == 0 && insB w == 0 && insM w == 0 && insT w == 0
  | 2 | 3 | 4 | 6 => insD w == 0 && vOk (insA w) && insT w ≤ 1
  | 5 => vOk (insD w) && insA w == 0 && insT w ≤ 1
  | 7 => insD w == 0 && insM w == 0 && insT w == 0
  | _ => false

/-- Words of ACC with function f. -/
def isAcc (f : Nat) (w : Insn) : Bool := isMajor 0x34 w && insF w == f

/-- ACCA, and the reserved functions of ACC. -/
def rowAcca : Row where
  mine := fun w => isMajor 0x34 w && (insF w == 0 || insF w ≥ 8)
  ok := accOk
  reads := fun w => [rS (insA w)]
  writes := fun w => [rS (insD w)]
  run := accaRun

def rowAccf : Row where
  mine := isAcc 1
  ok := accOk
  reads := fun _ => []
  writes := fun _ => []
  run := fun t _ s => .next (s.modThread t (fun th => { th with acc := none }))

/-- The file words that an accumulator instruction touches, with the element of each: none where the offset or a word lies outside the
allocation. -/
def accWords (th : Thread) (off : Nat) (elems : List Nat) : Option (List (Nat × Nat)) :=
  if off % 64 ≠ 0 then none
  else if elems.isEmpty then some []
  else match th.acc with
    | none => none
    | some (base, n) =>
      if elems.all (fun i => off + i < n) then some (elems.map (fun i => (base + off + i, i))) else none

/-- One word of VACCADD, VACCMAX and VACCMIN: the accumulator word is the first operand (R150). -/
def accCombine (f t : Nat) (acc x : Word) : FRes :=
  if t = 0 then
    ⟨(if f = 2 then acc + x else if f = 3 then vintOp 10 acc x else vintOp 9 acc x).toNat, 0⟩
  else if f = 2 then fp32.add acc.toNat x.toNat
  else ⟨fp32.minmax (f == 3) acc.toNat x.toNat, 0⟩

/-- VACCADD, VACCMAX, VACCMIN and VACCWR on the active elements. -/
def accVecRun (t : Nat) (w : Insn) (s : State) : Issue :=
  let th := s.thread t
  match accWords th (th.rs (insB w)).toNat (th.active (insM w)) with
  | none => .fault (fErr stRange 6) 0 s
  | some ws =>
    let s := accTouch t (ws.map Prod.fst) s
    let p := s.pod (podOf t)
    let rs := ws.map (fun x =>
      let v := elem (th.rv (insA w)) x.2
      (x.1, if insF w = 6 then ⟨v.toNat, 0⟩ else accCombine (insF w) (insT w) (p.accWord x.1) v))
    .next ((accWritten t (ws.map Prod.fst) (s.modPod (podOf t) (fun p => p.accPut (rs.map (fun r => (r.1, BitVec.ofNat 32 r.2.val)))))).modThread t
      (fun th => th.raise (allFlags (rs.map Prod.snd))))

/-- The row of an accumulator function that reads V[A]. -/
def rowAccVec (f : Nat) : Row where
  mine := isAcc f
  ok := accOk
  reads := fun w => [rV (insA w), rS (insB w), rM (insM w)]
  writes := fun _ => []
  run := accVecRun

def vaccrdRun (t : Nat) (w : Insn) (s : State) : Issue :=
  let th := s.thread t
  match accWords th (th.rs (insB w)).toNat (th.active (insM w)) with
  | none => .fault (fErr stRange 6) 0 s
  | some ws =>
    let s := accTouch t (ws.map Prod.fst) s
    let p := s.pod (podOf t)
    .next (s.modThread t (fun th => th.wv (insD w) (ws.foldl (fun v x => v.set x.2 (p.accWord x.1)) (th.rv (insD w)))))

def rowVaccrd : Row where
  mine := isAcc 5
  ok := accOk
  reads := fun w => rS (insB w) :: rM (insM w) :: keeps w [rV (insD w)]
  writes := fun w => [rV (insD w)]
  run := vaccrdRun

def vacczRun (t : Nat) (w : Insn) (s : State) : Issue :=
  let th := s.thread t
  let n := (th.rs (insA w)).toNat
  let off := (th.rs (insB w)).toNat
  if off % 64 ≠ 0 then .fault (fErr stRange 6) 0 s
  else if n = 0 then .next s
  else match th.acc with
    | none => .fault (fErr stRange 6) 0 s
    | some (base, len) =>
      if off + n ≤ len then
        .next (accWritten t ((List.range n).map (base + off + ·)) (s.modPod (podOf t) (fun p => { p with
          acc := p.acc.keep (fun i _ => !(base + off ≤ i && i < base + off + n)) })))
      else .fault (fErr stRange 6) 0 s

def rowVaccz : Row where
  mine := isAcc 7
  ok := accOk
  reads := fun w => [rS (insA w), rS (insB w)]
  writes := fun _ => []
  run := vacczRun

/-- ACC_ALLOC_GRANT: the request of a Pod that came first is granted once a run is free (R123). -/
def accAllocGrant (p : Nat) (s : State) : State :=
  if !s.active p then s
  else match s.accWaiting p with
    | [] => s
    | t :: rest => match (s.thread t).st with
      | .blocked (.acc n d) => match accFind (s.accHeld p) n with
        | none => s
        | some base =>
          ((accGrant t n d base s).modPod p (fun x => { x with accQueue := rest })).modThread t (fun th => { th.overwrite [rS d] th.nextOrder with
            st := .running, pc := th.pc + 4 })
      | _ => s

/-! ASK and ASKNB (R124, R172). -/

/-- DISP encodings. -/
def dispOk (w : Insn) : Bool :=
  match insF w with
  | 0 | 1 => insB w == 0 && insT w == 0 && vOk (insD w)
  | 2 => insD w == 0 && insB w == 0 && insM w == 0 && insT w == 0
  | 3 => insD w == 0 && vOk (insB w) && insM w == 0 && insT w == 0
  | 4 => vOk (insB w) && insM w == 0 && insT w == 0
  | _ => false

/-- The FLOW_ID bound to a flow slot of a thread's image. -/
def State.slotFlow (s : State) (t k : Nat) : Option Nat :=
  match (s.flowSlots t)[k]? with
  | none => none
  | some fid => if fid = 0xFFFF_FFFF then none else some fid

/-- The slots of a set. -/
def setSlots (set : Nat) : List Nat := (List.range 64).filter (bit set)

/-- One slice's offer: a flow slot, its flow and the flow's class. -/
structure Bid where
  slot : Nat
  fid : Nat
  slice : Nat
  cls : Nat
  turn : Nat

/-- The ready flows of a set: those with an item to hand out and nobody waiting before the asker (R172). -/
def bids (s : State) (t set : Nat) : List Bid :=
  (setSlots set).filterMap (fun k => match s.slotFlow t k with
    | none => none
    | some fid => match s.flow fid with
      | none => none
      | some f =>
        if f.head.isSome && f.waiters.isEmpty && s.active (unitSlice f.slice) then
          let turn := match s.disp.lastServed.find f.slice with
            | none => fidIndex fid
            | some l => (fidIndex fid + 0x1_0000 - l - 1) % 0x1_0000
          some ⟨k, fid, f.slice, f.effClass, turn⟩
        else none)

/-- The offer that the Pod accepts: of each slice its best flow, of these the lowest class, then the slot after the one that last served
the thread. -/
def bestBid (last : Nat) (bs : List Bid) : Option Bid :=
  let perSlice := bs.filter (fun b => bs.all (fun c => c.slice != b.slice || b.cls < c.cls || (b.cls == c.cls && b.turn ≤ c.turn)))
  minBy (fun b => b.cls * 64 + (b.slot + 64 - last - 1) % 64) perSlice

/-- A thread registered at the tail of the waiter list of every flow of its set. -/
def register (t set : Nat) (s : State) : State :=
  (setSlots set).foldl (fun a k => match a.slotFlow t k with
    | none => a
    | some fid => a.modFlow fid (fun f => if f.waiters.contains t then f else { f with waiters := f.waiters ++ [t] })) s

/-- ASK and ASKNB past what a thread meets at an ASK. -/
def askRun (block : Bool) (t : Nat) (w : Insn) (s : State) : Issue :=
  let th := s.thread t
  let set := (th.rs (insA w)).toNat
  if th.item.isSome || (block && set == 0) || (setSlots set).any (fun k => (s.slotFlow t k).isNone) then .fault (fErr stState 7) 0 s
  else match askGate t s with
    | some s' => .stay s'
    | none =>
      let s := (bids s t set).foldl (fun (a : State) b => if a.parityArmed b.fid then a.dropItem b.fid 0 true else a) s
      match bestBid th.lastSlot (bids s t set) with
      | some b => .next (s.handOut t b.fid b.slot (insD w))
      | none =>
        if block then .stay ((register t set s).modThread t (fun th => { th with st := .asking set (insD w) }))
        else .next (s.modThread t (fun th => th.wv (insD w) ((th.rv (insD w)).set 16 0xFFFF_FFFF)))

/-- ASK, and the reserved functions of DISP. -/
def rowAsk : Row where
  mine := fun w => isMajor 0x38 w && (insF w == 0 || insF w ≥ 5)
  ok := dispOk
  reads := fun w => [rS (insA w)]
  writes := fun w => [rV (insD w)]
  run := askRun true

def rowAsknb : Row where
  mine := fun w => isMajor 0x38 w && insF w == 1
  ok := dispOk
  reads := fun w => [rS (insA w), rV (insD w)]
  writes := fun w => [rV (insD w)]
  run := askRun false

/-- ASK_OFFER: a slice offers the head item of a flow to the waiter that has waited longest (R172). -/
def askOffer (t fid : Nat) (s : State) : State :=
  match s.flow fid with
  | none => s
  | some f =>
    if f.waiters.head? ≠ some t ∨ f.head.isNone ∨ !s.active (unitSlice f.slice) ∨ !s.active (podOf t) then s
    else if s.parityArmed fid then s.dropItem fid 0 true
    else match (s.thread t).st with
      | .asking set d =>
        match (setSlots set).filter (fun k => s.slotFlow t k == some fid) with
        | [] => s
        | k :: ks =>
          let last := (s.thread t).lastSlot
          let slot := (minBy (fun j => (j + 64 - last - 1) % 64) (k :: ks)).getD k
          (s.handOut t fid slot d).modThread t (fun th => { th.overwrite [rV d] th.nextOrder with pc := th.pc + 4 })
      | _ => s

/-! DONE (R125). -/

/-- The held item retired, the allocation freed, uncollected statuses discarded. -/
def finishDone (t status : Nat) (s : State) : State :=
  (s.retire t status false).modThread t (fun th => { th with acc := none, tags := Thread.init.tags, cursor := none })

def doneRun (t : Nat) (w : Insn) (s : State) : Issue :=
  let th := s.thread t
  let st := (th.rs (insA w)).toNat % 2 ^ 16
  if th.item.isNone then .fault (fErr stState 7) 0 s
  else if th.busyTag then .stay (s.block t (.done st))
  else withStores t s (fun s => .next (finishDone t st s))

def rowDone : Row where
  mine := fun w => isMajor 0x38 w && insF w == 2
  ok := dispOk
  reads := fun w => [rS (insA w)]
  writes := fun _ => []
  run := doneRun

/-- DONE_RETIRE: once the outstanding operations of a thread blocked in DONE have ended, its item is retired (R125). -/
def doneRetire (t : Nat) (s : State) : State :=
  let th := s.thread t
  match th.st with
  | .blocked (.done st) =>
    if !s.works (podOf t) || th.busyTag || th.stores.any th.storeWaits then s
    else match s.drainStores t with
      | (some (pc, va, e), s') => s'.fault t pc va { e with detail := 4 }
      | (none, s') => (finishDone t st s').modThread t (fun th => { th with st := .running, pc := th.pc + 4 })
  | _ => s

/-! POST and POSTNB (R124, R166). -/

/-- The first ten elements of a vector as the bytes a producer supplies. -/
def postBody (v : List Word) : List Byte := (v.take 10).flatMap (fun x => leb 4 x.toNat)

/-- POST and POSTNB. -/
def postRun (block : Bool) (t : Nat) (w : Insn) (s : State) : Issue :=
  let th := s.thread t
  match s.slotFlow t (th.rs (insA w)).toNat with
  | none => .fault (fErr stState 7) 0 s
  | some fid =>
    let body := postBody (th.rv (insB w))
    withStores t s (fun s => match s.offer fid body 5 t 0 0 0 with
      | (.full, s') => if block then .stay (s'.block t (.post fid body)) else .next (s'.modThread t (fun th => th.ws (insD w) 1))
      | (_, s') => .next (if block then s' else s'.modThread t (fun th => th.ws (insD w) 0)))

def rowPost : Row where
  mine := fun w => isMajor 0x38 w && insF w == 3
  ok := dispOk
  reads := fun w => [rS (insA w), rV (insB w)]
  writes := fun _ => []
  run := postRun true

def rowPostnb : Row where
  mine := fun w => isMajor 0x38 w && insF w == 4
  ok := dispOk
  reads := fun w => [rS (insA w), rV (insB w)]
  writes := fun w => [rS (insD w)]
  run := postRun false

/-- POST_RESUME: a thread blocked in POST posts its item once the flow has room (R179). -/
def postResume (t : Nat) (s : State) : State :=
  match (s.thread t).st with
  | .blocked (.post fid body) =>
    if !s.active (podOf t) then s
    else match s.offer fid body 5 t 0 0 0 with
      | (.full, _) => s
      | (_, s') => s'.modThread t (fun th => { th with st := .running, pc := th.pc + 4 })
  | _ => s

/-! WAITU and WAITANY (R126, R130). -/

def waituRun (t : Nat) (w : Insn) (s : State) : Issue :=
  let th := s.thread t
  let k := (th.rs (insA w)).toNat
  if k ≥ 8 then .fault (fErr stState 7) 0 s
  else match nth th.tags .free k with
    | .free => .fault (fErr stState 7) 0 s
    | .busy _ => .stay (s.block t (.tag k))
    | .done p => .next (s.modThread t (fun th => { th.ws (insD w) (BitVec.ofNat 64 p) with tags := th.tags.set k .free }))

def rowWaitu : Row where
  mine := fun w => isMajor 0x3F w && insF w == 4
  ok := fun w => insB w == 0 && insM w == 0 && insT w == 0
  reads := fun w => [rS (insA w)]
  writes := fun w => [rS (insD w)]
  run := waituRun

/-- The lowest-numbered tag that has completed, with its status. -/
def Thread.firstDone (th : Thread) : Option (Nat × Nat) :=
  (List.range 8).findSome? (fun k => match nth th.tags .free k with
    | .done p => some (k, p)
    | _ => none)

def waitanyRun (t : Nat) (w : Insn) (s : State) : Issue :=
  let th := s.thread t
  match th.firstDone with
  | some (k, p) => .next (s.modThread t (fun th => th.collectAny k p (insD w)))
  | none => if th.busyTag then .stay (s.block t (.anyTag (insD w))) else .fault (fErr stState 7) 0 s

def rowWaitany : Row where
  mine := fun w => isMajor 0x3F w && insF w ≥ 5
  ok := fun w => insF w == 5 && insA w == 0 && insB w == 0 && insM w == 0 && insT w == 0 && insD w % 2 == 0
  reads := fun _ => []
  writes := fun w => [rS (insD w), rS (insD w + 1)]
  run := waitanyRun

/-! The rows. -/

def execAcca (t : Fin 8192) (w : Insn) (s : State) : Host.Outcome State Fault Refusal := .next (rowAcca.issue t w s)
def execAccAllocGrant (pod : Fin 512) (s : State) : Host.Outcome State Fault Refusal := .next (accAllocGrant pod s)
def execAccf (t : Fin 8192) (w : Insn) (s : State) : Host.Outcome State Fault Refusal := .next (rowAccf.issue t w s)
def execVaccadd (t : Fin 8192) (w : Insn) (s : State) : Host.Outcome State Fault Refusal := .next ((rowAccVec 2).issue t w s)
def execVaccmax (t : Fin 8192) (w : Insn) (s : State) : Host.Outcome State Fault Refusal := .next ((rowAccVec 3).issue t w s)
def execVaccmin (t : Fin 8192) (w : Insn) (s : State) : Host.Outcome State Fault Refusal := .next ((rowAccVec 4).issue t w s)
def execVaccrd (t : Fin 8192) (w : Insn) (s : State) : Host.Outcome State Fault Refusal := .next (rowVaccrd.issue t w s)
def execVaccwr (t : Fin 8192) (w : Insn) (s : State) : Host.Outcome State Fault Refusal := .next ((rowAccVec 6).issue t w s)
def execVaccz (t : Fin 8192) (w : Insn) (s : State) : Host.Outcome State Fault Refusal := .next (rowVaccz.issue t w s)
def execAsk (t : Fin 8192) (w : Insn) (s : State) : Host.Outcome State Fault Refusal := .next (rowAsk.issue t w s)
def execAsknb (t : Fin 8192) (w : Insn) (s : State) : Host.Outcome State Fault Refusal := .next (rowAsknb.issue t w s)
def execAskOffer (t : Fin 8192) (flow : Nat) (s : State) : Host.Outcome State Fault Refusal := .next (askOffer t flow s)
def execDone (t : Fin 8192) (w : Insn) (s : State) : Host.Outcome State Fault Refusal := .next (rowDone.issue t w s)
def execDoneRetire (t : Fin 8192) (s : State) : Host.Outcome State Fault Refusal := .next (doneRetire t s)
def execPost (t : Fin 8192) (w : Insn) (s : State) : Host.Outcome State Fault Refusal := .next (rowPost.issue t w s)
def execPostResume (t : Fin 8192) (s : State) : Host.Outcome State Fault Refusal := .next (postResume t s)
def execPostnb (t : Fin 8192) (w : Insn) (s : State) : Host.Outcome State Fault Refusal := .next (rowPostnb.issue t w s)
def execWaitu (t : Fin 8192) (w : Insn) (s : State) : Host.Outcome State Fault Refusal := .next (rowWaitu.issue t w s)
def execWaitany (t : Fin 8192) (w : Insn) (s : State) : Host.Outcome State Fault Refusal := .next (rowWaitany.issue t w s)

end Sys2Proof.Machine
end

