-- ==== Sys2Proof/Machine/Emb.lean ====
section
/-!
DEFINITION. EMBG and EMBU (R322 to R328), the coalescer (R324), what arrives for the Embedding Units over the fabric (R470).
-/
namespace Sys2Proof.Machine
open Sys2Proof

/-! The control blocks' bags (R323). -/

/-- The bag of element i. -/
def bagOf (starts i : Nat) : Nat := ((List.range i).map (fun k => b2n (bit starts (k + 1)))).sum

/-- The active elements of a bag. -/
def bagCount (starts : Nat) (active : List Nat) (j : Nat) : Nat := active.countP (fun i => bagOf starts i == j)

/-- 64 FP32 weights. -/
def readWeights (ctx addr : Nat) : Io (List Nat) := do
  let b ← memRead ctx addr 256
  pure ((List.range 64).map (fun i => fld b (4 * i) 4))

/-- An index's value from the vectors (R317). -/
def rawIndex (th : Thread) (a i : Nat) : Nat := (elem (th.rv a) i).toNat + 2 ^ 32 * (elem (th.rv (a + 1)) i).toNat

/-! EMBG (R322, R323, R326). -/

def egMode (d : List Byte) : Nat := fld d 8 1
def egOp (d : List Byte) : Nat := fld d 9 1
def egFormat (d : List Byte) : Nat := fld d 0xA 1
def egDest (d : List Byte) : Nat := fld d 0x20 8
def egStride (d : List Byte) : Nat := fld d 0x28 4
def egBags (d : List Byte) : Nat := fld d 0x18 8

/-- The bytes of an output row. -/
def egRowBytes (t : EmbTable) (d : List Byte) : Nat := if egMode d = 2 then t.stride else if egFormat d = 1 then 2 * t.d else 4 * t.d

/-- The words of a bag of a pooling gather, from the start of the allocation. -/
def egBagWords (t : EmbTable) (d : List Byte) (j : Nat) : Nat := fld d 0xC 4 + j * alignUp t.d 64

/-- Whether a gather's control block has a field that is not as R322 requires; the row size is checked where the table is known. -/
def embgBadArg (addr : Nat) (d : List Byte) (t : Option EmbTable) : Bool :=
  let pool := egMode d == 1
  let weighted := bit (fld d 0xB 1) 0
  addr % 64 != 0 || egMode d > 2 || (if pool then egOp d > 2 else egOp d != 0) || (if egMode d == 0 then egFormat d > 1 else egFormat d != 0) ||
    fld d 0xB 1 > 1 || (weighted && !(pool && egOp d == 0)) || (if pool then fld d 0xC 4 % 64 != 0 else fld d 0xC 4 != 0) ||
    (if pool then bit (egBags d) 0 else egBags d != 0) || (if pool then egDest d != 0 else egDest d % 64 != 0) ||
    (if pool then egStride d != 0 else egStride d % 64 != 0 || ((t.map (fun t => decide (egStride d < egRowBytes t d))).getD false)) ||
    !fldZero d 0x2C 4 || !fldZero d 0x38 8 || (if weighted then fld d 0x30 8 % 64 != 0 else fld d 0x30 8 != 0)

/-- The failures of a gather in table order (R326). -/
def embgFails (s : State) (ctx addr a : Nat) (d : List Byte) (alloc : Option (Nat × Nat)) (active : List Nat) : List (Bool × Err) :=
  let t := s.embTable (fld d 0 8)
  [ (embgBadArg addr d t, errD stArg 1),
    (t.isNone, errD stState 2),
    ((t.map (fun t => t.ctx != ctx)).getD false, errD stPerm 2),
    ((t.map (fun t => t.itype ≥ 2 && a % 2 == 1)).getD false, errD stArg 0x11),
    (egMode d == 1 && (match t, alloc with
      | some t, some (_, n) => active.any (fun i => egBagWords t d (bagOf (egBags d) i) + t.d > n)
      | _, _ => true), errD stRange 6) ]

/-- The accumulator word at which an element's bag starts. -/
def Gather.bagWord (g : Gather) (t : EmbTable) (i : Nat) : Nat := g.acc + egBagWords t g.ctl (bagOf (egBags g.ctl) i)

/-- Whether a pooling gather's thread still holds the allocation that the gather names. -/
def Gather.live (s : State) (g : Gather) : Bool :=
  (match g.iss with
    | .pod th _ _ ep => (s.thread th).epoch == ep
    | .rcp _ _ => false) && (s.thread g.thread).acc.any (fun a => a.1 == g.acc)

/-- Every destination of a gather is undefined (R326). -/
def undoGather (g : Gather) (s : State) : State :=
  match s.emb.tables.find g.table with
  | none => s
  | some t =>
    if egMode g.ctl = 1 then
      if g.live s then drawWords (podOf g.thread) (g.active.flatMap (fun i => (List.range t.d).map (g.bagWord t i + ·))) s else s
    else g.active.foldl (fun a i => a.scramble g.ctx (egDest g.ctl + i * egStride g.ctl) (egRowBytes t g.ctl)) s

/-- A gather all of whose elements are delivered ends: its pin is released, its tag completes. -/
def endGather (gid : Nat) (s : State) : State :=
  match s.emb.gathers.find gid with
  | none => s
  | some g =>
    if !g.left.isEmpty then s
    else
      let s1 := if g.failed.isSome then undoGather g s else s
      let s2 := { s1 with emb := { s1.emb with gathers := s1.emb.gathers.del gid } }.embUnpin g.table g.version
      s2.failOp g.iss g.ctx 9 0 0 (match g.failed with
        | none => err0 stOk
        | some (st, d, det) => ⟨st, d, 0xFFFF, det⟩)

/-! The coalescer (R324). -/

def State.rowReads (s : State) (u : Nat) : List RowRead := s.emb.reads.at [] u
def State.setRowReads (s : State) (u : Nat) (l : List RowRead) : State := { s with emb := { s.emb with reads := s.emb.reads.upd [] u l } }

/-- As many of a unit's reads as may be outstanding are started. -/
def startReads (u : Nat) (s : State) : State :=
  let l := s.rowReads u
  let room := 256 - l.countP RowRead.started
  let r := l.foldl (fun (a : List RowRead × Nat) x =>
    if x.started || a.2 = 0 then (a.1 ++ [x], a.2) else (a.1 ++ [{ x with started := true }], a.2 - 1)) ([], room)
  (s.setRowReads u r.1).modEmbUnit u (fun c => { c with rowReads := sat32 c.rowReads (room - r.2) })

/-- A request of a gather's element for a row, attached to a read of it that is outstanding, or with a read of its own. -/
def requestRow (h v row gid i : Nat) (s : State) : State :=
  match s.emb.tables.find h with
  | none => s
  | some t =>
    let u := rowUnit s t v row
    let l := s.rowReads u
    let same := fun (x : RowRead) => x.table == h && x.version == v && x.row == row
    if l.any same then
      ((s.setRowReads u (l.map (fun x => if same x then { x with attached := x.attached ++ [(gid, i)] } else x))).modEmbCtr h
        (fun c => { c with coalesced := c.coalesced + 1 })).modEmbUnit u (fun c => { c with coalesced := sat32 c.coalesced 1 })
    else startReads u (s.setRowReads u (l ++ [⟨h, v, row, [(gid, i)], false⟩]))

/-- A pooled value added to its bag's word. -/
def poolWord (g : Gather) (i : Nat) (acc : Word) (x : Nat) : Word :=
  let n := bagCount (egBags g.ctl) g.active (bagOf (egBags g.ctl) i)
  BitVec.ofNat 32 (match egOp g.ctl with
    | 0 => fAdd acc.toNat (if bit (fld g.ctl 0xB 1) 0 then fMul x (nth g.weights 0 i) else x)
    | 1 => fAdd acc.toNat (fMul x (fDiv fOne (fNat n)))
    | _ => fp32.minmax true acc.toNat x)

/-- A row delivered to an element of a gather (R323). What the thread has met of the destination too early stays undefined (R325). -/
def deliverRow (g : Gather) (t : EmbTable) (i : Nat) (b : List Byte) (s : State) : Option Err × State :=
  if egMode g.ctl = 1 then
    if !g.live s then (none, s)
    else
      let base := g.bagWord t i
      let met := ((s.mem.watch.find? (fun w => w.owner == .op g.iss)).map Watch.lost).getD []
      (none, drawWords (podOf g.thread) (met.filter (fun k => base ≤ k && k < base + t.d)) (s.modPod (podOf g.thread) (fun p => { p with
        acc := (t.values b).zipIdx.foldl (fun a x => a.upd 0 (base + x.2) (poolWord g i (a.at 0 (base + x.2)) x.1)) p.acc })))
  else
    let out := if egMode g.ctl = 2 then b
      else (t.values b).flatMap (fun x => if egFormat g.ctl = 1 then leb 2 (cvtFloat fp32 bf16 .near false x).val else leb 4 x)
    match s.ownWrite (.op g.iss) g.ctx (egDest g.ctl + i * egStride g.ctl) out with
    | (.ok _, s1) => (none, s1)
    | (.error e, s1) => (some { e with detail := 4 }, s1)

/-- One attached request settled with the row, or with the error that its read met. -/
def settleRow (h : Nat) (res : Except Err (List Byte)) (s : State) (a : Nat × Nat) : State :=
  match s.emb.gathers.find a.1, s.emb.tables.find h with
  | some g, some t =>
    let put := fun (f : Option Err) (s : State) =>
      let g1 := { g with
        left := g.left.filter (· != a.2)
        failed := g.failed.orElse (fun _ => f.map (fun e => (e.status, e.detail, e.detector))) }
      endGather a.1 { s with emb := { s.emb with gathers := s.emb.gathers.put a.1 g1 } }
    match res with
    | .error e => put (some e) s
    | .ok b =>
      let r := deliverRow g t a.2 b s
      put r.1 (r.2.modEmbCtr h (fun c => { c with gatherRows := c.gatherRows + 1 }))
  | _, _ => s

/-- EMB_ROW_READ_DONE: the k-th read of a unit completes and delivers its row to every attached request. -/
def rowReadDone (u k : Nat) (ev : MemEvent) (s : State) : State :=
  match (s.rowReads u)[k]? with
  | none => s
  | some x =>
    if !x.started || !s.works (unitEmb u) then s
    else match s.emb.tables.find x.table with
      | none => s
      | some t =>
        let va := t.va x.version + x.row * t.stride
        let s0 := s.setRowReads u ((s.rowReads u).eraseIdx k)
        let r : Except Err (List Byte) × State := match s0.meet t.ctx va ev with
          | (some e, s1) => (.error { e with detail := 3 }, s1)
          | (none, s1) => match Io.exec (memRead t.ctx va t.stride) s1 with
            | (.ok b, s2) => (.ok b, s2)
            | (.error e, s2) => (.error { e with detail := 3 }, s2)
        startReads u (x.attached.foldl (settleRow x.table r.1) r.2)

/-- The destinations of a gather, which its thread must leave alone until it has collected the tag (R325). -/
def Gather.watch (g : Gather) (t : EmbTable) : Watch :=
  { owner := .op g.iss, ctx := g.ctx, gather := true, feeds := [], fed := 0, spoiled := [], lost := []
    ranges := if egMode g.ctl = 1 then [] else g.active.map (fun i => (egDest g.ctl + i * egStride g.ctl, egRowBytes t g.ctl))
    words := if egMode g.ctl = 1 then g.active.map (fun i => (g.bagWord t i, t.d)) else [] }

/-- A gather in its context: checked, pinned, and its rows requested. -/
def embgIssue (iss : Issuer) (ctx addr a : Nat) (active : List Nat) (s : State) : State :=
  match Io.exec (memRead ctx addr 64) s with
  | (.error e, s1) => s1.failOp iss ctx 9 0 0 e
  | (.ok d, s1) =>
    let th := s1.thread iss.thread
    let h := fld d 0 8
    match firstFail (embgFails s1 ctx addr a d th.acc active), s1.embTable h with
    | some e, _ => s1.failOp iss ctx 9 0 0 e
    | none, none => s1
    | none, some t =>
      let g : Gather := ⟨iss, iss.thread, ctx, h, t.version, d, [], (th.acc.getD (0, 0)).1, active, active, none⟩
      match Io.exec (if bit (fld d 0xB 1) 0 then readWeights ctx (fld d 0x30 8) else pure []) s1 with
      | (.error e, s2) => (undoGather g s2).failOp iss ctx 9 0 0 e
      | (.ok ws, s2) =>
        let gid := s2.emb.nextGather
        let s3 := ({ s2 with emb := { s2.emb with nextGather := gid + 1, gathers := s2.emb.gathers.put gid { g with weights := ws } } }.embPin h
          t.version).watchOp (g.watch t)
        endGather gid (active.foldl (fun st i =>
          match embSelect st t (bit (fld d 0x10 8) i) (rawIndex th a i) with
          | .subst c => requestRow h t.version t.rows gid i (st.modEmbCtr h (fun x => x.subst c))
          | .row p r =>
            if p = t.self st then requestRow h t.version r gid i st
            else requestRow h t.version t.rows gid i (st.modEmbCtr h (fun x => x.subst 4))) s3)

/-! EMBU (R327, R328). -/

def euMode (d : List Byte) : Nat := fld d 8 1
def euFormatBytes (d : List Byte) : Nat := if fld d 9 1 = 1 then 2 else 4

/-- Whether an update's control block has a field that is not as R327 requires. -/
def embuBadArg (addr : Nat) (d : List Byte) (t : Option EmbTable) : Bool :=
  let weighted := bit (fld d 0xA 2) 1
  addr % 64 != 0 || euMode d > 2 || fld d 9 1 > 1 || fld d 0xA 2 > 3 || (weighted && euMode d != 1) || fld d 0xC 4 % 4 != 0 ||
    ((t.map (fun t => decide (fld d 0xC 4 < t.d * euFormatBytes d))).getD false) ||
    (if euMode d == 0 then egBags d != 0 else bit (egBags d) 0) || fld d 0x20 8 % 4 != 0 ||
    (if weighted then fld d 0x28 8 % 64 != 0 else fld d 0x28 8 != 0) || !fldZero d 0x30 16

/-- The failures of an update in table order (R326). -/
def embuFails (s : State) (ctx addr a : Nat) (d : List Byte) : List (Bool × Err) :=
  let t := s.embTable (fld d 0 8)
  [ (embuBadArg addr d t, errD stArg 1),
    (t.isNone, errD stState 2),
    ((t.map (fun t => t.ctx != ctx)).getD false, errD stPerm 2),
    ((t.map (fun t => t.itype ≥ 2 && a % 2 == 1)).getD false, errD stArg 0x11),
    ((t.map (fun t => !t.updates)).getD false, errD stState 0x10) ]

/-- The gradient of an active element (R327). -/
def gradient (ctx : Nat) (d : List Byte) (n : Nat) (active : List Nat) (weights : List Nat) (i : Nat) : Io (List Nat) := do
  let j := if euMode d = 0 then i else bagOf (egBags d) i
  let w := euFormatBytes d
  let b ← memRead ctx (fld d 0x20 8 + j * fld d 0xC 4) (n * w)
  let xs := (List.range n).map (fun k => if w = 2 then (cvtFloat bf16 fp32 .near false (fld b (2 * k) 2)).val else fld b (4 * k) 4)
  pure (if euMode d = 1 && bit (fld d 0xA 2) 1 then xs.map (fun x => fMul x (nth weights 0 i))
    else if euMode d = 2 then xs.map (fun x => fMul x (fDiv fOne (fNat (bagCount (egBags d) active j)))) else xs)

/-- What the EMBU that have placed all their deltas do: their tags complete, and STEP_END counts once no earlier EMBU of the thread on the table has
deltas left (R327, R328). -/
def settleEmbus : List Embu → List Embu → State → List Embu × State
  | kept, [], s => (kept, s)
  | kept, e :: t, s =>
    if !e.deltas.isEmpty then settleEmbus (kept ++ [e]) t s
    else
      let s1 := if e.ended then s else s.failOp e.iss e.ctx 10 0 0 (err0 stOk)
      if !e.stepEnd then settleEmbus kept t s1
      else if kept.any (fun k => k.thread == e.thread && k.table == e.table) then settleEmbus (kept ++ [{ e with ended := true }]) t s1
      else settleEmbus kept t (s1.modEmb e.table (fun x => { x with ends := x.ends + 1, ended := x.ended ++ [e.thread] }))

def State.settleEmb (s : State) : State :=
  let r := settleEmbus [] s.emb.embus { s with emb := { s.emb with embus := [] } }
  { r.2 with emb := { r.2.emb with embus := r.1 } }

/-- A delta for another part sent as an embedding-delta frame; one bound for a lost part is discarded (R327, R341, R470). -/
def sendDelta (h part row : Nat) (vals : List Nat) (s : State) : State :=
  match s.embTable h with
  | none => s
  | some t =>
    if t.lostParts.contains part then s.modEmbCtr h (fun c => { c with lost := c.lost + 1 })
    else
      let body := leb 8 row ++ vals.flatMap (fun x => if t.deltaBf16 then leb 2 (cvtFloat fp32 bf16 .near false x).val else leb 4 x)
      (s.modEmb h (fun t => { t with sent := bumpToken t.sent part t.step 1 })).fabSend 2 (embFrame s t 4 part t.step 0 body)

/-- One element's delta: sent to its home, kept to be placed on the part, or discarded (R318). -/
def embuElement (h : Nat) (t : EmbTable) (null : Bool) (raw : Nat) (vals : List Nat) (a : List Delta × State) : List Delta × State :=
  match embSelect a.2 t null raw with
  | .row p r => if p = t.self a.2 then (a.1 ++ [Delta.mk p r vals], a.2) else (a.1, sendDelta h p r vals a.2)
  | .subst c =>
    let s1 := a.2.modEmbCtr h (fun x => x.subst c)
    if t.defaultGrad then (a.1 ++ [Delta.mk (t.self s1) t.rows vals], s1)
    else (a.1, s1.modEmbCtr h (fun x => { x with gradDiscarded := x.gradDiscarded + 1 }))

/-- An update checked, its gradients read, its deltas on their way. -/
def embuIssue (iss : Issuer) (ctx addr a : Nat) (active : List Nat) (s : State) : State :=
  match Io.exec (memRead ctx addr 64) s with
  | (.error e, s1) => s1.failOp iss ctx 10 0 0 e
  | (.ok d, s1) =>
    let th := s1.thread iss.thread
    let h := fld d 0 8
    match firstFail (embuFails s1 ctx addr a d), s1.embTable h with
    | some e, _ => s1.failOp iss ctx 10 0 0 e
    | none, none => s1
    | none, some t =>
      match Io.exec (do
          let ws ← if bit (fld d 0xA 2) 1 then readWeights ctx (fld d 0x28 8) else pure []
          active.mapM (gradient ctx d t.d active ws)) s1 with
      | (.error e, s2) => s2.failOp iss ctx 10 0 0 e
      | (.ok gs, s2) =>
        let r := (active.zip gs).foldl (fun st p => embuElement h t (bit (fld d 0x10 8) p.1) (rawIndex th a p.1) p.2 st) ([], s2)
        { r.2 with emb := { r.2.emb with
            embus := r.2.emb.embus ++ [Embu.mk iss iss.thread ctx h r.1 (bit (fld d 0xA 2) 0) false] } }.settleEmb

/-- The EMB row of a function. -/
def rowEmb (update : Bool) : Row where
  mine := fun w => isMajor 0x3E w && (if update then insF w == 1 else insF w != 1)
  ok := fun w => insF w ≤ 1 && insT w == 0 && vOk (insA w)
  reads := fun w => [rV (insA w), rS (insB w), rM (insM w)] ++ (if insA w % 2 = 0 then [rV (insA w + 1)] else [])
  writes := fun w => [rS (insD w)]
  run := fun t w s =>
    let th := s.thread t
    let ctx := s.ctxOf t
    let addr := (th.rs (insB w)).toNat
    let h := ((s.peekStored t ctx addr 8).map le).getD 0
    if update && ((s.embTable h).map (fun x => x.ended.contains t)).getD false then .stay (s.block t (.embStep h))
    else asyncIssue t w 0 (if update then 10 else 9) s (fun iss s =>
      if update then embuIssue iss ctx addr (insA w) (th.active (insM w)) s else embgIssue iss ctx addr (insA w) (th.active (insM w)) s)

/-! What arrives (R329, R470). -/

/-- The virtual channel of an operation (R451). -/
def opVc (op : Nat) : Nat := if op ≤ 2 then 0 else if op = 3 then 3 else if op ≤ 6 then 2 else 1

/-- The frames that wait at a port, or at 12 those of the part to itself, each with its virtual channel. -/
def State.arrivals (s : State) (p : Nat) : List (Nat × TFrame) := if p < 12 then (s.fport p).rx else s.fab.loop.map (fun f => (opVc f.op, f))

/-- The next frame of a kind of operation that waits at a port: the head of its virtual channel. None while the part does not serve, or the port is frozen. -/
def State.nextArrival (s : State) (p : Nat) (ops : List Nat) : Option (Nat × TFrame) :=
  if !s.ctl.fabricOn || (if p < 12 then s.portFrozen p else s.memFrozen) then none
  else [0, 1, 2, 3].findSome? (fun vc => match (s.arrivals p).find? (fun e => e.1 == vc) with
    | none => none
    | some e => if ops.contains e.2.op then some e else none)

/-- The head frame of a virtual channel leaves the receive buffer; its credits are returned. -/
def State.takeArrival (s : State) (p vc : Nat) (f : TFrame) : State :=
  if p < 12 then (s.modFport p (fun x => { x with rx := x.rx.erase (vc, f) })).giveBack p vc f
  else { s with fab := { s.fab with loop := s.fab.loop.erase f } }

/-- The table that a frame names by context and TABLE_TAG. -/
def State.embByTag (s : State) (f : TFrame) : Option (Nat × EmbTable) :=
  s.emb.tables.find? (fun e => e.2.ctx == f.ctx && e.2.tag == f.aux % 2 ^ 32 && !e.2.dying)

/-- A record for an unknown tag discarded; which unit counts it is free. -/
def embDropped (n : Nat) (s : State) : State := (s.draw).2.modEmbUnit ((s.draw).1 % 32) (fun c => { c with dropped := sat32 c.dropped n })

/-- The records of an EMB_DELTA frame: local row and values. -/
def frameRecords (t : EmbTable) (b : List Byte) : List (Nat × List Nat) :=
  let w := if t.deltaBf16 then 2 else 4
  let n := 8 + t.d * w
  (List.range (b.length / n)).map (fun k =>
    let r := sub b (n * k) n
    (fld r 0 8, (List.range t.d).map (fun j =>
      if t.deltaBf16 then (cvtFloat bf16 fp32 .near false (fld r (8 + 2 * j) 2)).val else fld r (8 + 4 * j) 4)))

/-- EMB_DELTA_RECEIVE: k below 12: the next frame of deltas at that port enters the buffers, once every unit of it accepts; 12 + i: the next delta of
the i-th EMBU that waits enters the buffer of its row's unit. -/
def deltaReceive (k : Nat) (s : State) : State :=
  if k < 12 then
    match if s.embRuns then s.nextArrival k [4] else none with
    | none => s
    | some (vc, f) => match s.embByTag f with
      | none => let n := deltaRecords (s.takeArrival k vc f) f; embDropped n.1 n.2
      | some (h, t) =>
        let rs := (frameRecords t f.payload).filter (fun r => r.1 ≤ t.rows)
        if rs.all (fun r => embAccepts s (rowUnit s t t.version r.1)) then
          (rs.foldl (fun a r => placeDelta h f.src (f.aux / 2 ^ 32) r.1 r.2 a) (s.takeArrival k vc f)).closeAll
        else s
  else
    let mine := s.emb.embus.filter (fun e => !e.deltas.isEmpty)
    match mine[k - 12]? with
    | none => s
    | some e => match e.deltas, s.embTable e.table with
      | d :: rest, some t =>
        if !embAccepts s (rowUnit s t t.version d.row) then s
        else
          let s1 := placeDelta e.table d.part t.step d.row d.vals (s.modEmb e.table (fun t => { t with sent := bumpToken t.sent d.part t.step 1 }))
          { s1 with emb := { s1.emb with embus := s1.emb.embus.map (fun x => if x == e then { x with deltas := rest } else x) } }.settleEmb.closeAll
      | _, _ => { s with emb := { s.emb with embus := s.emb.embus.map (fun x => if x == e then { x with deltas := [] } else x) } }.settleEmb

/-- A frame of one operation at a port handed to its table, or discarded where no table has its tag; a token is counted then (R336). -/
def embArrival (k op : Nat) (go : Nat → EmbTable → TFrame → State → State) (s : State) : State :=
  match if s.embRuns then s.nextArrival k [op] else none with
  | none => s
  | some (vc, f) =>
    let s1 := s.takeArrival k vc f
    match s.embByTag f with
    | none => if op = 5 then embDropped 1 s1 else s1
    | some (h, t) => go h t f s1

/-- EMB_TOKEN_RECEIVE, EMB_NOTICE_RECEIVE and EMB_LOST_RECEIVE (R470). -/
def tokenReceive (k : Nat) : State → State := embArrival k 5 (fun h t f s =>
  if f.aux / 2 ^ 32 < t.homeStep then s else takeToken h f.src (f.aux / 2 ^ 32) (fld f.payload 0 8) s)
def noticeReceive (k : Nat) : State → State := embArrival k 6 (fun h t f s =>
  if f.aux / 2 ^ 32 + 1 < t.step then s else takeNotice h f.src (f.aux / 2 ^ 32) s)
def lostReceive (k : Nat) : State → State := embArrival k 7 (fun h _ f s =>
  s.modEmb h (fun t => { t with
    lost := bumpToken t.lost f.src 0 (f.aux / 2 ^ 32), ctr := { t.ctr with lost := t.ctr.lost + f.aux / 2 ^ 32 } }))

/-! The rows. -/

def execEmbg (t : Fin 8192) (w : Insn) (s : State) : Host.Outcome State Fault Refusal := .next ((rowEmb false).issue t w s)
def execEmbu (t : Fin 8192) (w : Insn) (s : State) : Host.Outcome State Fault Refusal := .next ((rowEmb true).issue t w s)
def execEmbRowReadDone (u : Fin 32) (k : Nat) (ev : MemEvent) (s : State) : Host.Outcome State Fault Refusal := .next (rowReadDone u k ev s)
def execEmbDeltaReceive (k : Nat) (s : State) : Host.Outcome State Fault Refusal := .next (deltaReceive k s)
def execEmbTokenReceive (k : Nat) (s : State) : Host.Outcome State Fault Refusal := .next (tokenReceive k s)
def execEmbNoticeReceive (k : Nat) (s : State) : Host.Outcome State Fault Refusal := .next (noticeReceive k s)
def execEmbLostReceive (k : Nat) (s : State) : Host.Outcome State Fault Refusal := .next (lostReceive k s)

end Sys2Proof.Machine
end

