-- ==== Sys2Proof/Machine/FabOps.lean ====
section
/-!
DEFINITION. Remote operations (R462 to R469).
-/
namespace Sys2Proof.Machine
open Sys2Proof

/-! The descriptor and its frames (R462, R464). -/

def rdOp (d : List Byte) : Nat := fld d 2 1
def rdWide (d : List Byte) : Bool := bit (fld d 3 1) 0
def rdDst (d : List Byte) : Nat := fld d 4 2
def rdLocal (d : List Byte) : Nat := fld d 8 8
def rdRemote (d : List Byte) : Nat := fld d 0x10 8
def rdLength (d : List Byte) : Nat := fld d 0x18 8
/-- The bytes of an atomic. -/
def rdAtomBytes (d : List Byte) : Nat := if rdWide d then 8 else 4

/-- The failures of a remote operation in table order (R463). -/
def remoteFails (s : State) (ctx addr : Nat) (d : List Byte) : List (Bool × Err) :=
  let op := rdOp d
  let n := rdLength d
  let atom := op == 2
  let len := if atom then rdAtomBytes d else n
  [ fieldErr stArg 0x0B01 ([(decide (op > 3), 2), (fld d 3 1 > 1, 3), (rdDst d ≥ 4096 && rdDst d != 0xFFFF, 4),
      (op == 3 && rdRemote d ≥ 2 ^ 32, 0x10), (atom && n != 0, 0x18), (!atom && fld d 0x20 8 != 0, 0x20)] ++ reservedBytes d [(0x28, 24)]),
    fieldErr stRange 0x0B02 [(if op ≤ 1 then n < 1 || n > 2 ^ 32 else op == 3 && (n % 40 != 0 || n < 40 || n > 40 * 1024), 0x18)],
    fieldErr stAlign 0x0B03 [(addr % 64 != 0, 0xFFFF), ((atom && rdLocal d % rdAtomBytes d != 0) || (op == 3 && rdLocal d % 8 != 0), 8),
      (atom && rdRemote d % rdAtomBytes d != 0, 0x10)],
    (s.isOwn (rdDst d) && op != 3 && !(atom && rdLocal d == 0) && rangesMeet (rdLocal d, len) (rdRemote d, len), errD stOverlap 0x0B04),
    rangesRow s ctx (if atom then (if rdLocal d = 0 then [] else [(rdLocal d, len, Need.w)]) else [(rdLocal d, n, if op = 1 then .w else .r)]),
    fieldErr stState 0x0B07 [(s.fab.grat == 0xFFFF || !s.reachable (rdDst d), 4)] ]

/-- The lengths of the frames of an operation, in address order. -/
def remoteCuts (d : List Byte) : List Nat :=
  match rdOp d with
  | 2 => [0]
  | 3 => (blocks 4080 (rdLength d / 4080 + 2) 0 (rdLength d)).map Prod.snd
  | _ => (blocks 4096 (rdLength d / 4096 + 2) (rdRemote d) (rdLength d)).map Prod.snd

/-- Where a frame's bytes begin in the operation. -/
def remoteAt (cuts : List Nat) (i : Nat) : Nat := (cuts.take i).sum

/-- The frames of an operation without their payloads, each with its place and virtual channel. -/
def remoteFrames (own ctx : Nat) (d : List Byte) : List (Nat × Nat × TFrame) :=
  let cuts := remoteCuts d
  cuts.zipIdx.map (fun c =>
    let send := rdOp d == 3
    (c.2, if send then 3 else 0, {
      dst := rdDst d, src := own, op := rdOp d, hops := 16, key := fld d 6 2, ctx := ctx, flags := b2n (rdWide d), tag := 0,
      addr := if send then 0 else (rdRemote d + remoteAt cuts c.2) % 2 ^ 64,
      aux := if send then rdRemote d else if rdOp d = 2 then fld d 0x20 8 else 0, payload := [], want := if rdOp d = 1 then c.1 else 0 }))

/-! The course of an operation. -/

/-- The bytes of an operation that its sent frames cover, and those done without a gap from the start. -/
def RemoteOp.sentBytes (o : RemoteOp) : Nat :=
  (o.lengths.zipIdx.map (fun c => if o.unsent.any (fun u => u.1 == c.2) || o.unread.contains c.2 then 0 else c.1)).sum
def RemoteOp.doneBytes (o : RemoteOp) : Nat := ((o.lengths.zipIdx.takeWhile (fun c => o.done.contains c.2)).map Prod.fst).sum

/-- What an operation leaves undefined after a failure (R468): the local bytes of a READ beyond those delivered, the bytes of unacknowledged
WRITE frames where the target is the part itself. -/
def remoteUndo (s : State) (o : RemoteOp) : State :=
  let d := o.desc
  if rdOp d = 1 then s.scramble o.ctx (rdLocal d + o.doneBytes) (rdLength d - o.doneBytes)
  else if rdOp d = 0 ∧ s.isOwn (rdDst d) then
    (o.lengths.zipIdx.filter (fun c => !o.done.contains c.2)).foldl
      (fun a c => a.scramble o.ctx (rdRemote d + remoteAt o.lengths c.2) c.1) s
  else s

/-- Threads that wait for a free request look again. -/
def wakeRemote (s : State) : State :=
  (s.pods.threads.filter (fun e => e.2.st == .blocked .remote)).foldl (fun a e => a.wake e.1) s

/-- An operation ends: its requests are freed, its record written (R468). -/
def remoteEnd (k : Nat) (e : Err) (s : State) : State :=
  match s.fab.ops.find k with
  | none => s
  | some o =>
    let s1 := if e.status = stOk then s else remoteUndo s o
    let atom := rdOp o.desc == 2
    let s2 := { s1 with fab := { s1.fab with ops := s1.fab.ops.del k, reqs := s1.fab.reqs.keep (fun _ r => r.op != k) } }
    wakeRemote (s2.failOp o.iss o.ctx 8 (if atom then 1 else o.sentBytes) (if atom then b2n (!o.done.isEmpty) else o.doneBytes) e)

/-- An operation whose every frame has its response or report ends: with OK, or its first failure in address order. -/
def remoteSettle (k : Nat) (s : State) : State :=
  match s.fab.ops.find k with
  | none => s
  | some o =>
    if o.done.length + o.fails.length < o.lengths.length then s
    else match minBy (fun f => f.1) o.fails with
      | none => remoteEnd k (err0 stOk) s
      | some (_, st, d, det) => remoteEnd k ⟨st, d, 0xFFFF, det⟩ s

def modRemote (k : Nat) (f : RemoteOp → RemoteOp) (s : State) : State :=
  match s.fab.ops.find k with
  | none => s
  | some o => { s with fab := { s.fab with ops := s.fab.ops.put k (f o) } }

/-- A frame of an operation that has failed. -/
def remoteFail (k i : Nat) (e : Err) : State → State :=
  modRemote k (fun o => { o with fails := o.fails ++ [(i, e.status, e.detail, e.detector)] })

/-- Whether an operation's next frame may leave: a request is free; a SEND waits for every earlier WRITE and ATOMIC_ADD of its thread to its target
(R469); no operation starts between TABLE_ACK and COMMIT (R455). -/
def mayLeave (s : State) (k : Nat) (o : RemoteOp) : Bool :=
  s.fab.reqs.length < 16384 &&
    (rdOp o.desc != 3 || !(s.fab.ops.any (fun e => e.1 < k && e.2.thread == o.thread && rdDst e.2.desc == rdDst o.desc &&
      (rdOp e.2.desc == 0 || rdOp e.2.desc == 2)))) &&
    (o.unsent.length < o.lengths.length || !((s.fab.disc.map Discovery.waiting).getD false))

/-- One frame of an operation leaves, with its bytes read. -/
def sendOne (k : Nat) (s : State) : State :=
  match s.fab.ops.find k with
  | none => s
  | some o => match o.unsent with
    | [] => s
    | (i, vc, f) :: t =>
      let n := nth o.lengths 0 i
      let at_ := rdLocal o.desc + remoteAt o.lengths i
      let s0 := modRemote k (fun o => { o with unsent := t }) s
      match Io.exec (if rdOp o.desc = 0 ∨ rdOp o.desc = 3 then memRead o.ctx at_ n else pure []) s0 with
      | (.error e, s1) => remoteFail k i { e with detail := 3 } (modRemote k (fun o => { o with unread := i :: o.unread }) s1)
      | (.ok b, s1) =>
        let r := s1.freshTag
        let f' := { f with tag := r.1, payload := b }
        { r.2 with fab := { r.2.fab with reqs := r.2.fab.reqs.put r.1 ⟨k, i, f', vc, at_, none⟩ } }.fabSend vc f'

/-- An operation sends what it may. -/
def sendLoop (k : Nat) : Nat → State → State
  | 0, s => s
  | n + 1, s => match s.fab.ops.find k with
    | none => s
    | some o => if !o.unsent.isEmpty && mayLeave s k o then sendLoop k n (sendOne k s) else s

/-- Every operation, in the order of issue, sends what it may. -/
def pumpOps (s : State) : State :=
  s.fab.ops.keys.foldl (fun a k => remoteSettle k (sendLoop k ((a.fab.ops.find k).map (fun o => o.unsent.length) |>.getD 0) a)) s

/-- A remote operation checked and started. -/
def remoteIssue (iss : Issuer) (ctx addr : Nat) (s : State) : State :=
  s.withDesc iss ctx addr 64 8 (fun d s =>
    s.checkOp iss ctx 8 0x0B01 (remoteFails s ctx addr d) (fun s =>
      let o : RemoteOp := ⟨iss, iss.thread, ctx, d, remoteFrames s.fab.grat ctx d, remoteCuts d, [], [], []⟩
      pumpOps { s with fab := { s.fab with nextOp := s.fab.nextOp + 1, ops := s.fab.ops.put s.fab.nextOp o } }))

/-- FABRIC_OPERATION: a JOB that finds no request free waits. -/
def rowFabric : Row :=
  let r := rowJob 8 remoteIssue
  { r with run := fun t w s => if s.fab.reqs.length ≥ 16384 then .stay (s.block t .remote) else r.run t w s }

/-! At the target (R465). -/

/-- A response to a request frame. -/
def respond (f : TFrame) (op aux : Nat) (payload : List Byte) (s : State) : State :=
  s.fabSend 1 { f with dst := f.src, src := s.fab.grat, op := op, hops := 16, aux := aux, payload := payload, want := 0 }

/-- A refusal. -/
def refuse (f : TFrame) (e : Err) : State → State := respond f 12 (e.status + e.detail * 2 ^ 16 + e.detector * 2 ^ 32) []

/-- Whether a request's context does not exist on the part. -/
def noContext (s : State) (f : TFrame) : Bool := ((s.mem.contexts.find f.ctx).map Ctx.destroying).getD true

/-- A request frame at a port carried out by go once it leaves the receive buffer. -/
def serve (p op : Nat) (go : TFrame → State → State) (s : State) : State :=
  match (if s.memFrozen then none else s.nextArrival p [op]) with
  | none => s
  | some (vc, f) =>
    let s1 := s.takeArrival p vc f
    if noContext s1 f then refuse f (errD stState 0x0B08) s1 else go f s1

def remoteWrite (p : Nat) : State → State := serve p 0 (fun f s =>
  match Io.exec (memWrite f.ctx f.addr f.payload) s with
  | (.error e, s1) => refuse f { e with detail := if e.status = stHw then 0 else 4 } s1
  | (.ok _, s1) => respond f 8 0 [] s1)

def readReq (p : Nat) : State → State := serve p 1 (fun f s =>
  match Io.exec (memRead f.ctx f.addr f.want) s with
  | (.error e, s1) => refuse f { e with detail := if e.status = stHw then 0 else 3 } s1
  | (.ok b, s1) => respond f 9 0 b s1)

def atomicReq (p : Nat) : State → State := serve p 2 (fun f s =>
  let n := if bit f.flags 0 then 8 else 4
  match Io.exec (memModify f.ctx f.addr n (fun b => leb n (le b + f.aux))) s with
  | (.error e, s1) => refuse f { e with detail := if e.status = stHw then 0 else 4 } s1
  | (.ok b, s1) => respond f 10 (le b) [] s1)

/-- The items of a SEND entered in its flow one by one, from one on: how many have entered, and whether the flow has gone. -/
def enterItems (fid src : Nat) (b : List Byte) : Nat → Nat → State → Nat × Bool × State
  | 0, i, s => (i, false, s)
  | n + 1, i, s =>
    match s.offer fid (sub b (40 * i) 40) 4 src 0 0 0 with
    | (.entered, s1) => enterItems fid src b n (i + 1) s1
    | (.full, s1) => (i, false, s1)
    | (.gone, s1) => (i, true, s1)

/-- SEND_RECEIVE: items enter the flow while it has room; the frame leaves its buffer with the last. -/
def sendReceive (p : Nat) (s : State) : State :=
  match s.nextArrival p [3] with
  | none => s
  | some (vc, f) =>
    let fid := f.aux % 2 ^ 32
    let bad := noContext s f || (match s.flow fid with
      | none => true
      | some x => x.ctx != f.ctx || fidKind fid != 0)
    if bad then refuse f (errD stState 0x0B08) (s.takeArrival p vc f)
    else
      let n := f.payload.length / 40
      let r := enterItems fid (if p < 12 then p else 0xFFFF) f.payload (n - f.want) f.want s
      if r.1 ≥ n then respond f 11 0 [] (r.2.2.takeArrival p vc f)
      else if p < 12 then r.2.2.modFport p (fun x => { x with rx := x.rx.map (fun e => if e == (vc, f) then (vc, { f with want := r.1 }) else e) })
      else
        let s1 := r.2.2
        { s1 with fab := { s1.fab with loop := s1.fab.loop.map (fun x => if x == f then { f with want := r.1 } else x) } }

/-! At the issuer (R466 to R468). -/

/-- What a response does to its request's frame. -/
def takeResponse (r : RemoteReq) (f : TFrame) (s : State) : State :=
  let done := modRemote r.op (fun o => { o with done := o.done ++ [r.index] })
  match s.fab.ops.find r.op with
  | none => s
  | some o =>
    let put := fun (b : List Byte) (s : State) =>
      match Io.exec (memWrite o.ctx r.localAddr b) s with
      | (.ok _, s1) => done s1
      | (.error e, s1) => remoteFail r.op r.index { e with detail := 4 } s1
    match f.op with
    | 12 => remoteFail r.op r.index ⟨bits f.aux 15 0, bits f.aux 31 16, 0xFFFF, bits f.aux 63 32⟩ s
    | 9 => put f.payload s
    | 10 => if rdLocal o.desc = 0 then done s else put (leb (rdAtomBytes o.desc) f.aux) s
    | _ => done s

/-- REMOTE_RESPONSE_RECEIVE: a response or loss report of a request; a lost token or notice is sent again (R466). -/
def responseReceive (p : Nat) (s : State) : State :=
  match s.nextArrival p [8, 9, 10, 11, 12] with
  | none => s
  | some (vc, f) =>
    let s1 := s.takeArrival p vc f
    match s1.fab.reqs.find f.tag, s1.fab.embSent.find f.tag with
    | some r, _ =>
      let s2 := { s1 with fab := { s1.fab with reqs := s1.fab.reqs.del f.tag } }
      pumpOps (wakeRemote (remoteSettle r.op (takeResponse r f s2)))
    | none, some g => if f.op = 12 then embResend g s1 else s1
    | none, none => s1

/-- REMOTE_REQUEST_TIMEOUT: a request whose frame left the part 1 s ago ends its operation (R467). -/
def requestTimeout (tag : Nat) (s : State) : State :=
  match s.fab.reqs.find tag with
  | none => s
  | some r => if (r.sentAt.map (fun t => decide (t + 100000000 ≤ s.ctl.now))).getD false then pumpOps (remoteEnd r.op (errD stHw 0x0B06) s) else s

/-! The rows. -/

def execFabricOperation (t : Fin 8192) (w : Insn) (s : State) : Host.Outcome State Fault Refusal :=
  .next (if ((jobKind s t w).map (· == 8)).getD true then rowFabric.issue t w s else s)
def execRemoteWriteReceive (p : Fin 13) (s : State) : Host.Outcome State Fault Refusal := .next (remoteWrite p s)
def execReadReqReceive (p : Fin 13) (s : State) : Host.Outcome State Fault Refusal := .next (readReq p s)
def execAtomicReceive (p : Fin 13) (s : State) : Host.Outcome State Fault Refusal := .next (atomicReq p s)
def execSendReceive (p : Fin 13) (s : State) : Host.Outcome State Fault Refusal := .next (sendReceive p s)
def execRemoteResponseReceive (p : Fin 13) (s : State) : Host.Outcome State Fault Refusal := .next (responseReceive p s)
def execRemoteRequestTimeout (req : Nat) (s : State) : Host.Outcome State Fault Refusal := .next (requestTimeout req s)

end Sys2Proof.Machine
end

