-- ==== Sys2Proof/Machine/FabDisc.lean ====
section
/-!
DEFINITION. Discovery (R453 to R458, R471), FABRIC_STATUS and FABRIC_REDISCOVER (R473, R474).
-/
namespace Sys2Proof.Machine
open Sys2Proof

/-! Messages (R454). -/

/-- The epoch a part is at: that of a discovery that runs, else the committed one. -/
def State.discEpoch (s : State) : Nat := (s.fab.disc.map Discovery.epoch).getD s.fab.epoch

/-- The part's serial number. -/
def State.serial (s : State) : Nat := s.fw.fuses.serial

/-- A message's header, with its body. -/
def discMsg (msg segment epoch origin root : Nat) (body : List Byte) : List Byte :=
  leb 1 msg ++ leb 1 segment ++ zeros 2 ++ leb 4 epoch ++ leb 8 origin ++ leb 8 root ++ zeros 8 ++ body

/-- A message sent to the neighbour at a port; its transport addresses play no part in it. -/
def State.sendDisc (s : State) (p : Nat) (b : List Byte) : State :=
  s.pushPort p 1 12 ⟨0xFFFF, s.fab.grat, 16, 16, 0, 0, 0, 0, 0, 0, b, 0⟩

/-- A message flooded on every UP link but those of a list. -/
def State.floodDisc (s : State) (but : List Nat) (b : List Byte) : State :=
  (s.upPorts.filter (fun p => !but.contains p)).foldl (fun a p => a.sendDisc p b) s

/-- Whether a message is one of those that R454 defines. -/
def discSound (f : TFrame) : Bool :=
  let b := f.payload
  let n := b.length
  n ≥ 32 && 1 ≤ fld b 0 1 && fld b 0 1 ≤ 5 &&
    (if fld b 0 1 = 3 then n = 2084 && fld b 1 1 < 8
     else if fld b 0 1 = 2 then decide (n ≥ 36) && n = 36 + 12 * fld b 34 1 else n = 32)

/-- The message at the head of a port's, where firmware runs and it is of a kind; messages of no kind of R454 go. -/
def State.nextMsg (s : State) (p msg : Nat) : Option (List Byte × State) :=
  if !s.fwReady then none
  else
    let l := s.fab.msgs.filter (fun m => discSound m.2)
    match l.find? (fun m => m.1 == p) with
    | none => none
    | some m =>
      if fld m.2.payload 0 1 = msg then
        some (m.2.payload, { s with fab := { s.fab with msgs := l.erase m, highest := max s.fab.highest (fld m.2.payload 4 4) } })
      else none

/-- The state with discovery changed, where it runs. -/
def State.modDisc (s : State) (f : Discovery → Discovery) : State := { s with fab := { s.fab with disc := s.fab.disc.map f } }

/-! Steps 1 and 2 of R455. -/

/-- Discovery afresh at an epoch with a root and a parent. -/
def Discovery.start (epoch root : Nat) (parent : Option Nat) (now : Nat) : Discovery :=
  ⟨epoch, root, parent, now, false, [], [], [], 0xFFFF, [], false⟩

/-- Commands that wait for a commit end (R474). -/
def State.endRediscover (s : State) (parts : Nat) : State :=
  s.finishAll .rediscover stOk (leb 4 s.fab.epoch ++ leb 2 parts ++ zeros 2)

/-- The part floods START with an epoch above every one it has seen; a part with no UP link is ALONE. -/
def discTrigger (s : State) : State :=
  let s0 := { s with fab := { s.fab with changedAt := none } }
  if s0.upPorts.isEmpty then pumpOps (({ s0 with fab := { s0.fab with disc := none } }).endRediscover 1)
  else
    let e := (max s0.fab.highest s0.discEpoch + 1) % 2 ^ 32
    let s1 := { s0 with fab := { s0.fab with highest := e, disc := some (Discovery.start e s0.serial none s0.ctl.now) } }
    pumpOps (s1.floodDisc [] (discMsg 1 0 e s0.serial s0.serial []))

/-- DISCOVERY_SETTLE_TIMER: 10 ms after the last port entered or left UP. -/
def discSettle (s : State) : State :=
  match s.fab.changedAt with
  | none => s
  | some t => if s.fwReady ∧ t + 1000000 ≤ s.ctl.now then discTrigger s else s

/-- DISCOVERY_START_RECEIVE: a newer epoch, or a lower root of the same one, is adopted and flooded; a part whose own serial is lower is the root it
knows. -/
def discStart (p : Nat) (s : State) : State :=
  match s.nextMsg p 1 with
  | none => s
  | some (b, s1) =>
    let e := fld b 4 4
    let root := fld b 0x10 8
    let known := (s1.fab.disc.map Discovery.root).getD s1.fab.rootSerial
    if e > s1.discEpoch ∨ (e = s1.discEpoch ∧ root < known) then
      let own := decide (s1.serial < root)
      let r := if own then s1.serial else root
      let d := Discovery.start e r (if own then none else some p) s1.ctl.now
      pumpOps (({ s1 with fab := { s1.fab with disc := some d } }).floodDisc (if own then [] else [p]) (discMsg 1 0 e s1.serial r []))
    else s1

/-! Addresses (R456). -/

/-- Addresses by serial as the parts report them: of two parts with one address the one with the lower serial keeps it. -/
def keptAddrs (rs : List PartReport) : List (Nat × Nat) :=
  (rs.filter (fun r => r.grat < 4096 && !rs.any (fun q => q.grat == r.grat && q.serial < r.serial))).map (fun r => (r.serial, r.grat))

/-- One more part's address: the one the root last assigned to its serial where it is free, else the lowest free one, else none. -/
def giveAddr (record : Tbl Nat) (a : List (Nat × Nat)) (serial : Nat) : List (Nat × Nat) :=
  if a.any (fun x => x.1 == serial) then a
  else
    let free := fun g => decide (g < 4096) && !a.any (fun x => x.2 == g)
    let g := match record.find serial with
      | some g => if free g then g else (firstIdx free 4096).getD 0xFFFF
      | none => (firstIdx free 4096).getD 0xFFFF
    a ++ [(serial, g)]

/-- The address of every part that reported, parts without one in the order of their serials. -/
def assignAddrs (record : Tbl Nat) (rs : List PartReport) : List (Nat × Nat) :=
  (sortBy (fun a b => a ≤ b) (rs.map PartReport.serial)).foldl (giveAddr record) (keptAddrs rs)

/-! Routes (R458). -/

/-- A link as one end reports it: part, port, peer part. A link of a part to itself is none. -/
def partLinks (rs : List PartReport) : List (Nat × Nat × Nat) :=
  rs.flatMap (fun r => (r.links.filter (fun l => l.2.2 != r.serial)).map (fun l => (r.serial, l.1, l.2.2)))

/-- Parts reached in rising distance: one more round of a search that takes the links that ok admits, from peer to part. -/
def searchRound (links : List (Nat × Nat × Nat)) (ok : Nat → Nat → Bool) (seeds : Nat → List Nat) (k : Nat) (t : Tbl Nat) : Tbl Nat :=
  let near := links.filter (fun l => t.find l.2.2 == some (k - 1) && ok l.1 l.2.2)
  let new := ((seeds k ++ (if k = 0 then [] else near.map Prod.fst)).filter (fun n => (t.find n).isNone)).eraseDups
  new.foldl (fun a n => a.put n k) t

/-- Distances up to n rounds. -/
def search (links : List (Nat × Nat × Nat)) (ok : Nat → Nat → Bool) (seeds : Nat → List Nat) (n : Nat) : Tbl Nat :=
  (List.range (n + 1)).foldl (fun t k => searchRound links ok seeds k t) []

/-- Hop distances from the root. -/
def partLevels (rs : List PartReport) (root : Nat) : Tbl Nat :=
  search (partLinks rs) (fun _ _ => true) (fun k => if k = 0 then [root] else []) rs.length

/-- Whether a link from a to b points up. -/
def linkUpward (levels : Tbl Nat) (a b : Nat) : Bool :=
  let la := levels.at 0 a
  let lb := levels.at 0 b
  lb < la || (lb == la && b < a)

/-- Distances to a part over down links alone, and over legal routes, up to 16 hops. -/
def downDist (links : List (Nat × Nat × Nat)) (levels : Tbl Nat) (dst : Nat) : Tbl Nat :=
  search links (fun a b => !linkUpward levels a b) (fun k => if k = 0 then [dst] else []) 16
def legalDist (links : List (Nat × Nat × Nat)) (levels : Tbl Nat) (dst : Nat) : Tbl Nat :=
  let d := downDist links levels dst
  search links (linkUpward levels) (fun k => (d.filter (fun e => e.2 == k)).map Prod.fst) 16

/-- The routing entry of a part for a destination. -/
def routeEntry (links : List (Nat × Nat × Nat)) (levels : Tbl Nat) (down legal : Tbl Nat) (own dst : Nat) : Nat :=
  if own = dst then mkEnt [] true 0
  else match legal.find own with
    | none => 0
    | some n =>
      let first := links.filter (fun l => l.1 == own &&
        (if linkUpward levels own l.2.2 then legal.find l.2.2 == some (n - 1) else down.find l.2.2 == some (n - 1)))
      mkEnt (sortBy (fun a b => a ≤ b) (first.map (fun l => l.2.1))) false n

/-- The routing table of a part. -/
def partTable (rs : List PartReport) (root : Nat) (addrs : List (Nat × Nat)) (own : Nat) : Tbl Nat :=
  let links := partLinks rs
  let levels := partLevels rs root
  addrs.foldl (fun t a =>
    if a.2 ≥ 4096 then t
    else t.upd 0 a.2 (routeEntry links levels (downDist links levels a.1) (legalDist links levels a.1) own a.1)) []

/-! Step 7 of R455, and R471. -/

/-- The addresses of other parts that a table reaches. -/
def reachedParts (t : Tbl Nat) : List Nat := (t.filter (fun e => entCount e.2 != 0)).map Prod.fst

/-- Operations with a request outstanding to a part out of reach end (R467). -/
def endLost (s : State) : State :=
  let lost := (s.fab.reqs.vals.filter (fun r => !s.isOwn r.frame.dst && !s.reachable r.frame.dst)).map RemoteReq.op
  lost.eraseDups.foldl (fun a k => remoteEnd k (errD stState 0x0B07) a) s

/-- Parts that a commit lost and won (R471). -/
def reportParts (lost joined : List Nat) (s : State) : State :=
  let s1 := lost.foldl (fun a g => (embPartLost g a).fabEvent 4 g 0xFF (s.fab.serials.at 0 g)) s
  joined.foldl (fun a g =>
    match a.fab.serials.find g with
    | some n => a.fabEvent 5 g 0xFF n
    | none => a.draw.2.fabEvent 5 g 0xFF (a.draw.1 % 2 ^ 64)) s1

/-- The part switches to its shadow table. What address the root has is known to the root alone; another part reports a free value. -/
def discCommit (s : State) : State :=
  match s.fab.disc with
  | none => s
  | some d =>
    let old := s.fab.committed
    let new := reachedParts d.shadow
    let was := s.fab.grat
    let root := if d.root = s.serial then d.newGrat else s.draw.1 % 4096
    let s0 := if d.root = s.serial then s else s.draw.2
    let s1 := { s0 with fab := { s0.fab with
      routes := d.shadow, epoch := d.epoch, rootSerial := d.root, rootGrat := root, grat := d.newGrat, disc := none, committed := new } }
    let s2 := s1.fabEvent 3 s1.grat 0xFF d.root
    let s3 := if d.newGrat ≠ was ∨ d.newGrat = 0xFFFF then s2.fabEvent 6 d.newGrat 0xFF s2.serial else s2
    let s4 := reportParts (old.filter (fun g => !new.contains g)) (new.filter (fun g => !old.contains g)) s3
    pumpOps ((endLost s4).endRediscover (new.length + 1))

/-! Steps 3 to 7 of R455. -/

/-- The part's own report. -/
def ownReport (s : State) : PartReport where
  serial := s.serial
  via := 12
  grat := s.fab.grat
  links := s.upPorts.map (fun p => (p, (s.fport p).peerPort, (s.fport p).peerSerial))

/-- A REPORT's body. -/
def PartReport.bytes (r : PartReport) : List Byte :=
  leb 2 r.grat ++ leb 1 r.links.length ++ zeros 1 ++ r.links.flatMap (fun l => leb 1 l.1 ++ leb 1 l.2.1 ++ zeros 2 ++ leb 8 l.2.2)

/-- Whether the root holds a REPORT of every part it has heard of. -/
def Discovery.heardAll (d : Discovery) (own : Nat) : Bool :=
  d.reports.any (fun r => r.serial == own) &&
    d.reports.all (fun r => r.links.all (fun l => d.reports.any (fun q => q.serial == l.2.2)))

/-- A TABLE message: a segment of a part's routing table. -/
def tableMsg (epoch root serial grat : Nat) (t : Tbl Nat) (k : Nat) : List Byte :=
  discMsg 3 k epoch serial root (leb 2 grat ++ zeros 2 ++ (List.range 512).flatMap (fun i => leb 4 (t.at 0 (512 * k + i))))

/-- Every TABLE_ACK is in: the root floods COMMIT and switches. -/
def rootFinish (s : State) : State :=
  match s.fab.disc with
  | none => s
  | some d =>
    if d.segments.length = 8 ∧ d.reports.all (fun r => r.serial == s.serial || d.acks.contains r.serial) then
      discCommit (s.floodDisc [] (discMsg 5 0 d.epoch s.serial d.root []))
    else s

/-- The root assigns addresses, computes routes and sends every part its table. -/
def rootCompute (s : State) : State :=
  match s.fab.disc with
  | none => s
  | some d =>
    if d.root = s.serial ∧ d.segments.isEmpty ∧ d.heardAll s.serial then
      let addrs := assignAddrs s.fab.record d.reports
      let addr := fun n => ((addrs.find? (fun a => a.1 == n)).map Prod.snd).getD 0xFFFF
      let table := partTable d.reports d.root addrs
      let s1 := { s with fab := { s.fab with
        record := addrs.foldl (fun t (a : Nat × Nat) => if a.2 < 4096 then t.put a.1 a.2 else t) s.fab.record
        serials := addrs.foldl (fun t (a : Nat × Nat) => if a.2 < 4096 then t.put a.2 a.1 else t) s.fab.serials } }
      let s2 := s1.modDisc (fun d => { d with shadow := table s.serial, segments := List.range 8, newGrat := addr s.serial })
      let s3 := (d.reports.filter (fun r => r.serial != s.serial)).foldl (fun a r =>
        (List.range 8).foldl (fun a k => a.sendDisc r.via (tableMsg d.epoch d.root r.serial (addr r.serial) (table r.serial) k)) a) s2
      rootFinish s3
    else s

/-- DISCOVERY_REPORT_TIMER: 1 ms without change: REPORT goes to the parent; the root keeps its own. -/
def discReportTimer (s : State) : State :=
  match s.fab.disc with
  | none => s
  | some d =>
    if s.fwReady ∧ !d.reported ∧ d.changed + 100000 ≤ s.ctl.now then
      let r := ownReport s
      match d.parent with
      | some p => (s.modDisc (fun d => { d with reported := true })).sendDisc p (discMsg 2 0 d.epoch s.serial d.root r.bytes)
      | none => rootCompute (s.modDisc (fun d => { d with reported := true, reports := d.reports ++ [r] }))
    else s

/-- A message of steps 3 to 7 that is not of the epoch in hand is discarded. -/
def State.ofEpoch (s : State) (b : List Byte) (go : Discovery → State → State) : State :=
  match s.fab.disc with
  | none => s
  | some d => if fld b 4 4 = d.epoch then go d s else s

/-- DISCOVERY_REPORT_RECEIVE: kept with its port, and forwarded to the parent. -/
def discReport (p : Nat) (s : State) : State :=
  match s.nextMsg p 2 with
  | none => s
  | some (b, s1) => s1.ofEpoch b (fun d s =>
    let r : PartReport := ⟨fld b 8 8, p, fld b 32 2,
      (List.range (fld b 34 1)).map (fun i => (fld b (36 + 12 * i) 1, fld b (37 + 12 * i) 1, fld b (40 + 12 * i) 8))⟩
    let s2 := s.modDisc (fun d => { d with reports := d.reports.filter (fun q => q.serial != r.serial) ++ [r] })
    match d.parent with
    | some q => s2.sendDisc q b
    | none => rootCompute s2)

/-- The entries of a TABLE message in a shadow table. -/
def installSegment (b : List Byte) (t : Tbl Nat) : Tbl Nat :=
  (List.range 512).foldl (fun t i => t.upd 0 (512 * fld b 1 1 + i) (fld b (36 + 4 * i) 4)) t

/-- DISCOVERY_TABLE_RECEIVE: a segment of the part's own is installed, and with the eighth it answers TABLE_ACK; another's goes on its way. -/
def discTable (p : Nat) (s : State) : State :=
  match s.nextMsg p 3 with
  | none => s
  | some (b, s1) => s1.ofEpoch b (fun d s =>
    let sn := fld b 8 8
    let g := fld b 32 2
    let s2 := if g < 4096 then { s with fab := { s.fab with serials := s.fab.serials.put g sn } } else s
    if sn = s.serial then
      let seg := insertBy (fun a b => a ≤ b) (fld b 1 1) (d.segments.filter (· != fld b 1 1))
      let s3 := s2.modDisc (fun d => { d with shadow := installSegment b d.shadow, segments := seg, newGrat := g })
      if seg.length = 8 ∧ !d.waiting then
        match d.parent with
        | some q => (s3.modDisc (fun d => { d with waiting := true })).sendDisc q (discMsg 4 0 d.epoch s.serial d.root [])
        | none => s3
      else s3
    else match d.reports.find? (fun r => r.serial == sn) with
      | some r => s2.sendDisc r.via b
      | none => s2)

/-- DISCOVERY_TABLE_ACK_RECEIVE: forwarded to the parent; the root counts it. -/
def discTableAck (p : Nat) (s : State) : State :=
  match s.nextMsg p 4 with
  | none => s
  | some (b, s1) => s1.ofEpoch b (fun d s =>
    match d.parent with
    | some q => s.sendDisc q b
    | none => rootFinish (s.modDisc (fun d => { d with acks := d.acks ++ [fld b 8 8] })))

/-- DISCOVERY_COMMIT_RECEIVE: flooded on, and the part switches. -/
def discCommitReceive (p : Nat) (s : State) : State :=
  match s.nextMsg p 5 with
  | none => s
  | some (b, s1) => s1.ofEpoch b (fun d s => discCommit (s.floodDisc [p] (discMsg 5 0 d.epoch s.serial d.root [])))

/-! FABRIC_STATUS and FABRIC_REDISCOVER (R473, R474). -/

/-- STATE of R473. -/
def State.fabState (s : State) : Nat :=
  if s.upPorts.isEmpty then 0 else if s.fab.disc.isSome || s.fab.epoch == 0 then 1 else 2

/-- The parts in reach, the part itself included. -/
def State.fabParts (s : State) : Nat := (reachedParts s.fab.routes).length + 1

/-- A port's state as FAB_LINKp.STATE has it (R476). -/
def PortState.code (x : PortState) : Nat :=
  match x with
  | .down => 0
  | .training => 1
  | .init => 2
  | .up => 3
  | .failed => 4

/-- A port's record of R473. -/
def FPort.record (x : FPort) : List Byte :=
  leb 8 x.peerSerial ++ leb 2 x.peerGrat ++ leb 1 x.peerPort ++ leb 1 x.state.code ++ leb 4 x.failures

def fabricStatus : Handler := fun f _ _ s =>
  if badLength f 0 then .err (err0 stArg) s
  else .ok (leb 2 s.grat ++ leb 2 s.fab.rootGrat ++ leb 4 s.fab.epoch ++ leb 8 s.fab.rootSerial ++ leb 2 s.fabParts ++ leb 1 s.fabState
    ++ zeros 13 ++ (List.range 12).flatMap (fun p => (s.fport p).record)) s

def fabricRediscover : Handler := fun f _ _ s =>
  if badLength f 8 then .err (err0 stArg) s
  else match reservedErr f.payload [(0, 8)] with
    | some e => .err e s
    | none =>
      if s.upPorts.isEmpty then .ok (leb 4 s.fab.epoch ++ leb 2 1 ++ zeros 2) s
      else .wait .rediscover (if s.fab.disc.isSome then s else discTrigger s)

/-! The rows. -/

def execDiscoverySettleTimer (s : State) : Host.Outcome State Fault Refusal := .next (discSettle s)
def execDiscoveryStartReceive (p : Fin 12) (s : State) : Host.Outcome State Fault Refusal := .next (discStart p s)
def execDiscoveryReportTimer (s : State) : Host.Outcome State Fault Refusal := .next (discReportTimer s)
def execDiscoveryReportReceive (p : Fin 12) (s : State) : Host.Outcome State Fault Refusal := .next (discReport p s)
def execDiscoveryTableReceive (p : Fin 12) (s : State) : Host.Outcome State Fault Refusal := .next (discTable p s)
def execDiscoveryTableAckReceive (p : Fin 12) (s : State) : Host.Outcome State Fault Refusal := .next (discTableAck p s)
def execDiscoveryCommitReceive (p : Fin 12) (s : State) : Host.Outcome State Fault Refusal := .next (discCommitReceive p s)
def execFabricStatus (f : Frame) (s : State) : Host.Outcome State Fault Refusal := .next (rcpRun 0x0600 fabricStatus f s)
def execFabricRediscover (f : Frame) (s : State) : Host.Outcome State Fault Refusal := .next (rcpRun 0x0601 fabricRediscover f s)

end Sys2Proof.Machine
end

