-- ==== Sys2Proof/Machine/Der.lean ====
section
/-!
DEFINITION. The DER-encoded X.509 v3 certificates of the certificate store (R490, R492). The form of DER and of a certificate stands in the published
standards that R490 names, not in spec/: PRESUMED, log entry 90.
-/
namespace Sys2Proof.Machine
open Sys2Proof

/-- A DER element: its tag, its contents, all its bytes. -/
structure DerItem where
  tag : Nat
  body : List Byte
  raw : List Byte
  deriving DecidableEq, Repr

/-- The size of a DER header and of its contents, the length in its shortest form. -/
def derSize (b : List Byte) : Option (Nat × Nat) :=
  let l := fld b 1 1
  if b.length < 2 ∨ fld b 0 1 % 32 = 31 then none
  else if l < 0x80 then some (2, l)
  else if l = 0x81 ∧ 0x80 ≤ fld b 2 1 then some (3, fld b 2 1)
  else if l = 0x82 ∧ 0x100 ≤ be (sub b 2 2) then some (4, be (sub b 2 2))
  else none

/-- The first element of some bytes, and the bytes after it. -/
def derFirst (b : List Byte) : Option (DerItem × List Byte) :=
  match derSize b with
  | none => none
  | some (h, n) => if b.length < h + n then none else some (⟨fld b 0 1, sub b h n, b.take (h + n)⟩, b.drop (h + n))

/-- All the elements of some bytes, at most n; none where they do not fill them. -/
def derAll : Nat → List Byte → Option (List DerItem)
  | 0, b => if b.isEmpty then some [] else none
  | n + 1, b =>
    if b.isEmpty then some []
    else match derFirst b with
      | none => none
      | some (i, rest) => (derAll n rest).map (i :: ·)

/-- The elements inside an element. -/
def DerItem.parts (i : DerItem) : Option (List DerItem) := derAll 32 i.body

/-- The object identifiers of ecdsa-with-SHA384, of an elliptic-curve key and of its curve P-384, as AlgorithmIdentifier holds them. -/
def oidEcdsaSha384 : List Byte := [0x06, 0x08, 0x2A, 0x86, 0x48, 0xCE, 0x3D, 0x04, 0x03, 0x03]
def oidP384Key : List Byte := [0x06, 0x07, 0x2A, 0x86, 0x48, 0xCE, 0x3D, 0x02, 0x01, 0x06, 0x05, 0x2B, 0x81, 0x04, 0x00, 0x22]

/-- A certificate as R492 uses it: its key, the bytes that are signed, the signature as R481 has it. A key of another kind is none, and so is a signature of
another algorithm, so that no check passes with it. -/
structure Cert where
  key : List Byte
  signed : List Byte
  sig : List Byte
  deriving DecidableEq, Repr

/-- The contents of a BIT STRING of whole bytes. -/
def bitString (i : DerItem) : Option (List Byte) :=
  match i.body with
  | 0 :: t => if i.tag = 3 then some t else none
  | _ => none

/-- A positive INTEGER in 48 bytes, where it fits. -/
def derInt48 (i : DerItem) : Option (List Byte) :=
  let v := be i.body
  if i.tag = 2 ∧ fld i.body 0 1 < 0x80 ∧ i.body.length ≤ 49 ∧ v < 2 ^ 384 then some (beb 48 v) else none

/-- r and s of an ECDSA signature. -/
def derSig (b : List Byte) : List Byte :=
  match derFirst b with
  | some (i, []) => match i.tag, i.parts with
    | 0x30, some [r, s] => match derInt48 r, derInt48 s with
      | some x, some y => x ++ y
      | _, _ => []
    | _, _ => []
  | _ => []

/-- The key of a SubjectPublicKeyInfo. -/
def derKey (i : DerItem) : Option (List Byte) :=
  match i.tag, i.parts with
  | 0x30, some [alg, k] => if alg.tag = 0x30 then (bitString k).map (fun b => if alg.body == oidP384Key then b else []) else none
  | _, _ => none

/-- The elements of a version 3 tbsCertificate: its algorithm and its key. -/
def tbsFields (i : DerItem) : Option (DerItem × List Byte) :=
  match i.tag, i.parts with
  | 0x30, some (ver :: serial :: alg :: issuer :: validity :: subject :: spki :: more) =>
    if ver.tag = 0xA0 ∧ ver.body = [2, 1, 2] ∧ serial.tag = 2 ∧ [alg, issuer, validity, subject].all (fun x => x.tag == 0x30)
        ∧ more.all (fun x => x.tag == 0x81 || x.tag == 0x82 || x.tag == 0xA3) then (derKey spki).map (fun k => (alg, k)) else none
  | _, _ => none

/-- A certificate of at most 2,048 bytes (R490). -/
def certOf (i : DerItem) : Option Cert :=
  match i.tag, i.parts with
  | 0x30, some [tbs, alg, sig] => match tbsFields tbs, bitString sig with
    | some (a, key), some b =>
      if i.raw.length ≤ 2048 ∧ a = alg then some ⟨key, tbs.raw, if alg.body == oidEcdsaSha384 then derSig b else []⟩ else none
    | _, _ => none
  | _, _ => none

/-- The certificates of a chain, leaf first; none where one does not parse, or where there is none. -/
def parseChain (b : List Byte) : Option (List Cert) :=
  match derAll 16 b with
  | none => none
  | some [] => none
  | some l => l.mapM certOf

end Sys2Proof.Machine
end

