-- ==== Sys2Proof/Machine/SecStore.lean ====
section
/-!
DEFINITION. The booted flash, the security configuration record, the certificate store, the identity key and the measurement registers
(R483, R489 to R497).
-/
namespace Sys2Proof.Machine
open Sys2Proof

/-- Whether the booted flash is the secondary one; after a network boot it is the primary (R561, R565). -/
def State.bootsSecondary (s : State) : Bool := s.ctl.straps.toNat % 4 == 1

/-- The booted flash. -/
def State.flash (s : State) : Flash := if s.bootsSecondary then s.fw.secondary else s.fw.primary

/-- The state with the booted flash changed. -/
def State.modFlash (s : State) (f : Flash → Flash) : State :=
  if s.bootsSecondary then { s with fw := { s.fw with secondary := f s.fw.secondary } }
  else { s with fw := { s.fw with primary := f s.fw.primary } }

/-- The current copy of the security configuration record: the one with the higher sequence number (R495). -/
def Flash.sec (f : Flash) : Option SecCopy := minBy (fun c => 2 ^ 64 - c.seq) f.secs

/-- The admitted host keys and the operator image signing keys, as digests. -/
def State.hostList (s : State) : List (List Byte) := (s.flash.sec.map SecCopy.hosts).getD []
def State.signerList (s : State) : List (List Byte) := (s.flash.sec.map SecCopy.signers).getD []

/-- A new record written to the other copy with a higher sequence number. -/
def State.writeSec (s : State) (hosts signers : List (List Byte)) : State :=
  s.modFlash (fun f => match f.sec with
    | none => { f with secs := [⟨1, hosts, signers⟩] }
    | some c => { f with secs := [c, ⟨c.seq + 1, hosts, signers⟩] })

/-- The bytes of a security configuration record as CONFIG carries it (R495). -/
def secBytes (hosts signers : List (List Byte)) : List Byte :=
  leb 1 hosts.length ++ leb 1 signers.length ++ zeros 6 ++ hosts.flatten ++ signers.flatten

/-- The identity private key and public key (R489). -/
def State.identity (s : State) : Nat := identityKey s.fw.fuses.uds
def State.identityPub (s : State) : List Byte := ptEncode (ptMul s.identity (some p384G))

/-- A signature of the signing engine over bytes (R494, R499); its nonce is a free value. -/
def State.signIdentity (s : State) (msg : List Byte) : List Byte × State :=
  (ecdsaSign s.identity (scalarOf (s.draw).1) (sha384 msg), (s.draw).2)

/-- A measurement register extended with a digest (R497). -/
def State.extend (s : State) (k : Nat) (d : List Byte) : State :=
  { s with fw := { s.fw with
    mr := modNth s.fw.mr k (fun m => sha384 (m ++ d))
    extends_ := modNth s.fw.extends_ k (fun n => (n + 1) % 2 ^ 32) } }

/-- Whether a chain passes the checks of R492: the leaf key is the identity key, each certificate is signed by the next, the last by
itself with a key that hashes to CA_HASH; none where it does not parse. -/
def State.chainOk (s : State) (chain : List Byte) : Option Bool :=
  match parseChain chain with
  | none => none
  | some cs =>
    let keys := cs.map Cert.key
    let signers := keys.drop 1 ++ lastN 1 keys
    some ((match keys with
        | [] => false
        | k :: _ => k == s.identityPub)
      && cs.length ≤ 3
      && (cs.zip signers).all (fun c => ecdsaVerify c.2 (sha384 c.1.signed) c.1.sig)
      && ((lastN 1 keys).all (fun k => sha384 k == s.fw.fuses.caHash)))

/-- The current copy of the certificate store: the one with the higher CHAIN_SEQ whose chain passes (R490). -/
def State.cert (s : State) : Option CertCopy :=
  minBy (fun c => 2 ^ 64 - c.seq) (s.flash.certs.filter (fun c => s.chainOk c.chain == some true))

end Sys2Proof.Machine
end

