-- ==== Sys2Proof/Machine/Images.lean ====
section
/-!
DEFINITION. Program images: IMAGE_LOAD and IMAGE_UNLOAD (R134 to R138, R496, R497).
-/
namespace Sys2Proof.Machine
open Sys2Proof

/-! The image (R134, R496). -/

/-- The header's fields. -/
def hdCode (h : List Byte) : Nat := fld h 0x18 4
def hdCodeLen (h : List Byte) : Nat := fld h 0x1C 4
def hdData (h : List Byte) : Nat := fld h 0x20 4
def hdDataLen (h : List Byte) : Nat := fld h 0x24 4
def hdSig (h : List Byte) : Nat := fld h 0x30 4
def hdSigLen (h : List Byte) : Nat := fld h 0x34 4

/-- The regions of an image, the header first. -/
def imageRegions (h : List Byte) : List (Nat × Nat) := [(0, 64), (hdCode h, hdCodeLen h), (hdData h, hdDataLen h), (hdSig h, hdSigLen h)]

/-- Whether two regions of a list share a byte. -/
def anyMeet : List (Nat × Nat) → Bool
  | [] => false
  | a :: t => t.any (fun b => a.2 != 0 && b.2 != 0 && a.1 < b.1 + b.2 && b.1 < a.1 + a.2) || anyMeet t

/-- The signature block is malformed; its key; its signature is valid. -/
def sigBad (img : List Byte) : Bool :=
  let so := hdSig img
  let sg := sub img so 224
  fld sg 0 4 != 0x4247_4953 || fld sg 5 1 != 0xFF || fld sg 8 8 != so || !fldZero sg 6 2 || !fldZero sg 0x71 3 || !fldZero sg 0xD4 12 ||
    (ptDecode (sub sg 0x10 97)).isNone
def sigKey (img : List Byte) : List Byte := sub img (hdSig img + 0x10) 97
def sigValid (img : List Byte) : Bool :=
  ecdsaVerify (sigKey img) (sha384 (img.take (hdSig img))) (sub img (hdSig img + 0x74) 96)

/-! IMAGE_LOAD (R135, R136). -/

/-- A flow slot of a request. -/
def ilSlot (p : List Byte) (k : Nat) : Nat := fld p (0x68 + 4 * k) 4
/-- The Pods and local threads of a request, as global thread indices. -/
def ilThreads (p : List Byte) : List Nat :=
  ((List.range 512).filter (fun n => bit (fld p 0x28 64) n)).flatMap (fun n => ((List.range 16).filter (bit (fld p 0x24 2))).map (16 * n + ·))
def ilReplace (p : List Byte) : Bool := bit (fld p 0x26 2) 0

/-- The loaded image of an identity in a context, the one loaded last. -/
def loadedImage (s : State) (ctx id : Nat) : Option (Nat × Image) :=
  minBy (fun e => 2 ^ 64 - e.2.order) (s.pods.images.filter (fun e => e.2.ctx == ctx && e.2.id == id && e.2.stop.isNone))

/-- A refused read of a range; one that leaves the address space is refused at once. -/
def readRefused (s : State) (ctx va len : Nat) : Option Nat := if va + len > 2 ^ 48 then some stXlate else rangeRefused s ctx va len .r

/-- The failures of IMAGE_LOAD before the image is read, in table order. -/
def loadFailsA (s : State) (ctx : Nat) (p : List Byte) : List (Bool × Err) :=
  let ring := fld p 0x18 8
  let n := fld p 0x20 4
  let h := if fld p 8 8 < 64 then none else s.peek ctx (fld p 0 8) 64
  [ (p.length != 360, err0 stArg),
    fieldErr stArg 0 ([(if ring = 0 then n != 0 else !isPow2 n || n < 16 || n > 65536, 0x20), (ilReplace p && fld p 0x24 2 != 0, 0x24), (decide (fld p 0x26 2 > 1), 0x26),
        (ilReplace p && !fldZero p 0x28 64, 0x28)] ++
      (List.range 64).map (fun k => (ilSlot p k != 0xFFFF_FFFF && decide (fidKind (ilSlot p k) > 1), 0x68 + 4 * k))),
    ((match h with
      | none => false
      | some b => decide (fld b 6 2 > 1) || !fldZero b 0x38 8), err0 stArg),
    (ring % 64 != 0, errAt stAlign 0x18),
    (match readRefused s ctx (fld p 0 8) (fld p 8 8) with
      | none => (false, err0 stXlate)
      | some e => (true, ⟨e, 3, 0, 0⟩)) ]

/-- The failures once the image is read. -/
def loadFailsB (s : State) (ctx : Nat) (p img : List Byte) : List (Bool × Err) :=
  let len := fld p 8 8
  let entry := fld img 0x14 4
  let signed := ((s.mem.contexts.find ctx).map Ctx.signedImages).getD false
  let sg := hdSigLen img == 224
  let priv := bit (fld img 6 2) 0
  let slots := (List.range 64).map (ilSlot p)
  let graph := fun (f : Nat) => fidKind f == 1
  let pages := (alignUp (hdCodeLen img) 4096 + alignUp (hdDataLen img) 4096)
  [ (len < 64 || hdCodeLen img < 4 || hdCodeLen img > 2 ^ 24 || hdCodeLen img % 4 != 0 || hdDataLen img > 2 ^ 26 ||
      (imageRegions img).any (fun r => decide (r.1 + r.2 > len)) || fld img 0x10 4 == 0 || entry ≥ hdCodeLen img ||
      (hdSigLen img != 0 && !sg), err0 stRange),
    (entry % 4 != 0 || hdCode img % 64 != 0 || hdData img % 64 != 0, err0 stAlign),
    (fld img 0 4 != 0x4D49_4F50 || anyMeet (imageRegions img), err0 stCorrupt),
    (sg && sigBad img, errD stCorrupt 0x0C01),
    (fld img 4 2 != 1, err0 stUnsupported),
    (sg && fld img (hdSig img + 4) 1 != 1, errD stUnsupported 0x0C05),
    (!sg && signed, errD stAuth 0x0C08),
    (sg && !sigValid img, errD stAuth 0x0C03),
    (sg && !s.signerList.contains (sha384 (sigKey img)), errD stAuth 0x0C07),
    (priv && ctx != 0, err0 stPerm),
    fieldErr stPerm 0 (slots.zipIdx.map (fun f => (f.1 != 0xFFFF_FFFF && ((fidKind f.1 == 0 && flowForeign s ctx f.1) || (graph f.1 && !priv)), 0x68 + 4 * f.2))),
    fieldErr stState 0 (slots.zipIdx.map (fun f => ((bit (fld img 0x28 8) f.2 && f.1 == 0xFFFF_FFFF) || (f.1 != 0xFFFF_FFFF && (s.flow f.1).isNone), 0x68 + 4 * f.2))),
    ((ilThreads p).any (fun t => (s.thread t).st != .unbound), err0 stState),
    (ilReplace p && (match loadedImage s ctx (fld img 8 8) with
      | none => true
      | some (_, o) => fld img 0x10 4 ≤ o.version), err0 stState),
    (s.pods.images.length ≥ 1024 || !s.fits ctx pages || (s.allocPages 0xFF 4096 (pages / 4096) []).isNone, err0 stLimit) ]

/-- Bytes copied into memory that firmware owns, mapped into a context: the address the device chooses. -/
def mapCopy (ctx : Nat) (bs : List Byte) (x : Bool) (s : State) : Nat × State :=
  let len := alignUp bs.length 4096
  let exts := (s.allocPages 0xFF 4096 (len / 4096) []).getD []
  let r := (s.zeroAll exts).chooseVa ctx len
  let m : Mapping := ⟨r.1, len, .image, 0, !x, false, x, false, exts, false⟩
  let s1 := r.2.modCtx ctx (fun c => c.addMap m)
  (r.1, storePieces false (exts.map (fun e => (e.pa, e.len, false))) (padTo len bs) s1)

/-- Every thread in ASKING moves at once to the image that replaces its own (R137). -/
def replaceThreads (old new : Nat) (s : State) : State :=
  imageSettle old ((s.boundTo old).foldl (fun a t =>
    match (a.thread t).st with
    | .asking _ _ => moveThread t new a
    | _ => a) s)

/-- An image, and every image whose threads would have gone to it, gives its threads to a new one. -/
def redirectImage (old new : Nat) (s : State) : State :=
  { s with pods := { s.pods with images := s.pods.images.map (fun e =>
    (e.1, if e.1 = old ∨ e.2.stop = some (some old) then { e.2 with stop := some (some new) } else e.2)) } }

/-- The image loaded: copied, measured, and its threads bound. -/
def loadGo (ctx : Nat) (p img : List Byte) (s : State) : Reply :=
  let c := mapCopy ctx (sub img (hdCode img) (hdCodeLen img)) true s
  let d := if hdDataLen img = 0 then (0, c.2) else mapCopy ctx (sub img (hdData img) (hdDataLen img)) false c.2
  let old := if ilReplace p then loadedImage s ctx (fld img 8 8) else none
  let h := d.2.fresh (fun k => k == 0 || (s.pods.images.find k).isSome) (2 ^ 64) (s.pods.images.length + 1)
  let digest := sha384 img
  let im : Image := {
    ctx := ctx, id := fld img 8 8, version := fld img 0x10 4, privileged := bit (fld img 6 2) 0, sig := hdSigLen img == 224, digest := digest
    codeVa := c.1, codeLen := hdCodeLen img, dataVa := d.1, dataLen := hdDataLen img, entry := fld img 0x14 4, arg := fld p 0x10 8
    ring := fld p 0x18 8, ringEntries := fld p 0x20 4, faultSeq := 0, slots := (List.range 64).map (ilSlot p), stop := none
    order := ((s.pods.images.vals.map Image.order).foldl max 0) + 1 }
  let s1 := { h.2 with pods := { h.2.pods with images := h.2.pods.images.put h.1 im } }.extend 2 digest
  let s2 := (ilThreads p).foldl (fun a t => a.start t h.1) s1
  let s3 := match old with
    | none => s2
    | some (o, _) => replaceThreads o h.1 (redirectImage o h.1 s2)
  .ok (leb 8 h.1 ++ leb 8 c.1 ++ leb 8 d.1) s3

def imageLoad : Handler := fun f _ x s =>
  let p := f.payload
  match firstFail (loadFailsA s x.ctx p) with
  | some e => .err e (if e.detail == 3 then s.countRefused x.ctx e.status else s)
  | none => match Io.exec (memRead x.ctx (fld p 0 8) (fld p 8 8)) s with
    | (.error e, s1) => .err { e with detail := 3, arg := 0 } s1
    | (.ok img, s1) => match firstFail (loadFailsB s1 x.ctx p img) with
      | some e => .err e s1
      | none => loadGo x.ctx p img s1

/-! IMAGE_UNLOAD (R138). -/

/-- Every thread of an image that nothing holds back becomes UNBOUND: with DRAIN those that ask or are QUARANTINED, else all. -/
def unbindImage (h : Nat) (drain : Bool) (s : State) : State :=
  imageSettle h ((s.boundTo h).foldl (fun a t =>
    let now := !drain || (match (a.thread t).st with
      | .asking _ _ => true
      | .quarantined => true
      | _ => false)
    if now then unbindThread t a else a) s)

/-- An image no longer open to threads: they go at once, or at their next ASK. -/
def stopImage (h : Nat) (s : State) : State :=
  match s.pods.images.find h with
  | none => s
  | some i => { s with pods := { s.pods with images := s.pods.images.put h { i with stop := some none } } }

/-- The checks of imageUnload, in the order of its table. -/
def imageUnloadFails (f : Frame) (x : Session) (s : State) : List (Bool × Err) :=
  let p := f.payload
  let h := fld p 0 8
  let drain := bit (fld p 8 4) 0
  let im := s.pods.images.find h
  [
    (badLength f 16, err0 stArg),
    fieldErr stArg 0 ([(decide (fld p 8 4 > 1), 8)] ++ reservedBytes p [(0xC, 4)]),
    (im.isNone, errAt stState 0),
    ((match im with
      | none => false
      | some i => i.ctx != x.ctx), errAt stPerm 0),
    ((match im with
      | none => false
      | some i => i.stop == some none), errAt stState 0),
    (!drain && (s.boundTo h).any (fun t => (s.thread t).item.isSome), err0 stState)]

def imageUnload : Handler := fun f _ x s =>
  let p := f.payload
  let h := fld p 0 8
  let drain := bit (fld p 8 4) 0
  .check (imageUnloadFails f x s) s <|
  if drain then .waitThen (.imageDrain h) (stopImage h s) (unbindImage h true) else .ok [] (unbindImage h false (stopImage h s))

def execImageLoad (f : Frame) (s : State) : Host.Outcome State Fault Refusal := .next (rcpRun 0x0400 imageLoad f s)
def execImageUnload (f : Frame) (s : State) : Host.Outcome State Fault Refusal := .next (rcpRun 0x0401 imageUnload f s)

end Sys2Proof.Machine
end

