-- ==== Sys2Proof/Machine/Gds.lean ====
section
/-!
DEFINITION. The Ghervanor Dictionary Stream: codes, encoder and decoder of a block, frames (R397 to R403, R412).
-/
namespace Sys2Proof.Machine
open Sys2Proof

/-- The width of the code at position k (R398). -/
def gdsWidth (k : Nat) : Nat := max 9 (Nat.log2 (min (257 + k) 65535) + 1)

/-- Decoded bytes of a block but the last (R403). -/
def gdsBlock : Nat := 65536

/-- One thing a lane does in stream order (R409): the code it writes with its width, or the whole bytes it writes; whether it is STOP, which
pads to a byte; the input bytes read by then; the block it belongs to; whether the output up to it is verified (R410); whether it is CLEAR. -/
structure GItem where
  code : Option (Nat × Nat) := none
  out : List Byte := []
  stop : Bool := false
  read : Nat
  block : Nat
  seals : Bool := false
  clear : Bool := false

/-- How a lane's work ends: done, failed with a status and DETAIL at an input offset, or input that could not be read. -/
inductive GEnd where
  | done (read : Nat)
  | fails (status detail off read block : Nat)
  | more (read : Nat)

/-! Compression (R399). -/

/-- The encoder: entries by prefix code × 256 + byte, the next entry, the position and the pending prefix. -/
structure GEnc where
  dict : Tbl Nat := []
  next : Nat := 258
  k : Nat := 0
  p : Option Nat := none

/-- A code emitted at a position. -/
def gdsEmit (v k read block : Nat) : GItem := { code := some (v, gdsWidth k), read := read, block := block, clear := v == 256 }

/-- The bytes of a block coded by greedy longest match. n counts the input bytes read before them. -/
def gdsEncode (block : Nat) : List Byte → Nat → GEnc → List GItem × GEnc
  | [], _, e => ([], e)
  | c :: t, n, e =>
    match e.p with
    | none => gdsEncode block t (n + 1) { e with p := some c.toNat }
    | some p => match e.dict.find (p * 256 + c.toNat) with
      | some x => gdsEncode block t (n + 1) { e with p := some x }
      | none =>
        if e.next + 1 = 65536 then
          let r := gdsEncode block t (n + 1) { p := some c.toNat }
          (gdsEmit p e.k (n + 1) block :: gdsEmit 256 (e.k + 1) (n + 1) block :: r.1, r.2)
        else
          let r := gdsEncode block t (n + 1)
            { dict := e.dict.put (p * 256 + c.toNat) e.next, next := e.next + 1, k := e.k + 1, p := some c.toNat }
          (gdsEmit p e.k (n + 1) block :: r.1, r.2)

/-- The bytes of codes packed least-significant bit first (R401). -/
def gdsPack (l : List GItem) : List Byte :=
  let r := l.foldl (fun (a : Nat × Nat) i => match i.code with
    | none => a
    | some (v, w) => (a.1 + v * 2 ^ a.2, a.2 + w)) (0, 0)
  leb (ceilDiv r.2 8) r.1

/-- The end marker (R403). -/
def gdsMarker (blocks : Nat) : List Byte := leb 4 0xFF ++ leb 4 blocks

/-- The blocks of a frame from block b on, of len input bytes of which data could be read. -/
def gdsBlocks (data : List Byte) (len : Nat) : Nat → Nat → List GItem × GEnd
  | 0, b => ([{ out := gdsMarker b, read := len, block := b }], .done len)
  | n + 1, b =>
    let s := b * gdsBlock
    let raw := min gdsBlock (len - s)
    let bs := sub data s raw
    let head : GItem := { out := leb 4 1 ++ leb 4 raw, read := s, block := b }
    let (codes, e) := gdsEncode b bs s {}
    if bs.length < raw then (head :: codes, .more data.length)
    else
      let last := [gdsEmit (e.p.getD 0) e.k (s + raw) b, { gdsEmit 257 (e.k + 1) (s + raw) b with stop := true }]
      let stream := gdsPack (codes ++ last)
      let tail : GItem := { out := leb 4 stream.length ++ leb 4 (crc32c bs), read := s + raw, block := b + 1, seals := true }
      let r := gdsBlocks data len n (b + 1)
      (head :: codes ++ last ++ tail :: r.1, r.2)

/-- The frame of len input bytes (R402), of which data could be read. -/
def gdsCompress (data : List Byte) (len tag : Nat) : List GItem × GEnd :=
  let h := leb 4 0x3153_4447 ++ [1, 16, 0, 0] ++ leb 8 len ++ leb 8 tag ++ zeros 4
  let r := gdsBlocks data len (ceilDiv len gdsBlock) 0
  ({ out := h ++ leb 4 (crc32c h), read := 0, block := 0 } :: r.1, r.2)

/-! Decompression (R400, R412). -/

/-- The decoder of a block: entries' strings, the next entry, the position, the string before, the input's next bit, the bytes decoded. -/
structure GDec where
  dict : Tbl (List Byte) := []
  next : Nat := 258
  k : Nat := 0
  prev : Option (List Byte) := none
  bit : Nat
  out : List Byte := []

/-- The input of a decoder: what could be read of n bytes. -/
structure GIn where
  data : List Byte
  n : Nat

/-- What is wrong with a structure of the input that starts at off and reaches to stop, where it is not all there. -/
def GIn.lacks (i : GIn) (off stop block : Nat) : Option GEnd :=
  if stop ≤ i.data.length then none
  else if i.data.length < i.n then some (.more i.data.length)
  else some (.fails 0x0501 0x0918 off i.n block)

/-- The string that a code stands for, none where R400 calls the code corrupt. -/
def GDec.string (d : GDec) (v : Nat) : Option (List Byte) :=
  match d.prev with
  | none => if v ≤ 255 then some [BitVec.ofNat 8 v] else none
  | some p =>
    if v ≤ 255 then some [BitVec.ofNat 8 v]
    else if v < d.next then d.dict.find v
    else if v = d.next ∧ d.next < 65536 then some (p ++ p.take 1) else none

/-- The decoder past a code that stands for s. -/
def GDec.push (d : GDec) (w : Nat) (s : List Byte) : GDec :=
  match d.prev with
  | none => { d with k := d.k + 1, prev := some s, bit := d.bit + w, out := d.out ++ s }
  | some p =>
    let add := decide (d.next < 65536)
    { dict := if add then d.dict.put d.next (p ++ s.take 1) else d.dict
      next := if add then d.next + 1 else d.next
      k := d.k + 1
      prev := some s
      bit := d.bit + w
      out := d.out ++ s }

/-- The codes of a block of want bytes up to STOP: what is done, and the decoder past STOP or how the job ends. -/
def gdsDecodeCodes (i : GIn) (want block : Nat) : Nat → GDec → List GItem × Except GEnd GDec
  | 0, d => ([], .ok d)
  | n + 1, d =>
    let w := gdsWidth d.k
    let cb := d.bit / 8
    let stop := ceilDiv (d.bit + w) 8
    match i.lacks cb stop block with
    | some e => ([], .error e)
    | none =>
      let v := le (sub i.data cb (stop - cb)) / 2 ^ (d.bit % 8) % 2 ^ w
      let bad := fun detail => ([], .error (.fails 0x0501 detail cb stop block))
      if v = 256 then
        let r := gdsDecodeCodes i want block n { bit := d.bit + w, out := d.out }
        ({ read := stop, block := block, clear := true } :: r.1, r.2)
      else if v = 257 then
        if d.out.length = want then ([], .ok { d with bit := d.bit + w }) else bad 0x0916
      else match d.string v with
        | none => bad 0x0915
        | some s =>
          if d.out.length + s.length > want then bad 0x0916
          else
            let r := gdsDecodeCodes i want block n (d.push w s)
            ({ out := s, read := stop, block := block } :: r.1, r.2)

/-- One block at an input offset: what is done, and the offset past it or how the job ends. -/
def gdsDecodeBlock (i : GIn) (want block off : Nat) : List GItem × Except GEnd Nat :=
  let fails := fun (detail at_ read : Nat) => (Except.error (GEnd.fails 0x0501 detail at_ read block) : Except GEnd Nat)
  match i.lacks off (off + 8) block with
  | some e => ([], .error e)
  | none =>
    let base := off + 8
    if !(fld i.data off 4 == 1 && fld i.data (off + 4) 4 == want) then ([], fails 0x0914 off base)
    else
      let head : GItem := { read := base, block := block }
      match gdsDecodeCodes i want block (8 * i.n + 1) { bit := 8 * base } with
      | (l, .error e) => (head :: l, .error e)
      | (l, .ok d) =>
        let stop := ceilDiv d.bit 8
        if d.bit % 8 ≠ 0 ∧ fld i.data (d.bit / 8) 1 / 2 ^ (d.bit % 8) ≠ 0 then (head :: l, fails 0x0916 (d.bit / 8) stop)
        else match i.lacks stop (stop + 8) block with
          | some e => (head :: l, .error e)
          | none =>
            if fld i.data stop 4 ≠ stop - base then (head :: l, fails 0x0916 stop (stop + 8))
            else if fld i.data (stop + 4) 4 ≠ crc32c d.out then (head :: l, fails 0x0917 stop (stop + 8))
            else (head :: l ++ [{ read := stop + 8, block := block + 1, seals := true }], .ok (stop + 8))

/-- The blocks of a frame of raw bytes from block b on, and its end marker. -/
def gdsDecodeBlocks (i : GIn) (raw : Nat) : Nat → Nat → Nat → List GItem × Except GEnd Nat
  | 0, b, off =>
    match i.lacks off (off + 8) b with
    | some e => ([], .error e)
    | none =>
      if sub i.data off 8 == gdsMarker b then ([{ read := off + 8, block := b }], .ok (off + 8))
      else ([], .error (.fails 0x0501 0x0918 off (off + 8) b))
  | n + 1, b, off =>
    match gdsDecodeBlock i (min gdsBlock (raw - b * gdsBlock)) b off with
    | (l, .error e) => (l, .error e)
    | (l, .ok off') =>
      let r := gdsDecodeBlocks i raw n (b + 1) off'
      (l ++ r.1, r.2)

/-- The RAW_EXPECT that asks for nothing. -/
def gdsAny : Nat := 0xFFFF_FFFF_FFFF_FFFF

/-- Frames from an input offset on, total bytes expected so far: what is done and how the job ends (R412). -/
def gdsFrames (i : GIn) (expect : Nat) (concat : Bool) : Nat → Nat → Nat → List GItem × GEnd
  | 0, off, _ => ([], .done off)
  | n + 1, off, total =>
    match i.lacks off (off + 32) 0 with
    | some e => ([], e)
    | none =>
      let h := sub i.data off 32
      let raw := fld h 8 8
      let bad := fun (st detail : Nat) => (([], .fails st detail off (off + 32) 0) : List GItem × GEnd)
      if fld h 0 4 ≠ 0x3153_4447 ∨ fld h 0x1C 4 ≠ crc32c (h.take 28) then bad stCorrupt 0x0911
      else if fld h 4 1 ≠ 1 ∨ fld h 5 1 ≠ 16 then bad stUnsupported 0x0912
      else if fld h 6 2 ≠ 0 ∨ fld h 0x18 4 ≠ 0 ∨ raw > 2 ^ 40 ∨ (expect ≠ gdsAny ∧ total + raw > expect) then bad stCorrupt 0x0913
      else
        let head : GItem := { read := off + 32, block := 0 }
        match gdsDecodeBlocks i raw (ceilDiv raw gdsBlock) 0 (off + 32) with
        | (l, .error e) => (head :: l, e)
        | (l, .ok off') =>
          let b := ceilDiv raw gdsBlock
          if off' < i.n then
            if concat then
              let r := gdsFrames i expect concat n off' (total + raw)
              (head :: l ++ r.1, r.2)
            else (head :: l, .fails stCorrupt 0x0918 off' off' b)
          else if expect ≠ gdsAny ∧ total + raw ≠ expect then (head :: l, .fails stCorrupt 0x0918 gdsAny i.n b)
          else (head :: l, .done i.n)

/-- The decompression of n input bytes, of which data could be read. -/
def gdsDecompress (data : List Byte) (n expect : Nat) (concat : Bool) : List GItem × GEnd :=
  gdsFrames ⟨data, n⟩ expect concat (n / 40 + 1) 0 0

/-- The bytes that one GDS frame decodes to, none where it fails a check (R241). -/
def gdsFrame (data : List Byte) (len : Nat) : Option (List Byte) :=
  match gdsDecompress data data.length len false with
  | (l, .done _) => some (l.flatMap GItem.out)
  | _ => none

end Sys2Proof.Machine
end

