-- ==== Sys2Proof/Machine/Codec.lean ====
section
/-!
DEFINITION. The Dictionary Codec: jobs (R404 to R406), lanes, suspension and end (R407 to R413), abandonment (R411), counters (R415).
-/
namespace Sys2Proof.Machine
open Sys2Proof

/-! The job's parts. -/

def CodecJob.action (j : CodecJob) : Nat := fld j.desc 2 1
def CodecJob.ctxAddr (j : CodecJob) : Nat := fld j.desc 0x28 8
def CodecJob.flow (j : CodecJob) : Nat := fld j.desc 0x30 4

/-- Bytes of the context area (R410). -/
def codecArea : Nat := 294912

/-- A codec job as issued. -/
def CodecJob.first (h : JobHead) (d : List Byte) : CodecJob := ⟨h, d, [], 0, 0, 0, 0, 0, 0, 0, [], false, none⟩

/-- The counters of an engine. -/
def State.modCodecCtr (s : State) (e : Nat) (f : CodecCtr → CodecCtr) : State :=
  let z : CodecCtr := ⟨0, 0, 0, 0, 0, 0⟩
  { s with units := { s.units with codecCtr := s.units.codecCtr.upd z e (f (s.units.codecCtr.at z e)) } }

/-! Queues and lanes. -/

def State.codecQueue (s : State) (e : Nat) : List LaneWork := s.units.codecQ.at [] e
def State.codecWaiters (s : State) (e : Nat) : List LaneWork := s.units.codecWait.at [] e
def State.freeLanes (s : State) (e : Nat) : List Nat := s.units.laneOrder.at (List.range 8) e

def State.setCodecQ (s : State) (e : Nat) (l : List LaneWork) : State :=
  { s with units := { s.units with codecQ := s.units.codecQ.upd [] e l } }
def State.setCodecWait (s : State) (e : Nat) (l : List LaneWork) : State :=
  { s with units := { s.units with codecWait := s.units.codecWait.upd [] e l } }

/-- A lane given work, or freed, in which case it is the last of the free ones. -/
def State.setLane (s : State) (e l : Nat) (w : Option LaneWork) : State :=
  let others := (s.freeLanes e).filter (· != l)
  { s with units := { s.units with
    lanes := match w with
      | some x => s.units.lanes.put (8 * e + l) x
      | none => s.units.lanes.del (8 * e + l)
    laneOrder := s.units.laneOrder.upd (List.range 8) e (if w.isSome then others else others ++ [l]) } }

/-- Work at the tail of its engine's queue, or, where that is full or others wait for a place already, waiting for one, the thread of a JOB
blocked (R406). -/
def codecEnqueue (e : Nat) (w : LaneWork) (s : State) : State :=
  if (s.codecQueue e).length < 1024 ∧ (s.codecWaiters e).isEmpty then s.setCodecQ e (s.codecQueue e ++ [w])
  else
    let s1 := s.setCodecWait e (s.codecWaiters e ++ [w])
    match (w.job?.map (fun j => j.head.iss) : Option Issuer) with
    | some (.pod t _ _ _) => s1.block t (.codec e)
    | _ => s1

/-- CODEC_QUEUE_PLACE: a place frees and the oldest waiter takes it; the thread of a JOB runs on (R406). -/
def codecPlace (e : Nat) (s : State) : State :=
  match s.codecWaiters e with
  | [] => s
  | w :: rest =>
    if (s.codecQueue e).length ≥ 1024 ∨ !s.active (unitCodec e) then s
    else
      let s1 := (s.setCodecWait e rest).setCodecQ e (s.codecQueue e ++ [w])
      match (w.job?.map (fun j => j.head.iss) : Option Issuer) with
      | some (.pod t _ _ _) => s1.modThread t (fun th => match th.st with
          | .blocked (.codec _) => { th with st := .running }
          | _ => th)
      | _ => s1

/-- CODEC_LANE_START: the lane that has been free longest takes the oldest of the queue (R406, R411). -/
def codecLaneStart (e l : Nat) (s : State) : State :=
  match s.codecQueue e with
  | [] => s
  | w :: rest => if s.active (unitCodec e) ∧ (s.freeLanes e).head? = some l then (s.setCodecQ e rest).setLane e l (some w) else s

/-! Issue (R404, R405). -/

/-- The failures of R405 in table order. -/
def codecFails (s : State) (ctx addr : Nat) (d : List Byte) : List (Bool × Err) :=
  let dec := fld d 2 1 == 1
  let eng := fld d 3 1
  let inA := fld d 8 8; let inL := fld d 0x10 8
  let outA := fld d 0x18 8; let outL := fld d 0x20 8
  let cx := fld d 0x28 8
  let flow := fld d 0x30 4
  [ fieldErr stArg 0x0901 ([(decide (fld d 2 1 > 1), 2), (fld d 4 4 / 2 != 0 || (!dec && bit (fld d 4 4) 0), 4), (flowReserved flow, 0x30)]
      ++ reservedBytes d [(0x34, 4)] ++ [(dec && fld d 0x40 8 != 0, 0x40), (!dec && fld d 0x48 8 != gdsAny, 0x48)]
      ++ reservedBytes d [(0x50, 48)]),
    fieldErr stRange 0x0902 [(eng > 15 && eng != 0xFF, 3), (if dec then inL < 40 else inL > 2 ^ 40, 0x10), (outL == 0, 0x20)],
    fieldErr stAlign 0x0903 [(cx % 4096 != 0, 0x28), (addr % 64 != 0, 0xFFFF)],
    (rangesMeet (inA, inL) (outA, outL) || rangesMeet (inA, inL) (cx, codecArea) || rangesMeet (outA, outL) (cx, codecArea),
      errD stOverlap 0x0904),
    rangesRow s ctx [(inA, inL, .r), (outA, outL, .w), (cx, codecArea, .w)],
    fieldErr stPerm 0x0905 [(flowForeign s ctx flow, 0x30)],
    fieldErr stState 0x0905 [(!flowUsable s flow, 0x30)] ]

/-- The output range and context area of a job, whose bytes another writer leaves undefined (R407). -/
def CodecJob.watch (j : CodecJob) : Watch :=
  { owner := .op j.head.iss, ctx := j.head.ctx, gather := false, ranges := [(j.head.outAddr, j.head.outLen), (j.ctxAddr, codecArea)], words := [], feeds := [],
    fed := 0, spoiled := [], lost := [] }

/-- A codec job checked and queued; ENGINE 0xFF names the engine with the fewest queued jobs. -/
def codecIssue (iss : Issuer) (ctx addr : Nat) (s : State) : State :=
  s.withDesc iss ctx addr 128 1 (fun d s =>
    s.checkOp iss ctx 1 0x0901 (codecFails s ctx addr d) (fun s =>
      let j := CodecJob.first (JobHead.first iss ctx (fld d 0x18 8) (fld d 0x20 8)) d
      codecEnqueue (pickEngine 16 (fun e => (s.codecQueue e).length + (s.codecWaiters e).length) (fld d 3 1)) (.job j) (s.watchOp j.watch)))

/-- JOB whose JOB_KIND is reserved (R130). -/
def reservedJob (iss : Issuer) (ctx : Nat) (s : State) : State := s.failOp iss ctx 0 0 0 ⟨stArg, 1, 0, 0⟩

/-- The kinds that some row of JOB names. -/
def isJobKind (k : Nat) : Bool := k == 1 || k == 2 || k == 3 || k == 5 || k == 8

/-- What CODEC_JOB and a JOB of a reserved JOB_KIND do once issued. -/
def codecStart (iss : Issuer) (ctx a : Nat) (s : State) : State :=
  match s.peek ctx a 2 with
  | none => codecIssue iss ctx a s
  | some b => if isJobKind (le b) then codecIssue iss ctx a s else reservedJob iss ctx s

/-- CODEC_JOB, and a JOB of a reserved JOB_KIND. -/
def codecJob (t : Nat) (w : Insn) (s : State) : State := issueJob (fun k => k == 1 || !isJobKind k) 1 codecStart t w s

/-! A lane at work (R407, R409). -/

/-- Where a lane's walk stops: the whole bytes written, the job then, the CLEARs met, and what stops it: none where the items are at an end. -/
structure CodecWalk where
  out : List Byte
  job : CodecJob
  clears : Nat
  stopped : Option GItem

/-- The items in order as long as each fits in the room left. -/
def codecWalk : List GItem → Nat → CodecJob → CodecWalk
  | [], _, j => ⟨[], j, 0, none⟩
  | i :: t, room, j =>
    let bits := match i.code with
      | none => (0, 0)
      | some (v, w) => (j.hold + v * 2 ^ j.holdBits, j.holdBits + w)
    let need := match i.code with
      | none => i.out.length
      | some _ => ceilDiv bits.2 8
    if need > room then ⟨[], { j with totalIn := max j.totalIn i.read }, 0, some i⟩
    else
      let n := match i.code with
        | none => i.out.length
        | some _ => if i.stop then need else bits.2 / 8
      let b := match i.code with
        | none => i.out
        | some _ => leb n bits.1
      let held := if i.code.isSome && !i.stop then (bits.1 / 2 ^ (8 * n), bits.2 - 8 * n) else (0, 0)
      let total := j.totalOut + n
      let j1 := { j with
        item := j.item + 1
        hold := held.1
        holdBits := held.2
        totalIn := max j.totalIn i.read
        totalOut := total
        verified := if i.seals then total else j.verified
        block := i.block }
      let r := codecWalk t (room - n) j1
      ⟨b ++ r.out, r.job, r.clears + b2n i.clear, r.stopped⟩

/-- The items of a job and how they end, from the input as far as it can be read. -/
def codecItems (j : CodecJob) (data : List Byte) : List GItem × GEnd :=
  if j.action = 0 then gdsCompress data (fld j.desc 0x10 8) (fld j.desc 0x40 8)
  else gdsDecompress data (fld j.desc 0x10 8) (fld j.desc 0x48 8) (bit (fld j.desc 4 4) 0)

/-- The state header (R410). -/
def codecHeader (j : CodecJob) (detail failOff : Nat) (lane : List Byte) (crc : Nat) : List Byte :=
  leb 4 0x5854_4347 ++ leb 1 j.action ++ zeros 3 ++ leb 8 j.totalIn ++ leb 8 j.totalOut ++ leb 8 j.verified ++ leb 4 j.block
    ++ leb 2 detail ++ zeros 2 ++ leb 8 failOff ++ lane ++ leb 4 crc

/-- The header written at an end, where the ATU permits. -/
def codecSaveEnd (j : CodecJob) (detail failOff : Nat) (s : State) : State :=
  ((s.drawBytes 204).2.ownWrite (.op j.head.iss) j.head.ctx j.ctxAddr (codecHeader j detail failOff (s.drawBytes 204).1 0)).2

/-- The whole context area written at a suspension, with its CTX_CRC: the error where it cannot be. -/
def codecSaveAll (j : CodecJob) (s : State) : Option Err × State :=
  let lane := (s.drawBytes 204).1
  let rest := ((s.drawBytes 204).2.drawBytes (codecArea - 256)).1
  let s1 := ((s.drawBytes 204).2.drawBytes (codecArea - 256)).2
  let h := codecHeader j 0 gdsAny lane 0
  match s1.ownWrite (.op j.head.iss) j.head.ctx j.ctxAddr (h.take 252 ++ leb 4 (crc32c (h.take 252 ++ rest)) ++ rest) with
  | (.ok _, s2) => (none, s2)
  | (.error e, s2) => (some { e with detail := 4 }, s2)

/-- What the resumed lane finds in the context area: its error where it cannot go on (R411). -/
def codecCheckCtx (j : CodecJob) (s : State) : Option Err × State :=
  match Io.exec (memRead j.head.ctx j.ctxAddr codecArea) s with
  | (.error e, s1) => (some e, s1)
  | (.ok b, s1) => (if crc32c (b.take 252 ++ b.drop 256) == fld b 252 4 then none else some (errD stCorrupt 0x0919), s1)

/-- The work item of an end or suspension (R408). -/
def codecBody (j : CodecJob) (handle consumed produced status detail : Nat) : List Byte :=
  leb 8 handle ++ leb 8 consumed ++ leb 8 produced ++ leb 2 status ++ leb 2 detail ++ leb 1 j.action ++ zeros 3
    ++ sub j.desc 0x38 8

/-- A status of R412. -/
def isR412 (detail : Nat) : Bool := 0x0911 ≤ detail && detail ≤ 0x0919

/-- A lane's job that has stopped with a status is done with it once its flow has taken its item (R408): the completion record, and the lane is
free. Until then the lane holds it (R406). -/
def codecClose (e l : Nat) (j : CodecJob) (end_ : Nat × Nat × Nat × Nat) (s : State) : State :=
  let (status, detail, arg, det) := end_
  let susp := status == stNoSpace && detail == 0
  let r := if j.flow = 0xFFFF_FFFF then (true, s)
    else s.emit j.flow (codecBody j (if susp then j.head.handle else 0) j.head.inC j.head.outP status detail) 3 (8 * e + l)
  if !r.1 then r.2.setLane e l (some (.job { j with ending := some end_ }))
  else
    let s1 := (r.2.setLane e l none).unwatch (.op j.head.iss)
    if susp then s1.parkJob j.head 1 j.ctxAddr (.codec e { j with ending := none, resumed := false })
    else if status = stNoSpace then s1.endJob j.head 1 (err0 stOk)
    else s1.endJob j.head 1 ⟨status, detail, arg, det⟩

/-- The output of a job from job offset VERIFIED_OUT on, in every segment: address and length (R413). -/
def CodecJob.unverified (j : CodecJob) : List (Nat × Nat) :=
  ((j.outs ++ [(j.head.outAddr, j.head.outP)]).foldl (fun (a : List (Nat × Nat) × Nat) p =>
    let skip := min p.2 (j.verified - a.2)
    (a.1 ++ [(p.1 + skip, p.2 - skip)], a.2 + p.2)) ([], 0)).1

/-- The unverified output of a decompression is undefined. -/
def CodecJob.discard (j : CodecJob) (s : State) : State :=
  if j.action = 1 then j.unverified.foldl (fun a p => a.scramble j.head.ctx p.1 p.2) s else s

/-- A job's end on its lane, with its state header and counts (R410, R413, R415, R416). -/
def codecEnd (e l : Nat) (j : CodecJob) (er : Err) (failOff : Nat) (s : State) : State :=
  let s1 := (codecSaveEnd j er.detail failOff s).modCodecCtr e (fun c => { c with
    jobs := sat32 c.jobs 1, corrupt := if isR412 er.detail then sat32 c.corrupt 1 else c.corrupt })
  codecClose e l j (er.status, er.detail, er.arg, er.detector)
    (if isR412 er.detail || er.status == stHw then j.discard s1 else s1)

/-- A job that has run out of output space (R409): its context saved and the job suspended. -/
def codecSuspend (e l : Nat) (j : CodecJob) (s : State) : State :=
  match s.takeHandle j.head (.codec e j) with
  | (none, s1) => codecEnd e l j (err0 stLimit) gdsAny s1
  | (some h, s1) =>
    let j1 := { j with head := h }
    match codecSaveAll j1 s1 with
    | (some er, s2) => codecEnd e l j1 er gdsAny s2
    | (none, s2) => codecClose e l j1 (stNoSpace, 0, 0xFFFF, 0) (s2.modCodecCtr e (fun c => { c with suspends := sat32 c.suspends 1 }))

/-- The input bytes a job has read once a walk over its items has stopped: up to the item that stopped it, or to where its input ends or fails. -/
def walkRead (w : CodecWalk) (end_ : GEnd) : Nat :=
  if w.stopped.isSome then w.job.totalIn
  else match end_ with
    | .done n => max w.job.totalIn n
    | .fails _ _ _ n _ => max w.job.totalIn n
    | .more n => max w.job.totalIn n

/-- The input that the segment of a job reads, from the first byte not yet read on and each byte once (R407, R411): as much as its walk over what can be
read goes through, and the access that fails where it runs into one. -/
def codecRead (j : CodecJob) (s : State) : List Byte × Option Err × State :=
  let src := fld j.desc 8 8 + j.got.length
  let left := fld j.desc 0x10 8 - j.got.length
  let all := j.got ++ (s.readSome j.head.ctx src left).1
  let its := codecItems j all
  let w := codecWalk (its.1.drop j.item) j.head.outLen j
  let need := match w.stopped, its.2 with
    | none, .more _ => left
    | _, _ => walkRead w its.2 - j.got.length
  let r := s.readSome j.head.ctx src need
  (j.got ++ r.1, r.2.1, r.2.2)

/-- A segment of a job on its lane, to its end or its suspension. -/
def codecRun (e l : Nat) (j : CodecJob) (s : State) : State :=
  let ck := if j.resumed then codecCheckCtx j s else (none, s)
  match ck with
  | (some er, s1) => codecEnd e l j er gdsAny s1
  | (none, s1) =>
    let rd := codecRead j s1
    let its := codecItems j rd.1
    let todo := its.1.drop j.item
    let w := codecWalk todo j.head.outLen j
    let wr := rd.2.2.writeSome (.op j.head.iss) j.head.ctx j.head.outAddr w.out
    let w1 := match wr.2.1 with
      | none => w
      | some _ => codecWalk todo wr.1 j
    let read := if wr.2.1.isSome then w1.job.totalIn else walkRead w1 its.2
    let j1 := { w1.job with got := rd.1, totalIn := read, head := { j.head with inC := read - j.totalIn, outP := w1.job.totalOut - j.totalOut } }
    let s2 := wr.2.2.modCodecCtr e (fun c => { c with
      inBytes := c.inBytes + j1.head.inC, outBytes := c.outBytes + j1.head.outP, clears := sat32 c.clears w1.clears })
    match wr.2.1, w1.stopped with
    | some er, st =>
      let unit := (st.map (fun i => if i.code.isSome then 3 else i.out.length)).getD 0
      codecEnd e l j1 { er with detail := 4 } gdsAny
        (s2.scramble j.head.ctx (j.head.outAddr + j1.head.outP) (min unit (j.head.outLen - j1.head.outP)))
    | none, some _ => codecSuspend e l j1 s2
    | none, none => match its.2 with
      | .done _ => codecEnd e l j1 (err0 stOk) gdsAny s2
      | .fails st detail off _ b => codecEnd e l { j1 with block := b } (errD st detail) off s2
      | .more _ => codecEnd e l j1 (rd.2.1.getD (err0 stHw)) gdsAny s2

/-- A GDS decode of Table Intake on its lane (R241): what it reads, writes and clears is counted, and Table Intake has its buffer, or none where it failed
or has another length than stated. -/
def gdsRun (e l : Nat) (g : GdsDecode) (s : State) : State :=
  let r := gdsDecompress g.frame g.frame.length g.want false
  let out := r.1.flatMap GItem.out
  let read := fun (n : Nat) => r.1.foldl (fun a i => max a i.read) n
  let res := match r.2 with
    | .done n => (read n, if out.length = g.want then some out else none)
    | .fails _ _ _ n _ => (read n, none)
    | .more n => (read n, none)
  let s1 := (s.setLane e l none).modCodecCtr e (fun c => { c with
    inBytes := c.inBytes + res.1, outBytes := c.outBytes + out.length, clears := sat32 c.clears (r.1.countP GItem.clear)
    jobs := sat32 c.jobs 1, corrupt := if res.2.isNone then sat32 c.corrupt 1 else c.corrupt })
  let t := s1.tableEng g.engine
  match t.run with
  | none => s1
  | some j => s1.setTable g.engine { t with run := some { j with decodes := j.decodes.set g.buffer (some res.2) } }

/-- CODEC_JOB_END: the work of a lane runs to its end or suspension, or a job that has ended is rid of its item. -/
def codecJobEnd (e l : Nat) (s : State) : State :=
  match s.units.lanes.find (8 * e + l) with
  | none => s
  | some w =>
    if !s.works (unitCodec e) then s
    else match w with
      | .gds g => gdsRun e l g s
      | .job j => match j.ending with
        | some x => codecClose e l j x s
        | none => codecRun e l j s

/-! Resume and abandon (R411). -/

/-- A suspended codec job resumed: the tail of its engine's queue. -/
def codecResume (e : Nat) (j : CodecJob) (iss : Issuer) (outAddr outLen : Nat) (s : State) : State :=
  let j1 := { j with
    head := j.head.again iss outAddr outLen, outs := j.outs ++ [(j.head.outAddr, j.head.outP)], resumed := true, ending := none }
  codecEnqueue e (.job j1) (s.watchOp j1.watch)

/-- A suspended codec job abandoned: its header and item are written, what it has not verified is undefined; where its flow is full it takes a lane as the
engine's queued jobs do, and holds it. Its handle is gone. -/
def codecAbandon (e : Nat) (j : CodecJob) (iss : Issuer) (s : State) : State :=
  let j1 := { j with head := { j.head.again iss 0 0 with handle := 0 }, ending := some (stNoSpace, 0x091A, 0xFFFF, 0) }
  let s1 := (codecSaveEnd j 0x091A gdsAny (j.discard s)).modCodecCtr e (fun c => { c with jobs := sat32 c.jobs 1 })
  let lane := (s1.freeLanes e).headD 0
  let r := if j.flow = 0xFFFF_FFFF then (true, s1) else s1.emit j.flow (codecBody j 0 0 0 stNoSpace 0x091A) 3 (8 * e + lane)
  if r.1 then r.2.endJob j1.head 1 (err0 stOk) else codecEnqueue e (.job j1) r.2

/-! The rows. -/

def execCodecJob (t : Fin 8192) (w : Insn) (s : State) : Host.Outcome State Fault Refusal := .next (codecJob t w s)
def execCodecQueuePlace (e : Fin 16) (s : State) : Host.Outcome State Fault Refusal := .next (codecPlace e s)
def execCodecLaneStart (e : Fin 16) (l : Fin 8) (s : State) : Host.Outcome State Fault Refusal := .next (codecLaneStart e l s)
def execCodecJobEnd (e : Fin 16) (l : Fin 8) (s : State) : Host.Outcome State Fault Refusal := .next (codecJobEnd e l s)

end Sys2Proof.Machine
end

