-- ==== Sys2Proof/Machine/Video.lean ====
section
/-!
DEFINITION. What Frame Intake makes of a bitstream: the profiles it accepts (R417), output frames in display order, cropped and paired (R418), frame stores
(R426, R427), coding units (R428). What the fields mean is each standard's; the levels of H.264 are those of its Table A-1 (PRESUMED, log entry 87).
-/
namespace Sys2Proof
open Sys2Proof.Machine

/-! Headers (R417, R427). -/

/-- Whether a header is of a profile and format that R417 accepts for the CODEC. -/
def VideoHeader.accepted (codec : Nat) (h : VideoHeader) : Bool :=
  let eight := h.depthY == 8 && h.depthC == 8
  match codec with
  | 0 => h.profiles.contains 0 && (h.depthY == 8 || h.depthY == 10) && h.depthC == h.depthY && decide (h.chroma ≤ 1)
  | 1 => h.chroma == 1 && ((h.profiles.contains 1 && eight) || (h.profiles.contains 2 && decide (8 ≤ h.depthY ∧ h.depthY ≤ 10 ∧ 8 ≤ h.depthC ∧ h.depthC ≤ 10)))
  | 2 => (h.profiles.contains 77 || h.profiles.contains 100 || h.constraint1) && eight && decide (h.chroma ≤ 1)
  | _ => h.profiles.contains 0 && h.depthY == 8 && (match h.factors with
    | [_] => true
    | [a, b, c] => decide (1 ≤ a.1 ∧ a.1 ≤ 2 ∧ 1 ≤ a.2 ∧ a.2 ≤ 2) && b == (1, 1) && c == (1, 1)
    | _ => false)

/-- The subsampling shifts of chroma. -/
def VideoHeader.shifts (codec : Nat) (h : VideoHeader) : Nat × Nat :=
  if codec = 3 then match h.factors with
    | [a, _, _] => (a.1 - 1, a.2 - 1)
    | _ => (0, 0)
  else (b2n (h.chroma == 1 || h.chroma == 2), b2n (h.chroma == 1))

/-- Twice the kc of R427; JPEG with chroma halved in height alone has as many chroma samples as 4:2:2 (DESIGN CHOICE, log entry 87). -/
def VideoHeader.kc2 (codec : Nat) (h : VideoHeader) : Nat :=
  let mono := if codec = 3 then h.factors.length != 3 else h.chroma == 0
  let s := h.shifts codec
  if mono then 2 else 2 + 4 / 2 ^ (s.1 + s.2)

/-- The macroblocks that a level of H.264 lets a decoder hold. -/
def levelMbs (level : Nat) (oneB : Bool) : Nat :=
  if level ≤ 10 ∨ (level = 11 ∧ oneB) then 396
  else match level with
    | 11 => 900
    | 12 | 13 | 20 => 2376
    | 21 => 4752
    | 22 | 30 => 8100
    | 31 => 18000
    | 32 => 20480
    | 40 | 41 => 32768
    | 42 => 34816
    | 50 => 110400
    | 51 | 52 => 184320
    | _ => 696320

/-- The frames that H.264 derives for max_dec_frame_buffering where it is absent. -/
def VideoHeader.derived (h : VideoHeader) : Nat :=
  if h.profiles.contains 100 && h.constraint3 then 0
  else min 16 (levelMbs h.level h.constraint3 / max 1 (ceilDiv h.width 16 * ceilDiv h.height 16))

/-- The frames that a sequence stores: N of R427. -/
def VideoHeader.stored (codec : Nat) (h : VideoHeader) : Nat :=
  match codec with
  | 0 => 9
  | 1 => h.buffering.getD 0 + 2
  | 2 => h.buffering.getD h.derived + 1
  | _ => 1

/-- The bytes of frame stores that a sequence needs (R427). -/
def VideoHeader.storeNeed (codec : Nat) (h : VideoHeader) : Nat :=
  let f := ceilDiv h.width 64 * 64 * (ceilDiv h.height 64 * 64) * h.kc2 codec / 2 * (if max h.depthY h.depthC ≤ 8 then 1 else 2)
  alignUp (h.stored codec * f) (2 ^ 21)

/-- The limit that a header's width and height break (R426). -/
def sizeLimit (w h : Nat) : Option Err :=
  if w > 8192 ∨ h > 8192 then some (errD stLimit 0x0A06) else if w * h > 35389440 then some (errD stLimit 0x0A07) else none

/-! Pictures (R418, R428). -/

/-- The coding units of a picture: superblocks, CTUs, macroblocks (two for an MBAFF pair) or MCUs. -/
def CodedPicture.units (codec : Nat) (h : VideoHeader) (p : CodedPicture) : Nat :=
  let tiles := fun (a b : Nat) => ceilDiv p.width (max 1 a) * ceilDiv p.height (max 1 b)
  match codec with
  | 0 | 1 => tiles h.unit h.unit
  | 2 => tiles 16 16
  | _ => match h.factors with
    | [a, _, _] => tiles (8 * a.1) (8 * a.2)
    | _ => tiles 8 8

/-- The height of the frame that a picture is, or is a field of. -/
def CodedPicture.frameHeight (p : CodedPicture) : Nat := if p.bottom.isSome then 2 * p.height else p.height

/-- Whether a picture ends an output frame: a frame, or the second field of a pair. -/
def CodedPicture.shows (p : CodedPicture) : Bool := p.output && p.layer == 0 && (p.bottom.isNone || p.second)

/-- Rows of two fields in turn, the top field's first. -/
def interleave (w : Nat) (top bottom : List Nat) : List Nat :=
  (List.range (top.length / max 1 w)).flatMap (fun y => (top.drop (y * w)).take w ++ (bottom.drop (y * w)).take w)

/-- A plane without the samples cropped at its edges. -/
def cropPlane (w h : Nat) (c : Nat × Nat × Nat × Nat) (pl : List Nat) : List Nat :=
  (List.range (h - c.2.2.1 - c.2.2.2)).flatMap (fun y => (pl.drop ((y + c.2.2.1) * w + c.1)).take (w - c.1 - c.2.1))

/-- The output frame of a picture, of two fields where first is the earlier one. -/
def CodedPicture.frame (codec : Nat) (h : VideoHeader) (first : Option CodedPicture) (p : CodedPicture) : VideoFrame :=
  let s := h.shifts codec
  let planeW := fun (c : Nat) => if c = 0 then p.upscaled else ceilDiv p.upscaled (2 ^ s.1)
  let planeH := fun (c : Nat) => if c = 0 then p.frameHeight else ceilDiv p.frameHeight (2 ^ s.2)
  let whole : List (List Nat) := match first with
    | none => p.planes
    | some f =>
      let (t, b) := if p.bottom == some true then (f, p) else (p, f)
      (t.planes.zip b.planes).zipIdx.map (fun (x : (List Nat × List Nat) × Nat) => interleave (planeW x.2) x.1.1 x.1.2)
  let crop := if codec = 1 ∨ codec = 2 then h.crop else (0, 0, 0, 0)
  let part := fun (c : Nat) => if c = 0 then crop
    else (crop.1 / 2 ^ s.1, crop.2.1 / 2 ^ s.1, crop.2.2.1 / 2 ^ s.2, crop.2.2.2 / 2 ^ s.2)
  { width := p.upscaled - crop.1 - crop.2.1, height := p.frameHeight - crop.2.2.1 - crop.2.2.2, depth := h.depthY, depthC := h.depthC
    subX := s.1, subY := s.2, planes := whole.zipIdx.map (fun (x : List Nat × Nat) => cropPlane (planeW x.2) (planeH x.2) (part x.2) x.1) }

/-! Display order (R418). -/

/-- Where a step of a stream stands in display order: its coded video sequence, its place in that, its place in the stream; none where it shows no frame. -/
def displayKey (codec : Nat) (l : List CodedStep) (i : Nat) : Option (Nat × Nat × Nat) :=
  let ordered := codec == 1 || codec == 2
  let cvs := if ordered then (l.take (i + 1)).countP (fun s => match s with
    | .picture p => p.first && p.layer == 0
    | _ => false) else 0
  match l[i]? with
  | some (.picture p) => if p.shows then some (cvs, if ordered then p.order else i, i) else none
  | some (.again _) => some (cvs, i, i)
  | _ => none

def keyBefore (a b : Nat × Nat × Nat) : Bool :=
  a.1 < b.1 || (a.1 == b.1 && (a.2.1 < b.2.1 || (a.2.1 == b.2.1 && a.2.2 < b.2.2)))

/-- The number of a step's frame in display order. -/
def displayIndex (codec : Nat) (l : List CodedStep) (i : Nat) : Option Nat :=
  (displayKey codec l i).map (fun k => (List.range l.length).countP (fun j => ((displayKey codec l j).map (fun x => keyBefore x k)).getD false))

end Sys2Proof
end

