-- ==== Sys2Proof/Machine/Frame.lean ====
section
/-!
DEFINITION. Frame Intake: sessions (R419 to R422), submission (R423 to R425), stores and budgets (R426 to R428), turns (R429), the end of a sample (R430 to R433).
-/
namespace Sys2Proof.Machine
open Sys2Proof

/-! Fields (R419, R421, R424). -/

def FSession.dst (x : FSession) : List Byte := x.template.take 256
def FSession.quota (x : FSession) : Nat := fld x.open_ 0x30 8
def FSession.colours (x : FSession) : Nat := if fld x.open_ 1 1 = 0 then 1 else 3
def FSession.deep (x : FSession) : Bool := fld x.open_ 2 1 == 1

/-- The template's map as the operation descriptor of R381 holds one. -/
def tmplOp (t : List Byte) : List Byte := zeros 32 ++ sub t 0x100 8 ++ sub t 0x108 16 ++ zeros 8 ++ sub t 0x118 32 ++ zeros 32

def sId (d : List Byte) : Nat := fld d 0 8
def sStep (d : List Byte) : Nat := fld d 0xA 2
def sStart (d : List Byte) : Nat := fld d 0xC 2
def sCount (d : List Byte) : Nat := fld d 0xE 2
def sIn (d : List Byte) : Nat := fld d 0x10 8
def sInLen (d : List Byte) : Nat := fld d 0x18 8
def sOut (d : List Byte) : Nat := fld d 0x20 8
def sRecord (d : List Byte) : Nat := fld d 0x30 8

/-- The budget of a sample: none for no limit (R428). -/
def sBudget (x : FSession) (d : List Byte) : Option Nat :=
  let b := if fld d 0x38 4 = 0 then fld x.open_ 0x38 4 else fld d 0x38 4
  if b = 0xFFFF_FFFF then none else some b

def State.sample (s : State) (id k : Nat) : Option (FSession × Sample) :=
  match s.fsession id with
  | none => none
  | some x => (x.samples.find k).map (fun y => (x, y))
def State.putSample (s : State) (id k : Nat) (y : Sample) : State := s.modFs id (fun x => { x with samples := x.samples.put k y })

/-- Every sample of the device. -/
def State.allSamples (s : State) : List Sample := s.frames.sessions.vals.flatMap (fun x => x.samples.vals)

/-! Opening and closing a session (R419, R420). -/

/-- The failures of a template (R421): those of R385 for its descriptor, and E_ARG for the rest. -/
def templateFails (t : List Byte) (deep : Bool) : List (Bool × Err) :=
  let dst := t.take 256
  let d := tmplOp t
  let n := tNdim dst
  let fed := fun (k : Nat) => (List.range (min n 8)).countP (fun i => pSrcDim d i == k)
  let last := n - 1
  let at_ := fun (r : Bool × Err) => (r.1, { r.2 with arg := 0x28 })
  [ (!fldZero t 0x138 8 || tBase dst != 0 || tElem dst != (if deep then 2 else 1), errAt stArg 0x28),
    at_ (fieldErr stArg 0x0803 (tensorArg dst ++ (tDims dst).map (fun k => (decide (tStride dst k < 0) || (tStride dst k == 0 && tExtent dst k > 1), 0)))),
    at_ (fieldErr stRange 0x0804 (tensorRange dst true)),
    at_ (fieldErr stAlign 0x0806 (tensorAlign dst)),
    at_ (fieldErr stUnsupported 0x0808 [(bits (fld dst 0 1) 3 0 != 1, 0)]),
    ((List.range 8).any (fun k => if k < n then pSrcDim d k != 0xFF && (pSrcDim d k > 3 || fed (pSrcDim d k) > 2) else pSrcDim d k != 0) ||
      (List.range 8).any (fun k => pMul d k != 0 && (k ≥ n || pSrcDim d k == 0xFF)) || pSrcDim d last != 3 || decide (pMul d last < 1) || fed 3 != 1,
      errAt stArg 0x28) ]

/-- The failures of OPEN in table order. -/
def frameOpenFails (s : State) (ctx : Nat) (p : List Byte) : List (Bool × Err) :=
  let n := fld p 0x10 4
  let streams := fld p 0x3C 2
  let tmpl := if fld p 0x28 8 % 64 = 0 then s.peek ctx (fld p 0x28 8) 320 else none
  let ranges := rangesAt s ctx [(8, fld p 8 8, 64 * n, .r), (0x18, fld p 0x18 8, 4, .r), (0x20, fld p 0x20 8, 4, .w), (0x28, fld p 0x28 8, 320, .r)]
  [ (p.length != 96, err0 stArg),
    fieldErr stArg 0 ([(fld p 0 1 != 0, 0), (fld p 1 1 > 1, 1), (fld p 2 1 > 1, 2), (fld p 3 1 != 0, 3), (fld p 4 4 != 0, 4), (flowReserved (fld p 0x14 4), 0x14)] ++
      reservedBytes p [(0x3E, 2), (0x48, 24)]) ] ++
  (match tmpl with
    | none => []
    | some t => templateFails t (fld p 2 1 == 1)) ++
  [ fieldErr stRange 0 [(!isPow2 n || n < 16 || n > 65536, 0x10), (streams < 1 || streams > 4096, 0x3C)],
    fieldErr stAlign 0 [(fld p 8 8 % 64 != 0, 8), (fld p 0x18 8 % 8 != 0, 0x18), (fld p 0x20 8 % 8 != 0, 0x20), (fld p 0x28 8 % 64 != 0, 0x28),
      (fld p 0x30 8 % 2 ^ 21 != 0, 0x30)],
    ranges,
    (flowForeign s ctx (fld p 0x14 4), errAt stPerm 0x14),
    (!flowUsable s (fld p 0x14 4), errAt stState 0x14),
    (decide (s.frames.sessions.length ≥ 256) || decide ((s.frames.sessions.vals.map FSession.streams).sum + streams > 4096), err0 stLimit) ]

def frameOpen : Handler := fun f _ x s =>
  let p := f.payload
  match firstFail (frameOpenFails s x.ctx p) with
  | some e => .err e (if e.status == stXlate || (e.status == stPerm && e.arg != 0x14) then s.countRefused x.ctx e.status else s)
  | none => match Io.exec (memRead x.ctx (fld p 0x28 8) 320) s with
    | (.error e, s1) => .err { e with detail := 0 } s1
    | (.ok t, s1) =>
      let r := s1.fresh (fun k => k == 0 || (s1.fsession k).isSome) (2 ^ 32) (s1.frames.sessions.length + 1)
      .ok (leb 4 r.1 ++ zeros 4) { r.2 with frames := { r.2.frames with sessions := r.2.frames.sessions.put r.1 ⟨x.ctx, p, t, 0, 0, [], 0, 0, false, none⟩ } }

/-- The failures of CLOSE in table order. -/
def frameCloseFails (f : Frame) (x : Session) (s : State) : List (Bool × Err) :=
  let p := f.payload
  let y := s.fsession (fld p 4 4)
  [ (p.length != 96, err0 stArg),
    fieldErr stArg 0 ([(fld p 0 1 != 1, 0), (fld p 3 1 > 1, 3)] ++ reservedBytes p [(0x3E, 2), (0x48, 24)]),
    (y.any (fun y => y.ctx != x.ctx), errAt stPerm 4),
    (y.isNone, errAt stState 4),
    (!bit (fld p 3 1) 0 && y.any (fun y => !y.samples.isEmpty), err0 stState) ]

def frameClose : Handler := fun f _ x s =>
  let p := f.payload
  let id := fld p 4 4
  .check (frameCloseFails f x s) s <|
  if bit (fld p 3 1) 0 then .waitThen (.frameClose id) (s.modFs id (fun y => { y with closing := true })) (fun s => s.settleFrames id)
  else .okThen [] { s with frames := { s.frames with sessions := s.frames.sessions.del id } } (fun s => s.finishAll (.frameClose id) stOk [])

/-- FRAME_SESSION_OPEN as its ACTION has it; a reserved ACTION fails. -/
def frameSession : Handler := fun f sid x s => if fld f.payload 0 1 = 1 then frameClose f sid x s else frameOpen f sid x s

/-! Taking descriptors (R423, R431, R437). -/

/-- The output footprint of a sample. -/
def sFootprint (x : FSession) (d : List Byte) : Nat × Nat := (sOut d, ((tFootprint x.dst 0).2 + 1).toNat)

/-- The failures of a sample descriptor in table order, before any input is read. -/
def sampleFails (x : FSession) (d : List Byte) : List (Bool × Err) :=
  let inp := (sIn d, sInLen d)
  let rec_ := (sRecord d, if sRecord d = 0 then 0 else 64)
  let out := sFootprint x d
  [ fieldErr stArg 0x0A01 ([(decide (fld d 8 1 > 3), 8)] ++ reservedBytes d [(9, 1), (0x3C, 4)]),
    fieldErr stRange 0x0A02 [(sStep d < 1 || sStep d > 4096, 0xA), (sStart d > 4095, 0xC), (sCount d > 4096, 0xE), (sInLen d < 1 || sInLen d > 2 ^ 32, 0x18)],
    fieldErr stAlign 0x0A03 [(sOut d % tBytes x.dst != 0 || (tBlocked x.dst && sOut d % tBlockBytes x.dst != 0), 0x20), (sRecord d % 64 != 0, 0x30)],
    (rangesMeet inp out || rangesMeet inp rec_ || rangesMeet out rec_, errD stOverlap 0x0A04) ]

/-- The engine in placement with the fewest samples in progress, the lowest-numbered on ties; none where none is in placement or each holds 128 (R429,
R510). -/
def State.frameEngine (s : State) : Option Nat :=
  let load := fun e => s.allSamples.countP (fun y => y.engine == e)
  minBy load ((List.range 32).filter (fun e => s.svc.fiPlaced.getLsbD e && decide (load e < 128)))

/-- A sample that ends with a result. -/
def Sample.stop (y : Sample) (e : Err) : Sample := { y with state := .ending, result := some e }

/-- Where a sample stands with the Assembler of its session: the assembler with its member started, its position, or why it ends. -/
def joinBatch (a : Assembler) (sid : Nat) : Assembler × Option Nat × Option Err :=
  if !a.strict then (a, none, none)
  else if sid < a.idBase then (a, none, some (errD stRange 0x0A0D))
  else
    let p := sid - a.idBase
    let m := p / a.size
    if m < a.index ∨ (a.batch (m - a.index)).flushed then (a, none, some (errD stRange 0x0A0D))
    else
      let b := a.batch (m - a.index)
      if b.started.contains (p % a.size) then (a, none, some (errD stState 0x0A0E))
      else (a.setBatch (m - a.index) { b with started := b.started ++ [p % a.size] }, some p, none)

/-- Whether a descriptor's batch is not yet open (R437). -/
def notOpen (x : FSession) (sid : Nat) : Bool :=
  match x.asm with
  | none => false
  | some a => a.strict && decide (a.idBase ≤ sid) && decide ((sid - a.idBase) / a.size > a.index + 15)

/-- A sample started: its engine, the checks of its descriptor, its place in a batch. -/
def startSample (id : Nat) (x : FSession) (d : List Byte) (s : State) : State :=
  let r := match x.asm with
    | none => (none, none, none)
    | some a => match joinBatch a (sId d) with
      | (a1, p, e) => (some a1, p, e)
  let y : Sample := {
    desc := d, engine := s.frameEngine.getD 0, proj := s.draw.1 % 16, state := .ready, begun := false, input := [], seen := 0, dirty := false,
    steps := [], next := 0, inFrame := 0, seq := none, field := none, store := 0, need := 0, order := 0,
    shown := 0, frames := [], complete := false, units := 0, slabs := 0, first := 0, outAddr := sOut d,
    limit := if fld d 0x28 8 = 0 then none else some (fld d 0x28 8), placed := false, issued := false, handle := 0, iss := none, result := none, position := r.2.1 }
  let y1 := match firstFail (sampleFails x d) with
    | some e => y.stop e
    | none => match r.2.2 with
      | some e => y.stop e
      | none => y
  s.draw.2.modFs id (fun x => { x with asm := r.1, samples := x.samples.put x.nextSample y1, nextSample := x.nextSample + 1 })

/-- Descriptors taken in ring order while the ring holds one and a stream is free, at most n. -/
def takeSamples (id : Nat) : Nat → State → State
  | 0, s => s
  | n + 1, s =>
    match s.fsession id with
    | none => s
    | some x =>
      if x.closing || decide (x.samples.length ≥ x.streams) || x.taken == x.prod || s.frameEngine.isNone then s
      else match Io.exec (memRead x.ctx (fld x.open_ 8 8 + x.taken % fld x.open_ 0x10 4 * 64) 64) s with
        | (.error _, s1) => s1
        | (.ok d, s1) =>
          if notOpen x (sId d) then s1
          else
            let s2 := startSample id x d s1
            let t := (x.taken + 1) % 2 ^ 32
            takeSamples id n ((s2.modFs id (fun x => { x with taken := t })).writeDropped x.ctx (fld x.open_ 0x20 8) (leb 4 t))

/-- FRAME_RING_POLL: the producer count is read where no descriptor is known to wait, and descriptors are taken. -/
def ringPoll (id : Nat) (s : State) : State :=
  match s.fsession id with
  | none => s
  | some x =>
    if !s.intakeActive || x.closing || decide (x.samples.length ≥ x.streams) then s
    else if x.taken ≠ x.prod then takeSamples id 4096 s
    else match Io.exec (memRead x.ctx (fld x.open_ 0x18 8) 4) s with
      | (.error _, s1) => s1
      | (.ok b, s1) => takeSamples id 4096 (s1.modFs id (fun x => { x with prod := le b }))

/-! Stores (R426, R427). -/

/-- Whether a need can never be met; whether it is free now. -/
def storeNever (s : State) (x : FSession) (n : Nat) : Bool :=
  (x.quota != 0 && n > x.quota) || (match s.mem.contexts.find x.ctx with
    | none => true
    | some c => c.quota != 0 && n > c.quota)
def storeFree (s : State) (x : FSession) (n : Nat) : Bool := (x.quota == 0 || x.stores + n ≤ x.quota) && s.fits x.ctx n

/-- Stores taken for a sample, and returned. -/
def State.takeStores (s : State) (id ctx n : Nat) : State := (s.modFs id (fun x => { x with stores := x.stores + n })).charge ctx n
def State.freeStores (s : State) (id ctx n : Nat) : State := (s.modFs id (fun x => { x with stores := x.stores - n })).uncharge ctx n

/-- FRAME_STORE_GRANT: the sample that has waited longest of all receives its stores once they are free. -/
def storeGrant (id k : Nat) (s : State) : State :=
  match s.sample id k with
  | none => s
  | some (x, y) =>
    let first := s.allSamples.all (fun z => z.state != .stores || y.order ≤ z.order)
    if y.state == .stores && first && storeFree s x y.need && s.works (unitFrame y.engine) then
      (s.takeStores id x.ctx y.need).putSample id k { y with state := .ready, store := y.need, need := 0 }
    else s

/-! Counters (R442). -/

def FiCtr.zero : FiCtr := ⟨0, 0, 0, 0, 0, 0, 0⟩
def State.modFi (s : State) (e : Nat) (f : FiCtr → FiCtr) : State :=
  { s with frames := { s.frames with ctr := s.frames.ctr.upd FiCtr.zero e (f (s.frames.ctr.at FiCtr.zero e)) } }

/-! Decoding (R425, R426, R428, R429). -/

def sCodec (d : List Byte) : Nat := fld d 8 1

/-- A sample's bitstream as the standard of its CODEC has it, as far as its input can be read; nothing is read yet. -/
def beginStream (x : FSession) (y : Sample) (s : State) : Sample :=
  let b := (s.readSome x.ctx (sIn y.desc) (sInLen y.desc)).1
  { y with begun := true, input := b, steps := Config.decodeVideo (sCodec y.desc) b }

/-- The input read up to an offset: only what the decoder comes to is read (R425), and the access that fails ends the sample. Input that has changed since
leaves the output undefined (R431). -/
def readTo (x : FSession) (n : Nat) (y : Sample) (s : State) : Sample × State :=
  let n := min n (sInLen y.desc)
  let r := s.readSome x.ctx (sIn y.desc + y.seen) (n - y.seen)
  let y1 := { y with seen := max y.seen n, dirty := y.dirty || r.1 != sub y.input y.seen r.1.length }
  match r.2.1 with
  | none => (y1, r.2.2)
  | some e => (y1.stop { e with detail := if e.status = stHw then 0x0A0F else 3 }, r.2.2)

/-- A frame shown: the output frame that it is, where FRAME_START and FRAME_STEP pick it (R425). Output ends with the last of FRAME_COUNT frames, and with the one
frame of a JPEG image. -/
def Sample.show (y : Sample) (index : Option Nat) (v : VideoFrame) : Sample :=
  match index with
  | none => y
  | some i =>
    let k := (i - sStart y.desc) / sStep y.desc
    let out := decide (sStart y.desc ≤ i) && (i - sStart y.desc) % sStep y.desc == 0 && (sCount y.desc == 0 || decide (k < sCount y.desc))
    let fs := if out then y.frames.put k v else y.frames
    { y with shown := y.shown + 1, frames := fs, complete := (out && sCount y.desc != 0 && fs.length == sCount y.desc) || sCodec y.desc == 3 }

/-- The end of the stream, or of what is decoded of it: without an output frame the sample ends with E_RANGE (R425). -/
def Sample.finish (y : Sample) : Sample := if y.frames.isEmpty then y.stop (errD stRange 0x0A02) else { y with complete := true }

/-- The frame that the next step shows, of a sample with a header. -/
def Sample.showNext (y : Sample) (h : VideoHeader) (p : CodedPicture) : Sample :=
  let y1 := { y with field := none, inFrame := 0, next := y.next + 1 }.show (displayIndex (sCodec y.desc) (y.steps.map Prod.fst) y.next)
    (p.frame (sCodec y.desc) h y.field)
  if y1.complete && y1.frames.isEmpty then y1.finish else y1

/-- How many of a picture's coding units a turn with left of them to go decodes, of u still to decode and u0 in all, and what then stops the sample: the budget
(R428), or a unit that the standard forbids. -/
def decodeUnits (x : FSession) (y : Sample) (p : CodedPicture) (u0 u left : Nat) : Nat × Option Err :=
  let m := min u left
  let room := match sBudget x y.desc with
    | none => m + 1
    | some b => b - y.units
  let bad := match p.bad with
    | none => m
    | some k => min m (k - (u0 - u))
  let want := if bad < m then bad + 1 else m
  if want > room then (room, some (errD stBudget 0x0A0C))
  else if bad < m then (bad, some (errD stCorrupt 0x0A0A))
  else (m, none)

/-- A new sequence's stores: the old ones are freed, and the new are taken or waited for (R426, R427). -/
def newSequence (id : Nat) (x : FSession) (h : VideoHeader) (y : Sample) (s : State) : Sample × State :=
  let codec := sCodec y.desc
  if !h.accepted codec then (y.stop (errD stUnsupported 0x0A05), s)
  else match sizeLimit h.width h.height with
    | some e => (y.stop e, s)
    | none =>
      let need := h.storeNeed codec
      let s1 := s.freeStores id x.ctx y.store
      let x1 := { x with stores := x.stores - y.store }
      let y1 := { y with store := 0, seq := some h, next := y.next + 1 }
      if storeNever s1 x1 need then (y1.stop (errD stLimit 0x0A09), s1)
      else if storeFree s1 x1 need && s1.allSamples.all (fun z => z.state != .stores) then
        ({ y1 with store := need }, s1.takeStores id x.ctx need)
      else
        let n := s1.frames.waits + 1
        let s2 := { s1 with frames := { s1.frames with waits := n } }
        ({ y1 with state := .stores, need := need, order := n },
          if y.order = 0 then s2.modFi y.engine (fun c => { c with storeWait := sat32 c.storeWait 1 }) else s2)

/-- Why a picture or shown frame cannot be decoded, before any unit of it is: its pairing (R418), its header, its size and the count of frames (R426), its
references (R431). -/
def pictureErr (y : Sample) (p : CodedPicture) : Option Err :=
  if p.second then (if y.field.isNone then some (errD stUnsupported 0x0A05) else none)
  else if y.field.isSome then some (errD stUnsupported 0x0A05)
  else if y.seq.isNone then some (errD stCorrupt 0x0A0A)
  else match sizeLimit p.upscaled p.frameHeight with
    | some e => some e
    | none =>
      if p.output && y.shown ≥ 4096 then some (errD stLimit 0x0A08)
      else if p.missing then some (errD stCorrupt 0x0A0B) else none

/-- A picture of which the turn decodes what it may: the sample, and the units that the turn has left, none once a frame is done. -/
def decodePicture (x : FSession) (h : VideoHeader) (p : CodedPicture) (left : Nat) (y : Sample) (s : State) : Nat × Sample × State :=
  let u0 := p.units (sCodec y.desc) h
  let u := if y.inFrame = 0 then u0 else y.inFrame
  let r := decodeUnits x y p u0 u left
  let y1 := { y with units := y.units + r.1 }
  match r.2 with
  | some e => (0, y1.stop e, s)
  | none =>
    if r.1 < u then (0, { y1 with inFrame := u - r.1 }, s)
    else
      let s1 := s.modFi y.engine (fun c => { c with pixels := c.pixels + p.width * p.height })
      if p.bottom.isSome && !p.second then (left - r.1, { y1 with inFrame := 0, field := some p, next := y.next + 1 }, s1)
      else (0, y1.showNext h p, s1)

/-- A turn: steps of the stream up to the end of a frame or left coding units (R429); at most n steps. -/
def decodeTurn (id : Nat) : Nat → Nat → FSession → Sample → State → Sample × State
  | 0, _, _, y, s => (y, s)
  | n + 1, left, x, y, s =>
    if y.state != .ready || y.complete || left = 0 then (y, s)
    else match y.steps[y.next]? with
      | none =>
        let r := readTo x (sInLen y.desc) y s
        if r.1.state != .ready then r
        else if y.field.isSome then (r.1.stop (errD stUnsupported 0x0A05), r.2) else (r.1.finish, r.2)
      | some (st, ends) =>
        let r := if y.inFrame = 0 then readTo x (if st == .cut then sInLen y.desc else ends) y s else (y, s)
        let y := r.1
        let s := r.2
        if y.state != .ready then (y, s)
        else match st with
          | .header h =>
            if y.field.isSome then (y.stop (errD stUnsupported 0x0A05), s)
            else if y.seq == some h then decodeTurn id n left x { y with next := y.next + 1 } s
            else
              let q := newSequence id x h y s
              decodeTurn id n left ((q.2.fsession id).getD x) q.1 q.2
          | .picture p =>
            if p.layer ≠ 0 then decodeTurn id n left x { y with next := y.next + 1 } s
            else match if y.inFrame = 0 then pictureErr y p else none, y.seq with
              | some e, _ => (y.stop e, s)
              | none, none => (y.stop (errD stCorrupt 0x0A0A), s)
              | none, some h =>
                let q := decodePicture x h p left y s
                decodeTurn id n q.1 x q.2.1 q.2.2
          | .again p =>
            match pictureErr y p, y.seq with
            | some e, _ => (y.stop e, s)
            | none, none => (y.stop (errD stCorrupt 0x0A0A), s)
            | none, some h => (y.showNext h p, s)
          | .outside => (y.stop (errD stUnsupported 0x0A05), s)
          | .forbidden => (y.stop (errD stCorrupt 0x0A0A), s)
          | .cut => (y.stop (errD stCorrupt 0x0A0B), s)

/-- The samples of an engine that are ready for a turn, by session and number. -/
def State.readySamples (s : State) (e : Nat) : List (Nat × Nat) :=
  s.frames.sessions.flatMap (fun x => (x.2.samples.filter (fun y => y.2.engine == e && y.2.state == .ready && !y.2.complete)).map (fun y => (x.1, y.1)))

/-- The ready sample whose turn on an engine it is: the first after the one served last, in a round over sessions and sample numbers (R429). -/
def State.nextTurn (s : State) (e : Nat) : Option (Nat × Nat) :=
  let l := s.readySamples e
  let last := s.frames.turns.at (0, 0) e
  (l.find? (fun a => last.1 < a.1 || (last.1 == a.1 && last.2 < a.2))).orElse (fun _ => l.head?)

/-! Output (R422, R390). -/

/-- The frame of an output index as the map gives it, before clamping. -/
def frameIndex (t : List Byte) (last : Nat) : Int :=
  let dst := t.take 256
  let d := tmplOp t
  let k := tNdim dst - 1
  pOff d 3 + pMul d k * ((tOrigin dst k : Int) + (last : Nat))

/-- The frames that a slab reads are decoded, or no more will be. -/
def slabReady (x : FSession) (y : Sample) : Bool :=
  y.complete || (if tNdim x.dst ≤ 1 then List.range (tExtent x.dst 0) else [y.slabs]).all (fun k =>
    (y.frames.find (max 0 (frameIndex x.template k)).toNat).isSome)

/-- A sample value at a place of a frame, as OUT_DEPTH has it; none where R422 states no value, of 9 bits in 8. -/
def pixelValue (deep : Bool) (v : VideoFrame) (c px py : Nat) : Option Nat :=
  let depth := if c = 0 then v.depth else v.depthC
  let raw := if c = 0 then nth (nth v.planes [] 0) 0 (py * v.width + px)
    else match v.planes with
      | [_] => 2 ^ (v.depth - 1)
      | _ => nth (nth v.planes [] c) 0 (py / 2 ^ v.subY * ceilDiv v.width (2 ^ v.subX) + px / 2 ^ v.subX)
  if deep || depth ≤ 8 then some raw else if depth = 10 then some (min ((raw + 2) / 4) 255) else none

/-- The source tensor's descriptor for one frame of n. -/
def frameDesc (x : FSession) (v : VideoFrame) (n : Nat) : List Byte :=
  leb 1 1 ++ leb 1 4 ++ leb 1 (if x.deep then 2 else 1) ++ zeros 61 ++ [x.colours, v.width, v.height, n].flatMap (fun e => leb 4 e ++ zeros 20)

/-- The value of an output element, none where it is undefined, and whether an index was clamped. -/
def frameElem (x : FSession) (y : Sample) (i : List Nat) : Option Nat × Bool :=
  let n := y.frames.length
  let g := (max 0 (frameIndex x.template (nth i 0 (tNdim x.dst - 1)))).toNat
  let v := ((y.frames.find g).orElse (fun _ => y.frames.find (n - 1))).getD ⟨0, 0, 8, 8, 0, 0, []⟩
  let r := projSource (tmplOp x.template) (frameDesc x v (if y.complete then n else max n (g + 1))) x.dst i
  (if y.dirty then none else pixelValue x.deep v (nth r.1 0 0) (nth r.1 0 1) (nth r.1 0 2), r.2)

/-- Element values with a free value for each that is undefined. -/
def drawElems : List (Option Nat) → State → List Nat × State
  | [], s => ([], s)
  | some a :: t, s => let r := drawElems t s; (a :: r.1, r.2)
  | none :: t, s => let r := drawElems t (s.draw).2; ((s.draw).1 :: r.1, r.2)

/-- Where the segment's slabs stand. -/
def sampleBase (x : FSession) (y : Sample) : Int := (y.outAddr : Int) - (y.first : Nat) * slabStride x.dst

/-- Whether the next slab fits. -/
def sampleFits (x : FSession) (y : Sample) : Bool :=
  match y.limit with
  | none => true
  | some l => decide ((y.slabs - y.first : Nat) * slabStride x.dst + (tReach x.dst (slabDims x.dst)).2 < (l : Nat))

/-- The next slab written, whole or not at all: the sample with it done, or the error. -/
def sampleSlab (id n : Nat) (x : FSession) (y : Sample) (s : State) : Sample × State :=
  let k := y.slabs
  let base := sampleBase x y
  let groups := slabGroups x.dst k
  let elems := groups.flatten.map (frameElem x y)
  let vals := drawElems (elems.map Prod.fst) s
  let pieces := (groups.zip (splitLike groups vals.1)).map (fun p => groupPieces x.dst base p.1 p.2)
  let taken := (List.range (k - y.first)).flatMap (fun i => slabBytes x.dst base (y.first + i))
  let r := freePieces vals.2 (fun _ => false) taken pieces.flatten
  match writeSlab (.sample id n) x.ctx r.1 r.2 with
  | (some e, s1) => (y.stop (if e.status = stHw then { e with detail := 0x0A0F } else e), s1)
  | (none, s1) =>
    let runs := pieces.flatMap (fun g => runsOf (g.map (fun p => (p.1, p.2.length))))
    let net := if usesNetwork (tmplOp x.template) then (groups.map (fun g => ceilDiv g.length 64)).sum else 0
    ({ y with slabs := k + 1 }, s1.modProjCtr y.proj (fun c => { c with
      bytes := c.bytes + (r.1.map (fun p => p.2.length)).sum
      misaligned := sat32 c.misaligned (misalignedSlots runs)
      clamped := sat32 c.clamped (elems.countP Prod.snd)
      netpass := sat32 c.netpass net }))

/-- A sample out of output space: suspended under its handle with its record, or ended where its context holds too many (R83, R433). -/
def suspendSample (id k : Nat) (x : FSession) (y : Sample) (s : State) : Sample × State :=
  let n := y.slabs - y.first
  let head : JobHead := { JobHead.first (y.iss.getD (.rcp 0 0)) x.ctx y.outAddr 0 with handle := y.handle }
  match s.takeHandle head (.frame id k) with
  | (none, s1) => (y.stop (err0 stLimit), s1)
  | (some h, s1) =>
    let e : OpEnd := { handle := h.handle, status := stNoSpace, kind := 6, consumed := n, produced := n }
    let s2 := { s1 with units := { s1.units with susp := s1.units.susp.put h.handle ⟨x.ctx, .frame id k, false⟩ } }.modProjCtr y.proj (fun c =>
      { c with suspends := sat32 c.suspends 1, ops := sat32 c.ops 1 })
    let s3 := if sRecord y.desc = 0 then s2 else s2.writeDropped x.ctx (sRecord y.desc) e.bytes
    let s4 := match y.iss with
      | none => s3
      | some i => s3.endOp i x.ctx e
    ({ y with state := .suspended, handle := h.handle, iss := none, issued := false }, s4.unwatch (.sample id k))

/-- Whether a sample has a slab to write, or the space for one to miss. -/
def Sample.wants (x : FSession) (y : Sample) : Bool := y.state == .ready && decide (y.slabs < tSlabs x.dst) && slabReady x y

/-- The output bytes that a sample has still to write (R388). -/
def Sample.watch (id k : Nat) (x : FSession) (y : Sample) : Watch :=
  { owner := .sample id k, ctx := x.ctx, gather := false, words := [], feeds := [], fed := 0, spoiled := [], lost := []
    ranges := ((List.range (tSlabs x.dst - y.slabs)).map (y.slabs + ·)).flatMap (fun i => (slabBytes x.dst (sampleBase x y) i).map (fun va => (va, 1))) }

/-- A sample with a slab to write takes its place in the queue of its Projection Engine (R387, R422); one that is decoded and written ends. -/
def settleSample (id k : Nat) (x : FSession) (y : Sample) (s : State) : State :=
  if y.state == .ready && y.complete && y.slabs ≥ tSlabs x.dst then s.putSample id k (y.stop (err0 stOk))
  else if y.wants x && !y.placed then
    ((if y.issued then s else s.watchOp (y.watch id k x)).putSample id k { y with placed := true, issued := true }).queueProj y.proj (.sample id k)
  else s.putSample id k y

/-- FRAME_DECODE_TURN: the sample whose turn it is on its engine decodes on. -/
def frameTurn (id k : Nat) (s : State) : State :=
  match s.sample id k with
  | none => s
  | some (x, y) =>
    if s.nextTurn y.engine ≠ some (id, k) ∨ !s.works (unitFrame y.engine) then s
    else
      let s1 := { s with frames := { s.frames with turns := s.frames.turns.put y.engine (id, k) } }
      let y1 := if y.begun then y else beginStream x y s1
      let q := decodeTurn id (y1.steps.length + 1) 4096 x y1 s1
      settleSample id k x q.1 q.2

/-! The Projection Engines' rows (R381, R387, R422). -/

/-- PROJ_OP_START: a free engine takes the oldest work of its queue. -/
def projStart (e : Nat) (s : State) : State :=
  let g := s.projEng e
  match g.run, g.queue with
  | none, w :: t =>
    if !s.works (unitProj e) then s
    else match w with
      | .job j => projBegin e j (s.setProj e ⟨t, none⟩)
      | .sample id k => s.setProj e ⟨t, if (s.sample id k).isSome then some (.sample id k) else none⟩
  | _, _ => s

/-- The next slab of a sample whose output an engine has in hand; the engine is free once no further slab of it can be written. -/
def sampleTurn (e id k : Nat) (s : State) : State :=
  let off := fun (s : State) => s.setProj e { s.projEng e with run := none }
  match s.sample id k with
  | none => off s
  | some (x, y) =>
    if !y.wants x then (off s).putSample id k { y with placed := false }
    else if !sampleFits x y then
      let r := suspendSample id k x { y with placed := false } (off s)
      r.2.putSample id k r.1
    else
      let r := sampleSlab id k x y s
      if r.1.wants x then r.2.putSample id k r.1 else settleSample id k x { r.1 with placed := false } (off r.2)

/-- PROJ_SLAB_DONE: the engine writes the next slab of what it runs. -/
def projSlab (e : Nat) (s : State) : State :=
  match (s.projEng e).run with
  | none => s
  | some w =>
    if !s.works (unitProj e) then s
    else match w with
      | .job j => jobSlab e j s
      | .sample id k => sampleTurn e id k s

/-! The end of a sample (R430 to R433). -/

/-- The ARGS of a sample's item (R432). -/
def sampleArgs (id : Nat) (y : Sample) (e : Err) : List Byte :=
  leb 8 (sId y.desc) ++ leb 8 (sOut y.desc) ++ leb 2 e.status ++ leb 2 e.detail ++ leb 2 y.frames.length ++ leb 1 y.engine ++ zeros 1
    ++ leb 4 (min y.units 0xFFFF_FFFF) ++ leb 4 id

/-- Whether the items of two samples go the same way: to one Assembler, or to one flow. -/
def sameWay (s : State) (a b : Nat × Nat) : Bool :=
  match s.fsession a.1, s.fsession b.1 with
  | some x, some y => a.1 == b.1 || (x.asm.isNone && y.asm.isNone && x.outFlow == y.outFlow)
  | _, _ => false

/-- Whether no sample that ended earlier still waits to go the same way (R430, R436). -/
def State.firstToLeave (s : State) (id k : Nat) : Bool :=
  (s.frames.ended.takeWhile (· != (id, k))).all (fun a => !((s.sample a.1 a.2).isSome && sameWay s a (id, k)))

/-- A sample's item offered to its flow or the Assembler in the order samples end; once it is taken the sample is gone, else it is held. -/
def releaseSample (id k : Nat) (s : State) : State :=
  match s.sample id k with
  | none => s
  | some (x, y) =>
    let e := y.result.getD (err0 stOk)
    let gone := fun (s : State) => ({ s with frames := { s.frames with ended := s.frames.ended.filter (· != (id, k)) } }.modFs id (fun x =>
      { x with samples := x.samples.del k })).settleFrames id
    let hold := fun (s : State) =>
      if y.state == .held then s
      else (s.putSample id k { y with state := .held }).modFi y.engine (fun c => { c with held := sat32 c.held 1 })
    if x.asm.isNone ∧ x.outFlow = 0xFFFF_FFFF then gone s
    else if !s.firstToLeave id k then hold s
    else match x.asm with
      | some a =>
        if a.accepts then gone (s.modAsm id (fun a => a.take y.position ⟨sId y.desc, sOut y.desc, y.units, y.frames.length, e.status, e.detail, y.engine⟩))
        else hold s
      | none =>
        let r := s.emit x.outFlow (sampleArgs id y e ++ leb 8 x.userId) 2 y.engine
        if r.1 then gone r.2 else hold r.2

/-- SAMPLE_END: the record is written, who resumed it hears of it, its stores are freed, and its item goes on its way. -/
def sampleEnd (id k : Nat) (s : State) : State :=
  match s.sample id k with
  | none => s
  | some (x, y) => match y.result with
    | none => s
    | some e =>
      if y.state ≠ .ending ∨ !s.works (unitFrame y.engine) then s
      else
        let rec_ : OpEnd := { status := e.status, kind := 6, consumed := y.slabs, produced := y.slabs, detail := e.detail, arg := e.arg, detector := e.detector }
        let s0 := if e.status == stAlign then s.countRefused x.ctx stAlign else s
        let s1 := if sRecord y.desc = 0 ∨ sRecord y.desc % 64 ≠ 0 then s0 else s0.writeDropped x.ctx (sRecord y.desc) rec_.bytes
        let s2 := ((s1.freeStores id x.ctx y.store).dropSusp y.handle).unwatch (.sample id k)
        let s3 := match y.iss with
          | none => s2
          | some i => s2.endOp i x.ctx { rec_ with consumed := y.slabs - y.first, produced := y.slabs - y.first }
        let s4 := (s3.modFi y.engine (fun c => { c with
          samples := sat32 c.samples 1
          corrupt := sat32 c.corrupt (b2n (e.status == stCorrupt))
          limit := sat32 c.limit (b2n (e.status == stLimit || e.status == stUnsupported))
          budget := sat32 c.budget (b2n (e.status == stBudget)) })).modProjCtr y.proj (fun c => { c with ops := sat32 c.ops (b2n y.issued) })
        releaseSample id k ({ s4 with frames := { s4.frames with ended := s4.frames.ended ++ [(id, k)] } }.putSample id k
          { y with store := 0, iss := none, handle := 0, issued := false })

/-- SAMPLE_ITEM_RELEASE: a held item is offered again. -/
def itemRelease (id k : Nat) (s : State) : State :=
  match s.sample id k with
  | none => s
  | some (_, y) => if y.state == .held && s.works (unitFrame y.engine) then releaseSample id k s else s

/-! Resume, reset and lock loss (R433, R443). -/

/-- The failures of a RESUME of a sample, which leave it suspended (R391). -/
def sampleResumeFails (x : FSession) (y : Sample) (outAddr : Nat) : List (Bool × Err) :=
  let top := (outAddr : Int) + ((tSlabs x.dst - 1 - y.slabs : Nat) : Int) * slabStride x.dst + (tReach x.dst (slabDims x.dst)).2
  [ (outAddr % tBytes x.dst != 0 || (tBlocked x.dst && outAddr % tBlockBytes x.dst != 0), err0 stAlign),
    (decide (top ≥ 2 ^ 48), err0 stRange) ]

/-- A suspended sample resumed. -/
def sampleResume (id k : Nat) (iss : Issuer) (outAddr outLen : Nat) (s : State) : State :=
  match s.sample id k with
  | none => s
  | some (x, y) => settleSample id k x { y with state := .ready, iss := some iss, outAddr := outAddr, limit := some outLen, first := y.slabs } s

/-- A suspended sample abandoned: it ends with E_NO_SPACE. -/
def sampleAbandon (id k : Nat) (s : State) : State :=
  match s.sample id k with
  | none => s
  | some (_, y) => s.putSample id k ({ y with handle := 0 }.stop (errD stNoSpace 0x0A11))

/-- Samples that p selects and that have not ended stop with an error; the handle of one that was suspended ends with it. -/
def stopSamples (p : Sample → Bool) (e : Err) (s : State) : State :=
  let hit := fun (y : Sample) => p y && y.state != .held && y.state != .ending
  let gone := (s.allSamples.filter (fun y => hit y && y.state == .suspended)).map Sample.handle
  let s1 := gone.foldl State.dropSusp s
  { s1 with frames := { s1.frames with sessions := s1.frames.sessions.mapV (fun (x : FSession) => { x with
      samples := x.samples.mapV (fun (y : Sample) => if hit y then (if y.state == .suspended then { y with handle := 0 } else y).stop e else y) }) } }

/-- Samples on an engine that was reset; those that hold stores on a lost controller, over which every store spreads. -/
def frameEngineReset (e : Nat) : State → State := stopSamples (fun y => y.engine == e) (errD stHw 0x0A0F)
def frameStoresLost (mc : Nat) : State → State := stopSamples (fun y => y.store != 0) ⟨stHw, 0x0A0F, 0xFFFF, detId 3 (islMc mc)⟩

/-! The rows. -/

def execFrameSessionOpen (f : Frame) (s : State) : Host.Outcome State Fault Refusal := .next (rcpAction 0x0530 0 0 frameOpen f s)
def execFrameSessionClose (f : Frame) (s : State) : Host.Outcome State Fault Refusal := .next (rcpAction 0x0530 0 1 frameClose f s)
def execFrameRingPoll (id : Nat) (s : State) : Host.Outcome State Fault Refusal := .next (ringPoll id s)
def execFrameStoreGrant (id : Nat) (k : Nat) (s : State) : Host.Outcome State Fault Refusal := .next (storeGrant id k s)
def execFrameDecodeTurn (id : Nat) (k : Nat) (s : State) : Host.Outcome State Fault Refusal := .next (frameTurn id k s)
def execProjOpStart (e : Fin 16) (s : State) : Host.Outcome State Fault Refusal := .next (projStart e s)
def execProjSlabDone (e : Fin 16) (s : State) : Host.Outcome State Fault Refusal := .next (projSlab e s)
def execSampleEnd (id : Nat) (k : Nat) (s : State) : Host.Outcome State Fault Refusal := .next (sampleEnd id k s)
def execSampleItemRelease (id : Nat) (k : Nat) (s : State) : Host.Outcome State Fault Refusal := .next (itemRelease id k s)

end Sys2Proof.Machine
end

