-- ==== Sys2Proof/Machine/Arrow.lean ====
section
/-!
DEFINITION. Arrow input of Table Intake: the types that feed a Legend column (R230, R231), what a schema and a message may hold (R240, R241), the cells of a
RecordBatch and the checks on it (R244, R250).
-/
namespace Sys2Proof.Machine
open Sys2Proof

/-! A unit of input: a RecordBatch or the row group. -/

/-- A failure of R250: its DETAIL, the Legend column, the input offset and the job row. -/
structure IntakeFail where
  detail : Nat
  col : Nat
  off : Nat
  row : Nat

/-- The status of a DETAIL of R250. -/
def intakeStatus (detail : Nat) : Nat :=
  if detail / 0x100 = 4 then stLimit else if detail / 0x100 = 5 then stUnsupported else stCorrupt

/-- A unit of input: its rows, its columns in Legend order, of each column the first row and the offset of every message or page it came in, and the
failures met, by row of the unit. -/
structure IntakeUnit where
  rows : Nat
  cols : List (List Cell)
  places : List (List (Nat × Nat))
  fails : List IntakeFail

/-- The offset of the message or page that a row came in. -/
def placeOf (l : List (Nat × Nat)) (row : Nat) : Nat := ((l.filter (fun p => p.1 ≤ row)).getLastD (0, 0)).2

/-! Types (R230, R231). -/

/-- The Legend types that an Arrow type feeds, with the timestamp's unit. -/
def arrowFeeds : ArrowType → List Nat
  | .int 8 true => [1]
  | .int 16 true => [2]
  | .int 32 true => [3]
  | .int 64 true => [4]
  | .int 8 false => [5]
  | .int 16 false => [6, 0xA]
  | .int 32 false => [7]
  | .int 64 false => [8]
  | .floating 16 => [9]
  | .floating 32 => [0xB]
  | .floating 64 => [0xC]
  | .fixedBinary 2 => [0xA]
  | .bool => [tBool]
  | .utf8 _ => [tUtf8]
  | .binary _ => [tBinary]
  | .timestamp _ => [tTime]
  | .list _ => [tList]
  | .fixedList _ => [tFixed]
  | _ => []

/-- The time unit of a timestamp, as TS_UNIT has it. -/
def arrowUnitOf : ArrowType → Nat
  | .timestamp u => u
  | _ => 0

/-- The bytes of a value of fixed width; 0 for bits. -/
def arrowWidth : ArrowType → Nat
  | .int b _ => b / 8
  | .floating b => b / 8
  | .fixedBinary n => n
  | .timestamp _ => 8
  | _ => 0

/-- A type whose values have a fixed width, which may be the element of a list (R231). -/
def arrowFixed (t : ArrowType) : Bool := (arrowFeeds t).any isFixedType

/-- Whether a schema may hold a field (R240): a type of R230, or a list of an element type of R231, not dictionary-encoded. -/
def arrowAccepted (f : ArrowField) : Bool :=
  !f.dictionary && (match f.type with
    | .list _ => f.children.length == 1 && f.children.all arrowFixed
    | .fixedList _ => f.children.length == 1 && f.children.all arrowFixed
    | t => !(arrowFeeds t).isEmpty)

/-- The element type of a list field. -/
def arrowElem (f : ArrowField) : ArrowType := f.children.headD .other

/-- Whether a Legend column may take an Arrow field (R230, R231). -/
def arrowMatches (e : List Byte) (f : ArrowField) : Bool :=
  let unit := if isList (colType e) then arrowUnitOf (arrowElem f) else arrowUnitOf f.type
  (arrowFeeds f.type).contains (colType e) && (!isList (colType e) || (arrowFeeds (arrowElem f)).contains (colElem e)) &&
    (colUnit e == 0 || colUnit e == unit) && (match f.type with
      | .fixedList n => colFixedLen e == n
      | _ => true)

/-! Messages (R240, R241). -/

/-- The bytes of the key "omallys.gds". -/
def gdsKey : List Byte := [0x6F, 0x6D, 0x61, 0x6C, 0x6C, 0x79, 0x73, 0x2E, 0x67, 0x64, 0x73]

/-- Whether a message marks its buffers as GDS-compressed: the key with the value "1". -/
def gdsMarked (m : ArrowMessage) : Bool := m.pairs.contains (gdsKey, [0x31])

/-- A message that R240 turns away with E_UNSUPPORTED; first says whether it is the first of its stream. -/
def arrowRejects (m : ArrowMessage) (first : Bool) : Bool :=
  m.version != 5 || (match m.header with
    | .schema big fs => !first || big || fs.any (fun f => !arrowAccepted f)
    | .recordBatch _ _ _ compression => first || compression
    | .dictionaryBatch => true
    | .other => true)

/-! Cells. -/

/-- The field nodes and buffers that an Arrow field takes. -/
def arrowTakes (f : ArrowField) : Nat × Nat :=
  match f.type with
  | .utf8 _ => (1, 3)
  | .binary _ => (1, 3)
  | .list _ => (2, 4)
  | .fixedList _ => (2, 3)
  | _ => (1, 2)

/-- The first n values of a fixed width, none where the buffer is too short. -/
def arrowValues (width n : Nat) (b : List Byte) : Option (List (List Byte)) :=
  if width = 0 then
    if b.length * 8 < n then none else some ((unpackBits b n).map (fun x => leb 1 (b2n x)))
  else if b.length < width * n then none else some (chunks width n b)

/-- The validity of n values from their node's null count and bitmap. -/
def arrowValid (n nulls : Nat) (b : List Byte) : Option (List Bool) :=
  if b.isEmpty then if nulls = 0 then some (List.replicate n true) else none
  else if b.length * 8 < n then none else some (unpackBits b n)

/-- The offsets of n values. -/
def arrowOffsets (large : Bool) (n : Nat) (b : List Byte) : Option (List Nat) :=
  let w := if large then 8 else 4
  if n = 0 ∧ b.isEmpty then some [0]
  else if b.length < w * (n + 1) then none
  else
    let o := (chunks w (n + 1) b).map le
    if monotone o then some o else none

/-- Values cut by offsets. -/
def cutBy {α : Type} (offs : List Nat) (l : List α) : List (List α) :=
  (offs.zip (offs.drop 1)).map (fun p => (l.drop p.1).take (p.2 - p.1))

/-- Cells under their validity. -/
def masked (valid : List Bool) (cs : List Cell) : List Cell := (valid.zip cs).map (fun p => if p.1 then p.2 else .null)

/-- The elements of a list from their node and buffers. -/
def arrowElems (t : ArrowType) (node : Nat × Nat) (valid vals : List Byte) : Option (List (Option (List Byte))) := do
  let v ← arrowValid node.1 node.2 valid
  let x ← arrowValues (arrowWidth t) node.1 vals
  pure ((v.zip x).map (fun p => if p.1 then some p.2 else none))

/-- Cells cut by offsets out of n things, none where the last offset is past them. -/
def cutCells {α : Type} (mk : List α → Cell) (valid : List Bool) (offs : List Nat) (l : List α) : Option (List Cell) :=
  if offs.getLastD 0 ≤ l.length then some (masked valid ((cutBy offs l).map mk)) else none

/-- The cells of an Arrow field from its nodes and buffers, none where a buffer, offset or node is out of bounds (R240). -/
def arrowCells (f : ArrowField) (rows : Nat) (nodes : List (Nat × Nat)) (bufs : List (List Byte)) : Option (List Cell) :=
  let b := fun i => nth bufs [] i
  let node := nth nodes (0, 0) 0
  let child := nth nodes (0, 0) 1
  if node.1 ≠ rows then none
  else do
    let valid ← arrowValid rows node.2 (b 0)
    match f.type with
    | .utf8 large => cutCells .val valid (← arrowOffsets large rows (b 1)) (b 2)
    | .binary large => cutCells .val valid (← arrowOffsets large rows (b 1)) (b 2)
    | .list large => cutCells .list valid (← arrowOffsets large rows (b 1)) (← arrowElems (arrowElem f) child (b 2) (b 3))
    | .fixedList n => cutCells .list valid ((List.range (rows + 1)).map (· * n)) (← arrowElems (arrowElem f) child (b 1) (b 2))
    | t => pure (masked valid ((← arrowValues (arrowWidth t) rows (b 1)).map .val))

/-- The cells of every field of a RecordBatch, in schema order. -/
def arrowFields (rows : Nat) : List ArrowField → List (Nat × Nat) → List (List Byte) → List (Option (List Cell))
  | [], _, _ => []
  | f :: t, ns, bs =>
    let k := arrowTakes f
    (if ns.length < k.1 ∨ bs.length < k.2 then none else arrowCells f rows (ns.take k.1) (bs.take k.2))
      :: arrowFields rows t (ns.drop k.1) (bs.drop k.2)

/-- The field that takes buffer i, counted from field n on. -/
def fieldOfBuffer (n : Nat) : List ArrowField → Nat → Nat
  | [], _ => n
  | f :: t, i => if i < (arrowTakes f).2 then n else fieldOfBuffer (n + 1) t (i - (arrowTakes f).2)

/-- The Legend column that a field feeds; 0 of a field that no column names. -/
def colOfField (leg : List Byte) (i : Nat) : Nat :=
  ((legEntries leg).zipIdx.find? (fun p => fld p.1 4 2 == i)).map Prod.snd |>.getD 0

/-- The first Legend column at fault among fields at fault. -/
def firstCol (leg : List Byte) (bad : List Nat) : Nat := (minBy id (bad.map (colOfField leg))).getD 0

/-- The lengths that a Legend limits (R244): the failures of one column, by row. -/
def lengthFails (e : List Byte) (col : Nat) (places : List (Nat × Nat)) (cells : List Cell) : List IntakeFail :=
  cells.zipIdx.filterMap (fun p => match p.1 with
    | .list es =>
      if colType e = tList ∧ es.length > colMaxElems e then some ⟨0x0401, col, placeOf places p.2, p.2⟩
      else if colType e = tFixed ∧ es.length ≠ colFixedLen e then some ⟨0x0304, col, placeOf places p.2, p.2⟩ else none
    | .val b => if isVar (colType e) ∧ b.length > colMaxBytes e then some ⟨0x0402, col, placeOf places p.2, p.2⟩ else none
    | .null => none)

/-- The failure of the lowest row, and of the lowest column there. -/
def firstFailure (l : List IntakeFail) : Option IntakeFail := minBy (fun f => f.row * 2048 + f.col) l

/-- The buffers of a RecordBatch's body, or the failure of one outside the body. -/
def arrowBuffers (leg : List Byte) (fields : List ArrowField) (off : Nat) (bufs : List (Nat × Nat)) (body : List Byte) :
    Except IntakeFail (List (List Byte)) :=
  match bufs.zipIdx.filter (fun p => p.1.1 + p.1.2 > body.length) with
  | [] => .ok (bufs.map (fun b => sub body b.1 b.2))
  | bad => .error ⟨0x0103, firstCol leg (bad.map (fun p => fieldOfBuffer 0 fields p.2)), off, 0⟩

/-- Whether a buffer of a GDS-compressed batch holds a frame, and not a buffer stored uncompressed or none (R241). -/
def holdsFrame (b : List Byte) : Bool := 8 ≤ b.length && fld b 0 8 != gdsAny

/-- What is known of a buffer before any lane decodes: one that holds no frame stands for itself, one too short for its length fails. -/
def gdsStored (b : List Byte) : Option (Option (List Byte)) :=
  if b.isEmpty then some (some []) else if b.length < 8 then some none
  else if holdsFrame b then none else some (some (b.drop 8))

/-- The unit of a RecordBatch from its buffers, none of which a lane has yet to decode (R240, R241, R250): its columns, or the first failure of what its
metadata determine. -/
def arrowUnit (leg : List Byte) (fields : List ArrowField) (rows off : Nat) (nodes : List (Nat × Nat))
    (bufs : List (Option (List Byte))) : Except IntakeFail IntakeUnit :=
  match bufs.zipIdx.filter (fun p => p.1.isNone) with
  | [] =>
    let all := arrowFields rows fields nodes (bufs.map (·.getD []))
    let es := legEntries leg
    match all.zipIdx.filter (fun p => p.1.isNone) with
    | [] =>
      let cols := es.map (fun e => (nth all none (fld e 4 2)).getD [])
      let long := ((es.zip cols).zipIdx.flatMap (fun p => lengthFails p.1.1 p.2 [(0, off)] p.1.2)).filter (fun f => f.detail != 0x0304)
      match firstFailure long with
      | some f => .error f
      | none => .ok ⟨rows, cols, cols.map (fun _ => [(0, off)]), []⟩
    | bad => .error ⟨0x0103, firstCol leg (bad.map Prod.snd), off, 0⟩
  | bad => .error ⟨0x0104, firstCol leg (bad.map (fun p => fieldOfBuffer 0 fields p.2)), off, 0⟩

end Sys2Proof.Machine
end

