-- ==== Sys2Proof/Machine/Parquet.lean ====
section
/-!
DEFINITION. Parquet input of Table Intake: page headers in the Thrift compact protocol, what R242 accepts, levels (R243), value encodings, the rows of a
column chunk and the checks on them (R244, R250).
-/
namespace Sys2Proof.Machine
open Sys2Proof

/-! Page headers: the Thrift compact protocol. -/

/-- Why bytes do not read as asked: more of them are needed, or they are malformed. -/
inductive Unread where
  | short
  | bad
  deriving DecidableEq, Repr

/-- A base-128 number of at most n bytes. -/
def varint : Nat → List Byte → Except Unread (Nat × List Byte)
  | 0, _ => .error .bad
  | _, [] => .error .short
  | n + 1, b :: t =>
    if b.toNat < 128 then .ok (b.toNat, t)
    else match varint n t with
      | .error e => .error e
      | .ok (v, r) => .ok (b.toNat - 128 + 128 * v, r)

/-- A zigzag number. -/
def unzigzag (n : Nat) : Int := if n % 2 = 0 then (n / 2 : Nat) else -((n / 2 + 1 : Nat) : Int)

/-- What a reader of Thrift has yet to read: the fields of a struct at a path after the field last read, a value of a type, n values of a type. -/
inductive ThriftTask where
  | fields (path : List Nat) (last : Nat)
  | value (path : List Nat) (type : Nat)
  | values (path : List Nat) (type n : Nat)
  deriving DecidableEq, Repr

/-- The first n bytes and the rest. -/
def takeBytes (n : Nat) (bs : List Byte) : Except Unread (List Byte × List Byte) :=
  if bs.length < n then .error .short else .ok (bs.take n, bs.drop n)

/-- The numbers of a Thrift struct by the path of their fields, and the bytes after it, in at most n steps. -/
def thriftGo : Nat → List ThriftTask → List (List Nat × Int) → List Byte → Except Unread (List (List Nat × Int) × List Byte)
  | 0, _, _, _ => .error .short
  | _, [], acc, bs => .ok (acc, bs)
  | n + 1, .fields path last :: st, acc, bs =>
    match bs with
    | [] => .error .short
    | h :: t =>
      let ty := h.toNat % 16
      if h.toNat = 0 then thriftGo n st acc t
      else do
        let (id, r) ← if h.toNat / 16 = 0 then (do
            let (v, r) ← varint 3 t
            pure ((unzigzag v).toNat, r)) else pure (last + h.toNat / 16, t)
        let p := path ++ [id]
        if ty = 1 ∨ ty = 2 then thriftGo n (.fields path id :: st) (acc ++ [(p, if ty = 1 then 1 else 0)]) r
        else thriftGo n (.value p ty :: .fields path id :: st) acc r
  | n + 1, .values path ty k :: st, acc, bs =>
    if k = 0 then thriftGo n st acc bs else thriftGo n (.value (path ++ [0]) ty :: .values path ty (k - 1) :: st) acc bs
  | n + 1, .value path ty :: st, acc, bs =>
    if ty = 1 ∨ ty = 2 ∨ ty = 3 then do
      let (b, r) ← takeBytes 1 bs
      thriftGo n st (acc ++ [(path, (BitVec.ofNat 8 (le b)).toInt)]) r
    else if 4 ≤ ty ∧ ty ≤ 6 then do
      let (v, r) ← varint 10 bs
      thriftGo n st (acc ++ [(path, unzigzag v)]) r
    else if ty = 7 then do
      let (_, r) ← takeBytes 8 bs
      thriftGo n st acc r
    else if ty = 8 then do
      let (k, r) ← varint 5 bs
      let (_, r') ← takeBytes k r
      thriftGo n st acc r'
    else if ty = 9 ∨ ty = 10 then do
      let (h, r) ← takeBytes 1 bs
      let (k, r') ← if le h / 16 = 15 then varint 5 r else pure (le h / 16, r)
      thriftGo n (.values path (le h % 16) k :: st) acc r'
    else if ty = 11 then do
      let (k, r) ← varint 5 bs
      if k = 0 then thriftGo n st acc r
      else do
        let (h, r') ← takeBytes 1 r
        thriftGo n ((List.range (min k (r'.length + 1))).flatMap (fun _ => [.value (path ++ [0]) (le h / 16), .value (path ++ [1]) (le h % 16)]) ++ st)
          acc r'
    else if ty = 12 then thriftGo n (.fields path 0 :: st) acc bs
    else .error .bad

/-- A page header: its kind, the stored and uncompressed bytes of the page, its CRC, the number of values and their encoding, the encodings of the definition and
repetition levels, and of a DATA_PAGE_V2 the bytes that each takes. -/
structure PageHead where
  kind : Nat
  size : Nat
  rawSize : Nat
  crc : Option Nat
  values : Nat
  encoding : Nat
  defEnc : Nat
  repEnc : Nat
  defLen : Nat
  repLen : Nat
  deriving DecidableEq, Repr

/-- Page kinds and encodings of the Parquet format by name. -/
def pgData : Nat := 0
def pgDict : Nat := 2
def pgData2 : Nat := 3
def encPlain : Nat := 0
def encPlainDict : Nat := 2
def encRle : Nat := 3
def encDelta : Nat := 5
def encRleDict : Nat := 8

/-- The header that a page's Thrift fields give, none where one it must have is missing or negative. -/
def pageHead (facts : List (List Nat × Int)) : Option PageHead := do
  let get := fun (p : List Nat) => (facts.find? (fun f => f.1 == p)).bind (fun f => if f.2 < 0 then none else some f.2.toNat)
  let kind ← get [1]
  let raw ← get [2]
  let size ← get [3]
  let crc := (facts.find? (fun f => f.1 == [4])).map (fun f => (f.2 % 2 ^ 32).toNat)
  if kind = pgData then do
    pure ⟨kind, size, raw, crc, ← get [5, 1], ← get [5, 2], ← get [5, 3], ← get [5, 4], 0, 0⟩
  else if kind = pgDict then do
    pure ⟨kind, size, raw, crc, ← get [7, 1], ← get [7, 2], encRle, encRle, 0, 0⟩
  else if kind = pgData2 then do
    let _ ← get [8, 2]
    let _ ← get [8, 3]
    pure ⟨kind, size, raw, crc, ← get [8, 1], ← get [8, 4], encRle, encRle, ← get [8, 5], ← get [8, 6]⟩
  else pure ⟨kind, size, raw, crc, 0, 0, encRle, encRle, 0, 0⟩

/-- Bytes that a page header may take (R242). -/
def pageHeadMax : Nat := 65536

/-- The header at the start of bytes and the bytes it takes, or the DETAIL of R250 that refuses it. -/
def readPageHead (bs : List Byte) : Except Nat (PageHead × Nat) :=
  match thriftGo (4 * pageHeadMax) [.fields [] 0] [] (bs.take pageHeadMax) with
  | .error .short => .error (if bs.length > pageHeadMax then 0x0403 else 0x0201)
  | .error .bad => .error 0x0201
  | .ok (facts, rest) => match pageHead facts with
    | none => .error 0x0201
    | some h => .ok (h, (bs.take pageHeadMax).length - rest.length)

/-! What a column takes (R230, R242, R243). -/

/-- The type that a chunk's values have: of a list, that of its elements. -/
def pqType (e : List Byte) : Nat := if isList (colType e) then colElem e else colType e

/-- The physical types of R230: INT32, INT64, and the bytes of a value of fixed width, 0 of BOOLEAN and BYTE_ARRAY. -/
def pqInt32 (t : Nat) : Bool := t == 1 || t == 2 || t == 3 || t == 5 || t == 6 || t == 7
def pqInt64 (t : Nat) : Bool := t == 4 || t == 8 || t == tTime
def pqWidth (t : Nat) : Nat :=
  if pqInt32 t || t == 0xB then 4 else if pqInt64 t || t == 0xC then 8 else if t = 9 ∨ t = 0xA then 2 else 0

/-- The maximum repetition and definition levels of a column (R243). -/
def maxRep (e : List Byte) : Nat := b2n (isList (colType e))
def maxDef (e : List Byte) : Nat :=
  if isList (colType e) then 1 + b2n (colNullable e) + b2n (colElemNullable e) else b2n (colNullable e)

/-- Whether R242 accepts the encoding of a page's values. -/
def pqEncoding (t enc : Nat) : Bool :=
  enc == encPlain || enc == encRleDict || enc == encPlainDict || (enc == encDelta && (pqInt32 t || pqInt64 t))

/-- What R242 turns away with E_UNSUPPORTED: another kind of page, a dictionary that is not the first page, a codec, another encoding of values, of a
level that the column has another than the hybrid. -/
def pageRejects (e : List Byte) (h : PageHead) (first : Bool) : Bool :=
  !(h.kind == pgData || h.kind == pgData2 || h.kind == pgDict) || h.size != h.rawSize ||
    (if h.kind == pgDict then !first || !(h.encoding == encPlain || h.encoding == encPlainDict) else !pqEncoding (pqType e) h.encoding) ||
    (maxDef e != 0 && h.defEnc != encRle) || (maxRep e != 0 && h.repEnc != encRle)

/-! Encodings of levels and values. Each reads as many values as there are, at most n. -/

/-- n numbers of w bits packed from the least significant bit on. -/
def unpackNums (w n : Nat) (bs : List Byte) : List Nat := (List.range n).map (fun i => le bs / 2 ^ (w * i) % 2 ^ w)

/-- The RLE and bit-packed hybrid, in at most the given number of runs. -/
def hybrid (w : Nat) : Nat → Nat → List Byte → List Nat
  | 0, _, _ => []
  | f + 1, n, bs =>
    if n = 0 then []
    else match varint 5 bs with
      | .error _ => []
      | .ok (h, r) =>
        if h % 2 = 1 then
          let k := min n (8 * (h / 2))
          if r.length < w * (h / 2) then unpackNums w (min k (if w = 0 then k else 8 * r.length / w)) r
          else unpackNums w k (r.take (w * (h / 2))) ++ hybrid w f (n - k) (r.drop (w * (h / 2)))
        else
          let b := ceilDiv w 8
          let k := min n (h / 2)
          if r.length < b then [] else List.replicate k (le (r.take b)) ++ hybrid w f (n - k) (r.drop b)

/-- PLAIN byte arrays. -/
def plainStrings : Nat → List Byte → List (List Byte)
  | 0, _ => []
  | n + 1, bs =>
    let k := fld bs 0 4
    if bs.length < 4 + k then [] else sub bs 4 k :: plainStrings n (bs.drop (4 + k))

/-- PLAIN values of a type. -/
def plainValues (t n : Nat) (bs : List Byte) : List (List Byte) :=
  if t = tBool then (unpackBits bs n).map (fun b => leb 1 (b2n b))
  else if isVar t then plainStrings (min n bs.length) bs
  else chunks (pqWidth t) (min n (bs.length / pqWidth t)) bs

/-- The miniblocks of a DELTA_BINARY_PACKED block: p values each, need of them wanted: the values, the last of them, and the bytes after, none where
they run out. -/
def deltaMinis (p : Nat) (least : Int) : List Nat → Nat → Int → List Byte → List Int × Int × Option (List Byte)
  | [], _, prev, bs => ([], prev, some bs)
  | w :: ws, need, prev, bs =>
    let b := ceilDiv (p * w) 8
    if need = 0 then ([], prev, some bs)
    else if bs.length < b ∨ w > 64 then ([], prev, none)
    else
      let k := min need p
      let vs := ((unpackNums w k (bs.take b)).foldl (fun (a : List Int × Int) d => (a.1 ++ [a.2 + least + d], a.2 + least + d)) ([], prev))
      let r := deltaMinis p least ws (need - k) vs.2 (bs.drop b)
      (vs.1 ++ r.1, r.2)

/-- The blocks of DELTA_BINARY_PACKED: m miniblocks of p values each. -/
def deltaBlocks (m p : Nat) : Nat → Nat → Int → List Byte → List Int
  | 0, _, _, _ => []
  | f + 1, need, prev, bs =>
    if need = 0 then []
    else match varint 10 bs with
      | .error _ => []
      | .ok (least, r) =>
        if r.length < m then []
        else
          let x := deltaMinis p (unzigzag least) ((r.take m).map BitVec.toNat) need prev (r.drop m)
          match x.2.2 with
          | none => x.1
          | some rest => x.1 ++ deltaBlocks m p f (need - x.1.length) x.2.1 rest

/-- DELTA_BINARY_PACKED values of k bytes. -/
def deltaValues (k n : Nat) (bs : List Byte) : List (List Byte) :=
  let go : Except Unread (List Int) := do
    let (block, r1) ← varint 5 bs
    let (minis, r2) ← varint 5 r1
    let (total, r3) ← varint 5 r2
    let (first, r4) ← varint 10 r3
    if minis = 0 ∨ block % minis ≠ 0 ∨ block = 0 then throw .bad
    let want := min n total
    if want = 0 then pure []
    else pure (unzigzag first :: deltaBlocks minis (block / minis) (want + 1) (want - 1) (unzigzag first) r4)
  match go with
  | .error _ => []
  | .ok l => l.map (fun v => leb k (v % 2 ^ (8 * k)).toNat)

/-- The values that dictionary indices name, up to the first out of range. -/
def dictValues (dict : List (List Byte)) (n : Nat) (bs : List Byte) : List (List Byte) :=
  match bs with
  | [] => []
  | w :: r =>
    if w.toNat > 32 then []
    else ((hybrid w.toNat (r.length + 1) n r).takeWhile (· < dict.length)).map (fun i => nth dict [] i)

/-- The values of a page in its encoding. -/
def pageValues (t enc n : Nat) (dict : List (List Byte)) (bs : List Byte) : List (List Byte) :=
  if enc = encPlain then plainValues t n bs
  else if enc = encDelta then deltaValues (pqWidth t) n bs
  else dictValues dict n bs

/-! Pages. -/

/-- One entry of a column: its levels, and its value where the definition level is the maximum. -/
structure PqItem where
  rep : Nat
  dfn : Nat
  val : List Byte

/-- Levels with their values, in order, as far as the values go. -/
def giveValues (full : Nat) : List (Nat × Nat) → List (List Byte) → List PqItem
  | [], _ => []
  | (r, d) :: t, vs =>
    if d ≠ full then ⟨r, d, []⟩ :: giveValues full t vs
    else match vs with
      | [] => []
      | v :: rest => ⟨r, d, v⟩ :: giveValues full t rest

/-- n levels of a maximum from their bytes, as far as they go and keep to it. -/
def levels (top n : Nat) (bs : List Byte) : List Nat :=
  if top = 0 then List.replicate n 0 else (hybrid (Nat.log2 top + 1) (bs.length + 1) n bs).takeWhile (· ≤ top)

/-- The bytes of the repetition levels, of the definition levels and of the values of a data page, none where they reach past the page. -/
def pageParts (e : List Byte) (h : PageHead) (body : List Byte) : Option (List Byte × List Byte × List Byte) :=
  if h.kind = pgData2 then
    if h.repLen + h.defLen > body.length then none
    else some (body.take h.repLen, sub body h.repLen h.defLen, body.drop (h.repLen + h.defLen))
  else
    let part := fun (top : Nat) (b : List Byte) =>
      if top = 0 then some ([], b)
      else if b.length < 4 ∨ b.length < 4 + fld b 0 4 then none else some (sub b 4 (fld b 0 4), b.drop (4 + fld b 0 4))
    do
      let (r, b1) ← part (maxRep e) body
      let (d, b2) ← part (maxDef e) b1
      pure (r, d, b2)

/-- The entries of a data page as far as they can be read. -/
def pageItems (e : List Byte) (h : PageHead) (dict : List (List Byte)) (body : List Byte) : List PqItem :=
  match pageParts e h body with
  | none => []
  | some (r, d, v) =>
    let ls := (levels (maxRep e) h.values r).zip (levels (maxDef e) h.values d)
    giveValues (maxDef e) ls (pageValues (pqType e) h.encoding (ls.countP (fun x => x.2 == maxDef e)) dict v)

/-- A chunk as far as it reads: its entries, each page's first entry and offset, and the DETAIL and offset at which reading fails. -/
structure PqRead where
  items : List PqItem
  pages : List (Nat × Nat)
  fail : Option (Nat × Nat)

/-- The pages of a chunk from an offset on, at most n. -/
def readPages (e chunk : List Byte) : Nat → Nat → List (List Byte) → PqRead → PqRead
  | 0, _, _, r => r
  | n + 1, off, dict, r =>
    let stop := fun (d : Nat) => { r with fail := some (d, off) }
    if off ≥ chunk.length then r
    else match readPageHead (chunk.drop off) with
      | .error d => stop d
      | .ok (h, k) =>
        let body := sub chunk (off + k) h.size
        if off + k + h.size > chunk.length then stop 0x0201
        else if pageRejects e h (off == 0) then stop 0x0502
        else if (h.crc.map (fun c => c != crc32 body)).getD false then stop 0x0202
        else if h.kind = pgDict then
          let vs := plainValues (pqType e) h.values body
          if vs.length < h.values then stop 0x0203 else readPages e chunk n (off + k + h.size) vs r
        else
          let is_ := pageItems e h dict body
          let r1 := { r with items := r.items ++ is_, pages := r.pages ++ [(r.items.length, off)] }
          if is_.length < h.values then { r1 with fail := some (0x0203, off) }
          else readPages e chunk n (off + k + h.size) dict r1

/-! Rows (R243, R244). -/

/-- A value in its Legend type's width, none outside the type's range (R244). -/
def pqValue (t : Nat) (v : List Byte) : Option (List Byte) :=
  let x := (BitVec.ofNat 32 (le v)).toInt
  if t = 1 then (if -128 ≤ x ∧ x ≤ 127 then some (v.take 1) else none)
  else if t = 2 then (if -32768 ≤ x ∧ x ≤ 32767 then some (v.take 2) else none)
  else if t = 5 then (if 0 ≤ x ∧ x ≤ 255 then some (v.take 1) else none)
  else if t = 6 then (if 0 ≤ x ∧ x ≤ 65535 then some (v.take 2) else none)
  else some v

/-- Rows gathered from entries: the cells, the last one open to more elements in a list, and of each cell its first entry; whether an entry breaks the
nesting, and the rows that hold a value outside its type. -/
structure PqRows where
  cells : List Cell
  starts : List Nat
  broken : Bool
  outside : List Nat

/-- One more entry, the i-th, gathered. -/
def PqRows.add (e : List Byte) (a : PqRows) (x : PqItem × Nat) : PqRows :=
  if a.broken then a
  else
    let full := x.1.dfn == maxDef e
    let v := pqValue (pqType e) x.1.val
    let out := if full && v.isNone then [if x.1.rep = 0 then a.cells.length else a.cells.length - 1] else []
    let val := v.getD []
    let new := fun (c : Cell) => { a with cells := a.cells ++ [c], starts := a.starts ++ [x.2], outside := a.outside ++ out }
    if !isList (colType e) then new (if full then .val val else .null)
    else
      let empty := b2n (colNullable e)
      let elem := if full then some val else none
      if x.1.rep = 0 then
        new (if x.1.dfn < empty then .null else if x.1.dfn = empty then .list [] else .list [elem])
      else match a.cells.getLast? with
        | some (.list (y :: ys)) =>
          if x.1.dfn ≤ empty then { a with broken := true }
          else { a with cells := a.cells.dropLast ++ [.list (y :: ys ++ [elem])], outside := a.outside ++ out }
        | _ => { a with broken := true }

/-- What a chunk decodes to: the cells of its rows, null ones past a failure, where each page's rows begin, and its failures. The entry of a Legend column, its
number, the chunk, the values its metadata state, the rows of the group. -/
def pqColumn (e : List Byte) (col : Nat) (chunk : List Byte) (numValues rows : Nat) :
    List Cell × List (Nat × Nat) × List IntakeFail :=
  let r := readPages e chunk (chunk.length + 1) 0 [] ⟨[], [], none⟩
  let g := r.items.zipIdx.foldl (PqRows.add e) ⟨[], [], false, []⟩
  let places := r.pages.map (fun p => ((g.starts.filter (· < p.1)).length, p.2))
  let n := g.cells.length
  let open_ := if isList (colType e) then n - 1 else n
  let offEnd := ((r.pages.getLast?).map Prod.snd).getD 0
  let broken := if g.broken then
      some (0x0203, placeOf places n)
    else match r.fail with
      | some f => some f
      | none => none
  let ends := match broken with
    | some (d, off) => [(⟨d, col, off, min open_ (rows - 1)⟩ : IntakeFail)]
    | none => if n ≠ rows ∨ r.items.length ≠ numValues then [⟨0x0204, col, offEnd, min n (rows - 1)⟩] else []
  let cells := g.cells.take (if broken.isSome then open_ else n)
  ((cells ++ List.replicate (rows - cells.length) Cell.null).take rows, places,
    ends ++ g.outside.map (fun x => ⟨0x0303, col, placeOf places x, x⟩))

end Sys2Proof.Machine
end

