-- ==== Sys2Proof/Machine/Intake.lean ====
section
/-!
DEFINITION. Table Intake: jobs (R236 to R239), the order of messages (R240), GDS decodes (R241), values (R245), output batches (R246 to R249), failures (R250),
suspension (R251) and back-pressure (R253).
-/
namespace Sys2Proof.Machine
open Sys2Proof

/-! Jobs. -/

def TableJob.inAddr (j : TableJob) : Nat := fld j.desc 0x10 8
def TableJob.inLen (j : TableJob) : Nat := fld j.desc 0x18 8
def TableJob.stateAddr (j : TableJob) : Nat := fld j.desc 0x30 8
def TableJob.flow (j : TableJob) : Nat := fld j.desc 0x38 4
def TableJob.base (j : TableJob) : Nat := fld j.desc 0x48 8
def TableJob.parquet (j : TableJob) : Bool := fld j.desc 2 1 == 1

/-- The bytes of a state area (R236). -/
def tableArea (leg : List Byte) : Nat := 256 + 16 * legColumns leg

/-- The entries of a chunk table (R237). -/
def chunkEntries (cols : Nat) (tbl : List Byte) : List (List Byte) := (List.range cols).map (fun c => sub tbl (32 * c) 32)

/-- The failures of R238 in table order. A chunk table field outside its range is a CHUNK_LENGTH or a NUM_VALUES of 0: DESIGN CHOICE, see log entry 72. -/
def tableFails (s : State) (ctx addr : Nat) (d : List Byte) : List (Bool × Err) :=
  let pq := fld d 2 1 == 1
  let eng := fld d 3 1
  let rows := fld d 4 4
  let inA := fld d 0x10 8; let inL := fld d 0x18 8
  let outA := fld d 0x20 8; let outL := fld d 0x28 8
  let st := fld d 0x30 8
  let flow := fld d 0x38 4
  let leg := s.units.legends.find (fld d 8 8)
  let cols := (leg.map (fun l => legColumns l.bytes)).getD 0
  let tbl := if pq then (s.peek ctx inA (32 * cols)).getD [] else []
  let chunkRs := if pq then (chunkEntries cols tbl).map (fun c => (fld c 0 8, fld c 8 8)) else []
  let ins := if pq then (inA, 32 * cols) :: chunkRs else [(inA, inL)]
  let area := (st, 256 + 16 * cols)
  [ fieldErr stArg 0 ([(decide (fld d 2 1 > 1), 2), (flowReserved flow, 0x38)] ++ reservedBytes d [(0x3C, 4), (0x50, 48)]
      ++ [((chunkEntries cols tbl).any (fun c => !fldZero c 0x18 8), 0x10)]),
    fieldErr stRange 0 [(eng > 15 && eng != 0xFF, 3), (rows < 64 || rows > 1048576, 4),
      (if pq then inL < 1 || inL > 2147483647 else inL < 8, 0x18), (outL == 0, 0x28),
      ((chunkEntries cols tbl).any (fun c => fld c 8 8 == 0 || fld c 0x10 8 == 0), 0x10)],
    fieldErr stAlign 0 [(pq && inA % 64 != 0, 0x10), (outA % 64 != 0, 0x20), (outL % 64 != 0, 0x28), (st % 64 != 0, 0x30),
      (addr % 64 != 0, 0xFFFF)],
    ((area :: ins).any (rangesMeet (outA, outL)), err0 stOverlap),
    rangesRow s ctx (ins.map (fun r => (r.1, r.2, Need.r)) ++ [(outA, outL, .w), (area.1, area.2, .w)]),
    fieldErr stPerm 0 [((leg.map (fun l => l.ctx != ctx)).getD false, 8), (flowForeign s ctx flow, 0x38)],
    fieldErr stState 0 [(leg.isNone, 8), (!flowUsable s flow, 0x38)] ]

/-- A Table Intake job checked and queued. -/
def tableIssue (iss : Issuer) (ctx addr : Nat) (s : State) : State :=
  s.withDesc iss ctx addr 128 5 (fun d s =>
    s.checkOp iss ctx 5 0 (tableFails s ctx addr d) (fun s =>
      let e := pickEngine 16 (fun e => (s.tableEng e).load) (fld d 3 1)
      let leg := ((s.units.legends.find (fld d 8 8)).map Legend.bytes).getD []
      let j : TableJob := ⟨JobHead.first iss ctx (fld d 0x20 8) (fld d 0x28 8), d, leg, none, 0, 0, 0, 0, []⟩
      s.setTable e { s.tableEng e with queue := (s.tableEng e).queue ++ [j] }))

/-! Values (R244, R245). -/

/-- Continuation bytes of a UTF-8 sequence. -/
def utf8Tail (l : List Byte) (n : Nat) : Bool := l.length == n && l.all (fun b => b.toNat / 64 == 2)

/-- Well-formed UTF-8 (R245), in at most n sequences. -/
def utf8Go : Nat → List Byte → Bool
  | _, [] => true
  | 0, _ => false
  | n + 1, a :: t =>
    let x := a.toNat
    let b := fld t 0 1
    if x < 0x80 then utf8Go n t
    else if 0xC2 ≤ x && x ≤ 0xDF then utf8Tail (t.take 1) 1 && utf8Go n (t.drop 1)
    else if 0xE0 ≤ x && x ≤ 0xEF then
      utf8Tail (t.take 2) 2 && (x != 0xE0 || b ≥ 0xA0) && (x != 0xED || b < 0xA0) && utf8Go n (t.drop 2)
    else if 0xF0 ≤ x && x ≤ 0xF4 then
      utf8Tail (t.take 3) 3 && (x != 0xF0 || b ≥ 0x90) && (x != 0xF4 || b < 0x90) && utf8Go n (t.drop 3)
    else false

/-- Whether bytes are well-formed UTF-8. -/
def utf8Ok (b : List Byte) : Bool := utf8Go b.length b

/-- A value as delivered: one that fails R245 becomes null where the Legend says so. -/
def nulled (e : List Byte) (c : Cell) : Bool :=
  match c with
  | .val b => colType e == tUtf8 && bit (fld e 3 1) 2 && !utf8Ok b
  | _ => false

/-- The failures of a column's values (R244, R245), by row. -/
def valueFails (e : List Byte) (col : Nat) (places : List (Nat × Nat)) (cells : List Cell) : List IntakeFail :=
  let fail := fun (d row : Nat) => some (⟨d, col, placeOf places row, row⟩ : IntakeFail)
  cells.zipIdx.filterMap (fun p => match p.1 with
    | .null => if colNullable e then none else fail 0x0301 p.2
    | .val b => if colType e = tUtf8 ∧ !utf8Ok b ∧ !bit (fld e 3 1) 2 then fail 0x0302 p.2 else none
    | .list es => if es.any Option.isNone && !colElemNullable e then fail 0x0301 p.2 else none)

/-- The unit of a row group (R242, R243): each chunk decoded, and what fails in it. -/
def parquetUnit (j : TableJob) (s : State) : Except Err IntakeUnit × State :=
  match Io.exec (do
      let tbl ← memRead j.head.ctx j.inAddr (32 * legColumns j.legend)
      (chunkEntries (legColumns j.legend) tbl).mapM (fun c => do
        let b ← memRead j.head.ctx (fld c 0 8) (fld c 8 8)
        pure (b, fld c 0x10 8))) s with
  | (.error e, s') => (.error e, s')
  | (.ok bs, s') =>
    let r := ((legEntries j.legend).zip bs).zipIdx.map (fun p => pqColumn p.1.1 p.2 p.1.2.1 p.1.2.2 j.inLen)
    (.ok ⟨j.inLen, r.map Prod.fst, r.map (fun x => x.2.1), r.flatMap (fun x => x.2.2)⟩, s')

/-! What comes next. -/

/-- What a job does next: nothing more, a failure, an access that failed, the GDS frames of a message to be decoded, the buffers it then has, a wait for them,
or a unit to deliver rows of. -/
inductive IntakeNext where
  | ended
  | fails (f : IntakeFail)
  | refused (e : Err)
  | decode (frames : List GdsDecode) (bufs : List (Option (Option (List Byte))))
  | waits
  | rows (u : IntakeUnit)

/-- The GDS frames among the buffers of a message (R241). -/
def framesOf (e : Nat) (bufs : List (List Byte)) : List GdsDecode :=
  bufs.zipIdx.filterMap (fun p => if holdsFrame p.1 then some ⟨e, p.2, p.1.drop 8, fld p.1 0 8⟩ else none)

/-- What a RecordBatch gives: its buffers checked against its body, its frames decoded by the codec's lanes first, then its unit. -/
def batchNext (e : Nat) (j : TableJob) (m : ArrowMessage) (fs : List ArrowField) (rows : Nat) (nodes bufs : List (Nat × Nat))
    (body : List Byte) : IntakeNext :=
  match arrowBuffers j.legend fs j.pos bufs body with
  | .error f => .fails f
  | .ok bs =>
    let stored := bs.map (fun b => if gdsMarked m then gdsStored b else some (some b))
    let now := if j.decodes.isEmpty then stored else j.decodes
    if now.any Option.isNone then if j.decodes.isEmpty then .decode (framesOf e bs) stored else .waits
    else match arrowUnit j.legend fs rows j.pos nodes (now.map (fun x => x.getD none)) with
      | .error f => .fails f
      | .ok u => .rows u

/-- The next unit of an Arrow stream with undelivered rows, messages read in order (R240), at most n of them. -/
def arrowNext (e : Nat) : Nat → TableJob → State → IntakeNext × TableJob × State
  | 0, j, s => (.ended, j, s)
  | n + 1, j, s =>
    let fail := fun d => (IntakeNext.fails ⟨d, 0, j.pos, 0⟩, j, s)
    let left := j.inLen - j.pos
    if left = 0 then if j.fields.isNone then fail 0x0101 else (.ended, j, s)
    else if left < 8 then fail 0x0101
    else match Io.exec (memRead j.head.ctx (j.inAddr + j.pos) 8) s with
      | (.error er, s1) => (.refused er, j, s1)
      | (.ok h, s1) =>
        let len := fld h 4 4
        if fld h 0 4 ≠ 0xFFFF_FFFF then fail 0x0501
        else if len = 0 then if j.fields.isNone then fail 0x0101 else (.ended, { j with pos := j.inLen }, s1)
        else if len % 8 ≠ 0 then fail 0x0101
        else if len > 2 ^ 20 then fail 0x0403
        else if left < 8 + len then fail 0x0101
        else match Io.exec (memRead j.head.ctx (j.inAddr + j.pos + 8) len) s1 with
          | (.error er, s2) => (.refused er, j, s2)
          | (.ok b, s2) => match Config.arrowMessage b with
            | none => fail 0x0101
            | some m =>
              let next := { j with pos := j.pos + 8 + len + m.bodyLength, row := 0, decodes := [] }
              if arrowRejects m j.fields.isNone then fail 0x0501
              else if left < 8 + len + m.bodyLength then fail 0x0101
              else match m.header, j.fields with
                | .schema _ fs, _ =>
                  match (legEntries j.legend).zipIdx.find? (fun p => match fs[fld p.1 4 2]? with
                      | none => true
                      | some f => !arrowMatches p.1 f) with
                  | some p => (.fails ⟨0x0102, p.2, j.pos, 0⟩, j, s2)
                  | none => arrowNext e n { next with fields := some fs } s2
                | .recordBatch rows nodes bufs _, some fs =>
                  if 0 < rows ∧ j.row ≥ rows then arrowNext e n next s2
                  else match Io.exec (memRead j.head.ctx (j.inAddr + j.pos + 8 + len) m.bodyLength) s2 with
                    | (.error er, s3) => (.refused er, j, s3)
                    | (.ok body, s3) => match batchNext e j m fs rows nodes bufs body with
                      | .rows u => if u.rows = 0 then arrowNext e n next s3 else (.rows u, j, s3)
                      | x => (x, j, s3)
                | _, _ => fail 0x0501

/-- What a job does next. -/
def intakeNext (e : Nat) (j : TableJob) (s : State) : IntakeNext × TableJob × State :=
  if j.parquet then
    if j.row ≥ j.inLen then (.ended, j, s)
    else match parquetUnit j s with
      | (.error er, s1) => (.refused er, j, s1)
      | (.ok u, s1) => (.rows u, j, s1)
  else arrowNext e (j.inLen / 8 + 2) j s

/-- The rows of a unit from row a on, n of them, in every column. -/
def IntakeUnit.cut (u : IntakeUnit) (a n : Nat) : List (List Cell) := u.cols.map (fun c => (c.drop a).take n)

/-- The cells as delivered. -/
def delivered (leg : List Byte) (cols : List (List Cell)) : List (List Cell) :=
  ((legEntries leg).zip cols).map (fun p => p.2.map (fun c => if nulled p.1 c then .null else c))

/-- Every failure of a unit's values and of its input, by row. -/
def IntakeUnit.allFails (u : IntakeUnit) (leg : List Byte) : List IntakeFail :=
  u.fails ++ ((legEntries leg).zip u.cols).zipIdx.flatMap (fun p =>
    let places := nth u.places [] p.2
    lengthFails p.1.1 p.2 places p.1.2 ++ valueFails p.1.1 p.2 places p.1.2)

/-- A failure with its row counted from the job's first. -/
def TableJob.onJob (j : TableJob) (f : IntakeFail) : IntakeFail := { f with row := j.total - j.row + f.row }

/-- The next batch of a unit (R246): its rows, the first failure among them, and whether even one row does not fit. -/
structure IntakeBatch where
  n : Nat
  fail : Option IntakeFail
  cols : List (List Cell)
  nulls : Nat

def nextBatch (j : TableJob) (u : IntakeUnit) : IntakeBatch :=
  let want := min (fld j.desc 4 4) (u.rows - j.row)
  let raw := u.cut j.row want
  let n := fitRows j.legend (delivered j.legend raw) (j.head.outLen - j.head.outP) want
  let cut := u.cut j.row n
  let bad := (u.allFails j.legend).filter (fun f => j.row ≤ f.row && f.row < j.row + n)
  ⟨n, (firstFailure bad).map (j.onJob), delivered j.legend cut,
    (((legEntries j.legend).zip cut).map (fun p => (p.2.filter (nulled p.1)).length)).sum⟩

/-! Events. -/

/-- The locus that a failing job leaves in its state area (R250). -/
def locus (f : IntakeFail) (base : Nat) : List Byte := leb 2 f.col ++ zeros 6 ++ leb 8 f.off ++ leb 8 (base + f.row)

/-- TABLE_INTAKE_START: a free engine takes the oldest job of its queue (R239); a resumed one finds its state as it left it, or ends (R251). -/
def tableStart (e : Nat) (s : State) : State :=
  let g := s.tableEng e
  match g.run, g.queue with
  | none, j :: t =>
    if !s.works (unitTable e) then s
    else if j.head.saved.isEmpty then s.setTable e ⟨t, some j⟩
    else
      let s1 := s.setTable e ⟨t, none⟩
      match s1.areaIntact j.head.ctx j.stateAddr j.head.saved with
      | (.error er, s2) => s2.endJob j.head 5 er
      | (.ok true, s2) => s2.setTable e ⟨t, some { j with head := { j.head with saved := [] } }⟩
      | (.ok false, s2) =>
        (s2.writeDropped j.head.ctx j.stateAddr (locus ⟨0x0601, 0, j.pos, j.total⟩ j.base)).endJob j.head 5 (errD stCorrupt 0x0601)
  | _, _ => s

/-- A running job ends with a failure of R250; n bytes of the batch in progress are undefined. -/
def tableFail (e : Nat) (j : TableJob) (f : IntakeFail) (n : Nat) (s : State) : State :=
  let g := s.tableEng e
  let s1 := (s.scramble j.head.ctx (j.head.outAddr + j.head.outP) n).writeDropped j.head.ctx j.stateAddr (locus f j.base)
  (s1.setTable e { g with run := none }).endJob j.head 5 (errD (intakeStatus f.detail) f.detail)

/-- A running job suspended for want of output space: its state saved, or the refusal of that (R251). -/
def tableSuspend (e : Nat) (j : TableJob) (s : State) : State :=
  let s1 := s.setTable e { s.tableEng e with run := none }
  match s1.saveArea j.head.ctx j.stateAddr (tableArea j.legend) with
  | (.error er, s2) => s2.endJob j.head 5 { er with detail := 4 }
  | (.ok b, s2) => s2.suspendJob { j.head with saved := b } 5 j.stateAddr (fun h => .table e { j with head := h })

/-- A batch written, counted, and its item offered (R247 to R249). -/
def tableWrite (e : Nat) (j : TableJob) (b : IntakeBatch) (s : State) : State :=
  let g := s.tableEng e
  let addr := j.head.outAddr + j.head.outP
  let info : BatchInfo := ⟨b.n, j.batches, (j.base + j.total) % 2 ^ 64, sub j.desc 0x40 8, b.nulls⟩
  let img := batchImage j.legend addr info b.cols
  match Io.exec (memWrite j.head.ctx addr img) s with
  | (.error er, s1) =>
    ((s1.scramble j.head.ctx addr img.length).setTable e { g with run := none }).endJob j.head 5 { er with detail := 4 }
  | (.ok _, s1) =>
    let body := batchItem addr info (fld j.desc 8 8)
    let r := if j.flow = 0xFFFF_FFFF then (true, s1) else s1.emit j.flow body 1 e
    let j1 := { j with
      head := { j.head with inC := j.head.inC + b.n, outP := j.head.outP + img.length, held := if r.1 then none else some body }
      row := j.row + b.n
      total := j.total + b.n
      batches := j.batches + 1 }
    r.2.setTable e { g with run := some j1 }

/-- The frames of a message join the queues of the codec's engines, each at one chosen freely, in order (R241, R406): DESIGN CHOICE, see log entry 73. -/
def sendDecodes (e : Nat) (j : TableJob) (frames : List GdsDecode) (bufs : List (Option (Option (List Byte)))) (s : State) : State :=
  frames.foldl (fun a f => codecEnqueue (a.draw.1 % 16) (.gds f) a.draw.2)
    (s.setTable e { s.tableEng e with run := some { j with decodes := bufs } })

/-- INTAKE_BATCH_OUTPUT: the next batch is written, or the job is suspended for want of space; the frames of a message that comes to be delivered
are first handed to the codec. -/
def intakeOutput (e : Nat) (s : State) : State :=
  match (s.tableEng e).run with
  | none => s
  | some j =>
    if j.head.held.isSome ∨ !s.works (unitTable e) then s
    else match intakeNext e j s with
      | (.decode frames bufs, j1, s1) => sendDecodes e j1 frames bufs s1
      | (.rows u, j1, s1) =>
        let b := nextBatch j1 u
        if b.n = 0 then tableSuspend e j1 s1
        else match b.fail with
          | some _ => s
          | none => tableWrite e j1 b s1
      | _ => s

/-- TABLE_INTAKE_END: the job ends, done or with a failure, once its last item is in its flow. -/
def tableEnd (e : Nat) (s : State) : State :=
  match (s.tableEng e).run with
  | none => s
  | some j =>
    if j.head.held.isSome ∨ !s.works (unitTable e) then s
    else match intakeNext e j s with
      | (.decode frames bufs, j1, s1) => sendDecodes e j1 frames bufs s1
      | (.waits, _, _) => s
      | (.ended, _, s1) => (s1.setTable e { s1.tableEng e with run := none }).endJob j.head 5 (err0 stOk)
      | (.fails f, j1, s1) => tableFail e j1 (j1.onJob f) 0 s1
      | (.refused er, j1, s1) => (s1.setTable e { s1.tableEng e with run := none }).endJob j1.head 5 er
      | (.rows u, j1, s1) =>
        let b := nextBatch j1 u
        match b.fail with
        | none => s
        | some f => tableFail e j1 f (batchImage j1.legend 0 ⟨b.n, 0, 0, [], 0⟩ b.cols).length s1

/-- INTAKE_OUTPUT_RESUME: a held item enters its flow, and the engine goes on (R253). -/
def intakeResume (e : Nat) (s : State) : State :=
  let g := s.tableEng e
  match g.run with
  | none => s
  | some j => match j.head.held with
    | none => s
    | some body =>
      if !s.works (unitTable e) then s
      else
        let r := s.emit j.flow body 1 e
        if r.1 then r.2.setTable e { g with run := some { j with head := { j.head with held := none } } } else s

/-- A suspended job resumed: it waits for its engine again, its output space aligned as R236 asks. -/
def tableResume (e : Nat) (j : TableJob) (iss : Issuer) (outAddr outLen : Nat) (s : State) : State :=
  let j1 := { j with head := j.head.again iss outAddr outLen }
  if outAddr % 64 ≠ 0 then s.endJob j1.head 5 (err0 stAlign)
  else s.setTable e { s.tableEng e with queue := (s.tableEng e).queue ++ [j1] }

/-! The rows. -/

def execTableIntakeJob (t : Fin 8192) (w : Insn) (s : State) : Host.Outcome State Fault Refusal :=
  .next (issueJob (· == 5) 5 tableIssue t w s)
def execTableIntakeStart (e : Fin 16) (s : State) : Host.Outcome State Fault Refusal := .next (tableStart e s)
def execIntakeBatchOutput (e : Fin 16) (s : State) : Host.Outcome State Fault Refusal := .next (intakeOutput e s)
def execIntakeOutputResume (e : Fin 16) (s : State) : Host.Outcome State Fault Refusal := .next (intakeResume e s)
def execTableIntakeEnd (e : Fin 16) (s : State) : Host.Outcome State Fault Refusal := .next (tableEnd e s)

end Sys2Proof.Machine
end

