-- ==== Sys2Proof/Machine/JoinTab.lean ====
section
/-!
DEFINITION. Thread tables in the Join store (R276 to R280).
-/
namespace Sys2Proof.Machine
open Sys2Proof

/-! Regions (R276). -/

/-- The fields of a Join store handle. -/
def handleVa (h : Nat) : Nat := bits h 47 0
def handlePages (h : Nat) : Nat := bits h 62 48 + 1

/-- The physical pages of a region in a context: the first page that fails the ATU, or that is not of the Join store, decides the error. -/
def regionPages (s : State) (ctx h : Nat) (n : Need) : Except Err (List Nat) :=
  (List.range (handlePages h)).mapM (fun i =>
    match atu s ctx (handleVa h + 4096 * i) n with
    | .error e => .error ⟨e, n.detail, 0xFFFF, 0⟩
    | .ok (pa, _) => if joinStoreBase ≤ pa ∧ pa < storeEnd then .ok pa else .error ⟨stXlate, n.detail, 0xFFFF, 0⟩)

/-- The slice that owns a page of the Join store. -/
def sliceOf (pa : Nat) : Nat := (pa - joinStoreBase) / 0x40_0000

/-- The pages that join jobs have claimed (R285): those of jobs that have started and not ended. -/
def State.joinClaims (s : State) : List Nat :=
  s.units.join.vals.flatMap (fun e => (e.queue ++ e.run.toList).flatMap JoinJob.pages) ++ s.units.susp.vals.flatMap (fun x =>
    match x.job with
    | .join _ j => j.pages
    | _ => [])

/-- The bytes of pages. -/
def pageBytesOf (s : State) (pages : List Nat) : List Byte := pages.flatMap (fun p => s.mem.read p 4096)

/-- Pages written with bytes. -/
def writePages (s : State) (pages : List Nat) (b : List Byte) : State :=
  { s with mem := (pages.zipIdx).foldl (fun m p => m.write p.1 (sub b (4096 * p.2) 4096)) s.mem }

/-- Pages zeroed (R285). -/
def zeroPages (s : State) (pages : List Nat) : State := { s with mem := pages.foldl (fun m p => m.zero p 4096) s.mem }

/-- Pages whose contents are the slice engine's own: free values, not all zero. -/
def stirPages (s : State) (pages : List Nat) : List Byte × State :=
  let b := (s.drawBytes (4096 * pages.length)).1
  let s1 := (s.drawBytes (4096 * pages.length)).2
  let c := match b with
    | [] => []
    | x :: t => BitVec.ofNat 8 (1 + x.toNat % 255) :: t
  (c, writePages s1 pages c)

/-! Tables (R277, R278). -/

/-- What a region holds: a table's entries, or contents that nothing fixes because software has written them (R276). -/
def tableOf (s : State) (pages : List Nat) : Option (List (Nat × Nat)) :=
  let b := pageBytesOf s pages
  match s.units.joins.find? (fun t => t.pages == pages) with
  | some t => if t.snap = b then some t.entries else if b.all (· == 0) then some [] else none
  | none => if b.all (· == 0) then some [] else none

/-- The table of a region replaced, its bytes stirred; none for a region whose contents nothing fixes. -/
def putTable (s : State) (pages : List Nat) (entries : Option (List (Nat × Nat))) : State :=
  let r := stirPages s pages
  let rest := r.2.units.joins.filter (fun t => t.pages != pages)
  { r.2 with units := { r.2.units with joins := match entries with
    | none => rest
    | some es => rest ++ [⟨pages, r.1, es⟩] } }

/-- A 64-bit key of pair A at an element. -/
def pairKey (th : Thread) (a i : Nat) : Nat := (elem (th.rv a) i).toNat + 2 ^ 32 * (elem (th.rv (a + 1)) i).toNat

/-- The inserts of one JINS in element order: the entries then, and each element's result (R277). -/
def insertAll (limit : Nat) : List (Nat × Nat × Nat) → List (Nat × Nat) → State → List (Nat × Nat) × List (Nat × Nat) × State
  | [], es, s => (es, [], s)
  | (i, k, p) :: t, es, s =>
    let full := es.length ≥ limit
    let ok := !full || (s.draw).1 % 2 == 0
    let s1 := if full then (s.draw).2 else s
    let r := insertAll limit t (if ok then es ++ [(k, p)] else es) s1
    (r.1, (i, b2n (!ok)) :: r.2.1, r.2.2)

/-! The instruction (R128, R280). -/

/-- A fault of a JOIN instruction (R280), or the pages of its region; the region is read for parity. -/
def joinRegion (t : Nat) (h : Nat) (n : Need) (s : State) : Except Err (List Nat) × State :=
  let ctx := s.ctxOf t
  if bit h 63 then (.error (fErr stArg 1), s)
  else if handleVa h % 4096 ≠ 0 then (.error (fErr stAlign 5), s)
  else match regionPages s ctx h n with
    | .error e => (.error e, s.countRefused ctx e.status)
    | .ok pages =>
      if pages.any s.joinClaims.contains then (.error (fErr stState 7), s)
      else match Io.exec (memRead ctx (handleVa h) (4096 * pages.length)) s with
        | (.error e, s1) => (.error { e with detail := 3 }, s1)
        | (.ok _, s1) => (.ok pages, s1)

/-- A synchronous result in a load slot. -/
def takeJoinSlot (t d0 d1 : Nat) (elems : List (Nat × Nat × Nat)) (s : State) : Issue :=
  let th := s.thread t
  match th.freeSlot with
  | none => .stay (s.block t .loadSlot)
  | some k => .next (s.modThread t (fun th => { th with
      slots := th.slots.set k (some ⟨.join d0 d1 elems, 0, th.nextOrder, th.pc⟩), nextOrder := th.nextOrder + 1 }))

/-- A JOIN instruction on the region of a handle, past the faults and once its slices can act and a load slot is free; it sees the thread's stores (R118). -/
def withRegion (t h : Nat) (n : Need) (s : State) (go : List Nat → State → Issue) : Issue :=
  if (s.thread t).freeSlot.isNone then .stay (s.block t .loadSlot)
  else withStores t s (fun s =>
    match joinRegion t h n s with
    | (.error e, s1) => .fault e (handleVa h) s1
    | (.ok pages, s1) => if pages.all (fun p => s.active (unitJoin (sliceOf p))) then go pages s1 else .stay s)

/-- The handle in S[B]. -/
def State.joinHandle (s : State) (t : Nat) (w : Insn) : Nat := ((s.thread t).rs (insB w)).toNat

def jinsRun (t : Nat) (w : Insn) (s : State) : Issue :=
  withRegion t (s.joinHandle t w) .rw s (fun pages s =>
    let th := s.thread t
    let act := th.active (insM w)
    let keys := act.map (fun i => (i, pairKey th (insA w) i, (elem (th.rv (insA w + 2)) i).toNat))
    match tableOf s pages with
    | some es =>
      let r := insertAll (224 * pages.length) keys es s
      takeJoinSlot t (insD w) 16 (r.2.1.map (fun x => (x.1, x.2, 0))) (putTable r.2.2 pages (some r.1))
    | none =>
      let b := (s.drawBytes act.length).1
      takeJoinSlot t (insD w) 16 ((act.zip b).map (fun x => (x.1, x.2.toNat % 2, 0))) (putTable (s.drawBytes act.length).2 pages none))

/-- The payloads of a key's entries in insert order. -/
def matchesOf (es : List (Nat × Nat)) (k : Nat) : List Nat := (es.filter (fun e => e.1 == k)).map Prod.snd

/-- The payloads that a probe of a region nothing fixes finds: free values, their number too. -/
def freeMatches (s : State) : List Nat × State :=
  let n := (s.draw).1
  ((List.range n).map (fun i => Config.freeNat (s.free + 1 + i) % 2 ^ 32), { s with free := s.free + 1 + n })

/-- What JPROBE and JNEXT deliver for an element: the first of its payloads and a count. -/
def firstMatch (l : List Nat) : Nat := l.headD 0xFFFF_FFFF

def jprobeRun (t : Nat) (w : Insn) (s : State) : Issue :=
  withRegion t (s.joinHandle t w) .r s (fun pages s =>
    let th := s.thread t
    let act := th.active (insM w)
    let r := match tableOf s pages with
      | some es => (act.map (fun i => (i, matchesOf es (pairKey th (insA w) i))), s)
      | none => act.foldl (fun (a : List (Nat × List Nat) × State) i =>
          let m := freeMatches a.2
          (a.1 ++ [(i, m.1)], m.2)) ([], s)
    takeJoinSlot t (insD w) (insD w + 1) (r.1.map (fun x => (x.1, firstMatch x.2, min x.2.length 0xFFFF_FFFF)))
      (r.2.modThread t (fun th => { th with cursor := some ⟨(th.rs (insB w)).toNat, r.1.map (fun x => (x.1, x.2.drop 1))⟩ })))

/-- JNEXT acts on the region of its thread's cursor (R276, R280). -/
def jnextRun (t : Nat) (w : Insn) (s : State) : Issue :=
  match (s.thread t).cursor with
  | none => .fault (fErr stState 7) 0 s
  | some c => withRegion t c.table .r s (fun _ s =>
    let left := fun i => ((c.remaining.find? (fun x => x.1 == i)).map Prod.snd).getD []
    let act := (s.thread t).active (insM w)
    takeJoinSlot t (insD w) (insD w + 1) (act.map (fun i => (i, firstMatch (left i), (left i).length - 1)))
      (s.modThread t (fun th => { th with cursor := some { c with
        remaining := c.remaining.map (fun x => if act.contains x.1 then (x.1, x.2.drop 1) else x) } })))

/-- JOIN encodings. -/
def joinOk (w : Insn) : Bool :=
  insT w == 0 && (match insF w with
    | 0 => vQuad (insA w) && vOk (insD w)
    | 1 => vPair (insA w) && vPair (insD w)
    | 2 => insA w == 0 && insB w == 0 && vPair (insD w)
    | _ => false)

/-- JINS, and the reserved functions of JOIN. -/
def rowJins : Row where
  mine := fun w => isMajor 0x3D w && (insF w == 0 || insF w ≥ 3)
  ok := joinOk
  reads := fun w => [rV (insA w), rV (insA w + 1), rV (insA w + 2), rS (insB w), rM (insM w)] ++ keeps w [rV (insD w)]
  writes := fun w => [rV (insD w)]
  run := jinsRun

def rowJprobe : Row where
  mine := fun w => isMajor 0x3D w && insF w == 1
  ok := joinOk
  reads := fun w => [rV (insA w), rV (insA w + 1), rS (insB w), rM (insM w)] ++ keeps w [rV (insD w), rV (insD w + 1)]
  writes := fun w => [rV (insD w), rV (insD w + 1)]
  run := jprobeRun

def rowJnext : Row where
  mine := fun w => isMajor 0x3D w && insF w == 2
  ok := joinOk
  reads := fun w => rM (insM w) :: keeps w [rV (insD w), rV (insD w + 1)]
  writes := fun w => [rV (insD w), rV (insD w + 1)]
  run := jnextRun

/-! The rows. -/

def execJins (t : Fin 8192) (w : Insn) (s : State) : Host.Outcome State Fault Refusal := .next (rowJins.issue t w s)
def execJprobe (t : Fin 8192) (w : Insn) (s : State) : Host.Outcome State Fault Refusal := .next (rowJprobe.issue t w s)
def execJnext (t : Fin 8192) (w : Insn) (s : State) : Host.Outcome State Fault Refusal := .next (rowJnext.issue t w s)

end Sys2Proof.Machine
end

