-- ==== Sys2Proof/Machine/JoinJob.lean ====
section
/-!
DEFINITION. Join jobs (R281 to R292).
-/
namespace Sys2Proof.Machine
open Sys2Proof

def State.joinEng (s : State) (e : Nat) : Engine JoinJob := s.units.join.at Engine.idle e
def State.setJoin (s : State) (e : Nat) (x : Engine JoinJob) : State :=
  { s with units := { s.units with join := s.units.join.upd Engine.idle e x } }

/-! The descriptor (R281). -/

def jjAction (d : List Byte) : Nat := fld d 2 1
def jjType (d : List Byte) : Nat := fld d 3 1
def jjKeys (d : List Byte) : Nat := fld d 4 1
def jjKey (d : List Byte) (off c : Nat) : Nat := fld d (off + 2 * c) 2
def jjRegion (d : List Byte) : Nat := fld d 0x40 8
def jjOutCols (d : List Byte) : Nat := fld d 0x68 2
def jjStateAddr (d : List Byte) : Nat := fld d 0x80 8
def jjFlow (d : List Byte) : Nat := fld d 0x88 4

/-- The directory addresses of a batch list, as far as it can be read. -/
def batchList (s : State) (ctx addr n : Nat) : List Nat :=
  (chunks 8 n ((s.peek ctx addr (8 * n)).getD [])).map le

/-! Checks (R274, R276, R282). -/

/-- Whether key column c of a side is none that a join accepts: out of its Legend, of a type that is no key, or past 16 bytes. off is where the side's key
columns stand in the descriptor. -/
def badKeyOf (d leg : List Byte) (off c : Nat) : Bool :=
  let k := jjKey d off c
  let t := colType (legEntry leg k)
  let w := ((List.range (c + 1)).map (fun i => typeBytes (colType (legEntry leg (jjKey d off i))))).sum
  !leg.isEmpty && !(k < legColumns leg && (isInt t || t == tBool || t == tTime) && w ≤ 16)

/-- The first key column that a join does not accept, on either side, or unlike its partner. -/
def badKey (d bLeg pLeg : List Byte) : Option Nat :=
  (List.range (min (jjKeys d) 4)).find? (fun c =>
    badKeyOf d bLeg 0x30 c || (jjAction d != 2 && (badKeyOf d pLeg 0x38 c || (!bLeg.isEmpty && !pLeg.isEmpty &&
      (colType (legEntry bLeg (jjKey d 0x30 c)) != colType (legEntry pLeg (jjKey d 0x38 c)) ||
        colUnit (legEntry bLeg (jjKey d 0x30 c)) != colUnit (legEntry pLeg (jjKey d 0x38 c)))))))

/-- The first output column that a join does not accept. -/
def badOut (d bLeg pLeg oLeg map : List Byte) : Option Nat :=
  (List.range (map.length / 2)).find? (fun j =>
    let m := fld map (2 * j) 2
    let build := bit m 15
    let leg := if build || jjAction d == 2 then bLeg else pLeg
    let e := legEntry leg (bits m 9 0)
    bits m 14 10 != 0 || (build && jjAction d != 2 && jjType d ≥ 2) || (!leg.isEmpty &&
      (!(bits m 9 0 < legColumns leg) || (!oLeg.isEmpty &&
        (!outMatches (legEntry oLeg j) e || (build && jjAction d != 2 && jjType d == 1 && !colNullable (legEntry oLeg j)))))))

/-- The refused access of a join job's check, whose DETAIL is 0 (R274): the ranges it names, then the pages of its region (R276). -/
def joinRefused (s : State) (ctx : Nat) (d : List Byte) : Option Err :=
  let two := jjAction d == 2
  let dirs := fun (a n : Nat) (h : Nat) => (batchList s ctx a (min n 65536)).map (fun x => (x, 64 + 48 * legColumns (s.legendBytes h), Need.r))
  let sides := [(fld d 0x10 8, 8 * fld d 0x18 4, Need.r)] ++ (if two then [] else [(fld d 0x28 8, 8 * fld d 0x1C 4, Need.r)])
    ++ dirs (fld d 0x10 8) (fld d 0x18 4) (fld d 8 8) ++ (if two then [] else dirs (fld d 0x28 8) (fld d 0x1C 4) (fld d 0x20 8))
  (accessErr s ctx ((sides ++ [(fld d 0x48 8, fld d 0x50 8, Need.rw), (fld d 0x60 8, 2 * jjOutCols d, .r), (fld d 0x70 8, fld d 0x78 8, .w),
      (jjStateAddr d, 1024, .w)]).map (fun r => (r, 0)))).or
    (match regionPages s ctx (jjRegion d) .rw with
      | .error e => some (errD e.status 0)
      | .ok _ => none)

/-- The failures of a join job in table order. -/
def joinFails (s : State) (ctx addr : Nat) (d : List Byte) : List (Bool × Err) :=
  let two := jjAction d == 2
  let bH := fld d 8 8; let pH := fld d 0x20 8; let oH := fld d 0x58 8
  let bLeg := s.legendBytes bH
  let pLeg := if two then [] else s.legendBytes pH
  let oLeg := s.legendBytes oH
  let bN := fld d 0x18 4; let pN := fld d 0x1C 4
  let bA := fld d 0x10 8; let pA := fld d 0x28 8
  let spA := fld d 0x48 8; let spL := fld d 0x50 8
  let oA := fld d 0x70 8; let oL := fld d 0x78 8
  let oc := jjOutCols d
  let map := (s.peek ctx (fld d 0x60 8) (2 * min oc 1024)).getD []
  let bDirs := batchList s ctx bA (min bN 65536)
  let pDirs := if two then [] else batchList s ctx pA (min pN 65536)
  let unused := fun (off : Nat) => (List.range 4).any (fun c => c ≥ jjKeys d && jjKey d off c != 0xFFFF)
  let some_ := fun (st base : Nat) (o : Option Nat) => (o.isSome, errD st (base + o.getD 0))
  let region := regionPages s ctx (jjRegion d) .rw
  let inputs := bDirs.flatMap (fun a => batchRanges s ctx a bLeg) ++ pDirs.flatMap (fun a => batchRanges s ctx a pLeg)
  let keyArg := fun (c : Nat) => if badKeyOf d bLeg 0x30 c then 0x30 + 2 * c else 0x38 + 2 * c
  [ oneRow [fieldErr stArg 0 ([(decide (jjAction d > 2), 2), (jjType d > 3 || (two && jjType d != 0), 3)] ++ reservedBytes d [(5, 3)] ++
      [(two && pN != 0, 0x1C), (two && pH != 0, 0x20), (two && pA != 0, 0x28), (unused 0x30, 0x30),
        (if two then fld d 0x38 8 != 0 else unused 0x38, 0x38), (bit (jjRegion d) 63, 0x40), (spL == 0 && spA != 0, 0x48),
        (!oLeg.isEmpty && legColumns oLeg != oc, 0x58)] ++ reservedBytes d [(0x6A, 2)] ++ [(flowReserved (jjFlow d), 0x88)] ++
      reservedBytes d [(0x8C, 4), (0x98, 40)]),
      mayErr ((badKey d bLeg pLeg).map (fun c => ⟨stArg, 0x2000 + c, keyArg c, 0⟩)),
      some_ stArg 0x1000 (badOut d bLeg pLeg oLeg map)],
    fieldErr stRange 0 [(jjKeys d < 1 || jjKeys d > 4, 4), (bN < 1 || bN > 65536, 0x18), (!two && (pN < 1 || pN > 65536), 0x1C),
      (oc < 1 || oc > 1024, 0x68), (fld d 0x6C 4 < 64 || fld d 0x6C 4 > 1048576, 0x6C), (oL == 0, 0x78)],
    fieldErr stAlign 0 [(bA % 8 != 0, 0x10), (pA % 8 != 0, 0x28), (handleVa (jjRegion d) % 4096 != 0, 0x40), (spA % 64 != 0, 0x48),
      (spL % 64 != 0, 0x50), (oA % 64 != 0, 0x70), (oL % 64 != 0, 0x78), (jjStateAddr d % 64 != 0, 0x80),
      (addr % 64 != 0 || (bDirs ++ pDirs).any (· % 64 != 0), 0xFFFF)],
    (([(jjStateAddr d, 1024), (spA, spL), (bA, 8 * bN), (pA, 8 * pN)] ++ inputs).any (rangesMeet (oA, oL)), err0 stOverlap),
    mayErr (joinRefused s ctx d),
    fieldErr stPerm 0 [(s.legendForeign ctx bH, 8), (!two && s.legendForeign ctx pH, 0x20), (s.legendForeign ctx oH, 0x58),
      (flowForeign s ctx (jjFlow d), 0x88)],
    fieldErr stState 0 [((s.units.legends.find bH).isNone, 8), (!two && (s.units.legends.find pH).isNone, 0x20),
      (match region with
        | .error _ => false
        | .ok ps => ps.any s.joinClaims.contains, 0x40),
      ((s.units.legends.find oH).isNone, 0x58), (!flowUsable s (jjFlow d), 0x88)],
    (bDirs.any (fun a => dirBad s ctx a bLeg) || pDirs.any (fun a => dirBad s ctx a pLeg), errD stCorrupt 0x0701) ]

/-- A join job checked and queued at the slice of its region's first page. -/
def joinIssue (iss : Issuer) (ctx addr : Nat) (s : State) : State :=
  s.withDesc iss ctx addr 192 2 (fun d s =>
    s.checkJob iss ctx 2 0 (joinRefused s ctx d) (joinFails s ctx addr d) (fun s =>
      let e := match regionPages s ctx (jjRegion d) .rw with
        | .error _ => 0
        | .ok ps => sliceOf (ps.headD joinStoreBase)
      let j : JoinJob := ⟨JobHead.first iss ctx (fld d 0x70 8) (fld d 0x78 8), d, s.legendBytes (fld d 8 8),
        if jjAction d = 2 then [] else s.legendBytes (fld d 0x20 8), s.legendBytes (fld d 0x58 8), [], [], 0, 0, 0,
        [0, 0, 0, 0, 0xFFFF_FFFF, 0]⟩
      s.setJoin e { s.joinEng e with queue := (s.joinEng e).queue ++ [j] }))

/-! Outcomes (R283 to R288). -/

/-- A row of a side: its place, its key bytes with null values as zeros, whether no key column is null, the key's order by column. -/
structure KeyRow where
  i : Nat
  key : List Byte
  whole : Bool
  order : List Nat

/-- The rows of a side with their keys. -/
def keyRows (d leg : List Byte) (off : Nat) (rows : List (List Cell)) : List KeyRow :=
  rows.zipIdx.map (fun p =>
    let cs := (List.range (jjKeys d)).map (fun c => (colType (legEntry leg (jjKey d off c)), nth p.1 Cell.null (jjKey d off c)))
    ⟨p.2, cs.flatMap (fun c => padTo (typeBytes c.1) (cellVal c.2)), cs.all (fun c => c.2 != .null),
      cs.map (fun c => orderedBits c.1 (cellVal c.2))⟩)

/-- An outcome: none where it emits nothing, else a build row or none, and a probe row. -/
abbrev JoinOut := Option (Option Nat × Nat)

/-- The build rows that match a probe row, in build order. -/
def matching (builds : List KeyRow) (p : KeyRow) : List Nat :=
  if p.whole then (builds.filter (fun b => b.whole && b.key == p.key)).map KeyRow.i else []

/-- The outcomes of a probe row in one of the passes over a part: its matches there, whether it matched in an earlier pass, and whether the
pass is the last. -/
def outcomesOf (type p : Nat) (ms : List Nat) (before last : Bool) : List JoinOut :=
  let hit := before || !ms.isEmpty
  if type ≤ 1 then
    if hit then ms.map (fun b => some (some b, p)) else if last then [if type = 1 then some (none, p) else none] else []
  else if type = 2 then
    if !before && !ms.isEmpty then [some (none, p)] else if last && !hit then [none] else []
  else if last then [if hit then none else some (none, p)] else []

/-- The outcomes of a part built in chunks (R284, R286). -/
def chunkOutcomes (type : Nat) (probes : List KeyRow) : List KeyRow → List (List KeyRow) → List JoinOut
  | _, [] => []
  | earlier, c :: t =>
    probes.flatMap (fun p => outcomesOf type p.i (matching c p) (!(matching earlier p).isEmpty) t.isEmpty)
      ++ chunkOutcomes type probes (earlier ++ c) t

/-- What a run of a join will do: its outcomes, an error after them, and parts, levels and chunked parts. -/
structure JoinPlan where
  outs : List JoinOut
  fail : Option Err
  parts : Nat
  levels : Nat
  chunked : Nat

/-- The digit of a row's hash at a split level (R284). -/
def hashDigit (l : Nat) (r : KeyRow) : Nat := bits (gHash r.key 0).toNat (63 - 8 * l) (56 - 8 * l)

/-- The spill: the parts of a level in increasing hash-bit order, split again where they do not fit (R284, R286). n counts the levels left. -/
def spillPlan (cap : Nat) (run : List (List KeyRow) → List KeyRow → List JoinOut) : Nat → Nat → List KeyRow → List KeyRow → JoinPlan
  | 0, _, _, _ => ⟨[], none, 0, 0, 0⟩
  | n + 1, l, bs, ps =>
    (List.range 256).foldl (fun (a : JoinPlan) g =>
      let b := bs.filter (fun r => hashDigit l r == g)
      let p := ps.filter (fun r => hashDigit l r == g)
      if b.isEmpty && p.isEmpty then a
      else if b.length ≤ cap then { a with outs := a.outs ++ run [b] p, parts := a.parts + 1 }
      else if n = 0 then
        { a with outs := a.outs ++ run (chunks cap (b.length / cap + 1) b |>.filter (!·.isEmpty)) p, parts := a.parts + 1, chunked := a.chunked + 1 }
      else
        let x := spillPlan cap run n (l + 1) b p
        ⟨a.outs ++ x.outs, none, a.parts + x.parts, max a.levels x.levels, a.chunked + x.chunked⟩) ⟨[], none, 0, l, 0⟩

/-- The rows of a distinct that stay: the first of each key, and every null-key row (R288). -/
def distinctOutcomes (rows : List KeyRow) : List JoinOut :=
  rows.map (fun r => if !r.whole || rows.all (fun q => !(q.whole && q.key == r.key && q.i < r.i)) then some (none, r.i) else none)

/-- The order of two keys by column. -/
def keyLess : List Nat → List Nat → Bool
  | a :: s, b :: t => a < b || (a == b && keyLess s t)
  | _, _ => false

/-- The build side of a sort-merge read on to the first key above a bound, or to its end: the run of equal keys read last, the last key, and
the rows left; or the error (R287). -/
def mergeRead (cap : Nat) (bound : Option (List Nat)) : List KeyRow → List KeyRow → Except Err (List KeyRow × List KeyRow)
  | run, [] => .ok (run, [])
  | run, b :: t =>
    match run.getLast? with
    | some q =>
      if keyLess b.order q.order then .error (errD stCorrupt 0x0702)
      else if (bound.map (fun k => keyLess k b.order)).getD false then .ok (run, b :: t)
      else if b.order == q.order then
        if run.length + 1 > cap then .error (errD stLimit 0x0706) else mergeRead cap bound (run ++ [b]) t
      else mergeRead cap bound [b] t
    | none => if (bound.map (fun k => keyLess k b.order)).getD false then .ok (run, b :: t) else mergeRead cap bound [b] t

/-- The outcomes of a sort-merge in probe order, and the error that ends it. -/
def mergeOutcomes (cap type : Nat) : Option (List Nat) → List KeyRow → List KeyRow → List KeyRow → List JoinOut × Option Err
  | _, run, bs, [] => match mergeRead cap none run bs with
    | .error e => ([], some e)
    | .ok _ => ([], none)
  | prev, run, bs, p :: t =>
    if !p.whole then
      let r := mergeOutcomes cap type prev run bs t
      (outcomesOf type p.i [] false true ++ r.1, r.2)
    else if (prev.map (fun q => keyLess p.order q)).getD false then ([], some (errD stCorrupt 0x0702))
    else match mergeRead cap (some p.order) run bs with
      | .error e => ([], some e)
      | .ok (run', bs') =>
        let r := mergeOutcomes cap type (some p.order) run' bs' t
        (outcomesOf type p.i (matching run' p) false true ++ r.1, r.2)

/-- The plan of a join job from its rows. -/
def joinPlan (d : List Byte) (pages : Nat) (bRows pRows : List KeyRow) : JoinPlan :=
  let cap := 112 * pages
  let type := jjType d
  if jjAction d = 1 then
    let r := mergeOutcomes cap type none [] (bRows.filter KeyRow.whole) pRows
    ⟨r.1, r.2, 0, 0xFFFF_FFFF, 0⟩
  else
    let two := jjAction d = 2
    let run := fun (cs : List (List KeyRow)) (ps : List KeyRow) => if two then distinctOutcomes ps else chunkOutcomes type ps [] cs
    let builds := bRows.filter KeyRow.whole
    let probes := if two then bRows else pRows
    if bRows.length ≤ cap then ⟨run [builds] probes, none, 0, 0xFFFF_FFFF, 0⟩
    else if fld d 0x50 8 < 64 * (bRows.length + pRows.length) then ⟨[], some (errD stLimit 0x0705), 0, 0xFFFF_FFFF, 0⟩
    else spillPlan cap run 3 0 builds probes

/-! End and suspension (R285, R290 to R292). -/

/-- The result block (R292). -/
def joinResult (j : JoinJob) : List Byte :=
  let x := nth j.stats 0
  padTo 256 (leb 8 (x 0) ++ leb 8 (x 1) ++ leb 8 j.rowsOut ++ leb 8 (x 2) ++ leb 4 (x 3) ++ leb 4 (x 4) ++ leb 4 (x 5))

/-- A join job off its engine ends: its region is zeroed and released, its result block written where it can be. -/
def joinEnd (j : JoinJob) (er : Err) (s : State) : State :=
  ((zeroPages s j.pages).writeDropped j.head.ctx (jjStateAddr j.desc) (joinResult j)).endJob j.head 2 er

/-- A join job off its engine is suspended: its state saved, its region still claimed. -/
def joinSuspend (e : Nat) (j : JoinJob) (s : State) : State :=
  match s.takeHandle j.head (.join e j) with
  | (none, s1) => joinEnd j (err0 stLimit) s1
  | (some h, s1) => match s1.saveArea j.head.ctx (jjStateAddr j.desc) 1024 with
    | (.error er, s2) => joinEnd { j with head := h } { er with detail := 4 } s2
    | (.ok b, s2) => s2.parkJob h 2 (jjStateAddr j.desc) (.join e { j with head := { h with saved := b } })

/-! The run. -/

/-- JOIN_JOB_START: a free engine takes the oldest job of its queue: the output map is copied, the region claimed and zeroed; a resumed job
finds its state as it was left, or ends. -/
def joinStart (e : Nat) (s : State) : State :=
  let g := s.joinEng e
  match g.run, g.queue with
  | none, j :: t =>
    if !s.works (unitJoin e) then s
    else
      let s1 := s.setJoin e ⟨t, none⟩
      if j.head.saved.isEmpty then
        match Io.exec (memRead j.head.ctx (fld j.desc 0x60 8) (2 * jjOutCols j.desc)) s1, regionPages s1 j.head.ctx (jjRegion j.desc) .rw with
        | (.error er, s2), _ => joinEnd j er s2
        | (.ok _, s2), .error er => joinEnd j er (s2.countRefused j.head.ctx er.status)
        | (.ok map, s2), .ok pages =>
          if pages.any s.joinClaims.contains then joinEnd j (err0 stState) s2
          else (stirPages s2 pages).2.setJoin e ⟨t, some { j with map := map, pages := pages }⟩
      else match s1.areaIntact j.head.ctx (jjStateAddr j.desc) j.head.saved with
        | (.error er, s2) => joinEnd j er s2
        | (.ok true, s2) => s2.setJoin e ⟨t, some { j with head := { j.head with saved := [] } }⟩
        | (.ok false, s2) => joinEnd j (errD stCorrupt 0x0703) s2
  | _, _ => s

/-- The rows of a side: its batch list, then its batches in list order. -/
def sideRows (ctx list n : Nat) (leg : List Byte) : Io (List (List Cell)) := do
  let l ← memRead ctx list (8 * n)
  let bs ← ((chunks 8 n l).map le).mapM (fun a => readBatch ctx a leg)
  pure (bs.flatMap BatchIn.rowsOf)

/-- A job's batch closed. -/
def joinClose (j : JoinJob) (rows : List (List Cell)) (s : State) : Except (Err × Nat) JoinJob × State :=
  let i : BatchInfo := ⟨rows.length, j.batches, j.rowsOut, sub j.desc 0x90 8, 0⟩
  match putBatch j.oLeg j.head.ctx (j.head.outAddr + j.head.outP) i rows (fld j.desc 0x58 8) (jjFlow j.desc) j.head.thread s with
  | (.error e, s1) => (.error e, s1)
  | (.ok (n, held), s1) =>
    (.ok { j with head := { j.head with outP := j.head.outP + n, held := held }, rowsOut := j.rowsOut + rows.length,
                  batches := j.batches + 1 }, s1)

/-- The output row of an outcome. -/
def joinRow (j : JoinJob) (b : Option (List Cell)) (p : List Cell) : List Cell :=
  (List.range (legColumns j.oLeg)).map (fun k =>
    let m := fld j.map (2 * k) 2
    if bit m 15 && jjAction j.desc != 2 then (b.map (fun r => nth r Cell.null (bits m 9 0))).getD .null else nth p .null (bits m 9 0))

/-- The outcomes from the job's place on, with the rows of the batch in progress; after the last of them the job ends, or fails as its plan has it and
leaves that batch undefined (R291). -/
def joinRows (rowOf : Option Nat × Nat → List Cell) (last : Option Err) : Nat → List JoinOut → JoinJob → List (List Cell) → State →
    RunStop × JoinJob × State
  | 0, _, j, _, s => (.done, j, s)
  | fuel + 1, outs, j, b, s =>
    let step := fun (j : JoinJob) => { j with next := j.next + 1, head := { j.head with inC := j.head.inC + 1 } }
    match outs with
    | [] =>
      match last with
      | some er => (.fails er noRow (progressBytes j.oLeg b), j, s)
      | none =>
        if b.isEmpty then (.done, j, s)
        else match joinClose j b s with
          | (.error e, s1) => (.fails e.1 noRow e.2, j, s1)
          | (.ok j1, s1) => (if j1.head.held.isSome then .holds else .done, j1, s1)
    | none :: t => joinRows rowOf last fuel t (step j) b s
    | some o :: t =>
      let out := rowOf o
      if ((legEntries j.oLeg).zip out).any (fun p => cellTooLong p.1 p.2) then
        (.fails (errD stLimit 0x0707) noRow (progressBytes j.oLeg b), j, s)
      else
        let b1 := b ++ [out]
        if b1.length ≤ fld j.desc 0x6C 4 ∧ rowsFit j.oLeg b1 (j.head.outLen - j.head.outP) then joinRows rowOf last fuel t (step j) b1 s
        else if b.isEmpty then (.space, j, s)
        else match joinClose j b s with
          | (.error e, s1) => (.fails e.1 noRow e.2, j, s1)
          | (.ok j1, s1) => if j1.head.held.isSome then (.holds, j1, s1) else joinRows rowOf last fuel outs j1 [] s1

/-- The inputs of a running job: the rows of both sides; where the plan spills, the spill area is written with what the engines keep there. -/
def joinInputs (j : JoinJob) (s : State) : Except Err (JoinJob × List (List Cell) × List (List Cell) × JoinPlan) × State :=
  let d := j.desc
  let ctx := j.head.ctx
  match Io.exec (do
      let b ← sideRows ctx (fld d 0x10 8) (fld d 0x18 4) j.bLeg
      let p ← if jjAction d = 2 then pure [] else sideRows ctx (fld d 0x28 8) (fld d 0x1C 4) j.pLeg
      pure (b, p)) s with
  | (.error e, s1) => (.error e, s1)
  | (.ok (b, p), s1) =>
    let bk := keyRows d j.bLeg 0x30 b
    let pk := keyRows d j.pLeg 0x38 p
    let plan := joinPlan d j.pages.length bk pk
    let nulls := ((bk ++ pk).filter (fun r => !r.whole)).length
    let j1 := { j with stats := [b.length, p.length, nulls, plan.parts, plan.levels, plan.chunked] }
    if plan.levels = 0xFFFF_FFFF then (.ok (j1, b, p, plan), s1)
    else match s1.saveArea ctx (fld d 0x48 8) (64 * (b.length + p.length)) with
      | (.error e, s2) => (.error { e with detail := 4 }, s2)
      | (.ok _, s2) => (.ok (j1, b, p, plan), s2)

/-- A running job run to its end, its suspension, or an item that its flow does not take. -/
def joinRun (e : Nat) (j : JoinJob) (s : State) : State :=
  let off := fun (s : State) => s.setJoin e { s.joinEng e with run := none }
  match joinInputs j s with
  | (.error er, s1) => joinEnd j er (off s1)
  | (.ok (j1, b, p, plan), s1) =>
    let rowOf := fun (o : Option Nat × Nat) =>
      joinRow j1 (o.1.map (fun i => nth b [] i)) (nth (if jjAction j.desc = 2 then b else p) [] o.2)
    match joinRows rowOf plan.fail (3 * plan.outs.length + 3) (plan.outs.drop j.next) j1 [] s1 with
    | (.done, j2, s2) => joinEnd j2 (err0 stOk) (off s2)
    | (.waits, _, s2) => s2
    | (.space, j2, s2) => joinSuspend e j2 (off s2)
    | (.holds, j2, s2) => s2.setJoin e { s2.joinEng e with run := some j2 }
    | (.fails er _ n, j2, s2) => joinEnd j2 er (off (s2.scramble j.head.ctx (j2.head.outAddr + j2.head.outP) n))

/-- JOIN_JOB_END: an item held for its flow is offered again; the running job goes on to its end or suspension. -/
def joinJobEnd (e : Nat) (s : State) : State :=
  match (s.joinEng e).run with
  | none => s
  | some j =>
    if !s.works (unitJoin e) then s
    else match j.head.held with
      | none => joinRun e j s
      | some body =>
        let r := s.emit (jjFlow j.desc) body 5 j.head.thread
        if r.1 then joinRun e { j with head := { j.head with held := none } } r.2 else s

/-- A suspended join job resumed. -/
def joinResume (e : Nat) (j : JoinJob) (iss : Issuer) (outAddr outLen : Nat) (s : State) : State :=
  let j1 := { j with head := j.head.again iss outAddr outLen }
  if outAddr % 64 ≠ 0 then joinEnd j1 (err0 stAlign) s
  else s.setJoin e { s.joinEng e with queue := (s.joinEng e).queue ++ [j1] }

/-! The rows. -/

def execJoinJob (t : Fin 8192) (w : Insn) (s : State) : Host.Outcome State Fault Refusal := .next (issueJob (· == 2) 2 joinIssue t w s)
def execJoinJobStart (sl : Fin 32) (s : State) : Host.Outcome State Fault Refusal := .next (joinStart sl s)
def execJoinJobEnd (sl : Fin 32) (s : State) : Host.Outcome State Fault Refusal := .next (joinJobEnd sl s)

end Sys2Proof.Machine
end

