-- ==== Sys2Proof/Machine/Resume.lean ====
section
/-!
DEFINITION. RESUME and UNIT F = 3: suspended operations resumed and abandoned (R83 to R85, R130).
-/
namespace Sys2Proof.Machine
open Sys2Proof

/-- The UNIT_KIND of a suspended operation (R81). -/
def UnitJob.kind (j : UnitJob) : Nat :=
  match j with
  | .codec _ _ => 1
  | .join _ _ => 2
  | .column _ _ => 3
  | .proj _ _ => 4
  | .table _ _ => 5
  | .frame _ _ => 6

/-- Fields of a RESUME (R84). -/
def rsHandle (b : List Byte) : Nat := fld b 0 8
def rsOut (b : List Byte) : Nat := fld b 8 8
def rsLen (b : List Byte) : Nat := fld b 0x10 8
def rsAbandon (b : List Byte) : Bool := bit (fld b 0x18 4) 0

/-- The failures of R85 in table order. -/
def resumeFails (s : State) (ctx : Nat) (b : List Byte) : List (Bool × Err) :=
  let x := s.units.susp.find (rsHandle b)
  [ ((match x with
      | none => true
      | some x => x.resuming), errAt stState 0),
    ((match x with
      | none => false
      | some x => x.ctx != ctx), errAt stPerm 0),
    fieldErr stArg 0 ([(decide (fld b 0x18 4 > 1), 0x18)] ++ reservedBytes b [(0x1C, 4)]) ]

/-- What a unit's chapter adds to the failures of a RESUME (R391). -/
def jobResumeFails (s : State) (job : UnitJob) (iss : Issuer) (outAddr : Nat) : List (Bool × Err) :=
  match job with
  | .proj _ j => projResumeFails s j iss outAddr
  | .frame id k => match s.sample id k with
    | none => []
    | some (x, y) => sampleResumeFails x y outAddr
  | _ => []

/-- A suspended operation runs again. -/
def jobResume (job : UnitJob) (iss : Issuer) (outAddr outLen : Nat) (s : State) : State :=
  match job with
  | .codec e j => codecResume e j iss outAddr outLen s
  | .join e j => joinResume e j iss outAddr outLen s
  | .column e j => colResume e j iss outAddr outLen s
  | .proj e j => projResume e j iss outAddr outLen s
  | .table e j => tableResume e j iss outAddr outLen s
  | .frame id k => sampleResume id k iss outAddr outLen s

/-- A suspended operation abandoned: what its chapter has it write is written (R290, R411, R433), and the RESUME ends with OK. -/
def jobAbandon (job : UnitJob) (iss : Issuer) (ctx : Nat) (s : State) : State :=
  let none_ := fun (h : JobHead) => { h.again iss 0 0 with handle := 0 }
  match job with
  | .codec e j => codecAbandon e j iss s
  | .join _ j => joinEnd { j with head := none_ j.head } (err0 stOk) s
  | .column _ j => colEnd { j with head := none_ j.head } (err0 stOk) noRow s
  | .proj _ j => s.endJob (none_ j.head) 4 (err0 stOk)
  | .table _ j => s.endJob (none_ j.head) 5 (err0 stOk)
  | .frame id k => (sampleAbandon id k s).failOp iss ctx 6 0 0 (err0 stOk)

/-- A RESUME that has passed its checks. -/
def resumeGo (iss : Issuer) (ctx : Nat) (b : List Byte) (x : Susp) (s : State) : State :=
  let h := rsHandle b
  if rsAbandon b then jobAbandon x.job iss ctx (s.dropSusp h)
  else jobResume x.job iss (rsOut b) (rsLen b) { s with units := { s.units with susp := s.units.susp.put h { x with resuming := true } } }

/-- Every failure of a RESUME. -/
def allResumeFails (s : State) (ctx : Nat) (iss : Issuer) (b : List Byte) : List (Bool × Err) :=
  resumeFails s ctx b ++ (match s.units.susp.find (rsHandle b) with
    | none => []
    | some x => if rsAbandon b then [] else jobResumeFails s x.job iss (rsOut b))

/-- RESUME over RCP: it completes when the operation stops again. -/
def resumeCmd : Handler := fun f sid x s =>
  let b := f.payload
  let iss := Issuer.rcp sid f.requestId.toNat
  if badLength f 32 then .err (err0 stArg) s
  else match firstFail (allResumeFails s x.ctx iss b) with
    | some e => .err e s
    | none => match s.units.susp.find (rsHandle b) with
      | none => .err (errAt stState 0) s
      | some y => .waitThen (.resume (rsHandle b)) s (resumeGo iss x.ctx b y)

/-- UNIT F = 3: the record of a RESUME that fails names the kind of the operation; of a handle that is unknown that is a free value. -/
def resumeIssue (iss : Issuer) (ctx addr : Nat) (s : State) : State :=
  match Io.exec (memRead ctx addr 32) s with
  | (.error e, s1) => s1.draw.2.failOp iss ctx (s1.draw.1 % 65536) 0 0 e
  | (.ok b, s1) => match s1.units.susp.find (rsHandle b) with
    | none => s1.draw.2.failOp iss ctx (s1.draw.1 % 65536) 0 0 (errAt stState 0)
    | some x => match firstFail (allResumeFails s1 ctx iss b) with
      | some e => s1.failOp iss ctx x.job.kind 0 0 e
      | none => resumeGo iss ctx b x s1

/-- The kind that the operation a RESUME names has, for its tag. -/
def resumeKind (s : State) (t ctx addr : Nat) : Nat :=
  match s.peekStored t ctx addr 32 with
  | none => 0
  | some b => ((s.units.susp.find (rsHandle b)).map (fun x => x.job.kind)).getD 0

def rowResume : Row where
  mine := fun w => isMajor 0x3F w && insF w == 3
  ok := asyncOk
  reads := fun w => [rS (insA w), rS (insB w)]
  writes := fun w => [rS (insD w)]
  run := fun t w s =>
    let ctx := s.ctxOf t
    let a := ((s.thread t).rs (insA w)).toNat
    asyncIssue t w ((s.thread t).rs (insB w)).toNat (resumeKind s t ctx a) s (fun iss s => resumeIssue iss ctx a s)

def execResume (f : Frame) (s : State) : Host.Outcome State Fault Refusal := .next (rcpRun 0x0007 resumeCmd f s)
def execUnitResume (t : Fin 8192) (w : Insn) (s : State) : Host.Outcome State Fault Refusal := .next (rowResume.issue t w s)

end Sys2Proof.Machine
end

