-- ==== Sys2Proof/Machine/HostLink.lean ====
section
/-!
DEFINITION. The Host Port's link, the frames it receives, priority flow control and its configuration (R38 to R48, R604, R605).
-/
namespace Sys2Proof.Machine
open Sys2Proof

/-- The state with a Host Port counter changed. -/
def State.modHp (s : State) (f : HpCounters → HpCounters) : State := { s with host := { s.host with ctr := f s.host.ctr } }

/-- Whether the Host Port is out of reset and not frozen for data (R547). -/
def State.hostActive (s : State) : Bool := s.up islHost && !s.frozen (partIsland islHost) && !s.memFrozen

/-! The link (R38, R39, R557). -/

/-- The fastest mode that both ends advertise. -/
def fastestMode (a b : BitVec 3) : Option Nat := firstIdx (fun k => (a &&& b).getLsbD k) 3

/-- The link leaves UP and trains again: frames that waited for a paused priority are lost, it is counted and a link event is raised, whose CODE and DATA the spec does not give (free
values, log entry 3). -/
def linkDown (s : State) : State :=
  if s.host.link = .up then
    let s1 := (({ s with host := { s.host with link := .training, mode := 0, txq := [] } }).modHp
      (fun c => { c with linkDowns := sat32 c.linkDowns 1 }))
    let code := (s1.draw).1 % 2 ^ 16
    let data := ((s1.draw).2.drawBytes 48)
    data.2.event (fun _ => true) 5 code data.1
  else s

/-- HOST_LINK_TRAINING: the fastest common mode comes up; a PORT_RELINK of the port completes (R511). -/
def hostLinkTraining (peer : BitVec 3) (s : State) : State :=
  if s.up islHost ∧ s.host.link = .training then
    match fastestMode s.host.advertise peer with
    | none => s
    | some m =>
      let s1 := { s with host := { s.host with link := .up, mode := m } }
      s1.relinked 0
  else s

/-! Frames (R40 to R42). -/

/-- One byte into the IEEE 802.3 CRC-32. -/
def fcsByte (c : BitVec 32) (b : Byte) : BitVec 32 :=
  times 8 (fun x => if x.getLsbD 0 then (x >>> 1) ^^^ 0xEDB88320 else x >>> 1) (c ^^^ b.setWidth 32)

/-- The frame check sequence of a frame without its FCS. -/
def fcs (bs : List Byte) : Nat := (~~~ (bs.foldl fcsByte (BitVec.allOnes 32))).toNat

/-- The Host Port's own link-local address (R41). -/
def State.linkLocal (s : State) : Nat :=
  let m := s.fw.fuses.macBytes
  be ([0xFE, 0x80, 0, 0, 0, 0, 0, 0] ++ ((nth m 0 0 ^^^ 2) :: m.drop 1).take 3 ++ [0xFF, 0xFE] ++ m.drop 3)

/-- Whether an IPv6 address is the Host Port's own. -/
def State.ownsV6 (s : State) (a : Nat) : Bool := a == s.linkLocal || s.host.v6Addrs.any (fun x => x.addr == a)

/-- Whether an IPv6 destination is the Host Port's own or the solicited-node multicast address of one. -/
def State.hearsV6 (s : State) (a : Nat) : Bool :=
  s.ownsV6 a || (s.linkLocal :: s.host.v6Addrs.map V6Addr.addr).any (fun x =>
    a == 0xFF02_0000_0000_0000_0000_0001_FF00_0000 + x % 2 ^ 24)

/-- Whether a destination MAC address is the port's own, broadcast, or an IPv6 multicast. -/
def State.hearsMac (s : State) (d : List Byte) : Bool :=
  d == s.fw.fuses.macBytes || d == List.replicate 6 0xFF || d.take 2 == [0x33, 0x33]

/-- The priority of a frame (R47): PCP of a tagged frame, else the map of its DSCP. -/
def HostPort.prioOf (h : HostPort) (pcp : Option Nat) (dscp : Nat) : Nat :=
  match pcp, h.classify with
  | some p, 0 => p
  | _, _ => nth h.dscpMap 0 dscp

/-- The occupancy of a priority in the receive buffer. -/
def HostPort.occ (h : HostPort) (p : Nat) : Nat := ((h.rx.filter (fun f => f.prio == p)).map RxFrame.size).sum

/-- What a priority may hold: its 256 KiB of headroom and the shared 6 MiB that other priorities leave (R46). -/
def HostPort.share (h : HostPort) (p : Nat) : Nat :=
  0x4_0000 + (0x60_0000 - (((List.range 8).filter (· != p)).map (fun q => h.occ q - 0x4_0000)).sum)

/-- A priority flow control frame sent. -/
def State.sendPfc (s : State) (p : Nat) (xoff : Bool) : State :=
  let s1 := { s with host := { s.host with xoff := putBit s.host.xoff p xoff } }
  let s2 := if xoff then s1.modHp (fun c => { c with xoffTx := modNth c.xoffTx p (fun n => sat32 n 1) }) else s1
  (s2.countTx 64).send (.pfc p xoff)

/-- XOFF for a priority that holds all it may take; XON below half its headroom (R46). -/
def State.flowOne (s : State) (p : Nat) : State :=
  if !s.host.pfcEnable.getLsbD p then s
  else if !s.host.xoff.getLsbD p && s.host.share p ≤ s.host.occ p then s.sendPfc p true
  else if s.host.xoff.getLsbD p && s.host.occ p < 0x2_0000 then s.sendPfc p false
  else s

/-- Every priority looked at after a change of the receive buffer: what one takes of the shared space, the others may take no more. -/
def State.flowControl (s : State) : State := (List.range 8).foldl State.flowOne s

/-- A frame enters the receive buffer, or is discarded where its priority already holds all it may take (R46). -/
def State.buffer (s : State) (f : RxFrame) : State :=
  if s.host.share f.prio ≤ s.host.occ f.prio then s.modHp (fun c => { c with rxOverflow := sat32 c.rxOverflow 1 })
  else ({ s with host := { s.host with rx := s.host.rx ++ [f] } }).flowControl

/-- The first buffered frame of a kind leaves the receive buffer. -/
def State.unbuffer (s : State) (k : RxKind) : State :=
  match s.host.rx.find? (fun f => f.kind == k) with
  | none => s
  | some f => ({ s with host := { s.host with rx := s.host.rx.erase f } }).flowControl

/-- n RoCEv2 frames of a priority leave the receive buffer, past the first k of it. -/
def State.unbufferRoce (s : State) (p k n : Nat) : State :=
  let r := s.host.rx.foldl (fun (a : Nat × List RxFrame) f =>
    if f.kind == .roce && f.prio == p then (a.1 + 1, if k ≤ a.1 && a.1 < k + n then a.2 else a.2 ++ [f]) else (a.1, a.2 ++ [f])) (0, [])
  ({ s with host := { s.host with rx := r.2 } }).flowControl

/-- An answer of the port itself to neighbour discovery (0), ARP (1), ICMPv6 echo (2) or ICMP echo (3), where something leads to the asker (R44). It
goes out on the priority of the frame it answers, the model's choice (log entry 53). -/
def State.answer (s : State) (kind dst prio size : Nat) (data : List Byte) : State :=
  match s.host.nextHop dst with
  | none => s
  | some hop => s.hostSend prio (max 64 size) (.reply kind dst hop data)

/-- An IP datagram that R41 discards. -/
def State.otherIp (s : State) : State := s.modHp (fun c => { c with otherIp := sat32 c.otherIp 1 })

/-- A UDP datagram for the port: of the RCP port or RoCEv2. -/
def udpReceive (s : State) (prio size src : Nat) (u : List Byte) : State :=
  let dport := be (sub u 2 2)
  let body := (u.drop 8).take (be (sub u 4 2) - 8)
  let sport := be (sub u 0 2)
  if dport = s.host.rcpPort then s.buffer ⟨prio, size, .rcp, body, src, sport⟩
  else if dport = 4791 then s.buffer ⟨prio, size, .roce, body, src, sport⟩
  else s.otherIp

/-- An IPv4 packet received. -/
def v4Receive (s : State) (pcp : Option Nat) (size : Nat) (b : List Byte) : State :=
  let hl := (be (sub b 0 1) % 16) * 4
  let frag := be (sub b 6 2)
  let src := v4Mapped (be (sub b 12 4))
  let body := (b.take (be (sub b 2 2))).drop hl
  let proto := be (sub b 9 1)
  let prio := s.host.prioOf pcp (be (sub b 1 1) / 4)
  if frag % 2 ^ 14 ≠ 0 then s.modHp (fun c => { c with fragDrop := sat32 c.fragDrop 1 })
  else if !(s.host.v4Valid && be (sub b 16 4) == s.host.v4Addr) then s.otherIp
  else if proto = 17 then udpReceive s prio size src body
  else if proto = 1 ∧ be (sub body 0 1) = 8 then s.answer 3 src prio size (body.drop 4)
  else s.otherIp

/-- The upper-layer protocol of an IPv6 packet and what it carries, past hop-by-hop options (0), routing (43) and destination options (60); none
for a fragment (44), wherever its header stands. -/
def v6Upper : Nat → Nat → List Byte → Option (Nat × List Byte)
  | 0, next, b => some (next, b)
  | n + 1, next, b =>
    if next = 44 then none
    else if next = 0 ∨ next = 43 ∨ next = 60 then v6Upper n (be (sub b 0 1)) (b.drop (8 * be (sub b 1 1) + 8))
    else some (next, b)

/-- An IPv6 packet received. -/
def v6Receive (s : State) (pcp : Option Nat) (size : Nat) (b : List Byte) : State :=
  let src := be (sub b 8 16)
  let dst := be (sub b 24 16)
  let prio := s.host.prioOf pcp (be (sub b 0 2) / 64 % 64)
  match v6Upper b.length (be (sub b 6 1)) ((b.drop 40).take (be (sub b 4 2))) with
  | none => s.modHp (fun c => { c with fragDrop := sat32 c.fragDrop 1 })
  | some (next, body) =>
    if !s.hearsV6 dst then s.otherIp
    else if next = 17 ∧ s.ownsV6 dst then udpReceive s prio size src body
    else if next = 58 ∧ be (sub body 0 1) = 128 ∧ s.ownsV6 dst then s.answer 2 src prio size (body.drop 4)
    else if next = 58 ∧ be (sub body 0 1) = 135 ∧ s.ownsV6 (be (sub body 8 16)) then s.answer 0 src prio size (sub body 8 16)
    else s.otherIp

/-- What a good frame carries: an optional 802.1Q tag, then IPv4, IPv6 or ARP. -/
def etherReceive (s : State) (size : Nat) (b : List Byte) : State :=
  let tagged := be (sub b 12 2) == 0x8100
  let pcp := if tagged then some (be (sub b 14 1) / 32) else none
  let off := if tagged then 18 else 14
  let ty := be (sub b (off - 2) 2)
  let body := (b.take (b.length - 4)).drop off
  if ty = 0x0800 then v4Receive s pcp size body
  else if ty = 0x86DD then v6Receive s pcp size body
  else if ty = 0x0806 ∧ be (sub body 6 2) = 1 ∧ s.host.v4Valid ∧ be (sub body 24 4) = s.host.v4Addr then
    s.answer 1 (v4Mapped (be (sub body 14 4))) (pcp.getD 0) 64 s.fw.fuses.macBytes
  else s

/-- HOST_FRAME_RECEIVE: an Ethernet frame, FCS included, is checked, classified, buffered or discarded and counted (R40 to R42, R46). -/
def hostFrameReceive (bytes : List Byte) (s : State) : State :=
  if !s.linkUp then s
  else
    let n := bytes.length
    let s0 := s.modHp (fun c => { c with rxBytes := c.rxBytes + n })
    let inj := (s0.armed 0x0B 0).isSome
    if inj ∨ le (lastN 4 bytes) ≠ fcs (bytes.take (n - 4)) then
      let s1 := s0.modHp (fun c => { c with fcsErr := sat32 c.fcsErr 1 })
      if inj then s1.fireInjected 0x0B 0 0 else s1.fire 0x0B 0 0 false
    else if n > 9216 then s0.modHp (fun c => { c with lenErr := sat32 c.lenErr 1 })
    else if !s0.hearsMac (bytes.take 6) then s0.modHp (fun c => { c with otherMac := sat32 c.otherMac 1 })
    else etherReceive s0 n bytes

/-- PFC_PAUSE_RECEIVE: the link partner pauses or resumes a priority; what waited for it goes out (R46). -/
def pfcPauseReceive (p : Fin 8) (pause : Bool) (s : State) : State :=
  if s.linkUp && s.host.pfcEnable.getLsbD p then
    ({ s with host := { s.host with paused := putBit s.host.paused p pause } }).drainTx
  else s

/-! SET_PORT_CONFIG (R43). -/

/-- The checks of setPortConfig, in the order of its table. -/
def setPortConfigFails (f : Frame) (s : State) : List (Bool × Err) :=
  let p := f.payload
  let adv := fld p 0 1
  let rcp := fld p 2 1
  [
    (badLength f 72, err0 stArg),
    (adv == 0 || adv > 7, errAt stArg 0),
    (fld p 3 1 > 1, errAt stArg 3),
    (!fldZero p 4 4, ((reservedErr p [(4, 4)]).getD (errAt stArg 4))),
    (rcp > 7, errAt stRange 2),
    ((sub p 8 64).any (fun b => b > 7), errAt stRange (8 + ((firstIdx (fun i => fld p (8 + i) 1 > 7) 64).getD 0))),
    (s.roce.qps.vals.any (fun q => q.prio == rcp || (q.ingress.map Prod.snd) == some rcp), errAt stState 2)]

def setPortConfig : Handler := fun f _ _ s =>
  let p := f.payload
  let adv := fld p 0 1
  let rcp := fld p 2 1
  .check (setPortConfigFails f s) s <|
  .okThen [] s (fun s =>
    let old := s.host.advertise
    let s1 := { s with host := { s.host with
      advertise := BitVec.ofNat 3 adv
      pfcEnable := BitVec.ofNat 8 (fld p 1 1)
      rcpPriority := rcp
      classify := fld p 3 1
      dscpMap := (sub p 8 64).map BitVec.toNat } }
    if old = BitVec.ofNat 3 adv then s1.drainTx.flowControl else linkDown s1.drainTx.flowControl)

/-! SET_NET_CONFIG (R44). -/

/-- An IPv4 address that cannot be configured: unspecified, loopback, multicast or broadcast. Of R44's 'an IPv4 broadcast' the model takes the limited
broadcast address alone, and not the directed broadcast address of V4_PREFIX (log entry 53). -/
def badV4 (a : Nat) : Bool := a == 0 || a / 2 ^ 24 == 127 || a / 2 ^ 28 == 14 || a == 0xFFFF_FFFF

/-- An IPv6 address that cannot be configured: unspecified, loopback or multicast. -/
def badV6 (a : Nat) : Bool := a == 0 || a == 1 || a / 2 ^ 120 == 0xFF

/-- Entry i of V6_ADDRS. -/
def v6Entry (p : List Byte) (i : Nat) : V6Addr := ⟨be (sub p (0x20 + 24 * i) 16), fld p (0x30 + 24 * i) 1⟩

/-- The first index below n with a property, as an error at an offset into V6_ADDRS. -/
def v6Fail (n : Nat) (bad : Nat → Bool) (status off : Nat) : Bool × Err :=
  match firstIdx bad n with
  | none => (false, err0 status)
  | some i => (true, errAt status (off + 24 * i))

/-- The current settings in the layout of R44, with ACTION 1. -/
def HostPort.netBytes (h : HostPort) : List Byte :=
  leb 1 1 ++ leb 1 (b2n h.v4Valid) ++ leb 2 h.rcpPort ++ leb 2 h.vlan ++ leb 1 h.v6Addrs.length ++ leb 1 h.v4Prefix
    ++ beb 4 h.v4Addr ++ beb 4 h.v4Gateway ++ beb 16 h.v6Gateway
    ++ padTo 96 (h.v6Addrs.flatMap (fun a => beb 16 a.addr ++ leb 1 a.plen ++ zeros 7))

/-- The checks of setNetConfig, in the order of its table. R44's 'two equal addresses' are two of V6_ADDRS: that a gateway may equal one of them is the
model's choice (log entry 53). -/
def setNetConfigFails (f : Frame) : List (Bool × Err) :=
  let p := f.payload
  let act := fld p 0 1
  let v4 := bit (fld p 1 1) 0
  let n := fld p 6 1
  let m := min n 4
  let addrs := (List.range m).map (v6Entry p)
  let a4 := be (sub p 8 4)
  let gw4 := be (sub p 12 4)
  let gw6 := be (sub p 16 16)
  [
    (badLength f 128, err0 stArg),
    (act > 1, errAt stArg 0),
    (act == 1 && !fldZero p 1 127, (reservedErr p [(1, 1), (2, 2), (4, 2), (6, 1), (7, 1), (8, 4), (0xC, 4), (0x10, 16), (0x20, 96)]).getD (err0 stArg)),
    (fld p 1 1 > 1, errAt stArg 1),
    (!v4 && fld p 7 1 != 0, errAt stArg 7),
    (!v4 && a4 != 0, errAt stArg 8),
    v6Fail m (fun i => !fldZero p (0x31 + 24 * i) 7) stArg 0x31,
    v6Fail 4 (fun i => decide (n ≤ i) && !fldZero p (0x20 + 24 * i) 24) stArg 0x20,
    (v4 && badV4 a4, errAt stArg 8),
    (gw4 != 0 && badV4 gw4, errAt stArg 12),
    (gw6 != 0 && badV6 gw6, errAt stArg 16),
    v6Fail m (fun i => badV6 (v6Entry p i).addr || isLinkLocal (v6Entry p i).addr
      || (addrs.take i).any (fun a => a.addr == (v6Entry p i).addr)) stArg 0x20,
    (fld p 2 2 != 0 && fld p 2 2 < 1024, errAt stRange 2),
    (fld p 4 2 > 4094, errAt stRange 4),
    (n > 4, errAt stRange 6),
    (v4 && fld p 7 1 > 32, errAt stRange 7),
    v6Fail m (fun i => (v6Entry p i).plen > 128) stRange 0x30]

def setNetConfig : Handler := fun f _ _ s =>
  let p := f.payload
  let act := fld p 0 1
  let v4 := bit (fld p 1 1) 0
  let n := fld p 6 1
  let m := min n 4
  let addrs := (List.range m).map (v6Entry p)
  let a4 := be (sub p 8 4)
  let gw4 := be (sub p 12 4)
  let gw6 := be (sub p 16 16)
  .check (setNetConfigFails f) s <|
  if act = 1 then .ok s.host.netBytes s
  else .okThen [] s (fun s => { s with host := { s.host with
    v4Valid := v4
    rcpPort := if fld p 2 2 = 0 then s.host.rcpPort else fld p 2 2
    vlan := fld p 4 2
    v4Prefix := fld p 7 1
    v4Addr := a4
    v4Gateway := gw4
    v6Gateway := gw6
    v6Addrs := addrs } })

/-! The rows. -/

def execHostLinkTraining (peer : BitVec 3) (s : State) : Host.Outcome State Fault Refusal := .next (hostLinkTraining peer s)
def execHostLinkDown (s : State) : Host.Outcome State Fault Refusal := .next (linkDown s)
def execHostFrameReceive (bytes : List Byte) (s : State) : Host.Outcome State Fault Refusal := .next (hostFrameReceive bytes s)
def execPfcPauseReceive (p : Fin 8) (pause : Bool) (s : State) : Host.Outcome State Fault Refusal := .next (pfcPauseReceive p pause s)
def execSetPortConfig (f : Frame) (s : State) : Host.Outcome State Fault Refusal := .next (rcpRun 0x0011 setPortConfig f s)
def execSetNetConfig (f : Frame) (s : State) : Host.Outcome State Fault Refusal := .next (rcpRun 0x0012 setNetConfig f s)

end Sys2Proof.Machine
end

