-- ==== Sys2Proof/Machine/Roce.lean ====
section
/-!
DEFINITION. RoCEv2: queue pairs, work requests, memory regions, the responder, and ingress queues (R49 to R59, R180, R181).
-/
namespace Sys2Proof.Machine
open Sys2Proof

/-- A queue pair by number. -/
def State.qp (s : State) (n : Nat) : Option Qp := s.roce.qps.find n

/-- The state with a queue pair replaced. -/
def State.putQp (s : State) (n : Nat) (q : Qp) : State := { s with roce := { s.roce with qps := s.roce.qps.put n q } }

/-- The state with a queue pair changed, where it exists. -/
def State.modQp (s : State) (n : Nat) (f : Qp → Qp) : State :=
  match s.qp n with
  | none => s
  | some q => s.putQp n (f q)

/-- A message of a queue pair sent: lost where the link is down or nothing leads to the peer (R44). n bytes go in packets of the path
MTU. -/
def roceSend (s : State) (n : Nat) (q : Qp) (len : Nat) (o : RoceOut) : State :=
  match s.host.nextHop q.remoteIp with
  | none => s
  | some hop =>
    if s.linkUp then
      let k := max 1 (ceilDiv len (max q.mtu 1))
      s.hostSend q.prio (k * (42 + (if s.host.vlan = 0 then 0 else 4) + (if (v4Of q.remoteIp).isSome then 20 else 40)) + len)
        (.roce n q.prio s.host.vlan q.src hop o)
    else s

/-- The packets of a message, counted in packet sequence numbers. -/
def psnCount (mtu len : Nat) : Nat := max 1 (ceilDiv len (max mtu 1))

/-! Work completions (R57). -/

/-- The first 40 bytes of a work completion item. -/
def WorkDone.body (d : WorkDone) (qpn : Nat) : List Byte :=
  leb 4 qpn ++ leb 4 d.index ++ leb 8 d.nbytes ++ leb 2 d.status ++ leb 2 d.detail ++ leb 1 d.opcode ++ zeros 11 ++ leb 8 d.userId

/-- A queue pair that is being destroyed goes once its last item has entered; its QP_DESTROY completes (R55). -/
def qpSettle (n : Nat) (s : State) : State :=
  match s.qp n with
  | none => s
  | some q =>
    if q.destroying && q.held.isEmpty then
      ({ s with roce := { s.roce with qps := s.roce.qps.del n } }).finishAll (.qpDestroy n) stOk []
    else s

/-- QP_COMPLETION_ENTER: the first held work completion enters COMPL_FLOW where it can. -/
def qpCompletionEnter (n : Nat) (s : State) : State :=
  if !s.up islHost then s
  else match s.qp n with
    | none => s
    | some q => match q.held with
      | [] => s
      | d :: t => match s.offer q.complFlow (d.body n) 8 (n % 2 ^ 16) 0 0 0 with
        | (.full, _) => s
        | (_, s1) => qpSettle n (s1.putQp n { q with held := t })

/-- The end of a request as a completion item to be entered: signaled ones, and every one that failed. -/
def WorkReq.done (w : WorkReq) (nbytes status detail : Nat) : List WorkDone :=
  if status = stOk ∧ !w.signaled then [] else [⟨w.index, w.userId, w.opcode, nbytes, status, detail⟩]

/-- A work request read from its ring entry (R56). -/
def workReq (k psn : Nat) (b : List Byte) : WorkReq where
  index := k
  psn := psn
  opcode := fld b 0 1
  signaled := bit (fld b 1 1) 0
  imm := fld b 4 4
  localAddr := fld b 8 8
  length := fld b 0x10 8
  rkey := fld b 0x18 4
  remoteAddr := fld b 0x20 8
  userId := fld b 0x28 8

/-- The requests of a queue pair posted and not taken, read once when it is flushed. -/
def posted (q : Qp) : Nat → Nat → State → List WorkReq × State
  | 0, _, s => ([], s)
  | n + 1, k, s =>
    let r := Io.exec (memRead q.ctx (q.sqAddr + k % q.sqEntries * 64) 64) s
    let w := workReq k 0 (match r.1 with
      | .ok b => b
      | .error _ => [])
    let t := posted q n ((k + 1) % 2 ^ 32) r.2
    (w :: t.1, t.2)

/-- Every request posted to a queue pair in ERROR and not taken is taken and flushed, and the count taken is written
(R56, R57; that a flushed request counts as taken: DEDUCED, log entry 91). -/
def flushPosted (n : Nat) (s : State) : State :=
  match s.qp n with
  | none => s
  | some q =>
    if q.sqEntries = 0 then s
    else match Io.exec (memRead q.ctx q.prodAddr 4) s with
      | (.error _, s') => s'
      | (.ok b, s') =>
        let r := posted q (min ((le b + 2 ^ 32 - q.taken) % 2 ^ 32) q.sqEntries) q.taken s'
        let k := (q.taken + r.1.length) % 2 ^ 32
        if r.1.isEmpty then r.2
        else (r.2.putQp n { q with taken := k, held := q.held ++ r.1.flatMap (fun w => w.done 0 stState 0x0F05) }).writeDropped
          q.ctx q.consAddr (leb 4 k)

/-- A queue pair enters ERROR: every request outstanding or posted is flushed (R54, R57). -/
def qpError (n : Nat) (s : State) : State :=
  match s.qp n with
  | none => s
  | some q =>
    let s1 := s.putQp n { q with
      state := .error, outstanding := [], held := q.held ++ q.outstanding.flatMap (fun w => w.done 0 stState 0x0F05) }
    if q.state = .rts then flushPosted n s1 else s1

/-- The oldest outstanding request of a queue pair fails; the queue pair moves to ERROR (R57). -/
def qpFail (n nbytes status detail : Nat) (s : State) : State :=
  match s.qp n with
  | none => s
  | some q => match q.outstanding with
    | [] => s
    | w :: t => qpError n (s.putQp n { q with outstanding := t, held := q.held ++ w.done nbytes status detail })

/-- The oldest outstanding request of a queue pair completes. -/
def qpDone (n : Nat) (s : State) : State :=
  s.modQp n (fun q => match q.outstanding with
    | [] => q
    | w :: t => { q with outstanding := t, held := q.held ++ w.done w.length stOk 0, retriesLeft := q.retry, rnrLeft := q.rnrRetry })

/-! Sending work requests (R56). -/

/-- A request encoding, bit or byte that is reserved, or a LENGTH above 2 GiB. -/
def badWork (b : List Byte) : Bool :=
  fld b 0 1 > 4 || fld b 1 1 > 1 || !fldZero b 2 2 || !fldZero b 0x1C 4 || !fldZero b 0x30 16 || fld b 0x10 8 > 2 ^ 31

/-- What a request sends: a WRITE or SEND reads its source. -/
def workSource (q : Qp) (w : WorkReq) (s : State) : Except Err (List Byte) × State :=
  if w.opcode = 2 then (.ok [], s) else Io.exec (memRead q.ctx w.localAddr w.length) s

/-- The oldest outstanding request sent, or sent again; a local refusal of its source fails it. -/
def sendWork (n : Nat) (w : WorkReq) (s : State) : State :=
  match s.qp n with
  | none => s
  | some q => match workSource q w s with
    | (.error e, s1) => qpFail n 0 e.status 3 s1
    | (.ok d, s1) => roceSend s1 n q d.length (.request w.psn w.index w.opcode w.rkey w.remoteAddr w.length w.imm d)

/-- The failure that a request meets when it is taken: its entry cannot be read or is badly encoded, or its source is refused. -/
def takeFails (q : Qp) (w : WorkReq) (r : Except Err (List Byte)) (s : State) : Option (Nat × Nat) :=
  match r with
  | .error e => some (e.status, 3)
  | .ok b =>
    if badWork b then some (stArg, 0x0F01)
    else match (workSource q w s).1 with
      | .error e => some (e.status, 3)
      | .ok _ => none

/-- SQ_POLL: the Host Port reads the count of posted requests and takes the next one, in ring order, as long as no completion is held, at most 16
READs are outstanding, and its priority is not paused. A request that fails as it is taken is taken once no earlier one is outstanding, so that the
earlier ones end as they are answered. In ERROR what has been posted is flushed (R57). -/
def sqPoll (n : Nat) (s : State) : State :=
  match s.qp n with
  | none => s
  | some q =>
    if !s.hostActive || q.sqEntries == 0 || !q.held.isEmpty || q.destroying then s
    else if q.state = .error then flushPosted n s
    else if q.state != .rts || s.paused q.prio then s
    else match Io.exec (memRead q.ctx q.prodAddr 4) s with
      | (.error _, s1) => s1
      | (.ok b, s1) =>
        if le b = q.taken then s1
        else
          match Io.exec (memRead q.ctx (q.sqAddr + q.taken % q.sqEntries * 64) 64) s1 with
          | (r, s2) =>
            let w := workReq q.taken q.sqPsn (r.toOption.getD [])
            let err := takeFails q w r s2
            if (err.isSome && !q.outstanding.isEmpty)
                || (w.opcode == 2 && (q.outstanding.filter (fun x => x.opcode == 2)).length ≥ 16) then s1
            else
              let k := (q.taken + 1) % 2 ^ 32
              let s3 := (s2.putQp n { q with
                taken := k, outstanding := q.outstanding ++ [w], sqPsn := (q.sqPsn + psnCount q.mtu w.length) % 2 ^ 24 }).writeDropped q.ctx q.consAddr (leb 4 k)
              match err with
              | some (st, d) => qpFail n 0 st d s3
              | none => sendWork n w s3

/-- The oldest outstanding request sent again, or RETRY is exhausted. -/
def resend (n : Nat) (q : Qp) (w : WorkReq) (s : State) : State :=
  if q.retriesLeft = 0 then qpFail n 0 stHw 0x0F04 s else sendWork n w (s.putQp n { q with retriesLeft := q.retriesLeft - 1 })

/-- What a response does to the oldest outstanding request of a queue pair in RTS (R57). -/
def takeRoceResp (n : Nat) (q : Qp) (w : WorkReq) (r : RoceResp) (s : State) : State :=
  match r with
  | .ack => if w.opcode = 2 then s else qpDone n s
  | .readData d =>
    if w.opcode = 2 ∧ d.length = w.length then
      match Io.exec (memWrite q.ctx w.localAddr d) s with
      | (.ok _, s1) => qpDone n s1
      | (.error e, s1) => qpFail n 0 e.status 4 s1
    else s
  | .nakAccess => qpFail n 0 stHw 0x0F02 s
  | .nakInvalid => qpFail n 0 stHw 0x0F03 s
  | .nakOperational => qpFail n 0 stHw 0x0F06 s
  | .nakSequence => resend n q w s
  | .rnr =>
    if q.rnrRetry = 7 then sendWork n w s
    else if q.rnrLeft = 0 then qpFail n 0 stHw 0x0F04 s
    else sendWork n w (s.putQp n { q with rnrLeft := q.rnrLeft - 1 })

/-- The frames that carried a response. -/
def respFrames (q : Option Qp) (r : RoceResp) : Nat :=
  match r with
  | .readData d => psnCount ((q.map Qp.mtu).getD 1024) d.length
  | _ => 1

/-- The frames in the receive buffer of stopped requests of a priority are those that stay when a later message leaves it. -/
def State.leaveBuffer (s : State) (prio n : Nat) : State :=
  s.unbufferRoce prio ((s.roce.stopped.filter (fun r => r.prio == prio)).map (fun r =>
    if r.op == .read || r.op == .other then 1 else psnCount (((s.qp r.qpn).map Qp.mtu).getD 1024) r.length)).sum n

/-- A congestion notification for a message that was marked CE (R49). -/
def noticeCe (n : Nat) (q : Qp) (ce : Bool) (s : State) : State := if ce then roceSend s n q 0 .cnp else s

/-- ROCE_RESPONSE_RECEIVE: what answers the oldest outstanding request (R57), on a priority, marked CE or not; its frames leave the receive
buffer. -/
def roceResponse (n : Nat) (r : RoceResp) (ce : Bool) (prio : Nat) (s : State) : State :=
  if !s.linkUp || !s.hostActive then s
  else
    let s0 := s.leaveBuffer prio (respFrames (s.qp n) r)
    match s0.qp n with
    | none => s0
    | some q =>
      let s1 := noticeCe n q ce s0
      if q.state != .rts then s1
      else match q.outstanding with
        | [] => s1
        | w :: _ => takeRoceResp n q w r s1

/-- ROCE_ACK_TIMEOUT: the oldest outstanding request is sent again, or RETRY is exhausted. -/
def roceAckTimeout (n : Nat) (s : State) : State :=
  match s.qp n with
  | none => s
  | some q =>
    if !s.hostActive || q.state != .rts then s
    else match q.outstanding with
      | [] => s
      | w :: _ => resend n q w s

/-- The injection rate now, in 1/65,536 of line rate: over the 1 ms after it was halved it recovers linearly to line rate (R49). -/
def Qp.rateAt (q : Qp) (now : Nat) : Nat := min 65536 (q.rate + (65536 - q.rate) * (now - q.rateTime) / 100000)

/-- ROCE_CNP_RECEIVE: a congestion notification halves the injection rate (R49); its frame leaves the receive buffer. -/
def roceCnp (n prio : Nat) (s : State) : State :=
  if s.linkUp && s.hostActive then
    (s.leaveBuffer prio 1).modQp n (fun q => { q with rate := q.rateAt s.ctl.now / 2, rateTime := s.ctl.now })
  else s

/-! The responder (R49, R51). -/

/-- The region a key names in a context, where it grants an access of a length at an address; bit: the right needed. -/
def mrGrants (s : State) (ctx rkey addr len right : Nat) : Bool :=
  match s.roce.mrs.find rkey with
  | none => false
  | some m => m.ctx == ctx && bit m.access right && m.addr ≤ addr && addr + len ≤ m.addr + m.length

/-- The NAK that answers a failed access, by its error. -/
def nakOf (e : Err) (psn : Nat) : RoceOut := if e.status = stHw then .nakOperational psn else .nakAccess psn

/-- Bytes of a write that failed in memory become undefined (R51). -/
def scramble (ctx va len : Nat) (s : State) : State :=
  let b := s.drawBytes len
  (List.range len).foldl (fun a i => pokeByte ctx (va + i) (nth b.1 0 i) a) b.2
where
  /-- One byte set without a check, where its address is mapped. -/
  pokeByte (ctx va : Nat) (b : Byte) (s : State) : State :=
    match atu s ctx va .w with
    | .error _ => s
    | .ok (pa, _) => { s with mem := s.mem.write pa [b] }

/-- The items of a SEND that its flow accepts now: the bytes left over. -/
def sendItems (n fid : Nat) : Nat → List Byte → State → List Byte × State
  | 0, d, s => (d, s)
  | k + 1, d, s =>
    if d.isEmpty then ([], s)
    else match s.offer fid (d.take 40) 0 (n % 2 ^ 16) 0 0 0 with
      | (.full, _) => (d, s)
      | (_, s1) => sendItems n fid k (d.drop 40) s1

/-- Whether the ingress queues of a priority have stopped (R48). -/
def ingressStopped (s : State) (prio : Nat) : Bool := s.roce.stopped.any (fun r => r.prio == prio)

/-- The frames that carried a request. -/
def State.reqFrames (s : State) (r : RoceReq) : Nat :=
  if r.op == .read || r.op == .other then 1 else psnCount (((s.qp r.qpn).map Qp.mtu).getD 1024) r.length

/-- The frames in the receive buffer of stopped requests of a priority. -/
def State.framesOf (s : State) (prio : Nat) (l : List RoceReq) : Nat := ((l.filter (fun r => r.prio == prio)).map s.reqFrames).sum

/-- A stopped request leaves its queue, and its frames the receive buffer. -/
def unstop (r : RoceReq) (s : State) : State :=
  ({ s with roce := { s.roce with stopped := s.roce.stopped.erase r } }).unbufferRoce r.prio
    (s.framesOf r.prio (s.roce.stopped.takeWhile (fun x => x != r))) (s.reqFrames r)

/-- A request answered with what it takes: the expected number moves on past it. -/
def answerReq (n : Nat) (q : Qp) (r : RoceReq) (len : Nat) (o : RoceOut) (s : State) : State :=
  roceSend (s.putQp n { q with rqPsn := (q.rqPsn + psnCount q.mtu r.length) % 2 ^ 24, nakSent := false }) n q len o

/-- A request of the expected number performed and answered. none where its SEND still has items that its flow cannot accept: what is
left of it, and the state with those entered that it could. -/
def performReq (n : Nat) (q : Qp) (r : RoceReq) (s : State) : Option RoceReq × State :=
  match r.op with
  | .other => (none, roceSend s n q 0 (.nakInvalid r.psn))
  | .write | .writeImm =>
    if !mrGrants s q.ctx r.rkey r.addr r.length 1 then (none, roceSend s n q 0 (.nakAccess r.psn))
    else match Io.exec (memWrite q.ctx r.addr r.data) s with
      | (.ok _, s1) => (none, answerReq n q r 0 (.ack r.psn) s1)
      | (.error e, s1) =>
        (none, roceSend (if e.status = stHw then scramble q.ctx r.addr r.data.length s1 else s1) n q 0 (nakOf e r.psn))
  | .read =>
    if !mrGrants s q.ctx r.rkey r.addr r.length 0 then (none, roceSend s n q 0 (.nakAccess r.psn))
    else match Io.exec (memRead q.ctx r.addr r.length) s with
      | (.ok d, s1) => (none, answerReq n q r d.length (.readData r.psn d) s1)
      | (.error e, s1) => (none, roceSend s1 n q 0 (nakOf e r.psn))
  | .send | .sendImm => match q.ingress with
    | none => (none, roceSend s n q 0 (.nakInvalid r.psn))
    | some (fid, _) =>
      if r.length % 40 ≠ 0 ∨ r.length < 40 ∨ r.length > 64 * 40 then (none, roceSend s n q 0 (.nakInvalid r.psn))
      else
        let (d, s1) := sendItems n fid 64 r.data s
        if d.isEmpty then (none, answerReq n q r 0 (.ack r.psn) s1) else (some { r with data := d }, s1)

/-- A request of a queue pair: performed where its number is the expected one; a repeated one is acknowledged again, a READ read again; one from ahead
is dropped, and the first such gap is answered with a sequence-error NAK, as RoCEv2 Reliable Connected transport has it (R49, R59; log entry 54). -/
def takeReq (n : Nat) (r : RoceReq) (s : State) : Option RoceReq × State :=
  match s.qp n with
  | none => (none, s)
  | some q =>
    if r.psn = q.rqPsn then performReq n q r s
    else if (q.rqPsn + 2 ^ 24 - r.psn) % 2 ^ 24 < 2 ^ 23 then
      if r.op = .read then
        if !mrGrants s q.ctx r.rkey r.addr r.length 0 then (none, roceSend s n q 0 (.nakAccess r.psn))
        else match Io.exec (memRead q.ctx r.addr r.length) s with
          | (.ok d, s1) => (none, roceSend s1 n q d.length (.readData r.psn d))
          | (.error e, s1) => (none, roceSend s1 n q 0 (nakOf e r.psn))
      else (none, roceSend s n q 0 (.ack r.psn))
    else if q.nakSent then (none, s)
    else (none, roceSend (s.putQp n { q with nakSent := true }) n q 0 (.nakSequence q.rqPsn))

/-- ROCE_INBOUND_REQUEST: a request message of a queue pair; of a bound queue pair it must come on the binding's priority, else each of its packets is
discarded and counted, and it waits behind the stopped ingress queues of that priority (R48, R51, R181). Marked CE, it is answered with a congestion
notification once, as it comes (R49). -/
def roceInbound (r : RoceReq) (s : State) : State :=
  if !s.linkUp || !s.hostActive then s
  else
    let go := fun (a : State) => a.unbufferRoce r.prio (s.framesOf r.prio s.roce.stopped) (s.reqFrames r)
    match s.qp r.qpn with
    | none => go s
    | some q =>
      if q.state != .rtr && q.state != .rts then go s
      else
        let s0 := noticeCe r.qpn q r.ce s
        match q.ingress with
        | none => go (takeReq r.qpn r s0).2
        | some (_, p) =>
          if r.prio ≠ p then (go s0).modHp (fun c => { c with ingPrioMismatch := sat32 c.ingPrioMismatch (s.reqFrames r) })
          else if ingressStopped s0 p then { s0 with roce := { s0.roce with stopped := s0.roce.stopped ++ [r] } }
          else match takeReq r.qpn r s0 with
            | (none, s1) => go s1
            | (some left, s1) => { s1 with roce := { s1.roce with stopped := s1.roce.stopped ++ [left] } }

/-- INGRESS_QUEUE_RESUME: a stopped ingress queue whose request came first on its priority drains again once its flow accepts items; what is
drained leaves the receive buffer, and XON follows (R46, R48). -/
def ingressResume (n : Nat) (s : State) : State :=
  match s.roce.stopped.find? (fun r => r.qpn == n) with
  | none => s
  | some r =>
    if !s.hostActive || s.roce.stopped.find? (fun x => x.prio == r.prio) != some r then s
    else match takeReq n r s with
      | (none, s1) => unstop r s1
      | (some left, s1) => { s1 with roce := { s1.roce with stopped := s1.roce.stopped.replace r left } }

/-! Commands (R53 to R59). -/

/-- The refusal of a range of a context for a permission, as an error at an offset. -/
def refusedAt (s : State) (ctx va len : Nat) (n : Need) (off : Nat) : Bool × Err :=
  match rangeRefused s ctx va len n with
  | none => (false, err0 stXlate)
  | some e => (true, errAt e off)

/-- Whether a FLOW_ID is stale or free (R163). -/
def State.staleFlow (s : State) (fid : Nat) : Bool := (s.flow fid).isNone

/-- Whether a FLOW_ID names a live flow of another context. -/
def State.foreignFlow (s : State) (fid ctx : Nat) : Bool := ((s.flow fid).map (fun f => f.ctx != ctx)).getD false

/-- A power of two within bounds. -/
def pow2In (v lo hi : Nat) : Bool := isPow2 v && lo ≤ v && v ≤ hi

/-- The checks of qpCreate, in the order of its table. -/
def qpCreateFails (f : Frame) (x : Session) (s : State) : List (Bool × Err) :=
  let p := f.payload
  let prio := fld p 0 1
  let n := fld p 4 4
  let sq := fld p 8 8
  let prod := fld p 0x10 8
  let cons := fld p 0x18 8
  let fl := fld p 0x20 4
  let idle := n == 0
  [
    (badLength f 48, err0 stArg),
    (prio == s.host.rcpPriority, errAt stArg 0),
    (!fldZero p 1 3, (reservedErr p [(1, 3)]).getD (err0 stArg)),
    (idle && sq != 0, errAt stArg 8),
    (idle && prod != 0, errAt stArg 0x10),
    (idle && cons != 0, errAt stArg 0x18),
    (idle && fl != 0xFFFF_FFFF, errAt stArg 0x20),
    (!idle && flowReserved fl, errAt stArg 0x20),
    (!fldZero p 0x24 12, (reservedErr p [(0x24, 12)]).getD (err0 stArg)),
    (prio > 7, errAt stRange 0),
    (!idle && !pow2In n 16 65536, errAt stRange 4),
    (sq % 64 != 0, errAt stAlign 8),
    (prod % 8 != 0, errAt stAlign 0x10),
    (cons % 8 != 0, errAt stAlign 0x18),
    (if idle then (false, err0 stXlate) else refusedAt s x.ctx sq (n * 64) .r 8),
    (if idle then (false, err0 stXlate) else refusedAt s x.ctx prod 4 .r 0x10),
    (if idle then (false, err0 stXlate) else refusedAt s x.ctx cons 4 .w 0x18),
    (!idle && s.foreignFlow fl x.ctx, errAt stPerm 0x20),
    (!idle && (s.staleFlow fl || fidKind fl != 0), errAt stState 0x20),
    (s.roce.qps.length ≥ 4096, err0 stLimit)]

def qpCreate : Handler := fun f sid x s =>
  let p := f.payload
  let prio := fld p 0 1
  let n := fld p 4 4
  let sq := fld p 8 8
  let prod := fld p 0x10 8
  let cons := fld p 0x18 8
  let fl := fld p 0x20 4
  .check (qpCreateFails f x s) s <|
  let r := s.fresh (fun k => (s.roce.qps.find (k + 2)).isSome) (2 ^ 24 - 2) s.roce.qps.length
  let qpn := r.1 + 2
  .ok (leb 4 qpn ++ zeros 4) (r.2.putQp qpn {
    ctx := x.ctx, session := sid, prio := prio, sqEntries := n, sqAddr := sq, prodAddr := prod, consAddr := cons, complFlow := fl,
    state := .init, mtu := 0, remoteQpn := 0, rqPsn := 0, remoteIp := 0, src := 0, nakSent := false, sqPsn := 0, timeoutUs := 0, retry := 0, rnrRetry := 0,
    retriesLeft := 0, rnrLeft := 0, taken := 0, outstanding := [], held := [], rate := 65536, rateTime := s.ctl.now,
    destroying := false, ingress := none })

/-- The source address that the Host Port takes for a peer (R54): the link-local address for a link-local peer; else, of the configured addresses of
the peer's family, the one with the longest prefix that covers it, or the first. -/
def State.sourceFor (s : State) (ip : Nat) : Option Nat :=
  if isLinkLocal ip then some s.linkLocal
  else match v4Of ip with
    | some _ => if s.host.v4Valid then some (v4Mapped s.host.v4Addr) else none
    | none => match minBy (fun (x : V6Addr) => 128 - x.plen) (s.host.v6Addrs.filter (fun x => covers 128 x.addr x.plen ip)) with
      | some x => some x.addr
      | none => s.host.v6Addrs.head?.map V6Addr.addr

/-- The checks of qpModify, in the order of its table. -/
def qpModifyFails (f : Frame) (x : Session) (s : State) : List (Bool × Err) :=
  let p := f.payload
  let qpn := fld p 0 4
  let tgt := fld p 4 1
  let ip := be (sub p 0x10 16)
  let q := s.qp qpn
  let rtr := tgt == 1
  let rts := tgt == 2
  [
    (badLength f 48, err0 stArg),
    (tgt == 0 || tgt > 3, errAt stArg 4),
    (if rtr then fld p 5 1 > 2 else fld p 5 1 != 0, errAt stArg 5),
    (!fldZero p 6 2, (reservedErr p [(6, 2)]).getD (err0 stArg)),
    (!rtr && fld p 8 4 != 0, errAt stArg 8),
    (!rtr && fld p 12 4 != 0, errAt stArg 12),
    (!rtr && !fldZero p 16 16, errAt stArg 16),
    (!rts && fld p 0x20 4 != 0, errAt stArg 0x20),
    (!rts && fld p 0x24 4 != 0, errAt stArg 0x24),
    (!rts && fld p 0x28 1 != 0, errAt stArg 0x28),
    (!rts && fld p 0x29 1 != 0, errAt stArg 0x29),
    (!fldZero p 0x2A 6, (reservedErr p [(0x2A, 6)]).getD (err0 stArg)),
    (qpn ≥ 2 ^ 24, errAt stRange 0),
    (rtr && fld p 8 4 ≥ 2 ^ 24, errAt stRange 8),
    (rtr && fld p 12 4 ≥ 2 ^ 24, errAt stRange 12),
    (rts && fld p 0x20 4 ≥ 2 ^ 24, errAt stRange 0x20),
    (rts && (fld p 0x24 4 < 4 || fld p 0x24 4 > 4000000), errAt stRange 0x24),
    (rts && fld p 0x28 1 > 7, errAt stRange 0x28),
    (rts && fld p 0x29 1 > 7, errAt stRange 0x29),
    ((q.map (fun q => q.ctx != x.ctx)).getD false, errAt stPerm 0),
    (q.isNone, errAt stState 0),
    (match q with
      | none => false
      | some q => if rtr then q.state != .init else if rts then q.state != .rtr else false, errAt stState 4),
    (rtr && (s.sourceFor ip).isNone, errAt stState 0x10)]

def qpModify : Handler := fun f _ x s =>
  let p := f.payload
  let qpn := fld p 0 4
  let tgt := fld p 4 1
  let ip := be (sub p 0x10 16)
  let rtr := tgt == 1
  let rts := tgt == 2
  .check (qpModifyFails f x s) s <|
  if rtr then .ok [] (s.modQp qpn (fun q => { q with
    state := .rtr, mtu := 1024 * 2 ^ fld p 5 1, remoteQpn := fld p 8 4, rqPsn := fld p 12 4, remoteIp := ip, src := (s.sourceFor ip).getD 0 }))
  else if rts then .ok [] (s.modQp qpn (fun q => { q with
    state := .rts, sqPsn := fld p 0x20 4, timeoutUs := fld p 0x24 4, retry := fld p 0x28 1, rnrRetry := fld p 0x29 1,
    retriesLeft := fld p 0x28 1, rnrLeft := fld p 0x29 1 }))
  else .ok [] (qpError qpn s)

/-- A queue pair flushed and marked to go (R52, R55). -/
def qpGo (n : Nat) (s : State) : State :=
  let s1 := (s.roce.stopped.filter (fun r => r.qpn == n)).foldl (fun a r => unstop r a) s
  (qpError n s1).modQp n (fun q => { q with destroying := true, ingress := none })

/-- The checks of qpDestroy, in the order of its table. -/
def qpDestroyFails (f : Frame) (x : Session) (s : State) : List (Bool × Err) :=
  let p := f.payload
  let qpn := fld p 0 4
  let q := s.qp qpn
  [
    (badLength f 8, err0 stArg),
    (!fldZero p 4 4, (reservedErr p [(4, 4)]).getD (err0 stArg)),
    (q.isNone, errAt stState 0),
    ((q.map (fun q => q.ctx != x.ctx)).getD false, errAt stPerm 0),
    ((q.map (fun q => q.ingress.isSome || q.destroying)).getD false, errAt stState 0)]

def qpDestroy : Handler := fun f _ x s =>
  let p := f.payload
  let qpn := fld p 0 4
  .check (qpDestroyFails f x s) s <|
  let s1 := qpGo qpn s
  if ((s1.qp qpn).map (fun q => q.held.isEmpty)).getD true then
    .ok [] { s1 with roce := { s1.roce with qps := s1.roce.qps.del qpn } }
  else .wait (.qpDestroy qpn) s1

/-- The checks of mrRegister, in the order of its table. -/
def mrRegisterFails (f : Frame) (s : State) : List (Bool × Err) :=
  let p := f.payload
  let addr := fld p 0 8
  let len := fld p 8 8
  let acc := fld p 0x10 1
  [
    (badLength f 24, err0 stArg),
    (acc == 0 || acc > 3, errAt stArg 0x10),
    (!fldZero p 0x11 7, (reservedErr p [(0x11, 7)]).getD (err0 stArg)),
    (len == 0 || addr + len > 2 ^ 48, errAt stRange 8),
    (s.roce.mrs.length ≥ 65536, err0 stLimit)]

def mrRegister : Handler := fun f _ x s =>
  let p := f.payload
  let addr := fld p 0 8
  let len := fld p 8 8
  let acc := fld p 0x10 1
  .check (mrRegisterFails f s) s <|
  let r := s.fresh (fun k => (s.roce.mrs.find (k + 1)).isSome || s.roce.issued.contains (k + 1)) (2 ^ 32 - 1)
    (s.roce.mrs.length + s.roce.issued.length)
  let key := r.1 + 1
  .ok (leb 4 key ++ zeros 4) { r.2 with roce := { r.2.roce with
    mrs := r.2.roce.mrs.put key ⟨x.ctx, addr, len, acc⟩
    issued := lastN (2 ^ 24) (r.2.roce.issued ++ [key]) } }

/-- The checks of mrDeregister, in the order of its table. -/
def mrDeregisterFails (f : Frame) (x : Session) (s : State) : List (Bool × Err) :=
  let p := f.payload
  let key := fld p 0 4
  let m := s.roce.mrs.find key
  [
    (badLength f 8, err0 stArg),
    (!fldZero p 4 4, (reservedErr p [(4, 4)]).getD (err0 stArg)),
    (m.isNone, errAt stState 0),
    ((m.map (fun m => m.ctx != x.ctx)).getD false, errAt stPerm 0)]

def mrDeregister : Handler := fun f _ x s =>
  let p := f.payload
  let key := fld p 0 4
  .check (mrDeregisterFails f x s) s <|
  .ok [] { s with roce := { s.roce with mrs := s.roce.mrs.del key } }

/-! The rows. -/

def execIngressQueueResume (qpn : Nat) (s : State) : Host.Outcome State Fault Refusal := .next (ingressResume qpn s)
def execRoceInboundRequest (q : RoceReq) (s : State) : Host.Outcome State Fault Refusal := .next (roceInbound q s)
def execRoceCnpReceive (c : RoceCnp) (s : State) : Host.Outcome State Fault Refusal := .next (roceCnp c.qpn c.prio s)
def execSqPoll (qpn : Nat) (s : State) : Host.Outcome State Fault Refusal := .next (sqPoll qpn s)
def execRoceResponseReceive (qpn : Nat) (r : RoceReply) (s : State) : Host.Outcome State Fault Refusal :=
  .next (roceResponse qpn r.resp r.ce r.prio s)
def execRoceAckTimeout (qpn : Nat) (s : State) : Host.Outcome State Fault Refusal := .next (roceAckTimeout qpn s)
def execQpCompletionEnter (qpn : Nat) (s : State) : Host.Outcome State Fault Refusal := .next (qpCompletionEnter qpn s)
def execQpCreate (f : Frame) (s : State) : Host.Outcome State Fault Refusal := .next (rcpRun 0x0013 qpCreate f s)
def execQpModify (f : Frame) (s : State) : Host.Outcome State Fault Refusal := .next (rcpRun 0x0014 qpModify f s)
def execQpDestroy (f : Frame) (s : State) : Host.Outcome State Fault Refusal := .next (rcpRun 0x0015 qpDestroy f s)
def execMrRegister (f : Frame) (s : State) : Host.Outcome State Fault Refusal := .next (rcpRun 0x0016 mrRegister f s)
def execMrDeregister (f : Frame) (s : State) : Host.Outcome State Fault Refusal := .next (rcpRun 0x0017 mrDeregister f s)

end Sys2Proof.Machine
end

