-- ==== Sys2Proof/Machine/DispCmd.lean ====
section
/-!
DEFINITION. The Dispatcher's commands: flows (R168 to R170), ingress bindings (R180), graphs (R183 to R187), observation (R188 to R190), and what its
slices do by themselves (R173, R178, R193).
-/
namespace Sys2Proof.Machine
open Sys2Proof

/-! FLOW_CREATE (R168, R169). -/

/-- Whether a page of a range is refused with a status. -/
def rangeStatus (s : State) (ctx va len : Nat) (n : Need) (st : Nat) : Bool :=
  (blocks 4096 (len / 4096 + 2) va len).any (fun p => match atu s ctx p.1 n with
    | .error e => e == st
    | .ok _ => false)

/-- The slice with the fewest flows that has room, the lowest on ties. -/
def State.sliceFlows (s : State) (k : Nat) : Nat := s.disp.flows.vals.countP (fun f => f.slice == k)
def State.freeSlice (s : State) : Nat := (minBy s.sliceFlows (List.range 32)).getD 0

def flowCreateFails (s : State) (ctx : Nat) (p : List Byte) : List (Bool × Err) :=
  let kind := fld p 2 1
  let slice := fld p 3 1
  let cap := fld p 4 4
  let compl := fld p 8 4
  let n := fld p 0x18 4
  let ring := kind == 1
  [ (p.length != 48, err0 stArg),
    fieldErr stArg 0 ([(decide (fld p 0 1 > 1), 0), (decide (kind > 2), 2), (if kind = 2 then decide (fidKind compl > 1) else compl != 0, 8),
      (!ring && !fldZero p 0x10 8, 0x10), (!ring && n != 0, 0x18), (!ring && !fldZero p 0x20 8, 0x20)] ++ reservedBytes p [(0x1C, 4), (0x28, 8)]),
    fieldErr stRange 0 [(decide (fld p 1 1 > 3), 1), (slice > 31 && slice != 0xFF, 3), (!isPow2 cap || cap < 64 || cap > 2 ^ 20, 4),
      (decide (fld p 0xC 4 > 1000000), 0xC), (ring && (!isPow2 n || n < 16 || n > 2 ^ 20), 0x18)],
    fieldErr stAlign 0 [(ring && fld p 0x10 8 % 64 != 0, 0x10), (ring && fld p 0x20 8 % 8 != 0, 0x20)],
    fieldErr stXlate 0 [(ring && rangeStatus s ctx (fld p 0x10 8) (32 * n) .w stXlate, 0x10), (ring && rangeStatus s ctx (fld p 0x20 8) 4 .r stXlate, 0x20)],
    fieldErr stPerm 0 [(kind == 2 && (fidKind compl == 1 || flowForeign s ctx compl), 8), (ring && rangeStatus s ctx (fld p 0x10 8) (32 * n) .w stPerm, 0x10),
      (ring && rangeStatus s ctx (fld p 0x20 8) 4 .r stPerm, 0x20)],
    (kind == 2 && (s.flow compl).isNone, errAt stState 8),
    (s.disp.flows.length ≥ 65536 || s.sliceFlows (if slice = 0xFF then s.freeSlice else slice) ≥ 2048 ||
      decide ((s.disp.flows.vals.map Flow.capacity).sum + cap > 67108864), err0 stLimit) ]

def flowCreate : Handler := fun f _ x s =>
  let p := f.payload
  match firstFail (flowCreateFails s x.ctx p) with
  | some e => .err e (if e.status == stXlate || (e.status == stPerm && e.arg != 8) then s.countRefused x.ctx e.status else s)
  | none =>
    let slice := if fld p 3 1 = 0xFF then s.freeSlice else fld p 3 1
    let idx := (firstIdx (fun i => (s.disp.flows.find (2048 * slice + i)).isNone) 2048).getD 0 + 2048 * slice
    let g := s.disp.gens.at 0 idx
    let fl : Flow := { graphFlowInit 0 with
      gen := g, ctx := x.ctx, ordered := fld p 0 1 == 1, cls := fld p 1 1, complKind := fld p 2 1, complFlow := fld p 8 4, slice := slice, capacity := fld p 4 4
      starveUs := fld p 0xC 4, ringAddr := fld p 0x10 8, ringEntries := fld p 0x18 4, consAddr := fld p 0x20 8 }
    .ok (leb 4 (mkFid g idx) ++ zeros 4) { s with disp := { s.disp with
      flows := s.disp.flows.put idx fl, gens := s.disp.gens.put idx ((g + 1) % 4096) } }

/-! FLOW_DESTROY (R170). -/

/-- Whether a unit job that has not ended names a flow as its output. -/
def flowInJobs (s : State) (fid : Nat) : Bool :=
  let u := s.units
  u.table.vals.any (fun e => (e.queue ++ e.run.toList).any (fun j => j.flow == fid)) ||
    u.column.vals.any (fun e => (e.queue ++ e.run.toList).any (fun j => j.flow == fid)) ||
    u.join.vals.any (fun e => (e.queue ++ e.run.toList).any (fun j => jjFlow j.desc == fid)) ||
    ((u.codecQ.vals.flatten ++ u.lanes.vals ++ u.codecWait.vals.flatten).filterMap LaneWork.job?).any (fun j => j.flow == fid) ||
    u.susp.vals.any (fun x => match x.job with
      | .codec _ j => j.flow == fid
      | .join _ j => jjFlow j.desc == fid
      | .column _ j => j.flow == fid
      | .table _ j => j.flow == fid
      | .proj _ _ => false
      | .frame _ _ => false)

/-- Whether something still produces into a flow or takes from it. -/
def flowInUse (s : State) (fid : Nat) : Bool :=
  s.pods.images.vals.any (fun i => i.slots.contains fid) || s.roce.qps.vals.any (fun q => q.ingress.map Prod.fst == some fid || q.complFlow == fid) ||
    s.disp.flows.vals.any (fun f => f.complKind == 2 && f.complFlow == fid) ||
    s.frames.sessions.vals.any (fun x => x.outFlow == fid || x.asm.map Assembler.flow == some fid) || flowInJobs s fid

/-- A flow gone with all it holds. -/
def State.dropFlow (s : State) (idx : Nat) : State := { s with disp := { s.disp with flows := s.disp.flows.del idx } }

/-- The checks of flowDestroy, in the order of its table. -/
def flowDestroyFails (f : Frame) (x : Session) (s : State) : List (Bool × Err) :=
  let p := f.payload
  let fid := fld p 0 4
  [
    (badLength f 8, err0 stArg),
    fieldErr stArg 0 [(decide (fidKind fid > 1), 0), (decide (fld p 4 4 > 1), 4)],
    (fidKind fid == 1 || flowForeign s x.ctx fid, errAt stPerm 0),
    ((s.flow fid).isNone || flowInUse s fid, errAt stState 0),
    (!bit (fld p 4 4) 0 && (match s.flow fid with
      | none => false
      | some y => !y.ready.isEmpty || !y.out.isEmpty), err0 stState)]

def flowDestroy : Handler := fun f _ x s =>
  let p := f.payload
  let fid := fld p 0 4
  .check (flowDestroyFails f x s) s (.ok [] (s.dropFlow (fidIndex fid)))

/-! FLOW_BIND_INGRESS (R180). -/

/-- A binding that ends once its queue holds no SEND: the command completes. -/
def unbindSettle (n : Nat) (s : State) : State :=
  match s.qp n with
  | none => s.finishAll (.unbind n) stOk []
  | some _ => if s.roce.stopped.all (fun r => r.qpn != n) then (s.modQp n (fun q => { q with ingress := none })).finishAll (.unbind n) stOk [] else s

/-- The checks of bindIngress, in the order of its table. -/
def bindIngressFails (f : Frame) (x : Session) (s : State) : List (Bool × Err) :=
  let p := f.payload
  let fid := fld p 0 4
  let n := fld p 4 4
  let un := bit (fld p 9 1) 0
  let q := s.qp n
  [
    (badLength f 16, err0 stArg),
    (decide (fld p 8 1 > 7), errAt stRange 8),
    fieldErr stArg 0 ([(decide (fidKind fid > 1), 0), (decide (n ≥ 2 ^ 24), 4), (fld p 8 1 == s.host.rcpPriority, 8), (decide (fld p 9 1 > 1), 9)] ++ reservedBytes p [(0xA, 6)]),
    fieldErr stPerm 0 [(fidKind fid == 1 || flowForeign s x.ctx fid, 0), ((match q with
      | none => false
      | some q => q.ctx != x.ctx), 4)],
    fieldErr stState 0 [((s.flow fid).isNone, 0), ((match q with
      | none => true
      | some q => if un then q.ingress.map Prod.fst != some fid else q.ingress.isSome), 4)],
    (!un && s.roce.qps.vals.countP (fun q => q.ingress.map Prod.fst == some fid) ≥ 64, err0 stLimit)]

def bindIngress : Handler := fun f _ x s =>
  let p := f.payload
  let fid := fld p 0 4
  let n := fld p 4 4
  let un := bit (fld p 9 1) 0
  .check (bindIngressFails f x s) s <|
  if un then .waitThen (.unbind n) s (unbindSettle n) else .ok [] (s.modQp n (fun q => { q with ingress := some (fid, fld p 8 1) }))

/-! GRAPH_SUBMIT (R183 to R187). -/

/-- The nodes and the successor array of a graph. -/
def ndDeps (b : List Byte) (i : Nat) : Nat := fld b (64 * i + 0x28) 2
def ndSucc (nodes succ : List Byte) (i : Nat) : List Nat :=
  (List.range (fld nodes (64 * i + 0x2A) 2)).map (fun k => fld succ (4 * (fld nodes (64 * i + 0x2C) 4 + k)) 4)

/-- One round of taking away nodes that nothing left precedes: those that are left. -/
def graphPeel (edges : List (Nat × Nat)) (left : List Nat) : List Nat :=
  left.filter (fun i => edges.any (fun e => e.2 == i && left.contains e.1))

/-- The failures that the arrays themselves show, where they could be read. -/
def graphArrayFails (n total : Nat) (nodes succ : List Byte) : List (Bool × Err) :=
  let edges := (List.range n).flatMap (fun i => (ndSucc nodes succ i).map (fun j => (i, j)))
  [ ((List.range n).any (fun i => !fldZero nodes (64 * i + 0x30) 16), err0 stArg),
    ((List.range n).any (fun i => decide (fld nodes (64 * i + 0x2C) 4 + fld nodes (64 * i + 0x2A) 2 > total)) ||
      (List.range total).any (fun k => decide (fld succ (4 * k) 4 ≥ n)), errD stArg 1),
    ((List.range n).any (fun i => ndDeps nodes i != (List.range total).countP (fun k => fld succ (4 * k) 4 == i)), errD stArg 2),
    (!(times n (graphPeel edges) (List.range n)).isEmpty, errD stArg 3) ]

/-- The arrays of a submission, where it gives them and they can be read. -/
def graphArrays (s : State) (p : List Byte) : Option (List Byte × List Byte) :=
  let n := fld p 4 4
  let total := fld p 0x18 4
  if n < 1 ∨ n > 2 ^ 20 ∨ total > 2 ^ 22 ∨ fld p 8 8 % 64 ≠ 0 ∨ fld p 0x10 8 % 4 ≠ 0 then none
  else match s.peek 0 (fld p 8 8) (64 * n), s.peek 0 (fld p 0x10 8) (4 * total) with
    | some a, some b => some (a, b)
    | _, _ => none

def graphFails (s : State) (p : List Byte) : List (Bool × Err) :=
  let q := fld p 0 1
  let cancel := bit (fld p 1 1) 1
  let n := fld p 4 4
  let total := fld p 0x18 4
  let runs := (s.disp.graphs.find q).isSome
  [ (p.length != 32, err0 stArg),
    fieldErr stArg 0 ([(decide (fld p 1 1 > 3), 1)] ++ (if cancel then reservedBytes p [(2, 2), (4, 4), (8, 8), (0x10, 8), (0x18, 4), (0x1C, 4)] else reservedBytes p [(2, 2), (0x1C, 4)])) ] ++
  (if cancel then [] else match graphArrays s p with
    | none => []
    | some (a, b) => graphArrayFails n total a b) ++
  [ fieldErr stRange 0 [(decide (q > 15), 0), (!cancel && (n < 1 || n > 2 ^ 20), 4), (!cancel && decide (total > 2 ^ 22), 0x18)],
    (decide (q < 4), errAt stPerm 0),
    fieldErr stAlign 0 [(!cancel && fld p 8 8 % 64 != 0, 8), (!cancel && fld p 0x10 8 % 4 != 0, 0x10)],
    (if cancel then (false, err0 stXlate) else rangesAt s 0 [(8, fld p 8 8, 64 * n, .r), (0x10, fld p 0x10 8, 4 * total, .r)]),
    (if cancel then !runs else runs, errAt stState 0) ]

/-- A graph as its arrays describe it. -/
def graphOf (abort : Bool) (n : Nat) (nodes succ : List Byte) : Graph where
  nodes := (List.range n).map (fun i => ⟨sub nodes (64 * i) 40, ndDeps nodes i, ndSucc nodes succ i, .waiting⟩)
  abort := abort
  cancelled := false
  firstStatus := 0
  firstFailed := none

/-- Every node without predecessors becomes ready, in index order. -/
def graphStart (q n : Nat) (s : State) : State :=
  (List.range n).foldl (fun a i => match a.disp.graphs.find q with
    | none => a
    | some g => if (g.node i).deps = 0 then graphReady q i a else a) s

/-- A graph cancelled: its ready and waiting nodes are skipped; the items of the ready ones count as released to the graph, so that the counts of R188
still add up (DESIGN CHOICE, log entry 63). -/
def graphCancelGo (q : Nat) (s : State) : State :=
  match s.disp.graphs.find q with
  | none => s
  | some g =>
    let s1 := s.putGraph q { g with
      cancelled := true, nodes := g.nodes.map (fun n => if n.state == .ready || n.state == .waiting then { n with state := .skipped } else n) }
    graphEnd q (s1.modFlow (0x1000_0000 + q) (fun f => { f with
      ready := f.ready.filter (fun i => i.srcKind != 7), released := f.released + f.ready.countP (fun i => i.srcKind == 7) }))

/-- GRAPH_SUBMIT; cancel: the row takes requests with CANCEL alone, or those without. -/
def graphSubmit : Handler := fun f _ _ s =>
  let p := f.payload
  let q := fld p 0 1
  match firstFail (graphFails s p) with
  | some e => .err e (if e.status == stXlate || (e.status == stPerm && e.arg != 0) then s.countRefused 0 e.status else s)
  | none =>
    if bit (fld p 1 1) 1 then .waitThen (.graphCancel q) s (graphCancelGo q)
    else match Io.exec (memRead 0 (fld p 8 8) (64 * fld p 4 4)) s with
      | (.error e, s1) => .err { e with detail := 0 } s1
      | (.ok a, s1) => match Io.exec (memRead 0 (fld p 0x10 8) (4 * fld p 0x18 4)) s1 with
        | (.error e, s2) => .err { e with detail := 0 } s2
        | (.ok b, s2) => .waitThen (.graph q) (s2.putGraph q (graphOf (bit (fld p 1 1) 0) (fld p 4 4) a b)) (graphStart q (fld p 4 4))

/-! FLOW_STATS (R188). -/

/-- The block of a flow. -/
def Flow.stats (f : Flow) : List Byte :=
  leb 4 f.ready.length ++ leb 4 f.maxDepth ++ leb 4 (f.out.countP (fun h => !h.retired)) ++ leb 4 (f.out.countP (fun h => h.retired && !h.early)) ++ leb 8 f.entered ++
    leb 8 f.released ++ leb 4 f.complDropped ++ leb 4 f.hwDiscards ++ leb 4 f.windowStalls ++ leb 4 f.fullEvents ++ leb 2 f.slice ++ zeros 6 ++
    f.hist.flatMap (leb 8)

def flowStats : Handler := fun f _ x s =>
  let p := f.payload
  let fid := fld p 0 4
  let y := (s.flow fid).getD (graphFlowInit 0)
  .check [
    (badLength f 8, err0 stArg),
    fieldErr stArg 0 [(decide (fidKind fid > 1), 0), (decide (fld p 4 4 > 1), 4)],
    (if fidKind fid = 1 then !x.priv else flowForeign s x.ctx fid, errAt stPerm 0),
    ((s.flow fid).isNone, errAt stState 0)] s
    (.ok y.stats (if bit (fld p 4 4) 0 then s.putFlow fid { y with maxDepth := y.ready.length, hist := List.replicate 16 0 } else s))

/-! What the slices do by themselves. -/

/-- A slice acts on a flow: the fabric runs and the slice is not frozen. -/
def State.sliceFlow (s : State) (fid : Nat) (go : Flow → State → State) : State :=
  match s.flow fid with
  | none => s
  | some f => if s.active (unitSlice f.slice) then go f s else s

/-- STARVE_PROMOTION: the head item has waited longer than STARVE_US. -/
def starve (fid : Nat) (s : State) : State := s.sliceFlow fid (fun f s =>
  match f.ready with
  | [] => s
  | i :: _ => if f.starveUs ≠ 0 ∧ f.starveUs * 100 < s.ctl.now - i.entered then s.putFlow fid { f with promoted := true } else s)

/-- COMPLETION_RELEASE_RESUME: what waits for a full completion flow is released as far as it has room. -/
def releaseResume (fid : Nat) (s : State) : State := s.sliceFlow fid (fun f s => if f.complKind = 2 then s.release fid else s)

/-- COMPL_RING_POLL: the consumer index of a full ring is read again, and what has room is released. -/
def ringRelease (fid : Nat) (s : State) : State := s.sliceFlow fid (fun f s => if f.complKind = 1 then s.release fid else s)

/-- DESCRIPTOR_PARITY_ERROR: a stored descriptor is discarded; in an ordered flow a completion takes the item's place; a graph node has failed. -/
def descParity (fid k : Nat) (s : State) : State := s.sliceFlow fid (fun _ s => s.dropItem fid k false)

/-- The units of 10 ns in a window of 2^20 REFCLK periods (R190, R550). -/
def busyWindow (mode : Nat) : Nat := if mode = 1 then 671088 else 1048576

/-- POD_BUSY_WINDOW: a window of 2^20 REFCLK periods has ended (R190). -/
def podBusy (p : Nat) (s : State) : State :=
  let from_ := s.winStart p
  let now := s.ctl.now
  if s.ctl.fabricOn && s.ctl.refclk && decide (from_ + busyWindow s.clkMode ≤ now) then
    let n := s.holders p
    s.modPod p (fun x =>
      let time := x.busyTime + if n = 0 then 0 else now - max x.busyFrom from_
      { x with
        busy := if s.allQuarantined p then 0 else BitVec.ofNat 16 (min 0xFFFF (time * 0x1_0000 / (now - from_)))
        busyValid := true, held := n, winFrom := now, busyTime := 0 })
  else s

/-! The rows. -/

/-- A row of GRAPH_SUBMIT with or without CANCEL. -/
def graphRow (cancel : Bool) (f : Frame) (s : State) : State :=
  if bit (fld f.payload 1 1) 1 = cancel then rcpRun 0x0303 graphSubmit f s else s

def execFlowCreate (f : Frame) (s : State) : Host.Outcome State Fault Refusal := .next (rcpRun 0x0300 flowCreate f s)
def execFlowDestroy (f : Frame) (s : State) : Host.Outcome State Fault Refusal := .next (rcpRun 0x0301 flowDestroy f s)
def execFlowBindIngress (f : Frame) (s : State) : Host.Outcome State Fault Refusal := .next (rcpRun 0x0302 bindIngress f s)
def execGraphSubmit (f : Frame) (s : State) : Host.Outcome State Fault Refusal := .next (graphRow false f s)
def execGraphCancel (f : Frame) (s : State) : Host.Outcome State Fault Refusal := .next (graphRow true f s)
def execFlowStats (f : Frame) (s : State) : Host.Outcome State Fault Refusal := .next (rcpRun 0x0304 flowStats f s)
def execStarvePromotion (flow : Nat) (s : State) : Host.Outcome State Fault Refusal := .next (starve flow s)
def execCompletionReleaseResume (flow : Nat) (s : State) : Host.Outcome State Fault Refusal := .next (releaseResume flow s)
def execComplRingPoll (flow : Nat) (s : State) : Host.Outcome State Fault Refusal := .next (ringRelease flow s)
def execDescriptorParityError (flow : Nat) (k : Nat) (s : State) : Host.Outcome State Fault Refusal := .next (descParity flow k s)
def execPodBusyWindow (cluster : Fin 32) (pod : Fin 16) (s : State) : Host.Outcome State Fault Refusal := .next (podBusy (16 * cluster.val + pod.val) s)

end Sys2Proof.Machine
end

