-- ==== Sys2Proof/Machine/Reset.lean ====
section
/-!
DEFINITION. The reset controller (R550 to R563): what each level clears (R554), reset sources, release, the RESET command, REFCLK, and the clocked
islands' loss of lock and release (R20, R227, R557, R559).
-/
namespace Sys2Proof.Machine
open Sys2Proof

/-! What each level clears (R554, R607). -/

/-- A level's number in the nesting. -/
def Level.rank (l : Level) : Nat :=
  match l with
  | .core => 1
  | .system => 2
  | .power => 3

/-- The detectors after core or system reset: what they count is kept, every injection is disarmed (R528, R607). -/
def disarmAll (t : Tbl Detector) : Tbl Detector :=
  (t.mapV (fun (d : Detector) => { d with armed := none, lastEvent := none })).keep (fun _ d => d != Detector.init)

/-- The ceiling of SEG_LIMIT (R368). -/
def segCeiling (mode : Nat) : Nat := if mode = 1 then 0x32_0000 else 0x4E_2000

/-- The voltage loop as firmware starts it (R24, R27, R28). -/
def Clk.loopReset (c : Clk) : Clk := { c with
  target := 100, targetLast := 0, thermalLast := false, powerLast := false, limited := false, slowest := 0, tCount := 0, sCount := 0, iterations := 0,
  limitedCount := 0, iterated := false, avsFails := 0, recal := false }

/-- The fabric's on-chip side after core reset: links, table and address are kept, discovery and operations are not (R479). -/
def Fab.coreReset (f : Fab) : Fab := { f with disc := none, reqs := [], ops := [], embSent := [], loop := [] }

/-- Memory after core reset: the controllers and their contents are kept; contexts, mappings and the on-die stores are not (R226). -/
def Mem.coreReset (m : Mem) : Mem := { m with
  bytes := m.bytes.keep (fun a _ => decide (a < lpddrEnd))
  contexts := State.reset.mem.contexts
  channels := (m.channels.mapV (fun (c : Channel) => { c with moved := [] })).keep (fun _ c => c != Channel.init)
  reserved := []
  checks := []
  badWords := []
  lost := []
  moves := 0 }

/-- The Surveyor complex, the fabric and everything they hold are cleared. -/
def coreClear (s : State) : State := { s with
  ctl := { s.ctl with
    stage := 0, slot := 3, bootDetail := 0, surveyor := .held, resetSinceRom := true, staging := [], stagingLen := 0, fabricOn := false
    islandUp := putBit s.ctl.islandUp islSurveyor false }
  clk := { s.clk.loopReset with mons := Clk.reset.mons }
  fw := { s.fw with running := none, kept := [], writing := false, handover := none }
  roce := State.reset.roce
  rcp := State.reset.rcp
  svc := { State.reset.svc with detectors := disarmAll s.svc.detectors }
  mem := s.mem.coreReset
  pods := State.reset.pods
  disp := State.reset.disp
  units := State.reset.units
  gaz := { Gaz.reset with segLimit := segCeiling s.clkMode, windowLimit := segCeiling s.clkMode }
  emb := State.reset.emb
  fab := s.fab.coreReset
  frames := State.reset.frames
  dbg := { Dbg.reset with trv := s.dbg.trv }
  pins := { s.pins with gpioOut := 0, duty := List.replicate 8 0, smbAlert := false, trigPulse := false } }

/-- Clock, power and thermal registers after system reset. The latch of THERMTRIP_N falls at power-on reset only (R574). -/
def Clk.systemReset (c : Clk) : Clk := { Clk.reset with trip := c.trip }

/-- The low-speed interfaces after system reset; the TAP is kept. -/
def Pins.systemReset (p : Pins) : Pins := { Pins.reset with gpioIn := p.gpioIn, tach := p.tach, jtag := p.jtag, preload := p.preload }

/-- A redirected Traverse buffer loses what memory held of it (R540, R554). -/
def Trv.memoryCleared (t : Trv) : Trv := if t.redirect then { t with recs := [] } else t

/-- System reset: also the islands with their PLLs, memory, the Host Port, the Fabric Ports and the low-speed interfaces. -/
def systemClear (s : State) : State :=
  let s1 := coreClear s
  { s1 with
    ctl := { s1.ctl with islandUp := 0, pllLock := 0, pllStarted := false, trained := false }
    clk := s1.clk.systemReset
    host := HostPort.reset
    mem := { s1.mem with bytes := [], channels := [], density := 0, memGib := 0, badBlocks := [], retrains := [] }
    fab := Fab.reset
    dbg := { s1.dbg with trv := s1.dbg.trv.memoryCleared }
    pins := s1.pins.systemReset }

/-- Power-on reset: also the debug logic, the recorded causes and the drive timer. -/
def powerClear (s : State) : State :=
  let s1 := systemClear s
  { s1 with
    ctl := { s1.ctl with rstCause := 1, lockStatus := 0, unrecorded := 0, pinLevel := none, driveLevel := none, driving := false }
    clk := { s1.clk with trip := false }
    svc := { s1.svc with detectors := [] }
    dbg := { s1.dbg with trv := Dbg.reset.trv }
    pins := { s1.pins with jtag := .idcode, preload := 0 } }

/-- A reset level asserted: everything it clears is cleared, and the highest level asserted is held. -/
def assertReset (l : Level) (s : State) : State :=
  let s1 := match l with
    | .core => coreClear s
    | .system => systemClear s
    | .power => powerClear s
  let h := match s.ctl.held with
    | none => l
    | some k => if k.rank < l.rank then l else k
  { s1 with ctl := { s1.ctl with held := some h } }

/-! Release (R559 to R562). -/

/-- The straps sampled and every PLL started, but for CLKMODE 0b10 (R561, R562). -/
def sampleStraps (straps : BitVec 4) (s : State) : State :=
  { s with
    ctl := { s.ctl with straps := straps, pllStarted := straps.toNat / 4 != 2 }
    gaz := { s.gaz with segLimit := segCeiling (straps.toNat / 4), windowLimit := segCeiling (straps.toNat / 4) } }

/-- The fabric enabled; its counters start at zero (R530). Frames that came to a Fabric Port during a core reset move on (R479). -/
def enableFabric (s : State) : State :=
  (List.range 12).foldl (fun a p => (a.drainRx p).pumpPort p)
    { s with ctl := { s.ctl with held := none, fabricOn := true, fabricAt := s.ctl.now } }

/-! Power (R552, R568). -/

/-- RAIL_GOOD: once the last rail is good the power-on count starts. -/
def railGood (r : Nat) (s : State) : State :=
  let g := s.ctl.railGood.set r true
  { s with ctl := { s.ctl with
    railGood := g, porCounting := s.ctl.porCounting || g.all id, goodAt := if g.all id && !s.ctl.porCounting then s.ctl.now else s.ctl.goodAt } }

/-- RAIL_BELOW_THRESHOLD: power-on reset is asserted, unless REFCLK is absent (R551). -/
def railBelow (r : Nat) (s : State) : State :=
  let s1 := { s with ctl := { s.ctl with railGood := s.ctl.railGood.set r false, porCounting := false } }
  if s.ctl.refclk then assertReset .power s1 else s1

/-- The time of n REFCLK periods in units of 10 ns, rounded up: a period is 6.4 ns with CLKMODE 0b01 and 10 ns with any other. -/
def refclkTicks (mode n : Nat) : Nat := if mode = 1 then ceilDiv (n * 64) 100 else n

/-- POR_RELEASE: 16,384 periods after the last rail became good, power-on reset is released and the straps are sampled. -/
def porRelease (straps : BitVec 4) (s : State) : State :=
  if s.ctl.refclk && s.ctl.held == some .power && s.ctl.porCounting && s.ctl.railGood.all id &&
      decide (s.ctl.goodAt + refclkTicks (straps.toNat / 4) 16384 ≤ s.ctl.now) then
    enableFabric (sampleStraps straps { s with ctl := { s.ctl with porCounting := false } })
  else s

/-! RESET_N (R552, R555, R560). -/

/-- RESET_N_CORE_THRESHOLD: core reset is asserted. A pulse during power-on reset is ignored. -/
def pinCore (s : State) : State :=
  if s.ctl.refclk && s.ctl.held != some .power && s.ctl.pinLevel.isNone then
    assertReset .core { s with ctl := { s.ctl with pinLevel := some .core } }
  else s

/-- RESET_N_SYSTEM_THRESHOLD: the pulse that reached the core threshold goes on, and the reset is raised to system reset. -/
def pinSystem (s : State) : State :=
  if s.ctl.refclk && s.ctl.held != some .power && s.ctl.pinLevel == some .core then
    assertReset .system { s with ctl := { s.ctl with pinLevel := some .system } }
  else s

/-- RESET_N_RELEASE: the pin is high for 4 periods: the cause is recorded and the reset released. -/
def pinRelease (straps : BitVec 4) (s : State) : State :=
  if !s.ctl.refclk || s.ctl.driving || s.ctl.held == some .power then s
  else
    let s1 := { s with ctl := { s.ctl with pinLevel := none } }
    match s.ctl.pinLevel with
    | none => s
    | some .core => enableFabric { s1 with ctl := { s1.ctl with rstCause := putBit s1.ctl.rstCause 2 true } }
    | some _ => enableFabric (sampleStraps straps { s1 with ctl := { s1.ctl with rstCause := putBit s1.ctl.rstCause 1 true } })

/-! The RESET command (R553). -/

/-- The checks of resetCmd, in the order of its table. -/
def resetCmdFails (f : Frame) : List (Bool × Err) :=
  let p := f.payload
  [
    (badLength f 8, err0 stArg),
    (fld p 0 1 > 1, errAt stArg 0),
    (!fldZero p 1 7, (reservedErr p [(1, 7)]).getD (err0 stArg))]

def resetCmd : Handler := fun f _ _ s =>
  let p := f.payload
  .check (resetCmdFails f) s <|
  .okThen [] s (fun s => { s with ctl := { s.ctl with
    driveLevel := some (if fld p 0 1 = 0 then .core else .system), driveAt := s.ctl.now } })

/-- RESET_DRIVE_START: 1 ms after the completion the controller drives RESET_N low. -/
def driveStart (s : State) : State :=
  if s.ctl.refclk && s.ctl.driveLevel.isSome && !s.ctl.driving && decide (s.ctl.driveAt + 100000 ≤ s.ctl.now) then
    { s with ctl := { s.ctl with driving := true, driveAt := s.ctl.now, rstCause := putBit s.ctl.rstCause 3 true } }
  else s

/-- How long the controller drives RESET_N low, in units of 10 ns: 20 µs for a core reset and 400 µs for a system reset with either REFCLK. -/
def driveTicks (l : Level) : Nat := if l = .core then 2000 else 40000

/-- RESET_DRIVE_END: the drive, which lasts beyond the threshold of its level, ends. -/
def driveEnd (s : State) : State :=
  match s.ctl.driveLevel, s.ctl.pinLevel with
  | some l, some k =>
    if s.ctl.refclk && s.ctl.driving && decide (l.rank ≤ k.rank) && decide (s.ctl.driveAt + driveTicks l ≤ s.ctl.now) then
      { s with ctl := { s.ctl with driving := false, driveLevel := none } }
    else s
  | _, _ => s

/-! Loss of lock (R20, R227, R516, R557). -/

/-- The granules of a context on a controller, each once, with the check granules that hold check words of one. -/
def Ctx.onController (c : Ctx) (m : Mem) (n : Nat) : List Nat :=
  let data := ((List.range 4).flatMap (fun k => granulesOn (4 * n + k) (c.maps.flatMap Mapping.exts))).eraseDups
  data ++ (m.checks.keep (fun _ l => l.any (data.contains ·))).keys

/-- A GRANULES_LOST event (R227). -/
def granulesLost (n ctx count : Nat) (p : Session → Bool) (s : State) : State :=
  s.event p 2 2 (leb 1 n ++ zeros 1 ++ leb 2 ctx ++ zeros 4 ++ leb 8 count)

/-- Items of a flow whose descriptors lay on a lost channel: of those its slice does not hold on die, each as a free value says (R516). -/
def loseOverflow (fid : Nat) (n : Nat) (s : State) : State :=
  (List.range n).reverse.foldl (fun a k =>
    if k < Config.onDieEntries then a
    else if (a.draw).1 % 2 = 1 then (a.draw).2.discardItem fid k else (a.draw).2) s

/-- The part of a redirected Traverse buffer on a lost controller: its records are lost, and one GAP record of a capture that runs gives the count
(R537). Which they are, and the core that the GAP names, are free values. -/
def loseTraverse (s : State) : State :=
  let t := s.dbg.trv
  let kept := (t.recs.zipIdx.filter (fun r => Config.freeNat (s.free + r.2) % 2 == 1)).map Prod.fst
  let n := t.recs.length - kept.length
  if !t.redirect ∨ n = 0 then s
  else
    let s1 := { s with free := s.free + t.recs.length }
    let g : TrvRec := ⟨3, (s1.draw).1 % 4, 0, s.ctl.surveyorTime, n, 0⟩
    let t1 := { t with recs := kept, lost := sat32 t.lost n }
    let t2 := if t.state = 1 ∨ t.state = 2 then { t1 with recs := kept ++ [g], written := t.written + 1 } else t1
    { (s1.draw).2 with dbg := { s.dbg with trv := t2 } }

/-- A memory controller island lost: its channels are LOST and have nothing to bring back (R221), what was mapped on them is lost and reported, running service on them ends. -/
def mcLost (n : Nat) (s : State) : State :=
  let used := s.mem.contexts.map (fun e => (e.1, e.2.onController s.mem n))
  let all := (used.flatMap Prod.snd).eraseDups
  let s1 := { s with mem := { s.mem with lost := all.foldl (fun t g => t.put g n) s.mem.lost } }
  let s2 := (List.range 4).foldl (fun a k =>
    let ch := 4 * n + k
    let b := if (a.channel ch).state = .absent then a else (a.setChannel ch .lost).modChannel ch (fun c => { c with moved := [] })
    if (b.mem.retrains.find ch).isSome then (b.endRetrain ch).failAll (.channel ch) (unavailable (islMc n)) else b) s1
  let s3 := granulesLost n 0xFFFF all.length (·.priv) s2
  let s4 := used.foldl (fun a u => if u.2.isEmpty then a else granulesLost n u.1 u.2.length (fun x => x.ctx == u.1 && !x.priv) a) s3
  let s5 := { s4 with svc := { s4.svc with
    lostControllers := if s4.svc.lostControllers.contains n then s4.svc.lostControllers else s4.svc.lostControllers ++ [n] } }
  let s6 := s5.disp.flows.foldl (fun a e => loseOverflow (mkFid e.2.gen e.1) e.2.ready.length a) s5
  let s7 := s6.disp.graphFlows.foldl (fun a e => loseOverflow (0x1000_0000 + e.1) e.2.ready.length a) s6
  loseTraverse (frameStoresLost n (embUnitLost n s7))

/-- What an island's loss of lock means for the island. -/
def islandEffect (i : Nat) (s : State) : State :=
  if i = islHost then
    let s1 := linkDown s
    { s1 with
      host := { s1.host with link := .down, mode := 0, rx := [], txq := [], xoff := 0, paused := 0 }
      roce := { s1.roce with stopped := [] } }
  else if i < 13 then s.failPort (i - 1)
  else if i < 45 then mcLost (i - 13) s
  else if i = islSurveyor then { s with ctl := { s.ctl with surveyor := .held } }
  else s

/-- An island that has lost lock returns to reset, and its detector fires; rec: the loss is recorded at once. -/
def islandLost (i : Nat) (rec inj : Bool) (s : State) : State :=
  let c := s.ctl
  let lost := c.islandUp.getLsbD i
  let s1 := { s with ctl := { c with
    pllLock := putBit c.pllLock i false
    islandUp := putBit c.islandUp i false
    lockStatus := if lost && rec then putBit c.lockStatus i true else c.lockStatus
    unrecorded := if lost && !rec then putBit c.unrecorded i true else c.unrecorded } }
  if lost then islandEffect i (if inj then s1.fireInjected 3 i 0 else s1.fire 3 i 0 false) else s1

/-- ISLAND_LOCK_LOSS: a PLL loses lock; an armed injection of the island lock detector is such a loss (R525). -/
def lockLoss (i : Nat) (s : State) : State := islandLost i s.ctl.refclk (s.armed 3 i).isSome s

/-- REFCLK_STOP: every PLL loses lock (R551). -/
def refclkStop (s : State) : State :=
  if s.ctl.refclk then (List.range 47).foldl (fun a i => islandLost i false false a) { s with ctl := { s.ctl with refclk := false } } else s

/-- REFCLK_RETURN: every lock loss is recorded; a rail that has fallen meanwhile asserts power-on reset. -/
def refclkReturn (s : State) : State :=
  if s.ctl.refclk then s
  else
    let s1 := { s with ctl := { s.ctl with refclk := true, lockStatus := s.ctl.lockStatus ||| s.ctl.unrecorded, unrecorded := 0 } }
    if s.ctl.railGood.all id || s.ctl.held == some .power then s1 else assertReset .power s1

/-! Lock and the release of islands (R559). -/

/-- PLL_LOCKED: a started PLL gains lock, and its hold of 64 µs begins. -/
def pllLocked (i : Nat) (s : State) : State :=
  if s.ctl.refclk && s.ctl.pllStarted && !s.ctl.pllLock.getLsbD i then
    { s with ctl := { s.ctl with pllLock := putBit s.ctl.pllLock i true, lockAt := s.ctl.lockAt.put i s.ctl.now } }
  else s

/-- Channels that a lock loss left LOST are retrained as by ACTION 2 once their island is released, by firmware (R227). -/
def retrainLost (s : State) : State :=
  (List.range 128).foldl (fun a ch =>
    if a.up (islMc (ch / 4)) && (a.channel ch).state == .lost && (a.mem.retrains.find ch).isNone then
      ({ a with mem := { a.mem with retrains := a.mem.retrains.put ch ⟨2, 0⟩ } }).setChannel ch .retraining
    else a) s

/-- What the release of an island starts. STAGE shows that the boot ROM runs; on the relock path it returns to 4 when firmware is ready (R558). -/
def islandStart (i : Nat) (s : State) : State :=
  if i = islHost then
    if s.clkMode = 3 then s else { s with host := { s.host with link := .training } }
  else if i < 13 then s
  else if i < 45 then if s.fwReady then retrainLost s else s
  else if i = islSurveyor then { s with ctl := { s.ctl with surveyor := .atRom, stage := 0, surveyorTime := 0 } }
  else s

/-- Whether a PLL has held lock for 64 µs. -/
def State.lockHeld (s : State) (i : Nat) : Bool := s.ctl.pllLock.getLsbD i && decide (s.ctl.lockAt.at 0 i + 6400 ≤ s.ctl.now)

/-- Whether an island may leave reset: its PLL has held lock, or is bypassed, and no level holds the island; the Surveyor complex also waits for the fabric. -/
def mayRelease (i : Nat) (s : State) : Bool :=
  s.ctl.refclk && s.ctl.pllStarted && (s.clkMode == 3 || s.lockHeld i) && !s.up i &&
    (match s.ctl.held with
      | none => i != islSurveyor || s.ctl.fabricOn
      | some .core => i != islSurveyor
      | some _ => false)

/-- ISLAND_RELEASE: an island whose PLL has held lock for 64 µs leaves reset. -/
def islandRelease (i : Nat) (s : State) : State :=
  if mayRelease i s then islandStart i { s with ctl := { s.ctl with islandUp := putBit s.ctl.islandUp i true } } else s

/-! The 10 ns tick. -/

/-- One period of 10 ns: the counters that advance from REFCLK, and the Surveyor complex's counter at 1.6 GHz (R530). -/
def tick (s : State) : State :=
  let s := (s.pods.pods.filter (fun e => decide (e.2.sortBeats ≠ 0) && s.active e.1)).foldl (fun a e => a.sortFree e.1) s
  { s with ctl := { s.ctl with
    now := if s.ctl.refclk then s.ctl.now + 1 else s.ctl.now
    surveyorTime := if s.up islSurveyor then s.ctl.surveyorTime + 16 else s.ctl.surveyorTime } }

/-! The rows. -/

def execIslandLockLoss (i : Fin 47) (s : State) : Host.Outcome State Fault Refusal := .next (lockLoss i s)
def execIslandRelease (i : Fin 47) (s : State) : Host.Outcome State Fault Refusal := .next (islandRelease i s)
def execPllLocked (i : Fin 47) (s : State) : Host.Outcome State Fault Refusal := .next (pllLocked i s)
def execRailGood (r : Fin 6) (s : State) : Host.Outcome State Fault Refusal := .next (railGood r s)
def execRailBelowThreshold (r : Fin 6) (s : State) : Host.Outcome State Fault Refusal := .next (railBelow r s)
def execPorRelease (straps : BitVec 4) (s : State) : Host.Outcome State Fault Refusal := .next (porRelease straps s)
def execResetNCoreThreshold (s : State) : Host.Outcome State Fault Refusal := .next (pinCore s)
def execResetNSystemThreshold (s : State) : Host.Outcome State Fault Refusal := .next (pinSystem s)
def execResetNRelease (straps : BitVec 4) (s : State) : Host.Outcome State Fault Refusal := .next (pinRelease straps s)
def execResetCore (f : Frame) (s : State) : Host.Outcome State Fault Refusal := .next (rcpAction 0x0A00 0 0 resetCmd f s)
def execResetSystem (f : Frame) (s : State) : Host.Outcome State Fault Refusal := .next (rcpAction 0x0A00 0 1 resetCmd f s)
def execResetDriveStart (s : State) : Host.Outcome State Fault Refusal := .next (driveStart s)
def execResetDriveEnd (s : State) : Host.Outcome State Fault Refusal := .next (driveEnd s)
def execRefclkStop (s : State) : Host.Outcome State Fault Refusal := .next (refclkStop s)
def execRefclkReturn (s : State) : Host.Outcome State Fault Refusal := .next (refclkReturn s)

end Sys2Proof.Machine
end

