-- ==== Sys2Proof/Machine/Stop.lean ====
section
/-!
DEFINITION. Operations that end with their thread or context: those that a quarantine abandons (R504), and what firmware does by itself when the stall
watchdog fires (R508, R510).
-/
namespace Sys2Proof.Machine
open Sys2Proof

/-! Streaming operations dropped. -/

/-- A slice engine, Table Intake engine or Projection Engine without the jobs that mine selects. -/
def Engine.without {α : Type} (mine : α → Bool) (e : Engine α) : Engine α :=
  ⟨e.queue.filter (fun j => !mine j), match e.run with
    | none => none
    | some j => if mine j then none else some j⟩

/-- The units without the jobs that mine selects: engines, codec queues and lanes; what a lane decodes for a Table Intake job goes with that job. -/
def dropJobs (mine : JobHead → Bool) (s : State) : State :=
  let u := s.units
  let work := fun (w : LaneWork) => match w with
    | .job j => mine j.head
    | .gds g => match (s.tableEng g.engine).run with
      | none => true
      | some j => mine j.head
  let lanes := (u.lanes.filter (fun e => work e.2)).map Prod.fst
  lanes.foldl (fun a k => a.setLane (k / 8) (k % 8) none) { s with units := { u with
    table := u.table.mapV (Engine.without (fun j => mine j.head))
    column := u.column.mapV (Engine.without (fun j => mine j.head))
    join := u.join.mapV (Engine.without (fun j => mine j.head))
    proj := u.proj.mapV (Engine.without (fun (w : ProjWork) => (w.job?.map (fun j => mine j.head)).getD false))
    codecQ := u.codecQ.mapV (fun l => l.filter (fun w => !work w))
    codecWait := u.codecWait.mapV (fun l => l.filter (fun w => !work w)) } }

/-! Abandonment (R504). -/

/-- Every job of an engine. -/
def Engine.jobs {α : Type} (e : Engine α) : List α := e.queue ++ e.run.toList

/-- Whether an issuer is a tag of a thread since its last restart. -/
def Issuer.isThread (i : Issuer) (t epoch : Nat) : Bool :=
  match i with
  | .pod a _ _ e => a == t && e == epoch
  | .rcp _ _ => false

/-- Where the operations of a thread put their results: contexts, addresses and lengths. -/
def destinations (t epoch : Nat) (s : State) : List (Nat × Nat × Nat) :=
  let u := s.units
  let heads := (u.table.vals.flatMap Engine.jobs).map TableJob.head ++ (u.column.vals.flatMap Engine.jobs).map ColJob.head
    ++ (u.join.vals.flatMap Engine.jobs).map JoinJob.head
  (heads.filter (fun h => h.iss.isThread t epoch)).map (fun h => (h.ctx, h.outAddr, h.outLen))
    ++ (s.mem.watch.filter (fun w => match w.owner with
      | .op i => i.isThread t epoch
      | .sample _ _ => false)).flatMap (fun w => w.ranges.map (fun r => (w.ctx, r.1, r.2)))
    ++ (s.fab.ops.vals.filter (fun o => o.iss.isThread t epoch)).flatMap (fun o =>
      let d := o.desc
      if rdOp d = 1 then [(o.ctx, rdLocal d, rdLength d)]
      else if rdOp d = 2 ∧ rdLocal d ≠ 0 then [(o.ctx, rdLocal d, rdAtomBytes d)]
      else if rdOp d = 0 ∧ s.isOwn (rdDst d) then [(o.ctx, rdRemote d, rdLength d)]
      else [])

/-- The unit operations of a thread abandoned: they are gone, and their destinations are undefined. An EMBU, a GUPD and a resumed sample, which have no
destination in memory of their own, run to their end and write no record (DESIGN CHOICE, log entry 34). -/
def abandonOps (t epoch : Nat) (s : State) : State :=
  let mine := fun (i : Issuer) => i.isThread t epoch
  let dest := destinations t epoch s
  let s1 := dropJobs (fun h => mine h.iss) s
  let gone := (s1.fab.ops.filter (fun o => mine o.2.iss)).map Prod.fst
  let s2 := { s1 with
    svc := { s1.svc with abandoned := s1.svc.abandoned ++ [(t, epoch)] }
    mem := { s1.mem with watch := s1.mem.watch.filter (fun w => match w.owner with
      | .op i => !mine i
      | .sample _ _ => true) }
    emb := { s1.emb with gathers := s1.emb.gathers.keep (fun _ g => !mine g.iss) }
    fab := { s1.fab with ops := s1.fab.ops.keep (fun _ o => !mine o.iss), reqs := s1.fab.reqs.keep (fun _ r => !gone.contains r.op) } }
  wakeRemote (dest.foldl (fun a d => a.scramble d.1 d.2.1 d.2.2) s2)

/-- A Pod quarantined without DRAIN: every thread is stopped as by steps 2 to 5 of R132, its item retired with a status; those whose unit operations have
not ended become QUARANTINED with the last of them (R504). -/
def quarantineNow (p status : Nat) (s : State) : State :=
  let s1 := s.modPod p (fun x => { x with quarantine := true, draining := false, selftest := none, quarAt := s.ctl.now, accQueue := [] })
  (List.range 16).foldl (fun a k => if (a.thread (16 * p + k)).st = .quarantined then a else a.stop (16 * p + k) status) s1

/-! The handshake stall watchdog (R508, R510). -/

/-- A Pod that firmware quarantines by itself (R508). -/
def selfQuarantine (p : Nat) (s : State) : State :=
  if (s.pod p).quarantine && s.allQuarantined p then s
  else (podSettle p (quarantineNow p stHw s)).event (fun _ => true) 2 1 (leb 2 p ++ leb 4 (detId 0x0C p))

/-- An engine that firmware resets by itself: its samples end, and it returns to placement if it passes its check, which is a free value. -/
def selfReset (e : Nat) (s : State) : State :=
  let s1 := frameEngineReset e s
  let pass := (s1.draw).1 % 2 == 1 && (s.waiting (.engineReset e)).isEmpty
  let s2 := (s1.draw).2
  { s2 with svc := { s2.svc with fiPlaced := putBit s2.svc.fiPlaced e pass } }

/-- What firmware does by itself when the watchdog of a unit fires: a Pod is quarantined, a Frame Intake engine reset. -/
def selfService (u : Nat) (s : State) : State :=
  if u < 0x200 then selfQuarantine u s
  else if 0x260 ≤ u ∧ u < 0x280 then selfReset (u - 0x260) s
  else s

/-- What firmware has to do for watchdogs that fired while it did not run. -/
def serveStalls (s : State) : State :=
  s.svc.stalled.foldl (fun a u => selfService u a) { s with svc := { s.svc with stalled := [] } }

end Sys2Proof.Machine
end

