-- ==== Sys2Proof/Machine/FwStore.lean ====
section
/-!
DEFINITION. Firmware images, slot records and their checks (R481 to R488), and the boot record (R497).
-/
namespace Sys2Proof.Machine
open Sys2Proof

/-! Flash contents (R483). -/

/-- Bytes of a flash: unlisted bytes are erased. -/
def Flash.read (f : Flash) (off n : Nat) : List Byte := (List.range n).map (fun i => f.bytes.at 0xFF (off + i))

/-- Bytes written to a flash. -/
def Flash.write (f : Flash) (off : Nat) (bs : List Byte) : Flash :=
  { f with bytes := (bs.zipIdx).foldl (fun t b => t.upd 0xFF (off + b.2) b.1) f.bytes }

/-- The first byte of slot A (0) or B (1), and of its image. -/
def slotBase (k : Nat) : Nat := k * 0x0200_0000
def imageBase (k : Nat) : Nat := slotBase k + 0x1000

/-- The longest image. -/
def maxImage : Nat := 0x0200_0000 - 0x1000

/-- A slot record as read: its state and sequence number. -/
structure SlotRec where
  state : Nat
  seq : Nat
  deriving DecidableEq, Repr

/-- The slot record of a slot; none where the slot is empty (R483). -/
def Flash.slot (f : Flash) (k : Nat) : Option SlotRec :=
  let b := f.read (slotBase k) 68
  if fld b 0 4 = 0x544F_4C53 ∧ fld b 0x40 4 = crc32c (b.take 64) ∧ 1 ≤ fld b 4 1 ∧ fld b 4 1 ≤ 3 then some ⟨fld b 4 1, fld b 8 8⟩
  else none

/-- A slot record erased. -/
def Flash.eraseSlot (f : Flash) (k : Nat) : Flash := f.write (slotBase k) (List.replicate 4096 0xFF)

/-- A slot record written. -/
def Flash.putSlot (f : Flash) (k state seq : Nat) (digest : List Byte) : Flash :=
  let b := leb 4 0x544F_4C53 ++ leb 1 state ++ zeros 3 ++ leb 8 seq ++ digest
  f.write (slotBase k) (b ++ leb 4 (crc32c b))

/-- A slot record with its STATE rewritten. -/
def Flash.restate (f : Flash) (k state : Nat) : Flash :=
  let b := f.read (slotBase k) 68
  f.putSlot k state (fld b 8 8) (sub b 0x10 48)

/-! Images (R481, R482, R484 step 3, R485). -/

/-- The checks of a firmware image whose bytes rd reads and of which avail bytes are there: the image, or the error of R485. -/
def checkImage (fu : Fuses) (slot avail : Nat) (rd : Nat → Nat → List Byte) : Except Err FwImage :=
  let h := rd 0 64
  let body := fld h 0x10 4
  let so := fld h 0x18 4
  let sg := rd so 224
  let ks := fld sg 5 1
  let key := sub sg 0x10 97
  let digest := sha384 (rd 0 so)
  let svn := fld h 0x0C 1
  match firstFail [
    (avail < 288 || fld h 0 4 != 0x5746_5653 || !fldZero h 6 2 || !fldZero h 0x0E 2 || !fldZero h 0x1C 36
      || fld h 0x0D 1 > 15 || svn > 64 || body % 16 != 0 || so != 64 + body || so + 224 > maxImage || so + 224 > avail
      || fld h 0x14 4 ≥ body
      || fld sg 0 4 != 0x4247_4953 || ks > 3 || !fldZero sg 6 2 || fld sg 8 8 != so || !fldZero sg 0x71 3 || !fldZero sg 0xD4 12,
      errD stCorrupt 0x0C01),
    (fu.revoke.getLsbD ks || sha384 key != nth fu.rootHash [] ks, errD stAuth 0x0C02),
    (fld sg 4 1 == 1 && fld h 4 2 == 1 && !ecdsaVerify key digest (sub sg 0x74 96), errD stAuth 0x0C03),
    (svn < fu.svn, errD stAuth 0x0C04),
    (fld h 4 2 != 1 || fld sg 4 1 != 1, errD stUnsupported 0x0C05)] with
  | some e => .error e
  | none => .ok ⟨slot, fld h 8 4, svn, fld h 0x0D 1, ks, digest⟩

/-- The image of a slot checked. -/
def Flash.checkSlot (f : Flash) (fu : Fuses) (k : Nat) : Except Err FwImage :=
  checkImage fu k maxImage (fun off n => f.read (imageBase k + off) n)

/-- The 16-byte boot record of R497. -/
def bootRecord (s : State) (img : FwImage) : List Byte :=
  leb 1 (s.ctl.straps.toNat % 4) ++ leb 1 (s.ctl.straps.toNat / 4) ++ leb 1 s.fw.fuses.svn ++ leb 1 s.fw.fuses.revoke.toNat
    ++ leb 1 img.slot ++ leb 1 img.keySlot ++ zeros 10

/-- The inactive slot: the one that does not hold the running image; after a network boot the empty one, or else the one with the lower
SEQUENCE (R486, R565). -/
def State.inactiveSlot (s : State) : Nat :=
  match (s.fw.running.map FwImage.slot).getD 2 with
  | 0 => 1
  | 1 => 0
  | _ => match s.flash.slot 0, s.flash.slot 1 with
    | none, _ => 0
    | some _, none => 1
    | some a, some b => if a.seq ≤ b.seq then 0 else 1

/-- The sequence number of the running slot; of a network boot the highest of either slot. -/
def State.runningSeq (s : State) : Nat :=
  let seq := fun k => ((s.flash.slot k).map SlotRec.seq).getD 0
  match (s.fw.running.map FwImage.slot).getD 2 with
  | 0 => seq 0
  | 1 => seq 1
  | _ => max (seq 0) (seq 1)

end Sys2Proof.Machine
end

