-- ==== Sys2Proof/Machine/Session.lean ====
section
/-!
DEFINITION. HELLO, sessions, events over RCP (R65 to R87, R493 to R495), the ownership of shared resources (R518, R521) and the end of a session
(R72).
-/
namespace Sys2Proof.Machine
open Sys2Proof

/-! Ownership of shared resources (R518 to R522). -/

def resGpio (n : Nat) : Nat := n
def resFlash : Nat := 8
def resTraverse : Nat := 9
def resSmbus : Nat := 10
def resTrigIn : Nat := 11
def resTrigOut : Nat := 12

/-- The owner of a resource. -/
def State.owner (s : State) (r : Nat) : Option Owner := s.svc.owners.find r

/-- Whether a session owns a resource. -/
def State.owns (s : State) (sid r : Nat) : Bool :=
  match s.owner r with
  | none => false
  | some o => !o.firmware && o.session == sid

/-- An ownership ends: a GPIO pin's output bit returns to 0 and the pin to high impedance (R603); a flash write in progress leaves the inactive
slot empty (R487). -/
def State.disown (s : State) (r : Nat) : State :=
  let s1 := { s with svc := { s.svc with owners := s.svc.owners.del r } }
  let s2 := if r < 8 then { s1 with pins := { s1.pins with
    gpioOut := putBit s1.pins.gpioOut r false, duty := s1.pins.duty.set r 0 } } else s1
  if r = resFlash then { s2 with fw := { s2.fw with writing := false } } else s2

/-- The resources of a session released. -/
def State.releaseAll (s : State) (sid : Nat) : State :=
  ((List.range 13).filter (s.owns sid)).foldl State.disown s

/-! The end of a session (R52, R72). -/

/-- A session ends: its queue pairs are flushed and go, its resources are released, and its cache, subscriptions and assembled wait graph
are discarded; its commands that still run go on without it. -/
def endSession (sid : Nat) (s : State) : State :=
  let qs := (s.roce.qps.filter (fun e => e.2.session == sid)).map Prod.fst
  let s1 := qs.foldl (fun a n => qpSettle n (qpGo n a)) s
  let s2 := s1.releaseAll sid
  let left := match s2.session sid with
    | none => []
    | some x => x.inFlight.map (fun c => (⟨sid, { x with inFlight := [], cache := [] }, c⟩ : Orphan))
  { s2 with rcp := { s2.rcp with sessions := s2.rcp.sessions.del sid, orphans := s2.rcp.orphans ++ left }, dbg := { s2.dbg with
    graphs := s2.dbg.graphs.del sid
    assembling := s2.dbg.assembling.filter (fun a => a.1 != sid) } }

/-- SMB_ALERT_N is released once no MCTP session holds an event it has not fetched (R595). -/
def alertSettle (s : State) : State :=
  if s.rcp.sessions.vals.any (fun x => x.path == .mctp && x.evSeq > x.fetched) then s
  else { s with pins := { s.pins with smbAlert := false } }

/-! HELLO (R65 to R67). -/

/-- HELLO. One with REQUEST_ID 0 is answered: R64 handles HELLO at step 5, before step 9 would refuse the number that R76 reserves (the model's reading,
log entry 14). -/
def hello (f : Frame) (s : State) : State :=
  let p := f.payload
  let lo := fld p 0 1
  let hi := fld p 1 1
  let mp := fld p 2 2
  let ans := fun st b => frameAnswer f 1 st b s
  let tail := leb 1 1 ++ leb 1 1 ++ zeros 2 ++ leb 8 s.fw.fuses.serial
  let bad := fun e => ans e.status (errPayload e)
  if f.sessionId ≠ 0 then bad (err0 stArg)
  else match firstFail [
      (badLength f 8, err0 stArg),
      (!fldZero p 4 4, (reservedErr p [(4, 4)]).getD (err0 stArg)),
      (lo == 0, errAt stRange 0),
      (mp < 512 || mp > 8192, errAt stRange 2),
      (lo > hi, errAt stArg 0)] with
    | some e => bad e
    | none =>
      if lo > 1 then ans stVersion (zeros 4 ++ tail)
      else ans stOk (leb 1 1 ++ leb 1 0 ++ leb 2 (min mp 8192) ++ tail)

/-! OPEN_SESSION (R68 to R71, R493 to R495). -/

/-- Whether a privileged session with a host key is admitted (R495): by the list, or the first over SMBus/MCTP while the list is empty. -/
def admitted (s : State) (f : Frame) (key : List Byte) : Bool :=
  s.hostList.contains (sha384 key) || (s.hostList.isEmpty && f.path == .mctp)

/-- The answer of an OPEN_SESSION, remembered for 60 s (R71). -/
def openAnswer (f : Frame) (o : RcpOut) (s : State) : State :=
  ({ s with rcp := { s.rcp with
      opens := ⟨f.path, f.srcIp, f.srcPort, f.requestId.toNat, s.ctl.now, o⟩ :: s.rcp.opens } }).sendRcp f.path f.srcIp f.srcPort o

/-- A completion of OPEN_SESSION in the request's version. -/
def openOut (f : Frame) (status : Nat) (payload : List Byte) : RcpOut :=
  ⟨f.verMajor.toNat, f.verMinor.toNat, 0, f.requestId.toNat, 2, 1, status, payload, []⟩

/-- A session record as it opens. -/
def newSession (f : Frame) (s : State) (priv : Bool) (ctx maxp idle : Nat) (key : Option (List Byte)) : Session where
  path := f.path
  ip := f.srcIp
  port := f.srcPort
  verMajor := f.verMajor.toNat
  verMinor := f.verMinor.toNat
  priv := priv
  ctx := ctx
  maxPayload := maxp
  key := key
  idle := if idle = 0 then 60 else idle
  lastSeen := s.ctl.now
  boot := s.ctl.surveyor == .netboot
  cache := []
  floor := 0
  inFlight := []
  mask := 0
  evSeq := 0
  events := []
  unsent := []
  fetched := 0
  latches := []

/-- The checks of R70, R88 (boot ROM) and R564, in order. -/
def openFails (f : Frame) (s : State) : List (Bool × Err) :=
  let p := f.payload
  let boot := s.ctl.surveyor == .netboot
  let priv := fld p 0 1
  let mac := fld p 1 1
  let ctx := fld p 2 2
  let key := sub p 8 97
  [(p.length < 8, err0 stArg),
   (priv > 1, errAt stArg 0),
   (mac > 1, errAt stArg 1),
   (p.length != (if mac = 1 then 105 else 8), err0 stArg),
   (boot && (priv != 0 || mac != 0), err0 stUnsupported),
   (mac == 1 && (ptDecode key).isNone, errAt stArg 8),
   (!boot && ctx > 255, errAt stRange 2),
   (fld p 4 2 > 3600, errAt stRange 4),
   (fld p 6 2 < 512 || fld p 6 2 > 8192, errAt stRange 6),
   (!boot && priv == 1 && mac == 0, errAt stPerm 1),
   (!boot && priv == 1 && ctx != 0, errAt stPerm 2),
   (!boot && priv == 0 && ctx == 0, errAt stPerm 2),
   (priv == 1 && !admitted s f key, errAt stAuth 8),
   (!boot && (match s.mem.contexts.find ctx with
      | none => true
      | some c => c.destroying), errAt stState 2),
   (s.rcp.sessions.length ≥ (if boot then 4 else 512), err0 stLimit)]

/-- A session opened: keys are agreed and the exchange signed where MAC_MODE is 1. -/
def openRun (f : Frame) (s : State) : State :=
  let p := f.payload
  let priv := fld p 0 1 == 1
  let r := s.fresh (fun k => (s.rcp.sessions.find (k + 1)).isSome || s.rcp.orphans.any (fun o => o.sid == k + 1)) (2 ^ 32 - 2)
    (s.rcp.sessions.length + s.rcp.orphans.length)
  let sid := r.1 + 1
  let ctx := if s.ctl.surveyor = .netboot then 0 else fld p 2 2
  let mk := fun key st => newSession f st priv ctx (fld p 6 2) (fld p 4 2) key
  let put := fun key (st : State) => { st with rcp := { st.rcp with sessions := st.rcp.sessions.put sid (mk key st) } }
  let head := leb 4 sid ++ leb 2 (fld p 6 2) ++ zeros 2
  if fld p 1 1 = 0 then openAnswer f (openOut f stOk head) (put none r.2)
  else
    let host := sub p 8 97
    let d := scalarOf (r.2.draw).1
    let dev := ptEncode (ptMul d (some p384G))
    let z := match ptMul d (ptDecode host) with
      | none => zeros 48
      | some q => beb 48 q.1
    let k := hkdf384 (zeros 48) z (sessionLabel ++ leb 4 sid ++ host ++ dev)
    let body := head ++ dev
    let hdr := headerBytes f.verMajor.toNat f.verMinor.toNat 0 f.requestId.toNat 2 1 0xC9 0 (zeros 6)
    let sg := (r.2.draw).2.signIdentity (frameHeader f 2 ++ p ++ hdr ++ body)
    let s1 := if priv ∧ s.hostList.isEmpty then sg.2.writeSec [sha384 host] s.signerList else sg.2
    openAnswer f (openOut f stOk (body ++ sg.1)) (put (some k) s1)

/-- OPEN_SESSION with SESSION_ID 0: steps 8, 9 and 15 of R64 and the memory of R71, then the command's own checks. -/
def openSession (f : Frame) (s : State) : State :=
  let refuse := fun e => s.sendRcp f.path f.srcIp f.srcPort (openOut f e.status (errPayload e))
  if f.verMajor ≠ 1 ∨ f.verMinor ≠ 0 then frameAnswer f 2 stVersion (errPayload (err0 stVersion)) s
  else if frameHeaderBad f false then refuse (err0 stArg)
  else match s.rcp.opens.find? (fun o => o.path == f.path && o.ip == f.srcIp && (f.path == .mctp || o.port == f.srcPort)
      && o.rid == f.requestId.toNat && s.ctl.now < o.at_ + 6000000000) with
    | some o => s.sendRcp f.path f.srcIp f.srcPort { o.out with flags := 5 }
    | none =>
      if s.allInFlight ≥ 16384 then openAnswer f (openOut f stLimit (errPayload (err0 stLimit))) s
      else match firstFail (openFails f s) with
        | some e => openAnswer f (openOut f e.status (errPayload e)) s
        | none => openRun f s

/-- OPEN_SESSION: with a SESSION_ID it is a request of that session, whose SESSION_ID field is not as R68 requires. -/
def openAny (f : Frame) (s : State) : State :=
  if f.sessionId = 0 then openSession f s else rcpSession 2 (fun _ _ _ s => .err (err0 stArg) s) f s

/-- OPEN_SESSION_MEMORY_EXPIRY: a remembered request is forgotten after 60 s. -/
def openExpiry (ip port rid : Nat) (s : State) : State :=
  { s with rcp := { s.rcp with opens := s.rcp.opens.filter (fun o =>
      !(o.ip == ip && o.port == port && o.rid == rid && o.at_ + 6000000000 ≤ s.ctl.now)) } }

/-! CLOSE_SESSION, KEEPALIVE, the idle timer (R72, R75). -/

/-- The checks of closeSession, in the order of its table. -/
def closeSessionFails (f : Frame) : List (Bool × Err) :=
  [(badLength f 0, err0 stArg)]

def closeSession : Handler := fun f sid _ s =>
  .check (closeSessionFails f) s (.okThen [] s (endSession sid))

def keepalive : Handler := fun f _ _ s => .check [(badLength f 0, err0 stArg)] s (.ok [] s)

/-- SESSION_IDLE_TIMEOUT: no frame passed step 9 for IDLE_TIMEOUT seconds; a handover pause does not count (R73). -/
def idleTimeout (sid : Nat) (s : State) : State :=
  match s.session sid with
  | none => s
  | some x =>
    if s.ctl.surveyor ≠ .paused ∧ x.lastSeen + x.idle * 100000000 ≤ s.ctl.now then alertSettle (endSession sid s) else s

/-! Events (R86, R87). -/

/-- The checks of subscribe, in the order of its table. -/
def subscribeFails (f : Frame) : List (Bool × Err) :=
  let m := fld f.payload 0 4
  [
    (badLength f 8, err0 stArg),
    (m ≥ 64, errAt stArg 0),
    (!fldZero f.payload 4 4, (reservedErr f.payload [(4, 4)]).getD (err0 stArg))]

def subscribe : Handler := fun f sid _ s =>
  let m := fld f.payload 0 4
  .check (subscribeFails f) s <|
  .ok [] (s.modSession sid (fun x => { x with mask := m }))

/-- The checks of getEvents, in the order of its table. -/
def getEventsFails (f : Frame) : List (Bool × Err) :=
  let start := fld f.payload 0 8
  [(badLength f 8, err0 stArg), (start == 0, errAt stRange 0)]

/-- GET_EVENTS. Where no event is retained the field that would hold the oldest number is a free value (log entry 3). -/
def getEvents : Handler := fun f sid x s =>
  let start := fld f.payload 0 8
  .check (getEventsFails f) s <|
  match x.events with
  | [] => .ok (leb 8 (s.draw).1) (s.draw).2
  | e :: _ =>
    let recs := (x.events.filter (fun v => start ≤ v.seq)).take ((x.maxPayload - 8) / 64)
    let top := recs.foldl (fun a v => max a v.seq) x.fetched
    .ok (leb 8 e.seq ++ recs.flatMap EventRec.bytes) (alertSettle (s.modSession sid (fun x => { x with fetched := top })))

/-! The rows. -/

def execHello (f : Frame) (s : State) : Host.Outcome State Fault Refusal := .next (rcpGate 1 f s (hello f))
def execOpenSession (f : Frame) (s : State) : Host.Outcome State Fault Refusal := .next (rcpGate 2 f s (openAny f))
def execOpenSessionMemoryExpiry (ip port rid : Nat) (s : State) : Host.Outcome State Fault Refusal := .next (openExpiry ip port rid s)
def execCloseSession (f : Frame) (s : State) : Host.Outcome State Fault Refusal := .next (rcpRun 3 closeSession f s)
def execKeepalive (f : Frame) (s : State) : Host.Outcome State Fault Refusal := .next (rcpRun 4 keepalive f s)
def execSessionIdleTimeout (sid : Nat) (s : State) : Host.Outcome State Fault Refusal := .next (idleTimeout sid s)
def execSubscribe (f : Frame) (s : State) : Host.Outcome State Fault Refusal := .next (rcpRun 5 subscribe f s)
def execGetEvents (f : Frame) (s : State) : Host.Outcome State Fault Refusal := .next (rcpRun 6 getEvents f s)

end Sys2Proof.Machine
end

