-- ==== Sys2Proof/Machine/Volt.lean ====
section
/-!
DEFINITION. Speed monitors and the voltage loop (R21 to R28), the configuration record (R34), recalibration (R512), rails (R568, R569), temperature
(R570 to R575, R611) and the fan inputs (R603).
-/
namespace Sys2Proof.Machine
open Sys2Proof

/-! The board configuration record (R571). -/

/-- The board configuration in force: the allowance in watts, the two thresholds, the function of each GPIO pin (0xFF for none). -/
structure Board where
  allowance : Nat
  alertC : Nat
  throttleC : Nat
  fns : List Nat

/-- Whether 0x20 bytes are a valid copy of the board configuration record. -/
def boardOk (b : List Byte) : Bool :=
  fld b 0 4 == 0x4452_4F42 && fld b 0x1C 4 == crc32c (b.take 0x1C) && decide (100 ≤ fld b 8 2 ∧ fld b 8 2 ≤ 300) &&
    decide (70 ≤ fld b 0xA 1 ∧ fld b 0xA 1 ≤ 103) && decide (85 ≤ fld b 0xB 1 ∧ fld b 0xB 1 ≤ 103) &&
    (sub b 0xC 8).all (fun x => [2, 3, 4, 0xFF].contains x.toNat) && fldZero b 0x14 8

/-- The board configuration of a flash: the valid copy with the higher SEQUENCE, or the defaults. -/
def Flash.board (f : Flash) : Board :=
  match minBy (fun b => 2 ^ 32 - fld b 4 4) ([f.read 0x0404_0000 0x20, f.read 0x0405_0000 0x20].filter boardOk) with
  | none => ⟨180, 95, 100, List.replicate 8 0xFF⟩
  | some b => ⟨fld b 8 2, fld b 0xA 1, fld b 0xB 1, (sub b 0xC 8).map BitVec.toNat⟩

/-- The board configuration that firmware reads: the defaults where it cannot reach the flash (R557). -/
def State.board (s : State) : Board := if s.up islLow then s.flash.board else ⟨180, 95, 100, List.replicate 8 0xFF⟩

/-! Speed monitors and the loop (R21 to R28). -/

/-- SPEED_MON_WINDOW: a window of 1,024 REFCLK periods ends. -/
def speedMon (c : Nat) (count : BitVec 20) (s : State) : State :=
  if s.ctl.fabricOn && s.ctl.refclk then { s with clk := { s.clk with mons := s.clk.mons.set c ⟨count, true⟩ } } else s

/-- The slowest cluster's count and its number, the lowest on ties. -/
def Clk.slow (c : Clk) : Nat × Nat :=
  let l := c.mons.map (fun m => m.count.toNat)
  let m := l.foldl min (nth l 0 0)
  (m, (firstIdx (fun i => nth l 0 i == m) 32).getD 0)

/-- t of R24: the target's share of the count at the reference rate, rounded up to a whole count. -/
def speedCount (mode target : Nat) : Nat := if mode = 1 then ceilDiv (target * 425984) 10000 else ceilDiv (target * 6656) 100

/-- The VCORE budget in watts (R24, R571). -/
def Clk.budget (c : Clk) : Nat := 700 - c.allowance

/-- The branch an iteration takes: 0 thermal, 1 power, 2 too slow, 3 too fast, 4 hold. p is the power in tenths of a milliwatt. -/
def loopBranch (c : Clk) (p s t : Nat) : Nat :=
  if c.throttle then 0 else if p > c.budget * 10000 then 1 else if s < t then 2 else if s > t + t * 3 / 100 then 3 else 4

/-- The voltage a branch asks for, in mV (R24, R570). -/
def loopVolt (branch v : Nat) : Nat :=
  max 700 (min 850 (match branch with
    | 0 => min v (max 700 (v - 10))
    | 1 => v - 5
    | 2 => v + 5
    | 3 => v - 5
    | _ => v))

/-- A VCORE request: one AVSBus Voltage write, where it changes the request (R569). -/
def requestVcore (v : Nat) (s : State) : State :=
  if v = s.clk.vreq then s else ({ s with clk := { s.clk with vreq := v, vreqTime := s.ctl.now } }).send (.avs v)

/-- The duty of a fan for the hottest reading (R611). -/
def fanDuty (alertC t : Nat) : Nat :=
  let lo := alertC - 25
  if t ≤ lo then 40 else if t ≥ alertC then 100 else 40 + ceilDiv (60 * (t - lo)) 25

/-- Firmware sets the duty of every pin it holds with FAN_PWM (R611). -/
def setFans (s : State) : State :=
  let mine := fun n => match s.owner n with
    | none => false
    | some o => o.firmware && o.fn == 3
  { s with pins := { s.pins with duty := s.pins.duty.mapIdx (fun n d => if mine n then fanDuty s.clk.alertC s.clk.hottest else d) } }

/-- AVS_LOOP_ITERATION: one iteration of the loop, with what AVSBus reads back, or a transaction that fails its retry: the branch is then taken by
the power of the last reading (log entry 22) and no change is requested (R569). While a recalibration runs no change is requested (R512). -/
def loopIteration (vread : BitVec 12) (iread : BitVec 16) (failed : Bool) (s : State) : State :=
  if !s.fwReady || s.dbg.frz.on || !s.ctl.refclk then s
  else
    let c := s.clk
    let bad := failed || !s.up islLow
    let m := c.slow
    let t := speedCount s.clkMode c.target
    let p := vread.toNat * iread.toNat
    let b := loopBranch c (if bad then c.vread * c.iread else p) m.1 t
    let held := decide (b ≤ 1) && decide (m.1 < t)
    let c1 := { c with
      targetLast := c.target, thermalLast := b == 0, powerLast := b == 1
      limited := if held then true else if m.1 ≥ t then false else c.limited
      slowest := m.2, tCount := t, sCount := m.1, iterations := c.iterations + 1
      limitedCount := c.limitedCount + b2n held, iterated := true
      avsFails := c.avsFails + b2n bad
      vread := if bad then c.vread else vread.toNat
      iread := if bad then c.iread else iread.toNat
      pread := if bad then c.pread else p / 1000 % 65536 }
    let s1 := { s with clk := c1 }
    setFans (if bad || c.recal then s1 else requestVcore (loopVolt b c.vreq) s1)

/-- The checks of setSpeedTarget, in the order of its table. -/
def setSpeedTargetFails (f : Frame) : List (Bool × Err) :=
  let p := f.payload
  [
    (badLength f 8, err0 stArg),
    (!fldZero p 1 7, (reservedErr p [(1, 7)]).getD (err0 stArg)),
    (fld p 0 1 < 70 || fld p 0 1 > 130, errAt stRange 0)]

def setSpeedTarget : Handler := fun f _ _ s =>
  let p := f.payload
  .check (setSpeedTargetFails f) s <|
  .ok [] { s with clk := { s.clk with target := fld p 0 1 } }

/-- The checks of getSpeed, in the order of its table. -/
def getSpeedFails (f : Frame) : List (Bool × Err) :=
  [(badLength f 0, err0 stArg)]

def getSpeed : Handler := fun f _ _ s =>
  let c := s.clk
  .check (getSpeedFails f) s <|
  .ok (leb 1 (if c.iterated then c.targetLast else c.target) ++ leb 1 (b2n c.limited + 2 * b2n c.thermalLast + 4 * b2n c.powerLast) ++ leb 2 c.slowest ++ leb 4 c.tCount ++ leb 4 c.sCount
    ++ leb 2 (if c.iterated then c.vreq else 0) ++ leb 2 c.budget ++ leb 8 c.iterations ++ leb 8 c.limitedCount) s

/-! The configuration record (R34). -/

/-- The bytes of the configuration record. -/
def State.config (s : State) : List Byte :=
  padTo 256 (leb 1 1 ++ leb 1 1 ++ leb 1 0x41 ++ leb 1 0 ++ leb 2 0x50 ++ zeros 2
    ++ leb 2 32 ++ leb 2 16 ++ leb 2 16 ++ leb 2 64 ++ leb 2 16 ++ leb 2 64 ++ leb 4 512 ++ leb 4 4096
    ++ leb 2 32 ++ leb 2 16 ++ leb 2 4096 ++ leb 2 256 ++ leb 1 48 ++ leb 1 42 ++ leb 2 32 ++ leb 1 4 ++ leb 1 4 ++ leb 1 1 ++ leb 1 12
    ++ leb 4 s.mem.memGib ++ leb 2 32 ++ leb 2 32 ++ leb 4 4096 ++ leb 2 8 ++ leb 2 256 ++ leb 4 262144
    ++ leb 2 16 ++ leb 2 16 ++ leb 2 8 ++ leb 2 16 ++ leb 2 32 ++ leb 2 4096 ++ leb 1 12 ++ leb 1 1)

def getConfig : Handler := fun f _ _ s => .check [(badLength f 0, err0 stArg)] s (.ok s.config s)

/-! Recalibration (R512, R513). -/

/-- The trims a recalibration finds; one beyond the range of SPEED_TRIM keeps the limiting trim: whether any was. They are free values. -/
def drawTrims (s : State) : List (BitVec 6) × Bool × State :=
  let raw := (List.range 32).map (fun c => Config.freeNat (s.free + c) % 66)
  (raw.map (fun v => if v < 64 then BitVec.ofNat 6 v else if v = 64 then 0x20 else 0x1F), raw.any (fun v => decide (v ≥ 64)),
    { s with free := s.free + 32 })

/-- A recalibration ends with its trims. -/
def recalibrated (trims : List (BitVec 6)) (s : State) : State :=
  { s with clk := { s.clk with trims := trims, calTime := s.ctl.now, recal := false } }

/-- AVS_RECAL_TIMER: every 24 hours firmware runs the recalibration by itself. -/
def recalTimer (trims : List (BitVec 6)) (s : State) : State :=
  if s.fwReady && !s.clk.recal && trims.length == 32 && decide (s.clk.calTime + 8640000000000 ≤ s.ctl.now) then recalibrated trims s else s

/-! Rails (R568). -/

/-- The nominal voltage of monitors 1 to 5 in mV. -/
def railNominal (r : Nat) : Nat := nth [750, 750, 1200, 500, 1050, 1800] 0 r

/-- Whether a reading lies outside its monitor's window: the request ± 40 mV for VCORE, the nominal voltage ± 5 % for the others. -/
def railOut (vreq r mv : Nat) : Bool :=
  if r = 0 then mv > vreq + 40 || mv + 40 < vreq else mv * 100 > railNominal r * 105 || mv * 100 < railNominal r * 95

/-- Whether the part is in power-on or system reset. -/
def State.inSystemReset (s : State) : Bool := s.ctl.held == some .system || s.ctl.held == some .power

/-- RAIL_MONITOR_WINDOW: a monitor's reading, or the injected one; the second outside in a row fires once for its excursion. -/
def railWindow (r : Nat) (mv : BitVec 12) (s : State) : State :=
  if s.inSystemReset || !s.ctl.refclk then s
  else
    let inj := s.armed 0x0E r
    let v := match inj with
      | none => mv.toNat
      | some i => i.value % 4096
    let m := nth s.clk.rails ⟨0, 0, false⟩ r
    let compared := r != 0 || decide (s.clk.vreqTime + 100000 ≤ s.ctl.now)
    let out := railOut s.clk.vreq r v
    let m1 : RailMon :=
      if !compared then { m with mv := BitVec.ofNat 12 v }
      else if out then ⟨BitVec.ofNat 12 v, m.outRun + 1, m.fired || decide (m.outRun + 1 ≥ 2)⟩
      else ⟨BitVec.ofNat 12 v, 0, false⟩
    let s1 := if inj.isSome then s.disarm 0x0E r else s
    let s2 := { s1 with clk := { s1.clk with rails := s1.clk.rails.set r m1 } }
    if m1.fired && !m.fired then s2.fire 0x0E r 0 inj.isSome else s2

/-! Temperature (R572 to R574). -/

/-- Hardware claims every pin assigned FAN_PWM or THERM_ALERT_N; firmware's claim is set aside (R573). -/
def hotClaims (s : State) : State :=
  let pins := s.svc.owners.filter (fun e => e.1 < 8 && e.2.firmware && (e.2.fn == 3 || e.2.fn == 4))
  { s with svc := { s.svc with
    fwClaims := pins
    owners := s.svc.owners.mapV (fun (o : Owner) => if o.firmware && (o.fn == 3 || o.fn == 4) then { o with firmware := false, session := 0 } else o) } }

/-- Ownership returns to firmware's claim. -/
def coolClaims (s : State) : State :=
  { s with svc := { s.svc with owners := s.svc.fwClaims.foldl (fun (t : Tbl Owner) e => t.put e.1 e.2) s.svc.owners, fwClaims := [] } }

/-- A thermal event (R573). -/
def thermEvent (code : Nat) (s : State) : State := s.event (fun _ => true) 1 code (leb 1 s.clk.sensor ++ leb 1 s.clk.hottest)

/-- A threshold entered by the reading in hand: the thermal monitor fires at the hottest sensor. -/
def thermFire (detail : Nat) (inj : Bool) (s : State) : State := s.fire 0x0D s.clk.sensor detail inj

/-- The Alert threshold. -/
def alertStep (inj : Bool) (s : State) : State :=
  let h := s.clk.hottest
  if !s.clk.alert && decide (h ≥ s.clk.alertC) then thermFire 1 inj (thermEvent 1 { s with clk := { s.clk with alert := true } })
  else if s.clk.alert && decide (h + 3 < s.clk.alertC) then { s with clk := { s.clk with alert := false } } else s

/-- The Throttle threshold (R570). -/
def throttleStep (inj : Bool) (s : State) : State :=
  let h := s.clk.hottest
  if !s.clk.throttle && decide (h ≥ s.clk.throttleC) then thermFire 2 inj (thermEvent 2 { s with clk := { s.clk with throttle := true } })
  else if s.clk.throttle && decide (h + 3 < s.clk.throttleC) then thermEvent 3 { s with clk := { s.clk with throttle := false } } else s

/-- The Hot threshold. -/
def hotStep (inj : Bool) (s : State) : State :=
  let h := s.clk.hottest
  if !s.clk.hot && decide (h ≥ 105) then thermFire 3 inj (thermEvent 4 (hotClaims { s with clk := { s.clk with hot := true } }))
  else if s.clk.hot && decide (h < 102) then thermEvent 5 (coolClaims { s with clk := { s.clk with hot := false } }) else s

/-- THERMAL_SENSOR_WINDOW: 38 readings complete, an injected one in place of its sensor's; every threshold acts on the hottest, and Trip on the true
readings. -/
def thermalWindow (temps : List (BitVec 8)) (s : State) : State :=
  if s.inSystemReset || !s.ctl.refclk || temps.length != 38 then s
  else
    let injOf := fun i => (s.armed 0x0D i).map Injection.value
    let vals := temps.mapIdx (fun i t => match injOf i with
      | none => t.toNat
      | some v => min v 255)
    let h := vals.foldl max 0
    let k := (firstIdx (fun i => nth vals 0 i == h) 38).getD 0
    let inj := (injOf k).isSome
    let injected := (List.range 38).filter (fun i => (injOf i).isSome)
    let s1 := injected.foldl (fun a i => a.disarm 0x0D i) s
    let s2 := { s1 with clk := { s1.clk with
      temps := vals.map (fun v => some (BitVec.ofNat 8 v)), gazInj := injected.contains 32, hottest := h, sensor := k } }
    let s3 := hotStep inj (throttleStep inj (alertStep inj s2))
    let real : Nat := temps.foldl (fun (a : Nat) (t : BitVec 8) => max a t.toNat) 0
    if !s3.clk.trip && decide (real ≥ 115) then
      ({ s3 with clk := { s3.clk with trip := true } }).fire 0x0D ((firstIdx (fun i => (nth temps 0 i).toNat == real) 38).getD 0) 4 false
    else s3

/-- The checks of getThermal, in the order of its table. -/
def getThermalFails (f : Frame) : List (Bool × Err) :=
  [(badLength f 0, err0 stArg)]

def getThermal : Handler := fun f _ _ s =>
  let c := s.clk
  .check (getThermalFails f) s <|
  .ok (leb 1 c.hottest ++ leb 1 c.sensor ++ leb 1 (b2n c.throttle + 2 * b2n c.alert + 4 * b2n c.hot + 8 * b2n c.limited) ++ leb 1 s.gaz.level
    ++ leb 2 c.vreq ++ leb 2 c.vread ++ leb 2 c.iread ++ leb 2 c.pread ++ leb 2 c.budget ++ leb 2 c.allowance
    ++ c.temps.flatMap (fun t => leb 1 ((t.map BitVec.toNat).getD 0)) ++ c.rails.flatMap (fun r => leb 2 r.mv.toNat) ++ zeros 14) s

/-- TACH_WINDOW: each second the rising edges counted on the pins become their readings (R603). -/
def tachWindow (edges : List (BitVec 16)) (s : State) : State :=
  if edges.length = 8 ∧ s.up islLow then { s with pins := { s.pins with tach := edges } } else s

/-! The rows. -/

def execSpeedMonWindow (c : Fin 32) (count : BitVec 20) (s : State) : Host.Outcome State Fault Refusal := .next (speedMon c count s)
def execAvsLoopIteration (vread : BitVec 12) (iread : BitVec 16) (failed : Bool) (s : State) : Host.Outcome State Fault Refusal :=
  .next (loopIteration vread iread failed s)
def execSetSpeedTarget (f : Frame) (s : State) : Host.Outcome State Fault Refusal := .next (rcpRun 0x0104 setSpeedTarget f s)
def execGetSpeed (f : Frame) (s : State) : Host.Outcome State Fault Refusal := .next (rcpRun 0x0103 getSpeed f s)
def execGetConfig (f : Frame) (s : State) : Host.Outcome State Fault Refusal := .next (rcpRun 0x0100 getConfig f s)
def execAvsRecalTimer (trims : List (BitVec 6)) (s : State) : Host.Outcome State Fault Refusal := .next (recalTimer trims s)
def execRailMonitorWindow (r : Fin 6) (mv : BitVec 12) (s : State) : Host.Outcome State Fault Refusal := .next (railWindow r mv s)
def execThermalSensorWindow (temps : List (BitVec 8)) (s : State) : Host.Outcome State Fault Refusal := .next (thermalWindow temps s)
def execGetThermal (f : Frame) (s : State) : Host.Outcome State Fault Refusal := .next (rcpRun 0x0A01 getThermal f s)
def execTachWindow (edges : List (BitVec 16)) (s : State) : Host.Outcome State Fault Refusal := .next (tachWindow edges s)

end Sys2Proof.Machine
end

