-- ==== Sys2Proof/Machine/Boot.lean ====
section
/-!
DEFINITION. The boot ROM (R484, R558, R564, R565), the start of firmware (R198, R202, R566) and the rebuilding of its reservation (R516).
-/
namespace Sys2Proof.Machine
open Sys2Proof

/-! The boot ROM (R484, R564). -/

/-- Step 5 of R484: the measurements taken and firmware entered. -/
def jumpTo (img : FwImage) (s : State) : State :=
  let s1 := (s.extend 0 img.digest)
  let s2 := s1.extend 1 (sha384 (bootRecord s img))
  { s2 with
    fw := { s2.fw with running := some img }
    ctl := { s2.ctl with surveyor := .starting, stage := 3, slot := BitVec.ofNat 2 img.slot } }

/-- The boot ROM waits for BOOT_LOAD; DETAIL is that of the last candidate rejected. -/
def netBoot (detail : Nat) (s : State) : State :=
  { s with ctl := { s.ctl with surveyor := .netboot, stage := 2, bootDetail := BitVec.ofNat 16 detail, staging := [], stagingLen := 0 } }

/-- The candidates of a flash in the order they are checked: COMMITTED or PENDING, the higher SEQUENCE first. -/
def candidates (f : Flash) : List (Nat × SlotRec) :=
  let l := [0, 1].filterMap (fun k => match f.slot k with
    | none => none
    | some r => if r.state ≤ 2 then some (k, r) else none)
  sortBy (fun a b => b.2.seq ≤ a.2.seq) l

/-- The candidates checked in turn: the first that passes runs, a PENDING one marked TRIED first. -/
def tryCandidates : List (Nat × SlotRec) → Nat → State → State
  | [], detail, s => netBoot detail s
  | (k, r) :: t, detail, s =>
    match s.flash.checkSlot s.fw.fuses k with
    | .error e => tryCandidates t e.detail s
    | .ok img =>
      let s1 := { s with ctl := { s.ctl with bootDetail := BitVec.ofNat 16 detail } }
      jumpTo img (if r.state = 2 then s1.modFlash (fun f => f.restate k 3) else s1)

/-- Whether the boot ROM finds a Surveyor lock loss with no reset since it last ran (R558). -/
def State.relocking (s : State) : Bool := s.ctl.lockStatus.getLsbD islSurveyor && !s.ctl.resetSinceRom

/-- BOOT_ROM_START: the measurement registers set to zero, then the sequence of BOOTSRC. A flash that cannot be reached has no candidate. -/
def bootRomStart (s : State) : State :=
  if s.ctl.surveyor ≠ .atRom ∨ s.relocking then s
  else
    let s1 := { s with
      fw := { s.fw with mr := Fw.reset.mr, extends_ := Fw.reset.extends_ }
      ctl := { s.ctl with resetSinceRom := false, stage := 1, bootDetail := 0 } }
    if s.ctl.straps.toNat % 4 ≥ 2 ∨ !s.up islLow then netBoot 0 s1 else tryCandidates (candidates s1.flash) 0 s1

/-! BOOT_LOAD (R565). -/

/-- The bytes of the staging area. -/
def State.staged (s : State) (off n : Nat) : List Byte := (List.range n).map (fun i => s.ctl.staging.at 0 (off + i))

/-- Every session ends. -/
def endSessions (s : State) : State := s.rcp.sessions.keys.foldl (fun a k => endSession k a) s

def bootLoadFails (f : Frame) (s : State) : List (Bool × Err) :=
  let p := f.payload
  let act := fld p 0 1
  let len := fld p 4 4
  let off := fld p 8 8
  [(s.ctl.straps.toNat % 4 == 3, err0 stUnsupported),
   (p.length < 16, err0 stArg),
   (act > 2, errAt stArg 0),
   (!fldZero p 1 3, (reservedErr p [(1, 3)]).getD (err0 stArg)),
   (act != 0 && len != 0, errAt stArg 4),
   (act != 0 && off != 0, errAt stArg 8),
   (act == 0 && (len == 0 || len > 8176), errAt stRange 4),
   (p.length != 16 + len, err0 stArg),
   (act == 0 && off + len > maxImage, errAt stRange 8),
   (act != 0 && s.ctl.stagingLen == 0, err0 stState)]

def bootLoad : Handler := fun f _ _ s =>
  let p := f.payload
  let off := fld p 8 8
  let data := p.drop 16
  .check (bootLoadFails f s) s <|
  match fld p 0 1 with
  | 0 => .ok [] { s with ctl := { s.ctl with
      staging := (data.zipIdx).foldl (fun t b => t.upd 0 (off + b.2) b.1) s.ctl.staging
      stagingLen := max s.ctl.stagingLen (off + data.length) } }
  | 1 => match checkImage s.fw.fuses 2 s.ctl.stagingLen s.staged with
    | .error e => .err e s
    | .ok img => .okThen [] s (fun s => jumpTo img (endSessions { s with fw := { s.fw with kept := s.staged 0 s.ctl.stagingLen } }))
  | _ => .ok [] { s with ctl := { s.ctl with staging := [], stagingLen := 0 } }

/-! Firmware starts (R566). -/

/-- Whether a channel is in service. -/
def State.inService (s : State) (ch : Nat) : Bool := (s.channel ch).state == .active

/-- Channels in service. -/
def State.channelsUp (s : State) : Nat := (List.range 128).countP s.inService

/-- The channels trained: each ACTIVE or ABSENT, the density of the packages, and MEM_GIB (R198). -/
def trainAll (l : List Training) (s : State) : State :=
  let dens := (l.findSome? (fun t => match t with
    | .pass d => some (if d = 32 then 32 else 64)
    | .fail => none
    | .absent => none)).getD 0
  let s1 := (List.range 128).foldl (fun a ch => match nth l .absent ch with
    | .pass _ => if a.up (islMc (ch / 4)) then a.setChannel ch .active else a
    | .fail => a
    | .absent => a) s
  { s1 with mem := { s1.mem with density := dens, memGib := dens / 4 * s1.channelsUp } }

/-- Firmware's reservation: 32 GiB spread evenly over the channels in service, as the lowest addresses that hold so much on them (R202). -/
def reserveMem (s : State) : State :=
  let n := s.channelsUp
  { s with mem := { s.mem with reserved := if n = 0 then [] else [⟨alignUp (2 ^ 42 / n) (2 ^ 21), 0⟩] } }

/-- Firmware claims the pins that the board configuration names, with CLASS 2 (R571); while the Hot threshold holds, hardware owns them (R573). -/
def boardClaims (fns : List Nat) (s : State) : State :=
  let own := (fns.zipIdx.filter (fun p => p.1 != 0xFF)).foldl (fun (t : Tbl Owner) p => t.put p.2 ⟨0, true, 2, p.1⟩) s.svc.owners
  let s1 := { s with svc := { s.svc with owners := own } }
  if s.clk.hot then hotClaims s1 else s1

/-- Steps 1 and 2 of R566: the board configuration read, thermal thresholds set, VCORE 0.75 V requested, the monitors recalibrated.
The speed target stays as it is: resets have returned it to 100 % (R27), and that a relock of the Surveyor complex keeps it is the model's choice
(R558 does not name it; log entry 25). -/
def startLoop (s : State) : State :=
  let b := s.board
  let s1 := { s with clk := { s.clk with
    alertC := b.alertC, throttleC := b.throttleC, allowance := b.allowance, iterations := 0, limitedCount := 0, iterated := false,
    targetLast := 0, limited := false, thermalLast := false, powerLast := false, slowest := 0, tCount := 0, sCount := 0 } }
  let s2 := ({ s1 with clk := { s1.clk with vreq := 750, vreqTime := s.ctl.now } }).send (.avs 750)
  let r := drawTrims s2
  recalibrated r.1 r.2.2

/-- Firmware is ready: it accepts sessions, and what waited for it goes on (R87, R566). -/
def ready (s : State) : State :=
  let s1 := { s with ctl := { s.ctl with surveyor := .ready, stage := 4, trained := true } }
  (List.range 12).foldl (fun a p => (a.drainRx p).pumpPort p) (serveStalls (retrainLost s1.flushEvents))

/-- FIRMWARE_START: the start of R566; channels are trained and discovery begins after power-on or system reset only. -/
def firmwareStart (training : List Training) (s : State) : State :=
  if s.ctl.surveyor ≠ .starting then s
  else
    let s1 := startLoop (boardClaims s.board.fns s)
    let s2 := if s.ctl.trained then s1 else trainAll training s1
    let s3 := reserveMem { s2 with ctl := { s2.ctl with staging := [], stagingLen := 0 } }
    let s4 := ready s3
    if s.ctl.trained then s4 else discTrigger s4

/-! The relock path (R558). -/

/-- The image that was running, read again from its slot or from the copy that firmware keeps, and checked. -/
def rereadImage (s : State) : Except Err FwImage :=
  match s.fw.running with
  | none => .error (err0 stState)
  | some r =>
    if r.slot < 2 then (if s.up islLow then s.flash.checkSlot s.fw.fuses r.slot else .error (unavailable islLow))
    else checkImage s.fw.fuses 2 s.fw.kept.length (fun off n => padTo n (s.fw.kept.drop off))

/-- Everything firmware kept is discarded: sessions, contexts and what they hold. -/
def dropFirmware (s : State) : State :=
  let c := coreClear (endSessions s)
  { c with
    ctl := s.ctl
    clk := { c.clk with mons := s.clk.mons } }

/-- The commands that were executing end with E_HW and the identifier of the Surveyor complex's lock detector (R557). -/
def failInFlight (s : State) : State :=
  s.running.foldl (fun a c => a.finish c.1 c.2.rid stHw (errPayload (unavailable islSurveyor))) s

/-- Completions left to the new firmware are sent (R501). -/
def flushOwed (s : State) : State :=
  s.rcp.owed.foldl (fun a o => a.sendRcp o.1 o.2.1 o.2.2.1 o.2.2.2) { s with rcp := { s.rcp with owed := [] } }

/-- A live handover that a lock loss cut short: the new slot's record is erased, as when the new firmware is not ready (R502). -/
def dropHandover (s : State) : State :=
  if s.fw.handover.isSome then
    ({ s with fw := { s.fw with handover := none } }).modFlash (fun f => f.eraseSlot s.inactiveSlot)
  else s

/-- SURVEYOR_RELOCK_PATH: the running image is checked again; firmware starts with all it had, or everything is discarded. -/
def relockPath (s : State) : State :=
  if s.ctl.surveyor ≠ .atRom ∨ !s.relocking then s
  else match rereadImage s with
    | .error e =>
      let s1 := dropFirmware s
      netBoot e.detail { s1 with ctl := { s1.ctl with slot := 3 } }
    | .ok img =>
      let s1 := dropHandover ((s.extend 0 img.digest))
      let s2 := { s1 with fw := { s1.fw with running := some img }, rcp := { s1.rcp with heldFrames := [] } }
      if s.ctl.trained then flushOwed (failInFlight (ready (startLoop s2)))
      else { s2 with ctl := { s2.ctl with surveyor := .starting, stage := 3 } }

/-! The reservation rebuilt (R360, R516). -/

/-- The shadow copies of a bank that lost controllers held, copied from the surviving ones. -/
def rebuildShadows (s : State) (b : Nat) (k : GazBank) : GazBank :=
  let es := (k.sh0.keys ++ k.sh1.keys).eraseDups
  let gs := (k.tags0.keys ++ k.tags1.keys).eraseDups
  let fix := fun (p : Tbl Nat × Tbl Nat) (e src : Nat) =>
    let ok := shadowsReadable s b src
    if ok.1 && !ok.2 then (p.1, p.2.upd 0 e (p.1.at 0 e)) else if ok.2 && !ok.1 then (p.1.upd 0 e (p.2.at 0 e), p.2) else p
  let r := es.foldl (fun p e => fix p e e) (k.sh0, k.sh1)
  let t := gs.foldl (fun p g => fix p g (1024 * g)) (k.tags0, k.tags1)
  { k with sh0 := r.1, sh1 := r.2, tags0 := t.1, tags1 := t.2 }

/-- RESERVATION_REBUILT: both copies serve again. An entry or pair of which neither copy survives is first settled as R362 has it: DESIGN CHOICE, see log
entry 77. -/
def rebuilt (s : State) : State :=
  if !s.fwReady ∨ s.svc.lostControllers.isEmpty then s
  else
    let none_ := fun (b e : Nat) => shadowsReadable s b e == (false, false)
    let s1 := (List.range 8).foldl (fun a b =>
      ((List.range bankEntries).filter (none_ b) ++ ((List.range 256).filter (fun g => none_ b (1024 * g))).map (· + bankEntries)).foldl
        (fun a e => settleOne b e a) a) s
    let s2 := (List.range 8).foldl (fun a b => a.modBank b (rebuildShadows s b)) s1
    { s2 with svc := { s2.svc with lostControllers := [] } }

/-! The rows. -/

def execBootRomStart (s : State) : Host.Outcome State Fault Refusal := .next (bootRomStart s)
def execSurveyorRelockPath (s : State) : Host.Outcome State Fault Refusal := .next (relockPath s)
def execFirmwareStart (training : List Training) (s : State) : Host.Outcome State Fault Refusal := .next (firmwareStart training s)
def execBootLoadWrite (f : Frame) (s : State) : Host.Outcome State Fault Refusal := .next (rcpAction 0x0A02 0 0 bootLoad f s)
def execBootLoadRun (f : Frame) (s : State) : Host.Outcome State Fault Refusal := .next (rcpAction 0x0A02 0 1 bootLoad f s)
def execBootLoadAbort (f : Frame) (s : State) : Host.Outcome State Fault Refusal := .next (rcpAction 0x0A02 0 2 bootLoad f s)
def execReservationRebuilt (s : State) : Host.Outcome State Fault Refusal := .next (rebuilt s)

end Sys2Proof.Machine
end

