-- ==== Sys2Proof/Machine/Trv.lean ====
section
/-!
DEFINITION. Traverse (R536 to R542) and Freeze (R545 to R549).
-/
namespace Sys2Proof.Machine
open Sys2Proof

/-! Detector identifiers (R524, R525). -/

/-- Whether a detector identifier is listed. -/
def detListed (id : Nat) : Bool :=
  let i := bits id 23 8
  bits id 7 0 == 0 && decide (id < 2 ^ 32) && (match bits id 31 24 with
    | 0x01 => i < 128
    | 0x02 => i < 128
    | 0x03 => i < 47
    | 0x04 => i < 512
    | 0x05 => 0x220 ≤ i && i ≤ 0x23F
    | 0x06 => i < 512
    | 0x07 => 0x200 ≤ i && i ≤ 0x21F
    | 0x08 => 0x240 ≤ i && i ≤ 0x25F
    | 0x09 => 0x2B0 ≤ i && i ≤ 0x2B7
    | 0x0A => i < 12
    | 0x0B => i == 0
    | 0x0C => i < 0x2B8
    | 0x0D => i < 38
    | 0x0E => i < 6
    | 0x0F => 1 ≤ i && i ≤ 8
    | _ => false)

/-! Traverse (R536 to R539). -/

def State.modTrv (s : State) (f : Trv → Trv) : State := { s with dbg := { s.dbg with trv := f s.dbg.trv } }

/-- Whether a capture runs. -/
def Trv.capturing (t : Trv) : Bool := t.state == 1 || t.state == 2

/-- An event of class 4 (R549). -/
def debugEvent (code seq reason : Nat) (s : State) : State := s.event (fun _ => true) 4 code (leb 4 seq ++ leb 1 reason)

/-- A record written at the next position; a ring drops its oldest. -/
def Trv.put (t : Trv) (r : TrvRec) : Trv :=
  if t.recs.length < t.capacity then { t with recs := t.recs ++ [r], written := t.written + 1 }
  else { t with recs := t.recs.drop 1 ++ [r], written := t.written + 1, wrapped := true }

/-- A capture ends with a reason of R539; the STOP record is written where the buffer has room. -/
def trvStop (reason : Nat) (s : State) : State :=
  let t := s.dbg.trv
  if t.capturing then
    let t1 := if t.recs.length < t.capacity then t.put ⟨6, 0xFF, reason, s.ctl.surveyorTime, 0, 0⟩ else t
    debugEvent 4 0 reason (s.modTrv (fun _ => { t1 with state := 3 }))
  else s

/-- A record of a capture: mode 0 ends where it does not fit; after the trigger the records still due are counted down. -/
def trvPut (r : TrvRec) (s : State) : State :=
  let t := s.dbg.trv
  if !t.capturing then s
  else if t.mode = 0 ∧ t.recs.length ≥ t.capacity then trvStop 0 s
  else
    let t1 := t.put r
    if t.state = 2 then
      let s1 := s.modTrv (fun _ => { t1 with postLeft := t1.postLeft - 1 })
      if t1.postLeft ≤ 1 then trvStop 1 s1 else s1
    else s.modTrv (fun _ => t1)

/-- The GAP record of a core whose queue has room again. -/
def trvGap (core : Nat) (s : State) : State :=
  let n := nth s.dbg.trv.gaps 0 core
  if n = 0 then s
  else trvPut ⟨3, core, 0, s.ctl.surveyorTime, n, 0⟩ (s.modTrv (fun t => { t with gaps := t.gaps.set core 0 }))

/-- TRAVERSE_RECORD: a traced core's next event. What it is, and whether its queue is full so that it is lost, are free values; with STALL none is lost
but in a handover pause. -/
def trvRecord (core : Nat) (s : State) : State :=
  let t := s.dbg.trv
  if !t.capturing || !bit t.cores core || !s.up islSurveyor then s
  else
    let v := fun k => Config.freeNat (s.free + k)
    let s1 := { s with free := s.free + 4 }
    let mayLose := !t.stall || s.ctl.surveyor == .paused
    if mayLose && v 0 % 2 == 1 then
      s1.modTrv (fun t => { t with gaps := modNth t.gaps core (· + 1), lost := sat32 t.lost 1 })
    else
      let kind := 1 + v 0 / 2 % 2
      trvPut ⟨kind, core, if kind = 2 then v 1 % 2 ^ 16 else 0, s.ctl.surveyorTime, v 2 % 2 ^ 64, v 3 % 2 ^ 64⟩ (trvGap core s1)

/-- START records of the traced cores; their first PC is a free value. -/
def trvStarts (s : State) : State :=
  ((List.range 4).filter (bit s.dbg.trv.cores)).foldl (fun a c =>
    trvPut ⟨5, c, 0, a.ctl.surveyorTime, (a.draw).1 % 2 ^ 64, 0⟩ (a.draw).2) s

/-! Freeze (R545 to R548). -/

/-- The parts that a freeze stops: the units of R524, and the islands but the Surveyor complex and the low-speed interfaces. -/
def freezeParts : List Nat := List.range 0x2B8 ++ (List.range 45).map partIsland

def State.modFrz (s : State) (f : Frz → Frz) : State := { s with dbg := { s.dbg with frz := f s.dbg.frz } }

/-- The markers are injected (R546). A freeze that is armed stays so. -/
def beginFreeze (stopTrv : Bool) (timeout reason : Nat) (s : State) : State :=
  let q := (s.dbg.frz.seq + 1) % 2 ^ 32
  debugEvent 1 q reason (s.modFrz (fun z => ⟨true, q, [], false, false, s.ctl.now, timeout, z.arm, stopTrv⟩))

/-- The cut is complete: a capture that was to end ends, and a FREEZE that waits completes. -/
def cutDone (s : State) : State :=
  let z := s.dbg.frz
  let s1 := s.modFrz (fun z => { z with cut := true })
  let s2 := if z.stopTrv then trvStop 4 s1 else s1
  s2.finishAll .freeze stOk (leb 4 z.seq ++ leb 4 ((s.ctl.now - z.began) / 100) ++ zeros 8)

/-- FREEZE_MARKER: the last marker of a part has come, and the part is frozen. -/
def freezeMarker (u : Nat) (s : State) : State :=
  if s.dbg.frz.on && freezeParts.contains u && !s.dbg.frz.parts.contains u then
    let s1 := s.modFrz (fun z => { z with parts := z.parts ++ [u] })
    if s1.dbg.frz.parts.length = freezeParts.length then cutDone s1 else s1
  else s

/-- FREEZE_CUT_TIMEOUT: the cut is not complete 1 ms after its start: FREEZE completes with the watchdog identifier of the first part not frozen; for an
island, which has no watchdog, it is a free value. -/
def cutTimeout (s : State) : State :=
  let z := s.dbg.frz
  if z.on && !z.cut && !z.late && decide (z.began + 100000 ≤ s.ctl.now) then
    let s1 := s.modFrz (fun z => { z with late := true })
    match freezeParts.find? (fun u => !z.parts.contains u) with
    | none => s1
    | some u =>
      let d := if u < 0x300 then (detId 0x0C u, s1) else ((s1.draw).1 % 2 ^ 32, (s1.draw).2)
      d.2.failAll .freeze ⟨stHw, 0x0E03, 0xFFFF, d.1⟩
  else s

/-- Whether the part is frozen, so that THAW may run. -/
def State.isFrozen (s : State) : Bool := s.dbg.frz.on && (s.dbg.frz.cut || s.dbg.frz.late)

/-- Every part is released and goes on from its state in the cut. -/
def thawAll (reason : Nat) (s : State) : State :=
  let s1 := s.modFrz (fun z => { z with on := false, parts := [], cut := false, late := false, timeout := 0, stopTrv := false })
  let s2 := debugEvent 2 s.dbg.frz.seq reason s1
  drainBanks (pumpOps ((List.range 12).foldl (fun a p => (a.drainRx p).pumpPort p) s2))

/-- FREEZE_TIMEOUT_THAW: TIMEOUT_MS has run out. -/
def freezeTimeout (s : State) : State :=
  let z := s.dbg.frz
  if s.isFrozen && z.timeout != 0 && decide (z.began + z.timeout * 100000 ≤ s.ctl.now) && s.fwReady then thawAll 1 s else s

/-- Whether a capture awaits its trigger. -/
def Trv.awaits (t : Trv) : Bool := t.state == 1 && t.mode == 2 && !t.triggered

/-- The checks of freezeCmd, in the order of its table. -/
def freezeCmdFails (f : Frame) (s : State) : List (Bool × Err) :=
  let p := f.payload
  let act := fld p 0 1
  let z := s.dbg.frz
  [
    (badLength f 16, err0 stArg),
    (act > 2, errAt stArg 0),
    (fld p 1 1 > 1, errAt stArg 1),
    (!fldZero p 2 2 || !fldZero p 8 8, (reservedErr p [(2, 2), (8, 8)]).getD (err0 stArg)),
    (fld p 4 4 > 600000, errAt stRange 4),
    (act != 2 && z.on, err0 stState),
    (act == 1 && (z.arm.isSome || !s.dbg.trv.awaits), err0 stState),
    (act == 2 && z.arm.isNone, err0 stState)]

def freezeCmd : Handler := fun f _ _ s =>
  let p := f.payload
  let act := fld p 0 1
  .check (freezeCmdFails f s) s <|
  match act with
  | 0 => .wait .freeze (beginFreeze (bit (fld p 1 1) 0) (fld p 4 4) 0 s)
  | 1 => .ok [] (s.modFrz (fun z => { z with arm := some ⟨bit (fld p 1 1) 0, fld p 4 4⟩ }))
  | _ => .ok [] (s.modFrz (fun z => { z with arm := none }))

/-- The checks of thawCmd, in the order of its table. -/
def thawCmdFails (f : Frame) (s : State) : List (Bool × Err) :=
  [
    (badLength f 8, err0 stArg),
    (!fldZero f.payload 0 8, (reservedErr f.payload [(0, 8)]).getD (err0 stArg)),
    (!s.isFrozen, err0 stState)]

def thawCmd : Handler := fun f _ _ s =>
  .check (thawCmdFails f s) s <|
  .ok [] (thawAll 0 s)

/-! The trigger (R538, R545). -/

/-- TRAVERSE_TRIGGER: a source that the capture awaits fires: 0 the address match, 1 the debug trigger in line, 2 the detector. An armed freeze whose
trigger comes while the part is frozen is spent: DESIGN CHOICE, log entry 49. -/
def trvTrigger (src : Nat) (s : State) : State :=
  let t := s.dbg.trv
  if !t.awaits || !bit t.trigSrc src || (src == 2 && !t.fired) then s
  else
    let s1 := s.modTrv (fun t => { t with
      triggered := true, state := 2, postLeft := t.capacity * t.post / 8, trigPos := t.written % t.capacity })
    let s2 := debugEvent 3 0 src (trvPut ⟨4, 0xFF, 0, s.ctl.surveyorTime, src, 0⟩ s1)
    let s3 := if t.trigOut then { s2 with pins := { s2.pins with trigPulse := true } } else s2
    match s.dbg.frz.arm with
    | none => s3
    | some a =>
      let s4 := s3.modFrz (fun z => { z with arm := none })
      if s.dbg.frz.on then s4 else beginFreeze a.stopTrv a.timeout 1 s4

/-- TRIGGER_PULSE_END: the 1 µs pulse on the trigger out line ends. -/
def pulseEnd (s : State) : State := { s with pins := { s.pins with trigPulse := false } }

/-! TRAVERSE_CONFIG (R540). -/

/-- The Traverse registers by word (R542). -/
def Trv.word (t : Trv) (i : Nat) : Nat :=
  match i with
  | 0 => t.state + 8 * t.mode + 32 * b2n t.triggered + 64 * b2n t.wrapped + 128 * b2n t.redirect + 256 * t.post + 2048 * t.cores
  | 1 => t.written % 2 ^ 32
  | 2 => t.written / 2 ^ 32 % 2 ^ 32
  | 3 => t.lost
  | 4 => t.capacity
  | 5 => t.trigPos
  | _ => 0

/-- The 32 bytes of a record (R536). -/
def TrvRec.bytes (r : TrvRec) : List Byte :=
  leb 1 r.kind ++ leb 1 r.core ++ leb 2 r.info ++ zeros 4 ++ leb 8 r.time ++ leb 8 r.a ++ leb 8 r.b

def trvFails (f : Frame) (sid : Nat) (s : State) : List (Bool × Err) :=
  let p := f.payload
  let act := fld p 0 1
  let start := act == 0
  let mode := fld p 1 1
  let trig := start && mode == 2
  let fl := fld p 3 1
  let src := fld p 5 1
  let own := s.owns sid
  let t := s.dbg.trv
  [(badLength f 32, err0 stArg),
   (act > 3, errAt stArg 0),
   (mode > (if start then 2 else 0), errAt stArg 1),
   (!trig && fld p 2 1 != 0, errAt stArg 2),
   (fl > 7 || (start && bit fl 2 && mode != 2), errAt stArg 3),
   (fld p 4 1 > 15, errAt stArg 4),
   (src > 7 || (!trig && src != 0) || (trig && src == 0), errAt stArg 5),
   (!(start && bit fl 1) && fld p 6 2 != 0, errAt stArg 6),
   (!fldZero p 0x14 4, (reservedErr p [(0x14, 4)]).getD (err0 stArg)),
   (trig && (fld p 2 1 == 0 || fld p 2 1 > 7), errAt stRange 2),
   (start && fld p 4 1 == 0, errAt stRange 4),
   (start && bit fl 1 && (fld p 6 2 == 0 || fld p 6 2 > 1024), errAt stRange 6),
   (trig && bit src 2 && !detListed (fld p 0x10 4), errAt stRange 0x10),
   (act == 3 && !(fld p 0x18 8 < t.recs.length), errAt stRange 0x18),
   (!own resTraverse || (trig && bit src 1 && !own resTrigIn) || (start && bit fl 2 && !own resTrigOut), errD stState 0x0E01),
   ((act == 0 || act == 3) && t.capturing, errD stState 0x0E02),
   (act == 1 && !t.capturing, errD stState 0x0E02),
   (start && bit fl 1 && s.mem.reserved.isEmpty, err0 stLimit)]

/-- A capture as START begins it. -/
def trvStart (p : List Byte) (s : State) : State :=
  let fl := fld p 3 1
  let redirect := bit fl 1
  trvStarts (s.modTrv (fun _ => {
    state := 1, mode := fld p 1 1, post := fld p 2 1, cores := fld p 4 1, stall := bit fl 0, redirect := redirect, trigOut := bit fl 2
    trigSrc := fld p 5 1, trigPc := fld p 8 8, trigDet := if bit (fld p 5 1) 2 then fld p 0x10 4 else 0
    triggered := false, fired := false, wrapped := false, written := 0, lost := 0
    capacity := if redirect then fld p 6 2 * 32768 else 131072
    trigPos := 0, postLeft := 0, recs := [], gaps := [0, 0, 0, 0] }))

def traverse : Handler := fun f sid x s =>
  let p := f.payload
  let t := s.dbg.trv
  .check (trvFails f sid s) s <|
  match fld p 0 1 with
  | 0 => .ok [] (trvStart p s)
  | 1 => .ok [] (trvStop 2 s)
  | 2 => .ok ((List.range 6).flatMap (fun i => leb 4 (t.word i))) s
  | _ =>
    let off := fld p 0x18 8
    let rs := (t.recs.drop off).take ((x.maxPayload - 16) / 32)
    .ok (leb 8 off ++ leb 4 rs.length ++ zeros 4 ++ rs.flatMap TrvRec.bytes) s

/-! The rows. -/

def execTraverseStart (f : Frame) (s : State) : Host.Outcome State Fault Refusal := .next (rcpAction 0x0902 0 0 traverse f s)
def execTraverseStop (f : Frame) (s : State) : Host.Outcome State Fault Refusal := .next (rcpAction 0x0902 0 1 traverse f s)
def execTraverseStatus (f : Frame) (s : State) : Host.Outcome State Fault Refusal := .next (rcpAction 0x0902 0 2 traverse f s)
def execTraverseRead (f : Frame) (s : State) : Host.Outcome State Fault Refusal := .next (rcpAction 0x0902 0 3 traverse f s)
def execTraverseRecord (core : Fin 4) (s : State) : Host.Outcome State Fault Refusal := .next (trvRecord core s)
def execTraverseTrigger (src : Fin 3) (s : State) : Host.Outcome State Fault Refusal := .next (trvTrigger src s)
def execTriggerPulseEnd (s : State) : Host.Outcome State Fault Refusal := .next (pulseEnd s)
def execFreezeNow (f : Frame) (s : State) : Host.Outcome State Fault Refusal := .next (rcpAction 0x0900 0 0 freezeCmd f s)
def execFreezeArm (f : Frame) (s : State) : Host.Outcome State Fault Refusal := .next (rcpAction 0x0900 0 1 freezeCmd f s)
def execFreezeDisarm (f : Frame) (s : State) : Host.Outcome State Fault Refusal := .next (rcpAction 0x0900 0 2 freezeCmd f s)
def execFreezeMarker (u : Nat) (s : State) : Host.Outcome State Fault Refusal := .next (freezeMarker u s)
def execFreezeCutTimeout (s : State) : Host.Outcome State Fault Refusal := .next (cutTimeout s)
def execThaw (f : Frame) (s : State) : Host.Outcome State Fault Refusal := .next (rcpRun 0x0901 thawCmd f s)
def execFreezeTimeoutThaw (s : State) : Host.Outcome State Fault Refusal := .next (freezeTimeout s)

end Sys2Proof.Machine
end

