-- ==== Sys2Proof/Machine/Service.lean ====
section
/-!
DEFINITION. Service in operation: quarantine of Pods, SERVICE_STATUS, the handshake stall watchdog, shared resources, injection
(R503 to R529).
-/
namespace Sys2Proof.Machine
open Sys2Proof

/-! Pod quarantine (R503 to R508). -/

/-- A Pod quarantined with DRAIN: threads in ASKING and UNBOUND threads stop at once, the others at their next ASK. -/
def quarantineDrain (p : Nat) (s : State) : State :=
  let idle := (List.range 16).filter (fun k => match (s.thread (16 * p + k)).st with
    | .asking _ _ => true
    | .unbound => true
    | .running => false
    | .blocked _ => false
    | .quarantined => false)
  (idle.foldl (fun a k => quarantineThread (16 * p + k) a) s).modPod p (fun x => { x with
    quarantine := true, draining := true, selftest := none })

/-- A thread returns to service: a bound one to its image's entry point (R506). -/
def reinstateThread (t : Nat) (s : State) : State :=
  match (s.thread t).image with
  | none => s.modThread t (fun th => { th with st := .unbound })
  | some h => match (s.pods.images.find h).bind Image.stop with
    | some (some new) => takeThread t new s
    | _ => s.start t h

/-- Whether a POD_QUARANTINE runs on a Pod, or a quarantine by firmware. -/
def quarantineRuns (s : State) (p : Nat) : Bool :=
  !(s.waiting (.quarantine p)).isEmpty || !(s.waiting (.selftest p)).isEmpty || ((s.pod p).quarantine && !s.allQuarantined p)

/-- Whether any context maps a page of a Pod's store. -/
def podStoreMapped (s : State) (p : Nat) : Bool :=
  s.mem.contexts.vals.any (fun c => c.maps.any (fun m => m.exts.any (fun x =>
    decide (x.pa < podStoreBase + (p + 1) * 0x8_0000) && decide (podStoreBase + p * 0x8_0000 < x.pa + x.len))))

def quarantineFails (s : State) (b : List Byte) : List (Bool × Err) :=
  let p := fld b 0 2
  let act := fld b 2 1
  let x := s.pod p
  [(b.length != 8, err0 stArg),
   (act > 2, errAt stArg 2),
   (fld b 3 1 > 1 || (act != 0 && fld b 3 1 != 0), errAt stArg 3),
   (!fldZero b 4 4, (reservedErr b [(4, 4)]).getD (err0 stArg)),
   (p > 511, errAt stRange 0),
   (s.dbg.frz.on || quarantineRuns s p, err0 stState),
   (x.quarantine == (act == 0), err0 stState),
   (act == 2 && x.selftest != some 0, err0 stState),
   (act == 1 && podStoreMapped s p, errD stState 0x0D03)]

/-- POD_QUARANTINE (R503). -/
def podQuarantine : Handler := fun f _ _ s =>
  let p := fld f.payload 0 2
  .check (quarantineFails s f.payload) s <|
  match fld f.payload 2 1 with
  | 0 =>
    if bit (fld f.payload 3 1) 0 then .waitThen (.quarantine p) (quarantineDrain p s) (podSettle p)
    else
      let s1 := quarantineNow p stState s
      if s1.allQuarantined p then .ok [] (podSettle p s1) else .wait (.quarantine p) s1
  | 1 => .wait (.selftest p) s
  | _ => .ok [] (((List.range 16).foldl (fun a k => reinstateThread (16 * p + k) a) s).modPod p (fun x => { x with quarantine := false }))

/-- QUARANTINE_ABANDON_TIMER: 1 ms after a quarantine without DRAIN, the operations of the Pod's threads that have not ended are abandoned, and the
threads become QUARANTINED. -/
def abandonTimer (p : Nat) (s : State) : State :=
  let x := s.pod p
  if x.quarantine && !x.draining && decide (x.quarAt + 100000 ≤ s.ctl.now) then
    let left := ((List.range 16).map (16 * p + ·)).filter (fun t => (s.thread t).st != .quarantined)
    if left.isEmpty then s
    else podSettle p (left.foldl (fun a t => quarantineThread t (abandonOps t (a.thread t).epoch a)) s)
  else s

/-- A self-test ends with its RESULT, a free value: the Pod store is zeroed (R505). -/
def selftestEnd (p sid rid : Nat) (s : State) : State :=
  let r := (s.draw).1 % 256
  let s1 := (s.draw).2
  let s2 := { s1 with mem := s1.mem.zero (podStoreBase + p * 0x8_0000) 0x8_0000 }
  (s2.modPod p (fun x => { x with selftest := some r })).finish sid rid stOk (leb 4 r ++ zeros 4)

/-! The handshake stall watchdog (R508, R510, R525). -/

/-- HANDSHAKE_STALL_WATCHDOG: a channel of a unit stalls, or the unit's next handshake with an injection armed; the channel is a free value. Where firmware does
not run, it acts once it does. -/
def stallWatchdog (u : Nat) (s : State) : State :=
  if s.ctl.fabricOn && !s.dbg.frz.on && decide (u < 0x2B8) then
    let ch := (s.draw).1 % 2 ^ 16
    let s1 := (s.draw).2
    let s2 := if (s.armed 0x0C u).isSome then s1.fireInjected 0x0C u ch else s1.fire 0x0C u ch false
    if s.fwReady then selfService u s2 else { s2 with svc := { s2.svc with stalled := s2.svc.stalled ++ [u] } }
  else s

/-! SERVICE_STATUS (R509 to R515). -/

/-- A bit map of n bits, in whole bytes. -/
def bitmap (n : Nat) (p : Nat → Bool) : List Byte :=
  (List.range (n / 8)).map (fun i => BitVec.ofNat 8 ((List.range 8).map (fun k => b2n (p (8 * i + k)) * 2 ^ k)).sum)

/-- FW_STATE: whether the running slot is not COMMITTED; free where the running image came from no slot. -/
def fwState (s : State) : Nat × State :=
  match (s.fw.running.map FwImage.slot).getD 2 with
  | 2 => ((s.draw).1 % 2, (s.draw).2)
  | k => (b2n (((s.flash.slot k).map SlotRec.state).getD 1 != 1), s)

/-- The QUERY completion payload (R514). -/
def servicePayload (fw : Nat) (s : State) : List Byte :=
  bitmap 512 (fun p => !(s.pod p).quarantine)
    ++ bitmap 512 (fun p => match (s.pod p).selftest with
      | none => false
      | some r => r != 0)
    ++ bitmap 128 (fun k => (s.channel k).state == .active)
    ++ bitmap 32 (fun e => s.svc.fiPlaced.getLsbD e)
    ++ bitmap 8 (fun b => (s.gazBank b).state == .active)
    ++ leb 1 fw
    ++ bitmap 16 (fun p => if p = 0 then s.linkUp else decide (p ≤ 12) && s.fabUp (p - 1))
    ++ leb 4 ((s.fw.running.map FwImage.release).getD 0)
    ++ leb 4 (min 0xFFFF_FFFF ((s.ctl.now - s.clk.calTime) / 100000000))
    ++ zeros 8

/-- PORT_RELINK takes a port's link down; it trains again (R511). -/
def relinkGo (t : Nat) (s : State) : State :=
  let s1 := { s with svc := { s.svc with relink := s.svc.relink.put t s.ctl.now } }
  if t = 0 then linkDown s1 else s1.failPort (t - 1)

/-- The island of a relinked port. -/
def relinkIsland (t : Nat) : Nat := if t = 0 then islHost else islFabric (t - 1)

def serviceFails (s : State) (x : Session) (b : List Byte) : List (Bool × Err) :=
  let act := fld b 0 1
  let t := fld b 2 2
  [(b.length != 8, err0 stArg),
   (act > 3, errAt stArg 0),
   (fld b 1 1 != 0, errAt stArg 1),
   ((act == 0 || act == 3) && t != 0, errAt stArg 2),
   (!fldZero b 4 4, (reservedErr b [(4, 4)]).getD (err0 stArg)),
   ((act == 1 && decide (t > 31)) || (act == 2 && decide (t > 12)), errAt stRange 2),
   (act != 0 && !x.priv, err0 stPerm),
   (s.dbg.frz.on, err0 stState),
   (act == 1 && !(s.waiting (.engineReset t)).isEmpty, err0 stState),
   (act == 2 && (s.svc.relink.find t).isSome, err0 stState),
   (act == 3 && s.clk.recal, err0 stState),
   (act == 2 && !s.up (relinkIsland t), unavailable (relinkIsland t))]

/-- SERVICE_STATUS. -/
def serviceStatus : Handler := fun f _ x s =>
  let t := fld f.payload 2 2
  .check (serviceFails s x f.payload) s <|
  match fld f.payload 0 1 with
  | 0 => .ok (servicePayload (fwState s).1 s) (fwState s).2
  | 1 =>
    let s1 := frameEngineReset t s
    .wait (.engineReset t) { s1 with svc := { s1.svc with fiPlaced := putBit s1.svc.fiPlaced t false } }
  | 2 => .waitThen (.relink t) s (relinkGo t)
  | _ => .wait .recal { s with clk := { s.clk with recal := true } }

/-- An ENGINE_RESET ends: the engine returns to placement if it passes its check, a free value (R510). -/
def engineResetEnd (e sid rid : Nat) (s : State) : State :=
  let s1 := (s.draw).2
  if (s.draw).1 % 2 = 0 then
    ({ s1 with svc := { s1.svc with fiPlaced := putBit s1.svc.fiPlaced e true } }).finish sid rid stOk []
  else s1.finish sid rid stHw (errPayload (errD stHw 0x0D04))

/-- An AVS_RECAL ends; the trims are free values (R512). -/
def recalEnd (sid rid : Nat) (s : State) : State :=
  let r := drawTrims s
  let s1 := recalibrated r.1 r.2.2
  if r.2.1 then s1.finish sid rid stHw (errPayload (errD stHw 0x0D06)) else s1.finish sid rid stOk []

/-- RELINK_TIMEOUT: the command of each port not up 500 ms after it began ends with an error; the port keeps trying. -/
def relinkTimeout (s : State) : State :=
  (s.svc.relink.filter (fun e => decide (e.2 + 50000000 ≤ s.ctl.now))).foldl (fun a e =>
    ({ a with svc := { a.svc with relink := a.svc.relink.del e.1 } }).failAll (.relink e.1) (errD stHw 0x0D05)) s

/-! Shared resources (R518 to R523). -/

def claimFails (s : State) (sid : Nat) (x : Session) (b : List Byte) : List (Bool × Err) :=
  let r := fld b 0 2
  let cls := fld b 2 1
  let fn := fld b 3 1
  [(b.length != 8, err0 stArg),
   (r > 0x0C, errAt stArg 0),
   (cls > 2, errAt stArg 2),
   (if r < 8 then decide (fn > 6) else fn != 0, errAt stArg 3),
   (!fldZero b 4 4, (reservedErr b [(4, 4)]).getD (err0 stArg)),
   (cls == 2 || (cls == 1 && !x.priv), errAt stPerm 2),
   (2 ≤ fn && fn ≤ 4, errAt stState 3),
   (fn ≥ 5 && (cls != 1 || !s.owns sid (if fn = 5 then resTrigIn else resTrigOut)), errAt stState 3),
   (match s.owner r with
    | none => false
    | some o => if s.owns sid r then fn == o.fn && decide (cls ≤ o.cls) else decide (cls ≤ o.cls), err0 stBusy)]

/-- A higher class takes a resource: the previous owner's use stops, and it hears of it (R520). -/
def preempt (r cls : Nat) (o : Owner) (s : State) : State :=
  let s1 := s.disown r
  let s2 := if r = resTraverse then trvStop 3 s1 else s1
  s2.eventTo o.session 2 0x10 (leb 2 r ++ leb 1 cls)

/-- CLAIM. -/
def claim : Handler := fun f sid x s =>
  let r := fld f.payload 0 2
  let cls := fld f.payload 2 1
  .check (claimFails s sid x f.payload) s <|
  let own := fun (c : Nat) (a : State) => { a with svc := { a.svc with owners := a.svc.owners.put r ⟨sid, false, c, fld f.payload 3 1⟩ } }
  match s.owner r with
  | none => .ok [] (own cls s)
  | some o => if s.owns sid r then .ok [] (own (max cls o.cls) s) else .ok [] (own cls (preempt r cls o s))

/-- The checks of releaseRes, in the order of its table. -/
def releaseResFails (f : Frame) (sid : Nat) (s : State) : List (Bool × Err) :=
  let b := f.payload
  [
    (b.length != 8, err0 stArg),
    (fld b 0 2 > 0x0C, errAt stArg 0),
    (!fldZero b 2 6, (reservedErr b [(2, 6)]).getD (err0 stArg)),
    (!s.owns sid (fld b 0 2), err0 stState)]

/-- RELEASE. -/
def releaseRes : Handler := fun f sid _ s =>
  let b := f.payload
  .check (releaseResFails f sid s) s <|
  .ok [] (s.disown (fld b 0 2))

/-! INJECT (R528, R529). -/

/-- Where ADDRESS lies in CONTEXT: its physical address and whether in an ECC region. -/
def injectAt (s : State) (b : List Byte) : Option (Nat × Bool) :=
  match s.mem.contexts.find (fld b 6 2) with
  | none => none
  | some c => match c.mapAt (fld b 8 8) false with
    | none => none
    | some m => (extAt m.exts (fld b 8 8 - m.va)).map (fun pa => (pa, m.ecc))

/-- Whether ADDRESS lies on the channel or store that a detector watches, for KIND 0x01 in an ECC region. -/
def injectFits (kind inst pa : Nat) (ecc : Bool) : Bool :=
  if kind = 1 then decide (pa < lpddrEnd) && ecc && channelOf pa == inst
  else decide (podStoreBase ≤ pa) && storeDetector pa == (kind, inst)

def injectFails (s : State) (b : List Byte) : List (Bool × Err) :=
  let id := fld b 0 4
  let kind := bits id 31 24
  let inst := bits id 23 8
  let arm := fld b 4 1 == 0
  let addressed := arm && (kind == 1 || kind == 4 || kind == 5)
  [(b.length != 24, err0 stArg),
   (!detListed id, errAt stArg 0),
   (fld b 4 1 > 1, errAt stArg 4),
   (decide (fld b 5 1 > (if arm && (kind == 1 || kind == 2) then 1 else 0)), errAt stArg 5),
   (!addressed && fld b 6 2 != 0, errAt stArg 6),
   (!addressed && !(arm && kind == 9) && fld b 8 8 != 0, errAt stArg 8),
   (!(arm && (kind == 0x0D || kind == 0x0E)) && fld b 0x10 4 != 0, errAt stArg 0x10),
   (!fldZero b 0x14 4, (reservedErr b [(0x14, 4)]).getD (err0 stArg)),
   (arm && kind == 9 && decide (fld b 8 8 ≥ 262144), errAt stArg 8),
   (addressed && (match injectAt s b with
     | none => false
     | some (pa, ecc) => !injectFits kind inst pa ecc), errAt stArg 8),
   (addressed && (injectAt s b).isNone, errAt stXlate 8),
   (arm == (s.detector id).armed.isSome, errAt stState 4),
   (s.dbg.frz.on, err0 stState)]

/-- The bit of an entry record that the k-th array bit holds (R344). -/
def arrayBit (k : Nat) : Nat := if k % 271 < 262 then k % 271 else k % 271 + 2

/-- An array bit of a bank entry flipped by an injection (R525); which is a free value. -/
def flipArray (bank e : Nat) (s : State) : State :=
  ((s.draw).2).modBank bank (fun k => { k with arr := k.arr.upd 0 e (k.arr.at 0 e ^^^ 2 ^ arrayBit (s.draw).1) })

/-- INJECT. -/
def inject : Handler := fun f _ _ s =>
  let b := f.payload
  let id := fld b 0 4
  .check (injectFails s b) s <|
  if fld b 4 1 = 0 then
    let s1 := s.modDetector id (fun d => { d with
      armed := some ⟨fld b 5 1, fld b 6 2, fld b 8 8, ((injectAt s b).map Prod.fst).getD 0, fld b 0x10 4⟩ })
    .ok [] (if bits id 31 24 = 9 then flipArray (bits id 23 8 - 0x2B0) (fld b 8 8) s1 else s1)
  else .ok [] (s.modDetector id (fun d => { d with armed := none }))

/-! The rows. -/

def execHandshakeStallWatchdog (u : Nat) (s : State) : Host.Outcome State Fault Refusal := .next (stallWatchdog u s)
def execPodQuarantine (f : Frame) (s : State) : Host.Outcome State Fault Refusal := .next (rcpAction 0x0803 2 0 podQuarantine f s)
def execQuarantineAbandonTimer (pod : Fin 512) (s : State) : Host.Outcome State Fault Refusal := .next (abandonTimer pod s)
def execPodSelftest (f : Frame) (s : State) : Host.Outcome State Fault Refusal := .next (rcpAction 0x0803 2 1 podQuarantine f s)
def execPodReinstate (f : Frame) (s : State) : Host.Outcome State Fault Refusal := .next (rcpAction 0x0803 2 2 podQuarantine f s)
def execServiceQuery (f : Frame) (s : State) : Host.Outcome State Fault Refusal := .next (rcpAction 0x0802 0 0 serviceStatus f s)
def execEngineReset (f : Frame) (s : State) : Host.Outcome State Fault Refusal := .next (rcpAction 0x0802 0 1 serviceStatus f s)
def execPortRelink (f : Frame) (s : State) : Host.Outcome State Fault Refusal := .next (rcpAction 0x0802 0 2 serviceStatus f s)
def execRelinkTimeout (s : State) : Host.Outcome State Fault Refusal := .next (relinkTimeout s)
def execAvsRecal (f : Frame) (s : State) : Host.Outcome State Fault Refusal := .next (rcpAction 0x0802 0 3 serviceStatus f s)
def execClaim (f : Frame) (s : State) : Host.Outcome State Fault Refusal := .next (rcpRun 0x0800 claim f s)
def execRelease (f : Frame) (s : State) : Host.Outcome State Fault Refusal := .next (rcpRun 0x0801 releaseRes f s)
def execInjectArm (f : Frame) (s : State) : Host.Outcome State Fault Refusal := .next (rcpAction 0x0804 4 0 inject f s)
def execInjectDisarm (f : Frame) (s : State) : Host.Outcome State Fault Refusal := .next (rcpAction 0x0804 4 1 inject f s)

end Sys2Proof.Machine
end

