-- ==== Sys2Proof/Machine/Context.lean ====
section
/-!
DEFINITION. CONTEXT_DESTROY (R204): what ends with a context.
-/
namespace Sys2Proof.Machine
open Sys2Proof

/-- The images of a context unloaded; a thread that holds an item is first stopped as by steps 2 to 5 of R132. -/
def dropImages (ctx : Nat) (s : State) : State :=
  ((s.pods.images.filter (fun e => e.2.ctx == ctx)).map Prod.fst).foldl (fun a h =>
    let b := (a.boundTo h).foldl (fun c t => c.retire t stState true) a
    unbindImage h false (stopImage h b)) s

/-- The streaming operations of a context end, those suspended too. -/
def dropUnits (ctx : Nat) (s : State) : State :=
  let waits := (s.units.susp.filter (fun e => e.2.ctx == ctx && !e.2.resuming)).filterMap (fun e => match e.2.job with
    | .frame id k => some (id, k)
    | _ => none)
  let s1 := dropJobs (fun h => h.ctx == ctx) (waits.foldl (fun a p => sampleAbandon p.1 p.2 a) s)
  let u := s1.units
  { s1 with units := { u with
    susp := u.susp.keep (fun _ x => x.ctx != ctx)
    legends := u.legends.keep (fun _ x => x.ctx != ctx)
    joins := u.joins.filter (fun t => !(t.pages.any (fun pa =>
      ((s.mem.contexts.find ctx).map (fun c => c.holds pa)).getD false && !s.heldByOther ctx pa 1))) } }

/-- The embedding tables of a context and the operations on them end. -/
def dropEmb (ctx : Nat) (s : State) : State :=
  let e := s.emb
  let gone := fun (h : Nat) => ((e.tables.find h).map (fun t => t.ctx == ctx)).getD true
  { s with emb := { e with
    tables := e.tables.keep (fun _ t => t.ctx != ctx)
    gathers := e.gathers.keep (fun _ g => g.ctx != ctx)
    embus := e.embus.filter (fun x => x.ctx != ctx)
    reads := e.reads.mapV (fun l => l.filter (fun x => !gone x.table))
    updates := e.updates.mapV (fun l => l.filter (fun x => !gone x.table)) } }

/-- The remote operations of a context end; responses still to come find none. -/
def dropRemote (ctx : Nat) (s : State) : State :=
  let f := s.fab
  let mine := fun (k : Nat) => ((f.ops.find k).map (fun o => o.ctx == ctx)).getD false
  { s with fab := { f with ops := f.ops.keep (fun _ o => o.ctx != ctx), reqs := f.reqs.keep (fun _ r => !mine r.op) } }

/-- The frame sessions of a context close as by DRAIN (R419). -/
def dropFrames (ctx : Nat) (s : State) : State :=
  ((s.frames.sessions.filter (fun e => e.2.ctx == ctx)).map Prod.fst).foldl (fun a id =>
    (a.modFs id (fun x => { x with closing := true })).settleFrames id) s

/-- Steps 1 to 3: sessions, images, operations, frame sessions, queue pairs, memory regions, sets, flows. -/
def contextGo (ctx : Nat) (s : State) : State :=
  let s1 := ((s.rcp.sessions.filter (fun e => e.2.ctx == ctx && !e.2.priv)).map Prod.fst).foldl (fun a k => endSession k a) s
  let s2 := (dropImages ctx s1).modCtx ctx (fun c => { c with destroying := true })
  let s3 := dropRemote ctx (dropEmb ctx (gazDropCtx ctx (dropUnits ctx s2)))
  let s4 := ((s3.roce.qps.filter (fun e => e.2.ctx == ctx)).map Prod.fst).foldl (fun a n => qpSettle n (qpGo n a)) s3
  let smp := s4.dbg.smp
  dropFrames ctx { s4 with
    roce := { s4.roce with mrs := s4.roce.mrs.keep (fun _ m => m.ctx != ctx) }
    dbg := { s4.dbg with smp := { smp with enable := smp.enable && smp.ctx != ctx } } }

/-- Whether a producer of a context being destroyed has not ended: a frame session that drains, a queue pair with completions to enter (R170). -/
def contextBusy (s : State) (ctx : Nat) : Bool :=
  s.frames.sessions.any (fun e => e.2.ctx == ctx) || s.roce.qps.any (fun e => e.2.ctx == ctx)

/-- The flows are destroyed once every producer has ended; step 4: every mapping is removed, and the context is gone. -/
def contextEnd (ctx : Nat) (s : State) : State :=
  let s1 := { s with disp := { s.disp with flows := s.disp.flows.keep (fun _ f => f.ctx != ctx) } }.unmapRange ctx 0 (2 ^ 48)
  { s1 with mem := { s1.mem with contexts := s1.mem.contexts.del ctx } }

/-- The checks of contextDestroy, in the order of its table. -/
def contextDestroyFails (f : Frame) (s : State) : List (Bool × Err) :=
  let b := f.payload
  let ctx := fld b 0 2
  let force := bit (fld b 2 2) 0
  [
    (b.length != 4, err0 stArg),
    (decide (fld b 2 2 > 1), errAt stArg 2),
    (ctx == 0, errAt stPerm 0),
    (((s.mem.contexts.find ctx).map Ctx.destroying).getD true, errAt stState 0),
    (!force && s.pods.threads.any (fun e => e.2.item.isSome && e.2.image.isSome && s.ctxOf e.1 == ctx), errAt stState 2)]

/-- CONTEXT_DESTROY. -/
def contextDestroy : Handler := fun f _ _ s =>
  let b := f.payload
  let ctx := fld b 0 2
  .check (contextDestroyFails f s) s <|
  .waitThen (.contextDestroy ctx) s (contextGo ctx)

def execContextDestroy (f : Frame) (s : State) : Host.Outcome State Fault Refusal := .next (rcpRun 0x0201 contextDestroy f s)

end Sys2Proof.Machine
end

