-- ==== Sys2Proof/Machine/EmbCmd.lean ====
section
/-!
DEFINITION. EMB_TABLE_CREATE (R314 to R316), PARTITION_MAP_SET (R319 to R321), EMB_TABLE_SWAP (R334 to R337).
-/
namespace Sys2Proof.Machine
open Sys2Proof

/-! EMB_TABLE_CREATE. -/

/-- The table that a request describes, before its storage. -/
def tableFrom (ctx : Nat) (p : List Byte) : EmbTable where
  ctx := ctx
  tag := fld p 0 4
  d := fld p 4 2
  bits := fld p 6 1
  opt := fld p 7 1
  rows := fld p 8 8
  itype := fld p 0x10 1
  deltaBf16 := fld p 0x11 1 == 1
  flags := fld p 0x12 2
  barrier := fld p 0x14 4
  hyper := fld p 0x18 8
  version := 1
  versions := []
  prepared := none
  pmap := none
  startStep := 0
  step := 0
  homeStep := 0
  ended := []
  ends := 0
  entries := []
  sent := []
  received := []
  lost := []
  tokens := []
  notices := []
  closing := none
  lostParts := []
  degraded := false
  dying := false
  ctr := EmbCtr.zero

/-- The tables of a context that have not been destroyed. -/
def State.tablesOf (s : State) (ctx : Nat) : List (Nat × EmbTable) := s.emb.tables.filter (fun e => e.2.ctx == ctx && !e.2.dying)

/-- The failures of EMB_TABLE_CREATE in table order (R316). -/
def embCreateFails (s : State) (ctx : Nat) (p : List Byte) : List (Bool × Err) :=
  let t := tableFrom ctx p
  let up := t.updates
  [ fieldErr stArg 0 ([(t.bits == 4 && t.d % 2 == 1, 4), (t.bits != 8 && t.bits != 4, 6), (decide (t.opt > 2), 7), (decide (t.itype > 3), 0x10),
      (fld p 0x11 1 > 1, 0x11), (decide (t.flags > 15), 0x12), (!up && t.barrier != 0, 0x14), (!up && t.hyper != 0, 0x18)]
      ++ reservedBytes p [(0x20, 32)]),
    fieldErr stRange 0 [(t.d < 8 || t.d > 1024, 4), (t.rows < 1 || t.rows > 2 ^ 36, 8), (up && (t.barrier < 1 || t.barrier > 8192), 0x14)],
    fieldErr stAlign 0 [(t.hyper % 32 != 0, 0x18)],
    fieldErr stState 0 [((s.tablesOf ctx).any (fun e => e.2.tag == t.tag), 0)],
    ((s.tablesOf ctx).length ≥ 1024 || !s.fits ctx (eccBytes t.ecc t.storageLen + t.bufBytes), err0 stLimit) ]

def embCreate : Handler := fun f _ x s =>
  let p := f.payload
  if badLength f 64 then .err (err0 stArg) s
  else match firstFail (embCreateFails s x.ctx p) with
    | some e => .err e s
    | none =>
      let t := tableFrom x.ctx p
      match mapStorage s x.ctx t.storageLen t.ecc with
      | none => .err (err0 stLimit) s
      | some (va, s1) =>
        let r := s1.fresh (fun k => k == 0 || (s1.emb.tables.find k).isSome) (2 ^ 64) (s1.emb.tables.length + 1)
        let s2 := { r.2 with emb := { r.2.emb with tables := r.2.emb.tables.put r.1 { t with versions := [(1, ⟨va, 0⟩)] } } }
        .ok (leb 8 r.1 ++ leb 8 va ++ leb 8 (va + t.rows * t.stride) ++ leb 4 t.stride ++ leb 4 1) (s2.charge x.ctx t.bufBytes)

/-! PARTITION_MAP_SET. -/

/-- The entries of a map array. -/
def mapEntries (b : List Byte) : List (Nat × Nat × Nat) :=
  (List.range (b.length / 32)).map (fun k => (fld b (32 * k) 8, fld b (32 * k + 8) 8, fld b (32 * k + 16) 2))

/-- Whether starts begin at 0 and rise strictly. -/
def rising : List Nat → Bool
  | a :: b :: t => a < b && rising (b :: t)
  | _ => true

/-- Whether an entry array breaks R320 or has a reserved byte that is not zero. -/
def mapBadArg (mode : Nat) (b : List Byte) : Bool :=
  let es := mapEntries b
  (List.range (b.length / 32)).any (fun k => !fldZero b (32 * k + 18) 14) || es.any (fun e => e.2.2 ≥ 4096) ||
    (if mode = 1 then (es.headD (0, 0, 0)).1 != 0 || !rising (es.map Prod.fst) else es.any (fun e => e.1 != 0 || e.2.1 != 0))

/-- Whether a local row of this part's own ranges or stripes is not below ROWS. -/
def mapBadRows (mode own rows global : Nat) (es : List (Nat × Nat × Nat)) : Bool :=
  let n := es.length
  es.zipIdx.any (fun p => p.1.2.2 == own &&
    (if mode = 1 then
      let top := if p.2 + 1 < n then (nth es (0, 0, 0) (p.2 + 1)).1 else global
      decide (p.1.1 < top ∧ top - p.1.1 + p.1.2.1 > rows)
    else decide (p.2 < global ∧ (global - 1 - p.2) / n ≥ rows)))

/-- The failures of PARTITION_MAP_SET in table order (R321). -/
def mapSetFails (s : State) (ctx : Nat) (p : List Byte) : List (Bool × Err) :=
  let mode := fld p 8 1
  let n := fld p 0xA 2
  let addr := fld p 0x10 8
  let global := fld p 0x18 8
  let t := s.embTable (fld p 0 8)
  let b := if mode = 0 ∨ n > 4096 then [] else (s.peek ctx addr (32 * n)).getD []
  [ fieldErr stArg 0 ([(decide (mode > 2), 8)] ++ reservedBytes p [(9, 1)] ++
      [(mode == 0 && n != 0, 0xA), (mode == 0 && addr != 0, 0x10), (mode == 0 && global != 0, 0x18)]),
    (mode != 0 && !b.isEmpty && mapBadArg mode b, err0 stArg),
    fieldErr stRange 0 [(mode != 0 && (n < 1 || n > 4096), 0xA), (mode != 0 && (global < 1 || global > 2 ^ 40), 0x18)],
    (mode != 0 && (match t with
      | none => false
      | some t => mapBadRows mode s.fab.grat t.rows global (mapEntries b)), err0 stRange),
    fieldErr stAlign 0 [(addr % 32 != 0, 0x10)],
    (match if mode = 0 then none else rangesErr s ctx [(addr, 32 * n, .r)] with
      | none => (false, err0 stXlate)
      | some e => (true, err0 e.status)),
    fieldErr stPerm 0 [((t.map (fun t => t.ctx != ctx)).getD false, 0)],
    fieldErr stState 0 [(t.isNone || (match t with
      | none => false
      | some t => s.emb.embus.any (fun e => e.table == fld p 0 8) || !t.entries.isEmpty || t.closing.isSome || t.ends != 0 || t.prepared.isSome), 0)] ]

def mapSet : Handler := fun f _ x s =>
  let p := f.payload
  if badLength f 32 then .err (err0 stArg) s
  else match firstFail (mapSetFails s x.ctx p) with
    | some e => .err e (if e.status == stXlate || (e.status == stPerm && e.arg == 0xFFFF) then s.countRefused x.ctx e.status else s)
    | none =>
      let mode := fld p 8 1
      match Io.exec (if mode = 0 then pure [] else memRead x.ctx (fld p 0x10 8) (32 * fld p 0xA 2)) s with
      | (.error e, s1) => .err { e with detail := 0 } s1
      | (.ok b, s1) =>
        let st := fld p 0xC 4
        .ok [] (s1.modEmb (fld p 0 8) (fun t => { t with
          pmap := if mode = 0 then none else some ⟨mode == 2, mapEntries b, fld p 0x18 8⟩
          startStep := st, step := st, homeStep := st, sent := [], received := [], lost := [], tokens := [], notices := [],
          lostParts := [], degraded := false }))

/-! EMB_TABLE_SWAP. -/

/-- The counters of a table (R337). -/
def tableBlock (t : EmbTable) : List Byte :=
  let c := t.ctr
  leb 4 t.version ++ leb 4 t.step ++ leb 4 t.homeStep ++ leb 2 (b2n t.degraded + 2 * b2n t.prepared.isSome) ++ zeros 2 ++
    [c.gatherRows, c.coalesced, c.substNull, c.substNegative, c.substRange, c.substInvalid, c.substRemote, c.gradDiscarded,
      c.deltasReceived, c.rowsUpdated, c.splits, c.splitsAhead, c.frozenSkips, c.nonfinite, c.lost, c.rmwFailed].flatMap (leb 8)

/-- The failures of an action in table order (R336): bad is the row that only the action has. -/
def embSwapFails (act flags : Nat) (bad : EmbTable → Bool) (f : Frame) (x : Session) (s : State) : List (Bool × Err) :=
  let p := f.payload
  let t := s.embTable (fld p 0 8)
  [ (badLength f 16, err0 stArg),
    fieldErr stArg 0 ([(fld p 8 1 != act, 8), (fld p 9 1 ||| flags != flags, 9)] ++ reservedBytes p [(0xA, 6)]),
    (t.isNone, errAt stState 0),
    ((t.map (fun t => t.ctx != x.ctx)).getD false, errAt stPerm 0),
    ((t.map bad).getD false, err0 stState) ]

/-- An action past its checks. -/
def embSwap (act flags : Nat) (bad : EmbTable → Bool) (go : Nat → EmbTable → State → Reply) : Handler := fun f _ x s =>
  let h := fld f.payload 0 8
  Reply.check (embSwapFails act flags bad f x s) s (match s.embTable h with
    | none => .err (errAt stState 0) s
    | some t => go h t s)

def embPrepare : Handler := embSwap 0 0 (fun t => t.prepared.isSome) (fun h t s =>
  if !s.fits t.ctx (eccBytes t.ecc t.storageLen) then .err (err0 stLimit) s
  else match mapStorage s t.ctx t.storageLen t.ecc with
    | none => .err (err0 stLimit) s
    | some (va, s1) =>
      .ok (leb 8 va ++ leb 8 (va + t.rows * t.stride)) (s1.modEmb h (fun t => { t with
        prepared := some (t.version + 1), versions := t.versions.put (t.version + 1) ⟨va, 0⟩ })))

def embCommit : Handler := fun f sid x s =>
  embSwap 1 1 (fun t => t.prepared.isNone) (fun h t s =>
    let v := t.prepared.getD 0
    let drop := bit (fld f.payload 9 1) 0
    let s1 := (if drop then loseEntries h (fun _ => true) s else s).modEmb h (fun t => { t with version := v, prepared := none })
    .ok (leb 4 v ++ zeros 4) (closeOn h (s1.embReap h))) f sid x s

def embCancel : Handler := embSwap 2 0 (fun t => t.prepared.isNone) (fun h _ s =>
  .ok [] ((s.modEmb h (fun t => { t with prepared := none })).embReap h))

/-- A table ended (R336): its buffered deltas and pending updates are discarded, threads that wait for its step go on, its storage goes once
nothing pins it. -/
def destroyTable (h : Nat) (s : State) : State :=
  let s1 := s.modEmb h (fun t => { t with dying := true, entries := [] })
  let s2 := { s1 with emb := { s1.emb with
    embus := s1.emb.embus.map (fun (e : Embu) => if e.table == h then { e with deltas := [], stepEnd := false } else e)
    updates := s1.emb.updates.mapV (fun l => l.filter (fun (x : RowUpdate) => x.table != h)) } }
  (wakeStep h s2.settleEmb).embReap h

def embDestroy : Handler := embSwap 3 0 (fun _ => false) (fun h _ s => .ok [] (destroyTable h s))

def embQuery : Handler := fun f sid x s =>
  embSwap 4 2 (fun _ => false) (fun h t s =>
    .ok (tableBlock t) (if bit (fld f.payload 9 1) 1 then s.modEmbCtr h (fun _ => EmbCtr.zero) else s)) f sid x s

/-- EMB_TABLE_SWAP as its ACTION has it; a reserved ACTION fails. -/
def embSwapCmd : Handler := fun f sid x s =>
  match fld f.payload 8 1 with
  | 0 => embPrepare f sid x s
  | 1 => embCommit f sid x s
  | 2 => embCancel f sid x s
  | 3 => embDestroy f sid x s
  | 4 => embQuery f sid x s
  | _ => .err (if badLength f 16 then err0 stArg else errAt stArg 8) s

/-! The rows. -/

def execEmbTableCreate (f : Frame) (s : State) : Host.Outcome State Fault Refusal := .next (rcpRun 0x0510 embCreate f s)
def execPartitionMapSet (f : Frame) (s : State) : Host.Outcome State Fault Refusal := .next (rcpRun 0x0512 mapSet f s)
def execEmbTablePrepare (f : Frame) (s : State) : Host.Outcome State Fault Refusal := .next (rcpAction 0x0511 8 0 embPrepare f s)
def execEmbTableCommit (f : Frame) (s : State) : Host.Outcome State Fault Refusal := .next (rcpAction 0x0511 8 1 embCommit f s)
def execEmbTableCancel (f : Frame) (s : State) : Host.Outcome State Fault Refusal := .next (rcpAction 0x0511 8 2 embCancel f s)
def execEmbTableDestroy (f : Frame) (s : State) : Host.Outcome State Fault Refusal := .next (rcpAction 0x0511 8 3 embDestroy f s)
def execEmbTableQuery (f : Frame) (s : State) : Host.Outcome State Fault Refusal := .next (rcpAction 0x0511 8 4 embQuery f s)

end Sys2Proof.Machine
end

