-- ==== Sys2Proof/Machine/LegendCmd.lean ====
section
/-!
DEFINITION. LEGEND_CREATE and its DESTROY (R232 to R235).
-/
namespace Sys2Proof.Machine
open Sys2Proof

/-- Every job of a streaming unit that has not ended, with the handles of the Legends it names. -/
def State.legendUses (s : State) : List Nat :=
  let table := fun (d : List Byte) => [fld d 8 8]
  let column := fun (d : List Byte) => [fld d 8 8, fld d 0x28 8]
  let join := fun (d : List Byte) => [fld d 8 8, fld d 0x20 8, fld d 0x58 8]
  s.units.table.vals.flatMap (fun e => (e.queue ++ e.run.toList).flatMap (fun j => table j.desc)) ++
    s.units.column.vals.flatMap (fun e => (e.queue ++ e.run.toList).flatMap (fun j => column j.desc)) ++
    s.units.join.vals.flatMap (fun e => (e.queue ++ e.run.toList).flatMap (fun j => join j.desc)) ++
    s.units.susp.vals.flatMap (fun x => match x.job with
      | .table _ j => table j.desc
      | .column _ j => column j.desc
      | .join _ j => join j.desc
      | .codec _ _ => []
      | .proj _ _ => []
      | .frame _ _ => [])

/-- Whether a column entry has a reserved encoding (R231, R233, R235); earlier entries' SOURCE_INDEX are taken. -/
def entryBadArg (e : List Byte) (earlier : List Nat) : Bool :=
  let t := colType e
  let el := colElem e
  let unit := t == tTime || (isList t && el == tTime)
  t < 1 || t > 0x12 || (if isList t then !isFixedType el else el != 0) || (!unit && colUnit e != 0) ||
    bits (fld e 3 1) 7 3 != 0 || (bit (fld e 3 1) 1 && !isList t) || (bit (fld e 3 1) 2 && !(t == tUtf8 && colNullable e)) ||
    !fldZero e 6 2 || !fldZero e 0x14 12 || (t != tFixed && fld e 8 4 != 0) || (t != tList && fld e 0xC 4 != 0) ||
    (!isVar t && fld e 0x10 4 != 0) || earlier.contains (fld e 4 2)

/-- Whether a column entry has a value outside its range. -/
def entryBadRange (e : List Byte) : Bool :=
  let t := colType e
  ((t == tTime || (isList t && colElem e == tTime)) && (colUnit e < 1 || colUnit e > 4)) ||
    (t == tFixed && (fld e 8 4 < 1 || fld e 8 4 > 4194304)) || fld e 0xC 4 > 4194304 || fld e 0x10 4 > 16777216

/-- The failures of a Legend's registration in table order (R235). -/
def legendFails (s : State) (ctx : Nat) (p : List Byte) : List (Bool × Err) :=
  let addr := fld p 0 8
  let len := fld p 8 4
  let hdr := if len < 64 then none else s.peek ctx addr 64
  let n := (hdr.map legColumns).getD 0
  let es := if hdr.isSome && len == 64 + 32 * n then (s.peek ctx addr len).map (fun b => (List.range n).map (legEntry b)) else none
  let es := es.getD []
  let h := hdr.getD []
  let indexes := es.map (fun e => fld e 4 2)
  let some_ := fun (st : Nat) (o : Option Nat) => (o.isSome, errD st (o.getD 0 + 1))
  [ fieldErr stArg 0 ([(decide (len < 64) || (hdr.isSome && len != 64 + 32 * n), 8)] ++
      [((List.range 3).any (fun i => fld p (0xD + i) 1 != 0) || fld p 0xC 1 > 1, 0xC)] ++ reservedBytes p [(0x10, 8)]),
    (hdr.isSome && (!fldZero h 5 1 || !fldZero h 0x10 48), err0 stArg),
    some_ stArg (es.zipIdx.find? (fun p => entryBadArg p.1 (indexes.take p.2)) |>.map Prod.snd),
    (hdr.isSome && (n < 1 || n > 1024), err0 stRange),
    some_ stRange (es.zipIdx.find? (fun p => entryBadRange p.1) |>.map Prod.snd),
    fieldErr stAlign 0 [(addr % 8 != 0, 0)],
    (hdr.isSome && fld h 0 4 != 0x4447_454C, err0 stCorrupt),
    (hdr.isSome && fld h 4 1 != 1, err0 stUnsupported),
    (match rangesErr s ctx [(addr, len, .r)] with
      | none => (false, err0 stXlate)
      | some e => (true, err0 e.status)),
    (s.units.legends.vals.countP (fun l => l.ctx == ctx) ≥ 4096 || !s.fits ctx len, err0 stLimit) ]

/-- LEGEND_CREATE without DESTROY. -/
def legendCreate : Handler := fun f _ x s =>
  let p := f.payload
  if badLength f 24 then .err (err0 stArg) s
  else match firstFail (legendFails s x.ctx p) with
    | some e => .err e (if e.status == stXlate || e.status == stPerm then s.countRefused x.ctx e.status else s)
    | none => match Io.exec (memRead x.ctx (fld p 0 8) (fld p 8 4)) s with
      | (.error e, s1) => .err { e with detail := 0 } s1
      | (.ok b, s1) =>
        let r := s1.fresh (fun k => k == 0 || (s1.units.legends.find k).isSome) (2 ^ 64) (s1.units.legends.length + 1)
        .ok (leb 8 r.1) ({ r.2 with units := { r.2.units with legends := r.2.units.legends.put r.1 ⟨x.ctx, b⟩ } }.charge x.ctx b.length)

/-- The checks of legendDestroy, in the order of its table. -/
def legendDestroyFails (f : Frame) (x : Session) (s : State) : List (Bool × Err) :=
  let p := f.payload
  let h := fld p 0x10 8
  [
    (badLength f 24, err0 stArg),
    fieldErr stArg 0 [(fld p 0 8 != 0, 0), (fld p 8 4 != 0, 8), (fld p 0xC 4 != 1, 0xC)],
    ((s.units.legends.find h).isNone || s.legendUses.contains h, errAt stState 0x10),
    (s.legendForeign x.ctx h, errAt stPerm 0x10)]

/-- LEGEND_CREATE with DESTROY. -/
def legendDestroy : Handler := fun f _ x s =>
  let p := f.payload
  let h := fld p 0x10 8
  .check (legendDestroyFails f x s) s <|
  .ok [] ({ s with units := { s.units with legends := s.units.legends.del h } }.uncharge x.ctx (s.legendBytes h).length)

/-- LEGEND_CREATE as its FLAGS has it. -/
def legendCmd : Handler := fun f sid x s =>
  if bit (fld f.payload 0xC 4) 0 then legendDestroy f sid x s else legendCreate f sid x s

/-! The rows. -/

def execLegendCreate (f : Frame) (s : State) : Host.Outcome State Fault Refusal :=
  .next (if bit (fld f.payload 0xC 4) 0 then s else rcpRun 0x0500 legendCmd f s)
def execLegendDestroy (f : Frame) (s : State) : Host.Outcome State Fault Refusal :=
  .next (if bit (fld f.payload 0xC 4) 0 then rcpRun 0x0500 legendCmd f s else s)

end Sys2Proof.Machine
end

