-- ==== Sys2Proof/Machine/Regs.lean ====
section
/-!
DEFINITION. The Local Control Space (R596 to R608): the map, what each register reads and how it is written, READ_REG, WRITE_REG,
GET_PORT_STATUS, and COUNTERS_READ (R533).
-/
namespace Sys2Proof.Machine
open Sys2Proof

/-! The map (R596). -/

/-- The blocks, as first and last address. -/
def lcsBlocks : List (Nat × Nat) :=
  [(0x0, 0xFFF), (0x1000, 0x1FFF), (0x1_0000, 0x1_0FFF), (0x2_0000, 0x2_0FFF), (0x10_0000, 0x10_0FFF), (0x20_0000, 0x21_FFFF),
   (0x30_0000, 0x30_0FFF), (0x40_0000, 0x40_5FFF), (0x50_0000, 0x50_0FFF), (0x60_0000, 0x60_7FFF), (0x70_0000, 0x70_0FFF)]
    ++ (List.range 32).map (fun n => (0x100_0000 + n * 0x1_0000, 0x100_0FFF + n * 0x1_0000))

/-- Whether a range lies wholly in one block of a list. -/
def inBlock (l : List (Nat × Nat)) (a n : Nat) : Bool := l.any (fun b => b.1 ≤ a && a + n ≤ b.2 + 1)

/-- Two 32-bit words of a 64-bit register: the low one at even index. -/
def half (v i : Nat) : Nat := v / 2 ^ (32 * (i % 2)) % 2 ^ 32

/-! What each block's registers read: the value and the mask of bits that are not RSV; none where the address is unassigned. off is the
offset in the block. -/

def all32 : Nat := 0xFFFF_FFFF

/-- The Identification block (R34, R602). -/
def rdIdent (s : State) (off : Nat) : Option (Nat × Nat) :=
  if off = 0 then some (0x4F4D_5601, all32)
  else if off = 8 ∨ off = 12 then some (half s.serial (off / 4), all32)
  else if 0x100 ≤ off ∧ off < 0x200 then some (fld s.config (off - 0x100) 4, all32)
  else none

/-- The Reset and straps block (R555, R556, R561, R567). -/
def rdReset (s : State) (off : Nat) : Option (Nat × Nat) :=
  let c := s.ctl
  match off with
  | 0x00 => some (c.rstCause.toNat, 0xF)
  | 0x04 => some (c.straps.toNat, 0xF)
  | 0x10 => some (half c.lockStatus.toNat 0, all32)
  | 0x14 => some (half c.lockStatus.toNat 1, 0x7FFF)
  | 0x18 => some (half c.pllLock.toNat 0, all32)
  | 0x1C => some (half c.pllLock.toNat 1, 0x7FFF)
  | 0x20 => some (c.stage.toNat + 16 * c.slot.toNat + 2 ^ 16 * c.bootDetail.toNat, 0xFFFF_003F)
  | _ => none

/-- The Clock and power block (R21, R513, R577). -/
def rdClock (s : State) (off : Nat) : Option (Nat × Nat) :=
  let c := s.clk
  if off = 0 then some (c.vreq, 0xFFF)
  else if off = 4 then some (c.vread, 0xFFF)
  else if off = 8 then some (c.iread, 0xFFFF)
  else if off = 12 then some (c.pread, 0xFFFF)
  else if off = 0x10 then some (c.budget, 0xFFFF)
  else if 0x20 ≤ off ∧ off < 0x38 then some ((nth c.rails ⟨0, 0, false⟩ ((off - 0x20) / 4)).mv.toNat, 0xFFF)
  else if 0x100 ≤ off ∧ off < 0x180 then
    let m := nth c.mons ⟨0, false⟩ ((off - 0x100) / 4)
    some (m.count.toNat + 2 ^ 31 * b2n m.valid, 0x800F_FFFF)
  else if 0x200 ≤ off ∧ off < 0x280 then some ((nth c.trims 0 ((off - 0x200) / 4)).toNat, 0x3F)
  else none

/-- A bank's state as GAZ_BANK_STATE has it (R371). -/
def BankState.code (x : BankState) : Nat :=
  match x with
  | .active => 0
  | .reloading => 1
  | .moving => 2
  | .outOfService => 3
  | .testing => 4

/-- The Thermal block (R367, R368, R371, R578). -/
def rdThermal (s : State) (off : Nat) : Option (Nat × Nat) :=
  let c := s.clk
  if off < 0x98 then
    some (match nth c.temps none (off / 4) with
      | none => 0
      | some t => t.toNat + 2 ^ 31, 0x8000_00FF)
  else match off with
  | 0xA0 => some (c.hottest + 256 * c.sensor + 2 ^ 14 * b2n c.throttle + 2 ^ 15 * b2n c.alert + 2 ^ 16 * b2n c.hot, 0x1_FFFF)
  | 0xA4 => some (c.alertC + 256 * c.throttleC, 0xFFFF)
  | 0x100 => some (s.gaz.level + 8 * b2n s.gaz.capHeld + 2 ^ 16 * s.gaz.temp, 0x00FF_000F)
  | 0x104 => some (s.gaz.segLimit, 0x00FF_FFFF)
  | 0x108 => some (((List.range 8).map (fun b => (s.gazBank b).state.code * 16 ^ b)).sum, all32)
  | _ => none

/-- The Dispatcher observation block (R190, R191). -/
def rdDisp (s : State) (off : Nat) : Option (Nat × Nat) :=
  if off < 0x800 then
    let p := s.pod (off / 4)
    some (p.busy.toNat + 2 ^ 16 * p.held + 2 ^ 31 * b2n p.busyValid, 0x801F_FFFF)
  else if off < 0x900 then some (half (s.disp.handovers.at 0 ((off - 0x800) / 8)) (off / 4), all32)
  else none

/-- The Detectors block (R526): an identifier that is not listed is unassigned and reads zero. -/
def rdDet (s : State) (off : Nat) : Option (Nat × Nat) :=
  let id := detId (off / 0x2000) (off % 0x2000 / 8)
  if detListed id then
    let d := s.detector id
    if off % 8 < 4 then some (b2n d.fired + 2 * b2n d.fromInject + 4 * b2n d.armed.isSome + 256 * d.detail, 0x00FF_FF07)
    else some (d.count, all32)
  else none

/-- The Traverse block (R542). -/
def rdTrv (s : State) (off : Nat) : Option (Nat × Nat) :=
  if off < 0x18 then some (s.dbg.trv.word (off / 4), if off < 4 then 0x7FFF else all32) else none

/-- A register of eight words of an engine. -/
def word8 (l : List Nat) (off : Nat) : Option (Nat × Nat) := some (nth l 0 (off % 0x20 / 4), all32)

/-- The Counters block (R369, R394, R415, R442, R531, R534). -/
def rdCounters (s : State) (off : Nat) : Option (Nat × Nat) :=
  if off < 0x1000 then
    let c := s.channel (off / 0x20)
    let i := off % 0x20 / 4
    if i < 6 then some (half (nth [c.reads, c.writes, c.acts] 0 (i / 2)) i, all32) else some (0, 0)
  else if off < 0x1200 then
    let k := s.gazBank ((off - 0x1000) / 0x40)
    if off % 0x40 < 0x20 then word8 [half k.seq 0, half k.seq 1, k.segAct, k.thermWin, k.capWin, k.writes, k.scrubPass, k.scrubFix] off else none
  else if 0x2000 ≤ off ∧ off < 0x2200 then
    let c := s.units.projCtr.at ProjCtr.init ((off - 0x2000) / 0x20)
    word8 [half c.bytes 0, half c.bytes 1, c.ops, c.misaligned, c.clamped, c.convev, c.netpass, c.suspends] off
  else if 0x3000 ≤ off ∧ off < 0x3200 then
    let c := s.units.codecCtr.at ⟨0, 0, 0, 0, 0, 0⟩ ((off - 0x3000) / 0x20)
    word8 [half c.inBytes 0, half c.inBytes 1, half c.outBytes 0, half c.outBytes 1, c.jobs, c.clears, c.corrupt, c.suspends] off
  else if 0x4000 ≤ off ∧ off < 0x4400 then
    let c := s.frames.ctr.at FiCtr.zero ((off - 0x4000) / 0x20)
    word8 [half c.pixels 0, half c.pixels 1, c.samples, c.corrupt, c.limit, c.budget, c.storeWait, c.held] off
  else
    let p := s.dbg.smp
    match off with
    | 0x5000 => some (b2n p.enable + 2 * p.period + 256 * p.ctx, 0xFF3F)
    | 0x5004 => some (half p.ring 0, all32)
    | 0x5008 => some (half p.ring 1, all32)
    | 0x500C => some (p.entries, all32)
    | 0x5010 => some (p.seq % 2 ^ 32, all32)
    | 0x5014 => some (p.dropped, all32)
    | _ => none

/-- Whether a pin is owned with a function, and the function. -/
def State.pinFn (s : State) (n : Nat) : Option Nat := (s.owner n).map Owner.fn

/-- The level at an owned pin (R603): what the part drives, or what the board does, which is a free value. -/
def pinLevel (s : State) (n : Nat) : Bool :=
  match s.pinFn n with
  | none => false
  | some 1 => s.pins.gpioOut.getLsbD n
  | some 6 => s.pins.trigPulse
  | some 4 => !(s.clk.alert || s.clk.hot) && bit (Config.freeNat s.free) n
  | some _ => bit (Config.freeNat s.free) n

/-- GPIO_IN. -/
def gpioLevels (s : State) : Nat := ((List.range 8).map (fun n => b2n (pinLevel s n) * 2 ^ n)).sum

/-- The GPIO block (R522, R593, R603). -/
def rdGpio (s : State) (off : Nat) : Option (Nat × Nat) :=
  if off < 0x68 then
    match s.owner (off / 8) with
    | none => some (0, if off % 8 < 4 then all32 else 0xF0F)
    | some o =>
      if off % 8 < 4 then some (if o.firmware then 0 else o.session, all32)
      else some (o.cls + 4 + 8 * b2n o.firmware + 256 * o.fn, 0xF0F)
  else if off = 0x80 then some (gpioLevels s, 0xFF)
  else if off = 0x84 then some (s.pins.gpioOut.toNat, 0xFF)
  else if 0x90 ≤ off ∧ off < 0xB0 then
    let n := (off - 0x90) / 4
    let duty := if s.pinFn n = some 3 then (if s.clk.hot then 100 else nth s.pins.duty 0 n) else 0
    let tach := if s.pinFn n = some 2 then (nth s.pins.tach 0 n).toNat else 0
    some (duty + 2 ^ 16 * tach, 0xFFFF_00FF)
  else if off = 0x100 then some (s.pins.smbAddr.toNat + 128 * b2n s.pins.alertEn, 0xFF)
  else none

/-- FAB_LINKp.STALLED: the virtual channels whose next frame has no credit (R476). -/
def FPort.stalled (x : FPort) : Nat :=
  ((List.range 4).map (fun v => match x.queue.find? (fun e => e.1 == v) with
    | none => 0
    | some e => b2n (decide (x.credit v < e.2.2.cost)) * 2 ^ v)).sum

/-- The eight words from FAB_LINKp (R476, R477). -/
def FPort.words (x : FPort) : List Nat :=
  [x.state.code + 256 * x.stalled + 2 ^ 16 * x.peerGrat, x.crcErr, x.replayCount % 2 ^ 16 + 2 ^ 16 * min 0xFFFF x.failures, x.discards,
   half x.txBytes 0, half x.txBytes 1, half x.rxBytes 0, half x.rxBytes 1]

/-- The Fabric Ports block (R457, R475 to R477). -/
def rdFabric (s : State) (off : Nat) : Option (Nat × Nat) :=
  if off = 0 then some (s.grat + 2 ^ 16 * s.fabState, 0x3_FFFF)
  else if off = 4 then some (s.fab.epoch, all32)
  else if 0x100 ≤ off ∧ off < 0x280 then
    let i := off % 0x20 / 4
    some (nth (s.fport ((off - 0x100) / 0x20)).words 0 i, if i = 0 then 0xFFFF_0F07 else all32)
  else if 0x4000 ≤ off then some (s.fab.routes.at 0 ((off - 0x4000) / 4), 0x1FF_FFFF)
  else none

/-- HP_STATUS (R605). -/
def hpStatus (s : State) : Nat :=
  (match s.host.link with
    | .down => 0
    | .training => 1
    | .up => 2 + 8 * s.host.mode) + 256 * s.host.xoff.toNat + 2 ^ 16 * s.host.paused.toNat

/-- The Host Port block by word (R604). -/
def rdHost (s : State) (off : Nat) : Option (Nat × Nat) :=
  let c := s.host.ctr
  let mac := s.fw.fuses.macBytes
  let w := off / 4
  if w = 0 then some (hpStatus s, 0x00FF_FF1F)
  else if w = 1 then some (fld mac 0 4, all32)
  else if w = 2 then some (fld mac 4 2, 0xFFFF)
  else if w = 3 then some (s.host.rcpPort, 0xFFFF)
  else if w < 19 then
    some (nth [c.fcsErr, c.lenErr, c.otherMac, c.fragDrop, c.otherIp, c.dropMalformed, c.dropCrc, c.dropMac, c.dupInflight, c.ingPrioMismatch,
      c.linkDowns, half c.rxBytes 0, half c.rxBytes 1, half c.txBytes 0, half c.txBytes 1] 0 (w - 4), all32)
  else if 20 ≤ w ∧ w < 28 then some (nth c.xoffTx 0 (w - 20), all32)
  else if w = 28 then some (c.rxOverflow, all32)
  else none

/-- A channel's state as MC_CH_STATE has it (R224). -/
def ChState.code (x : ChState) : Nat :=
  match x with
  | .absent => 0
  | .active => 1
  | .draining => 2
  | .retraining => 3
  | .restoring => 4
  | .outOfService => 5
  | .lost => 6

/-- The block of memory controller n (R223, R225, R338). -/
def rdMc (s : State) (n off : Nat) : Option (Nat × Nat) :=
  let e := s.emb.ctr.at EmbUnitCtr.zero n
  if off = 0 then
    some (((List.range 4).map (fun k => (s.channel (4 * n + k)).state.code * 16 ^ k)).sum + 2 ^ 16 * s.mem.density, 0x00FF_FFFF)
  else if 0x10 ≤ off ∧ off < 0x20 then some ((s.channel (4 * n + (off - 0x10) / 4)).ce, all32)
  else if 0x20 ≤ off ∧ off < 0x30 then some ((s.channel (4 * n + (off - 0x20) / 4)).ue, all32)
  else if 0x100 ≤ off ∧ off < 0x118 then
    some (nth [e.rowReads, e.coalesced, e.rmw, e.splits, e.deltasIn, e.dropped] 0 ((off - 0x100) / 4), all32)
  else none

/-- A register by address: its value now and the mask of its bits that are not RSV; none where the address is unassigned. -/
def State.reg (s : State) (a : Nat) : Option (Nat × Nat) :=
  if a % 4 ≠ 0 then none
  else if a < 0x1000 then rdIdent s a
  else if a < 0x2000 then rdReset s (a - 0x1000)
  else if inBlock [(0x1_0000, 0x1_0FFF)] a 4 then rdClock s (a - 0x1_0000)
  else if inBlock [(0x2_0000, 0x2_0FFF)] a 4 then rdThermal s (a - 0x2_0000)
  else if inBlock [(0x10_0000, 0x10_0FFF)] a 4 then rdDisp s (a - 0x10_0000)
  else if inBlock [(0x20_0000, 0x21_FFFF)] a 4 then rdDet s (a - 0x20_0000)
  else if inBlock [(0x30_0000, 0x30_0FFF)] a 4 then rdTrv s (a - 0x30_0000)
  else if inBlock [(0x40_0000, 0x40_5FFF)] a 4 then rdCounters s (a - 0x40_0000)
  else if inBlock [(0x50_0000, 0x50_0FFF)] a 4 then rdGpio s (a - 0x50_0000)
  else if inBlock [(0x60_0000, 0x60_7FFF)] a 4 then rdFabric s (a - 0x60_0000)
  else if inBlock [(0x70_0000, 0x70_0FFF)] a 4 then rdHost s (a - 0x70_0000)
  else if 0x100_0000 ≤ a ∧ a < 0x120_0000 ∧ a % 0x1_0000 < 0x1000 then rdMc s ((a - 0x100_0000) / 0x1_0000) (a % 0x1_0000)
  else none

/-- The value of a register now; an unassigned address reads zero (R597). -/
def State.live (s : State) (a : Nat) : Nat := ((s.reg a).map Prod.fst).getD 0

/-! The latch (R191, R601). -/

/-- Whether a register is a _LO register whose read latches the _HI register above it. -/
def latches (a : Nat) : Bool :=
  let c := a - 0x40_0000
  let i := a % 0x20 / 4
  a == 0x8 || (0x10_0800 ≤ a && a < 0x10_0900 && a % 8 == 0) || a == 0x30_0004 ||
  (0x40_0000 ≤ a && a < 0x40_6000 &&
    ((c < 0x1000 && (i == 0 || i == 2 || i == 4)) || (0x1000 ≤ c && c < 0x1200 && a % 0x40 == 0) ||
     (0x2000 ≤ c && c < 0x2200 && i == 0) || (0x3000 ≤ c && c < 0x3200 && (i == 0 || i == 2)) || (0x4000 ≤ c && c < 0x4400 && i == 0))) ||
  (0x60_0100 ≤ a && a < 0x60_0280 && (i == 4 || i == 6)) || a == 0x70_003C || a == 0x70_0044

/-- One register read in a session: a _LO register latches its _HI register; a latched _HI register returns the latch once. GPIO_IN draws the
levels that the board drives. -/
def readOne (sid a : Nat) (s : State) : Nat × State :=
  let x := ((s.session sid).map Session.latches).getD []
  if latches a then (s.live a, s.modSession sid (fun y => { y with latches := y.latches.put (a + 4) (s.live (a + 4)) }))
  else if a = 0x50_0080 then
    (s.live a, { s with free := s.free + 1, pins := { s.pins with gpioIn := BitVec.ofNat 8 (gpioLevels s) } })
  else match x.find a with
    | some v => (v, s.modSession sid (fun y => { y with latches := y.latches.del a }))
    | none => (s.live a, s)

/-- Registers read one after another. -/
def readMany (sid : Nat) : Nat → Nat → State → List Byte × State
  | 0, _, s => ([], s)
  | n + 1, a, s =>
    let r := readOne sid a s
    let t := readMany sid n (a + 4) r.2
    (leb 4 r.1 ++ t.1, t.2)

/-- The checks of readReg, in the order of its table. -/
def readRegFails (f : Frame) (x : Session) : List (Bool × Err) :=
  let a := fld f.payload 0 4
  let n := fld f.payload 4 2
  [
    (badLength f 8, err0 stArg),
    (fld f.payload 6 2 != 0, errAt stArg 6),
    (a % 4 != 0, errAt stAlign 0),
    (!inBlock lcsBlocks a 4, errAt stRange 0),
    (n == 0 || decide (n > x.maxPayload / 4) || !inBlock lcsBlocks a (4 * n), errAt stRange 4)]

/-- READ_REG (R597, R599). -/
def readReg : Handler := fun f sid x s =>
  let a := fld f.payload 0 4
  let n := fld f.payload 4 2
  .check (readRegFails f x) s <|
  .ok (readMany sid n a s).1 (readMany sid n a s).2

/-! WRITE_REG (R598 to R600). -/

/-- Whether a write to SMP_CTL sets ENABLE, and what a write that sets it meets (R534). -/
def smpCtlFails (s : State) (v : Nat) : List (Bool × Err) :=
  let p := s.dbg.smp
  let on := bit v 0
  let per := bits v 5 1
  let ctx := bits v 15 8
  [(p.enable && on && (per != p.period || ctx != p.ctx), errAt stState 4),
   (on && (per < 14 || per > 30 || ctx == 0), errAt stRange 4),
   (on && (s.mem.contexts.find ctx).isNone, errAt stState 4),
   (on && (p.entries == 0 || p.ring == 0), errAt stState 4)]

/-- The bits of GPIO_OUT that a write would change. -/
def gpioChanged (s : State) (v : Nat) : List Nat := (List.range 8).filter (fun n => bit v n != s.pins.gpioOut.getLsbD n)

/-- What a register's own rules find wrong with a value, in order. -/
def writeFails (s : State) (sid a v : Nat) : List (Bool × Err) :=
  match a with
  | 0x2_0104 => [(v == 0 || decide (v > segCeiling s.clkMode), errAt stRange 4)]
  | 0x40_5000 => smpCtlFails s v
  | 0x40_5004 => [(s.dbg.smp.enable, errAt stState 4), (v % 64 != 0, errAt stRange 4)]
  | 0x40_5008 => [(s.dbg.smp.enable, errAt stState 4), (decide (v ≥ 2 ^ 16), errAt stArg 4)]
  | 0x40_500C => [(s.dbg.smp.enable, errAt stState 4), (!isPow2 v || decide (v < 16) || decide (v > 1048576), errAt stRange 4)]
  | 0x50_0084 => [((gpioChanged s v).any (fun n => !(s.owns sid n && s.pinFn n == some 1)), errAt stBusy 0)]
  | 0x50_0100 => [(!s.owns sid resSmbus, errAt stBusy 0), (bits v 6 0 < 8 || bits v 6 0 ≥ 0x78, errAt stArg 4)]
  | _ => []

/-- A register written: RW fields take their bits, W1C fields clear those written as 1, all others keep theirs. -/
def State.writeTo (s : State) (a v : Nat) : State :=
  let smp := s.dbg.smp
  let setSmp := fun (p : Sampler) => { s with dbg := { s.dbg with smp := p } }
  match a with
  | 0x1000 => { s with ctl := { s.ctl with rstCause := s.ctl.rstCause &&& ~~~ BitVec.ofNat 4 v } }
  | 0x1010 => { s with ctl := { s.ctl with lockStatus := s.ctl.lockStatus &&& ~~~ BitVec.ofNat 47 v } }
  | 0x1014 => { s with ctl := { s.ctl with lockStatus := s.ctl.lockStatus &&& ~~~ BitVec.ofNat 47 (v * 2 ^ 32) } }
  | 0x2_0104 => { s with gaz := { s.gaz with segLimit := v } }
  | 0x40_5000 => setSmp { smp with enable := bit v 0, period := bits v 5 1, ctx := bits v 15 8 }
  | 0x40_5004 => setSmp { smp with ring := half smp.ring 1 * 2 ^ 32 + v }
  | 0x40_5008 => setSmp { smp with ring := half smp.ring 0 + v * 2 ^ 32 }
  | 0x40_500C => setSmp { smp with entries := v }
  | 0x50_0084 => { s with pins := { s.pins with gpioOut := BitVec.ofNat 8 v } }
  | 0x50_0100 =>
    let s1 := { s with pins := { s.pins with smbAddr := BitVec.ofNat 7 v, alertEn := bit v 7 } }
    { s1 with pins := { s1.pins with
      smbAlert := bit v 7 && s1.rcp.sessions.vals.any (fun x => x.path == .mctp && decide (x.evSeq > x.fetched)) } }
  | _ =>
    if 0x20_0000 ≤ a ∧ a < 0x22_0000 ∧ a % 8 = 0 ∧ bit v 0 then
      s.modDetector (detId ((a - 0x20_0000) / 0x2000) (a % 0x2000 / 8)) (fun d => { d with fired := false })
    else s

/-- The checks of writeReg, in the order of its table. -/
def writeRegFails (f : Frame) (sid : Nat) (s : State) : List (Bool × Err) :=
  let a := fld f.payload 0 4
  let v := fld f.payload 4 4
  let rg := s.reg a
  ([
    (badLength f 8, err0 stArg),
    (v &&& (all32 ^^^ (rg.map Prod.snd).getD all32) != 0, errAt stArg 4),
    (a % 4 == 0 && inBlock lcsBlocks a 4 && rg.isNone, errAt stArg 0),
    (a % 4 != 0, errAt stAlign 0),
    (!inBlock lcsBlocks a 4, errAt stRange 0)] ++ writeFails s sid a v)

/-- WRITE_REG. -/
def writeReg : Handler := fun f sid _ s =>
  let a := fld f.payload 0 4
  let v := fld f.payload 4 4
  .check (writeRegFails f sid s) s <|
  .ok [] (s.writeTo a v)

/-- The rows of WRITE_REG that name one register. -/
def namedRegs : List Nat := [0x2_0104, 0x40_5000, 0x50_0100, 0x50_0084]

/-- A row that stands for writes of some addresses: the frame is the row's only where its payload names one. -/
def regRow (mine : Nat → Bool) (f : Frame) (s : State) : State :=
  if mine (fld f.payload 0 4) then rcpRun 0x0102 writeReg f s else s

/-! GET_PORT_STATUS (R606). -/

/-- The checks of portStatus, in the order of its table. -/
def portStatusFails (f : Frame) : List (Bool × Err) :=
  let p := fld f.payload 0 1
  [
    (badLength f 8, err0 stArg),
    (!fldZero f.payload 1 7, (reservedErr f.payload [(1, 7)]).getD (err0 stArg)),
    (decide (p > 12), errAt stRange 0)]

def portStatus : Handler := fun f _ _ s =>
  let p := fld f.payload 0 1
  .check (portStatusFails f) s <|
  .ok (if p = 0 then (List.range 32).flatMap (fun w => leb 4 (((rdHost s (4 * w)).map Prod.fst).getD 0))
    else (s.fport (p - 1)).words.flatMap (leb 4)) s

/-! COUNTERS_READ (R533). -/

/-- The blocks of a snapshot. -/
def snapBlocks : List (Nat × Nat) := [(0x10_0000, 0x10_0FFF), (0x20_0000, 0x21_FFFF), (0x40_0000, 0x40_5FFF)]

/-- The six counters of a context, in the order of R532. -/
def CtxFaults.list (c : CtxFaults) : List Nat := [c.xlate, c.perm, c.align, c.hw, c.pod, c.samples]

def countersFails (s : State) (x : Session) (b : List Byte) : List (Bool × Err) :=
  let g := fld b 0 1
  let ctx := fld b 2 2
  let a := fld b 4 4
  let n := fld b 8 4
  [(b.length != 16, err0 stArg),
   (decide (g > 1), errAt stArg 0),
   (decide (fld b 1 1 > (if g = 0 then 1 else 0)), errAt stArg 1),
   (g == 1 && ctx != 0, errAt stArg 2),
   (g == 0 && a != 0, errAt stArg 4),
   (g == 0 && n != 0, errAt stArg 8),
   (!fldZero b 0xC 4, (reservedErr b [(0xC, 4)]).getD (err0 stArg)),
   (g == 1 && (n == 0 || decide (n > (x.maxPayload - 8) / 4)), errAt stRange 8),
   (g == 1 && !inBlock snapBlocks a (4 * n), errAt stRange 4),
   (g == 1 && a % 4 != 0, errAt stAlign 4),
   (g == 0 && !x.priv && ctx != x.ctx, errAt stPerm 2),
   (g == 0 && (s.mem.contexts.find ctx).isNone, errAt stState 2)]

/-- COUNTERS_READ: the counters of a context, cleared after the read where asked, or a register range at one instant. -/
def countersRead : Handler := fun f _ x s =>
  let b := f.payload
  let a := fld b 4 4
  .check (countersFails s x b) s <|
  if fld b 0 1 = 0 then
    let c := ((s.mem.contexts.find (fld b 2 2)).map Ctx.faults).getD ⟨0, 0, 0, 0, 0, 0⟩
    .ok (c.list.flatMap (leb 8)) (if bit (fld b 1 1) 0 then s.countFault (fld b 2 2) (fun _ => ⟨0, 0, 0, 0, 0, 0⟩) else s)
  else .ok (leb 4 a ++ leb 4 (fld b 8 4) ++ (List.range (fld b 8 4)).flatMap (fun i => leb 4 (s.live (a + 4 * i)))) s

/-! The rows. -/

def execReadReg (f : Frame) (s : State) : Host.Outcome State Fault Refusal := .next (rcpRun 0x0101 readReg f s)
def execWriteReg (f : Frame) (s : State) : Host.Outcome State Fault Refusal := .next (regRow (fun a => !namedRegs.contains a) f s)
def execGazPowerWrite (f : Frame) (s : State) : Host.Outcome State Fault Refusal := .next (regRow (· == 0x2_0104) f s)
def execSmpCtlWrite (f : Frame) (s : State) : Host.Outcome State Fault Refusal := .next (regRow (· == 0x40_5000) f s)
def execSmbAddrWrite (f : Frame) (s : State) : Host.Outcome State Fault Refusal := .next (regRow (· == 0x50_0100) f s)
def execGpioOutWrite (f : Frame) (s : State) : Host.Outcome State Fault Refusal := .next (regRow (· == 0x50_0084) f s)
def execGetPortStatus (f : Frame) (s : State) : Host.Outcome State Fault Refusal := .next (rcpRun 0x0010 portStatus f s)
def execContextCountersRead (f : Frame) (s : State) : Host.Outcome State Fault Refusal := .next (rcpAction 0x0904 0 0 countersRead f s)
def execSnapshotRead (f : Frame) (s : State) : Host.Outcome State Fault Refusal := .next (rcpAction 0x0904 0 1 countersRead f s)

end Sys2Proof.Machine
end

