-- ==== Sys2Proof/Machine/Observe.lean ====
section
/-!
DEFINITION. The sampler (R534, R535) and the wait-for graph (R541, R543, R544).
-/
namespace Sys2Proof.Machine
open Sys2Proof

/-! Waits of threads (R541). -/

/-- A wait: kind, OBJECT, AUX, the possible releasers as waiter kind and number, and whether one lies outside what the graph lists. -/
structure WaitOn where
  kind : Nat
  object : Nat
  aux : Nat
  by_ : List (Nat × Nat)
  outside : Bool

/-- The number of a codec lane as a waiter: its engine's unit number, marked with the lane. -/
def laneWaiter (e l : Nat) : Nat := unitCodec e + 0x1_0000 * (l + 1)

/-- The oldest outstanding access of a thread. -/
def Thread.oldestSlot (th : Thread) : Option Slot := minBy (fun (x : Slot) => x.order) th.occupied

/-- The address of the oldest outstanding load, or 0. -/
def Thread.oldestLoad (th : Thread) : Nat :=
  match minBy (fun (x : Slot) => x.order) (th.occupied.filter (fun x => !x.op.ranges.isEmpty)) with
  | none => 0
  | some x => x.op.addr

/-- Whether an issuer is a tag of a thread. -/
def Issuer.isTag (i : Issuer) (t k epoch : Nat) : Bool :=
  match i with
  | .pod a b _ e => a == t && b == k && e == epoch
  | .rcp _ _ => false

/-- Where the jobs of engines that run for a tag are: unit, and whether it runs there. -/
def enginesOf {α : Type} (head : α → JobHead) (unit : Nat → Nat) (mine : Issuer → Bool) (t : Tbl (Engine α)) : List (Nat × Bool) :=
  t.flatMap (fun e =>
    (e.2.queue.filter (fun j => mine (head j).iss)).map (fun _ => (unit e.1, false)) ++
    (match e.2.run with
      | none => []
      | some j => if mine (head j).iss then [(unit e.1, true)] else []))

/-- A Projection Engine's own operations: its work without what samples write. -/
def projOps (e : Engine ProjWork) : Engine ProjJob :=
  { queue := e.queue.filterMap ProjWork.job?, run := e.run.bind ProjWork.job? }

/-- The units that hold or can take the operation of a tag, and whether it is placed there; none of a remote operation. -/
def tagUnits (s : State) (t k : Nat) : List (Nat × Bool) :=
  let mine := fun (i : Issuer) => i.isTag t k (s.thread t).epoch
  let u := s.units
  enginesOf (fun (j : TableJob) => j.head) unitTable mine u.table
    ++ enginesOf (fun (j : ColJob) => j.head) unitJoin mine u.column
    ++ enginesOf (fun (j : JoinJob) => j.head) unitJoin mine u.join
    ++ enginesOf (fun (j : ProjJob) => j.head) unitProj mine (u.proj.mapV projOps)
    ++ u.codecQ.flatMap (fun e => ((e.2.filterMap LaneWork.job?).filter (fun j => mine j.head.iss)).flatMap (fun _ =>
        (List.range 8).map (fun l => (laneWaiter e.1 l, false))))
    ++ u.lanes.filterMap (fun e => match e.2 with
      | .job j => if mine j.head.iss then some (laneWaiter (e.1 / 8) (e.1 % 8), true) else none
      | .gds _ => none)
    ++ (s.emb.gathers.filter (fun g => mine g.2.iss)).flatMap (fun g =>
        (s.emb.reads.filter (fun r => r.2.any (fun x => x.attached.any (fun a => a.1 == g.1)))).map (fun r => (unitEmb r.1, true)))
    ++ (s.emb.embus.filter (fun x => mine x.iss)).flatMap (fun _ => (List.range 32).map (fun n => (unitEmb n, true)))
    ++ s.gaz.banks.flatMap (fun b => (b.2.writers.filter (fun w => match w.src with
        | .gupd i _ _ _ => mine i
        | .load _ _ _ => false)).map (fun _ => (unitGaz b.1, true)))
    ++ (s.allSamples.filter (fun y => match y.iss with
        | none => false
        | some i => mine i)).map (fun y => (unitFrame y.engine, true))

/-- The remote operation of a tag. -/
def tagRemote (s : State) (t k : Nat) : Option (Nat × RemoteOp) :=
  s.fab.ops.find? (fun o => o.2.iss.isTag t k (s.thread t).epoch)

/-- A wait on a remote operation: for credit while a frame of it has not left, else for a response (kinds 7 and 8). -/
def remoteWait (s : State) (k : Nat) (o : RemoteOp) : WaitOn :=
  match o.unsent with
  | (_, vc, f) :: _ =>
    match s.routeOf vc f with
    | none => ⟨7, vc, 0xFFFF, [], true⟩
    | some p => ⟨7, 16 * p + vc, (s.fport p).peerGrat, [], true⟩
  | [] =>
    match s.fab.reqs.find? (fun r => r.2.op == k) with
    | none => ⟨8, 0, 0, [], true⟩
    | some r => ⟨8, r.1, r.2.frame.dst, [], true⟩

/-- The tags of a thread with an operation outstanding. -/
def Thread.busyTags (th : Thread) : List Nat := (List.range 8).filter (fun k => match nth th.tags .free k with
  | .busy _ => true
  | _ => false)

/-- A wait of kind 2 or 5 on some tags, one of which is named; an operation with no engine yet shows 0xFFFF. -/
def tagWait (s : State) (kind t named : Nat) (awaited : List Nat) : WaitOn :=
  match tagRemote s t named with
  | some (k, o) => remoteWait s k o
  | none =>
    let us := tagUnits s t named
    let aux := match us with
      | (u, true) :: _ => u % 0x1_0000
      | _ => 0xFFFF
    let all := awaited.flatMap (tagUnits s t)
    ⟨kind, named, aux, all.map (fun u => (1, u.1)), awaited.any (fun k => (tagRemote s t k).isSome) || all.isEmpty⟩

/-- The threads bound to a slot that names a flow. -/
def servers (s : State) (fid : Nat) : List (Nat × Nat) :=
  (s.pods.threads.filter (fun e => (s.flowSlots e.1).contains fid)).map (fun e => (0, e.1))

/-- What a thread waits for; none in ASKING, for a thread that runs with no record of kind 9, and where it waits for nothing. -/
def threadWait (s : State) (t : Nat) : Option WaitOn :=
  let th := s.thread t
  match th.st with
  | .unbound => none
  | .asking _ _ => none
  | .quarantined => none
  | .running => th.lock.map (fun l => ⟨9, l.addr, 0, [], true⟩)
  | .blocked b => match b with
    | .loadSlot => some ⟨1, th.oldestLoad, 0, [], true⟩
    | .tracker => some ⟨1, th.oldestLoad, 0, [], true⟩
    | .result => match th.oldestSlot with
      | some ⟨.gaz _ _ _ _ _ _, _, _, _⟩ =>
        match s.gaz.banks.find? (fun k => k.2.waiting.any (fun w => match w with
            | .pod x _ _ => x == t
            | .job _ _ _ => false)) with
        | some k => some ⟨2, 0, unitGaz k.1, [(1, unitGaz k.1)], true⟩
        | none => some ⟨2, 0, 0xFFFF, [], true⟩
      | some ⟨.join _ _ _, _, _, _⟩ => some ⟨2, 0, unitJoin (podOf t / 16), [(1, unitJoin (podOf t / 16))], true⟩
      | _ => some ⟨1, th.oldestLoad, 0, [], true⟩
    | .tagFree => some <| tagWait s 2 t ((th.busyTags.head?).getD 0) th.busyTags
    | .tag k => some <| tagWait s 2 t k [k]
    | .anyTag _ => some <| tagWait s 2 t ((th.busyTags.head?).getD 0) th.busyTags
    | .post fid _ => some ⟨3, fid, 0, servers s fid, false⟩
    | .acc n _ =>
      some ⟨4, n, podOf t, (((List.range 16).map (fun k => 16 * podOf t + k)).filter (fun k => (s.thread k).acc.isSome)).map (fun k => (0, k)), false⟩
    | .done _ => some <| tagWait s 5 t ((minBy (fun k => nth th.tagAge 0 k) th.busyTags).getD 0) th.busyTags
    | .codec e => some ⟨11, 1, unitCodec e, (List.range 8).map (fun l => (1, laneWaiter e l)), false⟩
    | .remote => match minBy (fun (r : Nat × RemoteReq) => r.2.sentAt.getD s.ctl.now) s.fab.reqs with
      | none => some ⟨8, 0, 0, [], true⟩
      | some r => some ⟨8, r.1, r.2.frame.dst, [], true⟩
    | .embStep h => match s.emb.tables.find h with
      | none => some ⟨6, 0, 0, [], true⟩
      | some x => some ⟨6, x.tag, x.step,
          (s.pods.threads.filter (fun e => e.2.image.isSome && s.ctxOf e.1 == x.ctx && !x.ended.contains e.1)).map (fun e => (0, e.1)),
          x.pmap.isSome⟩
    | .sort => none
    | .faulted => some <| tagWait s 5 t ((minBy (fun k => nth th.tagAge 0 k) th.busyTags).getD 0) th.busyTags

/-! Waits of engines (R543). -/

/-- An engine whose output a full flow holds (kind 10), by its unit number as a waiter. -/
def heldRec (s : State) (who fid ctx change : Nat) : WaitRec :=
  ⟨1, who, 10, fid, who % 0x1_0000, change, ctx, servers s fid, false, false, false⟩

/-- The records of engines that run one job at a time. -/
def engineRecs {α : Type} (s : State) (head : α → JobHead) (flow change : α → Nat) (unit : Nat → Nat) (t : Tbl (Engine α)) : List WaitRec :=
  t.filterMap (fun e => match e.2.run with
    | none => none
    | some j => if (head j).held.isSome then some (heldRec s (unit e.1) (flow j) (head j).ctx (change j)) else none)

/-- The records of Table Intake engines whose frames wait for places in a codec engine's queue (kind 11, R406). -/
def placeRecs (s : State) : List WaitRec :=
  s.units.table.filterMap (fun t => match t.2.run with
    | none => none
    | some j =>
      let waits := s.units.codecWait.flatMap (fun e => (e.2.filter (fun w => match w with
        | .gds g => g.engine == t.1
        | .job _ => false)).map (fun _ => e.1))
      match waits with
      | [] => none
      | e :: _ => some ⟨1, unitTable t.1, 11, waits.length, unitCodec e, j.total + j.batches, j.head.ctx,
          waits.eraseDups.flatMap (fun e => (List.range 8).map (fun l => (1, laneWaiter e l))), false, false, false⟩)

/-- The record of a Frame Intake engine none of whose samples can go on: the first that waits for stores, or else for its flow. -/
def frameRec (s : State) (e : Nat) : Option WaitRec :=
  let mine := s.frames.sessions.vals.flatMap (fun x => (x.samples.vals.filter (fun y => y.engine == e)).map (fun y => (x, y)))
  let live := mine.filter (fun p => p.2.state != .held && p.2.state != .suspended)
  if live.isEmpty || live.any (fun p => p.2.state == .ready) then none
  else match live.find? (fun p => p.2.state == .stores) with
    | some (x, y) =>
      some ⟨1, unitFrame e, 11, y.need, unitFrame e, y.order, x.ctx, (List.range 32).map (fun k => (1, unitFrame k)), false, false, false⟩
    | none => live.head?.map (fun p => heldRec s (unitFrame e) p.1.outFlow p.1.ctx (p.2.order + p.2.slabs))

/-- Every wait record of the part as one reading finds it (R543). -/
def waitRecs (s : State) : List WaitRec :=
  let u := s.units
  s.pods.threads.filterMap (fun e => (threadWait s e.1).map (fun w =>
    ⟨0, e.1, w.kind, w.object, w.aux, if w.kind = 9 then (e.2.lock.map LockRec.change).getD 0 else e.2.waitChange, s.ctxOf e.1, w.by_,
      w.outside, false, false⟩))
    ++ engineRecs s (fun (j : TableJob) => j.head) TableJob.flow (fun j => j.total + j.batches) unitTable u.table
    ++ engineRecs s (fun (j : ColJob) => j.head) ColJob.flow (fun j => j.row + j.batches) unitJoin u.column
    ++ engineRecs s (fun (j : JoinJob) => j.head) (fun j => jjFlow j.desc) (fun j => j.next + j.batches) unitJoin u.join
    ++ u.lanes.filterMap (fun e => match e.2 with
      | .gds _ => none
      | .job j => if j.ending.isSome && j.flow != 0xFFFF_FFFF then
          some (heldRec s (laneWaiter (e.1 / 8) (e.1 % 8)) j.flow j.head.ctx (j.item + j.totalOut)) else none)
    ++ placeRecs s
    ++ (List.range 32).filterMap (frameRec s)

/-! The second reading (R544). -/

/-- Whether a record of the first reading is found unchanged in the second. -/
def WaitRec.same (a b : WaitRec) : Bool :=
  a.wkind == b.wkind && a.waiter == b.waiter && a.kind == b.kind && a.object == b.object && a.change == b.change

/-- One round of the knot rule: the waiters all of whose possible releasers are still in the set. -/
def knotRound (l : List WaitRec) : List WaitRec :=
  l.filter (fun r => !r.outside && r.by_.all (fun w => l.any (fun x => x.wkind == w.1 && x.waiter == w.2)))

/-- The records of the second reading marked STABLE against the first and KNOT. -/
def markRecs (first second : List WaitRec) : List WaitRec :=
  let marked := second.map (fun (r : WaitRec) => { r with stable := first.any r.same })
  let knot := times marked.length knotRound (marked.filter WaitRec.stable)
  marked.map (fun (r : WaitRec) => { r with knot := r.stable && knot.any (fun x => x.wkind == r.wkind && x.waiter == r.waiter) })

/-! WAIT_GRAPH. -/

/-- A record's 24 bytes. -/
def WaitRec.bytes (r : WaitRec) : List Byte :=
  leb 1 r.wkind ++ leb 1 r.kind ++ leb 1 (b2n r.stable + 2 * b2n r.knot) ++ zeros 1
    ++ leb 4 (if r.wkind = 1 then r.waiter % 0x1_0000 else r.waiter) ++ leb 8 r.object ++ leb 8 r.aux

/-- A graph as it is complete: marked over every context, then filtered. -/
def WaitGraph.finish (g : WaitGraph) (now : List WaitRec) : WaitGraph :=
  { g with
    recs := (markRecs g.recs now).filter (fun (r : WaitRec) => (g.ctx == 0xFFFF || r.ctx == g.ctx) && (!g.knotOnly || r.knot)) }

/-- The completion payload from an offset. -/
def WaitGraph.page (g : WaitGraph) (off maxPayload : Nat) : List Byte :=
  let rs := (g.recs.drop off).take ((maxPayload - 32) / 24)
  leb 4 g.snapshot ++ leb 4 g.recs.length ++ leb 4 rs.length ++ leb 4 (g.recs.countP WaitRec.knot) ++ leb 1 (b2n g.frozen) ++ zeros 15
    ++ rs.flatMap WaitRec.bytes

def State.putWaitGraph (s : State) (sid : Nat) (g : WaitGraph) : State := { s with dbg := { s.dbg with graphs := s.dbg.graphs.put sid g } }

def waitGraphFails (s : State) (sid : Nat) (x : Session) (b : List Byte) : List (Bool × Err) :=
  let ctx := fld b 2 2
  let off := fld b 4 4
  [(b.length != 8, err0 stArg),
   (decide (fld b 0 1 > 1), errAt stArg 0),
   (fld b 1 1 != 0, errAt stArg 1),
   (!x.priv && ctx != x.ctx, errAt stPerm 2),
   (ctx != 0xFFFF && (s.mem.contexts.find ctx).isNone, errAt stState 2),
   (off != 0 && decide (off ≥ ((s.dbg.graphs.find sid).map (fun g => g.recs.length)).getD 0), errAt stRange 4)]

/-- WAIT_GRAPH: OFFSET 0 assembles a graph, at once where a freeze holds the part; another OFFSET reads it. -/
def waitGraph : Handler := fun f sid x s =>
  let b := f.payload
  .check (waitGraphFails s sid x b) s <|
  if fld b 4 4 ≠ 0 then
    .ok (((s.dbg.graphs.find sid).map (fun g => g.page (fld b 4 4) x.maxPayload)).getD []) s
  else
    let s1 := { s with dbg := { s.dbg with snapshots := (s.dbg.snapshots + 1) % 2 ^ 32 } }
    let g : WaitGraph := ⟨s1.dbg.snapshots, fld b 2 2, bit (fld b 0 1) 0, waitRecs s, s.dbg.frz.on, s.ctl.now⟩
    if s.dbg.frz.on then
      let g1 := g.finish g.recs
      .ok (g1.page 0 x.maxPayload) (s1.putWaitGraph sid g1)
    else .wait .waitGraph { s1 with dbg := { s1.dbg with assembling := s1.dbg.assembling ++ [(sid, f.requestId.toNat, g)] } }

/-- WAIT_GRAPH_SECOND_READ: 1 ms after the first reading of the session's oldest graph in assembly the second is made, and its command
completes. -/
def secondRead (sid : Nat) (s : State) : State :=
  match s.dbg.assembling.find? (fun a => a.1 == sid), s.session sid with
  | some a, some x =>
    if !s.fwReady || decide (s.ctl.now < a.2.2.began + 100000) then s
    else
      let g := a.2.2.finish (waitRecs s)
      let s1 := s.putWaitGraph sid g
      { s1 with dbg := { s1.dbg with assembling := s1.dbg.assembling.erase a } }.finish sid a.2.1 stOk (g.page 0 x.maxPayload)
  | _, _ => s

/-! The sampler (R535). -/

/-- The thread that a Pod samples next: the one after the last sampled that is bound to an image of the sampled context. -/
def nextSampled (s : State) (p : Nat) : Option Nat :=
  ((List.range 16).map (fun i => ((s.pod p).lastSampled + 1 + i) % 16)).find? (fun k =>
    let t := 16 * p + k
    (s.thread t).image.isSome && s.ctxOf t == s.dbg.smp.ctx)

/-- A sample record. -/
def sampleRecord (s : State) (t seq : Nat) : List Byte :=
  let th := s.thread t
  let st := match th.st with
    | .asking _ _ => 1
    | .blocked _ => 2
    | _ => 0
  leb 8 th.pc ++ leb 8 th.oldestLoad ++ leb 2 t ++ leb 1 st ++ leb 1 (((threadWait s t).map WaitOn.kind).getD 0) ++ leb 4 seq
    ++ leb 4 (s.ctl.now - s.ctl.fabricAt) ++ zeros 4

/-- SAMPLE_TAKE: a Pod in service takes its sample; a write that the ATU refuses is dropped and its number consumed. -/
def sampleTake (p : Nat) (s : State) : State :=
  let m := s.dbg.smp
  if !m.enable || !s.works p || (s.pod p).quarantine then s
  else match nextSampled s p with
    | none => s
    | some k =>
      let r := Io.exec (memWrite m.ctx (m.ring + 32 * (m.seq % m.entries)) (sampleRecord s (16 * p + k) m.seq)) s
      let dropped := match r.1 with
        | .ok _ => 0
        | .error _ => 1
      let s1 := (r.2.countFault m.ctx (fun c => { c with samples := c.samples + 1 })).modPod p (fun x => { x with lastSampled := k })
      { s1 with dbg := { s1.dbg with smp := { s1.dbg.smp with
        seq := (s1.dbg.smp.seq + 1) % 2 ^ 32, dropped := sat32 s1.dbg.smp.dropped dropped } } }

/-! The rows. -/

def execSampleTake (pod : Fin 512) (s : State) : Host.Outcome State Fault Refusal := .next (sampleTake pod s)
def execWaitGraph (f : Frame) (s : State) : Host.Outcome State Fault Refusal := .next (rcpRun 0x0903 waitGraph f s)
def execWaitGraphSecondRead (sid : Nat) (s : State) : Host.Outcome State Fault Refusal := .next (secondRead sid s)

end Sys2Proof.Machine
end

