-- ==== Sys2Proof/Machine/Security.lean ====
section
/-!
DEFINITION. FW_UPDATE, certificates and attestation (R486 to R499).
-/
namespace Sys2Proof.Machine
open Sys2Proof

/-- The checks shared by the actions of FW_UPDATE: ownership of the flash, and the header (R486). -/
def fwFails (f : Frame) (sid : Nat) (s : State) : List (Bool × Err) :=
  let p := f.payload
  let act := fld p 0 1
  let len := fld p 4 4
  [(!s.owns sid resFlash, err0 stBusy),
   (!s.up islLow, unavailable islLow),
   (p.length < 16, err0 stArg),
   (act > 4, errAt stArg 0),
   (!fldZero p 1 3, (reservedErr p [(1, 3)]).getD (err0 stArg)),
   ((act == 1 || act == 2 || act == 3) && len != 0, errAt stArg 4),
   (act != 0 && fld p 8 8 != 0, errAt stArg 8),
   (len > 8176, errAt stRange 4),
   (p.length != 16 + len, err0 stArg)]

/-- The checks of fwWrite, in the order of its table. -/
def fwWriteFails (f : Frame) (sid : Nat) (s : State) : List (Bool × Err) :=
  let p := f.payload
  let len := fld p 4 4
  let off := fld p 8 8
  (fwFails f sid s ++ [(decide (off + len > maxImage), errAt stRange 8)])

def fwWrite : Handler := fun f sid _ s =>
  let p := f.payload
  let off := fld p 8 8
  .check (fwWriteFails f sid s) s <|
  let k := s.inactiveSlot
  let s1 := if s.fw.writing then s else s.modFlash (fun x => x.eraseSlot k)
  let s2 := s1.modFlash (fun x => x.write (imageBase k + off) (p.drop 16))
  .ok [] { s2 with fw := { s2.fw with writing := true } }

/-- The checks of fwActivate, in the order of its table. -/
def fwActivateFails (f : Frame) (sid : Nat) (s : State) : List (Bool × Err) :=
  (fwFails f sid s ++ [(s.dbg.frz.on || s.fw.handover.isSome, err0 stState)])

/-- FW_UPDATE ACTIVATE: the image checked, its slot PENDING, and the live handover begun (R486, R500). -/
def fwActivate : Handler := fun f sid _ s =>
  .check (fwActivateFails f sid s) s <|
  let k := s.inactiveSlot
  let s0 := { s with fw := { s.fw with writing := false } }
  match s.flash.checkSlot s.fw.fuses k with
  | .error e => .err e (s0.modFlash (fun x => x.eraseSlot k))
  | .ok img =>
    let s1 := s0.modFlash (fun x => x.putSlot k 2 (s.runningSeq + 1) img.digest)
    .wait .handover { s1 with
      fw := { s1.fw with handover := some img, pauseAt := s.ctl.now }, ctl := { s1.ctl with surveyor := .paused } }

/-- The checks of fwCommit, in the order of its table. -/
def fwCommitFails (f : Frame) (sid : Nat) (s : State) : List (Bool × Err) :=
  let run := s.fw.running.getD ⟨2, 0, 0, 0, 0, []⟩
  let rec? := if run.slot < 2 then s.flash.slot run.slot else none
  (fwFails f sid s ++ [((rec?.map SlotRec.state).getD 1 == 1, err0 stState)])

/-- FW_UPDATE COMMIT: the running slot COMMITTED, fuses blown, MR1 extended (R488, R497). -/
def fwCommit : Handler := fun f sid _ s =>
  let run := s.fw.running.getD ⟨2, 0, 0, 0, 0, []⟩
  .check (fwCommitFails f sid s) s <|
  let s1 := s.modFlash (fun x => x.restate run.slot 1)
  let rv := putBit (BitVec.ofNat 4 run.revoke) run.keySlot false
  let s2 := { s1 with fw := { s1.fw with
    writing := false
    fuses := { s1.fw.fuses with svn := max s1.fw.fuses.svn run.svn, revoke := s1.fw.fuses.revoke ||| rv } } }
  .ok [] (s2.extend 1 (sha384 (bootRecord s2 run)))

def fwAbort : Handler := fun f sid _ s =>
  .check (fwFails f sid s) s <|
  .ok [] (({ s with fw := { s.fw with writing := false } }).modFlash (fun x => x.eraseSlot s.inactiveSlot))

/-- The checks of fwConfig, in the order of its table. -/
def fwConfigFails (f : Frame) (sid : Nat) (s : State) : List (Bool × Err) :=
  let d := f.payload.drop 16
  let hosts := fld d 0 1
  let signers := fld d 1 1
  (fwFails f sid s ++ [
    (decide (d.length < 8), err0 stArg),
    (!fldZero d 2 6, (((List.range 6).map (· + 2)).find? (fun i => fld d i 1 != 0)).map (fun i => errAt stArg (16 + i)) |>.getD (err0 stArg)),
    (hosts == 0 || hosts > 16, errAt stRange 0x10),
    (signers > 16, errAt stRange 0x11),
    (d.length != 8 + 48 * (hosts + signers), err0 stArg)])

/-- FW_UPDATE CONFIG: both lists of the security configuration record replaced, MR1 extended (R495, R497). -/
def fwConfig : Handler := fun f sid _ s =>
  let d := f.payload.drop 16
  let hosts := fld d 0 1
  let signers := fld d 1 1
  .check (fwConfigFails f sid s) s <|
  let e := fun i => sub d (8 + 48 * i) 48
  let hs := (List.range hosts).map e
  let ss := (List.range signers).map (fun i => e (hosts + i))
  .ok [] ((s.writeSec hs ss).extend 1 (sha384 (secBytes hs ss)))

/-! Certificates (R490 to R492). -/

/-- The checks of getCerts, in the order of its table. That the chain is answered also while the low-speed island is held (R20) is the model's choice:
GET_CERTS takes it from what firmware has read (DESIGN CHOICE, log entry 66). -/
def getCertsFails (f : Frame) (s : State) : List (Bool × Err) :=
  let off := fld f.payload 0 4
  let chain := (s.cert.map CertCopy.chain).getD []
  [
    (badLength f 8, err0 stArg),
    (!fldZero f.payload 4 4, (reservedErr f.payload [(4, 4)]).getD (err0 stArg)),
    (off > chain.length, errAt stRange 0)]

def getCerts : Handler := fun f _ x s =>
  let off := fld f.payload 0 4
  let chain := (s.cert.map CertCopy.chain).getD []
  .check (getCertsFails f s) s <|
  match s.cert with
  | none => .ok (leb 4 0 ++ leb 8 (s.draw).1 ++ zeros 4) (s.draw).2
  | some c =>
    let n := ((parseChain c.chain).map List.length).getD 0
    .ok (leb 4 chain.length ++ leb 8 c.seq ++ leb 2 n ++ zeros 2 ++ (chain.drop off).take (x.maxPayload - 16)) s

/-- The checks of certRotate, in the order of its table. -/
def certRotateFails (f : Frame) (sid : Nat) (s : State) : List (Bool × Err) :=
  let p := f.payload
  let chain := p.drop 8
  [
    (!s.owns sid resFlash, err0 stBusy),
    (!s.up islLow, unavailable islLow),
    (p.length < 8 || fld p 0 4 != chain.length, errAt stArg 0),
    (!fldZero p 4 4, (reservedErr p [(4, 4)]).getD (err0 stArg)),
    ((s.chainOk chain).isNone, errD stCorrupt 0x0C01),
    (s.chainOk chain != some true, errD stAuth 0x0C06)]

def certRotate : Handler := fun f sid _ s =>
  let p := f.payload
  let chain := p.drop 8
  .check (certRotateFails f sid s) s <|
  let s1 := s.modFlash (fun x => match s.cert with
    | none => { x with certs := [⟨1, chain⟩] }
    | some c => { x with certs := [c, ⟨c.seq + 1, chain⟩] })
  .ok [] (s1.extend 3 (sha384 chain))

/-! Attestation (R498, R499). -/

/-- The images of a context in load order. -/
def State.imagesOf (s : State) (ctx : Nat) : List Image :=
  sortBy (fun a b => a.order ≤ b.order) (s.pods.images.vals.filter (fun i => i.ctx == ctx))

/-- The report entry of an image. -/
def Image.entry64 (i : Image) : List Byte :=
  leb 8 i.id ++ leb 4 i.version ++ leb 2 (b2n i.sig + 2 * b2n i.privileged) ++ zeros 2 ++ i.digest

/-- The checks of attest, in the order of its table. -/
def attestFails (f : Frame) (x : Session) (s : State) : List (Bool × Err) :=
  let p := f.payload
  let ctx := fld p 0x20 2
  let first := fld p 0x22 2
  let imgs := if ctx = 0xFFFF then [] else s.imagesOf ctx
  [
    (badLength f 40, err0 stArg),
    (!fldZero p 0x24 4, (reservedErr p [(0x24, 4)]).getD (err0 stArg)),
    (ctx != 0xFFFF && !x.priv && ctx != x.ctx, errAt stPerm 0x20),
    (ctx != 0xFFFF && (s.mem.contexts.find ctx).isNone, errAt stState 0x20),
    (first > imgs.length, errAt stRange 0x22)]

def attest : Handler := fun f _ x s =>
  let p := f.payload
  let ctx := fld p 0x20 2
  let first := fld p 0x22 2
  let imgs := if ctx = 0xFFFF then [] else s.imagesOf ctx
  .check (attestFails f x s) s <|
  let es := (imgs.drop first).take ((x.maxPayload - 0x120 - 96) / 64)
  let run := s.fw.running.getD ⟨2, 0, 0, 0, 0, []⟩
  let r := leb 4 0x5254_5441 ++ leb 2 1 ++ leb 2 es.length ++ leb 8 s.fw.fuses.serial ++ sub p 0 32 ++ leb 4 run.release
    ++ leb 1 s.fw.fuses.svn ++ leb 1 s.fw.fuses.revoke.toNat ++ leb 1 run.keySlot ++ leb 1 run.slot ++ leb 2 ctx ++ leb 2 imgs.length
    ++ zeros 4 ++ s.fw.mr.flatten ++ s.fw.extends_.flatMap (leb 4) ++ zeros 16 ++ es.flatMap Image.entry64
  let sg := s.signIdentity r
  .ok (r ++ sg.1) sg.2

/-! The rows. -/

def execFwUpdateWrite (f : Frame) (s : State) : Host.Outcome State Fault Refusal := .next (rcpAction 0x0702 0 0 fwWrite f s)
def execFwUpdateActivate (f : Frame) (s : State) : Host.Outcome State Fault Refusal := .next (rcpAction 0x0702 0 1 fwActivate f s)
def execFwUpdateCommit (f : Frame) (s : State) : Host.Outcome State Fault Refusal := .next (rcpAction 0x0702 0 2 fwCommit f s)
def execFwUpdateAbort (f : Frame) (s : State) : Host.Outcome State Fault Refusal := .next (rcpAction 0x0702 0 3 fwAbort f s)
def execFwUpdateConfig (f : Frame) (s : State) : Host.Outcome State Fault Refusal := .next (rcpAction 0x0702 0 4 fwConfig f s)
def execGetCerts (f : Frame) (s : State) : Host.Outcome State Fault Refusal := .next (rcpRun 0x0701 getCerts f s)
def execCertRotate (f : Frame) (s : State) : Host.Outcome State Fault Refusal := .next (rcpRun 0x0703 certRotate f s)
def execAttest (f : Frame) (s : State) : Host.Outcome State Fault Refusal := .next (rcpRun 0x0700 attest f s)

end Sys2Proof.Machine
end

