-- ==== Sys2Proof/Machine/RcpRecv.lean ====
section
/-!
DEFINITION. The reception of RCP frames (R64), the dispatch of opcodes, the end of commands that take time (R78), and the end of a live
handover (R500 to R502).
-/
namespace Sys2Proof.Machine
open Sys2Proof

/-! Dispatch by opcode (R88). -/

/-- FW_UPDATE by its ACTION; a reserved one fails the checks that every action makes. -/
def fwUpdate : Handler := fun f sid x s =>
  match fld f.payload 0 1 with
  | 1 => fwActivate f sid x s
  | 2 => fwCommit f sid x s
  | 3 => fwAbort f sid x s
  | 4 => fwConfig f sid x s
  | _ => fwWrite f sid x s

/-- The commands of the first groups of the catalogue. -/
def handlersA : List (Nat × Handler) := [
  (0x0003, closeSession), (0x0004, keepalive), (0x0005, subscribe), (0x0006, getEvents), (0x0007, resumeCmd), (0x0010, portStatus),
  (0x0011, setPortConfig), (0x0012, setNetConfig), (0x0013, qpCreate), (0x0014, qpModify), (0x0015, qpDestroy), (0x0016, mrRegister),
  (0x0017, mrDeregister), (0x0100, getConfig), (0x0101, readReg), (0x0102, writeReg), (0x0103, getSpeed), (0x0104, setSpeedTarget),
  (0x0200, contextCreate), (0x0201, contextDestroy), (0x0202, mapCmd), (0x0203, unmapCmd), (0x0204, retrainChannel), (0x0300, flowCreate),
  (0x0301, flowDestroy), (0x0302, bindIngress), (0x0303, graphSubmit), (0x0304, flowStats), (0x0400, imageLoad), (0x0401, imageUnload)]

/-- The commands of its other groups. -/
def handlersB : List (Nat × Handler) := [
  (0x0500, legendCmd), (0x0510, embCreate), (0x0511, embSwapCmd), (0x0512, mapSet), (0x0520, gazLoad), (0x0521, gazService),
  (0x0530, frameSession), (0x0531, batchConfig), (0x0600, fabricStatus), (0x0601, fabricRediscover), (0x0700, attest), (0x0701, getCerts),
  (0x0702, fwUpdate), (0x0703, certRotate), (0x0800, claim), (0x0801, releaseRes), (0x0802, serviceStatus), (0x0803, podQuarantine),
  (0x0804, inject), (0x0900, freezeCmd), (0x0901, thawCmd), (0x0902, traverse), (0x0903, waitGraph), (0x0904, countersRead),
  (0x0A00, resetCmd), (0x0A01, getThermal), (0x0A02, bootLoad)]

/-- The handler of an opcode; a reserved opcode is refused at step 12 of R64 before it comes to one. -/
def rcpHandler (op : Nat) : Handler :=
  (((handlersA ++ handlersB).find? (fun e => e.1 == op)).map Prod.snd).getD (fun _ _ _ s => .err (err0 stArg) s)

/-- Steps 5 to 16 of R64. -/
def rcpDispatch (op : Nat) (f : Frame) (s : State) : State :=
  if op = 1 then hello f s else if op = 2 then openAny f s else rcpSession op (rcpHandler op) f s

/-! Reception (R60, R64). -/

/-- The frame of a datagram that has passed steps 1 to 4. -/
def frameOf (d : Datagram) : Frame :=
  let b := d.bytes
  let n := fld b 0x14 4
  { verMajor := BitVec.ofNat 8 (fld b 2 1), verMinor := BitVec.ofNat 8 (fld b 3 1), sessionId := BitVec.ofNat 32 (fld b 4 4)
    requestId := BitVec.ofNat 64 (fld b 8 8), flags := BitVec.ofNat 16 (fld b 0x12 2), status := BitVec.ofNat 16 (fld b 0x18 2)
    reserved := BitVec.ofNat 48 (fld b 0x1A 6), payload := sub b 32 n
    mac := if bit (fld b 0x12 2) 1 then sub b (32 + n) 16 else [], path := d.path, srcIp := d.srcIp, srcPort := d.srcPort }

/-- The length that R60 gives a frame. -/
def frameLen (b : List Byte) : Nat := 32 + fld b 0x14 4 + (if bit (fld b 0x12 2) 1 then 16 else 0) + 4

/-- A datagram whose bytes are at hand, checked in the order of R64. -/
def datagram (d : Datagram) (s : State) : State :=
  let b := d.bytes
  let malformed := s.modHp (fun c => { c with dropMalformed := sat32 c.dropMalformed 1 })
  if b.length < 36 ∨ b.length ≠ frameLen b then malformed
  else if fld b 0 2 ≠ 0x5259 then malformed
  else if fld b (b.length - 4) 4 ≠ crc32c (b.take (b.length - 4)) then s.modHp (fun c => { c with dropCrc := sat32 c.dropCrc 1 })
  else if bit (fld b 0x12 2) 0 ∨ bit (fld b 0x12 2) 3 then malformed
  else rcpGate (fld b 0x10 2) (frameOf d) s (rcpDispatch (fld b 0x10 2) (frameOf d))

/-- Whether firmware or the boot ROM takes frames. -/
def State.takesFrames (s : State) : Bool := s.canFinish

/-- RCP_FRAME_RECEIVE: a datagram taken from the receive buffer, or from an MCTP message. In a handover pause it stays where it is, unchecked, until
the pause ends (R73). -/
def frameReceive (d : Datagram) (s : State) : State :=
  if s.ctl.surveyor = .paused ∧ s.canReceive d.path then { s with rcp := { s.rcp with heldFrames := s.rcp.heldFrames ++ [.datagram d] } }
  else
    let s1 := match d.path with
      | .host => s.unbuffer .rcp
      | .mctp => s
    if s.canReceive d.path && s.takesFrames then datagram d s1 else s1

/-- What waited for the end of a pause, checked as it would have been on arrival. -/
def takeHeld (h : HeldFrame) (s : State) : State :=
  match h with
  | .datagram d => frameReceive d s
  | .frame op f => rcpGate op f s (rcpDispatch op f)

/-! The end of commands that take time (R78). -/

/-- A running command of a session, or of one that has ended (R72), with the session's record. -/
def State.command (s : State) (sid rid : Nat) : Option (Session × InFlight) :=
  match s.session sid with
  | some x => (x.inFlight.find? (fun c => c.rid == rid)).map (fun c => (x, c))
  | none => (s.rcp.orphans.find? (fun o => o.sid == sid && o.cmd.rid == rid)).map (fun o => (o.session, o.cmd))

/-- A command in flight that goes on waiting for something else. -/
def State.setWait (s : State) (sid rid : Nat) (w : Wait) : State :=
  let s1 := s.modSession sid (fun x => { x with
    inFlight := x.inFlight.map (fun (c : InFlight) => if c.rid = rid then { c with wait := w } else c) })
  { s1 with rcp := { s1.rcp with
    orphans := s1.rcp.orphans.map (fun (o : Orphan) => if o.sid = sid ∧ o.cmd.rid = rid then { o with cmd := { o.cmd with wait := w } } else o) } }

/-- A command that was put off runs: it ends, or goes on waiting. -/
def runQueued (h : Handler) (f : Frame) (x : Session) (sid rid : Nat) (s : State) : State :=
  match h f sid x s with
  | .ok p s' => s'.finish sid rid stOk p
  | .okThen p s' after => after (s'.finish sid rid stOk p)
  | .err e s' => s'.finish sid rid e.status (errPayload e)
  | .raw st p s' => s'.finish sid rid st p
  | .wait w s' => s'.setWait sid rid w
  | .waitThen w s' after => after (s'.setWait sid rid w)

/-- Whether a running command started before every other that p selects, of any session (R74, R209). -/
def State.firstOf (s : State) (c : InFlight) (p : Nat → Wait → Bool) : Bool :=
  s.running.all (fun d => !p d.1 d.2.wait || decide (c.order ≤ d.2.order))

/-- Whether an UNMAP of a context has not ended. -/
def State.unmapping (s : State) (ctx : Nat) : Bool :=
  s.running.any (fun c => match c.2.wait with
    | .unmap k _ _ => k == ctx
    | _ => false)

/-- What a command in flight waits for, looked at again: where it has come, the command ends. Commands with an end event of their own end
there. -/
def completionOf (x : Session) (sid : Nat) (c : InFlight) (s : State) : State :=
  match c.wait with
  | .qpDestroy n => qpSettle n s
  | .resume _ => s
  | .imageDrain h => imageSettle h s
  | .graph _ => s
  | .graphCancel _ => s
  | .channel ch => retrainSettle ch s
  | .unmap ctx va len => if s.accessing ctx va len then s else (s.unmapRange ctx va len).finish sid c.rid stOk []
  | .mapQueue ctx f =>
    if s.unmapping ctx || !s.firstOf c (fun _ w => match w with
        | .mapQueue k _ => k == ctx
        | _ => false) then s
    else runQueued (if c.opcode = 0x0202 then mapNow else unmapNow) f x sid c.rid s
  | .contextDestroy ctx => if contextBusy s ctx then s else (contextEnd ctx s).finish sid c.rid stOk []
  | .gaz b => gazSettleAny sid c.rid b s
  | .frameClose id => s.settleFrames id
  | .rediscover => s
  | .handover => s
  | .quarantine p => podSettle p s
  | .relink _ => s
  | .recal => recalEnd sid c.rid s
  | .freeze => s
  | .waitGraph => s
  | .selftest p => selftestEnd p sid c.rid s
  | .engineReset e => engineResetEnd e sid c.rid s
  | .flush id _ => s.settleFrames id
  | .deferred f =>
    if s.dbg.frz.on || !s.firstOf c (fun n w => n == sid && match w with
        | .deferred _ => true
        | _ => false) then s
    else runQueued (rcpHandler c.opcode) f x sid c.rid s
  | .unbind n => unbindSettle n s

/-- COMMAND_COMPLETION. -/
def commandCompletion (sid rid : Nat) (s : State) : State :=
  if !s.fwReady then s
  else match s.command sid rid with
    | none => s
    | some (x, c) => completionOf x sid c s

/-! The end of a handover (R500 to R502). -/

/-- The pause ends: idle timers go on where they stood, what was left to send is sent, and held frames are checked in arrival order. -/
def pauseEnd (s : State) : State :=
  let d := s.ctl.now - s.fw.pauseAt
  let held := s.rcp.heldFrames
  let s1 := { s with
    ctl := { s.ctl with surveyor := .ready }
    rcp := { s.rcp with heldFrames := [], sessions := s.rcp.sessions.mapV (fun (x : Session) => { x with lastSeen := x.lastSeen + d }) } }
  held.foldl (fun a h => takeHeld h a) (serveStalls (settleLate (flushOwed s1.flushEvents)))

/-- HANDOVER_READY: the new firmware runs within 4 ms, MR0 is extended, and ACTIVATE completes with its RELEASE and SVN. -/
def handoverReady (s : State) : State :=
  match s.ctl.surveyor, s.fw.handover with
  | .paused, some img =>
    if s.ctl.now ≥ s.fw.pauseAt + 400000 then s
    else
      let s1 := { s with
        fw := { s.fw with handover := none, running := some img }, ctl := { s.ctl with slot := BitVec.ofNat 2 img.slot } }
      let s2 := (s1.extend 0 img.digest).finishAll .handover stOk (leb 4 img.release ++ leb 1 img.svn ++ zeros 3)
      pauseEnd (if s2.dbg.trv.capturing then trvStarts s2 else s2)
  | _, _ => s

/-- HANDOVER_TIMEOUT: 4 ms have passed: the old firmware goes on, the new slot record is erased, and ACTIVATE fails. -/
def handoverTimeout (s : State) : State :=
  match s.ctl.surveyor, s.fw.handover with
  | .paused, some _ =>
    if s.ctl.now < s.fw.pauseAt + 400000 then s
    else pauseEnd ((dropHandover s).failAll .handover (errD stHw 0x0D01))
  | _, _ => s

/-! The rows. -/

def execRcpFrameReceive (d : Datagram) (s : State) : Host.Outcome State Fault Refusal := .next (frameReceive d s)
def execCommandCompletion (sid rid : Nat) (s : State) : Host.Outcome State Fault Refusal := .next (commandCompletion sid rid s)
def execHandoverReady (s : State) : Host.Outcome State Fault Refusal := .next (handoverReady s)
def execHandoverTimeout (s : State) : Host.Outcome State Fault Refusal := .next (handoverTimeout s)

end Sys2Proof.Machine
end

