-- ==== Sys2Proof/Machine/Mgmt.lean ====
section
/-!
DEFINITION. MCTP over SMBus, the SMBus alert, and the JTAG port (R592 to R595). An MCTP message is given by the four bytes of its transport
header (version, destination EID, source EID, flags with tag) and the assembled message (log entry 20). The layout of control messages is that of
DSP0236 (log entry 21).
-/
namespace Sys2Proof.Machine
open Sys2Proof

/-! MCTP. -/

def mDst (b : List Byte) : Nat := fld b 1 1
def mSrc (b : List Byte) : Nat := fld b 2 1
def mTag (b : List Byte) : Nat := fld b 3 1 % 8

/-- Whether the part takes a message: its header is version 1, it is a request, and it names the part's EID or the null EID (R594). -/
def mctpMine (b : List Byte) (s : State) : Bool :=
  s.up islLow && s.takesFrames && fld b 0 1 % 16 == 1 && bit (fld b 3 1) 3 && (mDst b == 0 || mDst b == s.pins.eid.toNat)

/-- MCTP_MESSAGE_RECEIVE: a message of type 0x7F with the enterprise number carries an RCP frame, which is checked as R64 states; the source EID and
the tag stand for the sender's address and port. -/
def mctpReceive (b : List Byte) (s : State) : State :=
  if mctpMine b s && b.length ≤ 4 + 8249 && fld b 4 1 == 0x7F && be (sub b 5 4) == 0xB6D1 then
    frameReceive ⟨b.drop 9, .mctp, mSrc b, mTag b⟩ s
  else s

/-- A control message's answer: the tag of its request, TO = 0. -/
def mctpAnswer (b : List Byte) (data : List Byte) (s : State) : State :=
  s.send (.mctp (leb 1 1 ++ leb 1 (mSrc b) ++ leb 1 s.pins.eid.toNat ++ leb 1 (0xC0 + mTag b) ++ zeros 1 ++ leb 1 (fld b 5 1 % 32)
    ++ leb 1 (fld b 6 1) ++ data))

/-- A control request with a command code: its data, answered. -/
def mctpControl (code : Nat) (go : List Byte → State → List Byte × State) (b : List Byte) (s : State) : State :=
  if mctpMine b s && s.ctl.surveyor != .paused && fld b 4 1 == 0 && bit (fld b 5 1) 7 && fld b 6 1 == code && b.length ≥ 7 then
    let r := go (b.drop 7) s
    mctpAnswer b r.1 r.2
  else s

/-- Set Endpoint ID: operations 0 and 1 assign an EID of 0x08 to 0xFE; others are invalid data. -/
def setEid (d : List Byte) (s : State) : List Byte × State :=
  let e := fld d 1 1
  if d.length ≠ 2 then (leb 1 3, s)
  else if fld d 0 1 % 4 > 1 ∨ e < 8 ∨ e = 0xFF then (leb 1 2, s)
  else (zeros 2 ++ leb 1 e ++ zeros 1, { s with pins := { s.pins with eid := BitVec.ofNat 8 e } })

/-- Get Endpoint ID: a simple endpoint with a dynamic EID. -/
def getEid (_ : List Byte) (s : State) : List Byte × State := (zeros 1 ++ leb 1 s.pins.eid.toNat ++ zeros 2, s)

/-- Get Endpoint UUID. -/
def getUuid (_ : List Byte) (s : State) : List Byte × State := (zeros 1 ++ (List.range 16).map Config.endpointUuid, s)

/-- Get MCTP Version Support: of the base specification, control messages and type 0x7F. -/
def getVersion (d : List Byte) (s : State) : List Byte × State :=
  let t := fld d 0 1
  if t = 0xFF ∨ t = 0 ∨ t = 0x7F then (zeros 1 ++ leb 1 1 ++ (List.range 4).map (Config.mctpVersion t), s) else (leb 1 0x80, s)

/-- Get Message Type Support: type 0x7F beside control messages. -/
def getTypes (_ : List Byte) (s : State) : List Byte × State := (zeros 1 ++ leb 1 1 ++ leb 1 0x7F, s)

/-- Get Vendor Defined Message Support: the one set, by its IANA enterprise number. -/
def getVendor (d : List Byte) (s : State) : List Byte × State :=
  if fld d 0 1 ≠ 0 then (leb 1 2, s)
  else (zeros 1 ++ leb 1 0xFF ++ leb 1 1 ++ beb 4 0xB6D1 ++ beb 2 Config.vendorCommandSet, s)

/-- ALERT_RESPONSE_READ: the part answers with its address and releases SMB_ALERT_N (R595). -/
def alertRead (s : State) : State :=
  if s.up islLow && s.pins.alertEn && s.pins.smbAlert then
    ({ s with pins := { s.pins with smbAlert := false } }).send (.alert s.pins.smbAddr.toNat)
  else s

/-! JTAG (R592). -/

/-- What the JTAG port does with the instruction it holds: EXTEST, CLAMP and HIGHZ act only while RESET_N holds the part in system reset, and as
BYPASS at any other time. -/
def State.jtagActs (s : State) : JtagInstr :=
  match s.pins.jtag with
  | .bypass => .bypass
  | .idcode => .idcode
  | .samplePreload => .samplePreload
  | .extest => if s.ctl.pinLevel = some .system then .extest else .bypass
  | .clamp => if s.ctl.pinLevel = some .system then .clamp else .bypass
  | .highz => if s.ctl.pinLevel = some .system then .highz else .bypass

/-- An instruction of the JTAG port loaded and its data register shifted: the bypass bit (0), IDCODE (1), or the boundary register (2), whose
capture is a free value, as what is shifted into it is. -/
def jtagLoad (i : JtagInstr) (s : State) : State :=
  let s1 := { s with pins := { s.pins with jtag := i } }
  let boundary := fun (a : State) =>
    let r := (a.draw).2.draw
    ({ r.2 with pins := { r.2.pins with preload := r.1 } }).send (.jtag 2 (a.draw).1)
  match s1.jtagActs with
  | .idcode => s1.send (.jtag 1 0x0560_1A4B)
  | .samplePreload => boundary s1
  | .extest => boundary s1
  | .bypass => s1.send (.jtag 0 0)
  | .clamp => s1.send (.jtag 0 0)
  | .highz => s1.send (.jtag 0 0)

/-! The rows. -/

def execMctpMessageReceive (bytes : List Byte) (s : State) : Host.Outcome State Fault Refusal := .next (mctpReceive bytes s)
def execSetEndpointId (bytes : List Byte) (s : State) : Host.Outcome State Fault Refusal := .next (mctpControl 1 setEid bytes s)
def execGetEndpointId (bytes : List Byte) (s : State) : Host.Outcome State Fault Refusal := .next (mctpControl 2 getEid bytes s)
def execGetEndpointUuid (bytes : List Byte) (s : State) : Host.Outcome State Fault Refusal := .next (mctpControl 3 getUuid bytes s)
def execGetMctpVersionSupport (bytes : List Byte) (s : State) : Host.Outcome State Fault Refusal := .next (mctpControl 4 getVersion bytes s)
def execGetMessageTypeSupport (bytes : List Byte) (s : State) : Host.Outcome State Fault Refusal := .next (mctpControl 5 getTypes bytes s)
def execGetVendorDefinedMessageSupport (bytes : List Byte) (s : State) : Host.Outcome State Fault Refusal := .next (mctpControl 6 getVendor bytes s)
def execAlertResponseRead (s : State) : Host.Outcome State Fault Refusal := .next (alertRead s)
def execJtagBypass (s : State) : Host.Outcome State Fault Refusal := .next (jtagLoad .bypass s)
def execJtagIdcode (s : State) : Host.Outcome State Fault Refusal := .next (jtagLoad .idcode s)
def execJtagSamplePreload (s : State) : Host.Outcome State Fault Refusal := .next (jtagLoad .samplePreload s)
def execJtagExtest (s : State) : Host.Outcome State Fault Refusal := .next (jtagLoad .extest s)
def execJtagClamp (s : State) : Host.Outcome State Fault Refusal := .next (jtagLoad .clamp s)
def execJtagHighz (s : State) : Host.Outcome State Fault Refusal := .next (jtagLoad .highz s)

end Sys2Proof.Machine
end

