-- ==== Sys2Proof/Machine/Dispatch.lean ====
section
/-!
DEFINITION. exec: the effect of each command on everything but the queue, one arm per constructor of Instr.
-/
namespace Sys2Proof.Machine

def exec (i : Instr) (s : State) : Host.Outcome State Fault Refusal :=
  match i with
  | .speedMonWindow c count => Sys2Proof.Machine.execSpeedMonWindow c count s
  | .islandLockLoss isl => Sys2Proof.Machine.execIslandLockLoss isl s
  | .islandRelease isl => Sys2Proof.Machine.execIslandRelease isl s
  | .avsLoopIteration vread iread failed => Sys2Proof.Machine.execAvsLoopIteration vread iread failed s
  | .setSpeedTarget f => Sys2Proof.Machine.execSetSpeedTarget f s
  | .getSpeed f => Sys2Proof.Machine.execGetSpeed f s
  | .getConfig f => Sys2Proof.Machine.execGetConfig f s
  | .handshakeStallWatchdog u => Sys2Proof.Machine.execHandshakeStallWatchdog u s
  | .hostLinkTraining peer => Sys2Proof.Machine.execHostLinkTraining peer s
  | .hostLinkDown => Sys2Proof.Machine.execHostLinkDown s
  | .hostFrameReceive bytes => Sys2Proof.Machine.execHostFrameReceive bytes s
  | .pfcPauseReceive p pause => Sys2Proof.Machine.execPfcPauseReceive p pause s
  | .ingressQueueResume qpn => Sys2Proof.Machine.execIngressQueueResume qpn s
  | .roceInboundRequest q => Sys2Proof.Machine.execRoceInboundRequest q s
  | .roceCnpReceive c => Sys2Proof.Machine.execRoceCnpReceive c s
  | .sqPoll qpn => Sys2Proof.Machine.execSqPoll qpn s
  | .roceResponseReceive qpn r => Sys2Proof.Machine.execRoceResponseReceive qpn r s
  | .roceAckTimeout qpn => Sys2Proof.Machine.execRoceAckTimeout qpn s
  | .qpCompletionEnter qpn => Sys2Proof.Machine.execQpCompletionEnter qpn s
  | .setPortConfig f => Sys2Proof.Machine.execSetPortConfig f s
  | .setNetConfig f => Sys2Proof.Machine.execSetNetConfig f s
  | .qpCreate f => Sys2Proof.Machine.execQpCreate f s
  | .qpModify f => Sys2Proof.Machine.execQpModify f s
  | .qpDestroy f => Sys2Proof.Machine.execQpDestroy f s
  | .mrRegister f => Sys2Proof.Machine.execMrRegister f s
  | .mrDeregister f => Sys2Proof.Machine.execMrDeregister f s
  | .rcpFrameReceive d => Sys2Proof.Machine.execRcpFrameReceive d s
  | .commandCompletion sid rid => Sys2Proof.Machine.execCommandCompletion sid rid s
  | .hello f => Sys2Proof.Machine.execHello f s
  | .openSession f => Sys2Proof.Machine.execOpenSession f s
  | .openSessionMemoryExpiry ip port rid => Sys2Proof.Machine.execOpenSessionMemoryExpiry ip port rid s
  | .closeSession f => Sys2Proof.Machine.execCloseSession f s
  | .keepalive f => Sys2Proof.Machine.execKeepalive f s
  | .sessionIdleTimeout sid => Sys2Proof.Machine.execSessionIdleTimeout sid s
  | .subscribe f => Sys2Proof.Machine.execSubscribe f s
  | .getEvents f => Sys2Proof.Machine.execGetEvents f s
  | .resume f => Sys2Proof.Machine.execResume f s
  | .salu t w => Sys2Proof.Machine.execSalu t w s
  | .addi t w => Sys2Proof.Machine.execAddi t w s
  | .shi t w => Sys2Proof.Machine.execShi t w s
  | .lih t w => Sys2Proof.Machine.execLih t w s
  | .sfp t w => Sys2Proof.Machine.execSfp t w s
  | .br t w => Sys2Proof.Machine.execBr t w s
  | .jal t w => Sys2Proof.Machine.execJal t w s
  | .jalr t w => Sys2Proof.Machine.execJalr t w s
  | .vint t w => Sys2Proof.Machine.execVint t w s
  | .vflt t w => Sys2Proof.Machine.execVflt t w s
  | .vdot t w => Sys2Proof.Machine.execVdot t w s
  | .vcvt t w => Sys2Proof.Machine.execVcvt t w s
  | .vperm t w => Sys2Proof.Machine.execVperm t w s
  | .vcmp t w => Sys2Proof.Machine.execVcmp t w s
  | .vred t w => Sys2Proof.Machine.execVred t w s
  | .mask t w => Sys2Proof.Machine.execMask t w s
  | .ld t w => Sys2Proof.Machine.execLd t w s
  | .st t w => Sys2Proof.Machine.execSt t w s
  | .vld t w => Sys2Proof.Machine.execVld t w s
  | .vst t w => Sys2Proof.Machine.execVst t w s
  | .atom t w => Sys2Proof.Machine.execAtom t w s
  | .fence t w => Sys2Proof.Machine.execFence t w s
  | .loadComplete t slot ev => Sys2Proof.Machine.execLoadComplete t slot ev s
  | .vhash t w => Sys2Proof.Machine.execVhash t w s
  | .hashs t w => Sys2Proof.Machine.execHashs t w s
  | .vsort t w => Sys2Proof.Machine.execVsort t w s
  | .vmerge t w => Sys2Proof.Machine.execVmerge t w s
  | .vtopk t w => Sys2Proof.Machine.execVtopk t w s
  | .acca t w => Sys2Proof.Machine.execAcca t w s
  | .accAllocGrant pod => Sys2Proof.Machine.execAccAllocGrant pod s
  | .accf t w => Sys2Proof.Machine.execAccf t w s
  | .vaccadd t w => Sys2Proof.Machine.execVaccadd t w s
  | .vaccmax t w => Sys2Proof.Machine.execVaccmax t w s
  | .vaccmin t w => Sys2Proof.Machine.execVaccmin t w s
  | .vaccrd t w => Sys2Proof.Machine.execVaccrd t w s
  | .vaccwr t w => Sys2Proof.Machine.execVaccwr t w s
  | .vaccz t w => Sys2Proof.Machine.execVaccz t w s
  | .ask t w => Sys2Proof.Machine.execAsk t w s
  | .asknb t w => Sys2Proof.Machine.execAsknb t w s
  | .askOffer t flow => Sys2Proof.Machine.execAskOffer t flow s
  | .done t w => Sys2Proof.Machine.execDone t w s
  | .doneRetire t => Sys2Proof.Machine.execDoneRetire t s
  | .post t w => Sys2Proof.Machine.execPost t w s
  | .postResume t => Sys2Proof.Machine.execPostResume t s
  | .postnb t w => Sys2Proof.Machine.execPostnb t w s
  | .gsrchT t w => Sys2Proof.Machine.execGsrchT t w s
  | .gsrchG t w => Sys2Proof.Machine.execGsrchG t w s
  | .gbkt t w => Sys2Proof.Machine.execGbkt t w s
  | .gupd t w => Sys2Proof.Machine.execGupd t w s
  | .gupdEnd t tag => Sys2Proof.Machine.execGupdEnd t tag s
  | .jins t w => Sys2Proof.Machine.execJins t w s
  | .jprobe t w => Sys2Proof.Machine.execJprobe t w s
  | .jnext t w => Sys2Proof.Machine.execJnext t w s
  | .embg t w => Sys2Proof.Machine.execEmbg t w s
  | .embu t w => Sys2Proof.Machine.execEmbu t w s
  | .proj t w => Sys2Proof.Machine.execProj t w s
  | .accst t w => Sys2Proof.Machine.execAccst t w s
  | .tableIntakeJob t w => Sys2Proof.Machine.execTableIntakeJob t w s
  | .columnJob t w => Sys2Proof.Machine.execColumnJob t w s
  | .joinJob t w => Sys2Proof.Machine.execJoinJob t w s
  | .codecJob t w => Sys2Proof.Machine.execCodecJob t w s
  | .fabricOperation t w => Sys2Proof.Machine.execFabricOperation t w s
  | .unitResume t w => Sys2Proof.Machine.execUnitResume t w s
  | .waitu t w => Sys2Proof.Machine.execWaitu t w s
  | .waitany t w => Sys2Proof.Machine.execWaitany t w s
  | .imageLoad f => Sys2Proof.Machine.execImageLoad f s
  | .imageUnload f => Sys2Proof.Machine.execImageUnload f s
  | .flowCreate f => Sys2Proof.Machine.execFlowCreate f s
  | .flowDestroy f => Sys2Proof.Machine.execFlowDestroy f s
  | .flowBindIngress f => Sys2Proof.Machine.execFlowBindIngress f s
  | .graphSubmit f => Sys2Proof.Machine.execGraphSubmit f s
  | .graphCancel f => Sys2Proof.Machine.execGraphCancel f s
  | .flowStats f => Sys2Proof.Machine.execFlowStats f s
  | .starvePromotion flow => Sys2Proof.Machine.execStarvePromotion flow s
  | .completionReleaseResume flow => Sys2Proof.Machine.execCompletionReleaseResume flow s
  | .complRingPoll flow => Sys2Proof.Machine.execComplRingPoll flow s
  | .descriptorParityError flow k => Sys2Proof.Machine.execDescriptorParityError flow k s
  | .podBusyWindow cluster pod => Sys2Proof.Machine.execPodBusyWindow cluster pod s
  | .contextCreate f => Sys2Proof.Machine.execContextCreate f s
  | .contextDestroy f => Sys2Proof.Machine.execContextDestroy f s
  | .map f => Sys2Proof.Machine.execMap f s
  | .unmap f => Sys2Proof.Machine.execUnmap f s
  | .retrainChannel f => Sys2Proof.Machine.execRetrainChannel f s
  | .channelDrain f => Sys2Proof.Machine.execChannelDrain f s
  | .channelRetrainRestore f => Sys2Proof.Machine.execChannelRetrainRestore f s
  | .granuleCopyDone ch => Sys2Proof.Machine.execGranuleCopyDone ch s
  | .channelTrainingDone ch r => Sys2Proof.Machine.execChannelTrainingDone ch r s
  | .perBankRefresh mc => Sys2Proof.Machine.execPerBankRefresh mc s
  | .zqCalibration mc => Sys2Proof.Machine.execZqCalibration mc s
  | .dqsTracking ch => Sys2Proof.Machine.execDqsTracking ch s
  | .legendCreate f => Sys2Proof.Machine.execLegendCreate f s
  | .legendDestroy f => Sys2Proof.Machine.execLegendDestroy f s
  | .tableIntakeStart e => Sys2Proof.Machine.execTableIntakeStart e s
  | .intakeBatchOutput e => Sys2Proof.Machine.execIntakeBatchOutput e s
  | .intakeOutputResume e => Sys2Proof.Machine.execIntakeOutputResume e s
  | .tableIntakeEnd e => Sys2Proof.Machine.execTableIntakeEnd e s
  | .columnJobStart sl => Sys2Proof.Machine.execColumnJobStart sl s
  | .columnJobEnd sl => Sys2Proof.Machine.execColumnJobEnd sl s
  | .joinJobStart sl => Sys2Proof.Machine.execJoinJobStart sl s
  | .joinJobEnd sl => Sys2Proof.Machine.execJoinJobEnd sl s
  | .embTableCreate f => Sys2Proof.Machine.execEmbTableCreate f s
  | .partitionMapSet f => Sys2Proof.Machine.execPartitionMapSet f s
  | .embTablePrepare f => Sys2Proof.Machine.execEmbTablePrepare f s
  | .embTableCommit f => Sys2Proof.Machine.execEmbTableCommit f s
  | .embTableCancel f => Sys2Proof.Machine.execEmbTableCancel f s
  | .embTableDestroy f => Sys2Proof.Machine.execEmbTableDestroy f s
  | .embTableQuery f => Sys2Proof.Machine.execEmbTableQuery f s
  | .embRowReadDone u k ev => Sys2Proof.Machine.execEmbRowReadDone u k ev s
  | .embStepClose tbl => Sys2Proof.Machine.execEmbStepClose tbl s
  | .embDeltaReceive k => Sys2Proof.Machine.execEmbDeltaReceive k s
  | .embTokenReceive k => Sys2Proof.Machine.execEmbTokenReceive k s
  | .embNoticeReceive k => Sys2Proof.Machine.execEmbNoticeReceive k s
  | .embLostReceive k => Sys2Proof.Machine.execEmbLostReceive k s
  | .embHomeStepClose tbl => Sys2Proof.Machine.execEmbHomeStepClose tbl s
  | .coalesceBufferParity u k => Sys2Proof.Machine.execCoalesceBufferParity u k s
  | .gazCreate f => Sys2Proof.Machine.execGazCreate f s
  | .gazWrite f => Sys2Proof.Machine.execGazWrite f s
  | .gazSegtags f => Sys2Proof.Machine.execGazSegtags f s
  | .gazDestroy f => Sys2Proof.Machine.execGazDestroy f s
  | .gazScrubCompare b k upset => Sys2Proof.Machine.execGazScrubCompare b k upset s
  | .gazThrottleWindow => Sys2Proof.Machine.execGazThrottleWindow s
  | .gazPowerWindow => Sys2Proof.Machine.execGazPowerWindow s
  | .gazPowerWrite f => Sys2Proof.Machine.execGazPowerWrite f s
  | .gazReload f => Sys2Proof.Machine.execGazReload f s
  | .gazEvacuate f => Sys2Proof.Machine.execGazEvacuate f s
  | .gazRestore f => Sys2Proof.Machine.execGazRestore f s
  | .gazScrubPeriod f => Sys2Proof.Machine.execGazScrubPeriod f s
  | .projOpStart e => Sys2Proof.Machine.execProjOpStart e s
  | .projSlabDone e => Sys2Proof.Machine.execProjSlabDone e s
  | .codecQueuePlace e => Sys2Proof.Machine.execCodecQueuePlace e s
  | .codecLaneStart e l => Sys2Proof.Machine.execCodecLaneStart e l s
  | .codecJobEnd e l => Sys2Proof.Machine.execCodecJobEnd e l s
  | .frameSessionOpen f => Sys2Proof.Machine.execFrameSessionOpen f s
  | .frameSessionClose f => Sys2Proof.Machine.execFrameSessionClose f s
  | .frameRingPoll id => Sys2Proof.Machine.execFrameRingPoll id s
  | .frameStoreGrant id k => Sys2Proof.Machine.execFrameStoreGrant id k s
  | .frameDecodeTurn id k => Sys2Proof.Machine.execFrameDecodeTurn id k s
  | .sampleEnd id k => Sys2Proof.Machine.execSampleEnd id k s
  | .sampleItemRelease id k => Sys2Proof.Machine.execSampleItemRelease id k s
  | .batchEmit id => Sys2Proof.Machine.execBatchEmit id s
  | .manifestRingPoll id => Sys2Proof.Machine.execManifestRingPoll id s
  | .batchAttach f => Sys2Proof.Machine.execBatchAttach f s
  | .batchFlush f => Sys2Proof.Machine.execBatchFlush f s
  | .batchDetach f => Sys2Proof.Machine.execBatchDetach f s
  | .fabricLinkTraining p => Sys2Proof.Machine.execFabricLinkTraining p s
  | .initSend p => Sys2Proof.Machine.execInitSend p s
  | .initReceive p f => Sys2Proof.Machine.execInitReceive p f s
  | .initRetry p => Sys2Proof.Machine.execInitRetry p s
  | .fabricDataReceive p f => Sys2Proof.Machine.execFabricDataReceive p f s
  | .nakReceive p f => Sys2Proof.Machine.execNakReceive p f s
  | .idleSend p => Sys2Proof.Machine.execIdleSend p s
  | .linkSilenceTimeout p => Sys2Proof.Machine.execLinkSilenceTimeout p s
  | .fabricLinkFail p => Sys2Proof.Machine.execFabricLinkFail p s
  | .discoverySettleTimer => Sys2Proof.Machine.execDiscoverySettleTimer s
  | .discoveryStartReceive p => Sys2Proof.Machine.execDiscoveryStartReceive p s
  | .discoveryReportTimer => Sys2Proof.Machine.execDiscoveryReportTimer s
  | .discoveryReportReceive p => Sys2Proof.Machine.execDiscoveryReportReceive p s
  | .discoveryTableReceive p => Sys2Proof.Machine.execDiscoveryTableReceive p s
  | .discoveryTableAckReceive p => Sys2Proof.Machine.execDiscoveryTableAckReceive p s
  | .discoveryCommitReceive p => Sys2Proof.Machine.execDiscoveryCommitReceive p s
  | .remoteWriteReceive p => Sys2Proof.Machine.execRemoteWriteReceive p s
  | .readReqReceive p => Sys2Proof.Machine.execReadReqReceive p s
  | .atomicReceive p => Sys2Proof.Machine.execAtomicReceive p s
  | .sendReceive p => Sys2Proof.Machine.execSendReceive p s
  | .remoteResponseReceive p => Sys2Proof.Machine.execRemoteResponseReceive p s
  | .remoteRequestTimeout req => Sys2Proof.Machine.execRemoteRequestTimeout req s
  | .fabricStatus f => Sys2Proof.Machine.execFabricStatus f s
  | .fabricRediscover f => Sys2Proof.Machine.execFabricRediscover f s
  | .bootRomStart => Sys2Proof.Machine.execBootRomStart s
  | .surveyorRelockPath => Sys2Proof.Machine.execSurveyorRelockPath s
  | .firmwareStart training => Sys2Proof.Machine.execFirmwareStart training s
  | .bootLoadWrite f => Sys2Proof.Machine.execBootLoadWrite f s
  | .bootLoadRun f => Sys2Proof.Machine.execBootLoadRun f s
  | .bootLoadAbort f => Sys2Proof.Machine.execBootLoadAbort f s
  | .fwUpdateWrite f => Sys2Proof.Machine.execFwUpdateWrite f s
  | .fwUpdateActivate f => Sys2Proof.Machine.execFwUpdateActivate f s
  | .handoverReady => Sys2Proof.Machine.execHandoverReady s
  | .handoverTimeout => Sys2Proof.Machine.execHandoverTimeout s
  | .fwUpdateCommit f => Sys2Proof.Machine.execFwUpdateCommit f s
  | .fwUpdateAbort f => Sys2Proof.Machine.execFwUpdateAbort f s
  | .fwUpdateConfig f => Sys2Proof.Machine.execFwUpdateConfig f s
  | .getCerts f => Sys2Proof.Machine.execGetCerts f s
  | .certRotate f => Sys2Proof.Machine.execCertRotate f s
  | .attest f => Sys2Proof.Machine.execAttest f s
  | .podQuarantine f => Sys2Proof.Machine.execPodQuarantine f s
  | .quarantineAbandonTimer pod => Sys2Proof.Machine.execQuarantineAbandonTimer pod s
  | .podSelftest f => Sys2Proof.Machine.execPodSelftest f s
  | .podReinstate f => Sys2Proof.Machine.execPodReinstate f s
  | .serviceQuery f => Sys2Proof.Machine.execServiceQuery f s
  | .engineReset f => Sys2Proof.Machine.execEngineReset f s
  | .portRelink f => Sys2Proof.Machine.execPortRelink f s
  | .relinkTimeout => Sys2Proof.Machine.execRelinkTimeout s
  | .avsRecal f => Sys2Proof.Machine.execAvsRecal f s
  | .avsRecalTimer trims => Sys2Proof.Machine.execAvsRecalTimer trims s
  | .claim f => Sys2Proof.Machine.execClaim f s
  | .release f => Sys2Proof.Machine.execRelease f s
  | .injectArm f => Sys2Proof.Machine.execInjectArm f s
  | .injectDisarm f => Sys2Proof.Machine.execInjectDisarm f s
  | .contextCountersRead f => Sys2Proof.Machine.execContextCountersRead f s
  | .snapshotRead f => Sys2Proof.Machine.execSnapshotRead f s
  | .smpCtlWrite f => Sys2Proof.Machine.execSmpCtlWrite f s
  | .sampleTake pod => Sys2Proof.Machine.execSampleTake pod s
  | .traverseStart f => Sys2Proof.Machine.execTraverseStart f s
  | .traverseStop f => Sys2Proof.Machine.execTraverseStop f s
  | .traverseStatus f => Sys2Proof.Machine.execTraverseStatus f s
  | .traverseRead f => Sys2Proof.Machine.execTraverseRead f s
  | .traverseRecord core => Sys2Proof.Machine.execTraverseRecord core s
  | .traverseTrigger src => Sys2Proof.Machine.execTraverseTrigger src s
  | .triggerPulseEnd => Sys2Proof.Machine.execTriggerPulseEnd s
  | .waitGraph f => Sys2Proof.Machine.execWaitGraph f s
  | .waitGraphSecondRead sid => Sys2Proof.Machine.execWaitGraphSecondRead sid s
  | .freezeNow f => Sys2Proof.Machine.execFreezeNow f s
  | .freezeArm f => Sys2Proof.Machine.execFreezeArm f s
  | .freezeDisarm f => Sys2Proof.Machine.execFreezeDisarm f s
  | .freezeMarker u => Sys2Proof.Machine.execFreezeMarker u s
  | .freezeCutTimeout => Sys2Proof.Machine.execFreezeCutTimeout s
  | .thaw f => Sys2Proof.Machine.execThaw f s
  | .freezeTimeoutThaw => Sys2Proof.Machine.execFreezeTimeoutThaw s
  | .railBelowThreshold r => Sys2Proof.Machine.execRailBelowThreshold r s
  | .porRelease straps => Sys2Proof.Machine.execPorRelease straps s
  | .resetNCoreThreshold => Sys2Proof.Machine.execResetNCoreThreshold s
  | .resetNSystemThreshold => Sys2Proof.Machine.execResetNSystemThreshold s
  | .resetNRelease straps => Sys2Proof.Machine.execResetNRelease straps s
  | .resetCore f => Sys2Proof.Machine.execResetCore f s
  | .resetSystem f => Sys2Proof.Machine.execResetSystem f s
  | .resetDriveStart => Sys2Proof.Machine.execResetDriveStart s
  | .resetDriveEnd => Sys2Proof.Machine.execResetDriveEnd s
  | .refclkStop => Sys2Proof.Machine.execRefclkStop s
  | .refclkReturn => Sys2Proof.Machine.execRefclkReturn s
  | .railMonitorWindow r mv => Sys2Proof.Machine.execRailMonitorWindow r mv s
  | .thermalSensorWindow temps => Sys2Proof.Machine.execThermalSensorWindow temps s
  | .getThermal f => Sys2Proof.Machine.execGetThermal f s
  | .tachWindow edges => Sys2Proof.Machine.execTachWindow edges s
  | .mctpMessageReceive bytes => Sys2Proof.Machine.execMctpMessageReceive bytes s
  | .setEndpointId bytes => Sys2Proof.Machine.execSetEndpointId bytes s
  | .getEndpointId bytes => Sys2Proof.Machine.execGetEndpointId bytes s
  | .getEndpointUuid bytes => Sys2Proof.Machine.execGetEndpointUuid bytes s
  | .getMctpVersionSupport bytes => Sys2Proof.Machine.execGetMctpVersionSupport bytes s
  | .getMessageTypeSupport bytes => Sys2Proof.Machine.execGetMessageTypeSupport bytes s
  | .getVendorDefinedMessageSupport bytes => Sys2Proof.Machine.execGetVendorDefinedMessageSupport bytes s
  | .alertResponseRead => Sys2Proof.Machine.execAlertResponseRead s
  | .smbAddrWrite f => Sys2Proof.Machine.execSmbAddrWrite f s
  | .jtagBypass => Sys2Proof.Machine.execJtagBypass s
  | .jtagIdcode => Sys2Proof.Machine.execJtagIdcode s
  | .jtagSamplePreload => Sys2Proof.Machine.execJtagSamplePreload s
  | .jtagExtest => Sys2Proof.Machine.execJtagExtest s
  | .jtagClamp => Sys2Proof.Machine.execJtagClamp s
  | .jtagHighz => Sys2Proof.Machine.execJtagHighz s
  | .readReg f => Sys2Proof.Machine.execReadReg f s
  | .writeReg f => Sys2Proof.Machine.execWriteReg f s
  | .gpioOutWrite f => Sys2Proof.Machine.execGpioOutWrite f s
  | .getPortStatus f => Sys2Proof.Machine.execGetPortStatus f s
  | .railGood r => Sys2Proof.Machine.execRailGood r s
  | .pllLocked isl => Sys2Proof.Machine.execPllLocked isl s
  | .storeComplete t k ev => Sys2Proof.Machine.execStoreComplete t k ev s
  | .nmuRowWriteDone u ev => Sys2Proof.Machine.execNmuRowWriteDone u ev s
  | .reservationRebuilt => Sys2Proof.Machine.execReservationRebuilt s

end Sys2Proof.Machine
end

