-- ==== Sys2Proof/Safety.lean ====
section
/-!
DEFINITION. The words claims are made in: when a command frame is accepted, when a Pod instruction issues, what a safe state is.
-/
namespace Sys2Proof.Machine
open Sys2Proof

/-! Frames. -/

/-- The state in which a frame's session has been heard from (R64 step 9, R72). -/
def seen (f : Frame) (s : State) : State := s.modSession f.sessionId.toNat (fun y => { y with lastSeen := s.ctl.now })

/-- Whether firmware or the boot ROM takes a frame at once on a path that delivers it (R64, R558, R566). -/
def taken (f : Frame) (s : State) : Bool :=
  s.canReceive f.path && (s.ctl.surveyor == .ready || s.ctl.surveyor == .netboot)

/-- Whether a frame of a session passes steps 6 to 9 of R64. -/
def wellSent (op : Nat) (f : Frame) (s : State) (x : Session) : Bool :=
  decide (sessionOf s f = some x) &&
  (match x.key with
    | none => true
    | some k => frameMacOk f op k) &&
  decide (f.verMajor.toNat = x.verMajor) && decide (f.verMinor.toNat = x.verMinor) && !frameHeaderBad f x.key.isSome

/-- Whether a request ID is new to a session: neither answered, nor in flight, nor below the floor (R77). -/
def freshRequest (f : Frame) (x : Session) : Bool :=
  !x.cache.any (fun o => o.requestId == f.requestId.toNat) && !x.inFlight.any (fun c => c.rid == f.requestId.toNat) &&
  decide (x.floor < f.requestId.toNat)

/-- Whether a command of an opcode passes steps 11 to 15 of R64. -/
def admissible (op : Nat) (f : Frame) (s : State) (x : Session) : Bool :=
  decide (f.payload.length ≤ x.maxPayload) && offered s f.path op && (!((catalogued op).map Prod.fst).getD false || x.priv) &&
  decide (x.inFlight.length < 256) && decide (s.allInFlight < 16384)

/-- Whether a frame is a command of an opcode that the session x executes at once: it passes every step of R64 before the last, and neither
Freeze nor a command that waited for THAW puts it off (R74, R547). -/
def accepted (op : Nat) (f : Frame) (s : State) (x : Session) : Bool :=
  taken f s && wellSent op f s x && freshRequest f x && admissible op f s x && !mustWait op x s

/-- A frame accepted whose payload has one byte as its ACTION. -/
def acceptedAs (op off act : Nat) (f : Frame) (s : State) (x : Session) : Bool :=
  accepted op f s x && decide (off < f.payload.length) && decide (fld f.payload off 1 = act)

/-- A session as its frame's command finds it. -/
def heard (s : State) (x : Session) : Session := { x with lastSeen := s.ctl.now }

/-- Whether a command meets no row of a table of failures (R610). -/
def passes (l : List (Bool × Err)) : Bool := (firstFail l).isNone

/-- The state after a command has ended with OK and a payload, s being the state its effect leaves (R64 step 16, R78). -/
def doneOk (op : Nat) (f : Frame) (payload : List Byte) (s : State) : State := frameComplete f op stOk payload s

/-- A completion as it leaves on a frame's path: over the Host Port with its priority, its VLAN and the next hop to the sender, or over SMBus/MCTP
(R43, R44, R594). -/
def frameOut (f : Frame) (s : State) (o : RcpOut) : Sent :=
  match f.path with
  | .host => .rcp .host f.srcIp f.srcPort s.host.rcpPriority s.host.vlan ((s.host.nextHop f.srcIp).getD f.srcIp) o
  | .mctp => .rcp .mctp f.srcIp f.srcPort 0 0 f.srcIp o

/-! Pod instructions. -/

/-- The state that a thread's turn and its fetch leave. -/
def fetched (t : Nat) (s : State) : State := (podFetch (s.turned t) t).2

/-- Whether a thread fetches an instruction and goes on to decode it: its Pod chooses it and the words at its PC are w (R91, R92, R100). -/
def fetches (t : Nat) (w : Insn) (s : State) : Bool :=
  s.chosen t &&
  (match (podFetch (s.turned t) t).1 with
    | .ok v => decide (v = w)
    | .error _ => false)

/-- Whether an instruction of a row issues: it is fetched, no encoding of it is reserved, no parity error is armed on its Pod, and no
register it reads awaits a result (R94, R131, R528). -/
def issues (r : Row) (t : Nat) (w : Insn) (s : State) : Bool :=
  fetches t w s && r.mine w && xOk w && r.ok w && ((fetched t s).armed 6 (podOf t)).isNone && !(s.thread t).awaits (r.reads w)

/-- The state after an instruction of a row has had its effect, which left v, and its thread has gone on to pc: earlier loads no longer write the
registers it wrote (R94, R100). -/
def ended (r : Row) (t : Nat) (w : Insn) (pc : Nat) (s v : State) : State :=
  v.modThread t (fun y => { y.overwrite (r.writes w) (s.thread t).nextOrder with pc := pc })

/-- The state after an instruction of a row has changed its own thread by g and gone on to pc. Nothing else changes but what the fetch does. -/
def retired (r : Row) (t : Nat) (w : Insn) (pc : Nat) (s : State) (g : Thread → Thread) : State := ended r t w pc s ((fetched t s).modThread t g)

/-- The same with the next instruction in sequence. -/
def retiredNext (r : Row) (t : Nat) (w : Insn) (s : State) (g : Thread → Thread) : State :=
  retired r t w (nextPc w (s.thread t).pc) s g

/-- Whether every access of a list passes the ATU and its alignment (R116, R210). -/
def allowed (ctx : Nat) (n : Need) (size : Nat) (addrs : List Nat) (s : State) : Bool :=
  addrs.all (fun va => (match atu s ctx va n with
    | .ok _ => true
    | .error _ => false) && va % size == 0)

/-- Whether a thread has a load slot free and its Pod n tracker entries (R93). -/
def roomFor (t n : Nat) (s : State) : Bool := (s.thread t).freeSlot.isSome && decide (s.trackerUsed (podOf t) + n ≤ 128)

/-- A thread whose lowest free load slot holds an operation with n tracker entries (R93). -/
def Thread.loaded (op : SlotOp) (n : Nat) (y : Thread) : Thread :=
  { y with slots := y.slots.set (y.freeSlot.getD 8) (some ⟨op, n, y.nextOrder, y.pc⟩), nextOrder := y.nextOrder + 1 }

/-- The words of an allocation at base + off + i, for some elements i, replaced by what f makes of element i and the word; the thread's flags
gain those raised (R122, R123, R150). -/
def accApplied (t base off : Nat) (elems : List Nat) (f : Nat → Word → FRes) (s : State) : State :=
  let rs := elems.map (fun i => (base + off + i, f i ((s.pod (podOf t)).accWord (base + off + i))))
  (s.modPod (podOf t) (fun p => p.accPut (rs.map (fun r => (r.1, BitVec.ofNat 32 r.2.val))))).modThread t (fun y => y.raise (allFlags (rs.map Prod.snd)))

/-- Whether an asynchronous operation of a thread can issue, its earlier stores having left the state v (R118, R126, R130): its record is
aligned, no controller is frozen, a tag is free, and no store waits for a load. -/
def asyncReady (t record : Nat) (s v : State) : Prop :=
  record % 64 = 0 ∧ s.memFrozen = false ∧ (s.thread t).freeTags ≠ [] ∧ (s.thread t).stores.any (s.thread t).storeWaits = false ∧ s.drainStores t = (none, v)

/-- A thread's tag k busy with an operation of a unit kind, and in S[d] (R126, R130). -/
def withTag (t d k kind : Nat) (v : State) : State :=
  (v.draw).2.modThread t (fun y => { y.ws d (BitVec.ofNat 64 k) with
    tags := y.tags.set k (.busy kind), tagAge := y.tagAge.set k y.nextOrder, nextOrder := y.nextOrder + 1 })

/-- The state in which an asynchronous instruction of a thread has gone on, s being the state before it. -/
def wentOn (t d : Nat) (w : Insn) (s v : State) : State :=
  v.modThread t (fun y => { y.overwrite [rS d] (s.thread t).nextOrder with pc := nextPc w (s.thread t).pc })

/-- An asynchronous instruction i of a thread issues under a free tag in S[D], with its record and unit kind; its operation does what go does in
the state in which the tag is taken, and the thread goes on (R126, R130). -/
def issuesAs (i : Instr) (t : Nat) (w : Insn) (record kind : Nat) (s v : State) (go : Issuer → State → State) : Prop :=
  ∃ k, k < 8 ∧ nth (s.thread t).tags .free k = .free ∧
    exec i s = .next (wentOn t (insD w) w s (go (.pod t k record (s.thread t).epoch) (withTag t (insD w) k kind v)))

/-! Safe states. -/

/-- What fuses allow: those burnt once keep their values, the SVN never falls and a revoked key slot stays revoked (R480). -/
def Fuses.le (a b : Fuses) : Bool :=
  decide (b.rootHash = a.rootHash) && decide (b.uds = a.uds) && decide (b.caHash = a.caHash) && decide (b.serial = a.serial) &&
  decide (b.mac = a.mac) && decide (a.svn ≤ b.svn) && decide (a.revoke &&& b.revoke = a.revoke)

end Sys2Proof.Machine
end

