-- ==== Sys2Proof/Certificates/Slice0/Obligations.lean ====
section
/-!
DEFINITION. The statements for the provers, in the words of Sys2Proof/Safety.lean.
-/
open Sys2Proof Sys2Proof.Machine

/-- A step takes the command at the front of the queue and runs exec on it with the rest of the queue. Rests on R3, R64. -/
def Obligations.StepRunsFrontCommand : Prop :=
  (∀ (c : Instr) (rest : List Instr) (s : State), step { s with pending := c :: rest } = exec c { s with pending := rest }) ∧
  (∀ s : State, s.pending = [] → ∃ t, step s = .next t ∧ t.pending = [] ∧ (s.ctl.refclk = true → t.ctl.now = s.ctl.now + 1))

/-- A command that ends puts its completion last in its session's replay cache and sends it, and nothing else changes. Rests on R46, R64, R77, R78. -/
def Obligations.CompletionSentAndCached : Prop :=
  ∀ (op : Nat) (f : Frame) (p : List Byte) (s : State) (x : Session),
    s.session f.sessionId.toNat = some x → s.ctl.surveyor ≠ .paused →
    (∃ y, (doneOk op f p s).session f.sessionId.toNat = some y ∧ y.inFlight = x.inFlight ∧ y.lastSeen = x.lastSeen ∧
      y.cache.getLast? = some (x.completion f.sessionId.toNat f.requestId.toNat op stOk p)) ∧
    (∀ o, o = frameOut f s (x.completion f.sessionId.toNat f.requestId.toNat op stOk p) →
      (s.reaches f.path f.srcIp = true → (f.path = .mctp ∨ s.paused s.host.rcpPriority = false) →
        (doneOk op f p s).sent = o :: s.sent ∧ (doneOk op f p s).host.txq = s.host.txq) ∧
      (s.reaches f.path f.srcIp = true → f.path = .host → s.paused s.host.rcpPriority = true →
        (doneOk op f p s).sent = s.sent ∧ ∃ size, (doneOk op f p s).host.txq = s.host.txq ++ [(s.host.rcpPriority, size, o)])) ∧
    (s.reaches f.path f.srcIp = false → (doneOk op f p s).sent = s.sent ∧ (doneOk op f p s).host = s.host) ∧
    (∀ n, n ≠ f.sessionId.toNat → (doneOk op f p s).session n = s.session n) ∧
    { (doneOk op f p s).rcp with sessions := s.rcp.sessions } = s.rcp ∧
    { doneOk op f p s with rcp := s.rcp, sent := s.sent, host := s.host } = s ∧
    { (doneOk op f p s).host with txq := s.host.txq, ctr := { (doneOk op f p s).host.ctr with txBytes := s.host.ctr.txBytes } } = s.host

/-- KEEPALIVE, SUBSCRIBE and GET_EVENTS end with OK and do what they say, and nothing else. Rests on R72, R75, R86, R87. -/
def Obligations.SessionKeepaliveSubscribeEvents : Prop :=
  ∀ (f : Frame) (s : State) (x : Session),
    (accepted 0x0004 f s x = true → f.payload = [] → exec (.keepalive f) s = .next (doneOk 0x0004 f [] (seen f s))) ∧
    (accepted 0x0005 f s x = true → f.payload.length = 8 → fld f.payload 0 4 < 64 → fldZero f.payload 4 4 = true →
      exec (.subscribe f) s = .next (doneOk 0x0005 f []
        ((seen f s).modSession f.sessionId.toNat (fun y => { y with mask := fld f.payload 0 4 })))) ∧
    (accepted 0x0006 f s x = true → f.payload.length = 8 → 0 < fld f.payload 0 8 → ∀ e t, x.events = e :: t →
      ∃ recs u, recs <+: (x.events.filter (fun v => fld f.payload 0 8 ≤ v.seq)) ∧
        recs.length = min (x.events.filter (fun v => fld f.payload 0 8 ≤ v.seq)).length ((x.maxPayload - 8) / 64) ∧
        exec (.getEvents f) s = .next (doneOk 0x0006 f (leb 8 e.seq ++ recs.flatMap EventRec.bytes) u) ∧
        u.session f.sessionId.toNat = some { x with
          lastSeen := s.ctl.now, fetched := recs.foldl (fun a v => max a v.seq) x.fetched } ∧
        (∀ n, n ≠ f.sessionId.toNat → u.session n = s.session n) ∧ { u.rcp with sessions := s.rcp.sessions } = s.rcp ∧
        { u with rcp := s.rcp, pins := { u.pins with smbAlert := s.pins.smbAlert } } = s) ∧
    (accepted 0x0006 f s x = true → f.payload.length = 8 → 0 < fld f.payload 0 8 → x.events = [] →
      exec (.getEvents f) s = .next (doneOk 0x0006 f (leb 8 (s.draw).1) (seen f s).draw.2))

/-- HELLO is answered without a session; OPEN_SESSION opens one, remembered for 60 s; CLOSE_SESSION and the idle timer end it. Rests on R64, R66, R67, R68, R71, R72, R75. -/
def Obligations.HelloAndSessionLifetime : Prop :=
  (∀ (f : Frame) (s : State), taken f s = true → f.sessionId = 0 → f.payload.length = 8 → fldZero f.payload 4 4 = true →
    1 ≤ fld f.payload 0 1 → fld f.payload 0 1 ≤ fld f.payload 1 1 → 512 ≤ fld f.payload 2 2 → fld f.payload 2 2 ≤ 8192 →
    exec (.hello f) s = .next (
      if fld f.payload 0 1 = 1 then
        frameAnswer f 1 stOk (leb 1 1 ++ leb 1 0 ++ leb 2 (fld f.payload 2 2) ++ (leb 1 1 ++ leb 1 1 ++ zeros 2 ++ leb 8 s.fw.fuses.serial)) s
      else frameAnswer f 1 stVersion (zeros 4 ++ (leb 1 1 ++ leb 1 1 ++ zeros 2 ++ leb 8 s.fw.fuses.serial)) s)) ∧
  (∀ (f : Frame) (s : State), taken f s = true → f.sessionId = 0 → f.verMajor = 1 → f.verMinor = 0 → frameHeaderBad f false = false →
    s.rcp.opens.all (fun o => !(o.path == f.path && o.ip == f.srcIp && (f.path == .mctp || o.port == f.srcPort) && o.rid == f.requestId.toNat
      && decide (s.ctl.now < o.at_ + 6000000000))) = true →
    s.allInFlight < 16384 → firstFail (openFails f s) = none →
    ∃ (sid : Nat) (x : Session) (t : State), 0 < sid ∧ sid < 2 ^ 32 ∧ s.session sid = none ∧ exec (.openSession f) s = .next t ∧
      t.session sid = some x ∧ x.path = f.path ∧ x.ip = f.srcIp ∧ x.port = f.srcPort ∧ x.maxPayload = fld f.payload 6 2 ∧
      x.idle = (if fld f.payload 4 2 = 0 then 60 else fld f.payload 4 2) ∧ x.priv = (fld f.payload 0 1 == 1) ∧
      (s.ctl.surveyor = .ready → x.ctx = fld f.payload 2 2) ∧ x.key.isSome = (fld f.payload 1 1 == 1) ∧ x.inFlight = [] ∧ x.cache = [] ∧
      x.lastSeen = s.ctl.now ∧ (∀ n, n ≠ sid → t.session n = s.session n) ∧ t.mem = s.mem ∧ t.pods = s.pods ∧ t.disp = s.disp) ∧
  (∀ (ip port rid : Nat) (s : State), ∃ t, exec (.openSessionMemoryExpiry ip port rid) s = .next t ∧
    (∀ o, o ∈ t.rcp.opens ↔ o ∈ s.rcp.opens ∧ ¬(o.ip = ip ∧ o.port = port ∧ o.rid = rid ∧ o.at_ + 6000000000 ≤ s.ctl.now)) ∧
    { t with rcp := { t.rcp with opens := s.rcp.opens } } = s) ∧
  (∀ (f : Frame) (s : State) (x : Session), accepted 0x0003 f s x = true → f.payload = [] →
    ∃ t, exec (.closeSession f) s = .next t ∧ t = endSession f.sessionId.toNat (doneOk 0x0003 f [] (seen f s)) ∧
      t.session f.sessionId.toNat = none) ∧
  (∀ (sid : Nat) (s : State) (x : Session), s.session sid = some x → s.ctl.surveyor ≠ .paused →
    (x.lastSeen + x.idle * 100000000 ≤ s.ctl.now → ∃ t, exec (.sessionIdleTimeout sid) s = .next t ∧ t.session sid = none) ∧
    (s.ctl.now < x.lastSeen + x.idle * 100000000 → exec (.sessionIdleTimeout sid) s = .next s))

/-- A datagram on the RCP port is checked for length, MAGIC, CRC and direction, and then runs as the row of its opcode. Rests on R60, R62, R64, R73, R77, R88. -/
def Obligations.FrameReceptionChecksInOrder : Prop :=
  (∀ (d : Datagram) (s : State), s.canReceive d.path = true → s.ctl.surveyor = .paused →
    exec (.rcpFrameReceive d) s = .next { s with rcp := { s.rcp with heldFrames := s.rcp.heldFrames ++ [.datagram d] } }) ∧
  (∀ (d : Datagram) (s : State), (s.canReceive d.path = false ∨ s.canFinish = false) →
    exec (.rcpFrameReceive d) s = .next (if d.path = .host then s.unbuffer .rcp else s)) ∧
  (∀ (d : Datagram) (s : State), s.canReceive d.path = true → (s.ctl.surveyor = .ready ∨ s.ctl.surveyor = .netboot) →
    ∀ s1, s1 = (if d.path = .host then s.unbuffer .rcp else s) →
    (36 ≤ d.bytes.length → d.bytes.length = frameLen d.bytes → fld d.bytes 0 2 = 0x5259 →
      fld d.bytes (d.bytes.length - 4) 4 = crc32c (d.bytes.take (d.bytes.length - 4)) →
      bit (fld d.bytes 0x12 2) 0 = false → bit (fld d.bytes 0x12 2) 3 = false →
      exec (.rcpFrameReceive d) s = .next (rcpGate (fld d.bytes 0x10 2) (frameOf d) s1 (rcpDispatch (fld d.bytes 0x10 2) (frameOf d)))) ∧
    ((d.bytes.length < 36 ∨ d.bytes.length ≠ frameLen d.bytes ∨ fld d.bytes 0 2 ≠ 0x5259) →
      exec (.rcpFrameReceive d) s = .next { s1 with host := { s1.host with ctr := { s1.host.ctr with
        dropMalformed := sat32 s1.host.ctr.dropMalformed 1 } } }) ∧
    (36 ≤ d.bytes.length → d.bytes.length = frameLen d.bytes → fld d.bytes 0 2 = 0x5259 →
      fld d.bytes (d.bytes.length - 4) 4 ≠ crc32c (d.bytes.take (d.bytes.length - 4)) →
      exec (.rcpFrameReceive d) s = .next { s1 with host := { s1.host with ctr := { s1.host.ctr with
        dropCrc := sat32 s1.host.ctr.dropCrc 1 } } }) ∧
    (36 ≤ d.bytes.length → d.bytes.length = frameLen d.bytes → fld d.bytes 0 2 = 0x5259 →
      fld d.bytes (d.bytes.length - 4) 4 = crc32c (d.bytes.take (d.bytes.length - 4)) →
      (bit (fld d.bytes 0x12 2) 0 = true ∨ bit (fld d.bytes 0x12 2) 3 = true) →
      exec (.rcpFrameReceive d) s = .next { s1 with host := { s1.host with ctr := { s1.host.ctr with
        dropMalformed := sat32 s1.host.ctr.dropMalformed 1 } } })) ∧
  (∀ (f : Frame) (s : State), ∀ e ∈ [(0x0001, Instr.hello f), (0x0002, .openSession f), (0x0003, .closeSession f), (0x0004, .keepalive f),
      (0x0005, .subscribe f), (0x0006, .getEvents f), (0x0007, .resume f), (0x0010, .getPortStatus f), (0x0011, .setPortConfig f),
      (0x0012, .setNetConfig f), (0x0013, .qpCreate f), (0x0014, .qpModify f), (0x0015, .qpDestroy f), (0x0016, .mrRegister f),
      (0x0017, .mrDeregister f), (0x0100, .getConfig f), (0x0101, .readReg f), (0x0103, .getSpeed f), (0x0104, .setSpeedTarget f),
      (0x0200, .contextCreate f), (0x0201, .contextDestroy f), (0x0202, .map f), (0x0203, .unmap f), (0x0300, .flowCreate f),
      (0x0301, .flowDestroy f), (0x0302, .flowBindIngress f), (0x0304, .flowStats f), (0x0400, .imageLoad f), (0x0401, .imageUnload f),
      (0x0510, .embTableCreate f), (0x0512, .partitionMapSet f), (0x0600, .fabricStatus f), (0x0601, .fabricRediscover f),
      (0x0700, .attest f), (0x0701, .getCerts f), (0x0703, .certRotate f), (0x0800, .claim f), (0x0801, .release f), (0x0901, .thaw f),
      (0x0903, .waitGraph f), (0x0A01, .getThermal f)],
    exec e.2 s = .next (rcpGate e.1 f s (rcpDispatch e.1 f))) ∧
  (∀ (f : Frame) (s : State), ∀ e ∈ [(0x0531, 0, 0, Instr.batchAttach f), (0x0531, 0, 1, .batchFlush f), (0x0531, 0, 2, .batchDetach f),
      (0x0A02, 0, 0, .bootLoadWrite f), (0x0A02, 0, 1, .bootLoadRun f), (0x0A02, 0, 2, .bootLoadAbort f),
      (0x0511, 8, 0, .embTablePrepare f), (0x0511, 8, 1, .embTableCommit f), (0x0511, 8, 2, .embTableCancel f),
      (0x0511, 8, 3, .embTableDestroy f), (0x0511, 8, 4, .embTableQuery f), (0x0530, 0, 0, .frameSessionOpen f),
      (0x0530, 0, 1, .frameSessionClose f), (0x0520, 0, 0, .gazCreate f), (0x0520, 0, 1, .gazWrite f), (0x0520, 0, 2, .gazSegtags f),
      (0x0520, 0, 3, .gazDestroy f), (0x0521, 1, 0, .gazReload f), (0x0521, 1, 1, .gazEvacuate f), (0x0521, 1, 2, .gazRestore f),
      (0x0521, 1, 3, .gazScrubPeriod f), (0x0204, 1, 0, .retrainChannel f), (0x0204, 1, 1, .channelDrain f), (0x0204, 1, 2, .channelRetrainRestore f),
      (0x0904, 0, 0, .contextCountersRead f), (0x0904, 0, 1, .snapshotRead f), (0x0A00, 0, 0, .resetCore f), (0x0A00, 0, 1, .resetSystem f),
      (0x0702, 0, 0, .fwUpdateWrite f), (0x0702, 0, 1, .fwUpdateActivate f), (0x0702, 0, 2, .fwUpdateCommit f),
      (0x0702, 0, 3, .fwUpdateAbort f), (0x0702, 0, 4, .fwUpdateConfig f), (0x0803, 2, 0, .podQuarantine f), (0x0803, 2, 1, .podSelftest f),
      (0x0803, 2, 2, .podReinstate f), (0x0802, 0, 0, .serviceQuery f), (0x0802, 0, 1, .engineReset f), (0x0802, 0, 2, .portRelink f),
      (0x0802, 0, 3, .avsRecal f), (0x0804, 4, 0, .injectArm f), (0x0804, 4, 1, .injectDisarm f), (0x0902, 0, 0, .traverseStart f),
      (0x0902, 0, 1, .traverseStop f), (0x0902, 0, 2, .traverseStatus f), (0x0902, 0, 3, .traverseRead f), (0x0900, 0, 0, .freezeNow f),
      (0x0900, 0, 1, .freezeArm f), (0x0900, 0, 2, .freezeDisarm f)],
    e.2.1 < f.payload.length → fld f.payload e.2.1 1 = e.2.2.1 → exec e.2.2.2 s = .next (rcpGate e.1 f s (rcpDispatch e.1 f))) ∧
  (∀ (f : Frame) (s : State), let p := f.payload; let run := fun op => Host.Outcome.next (rcpGate op f s (rcpDispatch op f))
    (fld p 0 4 ∉ [0x2_0104, 0x40_5000, 0x50_0084, 0x50_0100] → exec (.writeReg f) s = run 0x0102) ∧
    (fld p 0 4 = 0x2_0104 → exec (.gazPowerWrite f) s = run 0x0102) ∧ (fld p 0 4 = 0x40_5000 → exec (.smpCtlWrite f) s = run 0x0102) ∧
    (fld p 0 4 = 0x50_0084 → exec (.gpioOutWrite f) s = run 0x0102) ∧ (fld p 0 4 = 0x50_0100 → exec (.smbAddrWrite f) s = run 0x0102) ∧
    (bit (fld p 1 1) 1 = false → exec (.graphSubmit f) s = run 0x0303) ∧ (bit (fld p 1 1) 1 = true → exec (.graphCancel f) s = run 0x0303) ∧
    (bit (fld p 0xC 4) 0 = false → exec (.legendCreate f) s = run 0x0500) ∧
    (bit (fld p 0xC 4) 0 = true → exec (.legendDestroy f) s = run 0x0500)) ∧
  (∀ (op : Nat) (f : Frame) (s : State) (x : Session), taken f s = true → wellSent op f s x = true →
    (∀ o, x.cache.find? (fun o => o.requestId == f.requestId.toNat) = some o → ∀ h, rcpRun op h f s =
      (seen f s).sendRcp f.path f.srcIp f.srcPort (RcpOut.seal { o with flags := 5, mac := [] } x.key)) ∧
    (x.cache.any (fun o => o.requestId == f.requestId.toNat) = false → x.inFlight.any (fun c => c.rid == f.requestId.toNat) = true →
      ∀ h, rcpRun op h f s = { seen f s with host := { s.host with ctr := { s.host.ctr with dupInflight := sat32 s.host.ctr.dupInflight 1 } } }))

/-- SET_PORT_CONFIG, SET_NET_CONFIG, GET_PORT_STATUS and GET_CONFIG do what they say after their completion is sent. Rests on R43, R44, R606, R34, R79. -/
def Obligations.PortAndNetworkConfiguration : Prop :=
  ∀ (f : Frame) (s : State) (x : Session), let p := f.payload
    (accepted 0x0011 f s x = true → passes (setPortConfigFails f (seen f s)) = true → ∀ s1, s1 = doneOk 0x0011 f [] (seen f s) →
      ∃ t, t = { s1 with host := { s1.host with
          advertise := BitVec.ofNat 3 (fld p 0 1), pfcEnable := BitVec.ofNat 8 (fld p 1 1), rcpPriority := fld p 2 1, classify := fld p 3 1,
          dscpMap := (sub p 8 64).map BitVec.toNat } } ∧
        exec (.setPortConfig f) s = .next (if s.host.advertise = BitVec.ofNat 3 (fld p 0 1) then t.drainTx.flowControl else linkDown t.drainTx.flowControl)) ∧
    (accepted 0x0012 f s x = true → passes (setNetConfigFails f) = true → fld p 0 1 = 0 → ∀ s1, s1 = doneOk 0x0012 f [] (seen f s) →
      exec (.setNetConfig f) s = .next { s1 with host := { s1.host with
        v4Valid := bit (fld p 1 1) 0, rcpPort := if fld p 2 2 = 0 then s.host.rcpPort else fld p 2 2, vlan := fld p 4 2, v4Prefix := fld p 7 1
        v4Addr := be (sub p 8 4), v4Gateway := be (sub p 12 4), v6Gateway := be (sub p 16 16),
        v6Addrs := (List.range (min (fld p 6 1) 4)).map (fun i => ⟨be (sub p (0x20 + 24 * i) 16), fld p (0x30 + 24 * i) 1⟩) } }) ∧
    (accepted 0x0012 f s x = true → passes (setNetConfigFails f) = true → fld p 0 1 = 1 →
      exec (.setNetConfig f) s = .next (doneOk 0x0012 f s.host.netBytes (seen f s))) ∧
    (accepted 0x0010 f s x = true → p.length = 8 → fldZero p 1 7 = true → fld p 0 1 ≤ 12 →
      ∃ b, b.length = 128 ∧ exec (.getPortStatus f) s = .next (doneOk 0x0010 f b (seen f s)) ∧
        b = (if fld p 0 1 = 0 then (List.range 32).flatMap (fun w => leb 4 (((rdHost (seen f s) (4 * w)).map Prod.fst).getD 0))
          else ((seen f s).fport (fld p 0 1 - 1)).words.flatMap (leb 4))) ∧
    (accepted 0x0100 f s x = true → p = [] → s.config.length = 256 ∧ exec (.getConfig f) s = .next (doneOk 0x0100 f s.config (seen f s)))

/-- READ_REG reads registers, latching 64-bit ones; WRITE_REG writes each writable field as its kind says. Rests on R533, R534, R594, R597, R598, R599, R600, R601, R603, R370, R9, R12. -/
def Obligations.ControlSpaceRegisters : Prop :=
  ∀ (f : Frame) (s : State) (x : Session), let p := f.payload; let a := fld p 0 4; let v := fld p 4 4; let sid := f.sessionId.toNat
    (accepted 0x0101 f s x = true → passes (readRegFails f x) = true →
      exec (.readReg f) s = .next (doneOk 0x0101 f (readMany sid (fld p 4 2) a (seen f s)).1 (readMany sid (fld p 4 2) a (seen f s)).2)) ∧
    (∀ n b t, (readMany sid 0 b t = ([], t)) ∧ (readMany sid (n + 1) b t = (leb 4 (readOne sid b t).1 ++ (readMany sid n (b + 4) (readOne sid b t).2).1,
      (readMany sid n (b + 4) (readOne sid b t).2).2))) ∧
    (accepted 0x0101 f s x = true → passes (readRegFails f x) = true → fld p 4 2 = 1 →
      (a = 0x50_0080 → exec (.readReg f) s = .next (doneOk 0x0101 f (leb 4 (gpioLevels (seen f s))) { seen f s with
        free := s.free + 1, pins := { s.pins with gpioIn := BitVec.ofNat 8 (gpioLevels (seen f s)) } })) ∧
      (latches a = false → a ≠ 0x50_0080 → x.latches.find a = none → exec (.readReg f) s = .next (doneOk 0x0101 f (leb 4 ((seen f s).live a)) (seen f s))) ∧
      (latches a = true → exec (.readReg f) s = .next (doneOk 0x0101 f (leb 4 ((seen f s).live a))
        ((seen f s).modSession sid (fun y => { y with latches := y.latches.put (a + 4) ((seen f s).live (a + 4)) })))) ∧
      (∀ w, latches a = false → a ≠ 0x50_0080 → x.latches.find a = some w → exec (.readReg f) s = .next (doneOk 0x0101 f (leb 4 w)
        ((seen f s).modSession sid (fun y => { y with latches := y.latches.del a }))))) ∧
    (accepted 0x0102 f s x = true → passes (writeRegFails f sid (seen f s)) = true → ∀ s1, s1 = seen f s →
      (namedRegs.contains a = false → ∃ t, exec (.writeReg f) s = .next (doneOk 0x0102 f [] t) ∧
        (a = 0x1000 → t = { s1 with ctl := { s1.ctl with rstCause := s.ctl.rstCause &&& ~~~ BitVec.ofNat 4 v } }) ∧
        (a = 0x1010 → t = { s1 with ctl := { s1.ctl with lockStatus := s.ctl.lockStatus &&& ~~~ BitVec.ofNat 47 v } }) ∧
        (a = 0x1014 → t = { s1 with ctl := { s1.ctl with lockStatus := s.ctl.lockStatus &&& ~~~ BitVec.ofNat 47 (v * 2 ^ 32) } }) ∧
        (a = 0x40_5004 → t = { s1 with dbg := { s1.dbg with smp := { s1.dbg.smp with ring := s.dbg.smp.ring / 2 ^ 32 % 2 ^ 32 * 2 ^ 32 + v } } }) ∧
        (a = 0x40_5008 → t = { s1 with dbg := { s1.dbg with smp := { s1.dbg.smp with ring := s.dbg.smp.ring % 2 ^ 32 + v * 2 ^ 32 } } }) ∧
        (a = 0x40_500C → t = { s1 with dbg := { s1.dbg with smp := { s1.dbg.smp with entries := v } } }) ∧
        (∀ kind inst, a = 0x20_0000 + 0x2000 * kind + 8 * inst → kind < 16 → inst < 1024 → v = 1 →
          t = s1.modDetector (detId kind inst) (fun d => { d with fired := false })) ∧
        (a ∉ [0x1000, 0x1010, 0x1014, 0x40_5004, 0x40_5008, 0x40_500C] → ¬(0x20_0000 ≤ a ∧ a < 0x22_0000 ∧ a % 8 = 0 ∧ v % 2 = 1) → t = s1)) ∧
      (a = 0x2_0104 → exec (.gazPowerWrite f) s = .next (doneOk 0x0102 f [] { s1 with gaz := { s1.gaz with segLimit := v } })) ∧
      (a = 0x40_5000 → exec (.smpCtlWrite f) s = .next (doneOk 0x0102 f [] { s1 with dbg := { s1.dbg with
        smp := { s1.dbg.smp with enable := bit v 0, period := bits v 5 1, ctx := bits v 15 8 } } })) ∧
      (a = 0x50_0084 → exec (.gpioOutWrite f) s = .next (doneOk 0x0102 f [] { s1 with pins := { s1.pins with gpioOut := BitVec.ofNat 8 v } })) ∧
      (a = 0x50_0100 → ∃ t, exec (.smbAddrWrite f) s = .next (doneOk 0x0102 f [] t) ∧ t.pins.smbAddr = BitVec.ofNat 7 v ∧
        t.pins.alertEn = bit v 7 ∧ t.pins.smbAlert = (bit v 7 && s1.rcp.sessions.vals.any (fun y => y.path == .mctp && decide (y.evSeq > y.fetched))) ∧
        { t with pins := { t.pins with smbAddr := s.pins.smbAddr, alertEn := s.pins.alertEn, smbAlert := s.pins.smbAlert } } = s1)) ∧
    (acceptedAs 0x0904 0 0 f s x = true → passes (countersFails (seen f s) x p) = true → ∀ c, s.mem.contexts.find (fld p 2 2) = some c →
      exec (.contextCountersRead f) s = .next (doneOk 0x0904 f (leb 8 c.faults.xlate ++ leb 8 c.faults.perm ++ leb 8 c.faults.align ++
          leb 8 c.faults.hw ++ leb 8 c.faults.pod ++ leb 8 c.faults.samples)
        (if fld p 1 1 = 1 then (seen f s).countFault (fld p 2 2) (fun _ => ⟨0, 0, 0, 0, 0, 0⟩) else seen f s))) ∧
    (acceptedAs 0x0904 0 1 f s x = true → passes (countersFails (seen f s) x p) = true →
      exec (.snapshotRead f) s = .next (doneOk 0x0904 f (leb 4 (fld p 4 4) ++ leb 4 (fld p 8 4) ++
        (List.range (fld p 8 4)).flatMap (fun i => leb 4 ((seen f s).live (fld p 4 4 + 4 * i)))) (seen f s)))

/-- SET_SPEED_TARGET sets the target; GET_SPEED and GET_THERMAL answer what the loop and the sensors last found. Rests on R27, R28, R575. -/
def Obligations.SpeedAndThermalQueries : Prop :=
  ∀ (f : Frame) (s : State) (x : Session), let p := f.payload
    (accepted 0x0104 f s x = true → p.length = 8 → fldZero p 1 7 = true → 70 ≤ fld p 0 1 → fld p 0 1 ≤ 130 →
      exec (.setSpeedTarget f) s = .next (doneOk 0x0104 f [] { seen f s with clk := { s.clk with target := fld p 0 1 } })) ∧
    (accepted 0x0103 f s x = true → p = [] → exec (.getSpeed f) s = .next (doneOk 0x0103 f
      (leb 1 (if s.clk.iterated then s.clk.targetLast else s.clk.target) ++ leb 1 (b2n s.clk.limited + 2 * b2n s.clk.thermalLast + 4 * b2n s.clk.powerLast) ++ leb 2 s.clk.slowest ++
        leb 4 s.clk.tCount ++ leb 4 s.clk.sCount ++ leb 2 (if s.clk.iterated then s.clk.vreq else 0) ++ leb 2 s.clk.budget ++
        leb 8 s.clk.iterations ++ leb 8 s.clk.limitedCount) (seen f s))) ∧
    (accepted 0x0A01 f s x = true → p = [] → ∃ b, exec (.getThermal f) s = .next (doneOk 0x0A01 f b (seen f s)) ∧
      b = leb 1 s.clk.hottest ++ leb 1 s.clk.sensor ++
        leb 1 (b2n s.clk.throttle + 2 * b2n s.clk.alert + 4 * b2n s.clk.hot + 8 * b2n s.clk.limited) ++ leb 1 s.gaz.level ++
        leb 2 s.clk.vreq ++ leb 2 s.clk.vread ++ leb 2 s.clk.iread ++ leb 2 s.clk.pread ++ leb 2 (700 - s.clk.allowance) ++ leb 2 s.clk.allowance ++
        s.clk.temps.flatMap (fun t => leb 1 ((t.map BitVec.toNat).getD 0)) ++ s.clk.rails.flatMap (fun r => leb 2 r.mv.toNat) ++ zeros 14 ∧
      (s.clk.temps.length = 38 → s.clk.rails.length = 6 → b.length = 80))

/-- The Host Port's link trains to the fastest common mode, its loss is counted, frames are checked, PFC pauses a priority. Rests on R38, R39, R40, R46, R604, R605. -/
def Obligations.HostLinkAndReceivedFrames : Prop :=
  (∀ (peer : BitVec 3) (s : State) (m : Nat), s.up islHost = true → s.host.link = .training → m < 3 →
    (s.host.advertise &&& peer).getLsbD m = true → (∀ k, k < m → (s.host.advertise &&& peer).getLsbD k = false) →
    s.svc.relink.find 0 = none →
    exec (.hostLinkTraining peer) s = .next { s with host := { s.host with link := .up, mode := m } }) ∧
  (∀ s : State, s.host.link = .up → ∃ t, exec .hostLinkDown s = .next t ∧ t.host.link = .training ∧ t.host.mode = 0 ∧
    t.host.ctr.linkDowns = sat32 s.host.ctr.linkDowns 1 ∧ t.mem = s.mem ∧ t.pods = s.pods ∧ t.roce = s.roce) ∧
  (∀ (b : List Byte) (s : State), s.linkUp = true → s.armed 0x0B 0 = none →
    ∀ s0, s0 = { s with host := { s.host with ctr := { s.host.ctr with rxBytes := s.host.ctr.rxBytes + b.length } } } →
    (le (lastN 4 b) ≠ fcs (b.take (b.length - 4)) → ∃ t, exec (.hostFrameReceive b) s = .next t ∧
      t.host.ctr.fcsErr = sat32 s.host.ctr.fcsErr 1 ∧ t.host.rx = s.host.rx ∧ t.mem = s.mem) ∧
    (le (lastN 4 b) = fcs (b.take (b.length - 4)) → 9216 < b.length → exec (.hostFrameReceive b) s = .next
      { s0 with host := { s0.host with ctr := { s0.host.ctr with lenErr := sat32 s.host.ctr.lenErr 1 } } }) ∧
    (le (lastN 4 b) = fcs (b.take (b.length - 4)) → b.length ≤ 9216 → s.hearsMac (b.take 6) = false → exec (.hostFrameReceive b) s = .next
      { s0 with host := { s0.host with ctr := { s0.host.ctr with otherMac := sat32 s.host.ctr.otherMac 1 } } }) ∧
    (le (lastN 4 b) = fcs (b.take (b.length - 4)) → b.length ≤ 9216 → s.hearsMac (b.take 6) = true →
      exec (.hostFrameReceive b) s = .next (etherReceive s0 b.length b))) ∧
  (∀ (p : Fin 8) (pause : Bool) (s : State), s.linkUp = true →
    (s.host.pfcEnable.getLsbD p = true → exec (.pfcPauseReceive p pause) s =
      .next ({ s with host := { s.host with paused := putBit s.host.paused p pause } }).drainTx) ∧
    (s.host.pfcEnable.getLsbD p = true → s.host.txq = [] → ∃ t, exec (.pfcPauseReceive p pause) s = .next t ∧ t.host.paused.getLsbD p = pause ∧
      (∀ q : Fin 8, q ≠ p → t.host.paused.getLsbD q = s.host.paused.getLsbD q) ∧
      { t with host := { t.host with paused := s.host.paused } } = s) ∧
    (s.host.pfcEnable.getLsbD p = false → exec (.pfcPauseReceive p pause) s = .next s))

/-- QP_CREATE, QP_MODIFY, QP_DESTROY, MR_REGISTER and MR_DEREGISTER make, move and remove queue pairs and memory regions. Rests on R52, R53, R54, R55, R58, R59. -/
def Obligations.QueuePairAndRegionCommands : Prop :=
  ∀ (f : Frame) (s : State) (x : Session), let p := f.payload
    (accepted 0x0013 f s x = true → passes (qpCreateFails f x (seen f s)) = true → ∃ (n : Nat) (q : Qp) (u : State),
      exec (.qpCreate f) s = .next (doneOk 0x0013 f (leb 4 n ++ zeros 4) u) ∧ 2 ≤ n ∧ n < 2 ^ 24 ∧ s.qp n = none ∧ u.qp n = some q ∧
      q.state = .init ∧ q.ctx = x.ctx ∧ q.session = f.sessionId.toNat ∧ q.prio = fld p 0 1 ∧ q.sqEntries = fld p 4 4 ∧ q.sqAddr = fld p 8 8 ∧
      q.prodAddr = fld p 0x10 8 ∧ q.consAddr = fld p 0x18 8 ∧ q.complFlow = fld p 0x20 4 ∧ q.outstanding = [] ∧ q.held = [] ∧
      (∀ k, k ≠ n → u.qp k = s.qp k) ∧ u.mem = s.mem ∧ u.disp = s.disp ∧ u.pods = s.pods) ∧
    (accepted 0x0014 f s x = true → passes (qpModifyFails f x (seen f s)) = true → ∀ q, s.qp (fld p 0 4) = some q →
      (fld p 4 1 = 1 → exec (.qpModify f) s = .next (doneOk 0x0014 f [] ((seen f s).putQp (fld p 0 4) { q with
        state := .rtr, mtu := 1024 * 2 ^ fld p 5 1, remoteQpn := fld p 8 4, rqPsn := fld p 12 4, remoteIp := be (sub p 0x10 16),
        src := ((seen f s).sourceFor (be (sub p 0x10 16))).getD 0 }))) ∧
      (fld p 4 1 = 2 → exec (.qpModify f) s = .next (doneOk 0x0014 f [] ((seen f s).putQp (fld p 0 4) { q with
        state := .rts, sqPsn := fld p 0x20 4, timeoutUs := fld p 0x24 4, retry := fld p 0x28 1, rnrRetry := fld p 0x29 1,
        retriesLeft := fld p 0x28 1, rnrLeft := fld p 0x29 1 }))) ∧
      (fld p 4 1 = 3 → ∃ u r, exec (.qpModify f) s = .next (doneOk 0x0014 f [] u) ∧ u.qp (fld p 0 4) = some r ∧ r.state = .error ∧
        r.outstanding = [] ∧ (q.held ++ q.outstanding.flatMap (fun w => w.done 0 stState 0x0F05)) <+: r.held ∧
        (∀ k, k ≠ fld p 0 4 → u.qp k = s.qp k) ∧ u.pods = s.pods ∧ u.disp = s.disp)) ∧
    (∀ ip, (isLinkLocal ip = true → s.sourceFor ip = some s.linkLocal) ∧
      (∀ a, isLinkLocal ip = false → v4Of ip = some a → s.host.v4Valid = true → s.sourceFor ip = some (v4Mapped s.host.v4Addr)) ∧
      (∀ y, isLinkLocal ip = false → v4Of ip = none → y ∈ s.host.v6Addrs → covers 128 y.addr y.plen ip = true → y.plen ≤ 128 →
        ∃ z, z ∈ s.host.v6Addrs ∧ covers 128 z.addr z.plen ip = true ∧ y.plen ≤ z.plen ∧ s.sourceFor ip = some z.addr)) ∧
    (accepted 0x0015 f s x = true → passes (qpDestroyFails f x (seen f s)) = true → ∀ q, s.qp (fld p 0 4) = some q → ∃ (r : Qp) (u : State),
      u = qpGo (fld p 0 4) (seen f s) ∧ u.qp (fld p 0 4) = some r ∧ r.state = .error ∧ r.destroying = true ∧ r.outstanding = [] ∧
      (q.held ++ q.outstanding.flatMap (fun w => w.done 0 stState 0x0F05)) <+: r.held ∧ (q.state ≠ .rts → q.outstanding = [] → r.held = q.held) ∧
      (∀ k, k ≠ fld p 0 4 → u.qp k = s.qp k) ∧
      (r.held = [] → exec (.qpDestroy f) s = .next (doneOk 0x0015 f [] { u with roce := { u.roce with qps := u.roce.qps.del (fld p 0 4) } })) ∧
      (r.held ≠ [] → exec (.qpDestroy f) s = .next (frameInFlight f 0x0015 (.qpDestroy (fld p 0 4)) u))) ∧
    (accepted 0x0016 f s x = true → passes (mrRegisterFails f (seen f s)) = true → ∃ (k : Nat) (u : State),
      exec (.mrRegister f) s = .next (doneOk 0x0016 f (leb 4 k ++ zeros 4) u) ∧ 0 < k ∧ k < 2 ^ 32 ∧
      u.roce.mrs.find k = some ⟨x.ctx, fld p 0 8, fld p 8 8, fld p 0x10 1⟩ ∧ (∀ j, j ≠ k → u.roce.mrs.find j = s.roce.mrs.find j) ∧
      u.roce.qps = s.roce.qps ∧ u.mem = s.mem ∧
      (s.roce.mrs.length + s.roce.issued.length < 2 ^ 32 - 1 → s.roce.mrs.find k = none ∧ s.roce.issued.contains k = false)) ∧
    (accepted 0x0017 f s x = true → passes (mrDeregisterFails f x (seen f s)) = true →
      exec (.mrDeregister f) s = .next (doneOk 0x0017 f [] { seen f s with
        roce := { s.roce with mrs := s.roce.mrs.del (fld p 0 4) } }))

/-- Inbound requests are checked and answered; work requests are taken in ring order, answered, retried and completed. Rests on R48, R49, R51, R56, R57, R181. -/
def Obligations.RoceRequestsAndWork : Prop :=
  (∀ (r : RoceReq) (s : State) (q : Qp), s.qp r.qpn = some q → s.linkUp = true → s.hostActive = true →
    (q.state = .rtr ∨ q.state = .rts) → q.ingress = none → r.psn = q.rqPsn → r.ce = false →
    let leave := fun (a : State) => a.unbufferRoce r.prio (s.framesOf r.prio s.roce.stopped) (s.reqFrames r)
    let moved := { q with rqPsn := (q.rqPsn + psnCount q.mtu r.length) % 2 ^ 24, nakSent := false }
    (∀ s1, r.op = .write → mrGrants s q.ctx r.rkey r.addr r.length 1 = true → Io.exec (memWrite q.ctx r.addr r.data) s = (.ok (), s1) →
      exec (.roceInboundRequest r) s = .next (leave (roceSend (s1.putQp r.qpn moved) r.qpn q 0 (.ack r.psn)))) ∧
    (∀ d s1, r.op = .read → mrGrants s q.ctx r.rkey r.addr r.length 0 = true → Io.exec (memRead q.ctx r.addr r.length) s = (.ok d, s1) →
      exec (.roceInboundRequest r) s = .next (leave (roceSend (s1.putQp r.qpn moved) r.qpn q d.length (.readData r.psn d)))) ∧
    (((r.op = .write ∧ mrGrants s q.ctx r.rkey r.addr r.length 1 = false) ∨ (r.op = .read ∧ mrGrants s q.ctx r.rkey r.addr r.length 0 = false)) →
      ∃ t, exec (.roceInboundRequest r) s = .next t ∧ t = leave (roceSend s r.qpn q 0 (.nakAccess r.psn)) ∧ t.mem = s.mem ∧ t.roce = s.roce) ∧
    (r.op = .other → ∃ t, exec (.roceInboundRequest r) s = .next t ∧ t = leave (roceSend s r.qpn q 0 (.nakInvalid r.psn)) ∧ t.mem = s.mem ∧
      t.roce = s.roce)) ∧
  (∀ (n : Nat) (s : State) (q : Qp), s.qp n = some q → s.hostActive = true →
    (∀ prio, s.linkUp = true → exec (.roceCnpReceive ⟨n, prio⟩) s = .next ((s.leaveBuffer prio 1).putQp n { q with
      rate := q.rateAt s.ctl.now / 2, rateTime := s.ctl.now })) ∧
    (q.state = .rts → q.sqEntries ≠ 0 → q.held = [] → q.destroying = false → s.paused q.prio = false → q.outstanding = [] →
      ∀ b e s1 s2, Io.exec (memRead q.ctx q.prodAddr 4) s = (.ok b, s1) → le b ≠ q.taken →
      Io.exec (memRead q.ctx (q.sqAddr + q.taken % q.sqEntries * 64) 64) s1 = (.ok e, s2) →
      ∀ w v, w = workReq q.taken q.sqPsn e → v = (s2.putQp n { q with
        taken := (q.taken + 1) % 2 ^ 32, outstanding := [w],
        sqPsn := (q.sqPsn + psnCount q.mtu (fld e 0x10 8)) % 2 ^ 24 }).writeDropped q.ctx q.consAddr (leb 4 ((q.taken + 1) % 2 ^ 32)) →
      (badWork e = true → takeFails q w (.ok e) s2 = some (stArg, 0x0F01)) ∧
      (takeFails q w (.ok e) s2 = none → exec (.sqPoll n) s = .next (sendWork n w v)) ∧
      (∀ st d, takeFails q w (.ok e) s2 = some (st, d) → exec (.sqPoll n) s = .next (qpFail n 0 st d v))) ∧
    (∀ w l, q.state = .rts → q.outstanding = w :: l →
      (∀ ce prio, s.linkUp = true →
        (w.opcode ≠ 2 → exec (.roceResponseReceive n ⟨.ack, ce, prio⟩) s = .next ((noticeCe n q ce (s.leaveBuffer prio 1)).putQp n { q with
          outstanding := l, held := q.held ++ w.done w.length stOk 0, retriesLeft := q.retry, rnrLeft := q.rnrRetry })) ∧
        (∀ d s2, w.opcode = 2 → d.length = w.length →
          Io.exec (memWrite q.ctx w.localAddr d) (noticeCe n q ce (s.leaveBuffer prio (psnCount q.mtu d.length))) = (.ok (), s2) →
          exec (.roceResponseReceive n ⟨.readData d, ce, prio⟩) s = .next (s2.putQp n { q with
            outstanding := l, held := q.held ++ w.done w.length stOk 0, retriesLeft := q.retry, rnrLeft := q.rnrRetry })) ∧
        (∀ y ∈ [(RoceResp.nakAccess, 0x0F02), (.nakInvalid, 0x0F03), (.nakOperational, 0x0F06)], ∃ t r,
          exec (.roceResponseReceive n ⟨y.1, ce, prio⟩) s = .next t ∧ t.qp n = some r ∧ r.state = .error ∧ r.outstanding = [] ∧
          (q.held ++ w.done 0 stHw y.2) <+: r.held) ∧
        (q.retriesLeft ≠ 0 → exec (.roceResponseReceive n ⟨.nakSequence, ce, prio⟩) s =
          .next (sendWork n w ((noticeCe n q ce (s.leaveBuffer prio 1)).putQp n { q with retriesLeft := q.retriesLeft - 1 }))) ∧
        (q.rnrRetry ≠ 7 → q.rnrLeft ≠ 0 → exec (.roceResponseReceive n ⟨.rnr, ce, prio⟩) s =
          .next (sendWork n w ((noticeCe n q ce (s.leaveBuffer prio 1)).putQp n { q with rnrLeft := q.rnrLeft - 1 }))) ∧
        (q.rnrRetry ≠ 7 → q.rnrLeft = 0 → ∃ t r, exec (.roceResponseReceive n ⟨.rnr, ce, prio⟩) s = .next t ∧ t.qp n = some r ∧ r.state = .error ∧
          (q.held ++ w.done 0 stHw 0x0F04) <+: r.held)) ∧
      (q.retriesLeft ≠ 0 → exec (.roceAckTimeout n) s = .next (sendWork n w (s.putQp n { q with retriesLeft := q.retriesLeft - 1 }))) ∧
      (q.retriesLeft = 0 → ∃ t r, exec (.roceAckTimeout n) s = .next t ∧ t.qp n = some r ∧ r.state = .error ∧
        (q.held ++ w.done 0 stHw 0x0F04) <+: r.held)) ∧
    (∀ d l f, q.held = d :: l → s.flow q.complFlow = some f → f.full = false → q.destroying = false →
      ((s.mem.contexts.find f.ctx).map Ctx.destroying).getD false = false →
      exec (.qpCompletionEnter n) s = .next ((s.putFlow q.complFlow (f.push
        ⟨padTo 40 (d.body n), 8, n % 2 ^ 16, q.complFlow, f.nextSeq, 0, 0, 0, 0, s.ctl.now⟩)).putQp n { q with held := l })) ∧
    (∀ r, s.roce.stopped.find? (fun y => y.qpn == n) = some r → s.roce.stopped.find? (fun y => y.prio == r.prio) = some r → r.psn = q.rqPsn → r.op = .send →
      r.length = 40 → r.data.length = 40 →
      ∀ fid p f, q.ingress = some (fid, p) → s.flow fid = some f → f.full = false →
      ((s.mem.contexts.find f.ctx).map Ctx.destroying).getD false = false →
      ∃ t y, exec (.ingressQueueResume n) s = .next t ∧ t.qp n = some y ∧ t.roce.stopped = s.roce.stopped.erase r ∧
        y.rqPsn = (q.rqPsn + psnCount q.mtu 40) % 2 ^ 24 ∧
        t.flow fid = some (f.push ⟨padTo 40 r.data, 0, n % 2 ^ 16, fid, f.nextSeq, 0, 0, 0, 0, s.ctl.now⟩)))

/-- FLOW_CREATE, FLOW_DESTROY, FLOW_BIND_INGRESS and FLOW_STATS make, remove, bind and report flows. Rests on R163, R168, R169, R170, R180, R188. -/
def Obligations.FlowCommandsAndStatistics : Prop :=
  ∀ (f : Frame) (s : State) (x : Session), let p := f.payload
    (accepted 0x0300 f s x = true → passes (flowCreateFails (seen f s) x.ctx p) = true →
      ∀ sl, sl = (if fld p 3 1 = 0xFF then s.freeSlice else fld p 3 1) → (∃ i, i < 2048 ∧ s.disp.flows.find (2048 * sl + i) = none) →
      ∃ (idx : Nat) (fl : Flow) (u : State), exec (.flowCreate f) s = .next (doneOk 0x0300 f (leb 4 (mkFid (s.disp.gens.at 0 idx) idx) ++ zeros 4) u) ∧
        2048 * sl ≤ idx ∧ idx < 2048 * sl + 2048 ∧ s.disp.flows.find idx = none ∧ u.disp.flows.find idx = some fl ∧
        fl.gen = s.disp.gens.at 0 idx ∧ fl.ctx = x.ctx ∧ fl.ordered = (fld p 0 1 == 1) ∧ fl.cls = fld p 1 1 ∧ fl.complKind = fld p 2 1 ∧
        fl.complFlow = fld p 8 4 ∧ fl.slice = sl ∧ fl.capacity = fld p 4 4 ∧ fl.starveUs = fld p 0xC 4 ∧ fl.ringAddr = fld p 0x10 8 ∧
        fl.ringEntries = fld p 0x18 4 ∧ fl.consAddr = fld p 0x20 8 ∧ fl.ready = [] ∧ fl.out = [] ∧ fl.nextSeq = 0 ∧
        u.disp.gens.find idx = some ((s.disp.gens.at 0 idx + 1) % 4096) ∧
        (∀ k, k ≠ idx → u.disp.flows.find k = s.disp.flows.find k) ∧ { u with disp := s.disp } = seen f s) ∧
    (accepted 0x0301 f s x = true → passes (flowDestroyFails f x (seen f s)) = true →
      exec (.flowDestroy f) s = .next (doneOk 0x0301 f [] { seen f s with
        disp := { s.disp with flows := s.disp.flows.del (fidIndex (fld p 0 4)) } })) ∧
    (accepted 0x0302 f s x = true → passes (bindIngressFails f x (seen f s)) = true → ∀ q, s.qp (fld p 4 4) = some q →
      (fld p 9 1 = 0 → exec (.flowBindIngress f) s = .next (doneOk 0x0302 f []
        ((seen f s).putQp (fld p 4 4) { q with ingress := some (fld p 0 4, fld p 8 1) }))) ∧
      (fld p 9 1 = 1 → s.roce.stopped.any (fun r => r.qpn == fld p 4 4) = true → exec (.flowBindIngress f) s = .next (frameInFlight f 0x0302 (.unbind (fld p 4 4)) (seen f s))) ∧
      (fld p 9 1 = 1 → s.roce.stopped.any (fun r => r.qpn == fld p 4 4) = false → exec (.flowBindIngress f) s = .next
        (((frameInFlight f 0x0302 (.unbind (fld p 4 4)) (seen f s)).putQp (fld p 4 4) { q with ingress := none }).finishAll (.unbind (fld p 4 4)) stOk []))) ∧
    (accepted 0x0304 f s x = true → p.length = 8 → fidKind (fld p 0 4) ≤ 1 → fld p 4 4 ≤ 1 →
      (fidKind (fld p 0 4) = 1 → x.priv = true) → ∀ y, s.flow (fld p 0 4) = some y → (fidKind (fld p 0 4) ≠ 1 → y.ctx = x.ctx) →
      exec (.flowStats f) s = .next (doneOk 0x0304 f y.stats (if fld p 4 4 = 1 then
        (seen f s).putFlow (fld p 0 4) { y with maxDepth := y.ready.length, hist := List.replicate 16 0 } else seen f s)))

/-- GRAPH_SUBMIT copies its graph and makes the nodes without predecessors ready; CANCEL skips what has not been handed out. Rests on R183, R184, R186, R187. -/
def Obligations.GraphsStartAndCancel : Prop :=
  ∀ (f : Frame) (s : State) (x : Session), let p := f.payload; let q := fld p 0 1; let n := fld p 4 4
    accepted 0x0303 f s x = true → passes (graphFails (seen f s) p) = true →
    (bit (fld p 1 1) 1 = false → ∀ a b s1 s2, Io.exec (memRead 0 (fld p 8 8) (64 * n)) (seen f s) = (.ok a, s1) →
      Io.exec (memRead 0 (fld p 0x10 8) (4 * fld p 0x18 4)) s1 = (.ok b, s2) →
      exec (.graphSubmit f) s = .next (graphStart q n (frameInFlight f 0x0303 (.graph q)
        { s2 with disp := { s2.disp with graphs := s2.disp.graphs.put q (graphOf (bit (fld p 1 1) 0) n a b) } }))) ∧
    (bit (fld p 1 1) 1 = true → ∀ g, s.disp.graphs.find q = some g → s.canFinish = true → ∃ t, exec (.graphCancel f) s = .next t ∧
      (∀ y, t.flow (0x1000_0000 + q) = some y → ∀ i ∈ y.ready, i.srcKind ≠ 7) ∧
      (g.nodes.any (fun m => m.state == .held) = true → ∃ h, t.disp.graphs.find q = some h ∧ h.cancelled = true ∧
        h.nodes.all (fun m => m.state == .held || m.state == .done || m.state == .failed || m.state == .skipped) = true) ∧
      (g.nodes.any (fun m => m.state == .held) = false → t.disp.graphs.find q = none))

/-- A slice promotes a starving flow, releases held completions once there is room, and discards a descriptor with a parity error. Rests on R173, R175, R176, R177, R178, R190, R193. -/
def Obligations.DispatcherSlicesByThemselves : Prop :=
  (∀ (fid : Nat) (s : State) (f : Flow), s.flow fid = some f → s.active (unitSlice f.slice) = true →
    (∀ i l, f.ready = i :: l → f.starveUs ≠ 0 → f.starveUs * 100 < s.ctl.now - i.entered →
      exec (.starvePromotion fid) s = .next (s.putFlow fid { f with promoted := true })) ∧
    (∀ h g, f.out = [h] → f.nextRelease = some h → f.complKind = 2 → h.hw = false → h.early = false → s.flow f.complFlow = some g → g.full = false →
      fid ≠ f.complFlow → fidKind fid = 0 → fidKind f.complFlow = 0 → fidIndex fid ≠ fidIndex f.complFlow →
      ((s.mem.contexts.find g.ctx).map Ctx.destroying).getD false = false →
      ∃ t y, exec (.completionReleaseResume fid) s = .next t ∧ t.flow fid = some y ∧ y.out = [] ∧ y.released = f.released + 1 ∧
        y.ready = f.ready ∧ t.flow f.complFlow = some (g.push ⟨padTo 40 h.item.body, 6, fidIndex fid, f.complFlow, g.nextSeq, h.item.status,
          h.item.fpflags, setBit h.item.cflags 0, 0, s.ctl.now⟩)) ∧
    (∀ h b s1 s2, f.out = [h] → f.nextRelease = some h → f.complKind = 1 → h.early = false → fidKind fid = 0 →
      Io.exec (memRead f.ctx f.consAddr 4) s = (.ok b, s1) → (f.ringCount + 2 ^ 32 - le b) % 2 ^ 32 ≠ f.ringEntries →
      Io.exec (memWrite f.ctx (f.ringAddr + (f.ringCount % f.ringEntries) * 32) (complRecord f h)) s1 = (.ok (), s2) →
      s2.disp = s.disp → ∃ t y, exec (.complRingPoll fid) s = .next t ∧ t.flow fid = some y ∧ y.out = [] ∧ y.released = f.released + 1 ∧
        y.ringCount = f.ringCount + 1 ∧ y.cons = le b ∧ t.mem = s2.mem) ∧
    (∀ k i, f.ready[k]? = some i → fidKind fid = 0 →
      let g := { f with ready := f.ready.eraseIdx k, hwDiscards := sat32 f.hwDiscards 1 }
      ∃ t, exec (.descriptorParityError fid k) s = .next t ∧ (t.detector (detId 7 (unitSlice f.slice))).fired = true ∧ t.mem = s.mem ∧
        (f.ordered = false → t.flow fid = some (Flow.settle g)) ∧
        (f.ordered = true → f.nextRelease = none → i.seq ≠ f.oldest → t.flow fid = some { g with
          out := insertBy (fun a b => a.item.seq ≤ b.item.seq)
            ⟨{ i with status := stHw, fpflags := 0, cflags := 0 }, 0, s.ctl.now, true, 0, true, true⟩ f.out }))) ∧
  (∀ (c : Fin 32) (k : Fin 16) (s : State), s.ctl.fabricOn = true → s.ctl.refclk = true → s.pods.pods.sorted = true →
    let p := 16 * c.val + k.val
    let len := s.ctl.now - s.winStart p
    let held := (s.pod p).busyTime + if s.holders p = 0 then 0 else s.ctl.now - max (s.pod p).busyFrom (s.winStart p)
    busyWindow s.clkMode ≤ len → s.winStart p ≤ s.ctl.now → ∃ t, exec (.podBusyWindow c k) s = .next t ∧
      t.pod p = { s.pod p with
        busy := if s.allQuarantined p then 0 else BitVec.ofNat 16 (min 0xFFFF (held * 65536 / len))
        busyValid := true, held := s.holders p, winFrom := s.ctl.now, busyTime := 0 } ∧ { t with pods := s.pods } = s)

/-- Scalar instructions, branches and jumps that issue write their register and move the PC as their tables say. Rests on R89, R94, R95, R96, R100, R102, R103, R104, R105. -/
def Obligations.ScalarInstructionsComplete : Prop :=
  (∀ (t : Fin 8192) (w : Insn) (s : State), let th := s.thread t; let a := th.rs (insA w); let d := insD w
    (issues rowSalu t w s = true → ∀ b : Word64, b = (if insX w then w.ext.signExtend 64 else th.rs (insB w)) →
      ∃ v : Word64, exec (.salu t w) s = .next (retiredNext rowSalu t w s (fun y => y.ws d v)) ∧
        (insT w = 0 → (insF w = 0 → v = a + b) ∧ (insF w = 1 → v = a - b) ∧ (insF w = 2 → v = a &&& b) ∧ (insF w = 3 → v = a ||| b) ∧
          (insF w = 4 → v = a ^^^ b) ∧ (insF w = 5 → v = a <<< (b.toNat % 64)) ∧ (insF w = 6 → v = a >>> (b.toNat % 64)) ∧
          (insF w = 7 → v = a.sshiftRight (b.toNat % 64)) ∧ (insF w = 8 → v = a * b) ∧
          (insF w = 9 → v = BitVec.ofNat 64 (a.toNat * b.toNat / 2 ^ 64)) ∧
          (insF w = 10 → v = if b = 0 then BitVec.allOnes 64 else a / b) ∧ (insF w = 11 → v = if b = 0 then a else a % b) ∧
          (insF w = 12 → v = if b = 0 then BitVec.allOnes 64 else a.sdiv b) ∧ (insF w = 13 → v = if b = 0 then a else a.srem b) ∧
          (insF w = 14 → v = if a.slt b then 1 else 0) ∧ (insF w = 15 → v = if a.ult b then 1 else 0)) ∧
        (insT w = 1 → (insF w = 0 → v = ((a + b).setWidth 32).signExtend 64) ∧ (insF w = 1 → v = ((a - b).setWidth 32).signExtend 64) ∧
          (insF w = 5 → v = ((a.setWidth 32) <<< (b.toNat % 32)).signExtend 64) ∧ (insF w = 8 → v = ((a * b).setWidth 32).signExtend 64))) ∧
    (issues rowAddi t w s = true → ∀ b : Word64, b = (if insX w then w.ext.signExtend 64 else (BitVec.ofNat 15 (insImm w)).signExtend 64) →
      ∃ v : Word64, exec (.addi t w) s = .next (retiredNext rowAddi t w s (fun y => y.ws d v)) ∧
        (insMajor w = 2 → v = a + b) ∧ (insMajor w = 3 → v = a &&& b) ∧ (insMajor w = 4 → v = a ||| b) ∧ (insMajor w = 5 → v = a ^^^ b)) ∧
    (issues rowShi t w s = true → ∃ v : Word64, exec (.shi t w) s = .next (retiredNext rowShi t w s (fun y => y.ws d v)) ∧
        (bits (insImm w) 7 6 = 0 → v = a <<< bits (insImm w) 5 0) ∧ (bits (insImm w) 7 6 = 1 → v = a >>> bits (insImm w) 5 0) ∧
        (bits (insImm w) 7 6 = 2 → v = a.sshiftRight (bits (insImm w) 5 0))) ∧
    (issues rowLih t w s = true → exec (.lih t w) s = .next (retiredNext rowLih t w s (fun y => y.ws d (w.ext ++ (th.rs d).setWidth 32)))) ∧
    (issues rowSfp t w s = true → exec (.sfp t w) s = .next (retiredNext rowSfp t w s (fun y =>
      (y.ws d (BitVec.ofNat 64 (sfpOp w a (th.rs (insB w))).val)).raise (sfpOp w a (th.rs (insB w))).fl)))) ∧
  (∀ (t : Fin 8192) (w : Insn) (s : State), let th := s.thread t
    (issues rowBr t w s = true → exec (.br t w) s = .next ((fetched t s).modThread t (fun y => { y.overwrite [] th.nextOrder with
        pc := if brTaken w th then target th.pc (if insX w then w.ext.toInt else signed 12 (insOff12 w)) else nextPc w th.pc }))) ∧
    (∀ a b, a = th.rs (insBrA w) → b = th.rs (insBrB w) → (insC w = 0 → brTaken w th = (a == b)) ∧ (insC w = 1 → brTaken w th = (a != b)) ∧
      (insC w = 2 → brTaken w th = a.slt b) ∧ (insC w = 3 → brTaken w th = !a.slt b) ∧ (insC w = 4 → brTaken w th = a.ult b) ∧
      (insC w = 5 → brTaken w th = !a.ult b) ∧ (insC w = 6 → brTaken w th = (th.rm (insBrA w) != 0)) ∧
      (insC w = 7 → brTaken w th = (th.rm (insBrA w) == 0))) ∧
    (issues rowJal t w s = true → exec (.jal t w) s = .next (retired rowJal t w (target th.pc (if insX w then w.ext.toInt else signed 20 (insOff20 w)))
      s (fun y => y.ws (insD w) (BitVec.ofNat 64 (nextPc w th.pc))))) ∧
    (issues rowJalr t w s = true → exec (.jalr t w) s = .next (retired rowJalr t w
      ((th.rs (insA w) + (if insX w then w.ext.signExtend 64 else (BitVec.ofNat 15 (insImm w)).signExtend 64)).toNat / 4 * 4)
      s (fun y => y.ws (insD w) (BitVec.ofNat 64 (nextPc w th.pc)))))) ∧
  (∀ (th : Thread) (v : Word64), th.ws 0 v = th ∧ th.rs 0 = 0)

/-- Vector and mask instructions that issue write their destination as the tables of R106 to R113 and R119 say. Rests on R97, R98, R99, R106, R107, R108, R109, R110, R111, R112, R113, R119. -/
def Obligations.VectorInstructionsComplete : Prop :=
  ∀ (t : Fin 8192) (w : Insn) (s : State), let th := s.thread t; let d := insD w; let m := insM w; let a := elem (th.rv (insA w)); let b := bOperand w th
    let sa := th.rs (insA w); let sb := th.rs (insB w); let act := th.active m
    (issues rowVint t w s = true → ∃ g : Nat → Word, exec (.vint t w) s = .next (retiredNext rowVint t w s (fun y => y.wv d (mkVec g))) ∧
      (∀ i, insF w = 15 → g i = if th.on m i then a i else b i) ∧
      (∀ i, insF w ≠ 15 → th.on m i = false → g i = elem (th.rv d) i) ∧
      (∀ i, th.on m i = true → (insF w = 0 → g i = a i + b i) ∧ (insF w = 1 → g i = a i - b i) ∧ (insF w = 2 → g i = a i * b i) ∧
        (insF w = 3 → g i = a i &&& b i) ∧ (insF w = 4 → g i = a i ||| b i) ∧ (insF w = 5 → g i = a i ^^^ b i) ∧
        (insF w = 6 → g i = a i <<< ((b i).toNat % 32)) ∧ (insF w = 7 → g i = a i >>> ((b i).toNat % 32)) ∧
        (insF w = 8 → g i = (a i).sshiftRight ((b i).toNat % 32)) ∧ (insF w = 9 → g i = if (b i).slt (a i) then b i else a i) ∧
        (insF w = 10 → g i = if (a i).slt (b i) then b i else a i) ∧ (insF w = 11 → g i = if (b i).ult (a i) then b i else a i) ∧
        (insF w = 12 → g i = if (a i).ult (b i) then b i else a i) ∧ (insF w = 13 → g i = if (a i).slt 0 then -a i else a i) ∧
        (insF w = 14 → g i = BitVec.ofNat 32 ((a i).toNat * (b i).toNat / 2 ^ 32)))) ∧
    (issues rowVflt t w s = true → ∀ n fm, (insT w = 1 → n = 32 ∧ fm = fp32) → (insT w = 2 → n = 16 ∧ fm = bf16) → (insT w = 3 → n = 16 ∧ fm = fp16) →
      ∃ r : Nat → Nat → FRes, exec (.vflt t w) s = .next (retiredNext rowVflt t w s (fun y => y.maskedFl m d (fun i =>
        (packElem n ((List.range (32 / n)).map (fun j => (r i j).val)), allFlags ((List.range (32 / n)).map (r i)))))) ∧
      ∀ i j x y z, x = subElem n (a i) j → y = subElem n (b i) j → z = subElem n (elem (th.rv d) i) j →
        (insF w = 0 → r i j = fm.add x y) ∧ (insF w = 1 → r i j = fm.sub x y) ∧ (insF w = 2 → r i j = fm.mul x y) ∧ (insF w = 3 → r i j = fm.fma x y z) ∧
        (insF w = 4 → r i j = ⟨fm.minmax false x y, 0⟩) ∧ (insF w = 5 → r i j = ⟨fm.minmax true x y, 0⟩) ∧ (insF w = 6 → r i j = fm.rcp x) ∧
        (insF w = 7 → r i j = fm.sqrt x) ∧ (insF w = 8 → r i j = fm.log1p x) ∧ (insF w = 9 → r i j = fm.exp x)) ∧
    (issues rowVdot t w s = true → ∃ r : Nat → Word × Nat, exec (.vdot t w) s = .next (retiredNext rowVdot t w s (fun y => y.maskedFl m d r)) ∧
      (∀ i n, (insT w = 4 → n = 8) → (insT w = 7 → n = 4) → insT w = 4 ∨ insT w = 7 → ∀ v : Nat → Int, v = (fun x => if insF w = 0 then signed n x else (x : Int)) →
        r i = (BitVec.ofInt 32 ((elem (th.rv d) i).toInt +
          ((List.range (32 / n)).map (fun j => v (subElem n (a i) j) * v (subElem n (elem (th.rv (insB w)) i) j))).sum), 0)) ∧
      (∀ i n fm, (insT w = 2 → n = 16 ∧ fm = bf16) → (insT w = 3 → n = 16 ∧ fm = fp16) → (insT w = 5 → n = 8 ∧ fm = e4m3) → (insT w = 6 → n = 8 ∧ fm = e5m2) →
        insT w ≠ 4 → insT w ≠ 7 → ∀ x, x = fp32.sumProducts ((List.range (32 / n)).map (fun j => (fm.decode (subElem n (a i) j),
          fm.decode (subElem n (elem (th.rv (insB w)) i) j)))) [fp32.decode (elem (th.rv d) i).toNat] → r i = (BitVec.ofNat 32 x.val, x.fl))) ∧
    (issues rowVcvt t w s = true → let src := cvtFmt (insF w); let dst := cvtFmt (insT w); let g := insB w / 4
      let stoch := bit (insB w) 0 && cvtMayRound src dst; let q := nth act 0
      ∃ (gen : Nat → Word) (y : Nat → FRes), gen 0 = s.podGen (podOf t) ∧
        (∀ k, gen (k + 1) = if stoch then genStep (gen k) else gen k) ∧
        (∀ k, y k = cvtValue src dst (if stoch then .stoch ((gen (k + 1)).toNat % 2 ^ 16) else .near) (bit (insB w) 1)
          (cvtGet src (th.rv (insA w)) (if src.count = 1 then q k else 64 * g + q k))) ∧
        exec (.vcvt t w) s = .next (ended rowVcvt t w (nextPc w th.pc) s
          ((if stoch then (fetched t s).modPod (podOf t) (fun p => { p with gen := some (gen act.length) }) else fetched t s).modThread t (fun z =>
            (z.wv d ((List.range act.length).foldl (fun v k => cvtPut dst v (if dst.count = 1 then q k else 64 * g + q k) (y k).val) (th.rv d))).raise
              ((List.range act.length).foldl (fun f k => f ||| (y k).fl) 0))))) ∧
    (issues rowVperm t w s = true → ∀ g : Thread → Thread,
      (insF w = 0 → g = fun y => y.masked m d (fun i => a ((elem (th.rv (insB w)) i).toNat % 64))) →
      (insF w = 1 → g = fun y => y.ws d ((a (sb.toNat % 64)).setWidth 64)) →
      (insF w = 2 → g = fun y => y.wv d ((th.rv d).set (sb.toNat % 64) (sa.setWidth 32))) →
      (insF w = 3 → g = fun y => y.masked m d (fun i => if i + sb.toNat ≤ 63 then a (i + sb.toNat) else 0)) →
      (insF w = 4 → g = fun y => y.masked m d (fun i => BitVec.ofNat 32 i)) →
      (insF w = 5 → g = fun y => y.wv d (mkVec (fun i => if i < act.length then a (nth act 0 i) else 0))) →
      (insF w = 6 → g = fun y => y.masked m d (fun _ => sa.setWidth 32)) →
      exec (.vperm t w) s = .next (retiredNext rowVperm t w s g)) ∧
    (issues rowVcmp t w s = true → ∃ v : Word64, exec (.vcmp t w) s = .next (retiredNext rowVcmp t w s (fun y => (y.wm d v).raise
        (if (insF w == 7 || insF w == 8) && act.any (fun i => fp32.unord (a i).toNat (b i).toNat) then flNV else 0))) ∧
      (∀ i, i < 64 → th.on m i = false → v.getLsbD i = false) ∧
      (∀ i, i < 64 → th.on m i = true → (insF w = 0 → v.getLsbD i = (a i == b i)) ∧ (insF w = 1 → v.getLsbD i = (a i != b i)) ∧
        (insF w = 2 → v.getLsbD i = (a i).slt (b i)) ∧ (insF w = 3 → v.getLsbD i = !(b i).slt (a i)) ∧ (insF w = 4 → v.getLsbD i = (a i).ult (b i)) ∧
        (insF w = 5 → v.getLsbD i = !(b i).ult (a i)) ∧ (insF w = 6 → v.getLsbD i = fp32.feq (a i).toNat (b i).toNat) ∧
        (insF w = 7 → v.getLsbD i = fp32.lt (a i).toNat (b i).toNat) ∧ (insF w = 8 → v.getLsbD i = fp32.le (a i).toNat (b i).toNat) ∧
        (insF w = 9 → v.getLsbD i = fp32.unord (a i).toNat (b i).toNat))) ∧
    (issues rowVred t w s = true →
      (act = [] → exec (.vred t w) s = .next (retiredNext rowVred t w s (fun y => y.ws d
        (if insT w = 1 ∧ insF w ≠ 0 then BitVec.ofNat 64 fp32.nan else 0)))) ∧
      (∀ x l, act.map a = x :: l → insT w = 0 → ∀ op : Word → Word → Word, (insF w = 0 → op = (· + ·)) →
        (insF w = 1 → op = fun r y => if y.slt r then y else r) → (insF w = 2 → op = fun r y => if r.slt y then y else r) →
        exec (.vred t w) s = .next (retiredNext rowVred t w s (fun y => y.ws d ((l.foldl op x).signExtend 64)))) ∧
      (∀ x l, act.map a = x :: l → insT w = 1 → ∀ op : FRes → Word → FRes,
        (insF w = 0 → op = fun r y => ⟨(fp32.add r.val y.toNat).val, r.fl ||| (fp32.add r.val y.toNat).fl⟩) →
        (insF w = 1 → op = fun r y => ⟨fp32.minmax false r.val y.toNat, r.fl⟩) → (insF w = 2 → op = fun r y => ⟨fp32.minmax true r.val y.toNat, r.fl⟩) →
        ∀ r, r = l.foldl op ⟨x.toNat, 0⟩ → exec (.vred t w) s = .next (retiredNext rowVred t w s (fun y =>
          (y.ws d (BitVec.ofNat 64 (if fp32.isNan r.val then fp32.nan else r.val))).raise r.fl)))) ∧
    (issues rowMask t w s = true → ∀ g : Thread → Thread, let ma := th.rm (insA w); let mb := th.rm (insB w)
      (insF w = 0 → g = fun y => y.wm d (ma &&& mb)) → (insF w = 1 → g = fun y => y.wm d (ma ||| mb)) → (insF w = 2 → g = fun y => y.wm d (ma ^^^ mb)) →
      (insF w = 3 → g = fun y => y.wm d (ma &&& ~~~ mb)) → (insF w = 4 → g = fun y => y.wm d (~~~ ma)) →
      (insF w = 5 → g = fun y => y.ws d (BitVec.ofNat 64 ((List.range 64).countP ma.getLsbD))) →
      (insF w = 6 → g = fun y => y.ws d (BitVec.ofNat 64 (((List.range 64).find? ma.getLsbD).getD 64))) →
      (insF w = 7 → g = fun y => y.ws d ma) → (insF w = 8 → g = fun y => y.wm d sa) →
      exec (.mask t w) s = .next (retiredNext rowMask t w s g)) ∧
    (issues rowVhash t w s = true → ∀ h : Nat → Word64, h = (fun i => hashFn (insF w) (leb 4 (a i).toNat ++
        if insT w = 0 then [] else leb 4 (elem (th.rv (insA w + 1)) i).toNat) sb (if insF w = 3 then th.rs (insB w + 1) else 0)) →
      (insF w = 0 → exec (.vhash t w) s = .next (retiredNext rowVhash t w s (fun y => y.masked m d (fun i => (h i).setWidth 32)))) ∧
      (insF w ≠ 0 → exec (.vhash t w) s = .next (retiredNext rowVhash t w s (fun y =>
        (y.masked m d (fun i => (h i).setWidth 32)).masked m (d + 1) (fun i => (h i >>> 32).setWidth 32))))) ∧
    (th.rm 0 = BitVec.allOnes 64 ∧ ∀ v, th.wm 0 v = th)

/-- VSORT, VMERGE and VTOPK write what the sort network gives of the active pairs, and occupy it. Rests on R121, R297, R298, R299, R300, R301, R302. -/
def Obligations.SortInstructionsComplete : Prop :=
  ∀ (t : Fin 8192) (w : Insn) (s : State), let th := s.thread t; let desc := insF w % 2 == 1; let p := podOf t; let v := fetched t s; let d := insD w
    let busy := fun (n k : Nat) => { v.modPod p (fun x => { x with sortBeats := n }) with free := v.free + 2 * k }
    ((v.pod p).sortBeats = 0 →
      (issues rowVsort t w s = true → ∀ on, on = netSort (sortKey w) desc (th.pairsOn (insA w) (insM w)) → ∃ l : List (Word × Word),
        on.length + l.length = 64 ∧ exec (.vsort t w) s = .next (ended rowVsort t w (nextPc w th.pc) s
          ((busy 16 l.length).modThread t (fun y => (y.wv d ((on ++ l).map Prod.fst)).wv (d + 1) ((on ++ l).map Prod.snd))))) ∧
      (issues rowVmerge t w s = true → ∀ a b on, a = th.pairsOn (insA w) (insM w) → b = th.pairsOn (insB w) (insM w ^^^ 1) →
        on = (if netSort (sortKey w) desc a = a ∧ netSort (sortKey w) desc b = b then netSort (sortKey w) desc (a ++ b) else []) → ∃ l : List (Word × Word),
        on.length + l.length = 128 ∧ exec (.vmerge t w) s = .next (ended rowVmerge t w (nextPc w th.pc) s ((busy 16 l.length).modThread t (fun y =>
          (((y.wv d (((on ++ l).take 64).map Prod.fst)).wv (d + 1) (((on ++ l).take 64).map Prod.snd)).wv (d + 2)
            (((on ++ l).drop 64).map Prod.fst)).wv (d + 3) (((on ++ l).drop 64).map Prod.snd))))) ∧
      (issues rowVtopk t w s = true → ∀ r, r = netTopk (sortKey w) desc (th.pairs d) (th.pairsOn (insA w) (insM w)) →
        ∃ l : List (Word × Word), l.length = 64 ∧ (∀ b, r = some b → l = b) ∧ exec (.vtopk t w) s = .next (ended rowVtopk t w (nextPc w th.pc) s
          ((busy 8 (if r.isSome then 0 else 64)).modThread t (fun y => (y.wv d (l.map Prod.fst)).wv (d + 1) (l.map Prod.snd)))))) ∧
    ((v.pod p).sortBeats ≠ 0 → ∀ c, (c = .vsort t w ∧ issues rowVsort t w s = true) ∨ (c = .vmerge t w ∧ issues rowVmerge t w s = true) ∨
        (c = .vtopk t w ∧ issues rowVtopk t w s = true) →
      exec c s = .next (v.modThread t (fun y => { y with st := .blocked .sort })))

/-- Memory instructions that issue take a load slot or become outstanding stores; those refused fault. Rests on R93, R114, R115, R116, R117, R118, R120, R131. -/
def Obligations.PodMemoryInstructionsComplete : Prop :=
  ∀ (t : Fin 8192) (w : Insn) (s : State), let th := s.thread t; let c := s.ctxOf t; let a := (th.rs (insA w)).toNat
    (∀ x n, x = (th.rs (insA w) + BitVec.ofInt 64 (if insX w then w.ext.toInt else signed 15 (insImm w))).toNat → n = 2 ^ (insMajor w % 4) →
      (issues rowLd t w s = true → allowed c .r n [x] s = true → roomFor t 1 s = true →
        exec (.ld t w) s = .next (retiredNext rowLd t w s (Thread.loaded (.scalar (insD w) n x) 1))) ∧
      (issues rowSt t w s = true → allowed c .w n [x] s = true → exec (.st t w) s = .next (retiredNext rowSt t w s (fun y =>
        { y with stores := y.stores ++ [⟨y.nextOrder, y.pc, [(x, leb n (th.rs (insD w)).toNat)]⟩], nextOrder := y.nextOrder + 1, lock := none })))) ∧
    (∀ l, l = (th.active (insM w)).map (fun i => (i, vldAddr th w i)) →
      (issues rowVld t w s = true → allowed c .r 4 (l.map Prod.snd) s = true → roomFor t (distinctBlocks (l.map Prod.snd)) s = true →
        exec (.vld t w) s = .next (retiredNext rowVld t w s (Thread.loaded (.vector (insD w) l) (distinctBlocks (l.map Prod.snd))))) ∧
      (issues rowVst t w s = true → allowed c .w 4 (l.map Prod.snd) s = true → exec (.vst t w) s = .next (retiredNext rowVst t w s (fun y =>
        { y with stores := y.stores ++ [⟨y.nextOrder, y.pc, l.map (fun p => (p.2, leb 4 (elem (th.rv (insD w)) p.1).toNat))⟩],
                 nextOrder := y.nextOrder + 1, lock := none })))) ∧
    (∀ i, vldAddr th w i = (if insF w = 0 then (th.rs (insA w) + BitVec.ofNat 64 (4 * i)).toNat
      else if insF w = 1 then (th.rs (insA w) + BitVec.ofNat 64 i * th.rs (insB w)).toNat
      else if insF w = 2 then (th.rs (insA w) + (elem (th.rv (insB w)) i).setWidth 64).toNat else a)) ∧
    (issues rowAtom t w s = true → insF w ≤ 5 → ∀ n, n = (if insT w = 0 then 8 else 4) → allowed c .rw n [a] s = true → roomFor t 1 s = true →
      exec (.atom t w) s = .next (retiredNext rowAtom t w s
        (Thread.loaded (.atomic (insF w) (insD w) n a (th.rs (insB w)).toNat (th.rs (insD w)).toNat) 1))) ∧
    (issues rowAtom t w s = true → 5 < insF w → ∀ l, l = (th.active (insM w)).map (fun i =>
        ((th.rs (insA w) + (elem (th.rv (insB w)) i).setWidth 64).toNat, (elem (th.rv (insD w)) i).toNat)) →
      allowed c .rw 4 (l.map Prod.fst) s = true → roomFor t (distinctBlocks (l.map Prod.fst)) s = true →
      exec (.atom t w) s = .next (retiredNext rowAtom t w s (Thread.loaded (.vatomic (insF w == 7) l) (distinctBlocks (l.map Prod.fst))))) ∧
    (issues rowFence t w s = true → th.occupied = [] → s.memFrozen = false → ∀ u, (fetched t s).drainStores t = (none, u) →
      exec (.fence t w) s = .next (u.modThread t (fun y => { y.overwrite [] th.nextOrder with pc := nextPc w th.pc }))) ∧
    (issues rowHashs t w s = true → ∀ n, n = (th.rs (insB w)).toNat → n ≤ 65536 → allowed c .r 1 ((blocks64 a n).map Prod.fst) s = true →
      roomFor t (min 8 (blocks64 a n).length) s = true → exec (.hashs t w) s = .next (retiredNext rowHashs t w s
        (Thread.loaded (.hashs (insF w) (insD w) a n (th.rs (insD w)).toNat (if insF w = 3 then (th.rs (insD w + 1)).toNat else 0) [])
          (min 8 (blocks64 a n).length)))) ∧
    (issues rowHashs t w s = true → 65536 < (th.rs (insB w)).toNat → exec (.hashs t w) s = .next ((fetched t s).fault t th.pc 0 ⟨stRange, 6, 0xFFFF, 0⟩)) ∧
    (∀ (i : Instr) (r : Row) (n : Need) (size k : Nat) (l : List Nat), let x := (th.rs (insA w) + BitVec.ofInt 64 (if insX w then w.ext.toInt else signed 15 (insImm w))).toNat
      let scat := (th.active (insM w)).map (fun i => (th.rs (insA w) + (elem (th.rv (insB w)) i).setWidth 64).toNat)
      let el := (th.active (insM w)).map (vldAddr th w); let bl := (blocks64 a (th.rs (insB w)).toNat).map Prod.fst
      (i = .ld t w ∧ r = rowLd ∧ n = .r ∧ size = 2 ^ (insMajor w % 4) ∧ l = [x] ∧ k = 1) ∨
      (i = .st t w ∧ r = rowSt ∧ n = .w ∧ size = 2 ^ (insMajor w % 4) ∧ l = [x] ∧ k = 0) ∨
      (i = .vld t w ∧ r = rowVld ∧ n = .r ∧ size = 4 ∧ l = el ∧ k = distinctBlocks el) ∨ (i = .vst t w ∧ r = rowVst ∧ n = .w ∧ size = 4 ∧ l = el ∧ k = 0) ∨
      (i = .atom t w ∧ r = rowAtom ∧ n = .rw ∧ insF w ≤ 5 ∧ size = (if insT w = 0 then 8 else 4) ∧ l = [a] ∧ k = 1) ∨
      (i = .atom t w ∧ r = rowAtom ∧ n = .rw ∧ 5 < insF w ∧ size = 4 ∧ l = scat ∧ k = distinctBlocks scat) ∨
      (i = .hashs t w ∧ r = rowHashs ∧ n = .r ∧ (th.rs (insB w)).toNat ≤ 65536 ∧ size = 1 ∧ l = bl ∧ k = min 8 bl.length) →
      issues r t w s = true →
      (∀ va e l1 l2, l = l1 ++ va :: l2 → allowed c n size l1 s = true → atu s c va n = .error e →
        exec i s = .next (((fetched t s).countRefused c e).fault t th.pc va ⟨e, n.detail, 0xFFFF, 0⟩)) ∧
      (∀ va p l1 l2, l = l1 ++ va :: l2 → allowed c n size l1 s = true → atu s c va n = .ok p → va % size ≠ 0 →
        exec i s = .next ((fetched t s).fault t th.pc va ⟨stAlign, 5, 0xFFFF, 0⟩)) ∧
      (i ≠ .st t w → i ≠ .vst t w → allowed c n size l s = true → (th.freeSlot = none → exec i s = .next ((fetched t s).block t .loadSlot)) ∧
        (th.freeSlot.isSome = true → 128 < s.trackerUsed (podOf t) + k → exec i s = .next ((fetched t s).block t .tracker))))

/-- LOAD_COMPLETE gives a ready slot its result, or its next group of bytes; STORE_COMPLETE puts a store's bytes in memory and no others. Rests on R93, R116, R117, R118, R120, R132. -/
def Obligations.LoadsAndStoresReachMemory : Prop :=
  (∀ (t : Fin 8192) (k : Fin 8) (s : State), let th := s.thread t; let c := s.ctxOf t
    (∀ x s1 s2, s.active (podOf t) = true → th.st ≠ .blocked .faulted → nth th.slots none k = some x → th.slotReady x = true →
      (∀ r ∈ x.op.ranges, s.heldRange c r.1 r.2 = false) → x.op.group ≤ x.tracker → s.drainStores t (th.storesBefore x) = (none, s1) →
      (∀ g, x.op.land c s1 = .done g s2 → exec (.loadComplete t k .clean) s = .next ((s2.modThread t (fun y =>
        Thread.wakeLoad { g y with slots := y.slots.set k none })).wakePod (podOf t))) ∧
      (∀ o, x.op.land c s1 = .more o s2 → exec (.loadComplete t k .clean) s = .next ((takeGroup t k (s2.modThread t (fun y =>
        { y with slots := y.slots.set k (some { x with op := o, tracker := 0 }) }))).wakePod (podOf t)))) ∧
    (s.active (podOf t) = false ∨ th.st = .blocked .faulted ∨ nth th.slots none k = none → ∀ ev, exec (.loadComplete t k ev) s = .next s)) ∧
  (∀ (c d a n : Nat) (s s' : State) (bs : List (List Byte)), readList c true [(a, n)] [] s = (.ok bs, s') → ∃ g,
    (SlotOp.scalar d n a).land c s = .done g s' ∧ (∀ y, g y = y.ws d (BitVec.ofNat 64 (le bs.flatten))) ∧
    (∀ pa ecc, atu s c a .r true = .ok (pa, ecc) → s.mem.watch = [] → bs = [s.mem.read pa n] ∧ s'.mem.bytes = s.mem.bytes)) ∧
  (∀ (c d : Nat) (es : List (Nat × Nat)) (s s' : State) (bs : List (List Byte)), readList c true (es.map (fun e => (e.2, 4))) [] s = (.ok bs, s') → ∃ g,
    (SlotOp.vector d es).land c s = .done g s' ∧ (∀ y, g y = y.wv d ((es.zip bs).foldl (fun v p => v.set p.1.1 (BitVec.ofNat 32 (le p.2))) (y.rv d))) ∧
    (s.mem.watch = [] → s'.mem.bytes = s.mem.bytes ∧ ∀ (j : Nat) (e : Nat × Nat) pa ecc, es[j]? = some e → atu s c e.2 .r true = .ok (pa, ecc) → bs[j]? = some (s.mem.read pa 4))) ∧
  (∀ (c f d n a x m : Nat) (s s' : State) (b : List Byte), Io.exec (memModify c a n (fun b => leb n (atomNew f n (le b) x m)) true) s = (.ok b, s') →
    (∃ g, (SlotOp.atomic f d n a x m).land c s = .done g s' ∧ (∀ y, f ≠ 2 → g y = y.ws d (BitVec.ofNat 64 (le b))) ∧
      (∀ y, f = 2 → g y = (y.lockAfter a (le b == m % 2 ^ (8 * n))).ws d (BitVec.ofNat 64 (le b)))) ∧
    (∀ pa ecc, 0 < n → n ≤ 8 → a % n = 0 → 64 % n = 0 → atu s c a .rw true = .ok (pa, ecc) → s.mem.watch = [] → s.mem.wf = true →
      b = s.mem.read pa n ∧ s'.mem.read pa n = leb n (atomNew f n (le b) x m) ∧ ∀ q, q < pa ∨ pa + n ≤ q → s'.mem.byte q = s.mem.byte q)) ∧
  (∀ (c va x : Nat) (fl : Bool) (es : List (Nat × Nat)) (s s1 s' : State) (b : List Byte) (g : Thread → Thread), (SlotOp.vatomic fl []).land c s = .done id s ∧
    (Io.exec (memModify c va 4 (fun b => leb 4 (atomNew (if fl then 3 else 0) 4 (le b) x 0)) true) s = (.ok b, s1) →
      (SlotOp.vatomic fl es).land c s1 = .done g s' → (SlotOp.vatomic fl ((va, x) :: es)).land c s = .done id s')) ∧
  (∀ (c f d n a k0 k1 : Nat) (p : List Byte) (s s' : State) (bs : List (List Byte)),
    readList c true ((blocks64 (a + p.length) (n - p.length)).take 8) [] s = (.ok bs, s') →
    ((p ++ bs.flatten).length < n → (SlotOp.hashs f d a n k0 k1 p).land c s = .more (.hashs f d a n k0 k1 (p ++ bs.flatten)) s') ∧
    (n ≤ (p ++ bs.flatten).length → ∃ g, (SlotOp.hashs f d a n k0 k1 p).land c s = .done g s' ∧
      (∀ y, g y = y.ws d (hashFn f (p ++ bs.flatten) (BitVec.ofNat 64 k0) (BitVec.ofNat 64 k1))))) ∧
  (∀ (n x old m : Nat), (n = 4 ∨ n = 8) → old < 2 ^ (8 * n) → atomNew 0 n old x m = (old + x) % 2 ^ (8 * n) ∧ atomNew 1 n old x m = x % 2 ^ (8 * n) ∧
    (old = m % 2 ^ (8 * n) → atomNew 2 n old x m = x % 2 ^ (8 * n)) ∧ (old ≠ m % 2 ^ (8 * n) → atomNew 2 n old x m = old) ∧
    atomNew 3 4 old x m = (fp32.add old (x % 2 ^ 32)).val ∧
    atomNew 4 n old x m = (if signed (8 * n) (x % 2 ^ (8 * n)) < signed (8 * n) old then x % 2 ^ (8 * n) else old) ∧
    atomNew 5 n old x m = (if signed (8 * n) old < signed (8 * n) (x % 2 ^ (8 * n)) then x % 2 ^ (8 * n) else old)) ∧
  (∀ (t : Fin 8192) (k : Nat) (s : State), let th := s.thread t; let c := s.ctxOf t
    (∀ st s1, s.active (podOf t) = true → th.st ≠ .blocked .faulted → th.stores[k]? = some st → th.storeWaits st = false →
      (th.stores.take k).any (fun y => overlap y.ranges st.ranges) = false → (∀ r ∈ st.ranges, s.heldRange c r.1 r.2 = false) → st.run c s = (none, s1) →
      exec (.storeComplete t k .clean) s = .next (s1.modThread t (fun y => Thread.wakeLoad { y with stores := y.stores.eraseIdx k })) ∧
      (∀ a b pa ecc, st.pieces = [(a, b)] → b ≠ [] → a % 64 + b.length ≤ 64 → s.mem.wf = true → s.mem.watch = [] → atu s c a .w true = .ok (pa, ecc) →
        s1.mem.read pa b.length = b ∧ (∀ q, q < pa ∨ pa + b.length ≤ q → s1.mem.byte q = s.mem.byte q))) ∧
    (s.active (podOf t) = false ∨ th.st = .blocked .faulted ∨ th.stores[k]? = none → ∀ ev, exec (.storeComplete t k ev) s = .next s))

/-- ACCA takes the first free run of the file or waits its turn; the vector forms read and combine words of the allocation. Rests on R93, R122, R123. -/
def Obligations.AccumulatorInstructionsComplete : Prop :=
  (∀ (t : Fin 8192) (w : Insn) (s : State), let th := s.thread t; let p := podOf t; let n := (th.rs (insA w)).toNat; let off := (th.rs (insB w)).toNat
    let u := fetched t s; let go := fun v : State => v.modThread t (fun y => { y.overwrite [] th.nextOrder with pc := nextPc w th.pc })
    (issues rowAcca t w s = true → insF w = 0 →
      (th.acc = none → n % 64 = 0 → 64 ≤ n → n ≤ 4096 →
        (∀ base, s.accWaiting p = [] → accFind (s.accHeld p) n = some base → exec (.acca t w) s = .next
          ((((u.modPod p (fun q => { q with acc := q.acc.keep (fun i _ => !(base ≤ i && i < base + n)) })).modThread t
            (fun y => { y.ws (insD w) (BitVec.ofNat 64 base) with acc := some (base, n) })).modThread t (fun y =>
              { y.overwrite [rS (insD w)] th.nextOrder with pc := nextPc w th.pc })))) ∧
        (s.accWaiting p ≠ [] ∨ accFind (s.accHeld p) n = none → exec (.acca t w) s = .next
          ((u.block t (.acc n (insD w))).modPod p (fun q => { q with accQueue := s.accWaiting p ++ [t.val] })))) ∧
      (th.acc ≠ none ∨ n % 64 ≠ 0 ∨ n < 64 ∨ 4096 < n → exec (.acca t w) s = .next (u.fault t th.pc 0 ⟨stRange, 6, 0xFFFF, 0⟩))) ∧
    (issues rowAccf t w s = true → exec (.accf t w) s = .next (retiredNext rowAccf t w s (fun y => { y with acc := none }))) ∧
    (∀ base len, s.mem.watch = [] → th.acc = some (base, len) → off % 64 = 0 → (∀ i ∈ th.active (insM w), off + i < len) →
      (issues (rowAccVec 2) t w s = true → insT w = 0 → exec (.vaccadd t w) s = .next (go (accApplied t base off (th.active (insM w))
        (fun i a => ⟨(a + elem (th.rv (insA w)) i).toNat, 0⟩) u))) ∧
      (issues (rowAccVec 2) t w s = true → insT w ≠ 0 → exec (.vaccadd t w) s = .next (go (accApplied t base off (th.active (insM w))
        (fun i a => fp32.add a.toNat (elem (th.rv (insA w)) i).toNat) u))) ∧
      (issues (rowAccVec 3) t w s = true → exec (.vaccmax t w) s = .next (go (accApplied t base off (th.active (insM w))
        (fun i a => accCombine 3 (insT w) a (elem (th.rv (insA w)) i)) u))) ∧
      (issues (rowAccVec 4) t w s = true → exec (.vaccmin t w) s = .next (go (accApplied t base off (th.active (insM w))
        (fun i a => accCombine 4 (insT w) a (elem (th.rv (insA w)) i)) u))) ∧
      (issues (rowAccVec 6) t w s = true → exec (.vaccwr t w) s = .next (go (accApplied t base off (th.active (insM w))
        (fun i _ => ⟨(elem (th.rv (insA w)) i).toNat, 0⟩) u))) ∧
      (issues rowVaccrd t w s = true → exec (.vaccrd t w) s = .next (retiredNext rowVaccrd t w s (fun y => y.wv (insD w)
        ((th.active (insM w)).foldl (fun v i => v.set i ((s.pod p).accWord (base + off + i))) (y.rv (insD w))))))) ∧
    (off % 64 ≠ 0 ∨ (∃ i ∈ th.active (insM w), th.acc = none ∨ ∃ b l, th.acc = some (b, l) ∧ l ≤ off + i) → ∀ (c : Instr) (r : Row),
      (c = .vaccadd t w ∧ r = rowAccVec 2) ∨ (c = .vaccmax t w ∧ r = rowAccVec 3) ∨ (c = .vaccmin t w ∧ r = rowAccVec 4) ∨
        (c = .vaccwr t w ∧ r = rowAccVec 6) ∨ (c = .vaccrd t w ∧ r = rowVaccrd) →
      issues r t w s = true → exec c s = .next (u.fault t th.pc 0 ⟨stRange, 6, 0xFFFF, 0⟩)) ∧
    (off % 64 ≠ 0 ∨ (0 < n ∧ (th.acc = none ∨ ∃ b l, th.acc = some (b, l) ∧ l < off + n)) → issues rowVaccz t w s = true →
      exec (.vaccz t w) s = .next (u.fault t th.pc 0 ⟨stRange, 6, 0xFFFF, 0⟩)) ∧
    (off % 64 = 0 → n = 0 → issues rowVaccz t w s = true → exec (.vaccz t w) s = .next (go u)) ∧
    (∀ base len, s.mem.watch = [] → issues rowVaccz t w s = true → th.acc = some (base, len) → off % 64 = 0 → off + n ≤ len → 0 < n → exec (.vaccz t w) s = .next
      (go (u.modPod p (fun q => { q with acc := q.acc.keep (fun i _ => !(base + off ≤ i && i < base + off + n)) }))))) ∧
  (∀ (p : Fin 512) (s : State) (t n d base : Nat) (rest : List Nat), s.active p = true → s.accWaiting p = t :: rest → (s.thread t).st = .blocked (.acc n d) →
    accFind (s.accHeld p) n = some base → exec (.accAllocGrant p) s = .next
      (((accGrant t n d base s).modPod p (fun q => { q with accQueue := rest })).modThread t (fun y =>
        { y.overwrite [rS d] y.nextOrder with st := .running, pc := y.pc + 4 }))) ∧
  (∀ a x : Word, accCombine 3 0 a x = ⟨(if a.slt x then x else a).toNat, 0⟩ ∧ accCombine 4 0 a x = ⟨(if x.slt a then x else a).toNat, 0⟩ ∧
    accCombine 3 1 a x = ⟨fp32.minmax true a.toNat x.toNat, 0⟩ ∧ accCombine 4 1 a x = ⟨fp32.minmax false a.toNat x.toNat, 0⟩) ∧
  (∀ (l : List (Nat × Nat)) (n b : Nat), let free := fun b => b + n ≤ 4096 ∧ ∀ h ∈ l, b + n ≤ h.1 ∨ h.1 + h.2 ≤ b
    accFind l n = some b → b % 64 = 0 ∧ free b ∧ ∀ c, c % 64 = 0 → c < b → ¬ free c)

/-- ASK takes or awaits an item, DONE retires it, POST enters one, WAITU and WAITANY collect statuses. Rests on R124, R125, R126, R130, R165, R166, R172, R179. -/
def Obligations.DispatcherInstructionsComplete : Prop :=
  (∀ (t : Fin 8192) (w : Insn) (s : State), let th := s.thread t; let set := (th.rs (insA w)).toNat; let u := fetched t s; let d := insD w
    let go := fun (rs : List Nat) (v : State) => v.modThread t (fun y => { y.overwrite rs th.nextOrder with pc := nextPc w th.pc })
    (th.item = none → (∀ k, k < 64 → set.testBit k = true → ∃ f, s.slotFlow t k = some f) → askGate t u = none →
      (∀ b ∈ bids u t set, u.parityArmed b.fid = false) →
      (∀ b, bestBid th.lastSlot (bids u t set) = some b →
        (issues rowAsk t w s = true → insF w = 0 → set ≠ 0 → exec (.ask t w) s = .next (go [rV d] (u.handOut t b.fid b.slot d))) ∧
        (issues rowAsknb t w s = true → exec (.asknb t w) s = .next (go [rV d] (u.handOut t b.fid b.slot d)))) ∧
      (bids u t set = [] →
        (issues rowAsk t w s = true → insF w = 0 → set ≠ 0 → exec (.ask t w) s = .next
          ((register t set u).modThread t (fun y => { y with st := .asking set d }))) ∧
        (issues rowAsknb t w s = true → exec (.asknb t w) s = .next (retiredNext rowAsknb t w s (fun y =>
          y.wv d ((y.rv d).set 16 0xFFFFFFFF)))))) ∧
    (issues rowAsk t w s = true → insF w = 0 → (th.item ≠ none ∨ set = 0 ∨ ∃ k, k < 64 ∧ set.testBit k = true ∧ s.slotFlow t k = none) →
      exec (.ask t w) s = .next (u.fault t th.pc 0 ⟨stState, 7, 0xFFFF, 0⟩)) ∧
    (issues rowAsknb t w s = true → (th.item ≠ none ∨ ∃ k, k < 64 ∧ set.testBit k = true ∧ s.slotFlow t k = none) →
      exec (.asknb t w) s = .next (u.fault t th.pc 0 ⟨stState, 7, 0xFFFF, 0⟩)) ∧
    (issues rowDone t w s = true →
      (th.item = none → exec (.done t w) s = .next (u.fault t th.pc 0 ⟨stState, 7, 0xFFFF, 0⟩)) ∧
      (th.item ≠ none → th.busyTag = true → exec (.done t w) s = .next (u.block t (.done (set % 2 ^ 16)))) ∧
      (th.item ≠ none → th.busyTag = false → s.memFrozen = false → th.stores.any th.storeWaits = true → exec (.done t w) s = .next (u.block t .loadSlot)) ∧
      (∀ v, th.item ≠ none → th.busyTag = false → s.memFrozen = false → th.stores.any th.storeWaits = false → u.drainStores t = (none, v) →
        exec (.done t w) s = .next (go [] ((v.retire t (set % 2 ^ 16) false).modThread t (fun y =>
          { y with acc := none, tags := Thread.init.tags, cursor := none }))))) ∧
    (s.slotFlow t set = none → (issues rowPost t w s = true → exec (.post t w) s = .next (u.fault t th.pc 0 ⟨stState, 7, 0xFFFF, 0⟩)) ∧
      (issues rowPostnb t w s = true → exec (.postnb t w) s = .next (u.fault t th.pc 0 ⟨stState, 7, 0xFFFF, 0⟩))) ∧
    (∀ fid v, s.slotFlow t set = some fid → s.memFrozen = false → th.stores.any th.storeWaits = false → u.drainStores t = (none, v) →
      v.flow fid = none →
      (issues rowPost t w s = true → exec (.post t w) s = .next (go [] v)) ∧
      (issues rowPostnb t w s = true → exec (.postnb t w) s = .next (go [rS d] (v.modThread t (fun y => y.ws d 0))))) ∧
    (∀ fid f v, s.slotFlow t set = some fid → s.memFrozen = false → th.stores.any th.storeWaits = false → u.drainStores t = (none, v) →
      v.flow fid = some f → ((v.mem.contexts.find f.ctx).map Ctx.destroying).getD false = false → ∀ body i,
      body = ((th.rv (insB w)).take 10).flatMap (fun x => leb 4 x.toNat) →
      i = ⟨padTo 40 body, 5, t, fid, f.nextSeq, 0, 0, 0, 0, v.ctl.now⟩ →
      (f.ready.length < f.capacity →
        (issues rowPost t w s = true → exec (.post t w) s = .next (go [] (v.putFlow fid (f.push i)))) ∧
        (issues rowPostnb t w s = true → exec (.postnb t w) s = .next (go [rS d] ((v.putFlow fid (f.push i)).modThread t (fun y => y.ws d 0))))) ∧
      (f.capacity ≤ f.ready.length →
        (issues rowPost t w s = true → exec (.post t w) s = .next (v.block t (.post fid body))) ∧
        (issues rowPostnb t w s = true → exec (.postnb t w) s = .next (go [rS d] (v.modThread t (fun y => y.ws d 1)))))) ∧
    (issues rowWaitu t w s = true →
      (∀ x, set < 8 → nth th.tags .free set = .done x → exec (.waitu t w) s = .next (retiredNext rowWaitu t w s (fun y =>
        { y.ws d (BitVec.ofNat 64 x) with tags := y.tags.set set .free }))) ∧
      (∀ b, set < 8 → nth th.tags .free set = .busy b → exec (.waitu t w) s = .next (u.block t (.tag set))) ∧
      (8 ≤ set ∨ nth th.tags .free set = .free → exec (.waitu t w) s = .next (u.fault t th.pc 0 ⟨stState, 7, 0xFFFF, 0⟩))) ∧
    (issues rowWaitany t w s = true →
      (∀ k x, k < 8 → nth th.tags .free k = .done x → (∀ j z, j < k → nth th.tags .free j ≠ .done z) →
        exec (.waitany t w) s = .next (retiredNext rowWaitany t w s (fun y =>
          { (y.ws d (BitVec.ofNat 64 x)).ws (d + 1) (BitVec.ofNat 64 k) with tags := y.tags.set k .free }))) ∧
      (th.firstDone = none → th.busyTag = true → exec (.waitany t w) s = .next (u.block t (.anyTag d))) ∧
      (th.firstDone = none → th.busyTag = false → exec (.waitany t w) s = .next (u.fault t th.pc 0 ⟨stState, 7, 0xFFFF, 0⟩)))) ∧
  (∀ (t : Fin 8192) (s : State),
    (∀ st v, (s.thread t).st = .blocked (.done st) → s.works (podOf t) = true → (s.thread t).busyTag = false →
      (s.thread t).stores.any (s.thread t).storeWaits = false → s.drainStores t = (none, v) → exec (.doneRetire t) s = .next
        ((finishDone t st v).modThread t (fun y => { y with st := .running, pc := y.pc + 4 }))) ∧
    (∀ fid body f, (s.thread t).st = .blocked (.post fid body) → s.active (podOf t) = true → s.flow fid = some f →
      ((s.mem.contexts.find f.ctx).map Ctx.destroying).getD false = false →
      (f.ready.length < f.capacity → exec (.postResume t) s = .next
        ((s.putFlow fid (f.push ⟨padTo 40 body, 5, t, fid, f.nextSeq, 0, 0, 0, 0, s.ctl.now⟩)).modThread t (fun y =>
          { y with st := .running, pc := y.pc + 4 }))) ∧
      (f.capacity ≤ f.ready.length → exec (.postResume t) s = .next s))) ∧
  (∀ (t : Fin 8192) (fid : Nat) (s : State) (f : Flow) (l : List Nat) (set d k : Nat), s.flow fid = some f → f.waiters = t.val :: l →
    f.head.isSome = true → s.active (unitSlice f.slice) = true → s.active (podOf t) = true → s.parityArmed fid = false →
    (s.thread t).st = .asking set d → (setSlots set).filter (fun j => s.slotFlow t j == some fid) = [k] →
    exec (.askOffer t fid) s = .next ((s.handOut t fid k d).modThread t (fun y => { y.overwrite [rV d] y.nextOrder with pc := y.pc + 4 })))

/-- A search that issues at a serving bank with no limit in force gets its result; GUPD joins the bank's writers and ends after its last entry. Rests on R127, R346, R347, R348, R349, R350, R351, R352, R353, R357, R358, R359. -/
def Obligations.GazetteerInstructionsComplete : Prop :=
  (∀ (t : Fin 8192) (w : Insn) (s : State), let th := s.thread t; let c := s.ctxOf t; let ctl := (th.rs (insB w)).toNat; let d := insD w
    (∀ kind i, (kind = 0 ∧ i = Instr.gsrchT t w) ∨ (kind = 1 ∧ i = Instr.gsrchG t w) ∨ (kind = 2 ∧ i = Instr.gbkt t w) →
      issues (rowSearch kind) t w s = true → insF w = kind →
      (∀ g n, searchFault s c kind ctl d = none → s.gazSet (ctl % 2 ^ 32) = some g → th.freeSlot = some n → th.slots.length = 8 → g.bank < 8 →
        bankServes s g.bank = true → (s.gazBank g.bank).waiting = [] → (s.gazBank g.bank).writers = [] → thermHolds s g.bank = false → powerHolds s = false →
        ∃ u l, exec i s = .next u ∧ l = searchResult kind (searchSet (s.gazBank g.bank) g (gazKey th (insA w)) ctl).2 ((s.gazBank g.bank).seq + 1) ∧
          nth (u.thread t).slots none n = some ⟨.gaz kind d (if bit ctl 40 then d + 1 else 0) (gazKey th (insA w)) ctl (some l), 0, th.nextOrder, th.pc⟩ ∧
          (u.thread t).pc = nextPc w th.pc ∧ (u.thread t).s = th.s ∧ (u.thread t).v = th.v ∧
          (u.gazBank g.bank).seq = (s.gazBank g.bank).seq + 1 ∧ (u.gazBank g.bank).arr = (s.gazBank g.bank).arr ∧ u.gaz.sets = s.gaz.sets ∧ u.disp = s.disp) ∧
      (∀ g n, searchFault s c kind ctl d = none → s.gazSet (ctl % 2 ^ 32) = some g → th.freeSlot = some n → th.slots.length = 8 → g.bank < 8 →
        (s.gazBank g.bank).waiting = [] → bankServes s g.bank = false ∨ thermHolds s g.bank = true ∨ powerHolds s = true → ∃ u, exec i s = .next u ∧
          nth (u.thread t).slots none n = some ⟨.gaz kind d (if bit ctl 40 then d + 1 else 0) (gazKey th (insA w)) ctl none, 0, th.nextOrder, th.pc⟩ ∧
          (u.thread t).pc = nextPc w th.pc ∧ (u.thread t).s = th.s ∧ (u.gazBank g.bank).waiting = [.pod t n th.epoch] ∧
          (u.gazBank g.bank).seq = (s.gazBank g.bank).seq ∧ u.gaz.sets = s.gaz.sets) ∧
      (∀ e, searchFault s c kind ctl d = some e → exec i s = .next ((fetched t s).fault t th.pc 0 e)) ∧
      (searchFault s c kind ctl d = none → th.freeSlot = none → exec i s = .next ((fetched t s).block t .loadSlot))) ∧
    (∀ v record a, issues rowGupd t w s = true → record = ctl → a = (th.rs (insA w)).toNat → asyncReady t record (fetched t s) v →
      issuesAs (.gupd t w) t w record 7 s v (fun iss z => gupdIssue iss c a z))) ∧
  (∀ (iss : Issuer) (c a : Nat) (z u : State) (b : List Byte) (g : GazSet), Io.exec (memRead c a 32) z = (.ok b, u) → u.armed 0x0F 7 = none →
    passes (gupdFails u c a b) = true → u.gazSet (fld b 0 4) = some g → gupdIssue iss c a z = u.modBank g.bank (fun y => { y with
      writers := y.writers ++ [⟨fld b 0 4, fld b 4 4, fld b 8 4, 0, .gupd iss c (fld b 0x10 8) (bit (fld b 0xC 4) 0)⟩] })) ∧
  (∀ (t : Fin 8192) (k : Fin 8) (s : State) (b : Nat) (w : GazWriter) (g : GazSet) (e c : Nat), b < 8 → (∀ j, j < b → ∀ y ∈ (s.gazBank j).writers, y.isOf t k = false) →
    (s.gazBank b).writers = [w] → w.src = .gupd (.pod t k 0 e) c 0 true → s.gazSet w.set = some g → bankServes s b = true → s.memFrozen = false → w.done < w.count →
    ∃ u, exec (.gupdEnd t k) s = .next u ∧
      u = (((List.range (w.count - w.done)).foldl (fun a i => a.modBank b (fun y => { y.writeEntry (g.base + w.first + w.done + i) 0 with
          writers := [{ w with done := w.done + i + 1 }] })) s).modBank b (fun y => { y with writers := [] })).endOp (.pod t k 0 e) c
        { status := stOk, kind := 7, consumed := 0, produced := w.count }) ∧
  (∀ (k : GazBank) (e r : Nat), (k.writeEntry e r).arr.at 0 e = r ∧ (k.writeEntry e r).sh0.at 0 e = r ∧ (k.writeEntry e r).sh1.at 0 e = r) ∧
  (∀ (kind d e key ctl c : Nat) (r : List Nat) (s : State), ∃ f, (SlotOp.gaz kind d e key ctl (some r)).land c s = .done f s ∧
    (kind = 1 → f = fun th => th.wv d (r.map (BitVec.ofNat 32))) ∧
    (kind ≠ 1 → f = fun th => (th.ws d (BitVec.ofNat 64 (nth r 0 0))).ws e (BitVec.ofNat 64 (nth r 0 1)))) ∧
  (∀ (hits : List Nat) (seq : Nat), searchResult 0 hits seq = [hits.length, seq] ∧
    (∀ g, g < 64 → (searchResult 1 hits seq)[g]? = some (min 255 (hits.filter (· == g)).length)) ∧
    (∀ g, g ∈ hits → (∀ h ∈ hits, g ≤ h) → searchResult 2 hits seq = [g + 64 + (if hits.all (· == g) then 0 else 128) +
      256 * min (hits.filter (· == g)).length 255 + 2 ^ 16 * hits.length, seq]) ∧ searchResult 2 [] seq = [0, seq])

/-- GAZ_LOAD makes, writes and destroys sets; the scrubber settles entries by majority; the limiters' windows start anew; banks are serviced. Rests on R354, R355, R356, R361, R362, R365, R366, R370, R371, R372, R373. -/
def Obligations.GazetteerCommandsAndLimits : Prop :=
  (∀ (f : Frame) (s : State) (x : Session), let p := f.payload; let u := seen f s; 
    let ok := fun a : Nat => acceptedAs 0x0520 0 a f s x = true ∧ p.length = 32 ∧ passes (gazLoadFails u x.ctx p) = true;
    (ok 0 → ∃ (idx b a : Nat) (g : GazSet) (v : State), exec (.gazCreate f) s = .next (doneOk 0x0520 f (leb 4 (setId g idx) ++ leb 1 b ++ zeros 1 ++ leb 2 a) v) ∧
      idx < 2048 ∧ s.gaz.sets.find idx = none ∧ v.gaz.sets = s.gaz.sets.put idx g ∧ createRun u (fld p 1 1) (fld p 2 2) = some (b, a) ∧
      g = ⟨s.gaz.gens.at 0 idx, x.ctx, b, a, fld p 2 2⟩ ∧ v.gazBank b = (s.gazBank b).clear a (fld p 2 2) ∧ v.mem = s.mem) ∧
    (ok 1 → ∀ g b v, s.gazSet (fld p 4 4) = some g → Io.exec (memRead x.ctx (fld p 0x10 8) (48 * fld p 0xC 4)) u = (.ok b, v) →
      exec (.gazWrite f) s = .next (frameInFlight f 0x0520 (.gaz g.bank) (v.modBank g.bank (fun y => { y with writers := y.writers ++
        [⟨fld p 4 4, fld p 8 4, fld p 0xC 4, 0, .load f.sessionId.toNat f.requestId.toNat
          ((List.range (fld p 0xC 4)).map (fun i => le (sub b (48 * i) 48)))⟩] })))) ∧
    (ok 2 → ∀ g b v, s.gazSet (fld p 4 4) = some g → Io.exec (memRead x.ctx (fld p 0x10 8) (2 * fld p 0xC 4)) u = (.ok b, v) →
      (s.gazBank g.bank).tags.sorted = true → (s.gazBank g.bank).tags0.sorted = true → (s.gazBank g.bank).tags1.sorted = true →
      ∃ t k, exec (.gazSegtags f) s = .next (doneOk 0x0520 f [] t) ∧ t.gazBank g.bank = k ∧ k.arr = (s.gazBank g.bank).arr ∧
        ∀ i, i < fld p 0xC 4 → k.tags.at 0 (g.first + fld p 8 4 + i) = fld b (2 * i) 2 ∧ k.tags0.at 0 (g.first + fld p 8 4 + i) = fld b (2 * i) 2 ∧
          k.tags1.at 0 (g.first + fld p 8 4 + i) = fld b (2 * i) 2) ∧
    (ok 3 → ∀ g, s.gazSet (fld p 4 4) = some g → ∃ v, exec (.gazDestroy f) s = .next (doneOk 0x0520 f [] v) ∧ v.gazSet (fld p 4 4) = none ∧
      v.gaz.sets = s.gaz.sets.del (fld p 4 4 % 2048) ∧ v.gaz.gens.at 0 (fld p 4 4 % 2048) = (g.gen + 1) % 4096 ∧
      v.gazBank g.bank = (s.gazBank g.bank).clear g.first g.segs)) ∧
  (∀ (f : Frame) (s : State) (x : Session), let p := f.payload; let u := seen f s; let b := fld p 0 1; 
    let ok := fun a : Nat => acceptedAs 0x0521 1 a f s x = true ∧ passes (gazServiceFails f u) = true;
    (ok 0 → exec (.gazReload f) s = .next (frameInFlight f 0x0521 (.gaz b) (u.modBank b (fun k => { k with state := .reloading })))) ∧
    (ok 1 → s.gaz.sets.sorted = true → ∃ v, exec (.gazEvacuate f) s = .next (frameInFlight f 0x0521 (.gaz b) v) ∧ (v.gazBank b).state = .moving ∧ setsOf v b = []) ∧
    (ok 2 → exec (.gazRestore f) s = .next (frameInFlight f 0x0521 (.gaz b) (u.modBank b (fun k => { k with state := .testing })))) ∧
    (ok 3 → exec (.gazScrubPeriod f) s = .next (doneOk 0x0521 f (zeros 8) (u.modBank b (fun k => { k with scrubMs := fld p 4 4 }))))) ∧
  (∀ (b : Fin 8) (e : Nat) (s : State), let k := s.gazBank b; bankServes s b = true → s.fwReady = true →
    (e < bankEntries → ∃ u, exec (.gazScrubCompare b e []) s = .next u ∧
      (shadowsReadable s b e = (true, true) → ∃ v, (u.gazBank b).arr.at 0 e = v ∧ (u.gazBank b).sh0.at 0 e = v ∧ (u.gazBank b).sh1.at 0 e = v ∧
        (k.sh0.at 0 e = k.sh1.at 0 e → v = k.sh0.at 0 e) ∧ (k.arr.at 0 e = k.sh0.at 0 e ∨ k.arr.at 0 e = k.sh1.at 0 e → v = k.arr.at 0 e)) ∧
      (shadowsReadable s b e = (true, false) → (u.gazBank b).arr.at 0 e = k.sh0.at 0 e) ∧
      (shadowsReadable s b e = (false, true) → (u.gazBank b).arr.at 0 e = k.sh1.at 0 e) ∧
      (shadowsReadable s b e = (false, false) → (u.gazBank b).arr.at 0 e = 0 ∧ (u.gazBank b).sh0.at 0 e = 0 ∧ (u.gazBank b).sh1.at 0 e = 0)) ∧
    (∀ g, g < 256 → ∃ u, exec (.gazScrubCompare b (bankEntries + g) []) s = .next u ∧ (shadowsReadable s b (1024 * g) = (true, true) →
      ∃ v, (u.gazBank b).tags.at 0 g = v ∧ (u.gazBank b).tags0.at 0 g = v ∧ (u.gazBank b).tags1.at 0 g = v ∧ (k.tags0.at 0 g = k.tags1.at 0 g → v = k.tags0.at 0 g) ∧
        (k.tags.at 0 g = k.tags0.at 0 g ∨ k.tags.at 0 g = k.tags1.at 0 g → v = k.tags.at 0 g)))) ∧
  (∀ s : State, windowsRun s = false → exec .gazPowerWindow s = .next s ∧ exec .gazThrottleWindow s = .next s) ∧
  (∀ s : State, windowsRun s = true → (∀ b, (s.gazBank b).waiting = []) →
    (∃ u, exec .gazPowerWindow s = .next u ∧ u.gaz.activations = 0 ∧ u.gaz.windowLimit = s.gaz.segLimit ∧ u.gaz.sets = s.gaz.sets ∧ u.mem = s.mem) ∧
    (∃ u, exec .gazThrottleWindow s = .next u ∧ (∀ b, (u.gazBank b).admitted = 0 ∧ (u.gazBank b).arr = (s.gazBank b).arr) ∧
      (∀ y, (s.clk.temps[32]?).bind id = some y → u.gaz.level = throttleLevel s.gaz.level y.toNat ∧ u.gaz.temp = y.toNat) ∧
      ((s.clk.temps[32]?).bind id = none → u.gaz.level = s.gaz.level))) ∧
  (∀ (l y : Nat), (95 ≤ y → y < 98 → l < 1 → throttleLevel l y = 1) ∧ (98 ≤ y → y < 101 → l < 2 → throttleLevel l y = 2) ∧
    (101 ≤ y → y < 104 → l < 3 → throttleLevel l y = 3) ∧ (104 ≤ y → l < 4 → throttleLevel l y = 4) ∧
    (y < 93 → throttleLevel 1 y = 0) ∧ (y < 96 → throttleLevel 2 y = 1))

/-- JINS appends its pairs to the region's table, JPROBE finds the payloads of its keys in insert order, JNEXT the next of them. Rests on R128, R276, R277, R278, R280, R285. -/
def Obligations.JoinInstructionsComplete : Prop :=
  ∀ (t : Fin 8192) (w : Insn) (s v v1 : State) (n : Nat) (pages : List Nat),
    let th := s.thread t; let d := insD w; let act := th.active (insM w); let h := (th.rs (insB w)).toNat
    let slot := fun (u : State) (e : Nat) (l : List (Nat × Nat × Nat)) =>
      nth (u.thread t).slots none n = some ⟨.join d e l, 0, th.nextOrder, th.pc⟩ ∧ (u.thread t).pc = nextPc w th.pc ∧
        (u.thread t).s = th.s ∧ (u.thread t).v = th.v ∧ (u.thread t).m = th.m ∧ u.disp = s.disp ∧ u.gaz = s.gaz;
    (th.freeSlot = some n → th.slots.length = 8 → s.memFrozen = false → th.stores.any th.storeWaits = false → (fetched t s).drainStores t = (none, v) →
      (pages.all (fun p => v1.active (unitJoin (sliceOf p))) = true →
        (issues rowJins t w s = true → insF w = 0 → joinRegion t h .rw v = (.ok pages, v1) →
          (∀ es, tableOf v1 pages = some es → es.length + act.length ≤ 224 * pages.length →
            ∃ u, exec (.jins t w) s = .next u ∧ slot u 16 (act.map (fun i => (i, 0, 0))) ∧
              (u.units.joins.find? (fun x => x.pages == pages)).map JoinTable.entries = some (es ++ act.map (fun i =>
                (pairKey th (insA w) i, (elem (th.rv (insA w + 2)) i).toNat)))) ∧
          (tableOf v1 pages = none → ∃ u l, exec (.jins t w) s = .next u ∧ l.map Prod.fst = act ∧ slot u 16 l)) ∧
        (issues rowJprobe t w s = true → joinRegion t h .r v = (.ok pages, v1) →
          (∀ es, tableOf v1 pages = some es → ∃ u, exec (.jprobe t w) s = .next u ∧
            slot u (d + 1) (act.map (fun i => (i, (matchesOf es (pairKey th (insA w) i)).headD 0xFFFFFFFF,
              min (matchesOf es (pairKey th (insA w) i)).length 0xFFFFFFFF))) ∧
            (u.thread t).cursor = some ⟨h, act.map (fun i => (i, (matchesOf es (pairKey th (insA w) i)).drop 1))⟩ ∧ u.mem = v1.mem) ∧
          (tableOf v1 pages = none → ∃ u l, exec (.jprobe t w) s = .next u ∧ l.map Prod.fst = act ∧ slot u (d + 1) l)) ∧
        (issues rowJnext t w s = true → ∀ c (left : Nat → List Nat), th.cursor = some c → joinRegion t c.table .r v = (.ok pages, v1) →
          (∀ i, i < 64 → left i = ((c.remaining.find? (fun x => x.1 == i)).map Prod.snd).getD []) →
          ∃ u, exec (.jnext t w) s = .next u ∧ slot u (d + 1) (act.map (fun i => (i, (left i).headD 0xFFFFFFFF, (left i).length - 1))) ∧
            (u.thread t).cursor = some { c with remaining := c.remaining.map (fun x => if act.contains x.1 then (x.1, x.2.drop 1) else x) } ∧
            u.mem = v1.mem)) ∧
      (∀ e, (issues rowJins t w s = true → insF w = 0 → joinRegion t h .rw v = (.error e, v1) → exec (.jins t w) s = .next (v1.fault t th.pc (handleVa h) e)) ∧
        (issues rowJprobe t w s = true → joinRegion t h .r v = (.error e, v1) → exec (.jprobe t w) s = .next (v1.fault t th.pc (handleVa h) e)) ∧
        (issues rowJnext t w s = true → ∀ c, th.cursor = some c → joinRegion t c.table .r v = (.error e, v1) →
          exec (.jnext t w) s = .next (v1.fault t th.pc (handleVa c.table) e)))) ∧
    (∀ (g : Nat) (need : Need), (bit g 63 = true → joinRegion t g need v = (.error ⟨stArg, 1, 0xFFFF, 0⟩, v)) ∧
      (bit g 63 = false → handleVa g % 4096 ≠ 0 → joinRegion t g need v = (.error ⟨stAlign, 5, 0xFFFF, 0⟩, v)) ∧
      (bit g 63 = false → handleVa g % 4096 = 0 →
        (∀ e, regionPages v (v.ctxOf t) g need = .error e → joinRegion t g need v = (.error e, v.countRefused (v.ctxOf t) e.status)) ∧
        (∀ p, regionPages v (v.ctxOf t) g need = .ok p → (∃ a ∈ p, a ∈ v.joinClaims) → joinRegion t g need v = (.error ⟨stState, 7, 0xFFFF, 0⟩, v)))) ∧
    (issues rowJnext t w s = true → th.cursor = none → exec (.jnext t w) s = .next ((fetched t s).fault t th.pc 0 ⟨stState, 7, 0xFFFF, 0⟩)) ∧
    (∀ (es : List (Nat × Nat)) (k : Nat), matchesOf es k = (es.filter (fun e => e.1 == k)).map Prod.snd)

/-- JOB, PROJ and ACCST that issue take a tag, and their operation, its descriptor good, joins its engine's queue; a bad descriptor ends it. Rests on R130, R212, R238, R274, R282, R405, R463, R525, R610. -/
def Obligations.UnitOperationsIssue : Prop :=
  let names := fun (n field e : Nat) (load : Nat → Nat) => (field ≠ 0xFF → e = field) ∧ (field = 0xFF → e < n ∧ ∀ k, k < n → load e ≤ load k)
  (∀ (t : Fin 8192) (w : Insn) (s v : State), let c := s.ctxOf t; let a := ((s.thread t).rs (insA w)).toNat; let r := ((s.thread t).rs (insB w)).toNat
    asyncReady t r (fetched t s) v →
    (issues (rowJob 5 tableIssue) t w s = true → jobKind s t w = some 5 → issuesAs (.tableIntakeJob t w) t w r 5 s v (fun iss u => tableIssue iss c a u)) ∧
    (issues (rowJob 3 colIssue) t w s = true → jobKind s t w = some 3 → issuesAs (.columnJob t w) t w r 3 s v (fun iss u => colIssue iss c a u)) ∧
    (issues (rowJob 2 joinIssue) t w s = true → jobKind s t w = some 2 → issuesAs (.joinJob t w) t w r 2 s v (fun iss u => joinIssue iss c a u)) ∧
    (issues (rowJob 1 codecStart) t w s = true → jobKind s t w = some 1 → issuesAs (.codecJob t w) t w r 1 s v (fun iss u => codecStart iss c a u)) ∧
    (issues (rowJob 1 codecStart) t w s = true → (∃ k, jobKind s t w = some k ∧ isJobKind k = false) →
      issuesAs (.codecJob t w) t w r 1 s v (fun iss u => codecStart iss c a u)) ∧
    (issues rowFabric t w s = true → jobKind s t w = some 8 → s.fab.reqs.length < 16384 →
      issuesAs (.fabricOperation t w) t w r 8 s v (fun iss u => remoteIssue iss c a u)) ∧
    (issues (rowProj false) t w s = true → issuesAs (.proj t w) t w r 4 s v (fun iss u => projIssue false iss c a u)) ∧
    (issues (rowProj true) t w s = true → issuesAs (.accst t w) t w r 4 s v (fun iss u => projIssue true iss c a u))) ∧
  (∀ (iss : Issuer) (c a : Nat) (s u : State) (d : List Byte),
    (Io.exec (memRead c a 2) s = (.ok d, u) → isJobKind (le d) = true → codecStart iss c a s = codecIssue iss c a s) ∧
    (Io.exec (memRead c a 2) s = (.ok d, u) → isJobKind (le d) = false → codecStart iss c a s = s.failOp iss c 0 0 0 ⟨stArg, 1, 0, 0⟩) ∧
    (Io.exec (memRead c a 128) s = (.ok d, u) → u.armed 0x0F 5 = none →
      (passes (tableFails u c a d) = true → ∃ e, names 16 (fld d 3 1) e (fun k => (u.tableEng k).queue.length) ∧ tableIssue iss c a s = u.setTable e { u.tableEng e with
            queue := (u.tableEng e).queue ++ [⟨JobHead.first iss c (fld d 0x20 8) (fld d 0x28 8), d, ((u.units.legends.find (fld d 8 8)).map Legend.bytes).getD [],
              none, 0, 0, 0, 0, []⟩] }) ∧
      (∀ er, firstFail (tableFails u c a d) = some er → tableIssue iss c a s = u.rejectOp iss c 5 none er)) ∧
    (Io.exec (memRead c a 128) s = (.ok d, u) → u.armed 0x0F 3 = none →
      (passes (colFails u c a d) = true → ∃ e j, names 32 (fld d 2 1) e (fun k => (u.colEng k).queue.length) ∧
        colIssue iss c a s = u.setCol e { u.colEng e with queue := (u.colEng e).queue ++ [j] } ∧
        j.head = JobHead.first iss c (fld d 0x30 8) (fld d 0x38 8) ∧ j.desc = d ∧ j.row = 0 ∧ j.rowsOut = 0 ∧ j.batches = 0) ∧
      (∀ er, firstFail (colFails u c a d) = some er → colIssue iss c a s = u.rejectOp iss c 3 (colRefused u c d) er)) ∧
    (Io.exec (memRead c a 192) s = (.ok d, u) → u.armed 0x0F 2 = none →
      (passes (joinFails u c a d) = true → ∃ e j, joinIssue iss c a s = u.setJoin e { u.joinEng e with queue := (u.joinEng e).queue ++ [j] } ∧
        j.head = JobHead.first iss c (fld d 0x70 8) (fld d 0x78 8) ∧ j.desc = d ∧ j.pages = [] ∧
        (∀ p l, regionPages u c (jjRegion d) .rw = .ok (p :: l) → e = (p - joinStoreBase) / 0x400000)) ∧
      (∀ er, firstFail (joinFails u c a d) = some er → joinIssue iss c a s = u.rejectOp iss c 2 (joinRefused u c d) er)) ∧
    (Io.exec (memRead c a 128) s = (.ok d, u) → u.armed 0x0F 1 = none →
      (∀ j, passes (codecFails u c a d) = true → j = CodecJob.first (JobHead.first iss c (fld d 0x18 8) (fld d 0x20 8)) d →
        ∃ e, names 16 (fld d 3 1) e (fun k => (u.codecQueue k).length + (u.codecWaiters k).length) ∧
        ((u.codecQueue e).length < 1024 → u.codecWaiters e = [] →
          codecIssue iss c a s = (u.watchOp j.watch).setCodecQ e (u.codecQueue e ++ [.job j])) ∧
        (1024 ≤ (u.codecQueue e).length ∨ u.codecWaiters e ≠ [] → ∀ t k r ep, iss = .pod t k r ep → codecIssue iss c a s =
          ((u.watchOp j.watch).setCodecWait e (u.codecWaiters e ++ [.job j])).block t (.codec e))) ∧
      (∀ er, firstFail (codecFails u c a d) = some er → codecIssue iss c a s = u.rejectOp iss c 1 none er)) ∧
    (Io.exec (memRead c a 64) s = (.ok d, u) → u.armed 0x0F 8 = none →
      (passes (remoteFails u c a d) = true → ∀ o, o = u.fab.ops.put u.fab.nextOp ⟨iss, iss.thread, c, d, remoteFrames u.fab.grat c d, remoteCuts d, [], [], []⟩ →
        remoteIssue iss c a s = pumpOps { u with fab := { u.fab with nextOp := u.fab.nextOp + 1, ops := o } }) ∧
      (∀ er, firstFail (remoteFails u c a d) = some er → remoteIssue iss c a s = u.rejectOp iss c 8 none er))) ∧
  (∀ (acc : Bool) (iss : Issuer) (c a : Nat) (s u : State) (d x y : List Byte), Io.exec (projDescs c a) s = (.ok (d, x, y), u) → u.armed 0x0F 4 = none →
    (passes (projFails acc a (u.thread iss.thread).acc d x y) = true → ∃ e j, names 16 (fld d 2 1) e (fun k => (u.projEng k).load) ∧
        projIssue acc iss c a s = (u.watchOp j.watch).queueProj e (.job j) ∧
        j.head = JobHead.first iss c (tBase y) 0 ∧ j.desc = d ∧ j.src = x ∧ j.dst = y ∧ j.slab = 0 ∧ j.acc = acc ∧
        j.limit = (if fld d 0x18 8 = 0 then none else some (fld d 0x18 8)) ∧ (j.accAt, j.accLen) = ((u.thread iss.thread).acc).getD (0, 0)) ∧
    (∀ er, firstFail (projFails acc a (u.thread iss.thread).acc d x y) = some er → projIssue acc iss c a s = u.rejectOp iss c 4 none er))

/-- A free engine or lane takes the oldest work of its queue and copies what its job needs; a job resumed must find its saved state intact. Rests on R239, R251, R275, R285, R290, R381, R387, R406, R411, R422. -/
def Obligations.UnitJobsStart : Prop :=
  (∀ (e : Fin 16) (s : State),
    (∀ j l, s.tableEng e = ⟨j :: l, none⟩ → s.works (unitTable e) = true →
      (j.head.saved = [] → exec (.tableIntakeStart e) s = .next (s.setTable e ⟨l, some j⟩)) ∧
      (∀ b u, j.head.saved ≠ [] → (s.setTable e ⟨l, none⟩).areaIntact j.head.ctx j.stateAddr j.head.saved = (.ok b, u) →
        (b = true → exec (.tableIntakeStart e) s = .next (u.setTable e ⟨l, some { j with head := { j.head with saved := [] } }⟩)) ∧
        (b = false → exec (.tableIntakeStart e) s = .next ((u.writeDropped j.head.ctx j.stateAddr (locus ⟨0x0601, 0, j.pos, j.total⟩ j.base)).endJob j.head 5
          ⟨stCorrupt, 0x0601, 0xFFFF, 0⟩)))) ∧
    ((s.tableEng e).queue = [] ∨ (s.tableEng e).run ≠ none → exec (.tableIntakeStart e) s = .next s) ∧
    (∀ j l, s.projEng e = ⟨.job j :: l, none⟩ → s.works (unitProj e) = true →
      (j.first ≠ 0 ∨ j.head.handle ≠ 0 → exec (.projOpStart e) s = .next ((s.setProj e ⟨l, none⟩).setProj e ⟨l, some (.job j)⟩)) ∧
      (∀ d x y u, j.first = 0 → j.head.handle = 0 → Io.exec (projDescs j.head.ctx j.addr) (s.setProj e ⟨l, none⟩) = (.ok (d, x, y), u) →
        (passes (projFails j.acc j.addr (some (j.accAt, j.accLen)) d x y) = true → ∀ j1, j1 = { j with
          desc := d, src := x, dst := y, base := tBase y, limit := if fld d 0x18 8 = 0 then none else some (fld d 0x18 8) } →
          exec (.projOpStart e) s = .next ((u.modWatch (.op j.head.iss) (fun w =>
            { w with ranges := j1.watch.ranges, feeds := j1.watch.feeds })).setProj e ⟨l, some (.job j1)⟩)) ∧
        (∀ er, firstFail (projFails j.acc j.addr (some (j.accAt, j.accLen)) d x y) = some er → exec (.projOpStart e) s = .next (projFinish e j er u)))) ∧
    (∀ i k l, s.projEng e = ⟨.sample i k :: l, none⟩ → s.works (unitProj e) = true →
      exec (.projOpStart e) s = .next (s.setProj e ⟨l, if (s.sample i k).isSome then some (.sample i k) else none⟩)) ∧
    ((s.projEng e).queue = [] ∨ (s.projEng e).run ≠ none → exec (.projOpStart e) s = .next s) ∧
    (∀ w l, s.codecQueue e = w :: l → s.active (unitCodec e) = true → ∀ k : Fin 8, (s.freeLanes e).head? = some k.val →
      exec (.codecLaneStart e k) s = .next ((s.setCodecQ e l).setLane e k (some w))) ∧
    (∀ k : Fin 8, s.codecQueue e = [] ∨ (s.freeLanes e).head? ≠ some k.val → exec (.codecLaneStart e k) s = .next s) ∧
    (∀ w l, s.codecWaiters e = w :: l → (s.codecQueue e).length < 1024 → s.active (unitCodec e) = true →
      ∃ u, exec (.codecQueuePlace e) s = .next u ∧ u.codecWaiters e = l ∧ u.codecQueue e = s.codecQueue e ++ [w] ∧ u.mem = s.mem ∧
        (∀ j t k r ep, w = .job j → j.head.iss = .pod t k r ep → (s.thread t).st = .blocked (.codec e) → (u.thread t).st = .running))) ∧
  (∀ (e : Fin 32) (s : State),
    (∀ j l, s.colEng e = ⟨j :: l, none⟩ → s.works (unitJoin e) = true →
      (∀ a m b u, j.head.saved = [] → Io.exec (colArrays j) (s.setCol e ⟨l, none⟩) = (.ok (a, m, b), u) →
        exec (.columnJobStart e) s = .next (u.setCol e ⟨l, some { j with steps := a, map := m, bounds := b }⟩)) ∧
      (∀ b u, j.head.saved ≠ [] → (s.setCol e ⟨l, none⟩).areaIntact j.head.ctx j.stateAddr j.head.saved = (.ok b, u) →
        exec (.columnJobStart e) s = .next (if b then u.setCol e ⟨l, some { j with head := { j.head with saved := [] } }⟩
          else colEnd j ⟨stCorrupt, 0x0703, 0xFFFF, 0⟩ noRow u))) ∧
    ((s.colEng e).queue = [] ∨ (s.colEng e).run ≠ none → exec (.columnJobStart e) s = .next s) ∧
    (∀ j l, s.joinEng e = ⟨j :: l, none⟩ → s.works (unitJoin e) = true →
      (∀ m u ps, j.head.saved = [] → Io.exec (memRead j.head.ctx (fld j.desc 0x60 8) (2 * fld j.desc 0x68 2)) (s.setJoin e ⟨l, none⟩) = (.ok m, u) →
        regionPages (s.setJoin e ⟨l, none⟩) j.head.ctx (jjRegion j.desc) .rw = .ok ps →
        (ps.any s.joinClaims.contains = false → exec (.joinJobStart e) s = .next ((stirPages u ps).2.setJoin e ⟨l, some { j with map := m, pages := ps }⟩)) ∧
        (ps.any s.joinClaims.contains = true → exec (.joinJobStart e) s = .next (joinEnd j ⟨stState, 0, 0xFFFF, 0⟩ u))) ∧
      (∀ b u, j.head.saved ≠ [] → (s.setJoin e ⟨l, none⟩).areaIntact j.head.ctx (jjStateAddr j.desc) j.head.saved = (.ok b, u) →
        exec (.joinJobStart e) s = .next (if b then u.setJoin e ⟨l, some { j with head := { j.head with saved := [] } }⟩
          else joinEnd j ⟨stCorrupt, 0x0703, 0xFFFF, 0⟩ u))) ∧
    ((s.joinEng e).queue = [] ∨ (s.joinEng e).run ≠ none → exec (.joinJobStart e) s = .next s))

/-- A running job writes its batches and slabs, is suspended where space runs out, and ends with its record and its tag's status. Rests on R81, R126, R241, R246, R247, R250, R253, R290, R291, R390, R408, R409. -/
def Obligations.UnitJobsRunAndEnd : Prop :=
  (∀ (e : Fin 16) (s : State),
    (∀ j, (s.tableEng e).run = some j → s.works (unitTable e) = true →
      (∀ u j1 s1, j.head.held = none → intakeNext e j s = (.rows u, j1, s1) →
        ((nextBatch j1 u).n = 0 → exec (.intakeBatchOutput e) s = .next (tableSuspend e j1 s1)) ∧
        ((nextBatch j1 u).n ≠ 0 → (nextBatch j1 u).fail = none → exec (.intakeBatchOutput e) s = .next (tableWrite e j1 (nextBatch j1 u) s1)) ∧
        (∀ f, (nextBatch j1 u).fail = some f → ∃ v : State, exec (.tableIntakeEnd e) s = .next
          (v.endJob j1.head 5 ⟨intakeStatus f.detail, f.detail, 0xFFFF, 0⟩) ∧ (v.tableEng e).run = none)) ∧
      (∀ l bs j1 s1, j.head.held = none → intakeNext e j s = (.decode l bs, j1, s1) → exec (.intakeBatchOutput e) s = .next (sendDecodes e j1 l bs s1)) ∧
      (∀ j1 s1, j.head.held = none → intakeNext e j s = (.ended, j1, s1) → exec (.tableIntakeEnd e) s = .next
        ((s1.setTable e { s1.tableEng e with run := none }).endJob j.head 5 ⟨stOk, 0, 0xFFFF, 0⟩)) ∧
      (∀ er j1 s1, j.head.held = none → intakeNext e j s = (.refused er, j1, s1) → exec (.tableIntakeEnd e) s = .next
        ((s1.setTable e { s1.tableEng e with run := none }).endJob j1.head 5 er)) ∧
      (∀ f j1 s1, j.head.held = none → intakeNext e j s = (.fails f, j1, s1) → ∃ v : State, exec (.tableIntakeEnd e) s = .next
        (v.endJob j1.head 5 ⟨intakeStatus f.detail, f.detail, 0xFFFF, 0⟩) ∧ (v.tableEng e).run = none) ∧
      (∀ b, j.head.held = some b →
        ((s.emit j.flow b 1 e).1 = true → exec (.intakeOutputResume e) s = .next ((s.emit j.flow b 1 e).2.setTable e
          { s.tableEng e with run := some { j with head := { j.head with held := none } } })) ∧
        ((s.emit j.flow b 1 e).1 = false → exec (.intakeOutputResume e) s = .next s) ∧
        exec (.intakeBatchOutput e) s = .next s ∧ exec (.tableIntakeEnd e) s = .next s)) ∧
    ((s.tableEng e).run = none → exec (.intakeBatchOutput e) s = .next s ∧ exec (.tableIntakeEnd e) s = .next s ∧ exec (.intakeOutputResume e) s = .next s) ∧
    (∀ j, (s.projEng e).run = some (.job j) → s.works (unitProj e) = true →
      (slabFits j j.slab = false → ∃ v : State, exec (.projSlabDone e) s = .next (v.suspendJob j.head 4 0 (fun h => .proj e { j with head := h })) ∧
        (v.projEng e).run = none ∧ v.mem.bytes = s.mem.bytes) ∧
      (∀ j1 s1, slabFits j j.slab = true → slabRun e j s = (.ok j1, s1) → j1.slab = j.slab + 1 ∧
        (j1.slab < tSlabs j.dst → exec (.projSlabDone e) s = .next (s1.setProj e { s1.projEng e with run := some (.job j1) })) ∧
        (tSlabs j.dst ≤ j1.slab → exec (.projSlabDone e) s = .next
          (projFinish e j1 ⟨stOk, 0, 0xFFFF, 0⟩ (s1.setProj e { s1.projEng e with run := none })))) ∧
      (∀ er s1, slabFits j j.slab = true → slabRun e j s = (.error er, s1) → s1.mem.bytes = s.mem.bytes ∧
        exec (.projSlabDone e) s = .next (projFinish e j er (s1.setProj e { s1.projEng e with run := none })))) ∧
    (∀ i k, (s.projEng e).run = some (.sample i k) → s.works (unitProj e) = true →
      (s.sample i k = none → exec (.projSlabDone e) s = .next (s.setProj e { s.projEng e with run := none })) ∧
      (∀ x y, s.sample i k = some (x, y) →
        (y.wants x = false → exec (.projSlabDone e) s = .next ((s.setProj e { s.projEng e with run := none }).putSample i k { y with placed := false })) ∧
        (y.wants x = true → sampleFits x y = true → (sampleSlab i k x y s).1.wants x = true →
          exec (.projSlabDone e) s = .next ((sampleSlab i k x y s).2.putSample i k (sampleSlab i k x y s).1)))) ∧
    ((s.projEng e).run = none → exec (.projSlabDone e) s = .next s) ∧
    (∀ (l : Fin 8) j, s.units.lanes.find (8 * e + l) = some (.job j) → s.works (unitCodec e) = true →
      (∀ st d a n, j.ending = some (st, d, a, n) → j.flow = 0xFFFFFFFF → st ≠ stNoSpace →
        exec (.codecJobEnd e l) s = .next (((s.setLane e l none).unwatch (.op j.head.iss)).endJob j.head 1 ⟨st, d, a, n⟩)) ∧
      (∀ b r s1 w n s2, j.ending = none → j.resumed = false → codecRead j s = (b, r, s1) → w = codecWalk ((codecItems j b).1.drop j.item) j.head.outLen j →
        s1.writeSome (.op j.head.iss) j.head.ctx j.head.outAddr w.out = (n, none, s2) → ∃ (v : State) (j1 : CodecJob), v.mem = s2.mem ∧
          j1.totalOut = w.job.totalOut ∧ j1.got = b ∧ j1.head.outP = w.job.totalOut - j.totalOut ∧
          (∀ x, w.stopped = none → (codecItems j b).2 = .done x → exec (.codecJobEnd e l) s = .next (codecEnd e l j1 ⟨stOk, 0, 0xFFFF, 0⟩ gdsAny v)) ∧
          (∀ st d off m k, w.stopped = none → (codecItems j b).2 = .fails st d off m k →
            exec (.codecJobEnd e l) s = .next (codecEnd e l { j1 with block := k } ⟨st, d, 0xFFFF, 0⟩ off v)) ∧
          (∀ i, w.stopped = some i → exec (.codecJobEnd e l) s = .next (codecSuspend e l j1 v)))) ∧
    (∀ (l : Fin 8) g, s.units.lanes.find (8 * e + l) = some (.gds g) → s.works (unitCodec e) = true → s.units.lanes.sorted = true → ∃ u,
      exec (.codecJobEnd e l) s = .next u ∧ u.units.lanes.find (8 * e + l) = none ∧ u.mem = s.mem ∧
        ∀ r out, r = gdsDecompress g.frame g.frame.length g.want false → out = r.1.flatMap GItem.out →
          (u.tableEng g.engine).run = (s.tableEng g.engine).run.map (fun j => { j with decodes := j.decodes.set g.buffer (some (match r.2 with
            | .done _ => if out.length = g.want then some out else none
            | _ => none)) })) ∧
    (∀ l : Fin 8, s.units.lanes.find (8 * e + l) = none → exec (.codecJobEnd e l) s = .next s)) ∧
  (∀ (e : Fin 32) (s : State),
    (∀ j b s1 x j1 s2, (s.colEng e).run = some j → s.works (unitJoin e) = true → j.asking = false → j.head.held = none →
      Io.exec (readBatch j.head.ctx (fld j.desc 0x10 8) j.inLeg) s = (.ok b, s1) →
      colRows e j.cols b.firstRow (3 * b.rows + 3) (b.rowsOf.drop j.row) { j with rows := [], first := 0 } ⟨j.rows, j.first⟩ s1 = (x, j1, s2) →
      (x = .done → exec (.columnJobEnd e) s = .next (colEnd j1 ⟨stOk, 0, 0xFFFF, 0⟩ noRow (s2.setCol e { s2.colEng e with run := none }))) ∧
      (x = .space → exec (.columnJobEnd e) s = .next (colSuspend e j1 (s2.setCol e { s2.colEng e with run := none }))) ∧
      (x = .holds → exec (.columnJobEnd e) s = .next (s2.setCol e { s2.colEng e with run := some j1 })) ∧
      (x = .waits → exec (.columnJobEnd e) s = .next s2) ∧
      (∀ er row n, x = .fails er row n → exec (.columnJobEnd e) s = .next (colEnd j1 er row
        ((s2.scramble j.head.ctx (j1.head.outAddr + j1.head.outP) n).setCol e
          { (s2.scramble j.head.ctx (j1.head.outAddr + j1.head.outP) n).colEng e with run := none })))) ∧
    ((s.colEng e).run = none → exec (.columnJobEnd e) s = .next s) ∧
    (∀ j j1 b p plan s1 x j2 s2, (s.joinEng e).run = some j → s.works (unitJoin e) = true → j.head.held = none →
      joinInputs j s = (.ok (j1, b, p, plan), s1) →
      joinRows (fun o => joinRow j1 (o.1.map (fun i => nth b [] i)) (nth (if jjAction j.desc = 2 then b else p) [] o.2)) plan.fail (3 * plan.outs.length + 3)
        (plan.outs.drop j.next) j1 [] s1 = (x, j2, s2) →
      (x = .done → exec (.joinJobEnd e) s = .next (joinEnd j2 ⟨stOk, 0, 0xFFFF, 0⟩ (s2.setJoin e { s2.joinEng e with run := none }))) ∧
      (x = .space → exec (.joinJobEnd e) s = .next (joinSuspend e j2 (s2.setJoin e { s2.joinEng e with run := none }))) ∧
      (x = .holds → exec (.joinJobEnd e) s = .next (s2.setJoin e { s2.joinEng e with run := some j2 })) ∧
      (∀ er row n, x = .fails er row n → exec (.joinJobEnd e) s = .next (joinEnd j2 er
        ((s2.scramble j.head.ctx (j2.head.outAddr + j2.head.outP) n).setJoin e
          { (s2.scramble j.head.ctx (j2.head.outAddr + j2.head.outP) n).joinEng e with run := none })))) ∧
    ((s.joinEng e).run = none → exec (.joinJobEnd e) s = .next s)) ∧
  (∀ (t k r ep kind : Nat) (h : JobHead) (er : Err) (s : State), h.iss = .pod t k r ep → (s.thread t).epoch = ep → s.svc.abandoned.contains (t, ep) = false →
    (∀ d, (s.thread t).st ≠ .blocked (.anyTag d)) → (s.thread t).st ≠ .blocked .faulted →
    ((s.endJob h kind er).thread t).tags = (s.thread t).tags.set k (.done (er.status + er.detail * 2 ^ 16 + er.detector * 2 ^ 32)))

/-- EMB_TABLE_CREATE makes a table with zeroed storage, PARTITION_MAP_SET its map, EMB_TABLE_SWAP prepares, commits, cancels, destroys, queries. Rests on R314, R315, R316, R319, R320, R321, R334, R335, R336, R337. -/
def Obligations.EmbeddingTableCommands : Prop :=
  ∀ (f : Frame) (s : State) (x : Session), let p := f.payload; let u := seen f s; let h := fld p 0 8
    (accepted 0x0510 f s x = true → p.length = 64 → passes (embCreateFails u x.ctx p) = true → ∀ va s1, let t := tableFrom x.ctx p
      mapStorage u x.ctx t.storageLen t.ecc = some (va, s1) → ∃ (n : Nat) (v : State), exec (.embTableCreate f) s = .next
          (doneOk 0x0510 f (leb 8 n ++ leb 8 va ++ leb 8 (va + t.rows * t.stride) ++ leb 4 t.stride ++ leb 4 1) v) ∧
        v.emb.tables.find n = some { t with versions := [(1, ⟨va, 0⟩)] } ∧ (∀ k, k ≠ n → v.emb.tables.find k = s.emb.tables.find k) ∧
        v.mem.bytes = s1.mem.bytes ∧ 2 ^ 21 ≤ va ∧ va % 2 ^ 21 = 0 ∧ (∃ es chk, u.allocate 0xFF (2 ^ 21) t.storageLen t.ecc = some (es, chk) ∧
          (s.mem.wf = true → ∀ e ∈ es, ∀ a, e.pa ≤ a → a < e.pa + e.len → v.mem.byte a = 0)) ∧ (s.emb.tables.length < 2 ^ 63 → n ≠ 0 ∧ n < 2 ^ 64 ∧ s.emb.tables.find n = none)) ∧
    (accepted 0x0512 f s x = true → p.length = 32 → passes (mapSetFails u x.ctx p) = true → ∀ b s1,
      Io.exec (if fld p 8 1 = 0 then pure [] else memRead x.ctx (fld p 0x10 8) (32 * fld p 0xA 2)) u = (.ok b, s1) →
      exec (.partitionMapSet f) s = .next (doneOk 0x0512 f [] (s1.modEmb h (fun t => { t with
        pmap := if fld p 8 1 = 0 then none else some ⟨fld p 8 1 == 2, mapEntries b, fld p 0x18 8⟩, startStep := fld p 0xC 4, step := fld p 0xC 4,
        homeStep := fld p 0xC 4, sent := [], received := [], lost := [], tokens := [], notices := [], lostParts := [], degraded := false })))) ∧
    (∀ t, s.embTable h = some t →
      (acceptedAs 0x0511 8 0 f s x = true → passes (embSwapFails 0 0 (fun t => t.prepared.isSome) f x u) = true →
        u.fits t.ctx (eccBytes t.ecc t.storageLen) = true → ∀ va s1, mapStorage u t.ctx t.storageLen t.ecc = some (va, s1) →
        exec (.embTablePrepare f) s = .next (doneOk 0x0511 f (leb 8 va ++ leb 8 (va + t.rows * t.stride)) (s1.modEmb h (fun t => { t with
          prepared := some (t.version + 1), versions := t.versions.put (t.version + 1) ⟨va, 0⟩ })))) ∧
      (acceptedAs 0x0511 8 1 f s x = true → passes (embSwapFails 1 1 (fun t => t.prepared.isNone) f x u) = true → ∀ n, t.prepared = some n →
        exec (.embTableCommit f) s = .next (doneOk 0x0511 f (leb 4 n ++ zeros 4) (closeOn h (((if bit (fld p 9 1) 0 then
          loseEntries h (fun _ => true) u else u).modEmb h (fun t => { t with version := n, prepared := none })).embReap h)))) ∧
      (acceptedAs 0x0511 8 2 f s x = true → passes (embSwapFails 2 0 (fun t => t.prepared.isNone) f x u) = true →
        exec (.embTableCancel f) s = .next (doneOk 0x0511 f [] ((u.modEmb h (fun t => { t with prepared := none })).embReap h))) ∧
      (acceptedAs 0x0511 8 3 f s x = true → passes (embSwapFails 3 0 (fun _ => false) f x u) = true →
        exec (.embTableDestroy f) s = .next (doneOk 0x0511 f [] (destroyTable h u)) ∧ (destroyTable h u).embTable h = none) ∧
      (acceptedAs 0x0511 8 4 f s x = true → passes (embSwapFails 4 2 (fun _ => false) f x u) = true →
        (tableBlock t).length = 144 ∧ exec (.embTableQuery f) s = .next (doneOk 0x0511 f (tableBlock t)
          (if bit (fld p 9 1) 1 then u.modEmbCtr h (fun _ => EmbCtr.zero) else u)))) ∧
    (∀ t, u.emb.tables.find h = some t → (∀ g k, k ≠ h → (u.modEmb h g).emb.tables.find k = u.emb.tables.find k) ∧
      (loseEntries h (fun _ => true) u).emb.tables.find h = some { t with entries := [], ctr := { t.ctr with
        lost := t.ctr.lost + (t.entries.map EmbEntry.count).sum +
          ((u.emb.updates.vals.flatMap (fun l => l.filter (fun x => x.table == h && x.closing && true))).map (fun x => x.entry.count)).sum } })

/-- EMBG and EMBU issue their operations; rows are read once for every request, deltas enter the buffers, pending updates write their rows. Rests on R318, R322, R323, R324, R326, R327, R328, R329, R330, R333, R342, R343. -/
def Obligations.EmbeddingGathersAndUpdates : Prop :=
  (∀ (t : Fin 8192) (w : Insn) (s v : State), let th := s.thread t; let c := s.ctxOf t; let a := (th.rs (insB w)).toNat; let act := th.active (insM w)
    asyncReady t 0 (fetched t s) v →
    (issues (rowEmb false) t w s = true → insF w = 0 → issuesAs (.embg t w) t w 0 9 s v (fun iss u => embgIssue iss c a (insA w) act u)) ∧
    (issues (rowEmb true) t w s = true → ∀ h, h = (((fetched t s).peekStored t c a 8).map le).getD 0 →
      (((fetched t s).embTable h).any (fun x => x.ended.contains t.val) = false →
        issuesAs (.embu t w) t w 0 10 s v (fun iss u => embuIssue iss c a (insA w) act u)) ∧
      (((fetched t s).embTable h).any (fun x => x.ended.contains t.val) = true → exec (.embu t w) s = .next ((fetched t s).block t (.embStep h))))) ∧
  (∀ (iss : Issuer) (c a va : Nat) (d : List Byte) (s u : State) (t : EmbTable), Io.exec (memRead c a 64) s = (.ok d, u) → u.embTable (fld d 0 8) = some t →
    bit (fld d 0xB 1) 0 = false →
    (passes (embgFails u c a va d (u.thread iss.thread).acc []) = true → ∃ v : State, embgIssue iss c a va [] s = v.failOp iss c 9 0 0 ⟨stOk, 0, 0xFFFF, 0⟩ ∧
      v.emb.gathers = (u.emb.gathers.put u.emb.nextGather ⟨iss, iss.thread, c, fld d 0 8, t.version, d, [],
        ((u.thread iss.thread).acc.getD (0, 0)).1, [], [], none⟩).del u.emb.nextGather) ∧
    (∀ act, act ≠ [] → passes (embgFails u c a va d (u.thread iss.thread).acc act) = true →
      (embgIssue iss c a va act s).emb.gathers.find u.emb.nextGather = some ⟨iss, iss.thread, c, fld d 0 8, t.version, d, [],
        ((u.thread iss.thread).acc.getD (0, 0)).1, act, act, none⟩ ∧
      (∀ ver, t.versions.find t.version = some ver → (((embgIssue iss c a va act s).emb.tables.find (fld d 0 8)).bind (fun y =>
        y.versions.find t.version)) = some { ver with pins := ver.pins + 1 }))) ∧
  (∀ (iss : Issuer) (c a va : Nat) (act : List Nat) (d : List Byte) (s u : State) (e : Err), Io.exec (memRead c a 64) s = (.ok d, u) →
    (firstFail (embgFails u c a va d (u.thread iss.thread).acc act) = some e → embgIssue iss c a va act s = u.failOp iss c 9 0 0 e) ∧
    (firstFail (embuFails u c a va d) = some e → embuIssue iss c a va act s = u.failOp iss c 10 0 0 e)) ∧
  (∀ (u : Fin 32) (k : Nat) (s s1 : State) (x : RowRead) (t : EmbTable) (b : List Byte), (s.rowReads u)[k]? = some x → x.started = true →
    s.works (unitEmb u) = true → s.emb.tables.find x.table = some t →
    Io.exec (memRead t.ctx (t.va x.version + x.row * t.stride) t.stride) (s.setRowReads u ((s.rowReads u).eraseIdx k)) = (.ok b, s1) →
    exec (.embRowReadDone u k .clean) s = .next (startReads u (x.attached.foldl (settleRow x.table (.ok b)) s1))) ∧
  (∀ (h part step row : Nat) (vals : List Nat) (s : State) (t : EmbTable), s.embTable h = some t → ∀ u, u = rowUnit s t t.version row →
    s.armed 8 (unitEmb u) = none → t.entries.countP (fun e => e.unit == u) < 65536 →
    (t.entries.any (fun e => e.unit == u && e.row == row && e.step == step) = false →
      ((placeDelta h part step row vals s).embTable h).map EmbTable.entries = some (t.entries ++ [⟨u, row, step, vals, 1⟩])) ∧
    (t.entries.any (fun e => e.unit == u && e.row == row && e.step == step) = true → ((placeDelta h part step row vals s).embTable h).map EmbTable.entries =
      some (t.entries.map (fun e => if e.unit == u && e.row == row && e.step == step then
        { e with sums := (e.sums.zip vals).map (fun p => fAdd p.1 p.2), count := e.count + 1 } else e)))) ∧
  (∀ (k : Nat) (s : State) (e : Embu) (d : Delta) (l : List Delta) (t : EmbTable), 12 ≤ k → (s.emb.embus.filter (fun e => !e.deltas.isEmpty))[k - 12]? = some e →
    e.deltas = d :: l → s.embTable e.table = some t →
    (embAccepts s (rowUnit s t t.version d.row) = true → ∃ v : State, exec (.embDeltaReceive k) s = .next (State.settleEmb { v with emb := { v.emb with
        embus := v.emb.embus.map (fun x => if x == e then { x with deltas := l } else x) } }).closeAll ∧
      v = placeDelta e.table d.part t.step d.row d.vals (s.modEmb e.table (fun t => { t with sent := bumpToken t.sent d.part t.step 1 }))) ∧
    (embAccepts s (rowUnit s t t.version d.row) = false → exec (.embDeltaReceive k) s = .next s)) ∧
  (∀ (u : Fin 32) (ev : MemEvent) (s : State) (x : RowUpdate) (l : List RowUpdate), s.embUpdates u = x :: l → s.works (unitEmb u) = true →
    exec (.nmuRowWriteDone u ev) s = .next (applyUpdate u x ev (s.setEmbUpdates u l)).closeAll) ∧
  (∀ (u : Nat) (x : RowUpdate) (s s1 s2 s3 : State) (t : EmbTable) (b : List Byte), s.embTable x.table = some t →
    Io.exec (memRead t.ctx (t.va t.version + x.entry.row * t.stride) t.stride) s = (.ok b, s1) →
    (bit (embFlags b) 0 = true → applyUpdate u x .clean s = s1.modEmbCtr x.table (fun c => { c with frozenSkips := c.frozenSkips + 1 })) ∧
    (∀ r, r = t.updated x.hyper x.entry.step x.entry.sums b (s1.embGen u) → bit (embFlags b) 0 = false →
      s2 = (if t.stochastic then { s1 with emb := { s1.emb with gens := s1.emb.gens.put u r.2.2 } } else s1) →
      Io.exec (memWrite t.ctx (t.va t.version + x.entry.row * t.stride) r.1) s2 = (.ok (), s3) → (applyUpdate u x .clean s).mem = s3.mem ∧
        ((applyUpdate u x .clean s).emb.tables.find x.table).map (fun y => y.ctr.rowsUpdated) = some (t.ctr.rowsUpdated + 1))) ∧
  (∀ (u : Fin 32) (k h : Nat) (s : State) (x : EmbEntry),
    (s.emb.tables.flatMap (fun e => (e.2.entries.filter (fun x => x.unit == u.val)).map (fun x => (e.1, x))))[k]? = some (h, x) →
    exec (.coalesceBufferParity u k) s = .next (loseEntries h (· == x) (s.fire 8 (unitEmb u) 0 false)).closeAll) ∧
  (∀ (h : Nat) (p : EmbEntry → Bool) (s : State) (t : EmbTable), s.emb.tables.find h = some t → (loseEntries h p s).emb.tables.find h = some { t with
    entries := t.entries.filter (fun e => !p e), ctr := { t.ctr with lost := t.ctr.lost + ((t.entries.filter p).map EmbEntry.count).sum +
      ((s.emb.updates.vals.flatMap (fun l => l.filter (fun x => x.table == h && x.closing && p x.entry))).map (fun x => x.entry.count)).sum } })

/-- A part closes its step once BARRIER threads ended it, a home once every token and delta is in; frames of steps reach their table. Rests on R328, R329, R335, R341, R464, R470. -/
def Obligations.EmbeddingSteps : Prop :=
  (∀ (h : Nat) (s : State) (t : EmbTable), s.embTable h = some t → let me := t.self s
    (t.updates = true → t.barrier ≤ t.ends → s.embRuns = true → (t.step ≤ t.startStep ∨
        (t.participants s).all (fun p => t.notices.any (fun k => k.part == p && k.step + 1 == t.step)) = true) →
      ∃ u y, exec (.embStepClose h) s = .next u ∧ u.emb.tables.find h = some y ∧ y.step = t.step + 1 ∧ y.ends = 0 ∧ y.ended = [] ∧
        y.homeStep = t.homeStep ∧ y.entries = t.entries ∧ u.mem = s.mem ∧
        y.ctr.lost = t.ctr.lost + (t.allParts s).countP (t.lostParts.contains ·) ∧
        (me ∈ t.participants s → y.tokens.any (fun k => k.part == me && k.step == t.step) = true) ∧
        (s.fab.reqs.length + s.fab.embSent.length + (t.participants s).length < 2 ^ 31 → ∀ p ∈ t.participants s, p ≠ me →
          ∃ k f, u.fab.embSent.find k = some f ∧ f.dst = p ∧ f.op = 5 ∧ f.tag = k ∧ f.payload = leb 8 (tokenCount t.sent p t.step))) ∧
    (t.updates = false ∨ t.ends < t.barrier ∨ s.embRuns = false → exec (.embStepClose h) s = .next s) ∧
    (t.updates = true → t.closing = none → homeReady s t = true → s.embRuns = true → t.entries.all (fun e => (s.armed 8 (unitEmb e.unit)).isNone) = true →
      ∀ s0, s0 = s.modEmb h (fun t => { t with lost := t.lost.map (fun k =>
        { k with count := k.count - (tokenCount t.tokens k.part t.homeStep - tokenCount t.received k.part t.homeStep) }) }) →
      (∀ hy s1, readHyper t s0 = (some hy, s1) → exec (.embHomeStepClose h) s = .next (closeOn h (s1.modEmb h (fun t => { t with closing := some hy })))) ∧
      (∀ s1, readHyper t s0 = (none, s1) → exec (.embHomeStepClose h) s = .next (homeAdvance h (s1.modEmb h (fun t => { t with
        entries := t.entries.filter (fun e => e.step != t.homeStep)
        ctr := { t.ctr with rmwFailed := t.ctr.rmwFailed + t.entries.countP (fun e => e.step == t.homeStep) } }))))) ∧
    (t.updates = false ∨ t.closing ≠ none ∨ homeReady s t = false ∨ s.embRuns = false → exec (.embHomeStepClose h) s = .next s) ∧
    (∀ hy, (∀ e ∈ t.entries, e.step = t.homeStep → ((closeFeed h hy s).embTable h).any (fun y => y.entries.contains e) = true ∨
        ∃ u, ⟨h, e, hy, true⟩ ∈ (closeFeed h hy s).embUpdates u) ∧
      (∀ e ∈ t.entries, e.step ≠ t.homeStep → ((closeFeed h hy s).embTable h).any (fun y => y.entries.contains e) = true) ∧
      ((∀ u, (s.embUpdates u).length + t.entries.length ≤ Config.nmuDepth) →
        ((closeFeed h hy s).embTable h).any (fun y => y.entries.any (fun e => e.step == t.homeStep)) = false)) ∧
    (∀ hy, t.closing = some hy → t.entries.any (fun e => e.step == t.homeStep) = false →
      s.emb.updates.vals.any (fun l => l.any (fun y => y.table == h && y.closing)) = false → closeOn h s = homeAdvance h s) ∧
    (∃ y, (homeAdvance h s).emb.tables.find h = some y ∧ y.homeStep = t.homeStep + 1 ∧ y.closing = none ∧ y.step = t.step ∧ y.entries = t.entries ∧
      (me ∈ t.participants s → y.notices.any (fun k => k.part == me && k.step == t.homeStep) = true) ∧
      (s.fab.reqs.length + s.fab.embSent.length + (t.participants s).length < 2 ^ 31 → ∀ p ∈ t.participants s, p ≠ me →
        ∃ k f, (homeAdvance h s).fab.embSent.find k = some f ∧ f.dst = p ∧ f.op = 6 ∧ f.tag = k ∧ f.payload = []))) ∧
  (∀ (k : Nat) (vc h : Nat) (f : TFrame) (s : State) (t : EmbTable), s.embRuns = true →
    ((s.takeArrival k vc f).embByTag f = some (h, t) →
      (s.nextArrival k [5] = some (vc, f) → exec (.embTokenReceive k) s = .next (if f.aux / 2 ^ 32 < t.homeStep then s.takeArrival k vc f
        else takeToken h f.src (f.aux / 2 ^ 32) (fld f.payload 0 8) (s.takeArrival k vc f))) ∧
      (s.nextArrival k [6] = some (vc, f) → exec (.embNoticeReceive k) s = .next (if f.aux / 2 ^ 32 + 1 < t.step then s.takeArrival k vc f
        else takeNotice h f.src (f.aux / 2 ^ 32) (s.takeArrival k vc f))) ∧
      (s.nextArrival k [7] = some (vc, f) → exec (.embLostReceive k) s = .next ((s.takeArrival k vc f).modEmb h (fun t => { t with
        lost := bumpToken t.lost f.src 0 (f.aux / 2 ^ 32), ctr := { t.ctr with lost := t.ctr.lost + f.aux / 2 ^ 32 } })))) ∧
    ((s.takeArrival k vc f).embByTag f = none →
      (s.nextArrival k [5] = some (vc, f) → exec (.embTokenReceive k) s = .next (embDropped 1 (s.takeArrival k vc f))) ∧
      (s.nextArrival k [6] = some (vc, f) → exec (.embNoticeReceive k) s = .next (s.takeArrival k vc f)) ∧
      (s.nextArrival k [7] = some (vc, f) → exec (.embLostReceive k) s = .next (s.takeArrival k vc f))) ∧
    (s.nextArrival k [5] = none → exec (.embTokenReceive k) s = .next s) ∧ (s.nextArrival k [6] = none → exec (.embNoticeReceive k) s = .next s) ∧
    (s.nextArrival k [7] = none → exec (.embLostReceive k) s = .next s)) ∧
  (∀ (h part step n : Nat) (s : State) (t : EmbTable), s.emb.tables.find h = some t →
    ((takeToken h part step n s).emb.tables.find h).map EmbTable.tokens =
      some (if t.tokens.any (fun k => k.part == part && k.step == step) then t.tokens else t.tokens ++ [⟨part, step, n⟩]) ∧
    ((takeNotice h part step s).emb.tables.find h).map EmbTable.notices =
      some (if t.notices.any (fun k => k.part == part && k.step == step) then t.notices else t.notices ++ [⟨part, step, 0⟩]))

/-- RESUME and UNIT RESUME put a suspended operation back in its queue or abandon it; a command in flight ends when what it waits for has come. Rests on R78, R83, R84, R85, R130, R204, R208, R209, R547, R610. -/
def Obligations.ResumesAndCompletions : Prop :=
  (∀ (f : Frame) (s : State) (x : Session) (y : Susp), let b := f.payload; let u := seen f s; let h := rsHandle b
    let iss := Issuer.rcp f.sessionId.toNat f.requestId.toNat; let v := frameInFlight f 0x0007 (.resume h) u
    accepted 0x0007 f s x = true → b.length = 32 → passes (allResumeFails u x.ctx iss b) = true → u.units.susp.find h = some y →
    (rsAbandon b = true → exec (.resume f) s = .next (jobAbandon y.job iss x.ctx (v.dropSusp h)) ∧ (h ≠ 0 → (v.dropSusp h).units.susp.find h = none)) ∧
    (rsAbandon b = false → exec (.resume f) s = .next (jobResume y.job iss (rsOut b) (rsLen b)
      { v with units := { v.units with susp := v.units.susp.put h { y with resuming := true } } }))) ∧
  (∀ (iss : Issuer) (a n e : Nat) (s : State), a % 64 = 0 →
    (∀ j, ((jobResume (.table e j) iss a n s).tableEng e).queue = (s.tableEng e).queue ++ [{ j with head := j.head.again iss a n }]) ∧
    (∀ j, ((jobResume (.column e j) iss a n s).colEng e).queue = (s.colEng e).queue ++ [{ j with head := j.head.again iss a n }]) ∧
    (∀ j, ((jobResume (.join e j) iss a n s).joinEng e).queue = (s.joinEng e).queue ++ [{ j with head := j.head.again iss a n }])) ∧
  (∀ (t : Fin 8192) (w : Insn) (s v : State), let c := s.ctxOf t; let a := ((s.thread t).rs (insA w)).toNat; let r := ((s.thread t).rs (insB w)).toNat
    asyncReady t r (fetched t s) v → issues rowResume t w s = true →
    issuesAs (.unitResume t w) t w r (resumeKind (fetched t s) t c a) s v (fun iss u => resumeIssue iss c a u)) ∧
  (∀ (iss : Issuer) (c a : Nat) (s u : State) (b : List Byte), Io.exec (memRead c a 32) s = (.ok b, u) →
    (u.units.susp.find (rsHandle b) = none → ∃ k, k < 65536 ∧ resumeIssue iss c a s = (u.draw).2.failOp iss c k 0 0 (errAt stState 0)) ∧
    (∀ y, u.units.susp.find (rsHandle b) = some y →
      (passes (allResumeFails u c iss b) = true → resumeIssue iss c a s = resumeGo iss c b y u) ∧
      (∀ e, firstFail (allResumeFails u c iss b) = some e → resumeIssue iss c a s = u.failOp iss c y.job.kind 0 0 e))) ∧
  (∀ (sid rid : Nat) (s : State),
    (s.fwReady = false ∨ s.command sid rid = none → exec (.commandCompletion sid rid) s = .next s) ∧
    (∀ x c, s.session sid = some x → x.inFlight.find? (fun c => c.rid == rid) = some c → s.command sid rid = some (x, c) ∧
      (s.canFinish = true → ∀ st p, (s.finish sid rid st p).session sid = some (Session.cachePut
        { x with inFlight := x.inFlight.filter (fun d => d.rid != rid) } (x.completion sid rid c.opcode st p)))) ∧
    (s.session sid = none → s.canFinish = true → ∀ st p, s.finish sid rid st p = { s with rcp := { s.rcp with
      orphans := s.rcp.orphans.filter (fun o => !(o.sid == sid && o.cmd.rid == rid)) } }) ∧
    (∀ x c, s.command sid rid = some (x, c) → s.fwReady = true →
      (∀ ctx va len, c.wait = .unmap ctx va len →
        (s.accessing ctx va len = true → exec (.commandCompletion sid rid) s = .next s) ∧
        (s.accessing ctx va len = false → exec (.commandCompletion sid rid) s = .next ((s.unmapRange ctx va len).finish sid rid stOk []))) ∧
      (∀ ctx, c.wait = .contextDestroy ctx →
        (contextBusy s ctx = true → exec (.commandCompletion sid rid) s = .next s) ∧
        (contextBusy s ctx = false → exec (.commandCompletion sid rid) s = .next ((contextEnd ctx s).finish sid rid stOk []) ∧
          (contextEnd ctx s).mem.contexts.find ctx = none ∧ (contextEnd ctx s).disp.flows.vals.all (fun y => y.ctx != ctx) = true)) ∧
      (∀ ctx g, c.wait = .mapQueue ctx g →
        (s.unmapping ctx = true → exec (.commandCompletion sid rid) s = .next s) ∧
        (s.unmapping ctx = false → (∀ d ∈ s.running, (∃ g, d.2.wait = .mapQueue ctx g) → c.order ≤ d.2.order) →
          exec (.commandCompletion sid rid) s = .next (runQueued (if c.opcode = 0x0202 then mapNow else unmapNow) g x sid rid s))) ∧
      (∀ g, c.wait = .deferred g →
        (s.dbg.frz.on = true → exec (.commandCompletion sid rid) s = .next s) ∧
        (s.dbg.frz.on = false → (∀ d ∈ s.running, d.1 = sid → (∃ g, d.2.wait = .deferred g) → c.order ≤ d.2.order) →
          exec (.commandCompletion sid rid) s = .next (runQueued (rcpHandler c.opcode) g x sid rid s)))))

/-- CONTEXT_CREATE and DESTROY, IMAGE_LOAD and UNLOAD, LEGEND_CREATE and its DESTROY that meet no row of their tables have their effects. Rests on R135, R136, R137, R138, R203, R204, R233, R234, R235, R496, R497, R610. -/
def Obligations.ImagesLegendsAndContexts : Prop :=
  ∀ (f : Frame) (s : State) (x : Session), let p := f.payload; let u := seen f s; let ctx := fld p 0 2; let h := fld p 0 8
    (accepted 0x0200 f s x = true → passes (contextCreateFails f u) = true → ∃ n : Nat, 1 ≤ n ∧ n ≤ 255 ∧ (ctx ≠ 0 → n = ctx) ∧
      s.mem.contexts.find n = none ∧ exec (.contextCreate f) s = .next (doneOk 0x0200 f (leb 2 n ++ zeros 2)
        { u with mem := { u.mem with contexts := u.mem.contexts.put n (Ctx.init (fld p 2 2 == 1) (fld p 8 8)) } })) ∧
    (accepted 0x0201 f s x = true → passes (contextDestroyFails f u) = true → ∃ v : State, exec (.contextDestroy f) s = .next v ∧
      v = contextGo ctx (frameInFlight f 0x0201 (.contextDestroy ctx) u) ∧
      v.roce.mrs.vals.all (fun y => y.ctx != ctx) = true ∧ v.emb.tables.vals.all (fun y => y.ctx != ctx) = true ∧
      (s.frames.sessions.sorted = true → ∀ k y, v.frames.sessions.find k = some y → y.ctx = ctx → y.closing = true) ∧ v.units.susp.vals.all (fun y => y.ctx != ctx) = true ∧
      v.units.legends.vals.all (fun y => y.ctx != ctx) = true) ∧
    (∀ img s1, accepted 0x0400 f s x = true → passes (loadFailsA u x.ctx p) = true → Io.exec (memRead x.ctx (fld p 0 8) (fld p 8 8)) u = (.ok img, s1) →
      passes (loadFailsB s1 x.ctx p img) = true → ∃ (n : Nat) (im : Image) (v : State),
        exec (.imageLoad f) s = .next (doneOk 0x0400 f (leb 8 n ++ leb 8 im.codeVa ++ leb 8 im.dataVa) v) ∧
        (s.pods.images.length < 2 ^ 63 → n ≠ 0 ∧ n < 2 ^ 64 ∧ s.pods.images.find n = none) ∧
        im.ctx = x.ctx ∧ im.id = fld img 8 8 ∧ im.version = fld img 0x10 4 ∧ im.digest = sha384 img ∧ im.entry = fld img 0x14 4 ∧ im.arg = fld p 0x10 8 ∧
        im.ring = fld p 0x18 8 ∧ im.ringEntries = fld p 0x20 4 ∧ im.codeLen = hdCodeLen img ∧ im.dataLen = hdDataLen img ∧ im.stop = none ∧
        v.pods.images.find n = some im ∧ v.fw = (s.extend 2 (sha384 img)).fw ∧
        (ilReplace p = false → (s.pods.threads.sorted = true → ∀ t ∈ ilThreads p, v.thread t = startThread t n im (s.thread t))) ∧
        (ilReplace p = true → ∀ o oi, loadedImage s1 x.ctx (fld img 8 8) = some (o, oi) → o ≠ n →
          (v.pods.images.find o).all (fun i => i.stop == some (some n)) = true)) ∧
    (accepted 0x0401 f s x = true → passes (imageUnloadFails f x u) = true →
      (bit (fld p 8 4) 0 = true → exec (.imageUnload f) s = .next (unbindImage h true (frameInFlight f 0x0401 (.imageDrain h) (stopImage h u)))) ∧
      (bit (fld p 8 4) 0 = false → exec (.imageUnload f) s = .next (doneOk 0x0401 f [] (unbindImage h false (stopImage h u)))) ∧
      (∀ i, u.pods.images.find h = some i → (stopImage h u).pods.images.find h = some { i with stop := some none })) ∧
    (bit (fld p 0xC 4) 0 = false → accepted 0x0500 f s x = true → p.length = 24 → passes (legendFails u x.ctx p) = true → ∀ b s1,
      Io.exec (memRead x.ctx (fld p 0 8) (fld p 8 4)) u = (.ok b, s1) → ∃ (n : Nat) (v : State), exec (.legendCreate f) s = .next (doneOk 0x0500 f (leb 8 n) v) ∧
        v.units.legends.find n = some ⟨x.ctx, b⟩ ∧ (∀ k, k ≠ n → v.units.legends.find k = s.units.legends.find k) ∧
        (s.units.legends.length < 2 ^ 63 → n ≠ 0 ∧ n < 2 ^ 64 ∧ s.units.legends.find n = none)) ∧
    (bit (fld p 0xC 4) 0 = true → accepted 0x0500 f s x = true → passes (legendDestroyFails f x u) = true → ∃ v : State,
      exec (.legendDestroy f) s = .next (doneOk 0x0500 f [] v) ∧ v.units.legends.find (fld p 0x10 8) = none ∧
      (s.units.legends.sorted = true → ∀ k, k ≠ fld p 0x10 8 → v.units.legends.find k = s.units.legends.find k))

/-- MAP and UNMAP change what the ATU answers; channels drain, retrain and come back with their granules; maintenance changes nothing. Rests on R199, R205, R206, R207, R208, R209, R219, R220, R221, R222, R360, R610. -/
def Obligations.MemoryCommandsAndChannels : Prop :=
  (∀ (f : Frame) (s : State) (x : Session), let p := f.payload; let u := seen f s; let va := fld p 0 8; let len := fld p 8 8
    (accepted 0x0202 f s x = true → let ctx := fld p 0x20 2
      (u.mapBusy ctx = true → exec (.map f) s = .next (frameInFlight f 0x0202 (.mapQueue ctx f) u)) ∧
      (u.mapBusy ctx = false → passes (mapNowFails f x u) = true → let kind := fld p 0x10 1; let ecc := fld p 0x13 1 == 1
        let c := (u.mem.contexts.find ctx).getD (Ctx.init false 0); let got := u.allocate (fld p 0x14 1) (pageBytes (fld p 0x11 1)) len ecc
        (kind = 0 → got = none → exec (.map f) s = .next (frameComplete f 0x0202 stLimit (errPayload (errD stLimit 2)) u)) ∧
        (∀ es ck, (kind = 0 → got = some (es, ck)) → (kind = 1 → es = c.behind (fld p 0x18 8) len) → (kind = 2 → es = [⟨len, fld p 0x18 8⟩]) →
          c.maps.length < 65536 → ∃ v : State, exec (.map f) s = .next (doneOk 0x0202 f [] v) ∧
          (∀ off, off < len → ∀ n : Need, n.met ⟨va, len, .alloc, 0, bit (fld p 0x12 1) 0, bit (fld p 0x12 1) 1, false, ecc, es, false⟩ = true →
            atu v ctx (va + off) n = (match extAt es off with
              | none => .error stXlate
              | some pa => .ok (pa, ecc))) ∧
          (kind = 0 → ∀ e ∈ es, ∀ a, e.pa ≤ a → a < e.pa + e.len → v.mem.byte a = 0) ∧ (kind = 1 → v.mem.bytes = s.mem.bytes) ∧
          (kind = 2 → ∀ i, i < len / 4096 → c.holds (fld p 0x18 8 + 4096 * i) = false → ∀ a, fld p 0x18 8 + 4096 * i ≤ a →
            a < fld p 0x18 8 + 4096 * i + 4096 → v.mem.byte a = 0) ∧
          (∀ k, k ≠ ctx → v.mem.contexts.find k = s.mem.contexts.find k)))) ∧
    (accepted 0x0203 f s x = true → let ctx := fld p 0x10 2
      (u.mapBusy ctx = true → exec (.unmap f) s = .next (frameInFlight f 0x0203 (.mapQueue ctx f) u)) ∧
      (u.mapBusy ctx = false → passes (unmapNowFails f x u) = true → ∃ v : State,
        exec (.unmap f) s = .next (if u.accessing ctx va len then frameInFlight f 0x0203 (.unmap ctx va len) v else doneOk 0x0203 f [] v) ∧
        ∀ a n, va ≤ a → a < va + len → atu v ctx a n = .error stXlate)) ∧
    (passes (retrainChannelFails f u) = true → let ch := fld p 0 1
      let v := fun (act : Nat) (st : ChState) => { u with mem := { u.mem with retrains := u.mem.retrains.put ch ⟨act, 0⟩ } }.setChannel ch st
      (acceptedAs 0x0204 1 0 f s x = true → exec (.retrainChannel f) s =
        .next (frameInFlight f 0x0204 (.channel ch) (v 0 (if (u.inUse ch).isEmpty then .retraining else .draining)))) ∧
      (acceptedAs 0x0204 1 1 f s x = true →
        ((u.inUse ch).isEmpty = true → exec (.channelDrain f) s = .next (doneOk 0x0204 f (movedPayload 0) ((v 1 .outOfService).endRetrain ch))) ∧
        ((u.inUse ch).isEmpty = false → exec (.channelDrain f) s = .next (frameInFlight f 0x0204 (.channel ch) (v 1 .draining)))) ∧
      (acceptedAs 0x0204 1 2 f s x = true → exec (.channelRetrainRestore f) s = .next (frameInFlight f 0x0204 (.channel ch) (v 2 .retraining))))) ∧
  (∀ (ch : Fin 128) (s : State),
    (s.frozen (partIsland (islMc (ch / 4))) = true ∨ s.mem.retrains.find ch = none → exec (.granuleCopyDone ch) s = .next s) ∧
    (∀ r, s.frozen (partIsland (islMc (ch / 4))) = false → s.mem.retrains.find ch = some r → s.mem.wf = true →
      (∀ g d, (s.channel ch).state = .draining → s.nextMove ch = some (g, d) → ∃ v : State, exec (.granuleCopyDone ch) s = .next v ∧
        v.mem.read (4096 * d) 4096 = s.mem.read (4096 * g) 4096 ∧ v.mem.read (4096 * g) 4096 = zeros 4096 ∧
        (r.action ≠ 1 → v.mem.retrains.find ch = some ⟨r.action, r.count + s.copied g d false⟩)) ∧
      (∀ x l, (s.channel ch).state = .restoring → (s.channel ch).moved = x :: l → x.now ≠ x.own → ∃ v : State, exec (.granuleCopyDone ch) s = .next v ∧
        v.mem.read (4096 * x.own) 4096 = s.mem.read (4096 * x.now) 4096 ∧ v.mem.read (4096 * x.now) 4096 = zeros 4096)) ∧
    ((s.channel ch).state ≠ .retraining ∨ s.up (islMc (ch / 4)) = false → ∀ r, exec (.channelTrainingDone ch r) s = .next s) ∧
    ((s.channel ch).state = .retraining → s.up (islMc (ch / 4)) = true →
      (∀ n r, s.mem.retrains.find ch = some r → (s.channel ch).moved = [] → ∃ v : State, exec (.channelTrainingDone ch (.pass n)) s =
          .next (v.finishAll (.channel ch) stOk (movedPayload r.count)) ∧ (v.channel ch).state = .active ∧ v.mem.retrains.find ch = none) ∧
      (∀ n, (s.channel ch).moved ≠ [] → s.mem.retrains.find ch ≠ none → exec (.channelTrainingDone ch (.pass n)) s = .next (s.setChannel ch .restoring)) ∧
      exec (.channelTrainingDone ch .fail) s = .next (((s.setChannel ch .outOfService).endRetrain ch).failAll (.channel ch) (errD stHw 1)) ∧
      exec (.channelTrainingDone ch .absent) s = .next (((s.setChannel ch .outOfService).endRetrain ch).failAll (.channel ch) (errD stHw 1))) ∧
    exec (.dqsTracking ch) s = .next s) ∧
  (∀ (mc : Fin 32) (s : State), exec (.perBankRefresh mc) s = .next s ∧ exec (.zqCalibration mc) s = .next s) ∧
  (∀ s : State,
    (s.svc.lostControllers = [] → exec .reservationRebuilt s = .next s) ∧
    (s.fwReady = true → s.svc.lostControllers ≠ [] → ∃ v : State, exec .reservationRebuilt s = .next v ∧ (∀ b e, shadowsReadable v b e = (true, true)) ∧
      (s.gaz.banks.sorted = true → ∀ b < 8, (s.gazBank b).sh0.sorted = true → (s.gazBank b).sh1.sorted = true → ∀ e,
        (shadowsReadable s b e = (true, false) → (v.gazBank b).sh1.at 0 e = (s.gazBank b).sh0.at 0 e) ∧
        (shadowsReadable s b e = (false, true) → (v.gazBank b).sh0.at 0 e = (s.gazBank b).sh1.at 0 e))))

/-- Frame sessions open, take descriptors within their streams, grant stores to the sample that waited longest, decode within a turn, and end samples. Rests on R419, R420, R423, R424, R426, R427, R428, R429, R430, R431, R432, R442. -/
def Obligations.FrameSessionsAndSamples : Prop :=
  (∀ (f : Frame) (s : State) (x : Session), let p := f.payload; let u := seen f s; let id := fld p 4 4
    (acceptedAs 0x0530 0 0 f s x = true → passes (frameOpenFails u x.ctx p) = true → ∀ t s1, Io.exec (memRead x.ctx (fld p 0x28 8) 320) u = (.ok t, s1) →
      ∃ (n : Nat) (v : State), exec (.frameSessionOpen f) s = .next (doneOk 0x0530 f (leb 4 n ++ zeros 4) v) ∧
        v.fsession n = some ⟨x.ctx, p, t, 0, 0, [], 0, 0, false, none⟩ ∧ (∀ k, k ≠ n → v.fsession k = s.fsession k) ∧
        (s.frames.sessions.length ≤ 256 → n ≠ 0 ∧ n < 2 ^ 32 ∧ s.fsession n = none)) ∧
    (acceptedAs 0x0530 0 1 f s x = true → passes (frameCloseFails f x u) = true →
      (bit (fld p 3 1) 0 = false → ∃ v : State, exec (.frameSessionClose f) s = .next ((doneOk 0x0530 f [] v).finishAll (.frameClose id) stOk []) ∧
        v.fsession id = none) ∧
      (bit (fld p 3 1) 0 = true → exec (.frameSessionClose f) s =
        .next ((frameInFlight f 0x0530 (.frameClose id) (u.modFs id (fun y => { y with closing := true }))).settleFrames id)))) ∧
  (∀ (id : Nat) (s : State) (x : FSession), s.fsession id = some x →
    (s.intakeActive = true → x.closing = false → x.samples.length < x.streams →
      (x.taken ≠ x.prod → exec (.frameRingPoll id) s = .next (takeSamples id 4096 s)) ∧
      (∀ b s1, x.taken = x.prod → Io.exec (memRead x.ctx (fld x.open_ 0x18 8) 4) s = (.ok b, s1) →
        exec (.frameRingPoll id) s = .next (takeSamples id 4096 (s1.modFs id (fun x => { x with prod := le b }))))) ∧
    (x.closing = true ∨ x.streams ≤ x.samples.length → exec (.frameRingPoll id) s = .next s) ∧
    (∀ n, x.samples.length ≤ x.streams → ∃ y, (takeSamples id n s).fsession id = some y ∧ y.samples.length ≤ y.streams ∧ y.open_ = x.open_ ∧ y.ctx = x.ctx)) ∧
  (∀ (id k : Nat) (s : State) (x : FSession) (y : Sample), s.sample id k = some (x, y) →
    (y.state = .stores → storeFree s x y.need = true → s.works (unitFrame y.engine) = true →
      ((∀ z ∈ s.allSamples, z.state = .stores → y.order ≤ z.order) → ∃ v : State, exec (.frameStoreGrant id k) s = .next v ∧
        (v.sample id k).map Prod.snd = some { y with state := .ready, store := y.need, need := 0 }) ∧
      ((∃ z ∈ s.allSamples, z.state = .stores ∧ z.order < y.order) → exec (.frameStoreGrant id k) s = .next s)) ∧
    (y.state ≠ .stores ∨ storeFree s x y.need = false → exec (.frameStoreGrant id k) s = .next s) ∧
    (s.nextTurn y.engine = some (id, k) → s.works (unitFrame y.engine) = true →
      ∀ s1 y1 q, s1 = { s with frames := { s.frames with turns := s.frames.turns.put y.engine (id, k) } } →
        y1 = (if y.begun then y else beginStream x y s1) → q = decodeTurn id (y1.steps.length + 1) 4096 x y1 s1 →
        exec (.frameDecodeTurn id k) s = .next (settleSample id k x q.1 q.2) ∧
        q.1.units ≤ y.units + 4096 ∧ (∀ b, sBudget x y.desc = some b → y.units ≤ b → q.1.units ≤ b)) ∧
    (s.nextTurn y.engine ≠ some (id, k) → exec (.frameDecodeTurn id k) s = .next s) ∧
    (∀ z u, z.wants x = true → z.placed = false →
      ((settleSample id k x z u).projEng z.proj).queue = (u.projEng z.proj).queue ++ [.sample id k]) ∧
    (∀ e, y.state = .ending → y.result = some e → s.works (unitFrame y.engine) = true → ∃ v : State, exec (.sampleEnd id k) s = .next v ∧
      (v.sample id k = none ∨ ∃ z, v.sample id k = some z ∧ z.2.state = .held ∧ z.2.store = 0 ∧ z.2.desc = y.desc) ∧
      (x.asm = none → x.outFlow = 0xFFFF_FFFF → v.sample id k = none)) ∧
    (y.state ≠ .ending → exec (.sampleEnd id k) s = .next s) ∧
    (y.state = .held → s.works (unitFrame y.engine) = true → (x.asm ≠ none ∨ x.outFlow ≠ 0xFFFF_FFFF) →
      (s.firstToLeave id k = false → exec (.sampleItemRelease id k) s = .next s) ∧
      (s.firstToLeave id k = true →
        (x.asm = none → ∀ b w, s.emit x.outFlow (sampleArgs id y (y.result.getD ⟨stOk, 0, 0xFFFF, 0⟩) ++ leb 8 x.userId) 2 y.engine = (b, w) → ∃ v : State,
          exec (.sampleItemRelease id k) s = .next v ∧ (b = false → v = w) ∧ (b = true → v.sample id k = none)) ∧
        (∀ a, x.asm = some a → ∃ v : State, exec (.sampleItemRelease id k) s = .next v ∧
          (a.accepts = false → v = s) ∧ (a.accepts = true → v.sample id k = none)))) ∧
    (y.state ≠ .held → exec (.sampleItemRelease id k) s = .next s))

/-- BATCH_CONFIG attaches, flushes and detaches an Assembler; a complete batch's manifest is written where the ring has room and its item enters BATCH_FLOW. Rests on R434, R435, R436, R438, R439, R440. -/
def Obligations.BatchAssembly : Prop :=
  (∀ (f : Frame) (s : State) (x : Session), let p := f.payload; let u := seen f s; let id := fld p 4 4
    passes (batchFails u x.ctx p) = true →
    (acceptedAs 0x0531 0 0 f s x = true → exec (.batchAttach f) s = .next (doneOk 0x0531 f [] (u.modFs id (fun y => { y with asm := some (asmOf p) }))) ∧
      (asmOf p).batches = [] ∧ (asmOf p).written = 0 ∧ (asmOf p).size = fld p 2 2) ∧
    (acceptedAs 0x0531 0 2 f s x = true → exec (.batchDetach f) s = .next (doneOk 0x0531 f [] (u.modFs id (fun y => { y with asm := none })))) ∧
    (acceptedAs 0x0531 0 1 f s x = true → ∀ y a, u.fsession id = some y → y.asm = some a →
      (a.anyPartly = false → exec (.batchFlush f) s = .next (doneOk 0x0531 f [] u)) ∧
      (a.anyPartly = true → exec (.batchFlush f) s = .next (frameInFlight f 0x0531 (.flush id (a.index + a.current)) (u.modAsm id (flushBatch y))) ∧
        (flushBatch y a).done a.current = true))) ∧
  (∀ (id : Nat) (s : State) (x : FSession) (a : Assembler), s.fsession id = some x → x.asm = some a → s.intakeActive = true →
    (∀ s1, a.item = none → a.done 0 = true → a.full = false →
      Io.exec (memWrite x.ctx (a.man + a.written % a.entries * a.stride) (a.manifest id x.userId)) s = (.ok (), s1) →
      exec (.batchEmit id) s = .next (offerBatch id (s1.modAsm id (fun a => { a with item := some (a.itemArgs id), written := (a.written + 1) % 2 ^ 32 })))) ∧
    (a.item ≠ none → exec (.batchEmit id) s = .next (offerBatch id s)) ∧
    (a.item = none → a.done 0 = false ∨ a.full = true → exec (.batchEmit id) s = .next s) ∧
    (∀ b g w, a.item = some b → s.emit a.flow (b ++ leb 8 x.userId) 2 32 = (g, w) →
      (g = false → offerBatch id s = w) ∧
      (g = true → offerBatch id s = State.settleFrames ((w.modAsm id (fun a => { a with item := none, index := a.index + 1, batches := a.batches.drop 1 })).finishAll
        (.flush id a.index) stOk []) id)) ∧
    (a.full = false → exec (.manifestRingPoll id) s = .next s) ∧
    (∀ b s1, a.full = true → Io.exec (memRead x.ctx a.mcons 4) s = (.ok b, s1) → ∃ v : State, exec (.manifestRingPoll id) s = .next v ∧
      ((v.fsession id).bind FSession.asm).map Assembler.consumed = some (le b) ∧ v.mem = s1.mem)) ∧
  (∀ (a : Assembler) (id user : Nat), (a.manifest id user).length = a.stride)

/-- Fabric links train, exchange INIT, number and acknowledge frames, replay from a NAK, send IDLE, and fail; credits bound what is sent. Rests on R444, R445, R447, R448, R449, R450, R452, R453, R458, R461, R477. -/
def Obligations.FabricLinks : Prop :=
  (∀ (p : Fin 12) (s : State), let x := s.fport p
    (x.state = .up ∨ x.state = .init → exec (.fabricLinkTraining p) s = .next s) ∧
    (s.up (islFabric p) = false ∨ s.clkMode = 3 → exec (.fabricLinkTraining p) s = .next s) ∧
    (x.state ≠ .up → x.state ≠ .init → s.up (islFabric p) = true → s.clkMode ≠ 3 → ∃ v : State, exec (.fabricLinkTraining p) s = .next (v.sendInit p) ∧
      v.fport p = { x with state := .init, gotInit := false }) ∧
    (x.state = .init → x.gotInit = false → x.lastTx + 1000 ≤ s.ctl.now → exec (.initSend p) s = .next (s.sendInit p)) ∧
    (x.state ≠ .init ∨ x.gotInit = true ∨ s.ctl.now < x.lastTx + 1000 → exec (.initSend p) s = .next s) ∧
    (x.state = .init → x.gotInit = true → x.lastTx + 100000000 ≤ s.ctl.now →
      exec (.initRetry p) s = .next ((s.modFport p (fun y => { y with gotInit := false })).sendInit p)) ∧
    (x.state ≠ .init ∨ x.gotInit = false ∨ s.ctl.now < x.lastTx + 100000000 → exec (.initRetry p) s = .next s) ∧
    (x.state = .up → x.lastTx + 100 ≤ s.ctl.now → exec (.idleSend p) s = .next (s.sendLink p 1 0 0 x.rxSeq [] false)) ∧
    (x.state ≠ .up ∨ s.ctl.now < x.lastTx + 100 → exec (.idleSend p) s = .next s) ∧
    (x.state = .up → x.lastRx + 10000 ≤ s.ctl.now → exec (.linkSilenceTimeout p) s = .next (s.failPort p)) ∧
    (x.state ≠ .up ∨ s.ctl.now < x.lastRx + 10000 → exec (.linkSilenceTimeout p) s = .next s) ∧
    (x.state = .up ∨ x.state = .init → exec (.fabricLinkFail p) s = .next (s.failPort p)) ∧
    (x.state ≠ .up → x.state ≠ .init → exec (.fabricLinkFail p) s = .next s) ∧ ((s.failPort p).fport p).state = .failed ∧
    (x.state = .up → ((s.failPort p).fport p).replay = [] ∧ ((s.failPort p).fport p).failures = sat32 x.failures 1 ∧
      ∀ g, (entPorts ((s.failPort p).fab.routes.at 0 g)).contains p.val = false) ∧
    (∀ vc, nth x.spent 0 vc ≤ nth x.init 0 vc + nth x.granted 0 vc → let y := (s.pumpPort p).fport p
      nth y.spent 0 vc ≤ nth y.init 0 vc + nth y.granted 0 vc)) ∧
  (∀ (p : Fin 12) (f : LinkFrame) (s : State), let x := s.fport p; let h := linkPart f; let b := sub (linkPart f) 16 32
    (linkBad f = none → fld h 1 1 = 3 → x.state = .init → ∃ v : State, exec (.initReceive p f) s = .next v ∧
      (v.fport p).gotInit = true ∧ (v.fport p).peerSerial = fld b 0 8 ∧ (v.fport p).peerPort = fld b 8 1 ∧ (v.fport p).peerGrat = fld b 0xC 2 ∧
      (v.fport p).peerMac = some (sub f.bytes 6 6) ∧
      (fld b 9 1 ≤ 1 → 1 ≤ fld b 0xA 1 → (v.fport p).state = .up ∧ (v.fport p).txSeq = 0 ∧ (v.fport p).rxSeq = 0 ∧ (v.fport p).spent = [0, 0, 0, 0] ∧
        (v.fport p).init = (List.range 4).map (fun k => fld b (0x18 + 2 * k) 2) ∧ v.fab.changedAt = some s.ctl.now) ∧
      (fld b 9 1 > 1 ∨ fld b 0xA 1 < 1 → (v.fport p).state = .init)) ∧
    (linkBad f = none → fld h 1 1 = 3 → x.state = .up → exec (.initReceive p f) s = .next (s.modFport p (fun y => { y with lastRx := s.ctl.now }))) ∧
    (∀ r, linkBad f = some r → x.state = .init ∨ x.state = .up → exec (.initReceive p f) s = .next (s.discardLink p r)) ∧
    (x.state ≠ .init → x.state ≠ .up → exec (.initReceive p f) s = .next s) ∧
    (x.state ≠ .up → exec (.fabricDataReceive p f) s = .next s ∧ exec (.nakReceive p f) s = .next s) ∧
    (∀ r, linkBad f = some r → x.state = .up →
      exec (.fabricDataReceive p f) s = .next (s.discardLink p r) ∧ exec (.nakReceive p f) s = .next (s.discardLink p r) ∧
      ((s.discardLink p r).fport p).crcErr = sat32 x.crcErr 1 ∧ ((s.discardLink p r).fport p).rxSeq = x.rxSeq ∧
      (x.nak = none → ∃ c, (s.discardLink p r).sent.head? = some (.fabric p (etherBytes (x.peerMac.getD (List.replicate 6 0xFF)) (s.fw.fuses.portMacBytes p)
        (linkBytes c 2 0 0 x.rxSeq [] false))))) ∧
    (linkBad f = none → x.state = .up → let s1 := s.ackPort p h
      (fld h 1 1 = 1 → exec (.fabricDataReceive p f) s = .next (s1.pumpPort p)) ∧
      (fld h 1 1 = 0 → fld h 4 2 ≠ x.rxSeq → exec (.fabricDataReceive p f) s = .next ((s1.nakPort p).pumpPort p)) ∧
      (fld h 1 1 = 0 → fld h 4 2 = x.rxSeq → ∃ v : State, exec (.fabricDataReceive p f) s = .next v ∧
        (v.fport p).rxSeq = (x.rxSeq + 1) % 65536) ∧
      (fld h 1 1 > 1 → exec (.fabricDataReceive p f) s = .next s) ∧ (fld h 1 1 ≠ 2 → exec (.nakReceive p f) s = .next s) ∧
      (fld h 1 1 = 2 → ((s1.fport p).replay.head?.map Prod.fst) ≠ some (fld h 6 2) → exec (.nakReceive p f) s = .next (s1.pumpPort p)) ∧
      (fld h 1 1 = 2 → ((s1.fport p).replay.head?.map Prod.fst) = some (fld h 6 2) →
        (8 ≤ (s1.fport p).replays → exec (.nakReceive p f) s = .next (s1.failPort p)) ∧
        ((s1.fport p).replays < 8 → ∃ v : State, exec (.nakReceive p f) s = .next v ∧
          v = (s1.modFport p (fun y => { y with owes := true })).pumpPort p ∧
          (s1.portFrozen p = false → (v.fport p).replays = (s1.fport p).replays + 1 ∧ (v.fport p).replayCount = min 0xFFFF ((s1.fport p).replayCount + 1))))))

/-- Discovery floods START, gathers REPORTs at the root, installs tables, and commits; no two parts get one address. Rests on R453, R454, R455, R456, R457, R471, R473, R474. -/
def Obligations.FabricDiscovery : Prop :=
  (∀ s : State,
    (∀ t, s.fwReady = true → s.fab.changedAt = some t → t + 1000000 ≤ s.ctl.now →
      (s.upPorts = [] → ∃ v : State, exec .discoverySettleTimer s = .next v ∧ v.fab.disc = none ∧ v.fab.changedAt = none) ∧
      (s.upPorts ≠ [] → ∃ v : State, exec .discoverySettleTimer s = .next v ∧ v.fab.changedAt = none ∧
        v.fab.disc = some (Discovery.start ((max s.fab.highest s.discEpoch + 1) % 2 ^ 32) s.serial none s.ctl.now))) ∧
    (s.fab.changedAt = none → exec .discoverySettleTimer s = .next s) ∧
    (∀ d q, s.fwReady = true → s.fab.disc = some d → d.reported = false → d.changed + 100000 ≤ s.ctl.now →
      (d.parent = some q → exec .discoveryReportTimer s =
        .next ((s.modDisc (fun d => { d with reported := true })).sendDisc q (discMsg 2 0 d.epoch s.serial d.root (ownReport s).bytes))) ∧
      (d.parent = none → exec .discoveryReportTimer s =
        .next (rootCompute (s.modDisc (fun d => { d with reported := true, reports := d.reports ++ [ownReport s] }))))) ∧
    (s.fab.disc = none → exec .discoveryReportTimer s = .next s)) ∧
  (∀ (p : Fin 12) (s : State),
    (∀ b s1, s.nextMsg p 1 = some (b, s1) → let e := fld b 4 4; let r := fld b 0x10 8; let known := (s1.fab.disc.map Discovery.root).getD s1.fab.rootSerial
      (e > s1.discEpoch ∨ (e = s1.discEpoch ∧ r < known) → ∃ v : State, exec (.discoveryStartReceive p) s = .next v ∧ v.fab.disc =
        some (if s1.serial < r then Discovery.start e s1.serial none s1.ctl.now else Discovery.start e r (some p) s1.ctl.now)) ∧
      (e < s1.discEpoch ∨ (e = s1.discEpoch ∧ known ≤ r) → exec (.discoveryStartReceive p) s = .next s1)) ∧
    (∀ k i, (k, i) ∈ [(1, Instr.discoveryStartReceive p), (2, .discoveryReportReceive p), (3, .discoveryTableReceive p), (4, .discoveryTableAckReceive p),
        (5, .discoveryCommitReceive p)] →
      (s.nextMsg p k = none → exec i s = .next s) ∧
      (∀ b s1 d, k ≠ 1 → s.nextMsg p k = some (b, s1) → s1.fab.disc = some d → fld b 4 4 ≠ d.epoch → exec i s = .next s1)) ∧
    (∀ b s1 d q, s.nextMsg p 2 = some (b, s1) → s1.fab.disc = some d → fld b 4 4 = d.epoch → d.parent = some q → ∃ v : State,
      exec (.discoveryReportReceive p) s = .next (v.sendDisc q b) ∧
      (v.fab.disc.map (fun d => d.reports.any (fun r => r.serial == fld b 8 8 && r.via == p.val && r.grat == fld b 32 2))) = some true) ∧
    (∀ b s1 d, s.nextMsg p 3 = some (b, s1) → s1.fab.disc = some d → fld b 4 4 = d.epoch → fld b 8 8 = s1.serial → ∃ v : State,
      exec (.discoveryTableReceive p) s = .next v ∧ v.fab.disc.map Discovery.shadow = some (installSegment b d.shadow) ∧
        v.fab.disc.map Discovery.newGrat = some (fld b 32 2)) ∧
    (∀ b s1 d q, s.nextMsg p 4 = some (b, s1) → s1.fab.disc = some d → fld b 4 4 = d.epoch → d.parent = some q →
      exec (.discoveryTableAckReceive p) s = .next (s1.sendDisc q b)) ∧
    (∀ b s1 d, s.nextMsg p 5 = some (b, s1) → s1.fab.disc = some d → fld b 4 4 = d.epoch → ∃ v : State, exec (.discoveryCommitReceive p) s = .next v ∧
      v.fab.routes = d.shadow ∧ v.fab.epoch = d.epoch ∧ v.fab.rootSerial = d.root ∧ v.fab.grat = d.newGrat ∧ v.fab.disc = none)) ∧
  (∀ (record : Tbl Nat) (rs : List PartReport) (a b : Nat × Nat), a ∈ assignAddrs record rs → b ∈ assignAddrs record rs → a.2 = b.2 → a.2 < 4096 → a.1 = b.1) ∧
  (∀ (f : Frame) (s : State) (x : Session), let u := seen f s
    (accepted 0x0600 f s x = true → f.payload = [] → ∃ b : List Byte, exec (.fabricStatus f) s = .next (doneOk 0x0600 f b u) ∧ b.length = 224 ∧
      fld b 0 2 = s.grat % 65536 ∧ fld b 4 4 = s.fab.epoch % 2 ^ 32 ∧ fld b 8 8 = s.fab.rootSerial % 2 ^ 64 ∧ fld b 0x12 1 = s.fabState) ∧
    (accepted 0x0601 f s x = true → f.payload = zeros 8 →
      (s.upPorts = [] → exec (.fabricRediscover f) s = .next (doneOk 0x0601 f (leb 4 s.fab.epoch ++ leb 2 1 ++ zeros 2) u)) ∧
      (s.upPorts ≠ [] → exec (.fabricRediscover f) s = .next (frameInFlight f 0x0601 .rediscover (if s.fab.disc.isSome then u else discTrigger u)))))

/-- A part writes, reads, adds and enters items for requests that arrive and answers each; a response completes its frame, and a request 1 s old ends its operation. Rests on R464, R465, R466, R467, R468. -/
def Obligations.RemoteRequestsAndResponses : Prop :=
  (∀ (p : Fin 13) (s : State) (vc : Nat) (f : TFrame), let s1 := s.takeArrival p vc f
    (∀ k i, (k, i) ∈ [(0, Instr.remoteWriteReceive p), (1, .readReqReceive p), (2, .atomicReceive p)] →
      (s.nextArrival p [k] = none ∨ s.memFrozen = true → exec i s = .next s) ∧
      (s.memFrozen = false → s.nextArrival p [k] = some (vc, f) → noContext s1 f = true → exec i s = .next (refuse f (errD stState 0x0B08) s1))) ∧
    (s.memFrozen = false → s.nextArrival p [0] = some (vc, f) → noContext s1 f = false →
      (∀ v, Io.exec (memWrite f.ctx f.addr f.payload) s1 = (.ok (), v) → exec (.remoteWriteReceive p) s = .next (respond f 8 0 [] v)) ∧
      (∀ e v, Io.exec (memWrite f.ctx f.addr f.payload) s1 = (.error e, v) → ∃ e', exec (.remoteWriteReceive p) s = .next (refuse f e' v) ∧
        e'.status = e.status ∧ e'.detector = e.detector)) ∧
    (s.memFrozen = false → s.nextArrival p [1] = some (vc, f) → noContext s1 f = false →
      (∀ b v, Io.exec (memRead f.ctx f.addr f.want) s1 = (.ok b, v) → exec (.readReqReceive p) s = .next (respond f 9 0 b v) ∧ b.length = f.want) ∧
      (∀ e v, Io.exec (memRead f.ctx f.addr f.want) s1 = (.error e, v) → ∃ e', exec (.readReqReceive p) s = .next (refuse f e' v) ∧
        e'.status = e.status ∧ e'.detector = e.detector)) ∧
    (s.memFrozen = false → s.nextArrival p [2] = some (vc, f) → noContext s1 f = false → ∀ n, n = (if bit f.flags 0 then 8 else 4) →
      (∀ b v, Io.exec (memModify f.ctx f.addr n (fun b => leb n (le b + f.aux))) s1 = (.ok b, v) →
        exec (.atomicReceive p) s = .next (respond f 10 (le b) [] v)) ∧
      (∀ e v, Io.exec (memModify f.ctx f.addr n (fun b => leb n (le b + f.aux))) s1 = (.error e, v) → ∃ e', exec (.atomicReceive p) s = .next (refuse f e' v) ∧
        e'.status = e.status ∧ e'.detector = e.detector)) ∧
    (s.nextArrival p [3] = none → exec (.sendReceive p) s = .next s) ∧
    (s.nextArrival p [3] = some (vc, f) → let fid := f.aux % 2 ^ 32
      (noContext s f = true ∨ s.flow fid = none ∨ (∃ x, s.flow fid = some x ∧ x.ctx ≠ f.ctx) ∨ fidKind fid ≠ 0 →
        exec (.sendReceive p) s = .next (refuse f (errD stState 0x0B08) s1)) ∧
      (∀ x r, noContext s f = false → s.flow fid = some x → x.ctx = f.ctx → fidKind fid = 0 →
        r = enterItems fid (if p.val < 12 then p else 0xFFFF) f.payload (f.payload.length / 40 - f.want) f.want s →
        (f.payload.length / 40 ≤ r.1 → exec (.sendReceive p) s = .next (respond f 11 0 [] (r.2.2.takeArrival p vc f))) ∧
        (r.1 < f.payload.length / 40 → ∃ v : State, exec (.sendReceive p) s = .next v ∧ v.disp = r.2.2.disp ∧ v.sent = r.2.2.sent))) ∧
    (s.nextArrival p [8, 9, 10, 11, 12] = none → exec (.remoteResponseReceive p) s = .next s) ∧
    (s.nextArrival p [8, 9, 10, 11, 12] = some (vc, f) → ∀ r, s1.fab.reqs.find f.tag = some r →
      exec (.remoteResponseReceive p) s = .next (pumpOps (wakeRemote (remoteSettle r.op
        (takeResponse r f { s1 with fab := { s1.fab with reqs := s1.fab.reqs.del f.tag } })))))) ∧
  (∀ (r : RemoteReq) (f : TFrame) (s : State) (o : RemoteOp), s.fab.ops.find r.op = some o →
    (f.op = 8 ∨ f.op = 11 → (takeResponse r f s).fab.ops.find r.op = some { o with done := o.done ++ [r.index] }) ∧
    (f.op = 12 → (takeResponse r f s).fab.ops.find r.op =
      some { o with fails := o.fails ++ [(r.index, bits f.aux 15 0, bits f.aux 31 16, bits f.aux 63 32)] }) ∧
    (f.op = 9 → ∀ v, Io.exec (memWrite o.ctx r.localAddr f.payload) s = (.ok (), v) → (takeResponse r f s).mem = v.mem ∧
      (takeResponse r f s).fab.ops.find r.op = some { o with done := o.done ++ [r.index] }) ∧
    (f.op = 10 → rdLocal o.desc = 0 → (takeResponse r f s).fab.ops.find r.op = some { o with done := o.done ++ [r.index] }) ∧
    (f.op = 10 → rdLocal o.desc ≠ 0 → ∀ v, Io.exec (memWrite o.ctx r.localAddr (leb (rdAtomBytes o.desc) f.aux)) s = (.ok (), v) →
      (takeResponse r f s).mem = v.mem ∧ (takeResponse r f s).fab.ops.find r.op = some { o with done := o.done ++ [r.index] })) ∧
  (∀ (tag : Nat) (s : State),
    (s.fab.reqs.find tag = none → exec (.remoteRequestTimeout tag) s = .next s) ∧
    (∀ r, s.fab.reqs.find tag = some r →
      (r.sentAt = none → exec (.remoteRequestTimeout tag) s = .next s) ∧
      (∀ a, r.sentAt = some a → s.ctl.now < a + 100000000 → exec (.remoteRequestTimeout tag) s = .next s) ∧
      (∀ a, r.sentAt = some a → a + 100000000 ≤ s.ctl.now → exec (.remoteRequestTimeout tag) s = .next (pumpOps (remoteEnd r.op (errD stHw 0x0B06) s)) ∧
        (remoteEnd r.op (errD stHw 0x0B06) s).fab.ops.find r.op = none)))

/-- The boot ROM runs the first candidate that passes its checks, BOOT_LOAD stages and runs an image, firmware starts, a lock loss checks the image again. Rests on R198, R484, R485, R497, R558, R564, R565, R566. -/
def Obligations.BootAndFirmwareStart : Prop :=
  (∀ s : State,
    (s.ctl.surveyor ≠ .atRom → exec .bootRomStart s = .next s ∧ exec .surveyorRelockPath s = .next s) ∧
    (s.ctl.surveyor = .atRom → s.relocking = false → exec .surveyorRelockPath s = .next s ∧
      (2 ≤ s.ctl.straps.toNat % 4 ∨ s.up islLow = false ∨ candidates s.flash = [] → ∃ v : State, exec .bootRomStart s = .next v ∧ v.ctl.surveyor = .netboot ∧
        v.ctl.stage = 2 ∧ v.fw.mr = Fw.reset.mr ∧ v.ctl.bootDetail = 0 ∧ v.fw.fuses = s.fw.fuses) ∧
      (s.ctl.straps.toNat % 4 < 2 → s.up islLow = true → ∀ l k r,
        (∀ e ∈ l, ∃ er, s.flash.checkSlot s.fw.fuses e.1 = .error er) →
        (∀ t img, candidates s.flash = l ++ (k, r) :: t → s.flash.checkSlot s.fw.fuses k = .ok img → ∃ v : State, exec .bootRomStart s = .next v ∧
          v.ctl.surveyor = .starting ∧ v.ctl.stage = 3 ∧ v.fw.running = some img ∧ v.fw.fuses = s.fw.fuses ∧
          nth v.fw.mr [] 0 = sha384 (nth Fw.reset.mr [] 0 ++ img.digest) ∧
          nth v.fw.mr [] 1 = sha384 (nth Fw.reset.mr [] 1 ++ sha384 (bootRecord s img)) ∧ v.ctl.slot = BitVec.ofNat 2 img.slot ∧ v.flash = (if r.state = 2 then s.flash.restate k 3 else s.flash)) ∧
        (∀ er, candidates s.flash = l ++ [(k, r)] → s.flash.checkSlot s.fw.fuses k = .error er → ∃ v : State, exec .bootRomStart s = .next v ∧
          v.ctl.surveyor = .netboot ∧ v.ctl.bootDetail = BitVec.ofNat 16 er.detail))) ∧
    (s.ctl.surveyor = .atRom → s.relocking = true → exec .bootRomStart s = .next s ∧
      (∀ e, rereadImage s = .error e → ∃ v : State, exec .surveyorRelockPath s = .next v ∧ v.ctl.surveyor = .netboot ∧ v.rcp.sessions = [] ∧
        v.ctl.bootDetail = BitVec.ofNat 16 e.detail ∧ v.fw.running = none) ∧
      (∀ img, rereadImage s = .ok img → ∃ v : State, exec .surveyorRelockPath s = .next v ∧ v.fw.running = some img ∧ v.fw.handover = none ∧
        v.fw.mr = (s.extend 0 img.digest).fw.mr ∧ v.ctl.surveyor = (if s.ctl.trained then .ready else .starting))) ∧
    (∀ l, (s.ctl.surveyor ≠ .starting → exec (.firmwareStart l) s = .next s) ∧
      (s.ctl.surveyor = .starting → ∃ v : State, exec (.firmwareStart l) s = .next v ∧ v.ctl.surveyor = .ready ∧ v.ctl.stage = 4 ∧ v.ctl.trained = true ∧
        v.ctl.staging = [] ∧ v.clk.vreq = 750 ∧ v.clk.alertC = s.board.alertC ∧ v.clk.throttleC = s.board.throttleC ∧
        (s.ctl.trained = false → s.mem.channels.sorted = true → ∀ ch d, ch < 128 → nth l .absent ch = .pass d → s.up (islMc (ch / 4)) = true →
          (v.channel ch).state = .active)))) ∧
  (∀ (f : Frame) (s : State) (x : Session), let p := f.payload; let u := seen f s; let off := fld p 8 8
    passes (bootLoadFails f u) = true →
    (acceptedAs 0x0A02 0 0 f s x = true → ∃ v : State, exec (.bootLoadWrite f) s = .next (doneOk 0x0A02 f [] v) ∧
      v.ctl.stagingLen = max s.ctl.stagingLen (off + (p.length - 16)) ∧ (s.ctl.staging.sorted = true → v.staged off (p.length - 16) = p.drop 16)) ∧
    (acceptedAs 0x0A02 0 1 f s x = true →
      (∀ e, checkImage s.fw.fuses 2 s.ctl.stagingLen s.staged = .error e → exec (.bootLoadRun f) s = .next (frameComplete f 0x0A02 e.status (errPayload e) u)) ∧
      (∀ img, checkImage s.fw.fuses 2 s.ctl.stagingLen s.staged = .ok img → let d := doneOk 0x0A02 f [] u
        exec (.bootLoadRun f) s = .next (jumpTo img (endSessions { d with fw := { d.fw with kept := s.staged 0 s.ctl.stagingLen } })) ∧
        ∀ a : State, (endSessions a).rcp.sessions = [] ∧ (jumpTo img a).rcp = a.rcp ∧ (jumpTo img a).ctl.surveyor = .starting ∧
          (jumpTo img a).ctl.stage = 3 ∧ (jumpTo img a).fw.running = some img)) ∧
    (acceptedAs 0x0A02 0 2 f s x = true → ∃ v : State, exec (.bootLoadAbort f) s = .next (doneOk 0x0A02 f [] v) ∧ v.ctl.staging = [] ∧ v.ctl.stagingLen = 0))

/-- FW_UPDATE writes, activates with a live handover, commits, aborts and configures; certificates rotate; a report is signed. Rests on R486, R488, R490, R492, R495, R497, R498, R499, R500, R501, R502. -/
def Obligations.FirmwareUpdateAndAttestation : Prop :=
  (∀ (f : Frame) (s : State) (x : Session), let p := f.payload; let u := seen f s; let sid := f.sessionId.toNat; let k := s.inactiveSlot
    (acceptedAs 0x0702 0 0 f s x = true → passes (fwWriteFails f sid u) = true → ∃ v : State, exec (.fwUpdateWrite f) s = .next (doneOk 0x0702 f [] v) ∧
      v.fw.writing = true ∧ v.fw.fuses = s.fw.fuses ∧
      v.flash = (if s.fw.writing then s.flash else s.flash.eraseSlot k).write (imageBase k + fld p 8 8) (p.drop 16)) ∧
    (acceptedAs 0x0702 0 1 f s x = true → passes (fwActivateFails f sid u) = true →
      (∀ e, s.flash.checkSlot s.fw.fuses k = .error e → ∃ v : State, exec (.fwUpdateActivate f) s = .next (frameComplete f 0x0702 e.status (errPayload e) v) ∧
        v.flash = s.flash.eraseSlot k ∧ v.fw.running = s.fw.running) ∧
      (∀ img, s.flash.checkSlot s.fw.fuses k = .ok img → ∃ v : State, exec (.fwUpdateActivate f) s = .next (frameInFlight f 0x0702 .handover v) ∧
        v.ctl.surveyor = .paused ∧ v.fw.handover = some img ∧ v.fw.pauseAt = s.ctl.now ∧ v.flash = s.flash.putSlot k 2 (s.runningSeq + 1) img.digest)) ∧
    (acceptedAs 0x0702 0 2 f s x = true → passes (fwCommitFails f sid u) = true → ∀ img, s.fw.running = some img → ∃ v : State,
      exec (.fwUpdateCommit f) s = .next (doneOk 0x0702 f [] v) ∧ Fuses.le s.fw.fuses v.fw.fuses = true ∧ v.fw.fuses.svn = max s.fw.fuses.svn img.svn ∧
      v.fw.fuses.revoke = s.fw.fuses.revoke ||| putBit (BitVec.ofNat 4 img.revoke) img.keySlot false ∧
      v.fw.mr = (s.extend 1 (sha384 (bootRecord v img))).fw.mr ∧ v.flash = s.flash.restate img.slot 1) ∧
    (acceptedAs 0x0702 0 3 f s x = true → passes (fwFails f sid u) = true → ∃ v : State, exec (.fwUpdateAbort f) s = .next (doneOk 0x0702 f [] v) ∧
      v.flash = s.flash.eraseSlot k ∧ v.fw.writing = false) ∧
    (acceptedAs 0x0702 0 4 f s x = true → passes (fwConfigFails f sid u) = true → ∃ (v : State) (hs ss : List (List Byte)),
      exec (.fwUpdateConfig f) s = .next (doneOk 0x0702 f [] v) ∧ hs.flatten ++ ss.flatten = p.drop 24 ∧ hs.length = fld p 16 1 ∧ ss.length = fld p 17 1 ∧ (hs ++ ss).all (fun k => k.length == 48) = true ∧
      v.fw.mr = (s.extend 1 (sha384 (secBytes hs ss))).fw.mr ∧ (v.flash.secs.getLast?.map (fun c => (c.hosts, c.signers))) = some (hs, ss) ∧
      ((∀ c ∈ s.flash.secs, c.seq + 1 < 2 ^ 64) → v.hostList = hs ∧ v.signerList = ss)) ∧
    (accepted 0x0701 f s x = true → passes (getCertsFails f u) = true →
      (∀ c, s.cert = some c → ∃ cs, parseChain c.chain = some cs ∧ exec (.getCerts f) s = .next (doneOk 0x0701 f
        (leb 4 c.chain.length ++ leb 8 c.seq ++ leb 2 cs.length ++ zeros 2 ++ (c.chain.drop (fld p 0 4)).take (x.maxPayload - 16)) u)) ∧
      (s.cert = none → exec (.getCerts f) s = .next (doneOk 0x0701 f (leb 4 0 ++ leb 8 (u.draw).1 ++ zeros 4) (u.draw).2))) ∧
    (accepted 0x0703 f s x = true → passes (certRotateFails f sid u) = true → ∃ v : State, exec (.certRotate f) s = .next (doneOk 0x0703 f [] v) ∧
      v.fw.mr = (s.extend 3 (sha384 (p.drop 8))).fw.mr ∧ v.fw.fuses = s.fw.fuses ∧
      (s.cert = none → v.flash.certs = [⟨1, p.drop 8⟩]) ∧ ∀ c, s.cert = some c → v.flash.certs = [c, ⟨c.seq + 1, p.drop 8⟩]) ∧
    (accepted 0x0700 f s x = true → passes (attestFails f x u) = true → ∀ img, s.fw.running = some img →
      let imgs := if fld p 0x20 2 = 0xFFFF then [] else s.imagesOf (fld p 0x20 2)
      let es := (imgs.drop (fld p 0x22 2)).take ((x.maxPayload - 0x120 - 96) / 64)
      let r := leb 4 0x52545441 ++ leb 2 1 ++ leb 2 es.length ++ leb 8 s.fw.fuses.serial ++ sub p 0 32 ++ leb 4 img.release ++ leb 1 s.fw.fuses.svn ++
        leb 1 s.fw.fuses.revoke.toNat ++ leb 1 img.keySlot ++ leb 1 img.slot ++ leb 2 (fld p 0x20 2) ++ leb 2 imgs.length ++ zeros 4 ++
        s.fw.mr.flatten ++ s.fw.extends_.flatMap (leb 4) ++ zeros 16 ++ es.flatMap Image.entry64
      exec (.attest f) s = .next (doneOk 0x0700 f (r ++ ecdsaSign s.identity (scalarOf (u.draw).1) (sha384 r)) (u.draw).2))) ∧
  (∀ (s : State) (img : FwImage), s.ctl.surveyor = .paused → s.fw.handover = some img → s.rcp.heldFrames = [] →
    (s.ctl.now < s.fw.pauseAt + 400000 → exec .handoverTimeout s = .next s ∧ ∃ v : State, exec .handoverReady s = .next v ∧ v.ctl.surveyor = .ready ∧
      v.fw.running = some img ∧ v.fw.handover = none ∧ v.fw.mr = (s.extend 0 img.digest).fw.mr ∧ v.ctl.slot = BitVec.ofNat 2 img.slot ∧ v.fw.fuses = s.fw.fuses) ∧
    (s.fw.pauseAt + 400000 ≤ s.ctl.now → exec .handoverReady s = .next s ∧ ∃ v : State, exec .handoverTimeout s = .next v ∧ v.ctl.surveyor = .ready ∧
      v.fw.running = s.fw.running ∧ v.fw.handover = none ∧ v.flash = s.flash.eraseSlot s.inactiveSlot ∧ v.fw.fuses = s.fw.fuses))

/-- Pods are quarantined, tested and reinstated, engines reset, ports relinked, monitors recalibrated, and SERVICE_STATUS answers. Rests on R503, R504, R505, R506, R508, R509, R510, R511, R512, R513, R514. -/
def Obligations.PodServiceAndEngines : Prop :=
  (∀ (f : Frame) (s : State) (x : Session), let b := f.payload; let u := seen f s; let p := fld b 0 2; let e := fld b 2 2
    (passes (quarantineFails u b) = true →
      (acceptedAs 0x0803 2 0 f s x = true →
        (bit (fld b 3 1) 0 = false → let v := quarantineNow p stState u
          exec (.podQuarantine f) s = .next (if v.allQuarantined p then doneOk 0x0803 f [] (podSettle p v) else frameInFlight f 0x0803 (.quarantine p) v) ∧
          (v.pod p).quarantine = true ∧ (v.pod p).draining = false ∧ (v.pod p).selftest = none ∧ (v.pod p).quarAt = s.ctl.now ∧
          (∀ k, k < 16 → (v.thread (16 * p + k)).st = .quarantined ∨ (v.thread (16 * p + k)).st = .blocked .faulted)) ∧
        (bit (fld b 3 1) 0 = true → exec (.podQuarantine f) s = .next (podSettle p (frameInFlight f 0x0803 (.quarantine p) (quarantineDrain p u))) ∧
          ((quarantineDrain p u).pod p).quarantine = true ∧ ((quarantineDrain p u).pod p).draining = true)) ∧
      (acceptedAs 0x0803 2 1 f s x = true → exec (.podSelftest f) s = .next (frameInFlight f 0x0803 (.selftest p) u)) ∧
      (acceptedAs 0x0803 2 2 f s x = true → ∃ v : State, exec (.podReinstate f) s = .next (doneOk 0x0803 f [] v) ∧ (v.pod p).quarantine = false)) ∧
    (passes (serviceFails u x b) = true →
      (acceptedAs 0x0802 0 0 f s x = true → exec (.serviceQuery f) s = .next (doneOk 0x0802 f (servicePayload (fwState u).1 u) (fwState u).2) ∧
        (servicePayload (fwState u).1 u).length = 168) ∧
      (acceptedAs 0x0802 0 1 f s x = true → let r := frameEngineReset e u
        exec (.engineReset f) s = .next (frameInFlight f 0x0802 (.engineReset e) { r with svc := { r.svc with fiPlaced := putBit r.svc.fiPlaced e false } }) ∧
        r.svc.fiPlaced = s.svc.fiPlaced) ∧
      (acceptedAs 0x0802 0 2 f s x = true → exec (.portRelink f) s = .next (relinkGo e (frameInFlight f 0x0802 (.relink e) u)) ∧
        (1 ≤ e → ((relinkGo e u).fport (e - 1)).state = .failed) ∧ (e = 0 → s.host.link = .up → (relinkGo e u).host.link = .training) ∧
        ((relinkGo e u).svc.relink.find e) = some s.ctl.now) ∧
      (acceptedAs 0x0802 0 3 f s x = true → exec (.avsRecal f) s = .next (frameInFlight f 0x0802 .recal { u with clk := { u.clk with recal := true } })))) ∧
  (∀ (p : Fin 512) (s : State),
    let stuck := (List.range 16).any (fun k => (s.thread (16 * p.val + k)).st != .quarantined)
    let due := (s.pod p).quarantine && !(s.pod p).draining && decide ((s.pod p).quarAt + 100000 ≤ s.ctl.now) && stuck
    (due = true → ∃ v : State, exec (.quarantineAbandonTimer p) s = .next (podSettle p v) ∧
      (∀ k, k < 16 → (v.thread (16 * p.val + k)).st = .quarantined) ∧
      (∀ k, k < 16 → (s.thread (16 * p.val + k)).st ≠ .quarantined → (v.thread (16 * p.val + k)).tags = Thread.init.tags)) ∧
    (due = false → exec (.quarantineAbandonTimer p) s = .next s)) ∧
  (∀ (sid rid : Nat) (x : Session) (c : InFlight) (s : State), s.fwReady = true → s.command sid rid = some (x, c) → c.rid = rid →
    (∀ p, p < 512 → c.wait = .selftest p → ∃ (r : Nat) (v : State), r < 256 ∧
      exec (.commandCompletion sid rid) s = .next (v.finish sid rid stOk (leb 4 r ++ zeros 4)) ∧ (v.pod p).selftest = some r ∧
      (∀ a, podStoreBase + p * 0x80000 ≤ a → a < podStoreBase + (p + 1) * 0x80000 → v.mem.byte a = 0)) ∧
    (∀ e, e < 32 → c.wait = .engineReset e → ∃ v : State,
      (v.svc.fiPlaced.getLsbD e = true ∧ exec (.commandCompletion sid rid) s = .next (v.finish sid rid stOk [])) ∨
      (v.svc.fiPlaced = s.svc.fiPlaced ∧ exec (.commandCompletion sid rid) s = .next (v.finish sid rid stHw (errPayload (errD stHw 0x0D04))))) ∧
    (c.wait = .recal → ∃ (v : State) (l : List (BitVec 6)), l.length = 32 ∧ v.clk.trims = l ∧ v.clk.recal = false ∧ v.clk.calTime = s.ctl.now ∧
      (exec (.commandCompletion sid rid) s = .next (v.finish sid rid stOk []) ∨
       exec (.commandCompletion sid rid) s = .next (v.finish sid rid stHw (errPayload (errD stHw 0x0D06)))))) ∧
  (∀ (s : State) (t a : Nat), s.svc.relink = [(t, a)] →
    (a + 50000000 ≤ s.ctl.now → exec .relinkTimeout s = .next (({ s with svc := { s.svc with relink := [] } }).failAll (.relink t) (errD stHw 0x0D05))) ∧
    (s.ctl.now < a + 50000000 → exec .relinkTimeout s = .next s)) ∧
  (∀ s : State, (∀ e ∈ s.svc.relink, s.ctl.now < e.2 + 50000000) → exec .relinkTimeout s = .next s) ∧
  (∀ (l : List (BitVec 6)) (s : State), l.length = 32 →
    (s.fwReady = true → s.clk.recal = false → s.clk.calTime + 8640000000000 ≤ s.ctl.now → ∃ v : State, exec (.avsRecalTimer l) s = .next v ∧
      v.clk.trims = l ∧ v.clk.calTime = s.ctl.now) ∧
    (s.fwReady = false ∨ s.clk.recal = true ∨ s.ctl.now < s.clk.calTime + 8640000000000 → exec (.avsRecalTimer l) s = .next s)) ∧
  (∀ (n : Nat) (s : State), (0x2B8 ≤ n ∨ s.ctl.fabricOn = false ∨ s.dbg.frz.on = true → exec (.handshakeStallWatchdog n) s = .next s) ∧
    (n < 0x2B8 → s.ctl.fabricOn = true → s.dbg.frz.on = false → ∃ v : State, (v.detector (detId 0x0C n)).fired = true ∧
      (v.detector (detId 0x0C n)).detail < 2 ^ 16 ∧
      (s.fwReady = true → exec (.handshakeStallWatchdog n) s = .next (selfService n v)) ∧
      (s.fwReady = false → exec (.handshakeStallWatchdog n) s = .next { v with svc := { v.svc with stalled := s.svc.stalled ++ [n] } })) ∧
    (n < 0x200 → ((selfService n s).pod n).quarantine = true) ∧
    (0x280 ≤ n ∨ (0x200 ≤ n ∧ n < 0x260) → selfService n s = s))

/-- CLAIM and RELEASE give and take shared resources; a detector counts and reports, an armed injection fires once as injected. Rests on R518, R519, R520, R522, R525, R526, R527, R528, R529, R603. -/
def Obligations.SharedResourcesAndDetectors : Prop :=
  (∀ (f : Frame) (s : State) (x : Session), let b := f.payload; let u := seen f s; let sid := f.sessionId.toNat; let r := fld b 0 2
    (accepted 0x0800 f s x = true → passes (claimFails u sid x b) = true → ∃ v : State, exec (.claim f) s = .next (doneOk 0x0800 f [] v) ∧
      (s.owner r = none → v.svc.owners = s.svc.owners.put r ⟨sid, false, fld b 2 1, fld b 3 1⟩) ∧
      (∀ o, s.owner r = some o → s.owns sid r = true → v.owner r = some ⟨sid, false, max (fld b 2 1) o.cls, fld b 3 1⟩) ∧
      (∀ o, s.owner r = some o → s.owns sid r = false → o.cls < fld b 2 1 ∧ v.owner r = some ⟨sid, false, fld b 2 1, fld b 3 1⟩ ∧
        (∀ y, r ≠ resTraverse → s.session o.session = some y → bit y.mask 2 = true → ∃ z a, v.session o.session = some z ∧ z.evSeq = y.evSeq + 1 ∧
          z.events = lastN 256 (y.events ++ [⟨y.evSeq + 1, 2, 0x10, a⟩]) ∧ a = leb 2 r ++ leb 1 (fld b 2 1)))) ∧
    (accepted 0x0801 f s x = true → passes (releaseResFails f sid u) = true → ∃ v : State, exec (.release f) s = .next (doneOk 0x0801 f [] v) ∧
      v.owner r = none ∧ (r < 8 → v.pins.gpioOut.getLsbD r = false) ∧ (r = resFlash → v.fw.writing = false) ∧ (s.svc.owners.sorted = true → ∀ k, k ≠ r → v.owner k = s.owner k)) ∧
    (passes (injectFails u b) = true → let id := fld b 0 4
      (acceptedAs 0x0804 4 0 f s x = true → ∃ v : State, exec (.injectArm f) s = .next (doneOk 0x0804 f [] v) ∧
        v.detector id = { s.detector id with armed := some ⟨fld b 5 1, fld b 6 2, fld b 8 8, ((injectAt u b).map Prod.fst).getD 0, fld b 0x10 4⟩ } ∧
        (s.svc.detectors.sorted = true → ∀ k, k ≠ id → v.detector k = s.detector k) ∧
        (bits id 31 24 = 9 → let bk := bits id 23 8 - 0x2B0
          ∃ n, (v.gazBank bk).arr.at 0 (fld b 8 8) = (s.gazBank bk).arr.at 0 (fld b 8 8) ^^^ 2 ^ n)) ∧
      (acceptedAs 0x0804 4 1 f s x = true → ∃ v : State, exec (.injectDisarm f) s = .next (doneOk 0x0804 f [] v) ∧
        v.detector id = { s.detector id with armed := none }))) ∧
  (∀ (kind inst detail : Nat) (inj : Bool) (s : State), let id := detId kind inst; let d := s.detector id; let v := s.fire kind inst detail inj
    let due := (match d.lastEvent with
      | none => true
      | some t => decide (t + 100000 ≤ s.ctl.now))
    v.detector id = { d with fired := true, fromInject := inj, detail := detail, count := min (d.count + 1) 0xFFFF_FFFF, lastEvent := if due then some s.ctl.now else d.lastEvent } ∧
    (due = false → v.rcp = s.rcp ∧ v.sent = s.sent) ∧
    (∀ sid x, due = true → s.rcp.sessions = [(sid, x)] → x.priv = true → bit x.mask 0 = true → (v.session sid).map Session.evSeq = some (x.evSeq + 1)) ∧
    (∀ sid x, s.rcp.sessions = [(sid, x)] → x.priv = false ∨ bit x.mask 0 = false → v.rcp = s.rcp) ∧
    (s.svc.detectors.sorted = true → ∀ k, k ≠ id → v.detector k = s.detector k)) ∧
  (∀ (kind inst detail : Nat) (s : State), (s.fireInjected kind inst detail).armed kind inst = none ∧
    ((s.fireInjected kind inst detail).detector (detId kind inst)).fromInject = true)

/-- TRAVERSE_CONFIG starts, stops, reads a capture and its status; records, losses and the trigger act on it. Rests on R536, R537, R538, R539, R540, R542. -/
def Obligations.TraverseCapture : Prop :=
  (∀ (f : Frame) (s : State) (x : Session), let b := f.payload; let u := seen f s; let t := s.dbg.trv
    passes (trvFails f f.sessionId.toNat u) = true →
      (acceptedAs 0x0902 0 0 f s x = true → ∃ v : State, exec (.traverseStart f) s = .next (doneOk 0x0902 f [] v) ∧
        v.dbg.trv.state = 1 ∧ v.dbg.trv.mode = fld b 1 1 ∧ v.dbg.trv.cores = fld b 4 1 ∧ v.dbg.trv.stall = bit (fld b 3 1) 0 ∧ v.dbg.trv.lost = 0 ∧
        v.dbg.trv.capacity = (if bit (fld b 3 1) 1 then fld b 6 2 * 32768 else 131072) ∧
        v.dbg.trv.recs.map (fun r => (r.kind, r.core, r.time)) = ((List.range 4).filter (bit (fld b 4 1))).map (fun c => (5, c, s.ctl.surveyorTime)) ∧
        v.dbg.trv.written = v.dbg.trv.recs.length) ∧
      (acceptedAs 0x0902 0 1 f s x = true → ∃ v : State, exec (.traverseStop f) s = .next (doneOk 0x0902 f [] v) ∧ v.dbg.trv.state = 3 ∧
        v.dbg.trv.recs = (if t.recs.length < t.capacity then t.recs ++ [⟨6, 0xFF, 2, s.ctl.surveyorTime, 0, 0⟩] else t.recs)) ∧
      (acceptedAs 0x0902 0 2 f s x = true → let p := (List.range 6).flatMap (fun i => leb 4 (t.word i))
        exec (.traverseStatus f) s = .next (doneOk 0x0902 f p u) ∧ p.length = 24 ∧
        fld p 12 4 = t.lost % 2 ^ 32 ∧ fld p 16 4 = t.capacity % 2 ^ 32) ∧
      (acceptedAs 0x0902 0 3 f s x = true → let rs := (t.recs.drop (fld b 0x18 8)).take ((x.maxPayload - 16) / 32)
        exec (.traverseRead f) s = .next (doneOk 0x0902 f (leb 8 (fld b 0x18 8) ++ leb 4 rs.length ++ zeros 4 ++ rs.flatMap TrvRec.bytes) u) ∧
        ∀ r : TrvRec, r.bytes.length = 32)) ∧
  (∀ (c : Fin 4) (s : State), let t := s.dbg.trv
    (t.capturing = false ∨ bit t.cores c = false ∨ s.up islSurveyor = false → exec (.traverseRecord c) s = .next s) ∧
    (t.capturing = true → bit t.cores c = true → s.up islSurveyor = true → ∃ v : State, exec (.traverseRecord c) s = .next v ∧
      (t.stall = true → s.ctl.surveyor ≠ .paused → t.state = 1 → nth t.gaps 0 c.val = 0 → v.dbg.trv.lost = t.lost ∧
        (t.recs.length < t.capacity → ∃ r, (r.kind = 1 ∨ r.kind = 2) ∧ r.core = c.val ∧ r.time = s.ctl.surveyorTime ∧
          v.dbg.trv.recs = t.recs ++ [r] ∧ v.dbg.trv.written = t.written + 1 ∧ v.dbg.trv.state = 1) ∧
        (t.capacity ≤ t.recs.length → t.mode ≠ 0 → ∃ r, r.core = c.val ∧ v.dbg.trv.recs = t.recs.drop 1 ++ [r] ∧ v.dbg.trv.wrapped = true) ∧
        (t.capacity ≤ t.recs.length → t.mode = 0 → v.dbg.trv.recs = t.recs ∧ v.dbg.trv.state = 3)) ∧
      (t.stall = true → s.ctl.surveyor ≠ .paused → t.state = 1 → nth t.gaps 0 c.val ≠ 0 → t.recs.length + 2 ≤ t.capacity →
        ∃ r, r.core = c.val ∧ v.dbg.trv.recs = t.recs ++ [⟨3, c.val, 0, s.ctl.surveyorTime, nth t.gaps 0 c.val, 0⟩, r] ∧ nth v.dbg.trv.gaps 0 c.val = 0) ∧
      (t.stall = false ∨ s.ctl.surveyor = .paused → t.state = 1 → t.recs.length < t.capacity → nth t.gaps 0 c.val = 0 →
        (v.dbg.trv.recs = t.recs ∧ v.dbg.trv.lost = sat32 t.lost 1) ∨ (v.dbg.trv.recs.length = t.recs.length + 1 ∧ v.dbg.trv.lost = t.lost)))) ∧
  (∀ (src : Fin 3) (s : State), let t := s.dbg.trv
    (t.awaits = false ∨ bit t.trigSrc src = false ∨ (src = 2 ∧ t.fired = false) → exec (.traverseTrigger src) s = .next s) ∧
    (t.awaits = true → bit t.trigSrc src = true → (src = 2 → t.fired = true) → 16 ≤ t.capacity → 1 ≤ t.post → ∃ v : State,
      exec (.traverseTrigger src) s = .next v ∧ v.dbg.trv.state = 2 ∧ v.dbg.trv.triggered = true ∧ v.dbg.trv.postLeft + 1 = t.capacity * t.post / 8 ∧
      v.dbg.trv.recs.getLast? = some ⟨4, 0xFF, 0, s.ctl.surveyorTime, src, 0⟩ ∧
      v.pins.trigPulse = (t.trigOut || s.pins.trigPulse) ∧
      (s.dbg.frz.arm = none → v.dbg.frz = s.dbg.frz) ∧ (s.dbg.frz.on = true → v.dbg.frz = { s.dbg.frz with arm := none }) ∧
      (∀ a, s.dbg.frz.on = false → s.dbg.frz.arm = some a →
        v.dbg.frz = ⟨true, (s.dbg.frz.seq + 1) % 2 ^ 32, [], false, false, s.ctl.now, a.timeout, none, a.stopTrv⟩))) ∧
  (∀ s : State, exec .triggerPulseEnd s = .next { s with pins := { s.pins with trigPulse := false } })

/-- FREEZE stops the part by markers and completes at the cut; THAW and its timeout let it go on. Rests on R545, R546, R547, R548, R549. -/
def Obligations.FreezeAndThaw : Prop :=
  let goOn : State → State := fun w => drainBanks (pumpOps ((List.range 12).foldl (fun a p => (a.drainRx p).pumpPort p) w))
  let lifted : State → State → Prop := fun s w =>
    w.dbg.frz.on = false ∧ w.dbg.frz.parts = [] ∧ w.dbg.frz.seq = s.dbg.frz.seq ∧ w.dbg.frz.arm = s.dbg.frz.arm ∧ w.dbg.trv = s.dbg.trv ∧
    w.mem = s.mem ∧ w.units = s.units ∧ w.pods = s.pods
  (∀ (f : Frame) (s : State) (x : Session), let b := f.payload; let u := seen f s
    (passes (freezeCmdFails f u) = true →
      (acceptedAs 0x0900 0 0 f s x = true → ∃ v : State, exec (.freezeNow f) s = .next (frameInFlight f 0x0900 .freeze v) ∧
        v.dbg.frz = ⟨true, (s.dbg.frz.seq + 1) % 2 ^ 32, [], false, false, s.ctl.now, fld b 4 4, s.dbg.frz.arm, bit (fld b 1 1) 0⟩ ∧ v.dbg.trv = s.dbg.trv) ∧
      (acceptedAs 0x0900 0 1 f s x = true → ∃ v : State, exec (.freezeArm f) s = .next (doneOk 0x0900 f [] v) ∧
        v.dbg.frz = { s.dbg.frz with arm := some ⟨bit (fld b 1 1) 0, fld b 4 4⟩ }) ∧
      (acceptedAs 0x0900 0 2 f s x = true → ∃ v : State, exec (.freezeDisarm f) s = .next (doneOk 0x0900 f [] v) ∧
        v.dbg.frz = { s.dbg.frz with arm := none })) ∧
    (accepted 0x0901 f s x = true → passes (thawCmdFails f u) = true → ∃ w : State, exec (.thaw f) s = .next (doneOk 0x0901 f [] (goOn w)) ∧ lifted s w)) ∧
  (∀ (p : Nat) (s : State), let z := s.dbg.frz
    (z.on = false ∨ p ∉ freezeParts ∨ p ∈ z.parts → exec (.freezeMarker p) s = .next s) ∧
    (z.on = true → p ∈ freezeParts → p ∉ z.parts →
      (z.parts.length + 1 ≠ freezeParts.length → ∃ v : State, exec (.freezeMarker p) s = .next v ∧ v.dbg.frz = { z with parts := z.parts ++ [p] } ∧
        v.rcp = s.rcp ∧ v.sent = s.sent) ∧
      (z.parts.length + 1 = freezeParts.length → ∃ v : State, v.dbg.frz.cut = true ∧ v.dbg.frz.parts = z.parts ++ [p] ∧
        (z.stopTrv = true → s.dbg.trv.capturing = true → v.dbg.trv.state = 3) ∧ (z.stopTrv = false → v.dbg.trv = s.dbg.trv) ∧
        exec (.freezeMarker p) s = .next (v.finishAll .freeze stOk (leb 4 z.seq ++ leb 4 ((s.ctl.now - z.began) / 100) ++ zeros 8))))) ∧
  (∀ s : State, let z := s.dbg.frz
    (z.on = false ∨ z.cut = true ∨ z.late = true ∨ s.ctl.now < z.began + 100000 → exec .freezeCutTimeout s = .next s) ∧
    (∀ p, z.on = true → z.cut = false → z.late = false → z.began + 100000 ≤ s.ctl.now → freezeParts.find? (fun u => !z.parts.contains u) = some p →
      ∃ (d : Nat) (v : State), exec .freezeCutTimeout s = .next (v.failAll .freeze ⟨stHw, 0x0E03, 0xFFFF, d⟩) ∧ v.dbg.frz = { z with late := true } ∧
        (p < 0x300 → d = detId 0x0C p)) ∧
    (s.isFrozen = false ∨ z.timeout = 0 ∨ s.fwReady = false ∨ s.ctl.now < z.began + z.timeout * 100000 → exec .freezeTimeoutThaw s = .next s) ∧
    (s.isFrozen = true → z.timeout ≠ 0 → z.began + z.timeout * 100000 ≤ s.ctl.now → s.fwReady = true → ∃ w : State,
      exec .freezeTimeoutThaw s = .next (goOn w) ∧ lifted s w))

/-- WAIT_GRAPH reads every wait twice and marks its knots; a Pod takes its sample. Rests on R534, R535, R541, R543, R544. -/
def Obligations.WaitGraphAndSampler : Prop :=
  (∀ (f : Frame) (s : State) (x : Session), let b := f.payload; let u := seen f s; let sid := f.sessionId.toNat
    accepted 0x0903 f s x = true → passes (waitGraphFails u sid x b) = true →
      (fld b 4 4 ≠ 0 → ∃ g, s.dbg.graphs.find sid = some g ∧ exec (.waitGraph f) s = .next (doneOk 0x0903 f (g.page (fld b 4 4) x.maxPayload) u)) ∧
      (fld b 4 4 = 0 → s.dbg.frz.on = false → ∃ v : State, exec (.waitGraph f) s = .next (frameInFlight f 0x0903 .waitGraph v) ∧
        v.dbg.assembling = u.dbg.assembling ++
          [(sid, f.requestId.toNat, ⟨(s.dbg.snapshots + 1) % 2 ^ 32, fld b 2 2, bit (fld b 0 1) 0, waitRecs u, false, s.ctl.now⟩)]) ∧
      (fld b 4 4 = 0 → s.dbg.frz.on = true → ∃ (g : WaitGraph) (v : State), exec (.waitGraph f) s = .next (doneOk 0x0903 f (g.page 0 x.maxPayload) v) ∧
        v.dbg.graphs.find sid = some g ∧ g.frozen = true ∧ (∀ r ∈ g.recs, r.stable = true))) ∧
  (∀ (sid rid : Nat) (s : State) (g : WaitGraph) (x : Session), s.dbg.assembling.find? (fun a => a.1 == sid) = some (sid, rid, g) → s.session sid = some x →
    (s.fwReady = false ∨ s.ctl.now < g.began + 100000 → exec (.waitGraphSecondRead sid) s = .next s) ∧
    (s.fwReady = true → g.began + 100000 ≤ s.ctl.now → ∃ v : State,
      exec (.waitGraphSecondRead sid) s = .next (v.finish sid rid stOk ((g.finish (waitRecs s)).page 0 x.maxPayload)) ∧
      v.dbg.graphs.find sid = some (g.finish (waitRecs s)) ∧ v.dbg.assembling = s.dbg.assembling.erase (sid, rid, g))) ∧
  (∀ a b : List WaitRec, let m := markRecs a b
    m.length = b.length ∧ (∀ r ∈ m, (r.stable = true ↔ ∃ q ∈ a, q.same r = true) ∧ (r.knot = true → r.stable = true)) ∧
    ((b.map (fun r => (r.wkind, r.waiter))).Nodup →
      (∀ r ∈ m, r.knot = true → r.outside = false ∧ ∀ w ∈ r.by_, ∃ q ∈ m, q.knot = true ∧ (q.wkind, q.waiter) = w) ∧
      (∀ k : WaitRec → Bool, (∀ r ∈ m, k r = true → r.stable = true ∧ r.outside = false ∧ ∀ w ∈ r.by_, ∃ q ∈ m, k q = true ∧ (q.wkind, q.waiter) = w) →
        ∀ r ∈ m, k r = true → r.knot = true))) ∧
  (∀ (p : Fin 512) (s : State), let m := s.dbg.smp
    (m.enable = false ∨ s.works p = false ∨ (s.pod p).quarantine = true ∨ nextSampled s p = none → exec (.sampleTake p) s = .next s) ∧
    (∀ k, m.enable = true → s.works p = true → (s.pod p).quarantine = false → nextSampled s p = some k → ∃ v : State,
      exec (.sampleTake p) s = .next v ∧ v.dbg.smp.seq = (m.seq + 1) % 2 ^ 32 ∧ (v.pod p).lastSampled = k ∧
      (sampleRecord s (16 * p + k) m.seq).length = 32 ∧
      (match Io.exec (memWrite m.ctx (m.ring + 32 * (m.seq % m.entries)) (sampleRecord s (16 * p + k) m.seq)) s with
        | (.ok _, w) => v.mem.bytes = w.mem.bytes ∧ v.dbg.smp.dropped = sat32 m.dropped 0
        | (.error _, _) => v.dbg.smp.dropped = sat32 m.dropped 1)))

/-- RESET_N and the rails assert and release the three reset levels, and each level clears what its column states and keeps the rest. Rests on R19, R550, R551, R552, R554, R555, R560, R561, R562, R568. -/
def Obligations.ResetLevels : Prop :=
  let goOn : State → State := fun w => (List.range 12).foldl (fun a p => (a.drainRx p).pumpPort p) w
  let cleared : State → Prop := fun v => v.rcp = State.reset.rcp ∧ v.pods = State.reset.pods ∧ v.disp = State.reset.disp ∧ v.units = State.reset.units ∧
    v.emb = State.reset.emb ∧ v.frames = State.reset.frames ∧ v.roce = State.reset.roce ∧ v.mem.contexts = State.reset.mem.contexts ∧
    v.mem.reserved = [] ∧ v.fab.ops = [] ∧ v.fab.reqs = [] ∧ v.dbg.frz = State.reset.dbg.frz ∧ v.svc.owners = State.reset.svc.owners ∧
    v.ctl.fabricOn = false ∧ v.up islSurveyor = false ∧ v.ctl.surveyor = .held ∧ v.ctl.stage = 0 ∧ (∀ k i, v.armed k i = none)
  let kept : State → State → Prop := fun s v => v.fw.primary = s.fw.primary ∧ v.fw.secondary = s.fw.secondary ∧ v.fw.fuses = s.fw.fuses ∧ v.ctl.now = s.ctl.now ∧ v.ctl.railGood = s.ctl.railGood
  let coreKept : State → State → Prop := fun s v => kept s v ∧ v.host = s.host ∧ v.fab.ports = s.fab.ports ∧ v.fab.routes = s.fab.routes ∧
    v.dbg.trv = s.dbg.trv ∧ v.ctl.rstCause = s.ctl.rstCause ∧ v.ctl.lockStatus = s.ctl.lockStatus ∧ v.ctl.straps = s.ctl.straps ∧
    v.mem.memGib = s.mem.memGib ∧ (∀ i, i ≠ islSurveyor → v.up i = s.up i) ∧
    (s.mem.channels.sorted = true → ∀ c, (v.channel c).state = (s.channel c).state) ∧
    (s.svc.detectors.sorted = true → ∀ k, (v.detector k).count = (s.detector k).count ∧ (v.detector k).fired = (s.detector k).fired) ∧
    (s.mem.bytes.sorted = true → ∀ a, v.mem.byte a = if a < lpddrEnd then s.mem.byte a else 0)
  let systemGone : State → Prop := fun v => v.host = HostPort.reset ∧ v.fab = Fab.reset ∧ v.mem.bytes = [] ∧ v.mem.channels = [] ∧ v.mem.memGib = 0 ∧
    v.ctl.islandUp = 0 ∧ v.ctl.pllLock = 0 ∧ v.pins.eid = State.reset.pins.eid ∧ v.clk.vreq = State.reset.clk.vreq
  (∀ s : State,
    (s.ctl.refclk = false ∨ s.ctl.held = some .power ∨ s.ctl.pinLevel ≠ none → exec .resetNCoreThreshold s = .next s) ∧
    (s.ctl.refclk = true → s.ctl.held ≠ some .power → s.ctl.pinLevel = none → ∃ v : State, exec .resetNCoreThreshold s = .next v ∧
      v.ctl.pinLevel = some .core ∧ v.ctl.held = some (if s.ctl.held = some .system then .system else .core) ∧ cleared v ∧ coreKept s v) ∧
    (s.ctl.refclk = false ∨ s.ctl.held = some .power ∨ s.ctl.pinLevel ≠ some .core → exec .resetNSystemThreshold s = .next s) ∧
    (s.ctl.refclk = true → s.ctl.held ≠ some .power → s.ctl.pinLevel = some .core → ∃ v : State, exec .resetNSystemThreshold s = .next v ∧
      v.ctl.pinLevel = some .system ∧ v.ctl.held = some .system ∧ cleared v ∧ systemGone v ∧ kept s v ∧ v.ctl.rstCause = s.ctl.rstCause ∧
      v.ctl.lockStatus = s.ctl.lockStatus ∧ v.dbg.trv = (if s.dbg.trv.redirect then { s.dbg.trv with recs := [] } else s.dbg.trv) ∧ v.clk.trip = s.clk.trip)) ∧
  (∀ (w : BitVec 4) (s : State), let t := { s.gaz with segLimit := segCeiling (w.toNat / 4), windowLimit := segCeiling (w.toNat / 4) }
    (s.ctl.refclk = false ∨ s.ctl.driving = true ∨ s.ctl.held = some .power ∨ s.ctl.pinLevel = none → exec (.resetNRelease w) s = .next s) ∧
    (s.ctl.refclk = true → s.ctl.driving = false → s.ctl.held ≠ some .power →
      (s.ctl.pinLevel = some .core → exec (.resetNRelease w) s = .next (goOn { s with ctl := { s.ctl with
        pinLevel := none, held := none, fabricOn := true, fabricAt := s.ctl.now, rstCause := putBit s.ctl.rstCause 2 true } })) ∧
      (s.ctl.pinLevel = some .system → exec (.resetNRelease w) s = .next (goOn { s with gaz := t, ctl := { s.ctl with
        pinLevel := none, held := none, fabricOn := true, fabricAt := s.ctl.now, rstCause := putBit s.ctl.rstCause 1 true
        straps := w, pllStarted := w.toNat / 4 != 2 } }))) ∧
    let enough := s.ctl.goodAt + (if w.toNat / 4 = 1 then ceilDiv (16384 * 64) 100 else 16384) ≤ s.ctl.now
    (s.ctl.refclk = true → s.ctl.held = some .power → s.ctl.porCounting = true → s.ctl.railGood.all id = true → enough →
      exec (.porRelease w) s = .next (goOn { s with gaz := t, ctl := { s.ctl with
        porCounting := false, held := none, fabricOn := true, fabricAt := s.ctl.now, straps := w, pllStarted := w.toNat / 4 != 2 } })) ∧
    (s.ctl.refclk = false ∨ s.ctl.held ≠ some .power ∨ s.ctl.porCounting = false ∨ s.ctl.railGood.all id = false ∨ ¬ enough → exec (.porRelease w) s = .next s)) ∧
  (∀ (r : Fin 6) (s : State),
    (exec (.railGood r) s = .next { s with ctl := { s.ctl with
      railGood := s.ctl.railGood.set r true, porCounting := s.ctl.porCounting || (s.ctl.railGood.set r true).all id,
      goodAt := if (s.ctl.railGood.set r true).all id && !s.ctl.porCounting then s.ctl.now else s.ctl.goodAt } }) ∧
    (s.ctl.refclk = false → exec (.railBelowThreshold r) s = .next { s with ctl := { s.ctl with railGood := s.ctl.railGood.set r false, porCounting := false } }) ∧
    (s.ctl.refclk = true → ∃ v : State, exec (.railBelowThreshold r) s = .next v ∧ v.ctl.railGood = s.ctl.railGood.set r false ∧
      v.ctl.porCounting = false ∧ v.ctl.held = some .power ∧ cleared v ∧ systemGone v ∧ v.fw.primary = s.fw.primary ∧ v.fw.secondary = s.fw.secondary ∧ v.fw.fuses = s.fw.fuses ∧
      v.ctl.rstCause = 1 ∧ v.ctl.lockStatus = 0 ∧ v.svc.detectors = [] ∧ v.dbg.trv = State.reset.dbg.trv ∧ v.clk.trip = false ∧ v.pins.jtag = .idcode))

/-- RESET drives RESET_N after its completion; REFCLK and lock losses bring islands down and are recorded; islands are released. Rests on R20, R227, R551, R553, R555, R556, R557, R559. -/
def Obligations.ResetCommandClockAndIslands : Prop :=
  (∀ (f : Frame) (s : State) (x : Session), let w := doneOk 0x0A00 f [] (seen f s); passes (resetCmdFails f) = true →
    (acceptedAs 0x0A00 0 0 f s x = true → exec (.resetCore f) s = .next { w with ctl := { w.ctl with driveLevel := some .core, driveAt := s.ctl.now } }) ∧
    (acceptedAs 0x0A00 0 1 f s x = true → exec (.resetSystem f) s = .next { w with ctl := { w.ctl with driveLevel := some .system, driveAt := s.ctl.now } })) ∧
  (∀ s : State, let c := s.ctl
    (c.refclk = false ∨ c.driveLevel = none ∨ c.driving = true ∨ c.now < c.driveAt + 100000 → exec .resetDriveStart s = .next s) ∧
    (c.refclk = true → c.driveLevel ≠ none → c.driving = false → c.driveAt + 100000 ≤ c.now →
      exec .resetDriveStart s = .next { s with ctl := { c with driving := true, driveAt := c.now, rstCause := putBit c.rstCause 3 true } }) ∧
    (∀ l k, c.driveLevel = some l → c.pinLevel = some k → c.refclk = true → c.driving = true → l.rank ≤ k.rank → c.driveAt + (if l = .core then 2000 else 40000) ≤ c.now →
      exec .resetDriveEnd s = .next { s with ctl := { c with driving := false, driveLevel := none } }) ∧
    (c.driveLevel = none ∨ c.pinLevel = none ∨ c.driving = false ∨ c.refclk = false ∨ (∃ l, c.driveLevel = some l ∧
      (c.now < c.driveAt + (if l = .core then 2000 else 40000) ∨ ∃ k, c.pinLevel = some k ∧ k.rank < l.rank)) → exec .resetDriveEnd s = .next s) ∧
    (c.refclk = false → exec .refclkStop s = .next s) ∧
    (c.refclk = true → exec .refclkStop s = .next ((List.range 47).foldl (fun a i => islandLost i false false a) { s with ctl := { c with refclk := false } })) ∧
    (c.refclk = true → exec .refclkReturn s = .next s) ∧
    (c.refclk = false → ∃ v : State, exec .refclkReturn s = .next v ∧ v.ctl.refclk = true ∧ v.ctl.unrecorded = 0 ∧
      (c.railGood.all id = true ∨ c.held = some .power → v.ctl.lockStatus = (c.lockStatus ||| c.unrecorded) ∧ v.ctl.held = c.held) ∧
      (c.railGood.all id = false → c.held ≠ some .power → v.ctl.held = some .power ∧ v.rcp = State.reset.rcp))) ∧
  (∀ (i : Fin 47) (s : State), let c := s.ctl
    (∀ rec inj : Bool, c.islandUp.getLsbD i = false → ∃ v : State, islandLost i rec inj s = v ∧ v.ctl.pllLock.getLsbD i = false ∧
      v.ctl.lockStatus = c.lockStatus ∧ v.ctl.unrecorded = c.unrecorded ∧ v.host = s.host ∧ v.mem = s.mem ∧ v.fab = s.fab ∧ v.rcp = s.rcp ∧ v.svc = s.svc) ∧
    (∀ rec inj : Bool, c.islandUp.getLsbD i = true → ∃ w : State, islandLost i rec inj s = islandEffect i w ∧ w.ctl.pllLock.getLsbD i = false ∧
      w.ctl.islandUp.getLsbD i = false ∧ (∀ k, k ≠ i.val → w.ctl.islandUp.getLsbD k = c.islandUp.getLsbD k) ∧
      w.ctl.lockStatus = (if rec then putBit c.lockStatus i true else c.lockStatus) ∧
      w.ctl.unrecorded = (if rec then c.unrecorded else putBit c.unrecorded i true) ∧
      (w.detector (detId 3 i)).fired = true ∧ (w.detector (detId 3 i)).fromInject = inj ∧ w.mem = s.mem ∧ w.host.link = s.host.link) ∧
    exec (.islandLockLoss i) s = .next (islandLost i c.refclk (s.armed 3 i).isSome s) ∧
    (c.refclk = true → c.pllStarted = true → c.pllLock.getLsbD i = false →
      exec (.pllLocked i) s = .next { s with ctl := { c with pllLock := putBit c.pllLock i true, lockAt := c.lockAt.put i c.now } }) ∧
    (c.refclk = false ∨ c.pllStarted = false ∨ c.pllLock.getLsbD i = true → exec (.pllLocked i) s = .next s) ∧
    (mayRelease i s = true ↔ c.refclk = true ∧ c.pllStarted = true ∧ (s.clkMode = 3 ∨ (c.pllLock.getLsbD i = true ∧ c.lockAt.at 0 i + 6400 ≤ c.now)) ∧
      c.islandUp.getLsbD i = false ∧ (c.held = none ∨ (c.held = some .core ∧ i.val ≠ islSurveyor)) ∧ (i.val = islSurveyor → c.fabricOn = true)) ∧
    (mayRelease i s = false → exec (.islandRelease i) s = .next s) ∧
    (mayRelease i s = true → ∃ v : State, exec (.islandRelease i) s = .next v ∧ v.ctl.islandUp = putBit c.islandUp i true ∧
      (i.val = islHost → s.clkMode ≠ 3 → v.host.link = .training) ∧
      (∀ p, p < 12 → i.val = islFabric p → v.fport p = s.fport p) ∧
      (i.val = islSurveyor → v.ctl.surveyor = .atRom ∧ v.ctl.surveyorTime = 0) ∧ (i.val ≠ islSurveyor → v.ctl.surveyor = c.surveyor))) ∧
  (∀ s : State, (islandEffect islHost s).host.link = .down ∧ (islandEffect islHost s).host.rx = [] ∧ (islandEffect islHost s).host.txq = [] ∧
    (∀ p, p < 12 → ((islandEffect (islFabric p) s).fport p).state = .failed) ∧
    (islandEffect islSurveyor s).ctl.surveyor = .held ∧ islandEffect islLow s = s ∧
    (∀ n, n < 32 → s.disp.flows = [] → s.disp.graphFlows = [] → s.emb.tables = [] → s.frames.sessions = [] → s.mem.retrains = [] →
      s.dbg.trv.redirect = false → let v := islandEffect (islMc n) s
        (∀ k, k < 4 → (v.channel (4 * n + k)).state = if (s.channel (4 * n + k)).state = .absent then .absent else .lost) ∧
        v.svc.lostControllers.contains n = true ∧
        (∀ e g, e ∈ s.mem.contexts → g ∈ e.2.onController s.mem n → v.mem.lost.find g = some n)))

/-- Speed, rail and temperature monitors, and the voltage loop that follows them. Rests on R21, R24, R26, R27, R568, R569, R570, R572, R573, R574, R603, R611. -/
def Obligations.MonitorsAndVoltageLoop : Prop :=
  (∀ (c : Fin 32) (n : BitVec 20) (s : State),
    (s.ctl.fabricOn = true → s.ctl.refclk = true → exec (.speedMonWindow c n) s = .next { s with clk := { s.clk with mons := s.clk.mons.set c ⟨n, true⟩ } }) ∧
    (s.ctl.fabricOn = false ∨ s.ctl.refclk = false → exec (.speedMonWindow c n) s = .next s)) ∧
  (∀ (vr : BitVec 12) (ir : BitVec 16) (failed : Bool) (s : State), let c := s.clk; let bad := failed || !s.up islLow; let m := c.slow.1
    let t := speedCount s.clkMode c.target; let p := vr.toNat * ir.toNat
    (s.fwReady = false ∨ s.dbg.frz.on = true ∨ s.ctl.refclk = false → exec (.avsLoopIteration vr ir failed) s = .next s) ∧
    (s.fwReady = true → s.dbg.frz.on = false → s.ctl.refclk = true → ∃ v : State, exec (.avsLoopIteration vr ir failed) s = .next v ∧
      v.clk.iterations = c.iterations + 1 ∧ v.clk.sCount = m ∧ v.clk.tCount = t ∧ v.rcp = s.rcp ∧ v.mem = s.mem ∧
      (bad = true → v.clk.vreq = c.vreq ∧ v.sent = s.sent ∧ v.clk.avsFails = c.avsFails + 1 ∧ v.clk.vread = c.vread) ∧
      (let hit := (v.clk.thermalLast || v.clk.powerLast) && decide (m < t);
        v.clk.limited = (if hit then true else if t ≤ m then false else c.limited) ∧ v.clk.limitedCount = c.limitedCount + b2n hit) ∧
      (∀ n o, n < s.pins.duty.length → s.owner n = some o → o.firmware = true → o.fn = 3 → nth v.pins.duty 0 n = fanDuty c.alertC c.hottest) ∧
      v.clk.targetLast = c.target ∧ v.clk.thermalLast = c.throttle ∧
      v.clk.powerLast = (!c.throttle && decide ((700 - c.allowance) * 10000 < (if bad then c.vread * c.iread else p))) ∧
      (bad = false → v.clk.vread = vr.toNat ∧ v.clk.iread = ir.toNat ∧ v.clk.avsFails = c.avsFails) ∧
      (bad = false → c.recal = true → v.clk.vreq = c.vreq ∧ v.sent = s.sent) ∧
      (bad = false → c.recal = false → 700 ≤ v.clk.vreq ∧ v.clk.vreq ≤ 850 ∧
        v.sent = (if v.clk.vreq = c.vreq then s.sent else .avs v.clk.vreq :: s.sent) ∧
        (c.throttle = true → v.clk.thermalLast = true ∧ (700 ≤ c.vreq → v.clk.vreq ≤ c.vreq)) ∧
        (c.throttle = false → (700 - c.allowance) * 10000 < p → v.clk.powerLast = true ∧ (705 ≤ c.vreq → c.vreq ≤ 850 → v.clk.vreq + 5 = c.vreq)) ∧
        (c.throttle = false → p ≤ (700 - c.allowance) * 10000 → v.clk.powerLast = false ∧ v.clk.thermalLast = false ∧ (700 ≤ c.vreq → c.vreq ≤ 850 →
          (m < t → v.clk.vreq = min 850 (c.vreq + 5)) ∧ (t + t * 3 / 100 < m → v.clk.vreq = max 700 (c.vreq - 5)) ∧
          (t ≤ m → m ≤ t + t * 3 / 100 → v.clk.vreq = c.vreq)))))) ∧
  (∀ (r : Fin 6) (mv : BitVec 12) (s : State), let c := s.clk; let m := nth c.rails ⟨0, 0, false⟩ r; let outside := railOut c.vreq r mv.toNat
    (s.inSystemReset = true ∨ s.ctl.refclk = false → exec (.railMonitorWindow r mv) s = .next s) ∧
    (s.inSystemReset = false → s.ctl.refclk = true → s.armed 0x0E r = none → c.rails.length = 6 → ∃ v : State, exec (.railMonitorWindow r mv) s = .next v ∧
      let m' := nth v.clk.rails ⟨0, 0, false⟩ r
      m'.mv = mv ∧
      (r.val = 0 → s.ctl.now < c.vreqTime + 100000 → m'.outRun = m.outRun ∧ m'.fired = m.fired ∧ v.svc = s.svc) ∧
      (r.val ≠ 0 ∨ c.vreqTime + 100000 ≤ s.ctl.now → outside = false → m'.outRun = 0 ∧ m'.fired = false ∧ v.svc = s.svc) ∧
      (r.val ≠ 0 ∨ c.vreqTime + 100000 ≤ s.ctl.now → outside = true → m'.outRun = m.outRun + 1 ∧
        (1 ≤ m.outRun → m'.fired = true ∧ (m.fired = false → (v.detector (detId 0x0E r)).fired = true) ∧ (m.fired = true → v.svc = s.svc)) ∧
        (m.outRun = 0 → m.fired = false → m'.fired = false ∧ v.svc = s.svc))) ∧
    (r.val = 0 → (railOut c.vreq r mv.toNat = true ↔ c.vreq + 40 < mv.toNat ∨ mv.toNat + 40 < c.vreq))) ∧
  (∀ (l : List (BitVec 8)) (s : State), let c := s.clk; let h := (l.map BitVec.toNat).foldl max 0
    (s.inSystemReset = true ∨ s.ctl.refclk = false ∨ l.length ≠ 38 → exec (.thermalSensorWindow l) s = .next s) ∧
    (s.inSystemReset = false → s.ctl.refclk = true → l.length = 38 → (∀ i, s.armed 0x0D i = none) → ∃ v : State,
      exec (.thermalSensorWindow l) s = .next v ∧ v.clk.temps = l.map some ∧ v.clk.hottest = h ∧ v.clk.sensor < 38 ∧
      nth (l.map BitVec.toNat) 0 v.clk.sensor = h ∧
      v.clk.alert = (if c.alert then decide (c.alertC ≤ h + 3) else decide (c.alertC ≤ h)) ∧
      v.clk.throttle = (if c.throttle then decide (c.throttleC ≤ h + 3) else decide (c.throttleC ≤ h)) ∧
      v.clk.hot = (if c.hot then decide (102 ≤ h) else decide (105 ≤ h)) ∧
      v.clk.trip = (c.trip || decide (115 ≤ h)) ∧ v.clk.vreq = c.vreq ∧
      (c.alert = false → c.alertC ≤ h → (v.detector (detId 0x0D v.clk.sensor)).fired = true) ∧
      (c.hot = false → 105 ≤ h → ∀ e ∈ v.svc.owners, e.2.firmware = true → e.2.fn ≠ 3 ∧ e.2.fn ≠ 4))) ∧
  (∀ (l : List (BitVec 16)) (s : State),
    (l.length = 8 → s.up islLow = true → exec (.tachWindow l) s = .next { s with pins := { s.pins with tach := l } }) ∧
    (l.length ≠ 8 ∨ s.up islLow = false → exec (.tachWindow l) s = .next s))

/-- MCTP messages carry RCP frames and control requests, an alert response releases SMB_ALERT_N, and the JTAG port shifts its registers. Rests on R592, R593, R594, R595. -/
def Obligations.ManagementMessagesAndJtag : Prop :=
  let ctl : Nat → List Byte → State → Bool := fun code b s =>
    mctpMine b s && s.ctl.surveyor != .paused && fld b 4 1 == 0 && bit (fld b 5 1) 7 && fld b 6 1 == code && decide (7 ≤ b.length)
  let answer : List Byte → List Byte → State → State := fun b data s =>
    { s with sent := .mctp (leb 1 1 ++ leb 1 (fld b 2 1) ++ leb 1 s.pins.eid.toNat ++ leb 1 (0xC0 + fld b 3 1 % 8) ++ leb 1 0 ++ leb 1 (fld b 5 1 % 32) ++ leb 1 (fld b 6 1) ++ data) :: s.sent }
  (∀ (b : List Byte) (s : State),
    (mctpMine b s = true → b.length ≤ 8253 → fld b 4 1 = 0x7F → be (sub b 5 4) = 0xB6D1 →
      exec (.mctpMessageReceive b) s = .next (frameReceive ⟨b.drop 9, .mctp, fld b 2 1, fld b 3 1 % 8⟩ s)) ∧
    (mctpMine b s = false ∨ fld b 4 1 ≠ 0x7F ∨ be (sub b 5 4) ≠ 0xB6D1 ∨ 8253 < b.length → exec (.mctpMessageReceive b) s = .next s) ∧
    (ctl 1 b s = true → let d := b.drop 7; let e := fld d 1 1
      (d.length = 2 → fld d 0 1 % 4 ≤ 1 → 8 ≤ e → e ≠ 0xFF → ∃ v : State, v = { s with pins := { s.pins with eid := BitVec.ofNat 8 e } } ∧
        v.pins.eid.toNat = e ∧ exec (.setEndpointId b) s = .next (answer b (zeros 2 ++ leb 1 e ++ zeros 1) v)) ∧
      (d.length = 2 → 1 < fld d 0 1 % 4 ∨ e < 8 ∨ e = 0xFF → exec (.setEndpointId b) s = .next (answer b (leb 1 2) s)) ∧
      (d.length ≠ 2 → exec (.setEndpointId b) s = .next (answer b (leb 1 3) s))) ∧
    (ctl 2 b s = true → exec (.getEndpointId b) s = .next (answer b (leb 1 0 ++ leb 1 s.pins.eid.toNat ++ zeros 2) s)) ∧
    (ctl 3 b s = true → ∃ id : List Byte, id.length = 16 ∧ exec (.getEndpointUuid b) s = .next (answer b (leb 1 0 ++ id) s)) ∧
    (ctl 4 b s = true → let t := fld (b.drop 7) 0 1
      (t = 0xFF ∨ t = 0 ∨ t = 0x7F → ∃ ver : List Byte, ver.length = 4 ∧ exec (.getMctpVersionSupport b) s = .next (answer b (leb 1 0 ++ leb 1 1 ++ ver) s)) ∧
      (t ≠ 0xFF → t ≠ 0 → t ≠ 0x7F → exec (.getMctpVersionSupport b) s = .next (answer b (leb 1 0x80) s))) ∧
    (ctl 5 b s = true → exec (.getMessageTypeSupport b) s = .next (answer b (leb 1 0 ++ leb 1 1 ++ leb 1 0x7F) s)) ∧
    (ctl 6 b s = true →
      (fld (b.drop 7) 0 1 = 0 → ∃ c : Nat, exec (.getVendorDefinedMessageSupport b) s =
        .next (answer b (leb 1 0 ++ leb 1 0xFF ++ leb 1 1 ++ beb 4 0xB6D1 ++ beb 2 c) s)) ∧
      (fld (b.drop 7) 0 1 ≠ 0 → exec (.getVendorDefinedMessageSupport b) s = .next (answer b (leb 1 2) s))) ∧
    (ctl 1 b s = false → exec (.setEndpointId b) s = .next s) ∧ (ctl 2 b s = false → exec (.getEndpointId b) s = .next s) ∧
    (ctl 3 b s = false → exec (.getEndpointUuid b) s = .next s) ∧ (ctl 4 b s = false → exec (.getMctpVersionSupport b) s = .next s) ∧
    (ctl 5 b s = false → exec (.getMessageTypeSupport b) s = .next s) ∧ (ctl 6 b s = false → exec (.getVendorDefinedMessageSupport b) s = .next s)) ∧
  (∀ s : State, let shown := fun (i : JtagInstr) (x : Sent) => { s with pins := { s.pins with jtag := i }, sent := x :: s.sent }
    let boundary := fun (i : JtagInstr) (v : State) => ∃ a b : Nat, v.sent = .jtag 2 a :: s.sent ∧ v.pins = { s.pins with jtag := i, preload := b } ∧
      v.ctl = s.ctl ∧ v.rcp = s.rcp ∧ v.mem = s.mem
    (s.up islLow = true → s.pins.alertEn = true → s.pins.smbAlert = true →
      exec .alertResponseRead s = .next { s with pins := { s.pins with smbAlert := false }, sent := .alert s.pins.smbAddr.toNat :: s.sent }) ∧
    (s.up islLow = false ∨ s.pins.alertEn = false ∨ s.pins.smbAlert = false → exec .alertResponseRead s = .next s) ∧
    exec .jtagIdcode s = .next (shown .idcode (.jtag 1 0x05601A4B)) ∧
    exec .jtagBypass s = .next (shown .bypass (.jtag 0 0)) ∧
    exec .jtagClamp s = .next (shown .clamp (.jtag 0 0)) ∧
    exec .jtagHighz s = .next (shown .highz (.jtag 0 0)) ∧
    (∃ v : State, exec .jtagSamplePreload s = .next v ∧ boundary .samplePreload v) ∧
    (s.ctl.pinLevel ≠ some .system → exec .jtagExtest s = .next (shown .extest (.jtag 0 0))) ∧
    (s.ctl.pinLevel = some .system → ∃ v : State, exec .jtagExtest s = .next v ∧ boundary .extest v) ∧
    (∀ i, (i = .extest ∨ i = .clamp ∨ i = .highz) → ({ s with pins := { s.pins with jtag := i } } : State).jtagActs =
      if s.ctl.pinLevel = some .system then i else .bypass))

/-- A command whose checks fail ends with the error of the first failing row and changes nothing else. Rests on R79, R80, R610. -/
def Obligations.RefusedCommandsChangeNothing : Prop :=
  (∀ (f : Frame) (s : State) (x : Session) (e : Err), let b := f.payload; let u := seen f s; let h := heard s x; let sid := f.sessionId.toNat
    (∀ p ∈ ([
      (0x0003, .closeSession f, closeSessionFails f), (0x0005, .subscribe f, subscribeFails f), (0x0006, .getEvents f, getEventsFails f),
      (0x0010, .getPortStatus f, portStatusFails f), (0x0011, .setPortConfig f, setPortConfigFails f u),
      (0x0012, .setNetConfig f, setNetConfigFails f), (0x0013, .qpCreate f, qpCreateFails f h u), (0x0014, .qpModify f, qpModifyFails f h u),
      (0x0015, .qpDestroy f, qpDestroyFails f h u), (0x0016, .mrRegister f, mrRegisterFails f u), (0x0017, .mrDeregister f, mrDeregisterFails f h u),
      (0x0101, .readReg f, readRegFails f h), (0x0103, .getSpeed f, getSpeedFails f), (0x0104, .setSpeedTarget f, setSpeedTargetFails f),
      (0x0200, .contextCreate f, contextCreateFails f u), (0x0201, .contextDestroy f, contextDestroyFails f u),
      (0x0301, .flowDestroy f, flowDestroyFails f h u), (0x0302, .flowBindIngress f, bindIngressFails f h u),
      (0x0401, .imageUnload f, imageUnloadFails f h u), (0x0700, .attest f, attestFails f h u), (0x0701, .getCerts f, getCertsFails f u),
      (0x0703, .certRotate f, certRotateFails f sid u), (0x0800, .claim f, claimFails u sid h b), (0x0801, .release f, releaseResFails f sid u),
      (0x0901, .thaw f, thawCmdFails f u), (0x0903, .waitGraph f, waitGraphFails u sid h b), (0x0A01, .getThermal f, getThermalFails f)] : List (Nat × Instr × List (Bool × Err))),
      accepted p.1 f s x = true → firstFail p.2.2 = some e → exec p.2.1 s = .next (frameComplete f p.1 e.status (errPayload e) u)) ∧
    (∀ p ∈ ([
      (0x0204, 1, 0, .retrainChannel f, retrainChannelFails f u), (0x0204, 1, 1, .channelDrain f, retrainChannelFails f u),
      (0x0204, 1, 2, .channelRetrainRestore f, retrainChannelFails f u), (0x0521, 1, 0, .gazReload f, gazServiceFails f u),
      (0x0521, 1, 1, .gazEvacuate f, gazServiceFails f u), (0x0521, 1, 2, .gazRestore f, gazServiceFails f u),
      (0x0521, 1, 3, .gazScrubPeriod f, gazServiceFails f u), (0x0702, 0, 0, .fwUpdateWrite f, fwWriteFails f sid u),
      (0x0702, 0, 1, .fwUpdateActivate f, fwActivateFails f sid u), (0x0702, 0, 2, .fwUpdateCommit f, fwCommitFails f sid u),
      (0x0702, 0, 3, .fwUpdateAbort f, fwFails f sid u), (0x0702, 0, 4, .fwUpdateConfig f, fwConfigFails f sid u),
      (0x0802, 0, 0, .serviceQuery f, serviceFails u h b), (0x0802, 0, 1, .engineReset f, serviceFails u h b),
      (0x0802, 0, 2, .portRelink f, serviceFails u h b), (0x0802, 0, 3, .avsRecal f, serviceFails u h b),
      (0x0803, 2, 0, .podQuarantine f, quarantineFails u b), (0x0803, 2, 1, .podSelftest f, quarantineFails u b),
      (0x0803, 2, 2, .podReinstate f, quarantineFails u b), (0x0804, 4, 0, .injectArm f, injectFails u b),
      (0x0804, 4, 1, .injectDisarm f, injectFails u b), (0x0900, 0, 0, .freezeNow f, freezeCmdFails f u),
      (0x0900, 0, 1, .freezeArm f, freezeCmdFails f u), (0x0900, 0, 2, .freezeDisarm f, freezeCmdFails f u),
      (0x0902, 0, 0, .traverseStart f, trvFails f sid u), (0x0902, 0, 1, .traverseStop f, trvFails f sid u),
      (0x0902, 0, 2, .traverseStatus f, trvFails f sid u), (0x0902, 0, 3, .traverseRead f, trvFails f sid u),
      (0x0904, 0, 0, .contextCountersRead f, countersFails u h b), (0x0904, 0, 1, .snapshotRead f, countersFails u h b),
      (0x0A00, 0, 0, .resetCore f, resetCmdFails f), (0x0A00, 0, 1, .resetSystem f, resetCmdFails f),
      (0x0A02, 0, 0, .bootLoadWrite f, bootLoadFails f u), (0x0A02, 0, 1, .bootLoadRun f, bootLoadFails f u),
      (0x0A02, 0, 2, .bootLoadAbort f, bootLoadFails f u)] : List (Nat × Nat × Nat × Instr × List (Bool × Err))),
      acceptedAs p.1 p.2.1 p.2.2.1 f s x = true → firstFail p.2.2.2.2 = some e →
        exec p.2.2.2.1 s = .next (frameComplete f p.1 e.status (errPayload e) u))) ∧
  (∀ e : Err, (errPayload e).length = 8)

/-- An event raised in a session that subscribes to its class takes the next number, is kept among the last 256 and is sent. Rests on R86, R87, R501. -/
def Obligations.EventsNumberedAndRetained : Prop :=
  ∀ (s : State) (sid cls code : Nat) (data : List Byte) (x : Session), s.session sid = some x →
    let e : EventRec := ⟨x.evSeq + 1, cls, code, data⟩
    let v := s.eventTo sid cls code data
    (bit x.mask cls = false → v = s) ∧
    (bit x.mask cls = true →
      v.session sid = some { x with
        evSeq := x.evSeq + 1, events := lastN 256 (x.events ++ [e]), unsent := if s.ctl.surveyor = .ready then x.unsent else x.unsent ++ [e] } ∧
      (lastN 256 (x.events ++ [e])).length ≤ 256 ∧ (lastN 256 (x.events ++ [e])).getLast? = some e ∧
      (x.eventFrame sid e).payload.length = 64 + (data.length - 48) ∧
      (s.ctl.surveyor = .ready → s.reaches x.path x.ip = true →
        let m : Sent := .rcp .host x.ip x.port s.host.rcpPriority s.host.vlan ((s.host.nextHop x.ip).getD x.ip) (x.eventFrame sid e)
        (x.path = .mctp → v.sent = .rcp .mctp x.ip x.port 0 0 x.ip (x.eventFrame sid e) :: s.sent) ∧
        (x.path = .host → s.paused s.host.rcpPriority = false → v.sent = m :: s.sent ∧ v.host.txq = s.host.txq) ∧
        (x.path = .host → s.paused s.host.rcpPriority = true → v.sent = s.sent ∧
          ∃ n, v.host.txq = s.host.txq ++ [(s.host.rcpPriority, n, m)])) ∧
      (s.ctl.surveyor ≠ .ready ∨ s.reaches x.path x.ip = false → v.sent = s.sent) ∧
      (x.path = .mctp → s.pins.alertEn = true → v.pins.smbAlert = true) ∧
      v.mem = s.mem ∧ v.pods = s.pods ∧ v.ctl = s.ctl ∧ v.svc = s.svc ∧
      (∀ n, n ≠ sid → v.session n = s.session n)) ∧
    (∀ p : Session → Bool, s.rcp.sessions = [(sid, x)] → s.event p cls code data = if p x then v else s)

/-- A frame's bytes decode to that frame and opcode, and a received datagram runs its opcode's row, for every command. Rests on R60, R63, R64, R73, R88. -/
def Obligations.FramesDecodeAsEncoded : Prop :=
  let wire : Nat → Frame → List Byte := fun op f =>
    let b := leb 2 0x5259 ++ leb 1 f.verMajor.toNat ++ leb 1 f.verMinor.toNat ++ leb 4 f.sessionId.toNat ++ leb 8 f.requestId.toNat ++ leb 2 op ++
      leb 2 f.flags.toNat ++ leb 4 f.payload.length ++ leb 2 f.status.toNat ++ leb 6 f.reserved.toNat ++ f.payload ++ f.mac
    b ++ leb 4 (crc32c b)
  ∀ (op : Nat) (f : Frame), op < 2 ^ 16 → f.payload.length < 2 ^ 32 → f.mac.length = (if bit f.flags.toNat 1 then 16 else 0) →
    let d : Datagram := ⟨wire op f, f.path, f.srcIp, f.srcPort⟩
    frameOf d = f ∧ fld (wire op f) 0x10 2 = op ∧ frameLen (wire op f) = (wire op f).length ∧
    (bit f.flags.toNat 0 = false → bit f.flags.toNat 3 = false → ∀ s : State, s.canReceive f.path = true →
      (s.ctl.surveyor = .paused → exec (.rcpFrameReceive d) s = .next { s with rcp := { s.rcp with heldFrames := s.rcp.heldFrames ++ [.datagram d] } }) ∧
      (s.ctl.surveyor = .ready ∨ s.ctl.surveyor = .netboot → let u := if f.path = .host then s.unbuffer .rcp else s
      exec (.rcpFrameReceive d) s = .next (rcpGate op f u (rcpDispatch op f)) ∧
      (∀ p ∈ ([
      (0x0003, .closeSession f), (0x0004, .keepalive f), (0x0005, .subscribe f), (0x0006, .getEvents f), (0x0007, .resume f),
      (0x0010, .getPortStatus f), (0x0011, .setPortConfig f), (0x0012, .setNetConfig f), (0x0013, .qpCreate f), (0x0014, .qpModify f),
      (0x0015, .qpDestroy f), (0x0016, .mrRegister f), (0x0017, .mrDeregister f), (0x0100, .getConfig f), (0x0101, .readReg f),
      (0x0103, .getSpeed f), (0x0104, .setSpeedTarget f), (0x0200, .contextCreate f), (0x0201, .contextDestroy f), (0x0202, .map f),
      (0x0203, .unmap f), (0x0300, .flowCreate f), (0x0301, .flowDestroy f), (0x0302, .flowBindIngress f), (0x0304, .flowStats f),
      (0x0400, .imageLoad f), (0x0401, .imageUnload f), (0x0510, .embTableCreate f), (0x0512, .partitionMapSet f), (0x0600, .fabricStatus f),
      (0x0601, .fabricRediscover f), (0x0700, .attest f), (0x0701, .getCerts f), (0x0703, .certRotate f), (0x0800, .claim f), (0x0801, .release f),
      (0x0901, .thaw f), (0x0903, .waitGraph f), (0x0A01, .getThermal f), (1, .hello f), (2, .openSession f)] : List (Nat × Instr)),
        op = p.1 → exec (.rcpFrameReceive d) s = exec p.2 u) ∧
      (∀ p ∈ ([
      (0x0204, 1, 0, .retrainChannel f), (0x0204, 1, 1, .channelDrain f), (0x0204, 1, 2, .channelRetrainRestore f),
      (0x0511, 8, 0, .embTablePrepare f), (0x0511, 8, 1, .embTableCommit f), (0x0511, 8, 2, .embTableCancel f), (0x0511, 8, 3, .embTableDestroy f),
      (0x0511, 8, 4, .embTableQuery f), (0x0520, 0, 0, .gazCreate f), (0x0520, 0, 1, .gazWrite f), (0x0520, 0, 2, .gazSegtags f),
      (0x0520, 0, 3, .gazDestroy f), (0x0521, 1, 0, .gazReload f), (0x0521, 1, 1, .gazEvacuate f), (0x0521, 1, 2, .gazRestore f),
      (0x0521, 1, 3, .gazScrubPeriod f), (0x0530, 0, 0, .frameSessionOpen f), (0x0530, 0, 1, .frameSessionClose f), (0x0531, 0, 0, .batchAttach f),
      (0x0531, 0, 1, .batchFlush f), (0x0531, 0, 2, .batchDetach f), (0x0702, 0, 0, .fwUpdateWrite f), (0x0702, 0, 1, .fwUpdateActivate f),
      (0x0702, 0, 2, .fwUpdateCommit f), (0x0702, 0, 3, .fwUpdateAbort f), (0x0702, 0, 4, .fwUpdateConfig f), (0x0802, 0, 0, .serviceQuery f),
      (0x0802, 0, 1, .engineReset f), (0x0802, 0, 2, .portRelink f), (0x0802, 0, 3, .avsRecal f), (0x0803, 2, 0, .podQuarantine f),
      (0x0803, 2, 1, .podSelftest f), (0x0803, 2, 2, .podReinstate f), (0x0804, 4, 0, .injectArm f), (0x0804, 4, 1, .injectDisarm f),
      (0x0900, 0, 0, .freezeNow f), (0x0900, 0, 1, .freezeArm f), (0x0900, 0, 2, .freezeDisarm f), (0x0902, 0, 0, .traverseStart f),
      (0x0902, 0, 1, .traverseStop f), (0x0902, 0, 2, .traverseStatus f), (0x0902, 0, 3, .traverseRead f), (0x0904, 0, 0, .contextCountersRead f),
      (0x0904, 0, 1, .snapshotRead f), (0x0A00, 0, 0, .resetCore f), (0x0A00, 0, 1, .resetSystem f), (0x0A02, 0, 0, .bootLoadWrite f),
      (0x0A02, 0, 1, .bootLoadRun f), (0x0A02, 0, 2, .bootLoadAbort f)] : List (Nat × Nat × Nat × Instr)),
        op = p.1 → p.2.1 < f.payload.length → fld f.payload p.2.1 1 = p.2.2.1 → exec (.rcpFrameReceive d) s = exec p.2.2.2 u)))

/-- No step unburns a fuse: the SVN never falls, a revoked key slot stays revoked, and the other fuses keep their values. Rests on R480, R488. -/
def Obligations.FusesOnlyGrow : Prop :=
  ∀ (a : Fuses) (s s' : State), Fuses.le a s.fw.fuses = true → step s = .next s' → Fuses.le a s'.fw.fuses = true

/-- Every step keeps memory in its canonical form. Rests on R196, R206, R226. -/
def Obligations.MemoryStaysCanonical : Prop :=
  ∀ s s' : State, s.mem.wf = true → step s = .next s' → s'.mem.wf = true

/-- The machine at reset: power-on reset asserted, the registers at their reset values, nothing mapped, and the invariants hold. Rests on R23, R43, R45, R192, R368, R475, R476, R554, R555. -/
def Obligations.ResetState : Prop :=
  let s := State.reset
  s.pending = [] ∧ s.ctl.held = some .power ∧ s.ctl.islandUp = 0 ∧ s.ctl.rstCause = 1 ∧ s.ctl.lockStatus = 0 ∧ s.clk.target = 100 ∧ s.clk.vreq = 750 ∧
  s.host.advertise = 7 ∧ s.host.rcpPort = 41890 ∧ s.host.rcpPriority = 6 ∧ s.host.v4Valid = false ∧ s.host.link = .down ∧ s.gaz.segLimit = 0x4E2000 ∧
  s.fab.ports = [] ∧ (∀ p, (s.fport p).state = .down) ∧ s.rcp.sessions = [] ∧ s.disp.flows = [] ∧ s.mem.contexts.map Prod.fst = [0] ∧ s.pods.images = [] ∧
  (∀ t, (s.thread t).st = .unbound) ∧ (∀ d, (s.detector d).fired = false ∧ (s.detector d).count = 0) ∧ (∀ c, (s.channel c).state = .absent) ∧
  (∀ a, s.mem.byte a = 0) ∧ s.mem.wf = true ∧ Fuses.le s.fw.fuses s.fw.fuses = true

/-- The SPEED_LIMITED flag and the limited-iteration counter follow the thermal and power branches. Rests on R25. -/
def Obligations.SpeedLimitedFlag : Prop :=
  ∀ (vr : BitVec 12) (ir : BitVec 16) (failed : Bool) (s : State), s.fwReady = true → s.dbg.frz.on = false → s.ctl.refclk = true →
    ∃ v : State, exec (.avsLoopIteration vr ir failed) s = .next v ∧
      let t := v.clk.tCount; let m := v.clk.sCount
      let branch := v.clk.thermalLast || v.clk.powerLast
      t = speedCount s.clkMode s.clk.target ∧ m = s.clk.slow.1 ∧
      v.clk.limited = (if branch = true ∧ m < t then true else if t ≤ m then false else s.clk.limited) ∧
      v.clk.limitedCount = s.clk.limitedCount + (if branch = true ∧ m < t then 1 else 0) ∧
      (∀ (f : Frame) (x : Session), accepted 0x0103 f v x = true → f.payload = [] → ∃ p : List Byte, exec (.getSpeed f) v = .next (doneOk 0x0103 f p (seen f v)) ∧
        bit (fld p 1 1) 0 = v.clk.limited ∧ fld p 0x18 8 = v.clk.limitedCount % 2 ^ 64)

/-- SET_SPEED_TARGET takes a target of 70 to 130 % in 8 bytes; handovers keep it and every reset returns it to 100 %. Rests on R27. -/
def Obligations.SpeedTargetCommand : Prop :=
  (∀ (f : Frame) (s : State) (x : Session), accepted 0x0104 f s x = true → f.payload.length = 8 → let t := fld f.payload 0 1
    (fldZero f.payload 1 7 = true → 70 ≤ t → t ≤ 130 → ∃ v : State, exec (.setSpeedTarget f) s = .next (doneOk 0x0104 f [] v) ∧ v.clk = { s.clk with target := t }) ∧
    (fldZero f.payload 1 7 = false → ∃ e : Err, e.status = stArg ∧ exec (.setSpeedTarget f) s = .next (frameComplete f 0x0104 stArg (errPayload e) (seen f s)) ∧
      (seen f s).clk = s.clk) ∧
    (fldZero f.payload 1 7 = true → t < 70 ∨ 130 < t → exec (.setSpeedTarget f) s =
      .next (frameComplete f 0x0104 stRange (errPayload (errAt stRange 0)) (seen f s)))) ∧
  (∀ (f : Frame) (s : State) (op st : Nat) (p : List Byte), (frameComplete f op st p s).clk = s.clk) ∧
  (∀ (f : Frame) (s : State) (x : Session), accepted 0x0104 f s x = true → f.payload.length ≠ 8 →
    exec (.setSpeedTarget f) s = .next (frameComplete f 0x0104 stArg (errPayload (err0 stArg)) (seen f s))) ∧
  (∀ s v : State, (exec .handoverReady s = .next v ∨ exec .handoverTimeout s = .next v) →
    v = s ∨ ∃ w : State, w.clk.target = s.clk.target ∧ v = s.rcp.heldFrames.foldl (fun a h => takeHeld h a) w) ∧
  (∀ (l : Level) (s : State), (assertReset l s).clk.target = 100)

/-- Every reset level destroys the flows and graphs with all they hold, and the Dispatcher starts again from its reset state. Rests on R192. -/
def Obligations.ResetDestroysFlows : Prop :=
  ∀ (l : Level) (s : State), let v := assertReset l s
    v.disp = State.reset.disp ∧ v.pods = State.reset.pods ∧ v.disp.flows = [] ∧ v.disp.graphFlows = [] ∧ (∀ t, (v.thread t).st = .unbound) ∧
    v.disp.graphs = [] ∧ (∀ n, v.disp.gens.at 0 n = 0)

/-- A Pod instruction whose thread does not run changes nothing, a refused fetch or reserved encoding faults, an awaited register blocks. Rests on R92, R94, R100, R131, R528. -/
def Obligations.PodInstructionsStopAndWait : Prop :=
  ∀ (t : Fin 8192) (w : Insn) (s : State), ∀ p ∈ ([
      (.salu t w, rowSalu), (.addi t w, rowAddi), (.shi t w, rowShi), (.lih t w, rowLih), (.sfp t w, rowSfp), (.br t w, rowBr), (.jal t w, rowJal),
      (.jalr t w, rowJalr), (.vint t w, rowVint), (.vflt t w, rowVflt), (.vdot t w, rowVdot), (.vcvt t w, rowVcvt), (.vperm t w, rowVperm),
      (.vcmp t w, rowVcmp), (.vred t w, rowVred), (.mask t w, rowMask), (.vhash t w, rowVhash), (.vsort t w, rowVsort), (.vmerge t w, rowVmerge),
      (.vtopk t w, rowVtopk), (.ld t w, rowLd), (.st t w, rowSt), (.vld t w, rowVld), (.vst t w, rowVst), (.atom t w, rowAtom), (.fence t w, rowFence),
      (.hashs t w, rowHashs), (.acca t w, rowAcca), (.accf t w, rowAccf), (.vaccadd t w, rowAccVec 2), (.vaccmax t w, rowAccVec 3),
      (.vaccmin t w, rowAccVec 4), (.vaccrd t w, rowVaccrd), (.vaccwr t w, rowAccVec 6), (.vaccz t w, rowVaccz), (.ask t w, rowAsk),
      (.asknb t w, rowAsknb), (.done t w, rowDone), (.post t w, rowPost), (.postnb t w, rowPostnb), (.waitu t w, rowWaitu), (.waitany t w, rowWaitany),
      (.embg t w, rowEmb false), (.embu t w, rowEmb true), (.gsrchT t w, rowSearch 0), (.gsrchG t w, rowSearch 1), (.gbkt t w, rowSearch 2),
      (.gupd t w, rowGupd), (.jins t w, rowJins), (.jprobe t w, rowJprobe), (.jnext t w, rowJnext), (.proj t w, rowProj false), (.accst t w, rowProj true),
      (.unitResume t w, rowResume)] : List (Instr × Row)),
    let th := s.thread t; let pod := podOf t; let r := p.2; let go := fetches t w s && r.mine w
    (th.st ≠ .running ∨ s.active pod = false → s.chosen t = false) ∧ (s.chosen t = false → exec p.1 s = .next s) ∧
    (∀ va e, s.chosen t = true → (podFetch (s.turned t) t).1 = .error (va, e) → exec p.1 s = .next ((fetched t s).fault t th.pc va e) ∧
      e.detail = 2 ∧ (va = th.pc ∨ va = (th.pc + 4) % 2 ^ 64)) ∧
    (∀ v, s.chosen t = true → (podFetch (s.turned t) t).1 = .ok v →
      v.word ≠ w.word ∨ (hasExt w.word.toNat = true ∧ v.ext ≠ w.ext) ∨ r.mine w = false → exec p.1 s = .next s) ∧
    (go = true → (xOk w && r.ok w) = false → exec p.1 s = .next ((fetched t s).fault t th.pc 0 ⟨stArg, 1, 0xFFFF, 0⟩)) ∧
    (go = true → (xOk w && r.ok w) = true → r.reads w ≠ [] → ((fetched t s).armed 6 pod).isSome = true → ∃ v : State,
      exec p.1 s = .next (v.fault t th.pc 0 ⟨stHw, 8, 0xFFFF, detId 6 pod⟩) ∧ v.armed 6 pod = none ∧ v.thread t = th) ∧
    (go = true → (xOk w && r.ok w) = true → ((fetched t s).armed 6 pod).isNone = true → th.awaits (r.reads w) = true → ∃ v : State,
      exec p.1 s = .next v ∧ v.thread t = { th with st := .blocked .result, waitChange := th.waitChange + 1 })

/-- Every instruction word runs under exactly one Pod row, and a word of a reserved major opcode is illegal under its row. Rests on R95, R101, R118, R125, R130. -/
def Obligations.EveryWordHasOneRow : Prop :=
  ∀ w : Insn,
    (([rowSalu, rowAddi, rowShi, rowLih, rowSfp, rowBr, rowJal, rowJalr, rowVint, rowVflt, rowVdot, rowVcvt, rowVperm, rowVcmp, rowVred, rowMask,
        rowVhash, rowVsort, rowVmerge, rowVtopk, rowLd, rowSt, rowVld, rowVst, rowAtom, rowFence, rowHashs, rowAcca, rowAccf, rowAccVec 2, rowAccVec 3,
        rowAccVec 4, rowVaccrd, rowAccVec 6, rowVaccz, rowAsk, rowAsknb, rowDone, rowPost, rowPostnb, rowWaitu, rowWaitany, rowEmb false, rowEmb true,
        rowSearch 0, rowSearch 1, rowSearch 2, rowGupd, rowJins, rowJprobe, rowJnext, rowProj false, rowProj true, rowResume, rowJob 8 remoteIssue] :
        List Row).filter (fun r => r.mine w)).length = 1 ∧
    (majorOf (insMajor w) = none → rowSalu.mine w = true ∧ xOk w = false) ∧
    (w.word = 0 → majorOf (insMajor w) = none)
end

