-- ==== Sys2Proof/Laws/Alloc.lean ====
section
/-!
SUPPORT. Allocation: a page where nothing lies on the first of the pool.
-/
namespace Sys2Proof.Machine
open Sys2Proof

/-- The first page of a pool where nothing lies on it. -/
theorem findPages_first (used : List Extent) (ok : Nat → Bool) (size top k need : Nat) (hn : need = 1) (hk : 2 ≤ k) (ht : size ≤ top)
    (hu : used.find? (fun e => e.pa < 0 + size && 0 < e.pa + e.len) = none) (ho : ok 0 = true) :
    findPages used ok size top k 0 need [] = some [⟨size, 0⟩] := by
  obtain ⟨n, rfl⟩ := Nat.exists_eq_add_of_le' hk
  subst hn
  rw [findPages, if_neg (by omega), if_neg (by omega), hu]
  dsimp only
  rw [ho, if_pos rfl]
  rw [findPages, if_pos rfl]
  rfl

/-- One page allocated from a pool where nothing lies on its first. -/
theorem allocate_first (s : State) (size len : Nat) (hm : s.memUsed + len ≤ s.memAvailable) (hn : len / size = 1) (ht : size ≤ s.lpddrTop)
    (hk : 4096 ≤ s.lpddrTop) (hu : s.usedExtents.find? (fun e => e.pa < 0 + size && 0 < e.pa + e.len) = none) (ho : s.pageOk 0xFF size 0 = true) :
    s.allocate 0xFF size len false = some ([⟨size, 0⟩], s.mem.checks) := by
  have h : findPages ([] ++ s.usedExtents) (s.pageOk 0xFF size) size s.lpddrTop (s.lpddrTop / 4096 + 1) 0 (len / size) [] = some [⟨size, 0⟩] :=
    findPages_first _ _ _ _ _ _ hn (by omega) ht hu ho
  unfold State.allocate State.allocPages
  rw [if_neg (by simp [eccBytes]; omega), h]
  rfl

end Sys2Proof.Machine
end

