-- ==== Sys2Proof/Laws/State.lean ====
section
/-!
SUPPORT. What each named update of the state leaves as it is: one lemma per field.
-/
namespace Sys2Proof.Machine
open Sys2Proof

/-- A fold keeps what each of its steps keeps. -/
theorem foldl_keeps {α β γ : Type} {p : α → β} {g : α → γ → α} (h : ∀ a x, p (g a x) = p a) (l : List γ) (a : α) : p (l.foldl g a) = p a := by
  induction l generalizing a with
  | nil => rfl
  | cons x t ih => simp [List.foldl_cons, ih, h]

@[simp] theorem State.setThread_pending (s : State) (t : Nat) (x : Thread) : (s.setThread t x).pending = s.pending := rfl
@[simp] theorem State.setThread_ctl (s : State) (t : Nat) (x : Thread) : (s.setThread t x).ctl = s.ctl := rfl
@[simp] theorem State.setThread_clk (s : State) (t : Nat) (x : Thread) : (s.setThread t x).clk = s.clk := rfl
@[simp] theorem State.setThread_fw (s : State) (t : Nat) (x : Thread) : (s.setThread t x).fw = s.fw := rfl
@[simp] theorem State.setThread_host (s : State) (t : Nat) (x : Thread) : (s.setThread t x).host = s.host := rfl
@[simp] theorem State.setThread_roce (s : State) (t : Nat) (x : Thread) : (s.setThread t x).roce = s.roce := rfl
@[simp] theorem State.setThread_rcp (s : State) (t : Nat) (x : Thread) : (s.setThread t x).rcp = s.rcp := rfl
@[simp] theorem State.setThread_svc (s : State) (t : Nat) (x : Thread) : (s.setThread t x).svc = s.svc := rfl
@[simp] theorem State.setThread_mem (s : State) (t : Nat) (x : Thread) : (s.setThread t x).mem = s.mem := rfl
@[simp] theorem State.setThread_disp (s : State) (t : Nat) (x : Thread) : (s.setThread t x).disp = s.disp := rfl
@[simp] theorem State.setThread_units (s : State) (t : Nat) (x : Thread) : (s.setThread t x).units = s.units := rfl
@[simp] theorem State.setThread_gaz (s : State) (t : Nat) (x : Thread) : (s.setThread t x).gaz = s.gaz := rfl
@[simp] theorem State.setThread_emb (s : State) (t : Nat) (x : Thread) : (s.setThread t x).emb = s.emb := rfl
@[simp] theorem State.setThread_fab (s : State) (t : Nat) (x : Thread) : (s.setThread t x).fab = s.fab := rfl
@[simp] theorem State.setThread_frames (s : State) (t : Nat) (x : Thread) : (s.setThread t x).frames = s.frames := rfl
@[simp] theorem State.setThread_dbg (s : State) (t : Nat) (x : Thread) : (s.setThread t x).dbg = s.dbg := rfl
@[simp] theorem State.setThread_pins (s : State) (t : Nat) (x : Thread) : (s.setThread t x).pins = s.pins := rfl
@[simp] theorem State.setThread_free (s : State) (t : Nat) (x : Thread) : (s.setThread t x).free = s.free := rfl
@[simp] theorem State.setThread_sent (s : State) (t : Nat) (x : Thread) : (s.setThread t x).sent = s.sent := rfl

@[simp] theorem State.modThread_pending (s : State) (t : Nat) (f : Thread → Thread) : (s.modThread t f).pending = s.pending := rfl
@[simp] theorem State.modThread_ctl (s : State) (t : Nat) (f : Thread → Thread) : (s.modThread t f).ctl = s.ctl := rfl
@[simp] theorem State.modThread_clk (s : State) (t : Nat) (f : Thread → Thread) : (s.modThread t f).clk = s.clk := rfl
@[simp] theorem State.modThread_fw (s : State) (t : Nat) (f : Thread → Thread) : (s.modThread t f).fw = s.fw := rfl
@[simp] theorem State.modThread_host (s : State) (t : Nat) (f : Thread → Thread) : (s.modThread t f).host = s.host := rfl
@[simp] theorem State.modThread_roce (s : State) (t : Nat) (f : Thread → Thread) : (s.modThread t f).roce = s.roce := rfl
@[simp] theorem State.modThread_rcp (s : State) (t : Nat) (f : Thread → Thread) : (s.modThread t f).rcp = s.rcp := rfl
@[simp] theorem State.modThread_svc (s : State) (t : Nat) (f : Thread → Thread) : (s.modThread t f).svc = s.svc := rfl
@[simp] theorem State.modThread_mem (s : State) (t : Nat) (f : Thread → Thread) : (s.modThread t f).mem = s.mem := rfl
@[simp] theorem State.modThread_disp (s : State) (t : Nat) (f : Thread → Thread) : (s.modThread t f).disp = s.disp := rfl
@[simp] theorem State.modThread_units (s : State) (t : Nat) (f : Thread → Thread) : (s.modThread t f).units = s.units := rfl
@[simp] theorem State.modThread_gaz (s : State) (t : Nat) (f : Thread → Thread) : (s.modThread t f).gaz = s.gaz := rfl
@[simp] theorem State.modThread_emb (s : State) (t : Nat) (f : Thread → Thread) : (s.modThread t f).emb = s.emb := rfl
@[simp] theorem State.modThread_fab (s : State) (t : Nat) (f : Thread → Thread) : (s.modThread t f).fab = s.fab := rfl
@[simp] theorem State.modThread_frames (s : State) (t : Nat) (f : Thread → Thread) : (s.modThread t f).frames = s.frames := rfl
@[simp] theorem State.modThread_dbg (s : State) (t : Nat) (f : Thread → Thread) : (s.modThread t f).dbg = s.dbg := rfl
@[simp] theorem State.modThread_pins (s : State) (t : Nat) (f : Thread → Thread) : (s.modThread t f).pins = s.pins := rfl
@[simp] theorem State.modThread_free (s : State) (t : Nat) (f : Thread → Thread) : (s.modThread t f).free = s.free := rfl
@[simp] theorem State.modThread_sent (s : State) (t : Nat) (f : Thread → Thread) : (s.modThread t f).sent = s.sent := rfl

@[simp] theorem State.modPod_pending (s : State) (p : Nat) (f : Pod → Pod) : (s.modPod p f).pending = s.pending := rfl
@[simp] theorem State.modPod_ctl (s : State) (p : Nat) (f : Pod → Pod) : (s.modPod p f).ctl = s.ctl := rfl
@[simp] theorem State.modPod_clk (s : State) (p : Nat) (f : Pod → Pod) : (s.modPod p f).clk = s.clk := rfl
@[simp] theorem State.modPod_fw (s : State) (p : Nat) (f : Pod → Pod) : (s.modPod p f).fw = s.fw := rfl
@[simp] theorem State.modPod_host (s : State) (p : Nat) (f : Pod → Pod) : (s.modPod p f).host = s.host := rfl
@[simp] theorem State.modPod_roce (s : State) (p : Nat) (f : Pod → Pod) : (s.modPod p f).roce = s.roce := rfl
@[simp] theorem State.modPod_rcp (s : State) (p : Nat) (f : Pod → Pod) : (s.modPod p f).rcp = s.rcp := rfl
@[simp] theorem State.modPod_svc (s : State) (p : Nat) (f : Pod → Pod) : (s.modPod p f).svc = s.svc := rfl
@[simp] theorem State.modPod_mem (s : State) (p : Nat) (f : Pod → Pod) : (s.modPod p f).mem = s.mem := rfl
@[simp] theorem State.modPod_disp (s : State) (p : Nat) (f : Pod → Pod) : (s.modPod p f).disp = s.disp := rfl
@[simp] theorem State.modPod_units (s : State) (p : Nat) (f : Pod → Pod) : (s.modPod p f).units = s.units := rfl
@[simp] theorem State.modPod_gaz (s : State) (p : Nat) (f : Pod → Pod) : (s.modPod p f).gaz = s.gaz := rfl
@[simp] theorem State.modPod_emb (s : State) (p : Nat) (f : Pod → Pod) : (s.modPod p f).emb = s.emb := rfl
@[simp] theorem State.modPod_fab (s : State) (p : Nat) (f : Pod → Pod) : (s.modPod p f).fab = s.fab := rfl
@[simp] theorem State.modPod_frames (s : State) (p : Nat) (f : Pod → Pod) : (s.modPod p f).frames = s.frames := rfl
@[simp] theorem State.modPod_dbg (s : State) (p : Nat) (f : Pod → Pod) : (s.modPod p f).dbg = s.dbg := rfl
@[simp] theorem State.modPod_pins (s : State) (p : Nat) (f : Pod → Pod) : (s.modPod p f).pins = s.pins := rfl
@[simp] theorem State.modPod_free (s : State) (p : Nat) (f : Pod → Pod) : (s.modPod p f).free = s.free := rfl
@[simp] theorem State.modPod_sent (s : State) (p : Nat) (f : Pod → Pod) : (s.modPod p f).sent = s.sent := rfl

@[simp] theorem State.modChannel_pending (s : State) (c : Nat) (f : Channel → Channel) : (s.modChannel c f).pending = s.pending := rfl
@[simp] theorem State.modChannel_ctl (s : State) (c : Nat) (f : Channel → Channel) : (s.modChannel c f).ctl = s.ctl := rfl
@[simp] theorem State.modChannel_clk (s : State) (c : Nat) (f : Channel → Channel) : (s.modChannel c f).clk = s.clk := rfl
@[simp] theorem State.modChannel_fw (s : State) (c : Nat) (f : Channel → Channel) : (s.modChannel c f).fw = s.fw := rfl
@[simp] theorem State.modChannel_host (s : State) (c : Nat) (f : Channel → Channel) : (s.modChannel c f).host = s.host := rfl
@[simp] theorem State.modChannel_roce (s : State) (c : Nat) (f : Channel → Channel) : (s.modChannel c f).roce = s.roce := rfl
@[simp] theorem State.modChannel_rcp (s : State) (c : Nat) (f : Channel → Channel) : (s.modChannel c f).rcp = s.rcp := rfl
@[simp] theorem State.modChannel_svc (s : State) (c : Nat) (f : Channel → Channel) : (s.modChannel c f).svc = s.svc := rfl
@[simp] theorem State.modChannel_pods (s : State) (c : Nat) (f : Channel → Channel) : (s.modChannel c f).pods = s.pods := rfl
@[simp] theorem State.modChannel_disp (s : State) (c : Nat) (f : Channel → Channel) : (s.modChannel c f).disp = s.disp := rfl
@[simp] theorem State.modChannel_units (s : State) (c : Nat) (f : Channel → Channel) : (s.modChannel c f).units = s.units := rfl
@[simp] theorem State.modChannel_gaz (s : State) (c : Nat) (f : Channel → Channel) : (s.modChannel c f).gaz = s.gaz := rfl
@[simp] theorem State.modChannel_emb (s : State) (c : Nat) (f : Channel → Channel) : (s.modChannel c f).emb = s.emb := rfl
@[simp] theorem State.modChannel_fab (s : State) (c : Nat) (f : Channel → Channel) : (s.modChannel c f).fab = s.fab := rfl
@[simp] theorem State.modChannel_frames (s : State) (c : Nat) (f : Channel → Channel) : (s.modChannel c f).frames = s.frames := rfl
@[simp] theorem State.modChannel_dbg (s : State) (c : Nat) (f : Channel → Channel) : (s.modChannel c f).dbg = s.dbg := rfl
@[simp] theorem State.modChannel_pins (s : State) (c : Nat) (f : Channel → Channel) : (s.modChannel c f).pins = s.pins := rfl
@[simp] theorem State.modChannel_free (s : State) (c : Nat) (f : Channel → Channel) : (s.modChannel c f).free = s.free := rfl
@[simp] theorem State.modChannel_sent (s : State) (c : Nat) (f : Channel → Channel) : (s.modChannel c f).sent = s.sent := rfl

@[simp] theorem State.modCtx_pending (s : State) (c : Nat) (f : Ctx → Ctx) : (s.modCtx c f).pending = s.pending := by unfold State.modCtx; split <;> rfl
@[simp] theorem State.modCtx_ctl (s : State) (c : Nat) (f : Ctx → Ctx) : (s.modCtx c f).ctl = s.ctl := by unfold State.modCtx; split <;> rfl
@[simp] theorem State.modCtx_clk (s : State) (c : Nat) (f : Ctx → Ctx) : (s.modCtx c f).clk = s.clk := by unfold State.modCtx; split <;> rfl
@[simp] theorem State.modCtx_fw (s : State) (c : Nat) (f : Ctx → Ctx) : (s.modCtx c f).fw = s.fw := by unfold State.modCtx; split <;> rfl
@[simp] theorem State.modCtx_host (s : State) (c : Nat) (f : Ctx → Ctx) : (s.modCtx c f).host = s.host := by unfold State.modCtx; split <;> rfl
@[simp] theorem State.modCtx_roce (s : State) (c : Nat) (f : Ctx → Ctx) : (s.modCtx c f).roce = s.roce := by unfold State.modCtx; split <;> rfl
@[simp] theorem State.modCtx_rcp (s : State) (c : Nat) (f : Ctx → Ctx) : (s.modCtx c f).rcp = s.rcp := by unfold State.modCtx; split <;> rfl
@[simp] theorem State.modCtx_svc (s : State) (c : Nat) (f : Ctx → Ctx) : (s.modCtx c f).svc = s.svc := by unfold State.modCtx; split <;> rfl
@[simp] theorem State.modCtx_pods (s : State) (c : Nat) (f : Ctx → Ctx) : (s.modCtx c f).pods = s.pods := by unfold State.modCtx; split <;> rfl
@[simp] theorem State.modCtx_disp (s : State) (c : Nat) (f : Ctx → Ctx) : (s.modCtx c f).disp = s.disp := by unfold State.modCtx; split <;> rfl
@[simp] theorem State.modCtx_units (s : State) (c : Nat) (f : Ctx → Ctx) : (s.modCtx c f).units = s.units := by unfold State.modCtx; split <;> rfl
@[simp] theorem State.modCtx_gaz (s : State) (c : Nat) (f : Ctx → Ctx) : (s.modCtx c f).gaz = s.gaz := by unfold State.modCtx; split <;> rfl
@[simp] theorem State.modCtx_emb (s : State) (c : Nat) (f : Ctx → Ctx) : (s.modCtx c f).emb = s.emb := by unfold State.modCtx; split <;> rfl
@[simp] theorem State.modCtx_fab (s : State) (c : Nat) (f : Ctx → Ctx) : (s.modCtx c f).fab = s.fab := by unfold State.modCtx; split <;> rfl
@[simp] theorem State.modCtx_frames (s : State) (c : Nat) (f : Ctx → Ctx) : (s.modCtx c f).frames = s.frames := by unfold State.modCtx; split <;> rfl
@[simp] theorem State.modCtx_dbg (s : State) (c : Nat) (f : Ctx → Ctx) : (s.modCtx c f).dbg = s.dbg := by unfold State.modCtx; split <;> rfl
@[simp] theorem State.modCtx_pins (s : State) (c : Nat) (f : Ctx → Ctx) : (s.modCtx c f).pins = s.pins := by unfold State.modCtx; split <;> rfl
@[simp] theorem State.modCtx_free (s : State) (c : Nat) (f : Ctx → Ctx) : (s.modCtx c f).free = s.free := by unfold State.modCtx; split <;> rfl
@[simp] theorem State.modCtx_sent (s : State) (c : Nat) (f : Ctx → Ctx) : (s.modCtx c f).sent = s.sent := by unfold State.modCtx; split <;> rfl

@[simp] theorem State.countFault_pending (s : State) (c : Nat) (f : CtxFaults → CtxFaults) : (s.countFault c f).pending = s.pending := by simp [State.countFault]
@[simp] theorem State.countFault_ctl (s : State) (c : Nat) (f : CtxFaults → CtxFaults) : (s.countFault c f).ctl = s.ctl := by simp [State.countFault]
@[simp] theorem State.countFault_clk (s : State) (c : Nat) (f : CtxFaults → CtxFaults) : (s.countFault c f).clk = s.clk := by simp [State.countFault]
@[simp] theorem State.countFault_fw (s : State) (c : Nat) (f : CtxFaults → CtxFaults) : (s.countFault c f).fw = s.fw := by simp [State.countFault]
@[simp] theorem State.countFault_host (s : State) (c : Nat) (f : CtxFaults → CtxFaults) : (s.countFault c f).host = s.host := by simp [State.countFault]
@[simp] theorem State.countFault_roce (s : State) (c : Nat) (f : CtxFaults → CtxFaults) : (s.countFault c f).roce = s.roce := by simp [State.countFault]
@[simp] theorem State.countFault_rcp (s : State) (c : Nat) (f : CtxFaults → CtxFaults) : (s.countFault c f).rcp = s.rcp := by simp [State.countFault]
@[simp] theorem State.countFault_svc (s : State) (c : Nat) (f : CtxFaults → CtxFaults) : (s.countFault c f).svc = s.svc := by simp [State.countFault]
@[simp] theorem State.countFault_pods (s : State) (c : Nat) (f : CtxFaults → CtxFaults) : (s.countFault c f).pods = s.pods := by simp [State.countFault]
@[simp] theorem State.countFault_disp (s : State) (c : Nat) (f : CtxFaults → CtxFaults) : (s.countFault c f).disp = s.disp := by simp [State.countFault]
@[simp] theorem State.countFault_units (s : State) (c : Nat) (f : CtxFaults → CtxFaults) : (s.countFault c f).units = s.units := by simp [State.countFault]
@[simp] theorem State.countFault_gaz (s : State) (c : Nat) (f : CtxFaults → CtxFaults) : (s.countFault c f).gaz = s.gaz := by simp [State.countFault]
@[simp] theorem State.countFault_emb (s : State) (c : Nat) (f : CtxFaults → CtxFaults) : (s.countFault c f).emb = s.emb := by simp [State.countFault]
@[simp] theorem State.countFault_fab (s : State) (c : Nat) (f : CtxFaults → CtxFaults) : (s.countFault c f).fab = s.fab := by simp [State.countFault]
@[simp] theorem State.countFault_frames (s : State) (c : Nat) (f : CtxFaults → CtxFaults) : (s.countFault c f).frames = s.frames := by simp [State.countFault]
@[simp] theorem State.countFault_dbg (s : State) (c : Nat) (f : CtxFaults → CtxFaults) : (s.countFault c f).dbg = s.dbg := by simp [State.countFault]
@[simp] theorem State.countFault_pins (s : State) (c : Nat) (f : CtxFaults → CtxFaults) : (s.countFault c f).pins = s.pins := by simp [State.countFault]
@[simp] theorem State.countFault_free (s : State) (c : Nat) (f : CtxFaults → CtxFaults) : (s.countFault c f).free = s.free := by simp [State.countFault]
@[simp] theorem State.countFault_sent (s : State) (c : Nat) (f : CtxFaults → CtxFaults) : (s.countFault c f).sent = s.sent := by simp [State.countFault]

@[simp] theorem State.countRefused_pending (s : State) (c st : Nat) : (s.countRefused c st).pending = s.pending := by simp [State.countRefused]
@[simp] theorem State.countRefused_ctl (s : State) (c st : Nat) : (s.countRefused c st).ctl = s.ctl := by simp [State.countRefused]
@[simp] theorem State.countRefused_clk (s : State) (c st : Nat) : (s.countRefused c st).clk = s.clk := by simp [State.countRefused]
@[simp] theorem State.countRefused_fw (s : State) (c st : Nat) : (s.countRefused c st).fw = s.fw := by simp [State.countRefused]
@[simp] theorem State.countRefused_host (s : State) (c st : Nat) : (s.countRefused c st).host = s.host := by simp [State.countRefused]
@[simp] theorem State.countRefused_roce (s : State) (c st : Nat) : (s.countRefused c st).roce = s.roce := by simp [State.countRefused]
@[simp] theorem State.countRefused_rcp (s : State) (c st : Nat) : (s.countRefused c st).rcp = s.rcp := by simp [State.countRefused]
@[simp] theorem State.countRefused_svc (s : State) (c st : Nat) : (s.countRefused c st).svc = s.svc := by simp [State.countRefused]
@[simp] theorem State.countRefused_pods (s : State) (c st : Nat) : (s.countRefused c st).pods = s.pods := by simp [State.countRefused]
@[simp] theorem State.countRefused_disp (s : State) (c st : Nat) : (s.countRefused c st).disp = s.disp := by simp [State.countRefused]
@[simp] theorem State.countRefused_units (s : State) (c st : Nat) : (s.countRefused c st).units = s.units := by simp [State.countRefused]
@[simp] theorem State.countRefused_gaz (s : State) (c st : Nat) : (s.countRefused c st).gaz = s.gaz := by simp [State.countRefused]
@[simp] theorem State.countRefused_emb (s : State) (c st : Nat) : (s.countRefused c st).emb = s.emb := by simp [State.countRefused]
@[simp] theorem State.countRefused_fab (s : State) (c st : Nat) : (s.countRefused c st).fab = s.fab := by simp [State.countRefused]
@[simp] theorem State.countRefused_frames (s : State) (c st : Nat) : (s.countRefused c st).frames = s.frames := by simp [State.countRefused]
@[simp] theorem State.countRefused_dbg (s : State) (c st : Nat) : (s.countRefused c st).dbg = s.dbg := by simp [State.countRefused]
@[simp] theorem State.countRefused_pins (s : State) (c st : Nat) : (s.countRefused c st).pins = s.pins := by simp [State.countRefused]
@[simp] theorem State.countRefused_free (s : State) (c st : Nat) : (s.countRefused c st).free = s.free := by simp [State.countRefused]
@[simp] theorem State.countRefused_sent (s : State) (c st : Nat) : (s.countRefused c st).sent = s.sent := by simp [State.countRefused]

@[simp] theorem State.draw_pending (s : State) : s.draw.2.pending = s.pending := rfl
@[simp] theorem State.draw_ctl (s : State) : s.draw.2.ctl = s.ctl := rfl
@[simp] theorem State.draw_clk (s : State) : s.draw.2.clk = s.clk := rfl
@[simp] theorem State.draw_fw (s : State) : s.draw.2.fw = s.fw := rfl
@[simp] theorem State.draw_host (s : State) : s.draw.2.host = s.host := rfl
@[simp] theorem State.draw_roce (s : State) : s.draw.2.roce = s.roce := rfl
@[simp] theorem State.draw_rcp (s : State) : s.draw.2.rcp = s.rcp := rfl
@[simp] theorem State.draw_svc (s : State) : s.draw.2.svc = s.svc := rfl
@[simp] theorem State.draw_mem (s : State) : s.draw.2.mem = s.mem := rfl
@[simp] theorem State.draw_pods (s : State) : s.draw.2.pods = s.pods := rfl
@[simp] theorem State.draw_disp (s : State) : s.draw.2.disp = s.disp := rfl
@[simp] theorem State.draw_units (s : State) : s.draw.2.units = s.units := rfl
@[simp] theorem State.draw_gaz (s : State) : s.draw.2.gaz = s.gaz := rfl
@[simp] theorem State.draw_emb (s : State) : s.draw.2.emb = s.emb := rfl
@[simp] theorem State.draw_fab (s : State) : s.draw.2.fab = s.fab := rfl
@[simp] theorem State.draw_frames (s : State) : s.draw.2.frames = s.frames := rfl
@[simp] theorem State.draw_dbg (s : State) : s.draw.2.dbg = s.dbg := rfl
@[simp] theorem State.draw_pins (s : State) : s.draw.2.pins = s.pins := rfl
@[simp] theorem State.draw_sent (s : State) : s.draw.2.sent = s.sent := rfl

@[simp] theorem State.drawBytes_pending (s : State) (n : Nat) : (s.drawBytes n).2.pending = s.pending := rfl
@[simp] theorem State.drawBytes_ctl (s : State) (n : Nat) : (s.drawBytes n).2.ctl = s.ctl := rfl
@[simp] theorem State.drawBytes_clk (s : State) (n : Nat) : (s.drawBytes n).2.clk = s.clk := rfl
@[simp] theorem State.drawBytes_fw (s : State) (n : Nat) : (s.drawBytes n).2.fw = s.fw := rfl
@[simp] theorem State.drawBytes_host (s : State) (n : Nat) : (s.drawBytes n).2.host = s.host := rfl
@[simp] theorem State.drawBytes_roce (s : State) (n : Nat) : (s.drawBytes n).2.roce = s.roce := rfl
@[simp] theorem State.drawBytes_rcp (s : State) (n : Nat) : (s.drawBytes n).2.rcp = s.rcp := rfl
@[simp] theorem State.drawBytes_svc (s : State) (n : Nat) : (s.drawBytes n).2.svc = s.svc := rfl
@[simp] theorem State.drawBytes_mem (s : State) (n : Nat) : (s.drawBytes n).2.mem = s.mem := rfl
@[simp] theorem State.drawBytes_pods (s : State) (n : Nat) : (s.drawBytes n).2.pods = s.pods := rfl
@[simp] theorem State.drawBytes_disp (s : State) (n : Nat) : (s.drawBytes n).2.disp = s.disp := rfl
@[simp] theorem State.drawBytes_units (s : State) (n : Nat) : (s.drawBytes n).2.units = s.units := rfl
@[simp] theorem State.drawBytes_gaz (s : State) (n : Nat) : (s.drawBytes n).2.gaz = s.gaz := rfl
@[simp] theorem State.drawBytes_emb (s : State) (n : Nat) : (s.drawBytes n).2.emb = s.emb := rfl
@[simp] theorem State.drawBytes_fab (s : State) (n : Nat) : (s.drawBytes n).2.fab = s.fab := rfl
@[simp] theorem State.drawBytes_frames (s : State) (n : Nat) : (s.drawBytes n).2.frames = s.frames := rfl
@[simp] theorem State.drawBytes_dbg (s : State) (n : Nat) : (s.drawBytes n).2.dbg = s.dbg := rfl
@[simp] theorem State.drawBytes_pins (s : State) (n : Nat) : (s.drawBytes n).2.pins = s.pins := rfl
@[simp] theorem State.drawBytes_sent (s : State) (n : Nat) : (s.drawBytes n).2.sent = s.sent := rfl

@[simp] theorem State.fresh_pending (s : State) (k : Nat → Bool) (m n : Nat) : (s.fresh k m n).2.pending = s.pending := rfl
@[simp] theorem State.fresh_ctl (s : State) (k : Nat → Bool) (m n : Nat) : (s.fresh k m n).2.ctl = s.ctl := rfl
@[simp] theorem State.fresh_clk (s : State) (k : Nat → Bool) (m n : Nat) : (s.fresh k m n).2.clk = s.clk := rfl
@[simp] theorem State.fresh_fw (s : State) (k : Nat → Bool) (m n : Nat) : (s.fresh k m n).2.fw = s.fw := rfl
@[simp] theorem State.fresh_host (s : State) (k : Nat → Bool) (m n : Nat) : (s.fresh k m n).2.host = s.host := rfl
@[simp] theorem State.fresh_roce (s : State) (k : Nat → Bool) (m n : Nat) : (s.fresh k m n).2.roce = s.roce := rfl
@[simp] theorem State.fresh_rcp (s : State) (k : Nat → Bool) (m n : Nat) : (s.fresh k m n).2.rcp = s.rcp := rfl
@[simp] theorem State.fresh_svc (s : State) (k : Nat → Bool) (m n : Nat) : (s.fresh k m n).2.svc = s.svc := rfl
@[simp] theorem State.fresh_mem (s : State) (k : Nat → Bool) (m n : Nat) : (s.fresh k m n).2.mem = s.mem := rfl
@[simp] theorem State.fresh_pods (s : State) (k : Nat → Bool) (m n : Nat) : (s.fresh k m n).2.pods = s.pods := rfl
@[simp] theorem State.fresh_disp (s : State) (k : Nat → Bool) (m n : Nat) : (s.fresh k m n).2.disp = s.disp := rfl
@[simp] theorem State.fresh_units (s : State) (k : Nat → Bool) (m n : Nat) : (s.fresh k m n).2.units = s.units := rfl
@[simp] theorem State.fresh_gaz (s : State) (k : Nat → Bool) (m n : Nat) : (s.fresh k m n).2.gaz = s.gaz := rfl
@[simp] theorem State.fresh_emb (s : State) (k : Nat → Bool) (m n : Nat) : (s.fresh k m n).2.emb = s.emb := rfl
@[simp] theorem State.fresh_fab (s : State) (k : Nat → Bool) (m n : Nat) : (s.fresh k m n).2.fab = s.fab := rfl
@[simp] theorem State.fresh_frames (s : State) (k : Nat → Bool) (m n : Nat) : (s.fresh k m n).2.frames = s.frames := rfl
@[simp] theorem State.fresh_dbg (s : State) (k : Nat → Bool) (m n : Nat) : (s.fresh k m n).2.dbg = s.dbg := rfl
@[simp] theorem State.fresh_pins (s : State) (k : Nat → Bool) (m n : Nat) : (s.fresh k m n).2.pins = s.pins := rfl
@[simp] theorem State.fresh_sent (s : State) (k : Nat → Bool) (m n : Nat) : (s.fresh k m n).2.sent = s.sent := rfl

@[simp] theorem State.send_pending (s : State) (x : Sent) : (s.send x).pending = s.pending := rfl
@[simp] theorem State.send_ctl (s : State) (x : Sent) : (s.send x).ctl = s.ctl := rfl
@[simp] theorem State.send_clk (s : State) (x : Sent) : (s.send x).clk = s.clk := rfl
@[simp] theorem State.send_fw (s : State) (x : Sent) : (s.send x).fw = s.fw := rfl
@[simp] theorem State.send_host (s : State) (x : Sent) : (s.send x).host = s.host := rfl
@[simp] theorem State.send_roce (s : State) (x : Sent) : (s.send x).roce = s.roce := rfl
@[simp] theorem State.send_rcp (s : State) (x : Sent) : (s.send x).rcp = s.rcp := rfl
@[simp] theorem State.send_svc (s : State) (x : Sent) : (s.send x).svc = s.svc := rfl
@[simp] theorem State.send_mem (s : State) (x : Sent) : (s.send x).mem = s.mem := rfl
@[simp] theorem State.send_pods (s : State) (x : Sent) : (s.send x).pods = s.pods := rfl
@[simp] theorem State.send_disp (s : State) (x : Sent) : (s.send x).disp = s.disp := rfl
@[simp] theorem State.send_units (s : State) (x : Sent) : (s.send x).units = s.units := rfl
@[simp] theorem State.send_gaz (s : State) (x : Sent) : (s.send x).gaz = s.gaz := rfl
@[simp] theorem State.send_emb (s : State) (x : Sent) : (s.send x).emb = s.emb := rfl
@[simp] theorem State.send_fab (s : State) (x : Sent) : (s.send x).fab = s.fab := rfl
@[simp] theorem State.send_frames (s : State) (x : Sent) : (s.send x).frames = s.frames := rfl
@[simp] theorem State.send_dbg (s : State) (x : Sent) : (s.send x).dbg = s.dbg := rfl
@[simp] theorem State.send_pins (s : State) (x : Sent) : (s.send x).pins = s.pins := rfl
@[simp] theorem State.send_free (s : State) (x : Sent) : (s.send x).free = s.free := rfl

@[simp] theorem State.countTx_pending (s : State) (n : Nat) : (s.countTx n).pending = s.pending := rfl
@[simp] theorem State.countTx_ctl (s : State) (n : Nat) : (s.countTx n).ctl = s.ctl := rfl
@[simp] theorem State.countTx_clk (s : State) (n : Nat) : (s.countTx n).clk = s.clk := rfl
@[simp] theorem State.countTx_fw (s : State) (n : Nat) : (s.countTx n).fw = s.fw := rfl
@[simp] theorem State.countTx_roce (s : State) (n : Nat) : (s.countTx n).roce = s.roce := rfl
@[simp] theorem State.countTx_rcp (s : State) (n : Nat) : (s.countTx n).rcp = s.rcp := rfl
@[simp] theorem State.countTx_svc (s : State) (n : Nat) : (s.countTx n).svc = s.svc := rfl
@[simp] theorem State.countTx_mem (s : State) (n : Nat) : (s.countTx n).mem = s.mem := rfl
@[simp] theorem State.countTx_pods (s : State) (n : Nat) : (s.countTx n).pods = s.pods := rfl
@[simp] theorem State.countTx_disp (s : State) (n : Nat) : (s.countTx n).disp = s.disp := rfl
@[simp] theorem State.countTx_units (s : State) (n : Nat) : (s.countTx n).units = s.units := rfl
@[simp] theorem State.countTx_gaz (s : State) (n : Nat) : (s.countTx n).gaz = s.gaz := rfl
@[simp] theorem State.countTx_emb (s : State) (n : Nat) : (s.countTx n).emb = s.emb := rfl
@[simp] theorem State.countTx_fab (s : State) (n : Nat) : (s.countTx n).fab = s.fab := rfl
@[simp] theorem State.countTx_frames (s : State) (n : Nat) : (s.countTx n).frames = s.frames := rfl
@[simp] theorem State.countTx_dbg (s : State) (n : Nat) : (s.countTx n).dbg = s.dbg := rfl
@[simp] theorem State.countTx_pins (s : State) (n : Nat) : (s.countTx n).pins = s.pins := rfl
@[simp] theorem State.countTx_free (s : State) (n : Nat) : (s.countTx n).free = s.free := rfl
@[simp] theorem State.countTx_sent (s : State) (n : Nat) : (s.countTx n).sent = s.sent := rfl

@[simp] theorem State.hostSend_pending (s : State) (p n : Nat) (x : Sent) : (s.hostSend p n x).pending = s.pending := by unfold State.hostSend; split <;> rfl
@[simp] theorem State.hostSend_ctl (s : State) (p n : Nat) (x : Sent) : (s.hostSend p n x).ctl = s.ctl := by unfold State.hostSend; split <;> rfl
@[simp] theorem State.hostSend_clk (s : State) (p n : Nat) (x : Sent) : (s.hostSend p n x).clk = s.clk := by unfold State.hostSend; split <;> rfl
@[simp] theorem State.hostSend_fw (s : State) (p n : Nat) (x : Sent) : (s.hostSend p n x).fw = s.fw := by unfold State.hostSend; split <;> rfl
@[simp] theorem State.hostSend_roce (s : State) (p n : Nat) (x : Sent) : (s.hostSend p n x).roce = s.roce := by unfold State.hostSend; split <;> rfl
@[simp] theorem State.hostSend_rcp (s : State) (p n : Nat) (x : Sent) : (s.hostSend p n x).rcp = s.rcp := by unfold State.hostSend; split <;> rfl
@[simp] theorem State.hostSend_svc (s : State) (p n : Nat) (x : Sent) : (s.hostSend p n x).svc = s.svc := by unfold State.hostSend; split <;> rfl
@[simp] theorem State.hostSend_mem (s : State) (p n : Nat) (x : Sent) : (s.hostSend p n x).mem = s.mem := by unfold State.hostSend; split <;> rfl
@[simp] theorem State.hostSend_pods (s : State) (p n : Nat) (x : Sent) : (s.hostSend p n x).pods = s.pods := by unfold State.hostSend; split <;> rfl
@[simp] theorem State.hostSend_disp (s : State) (p n : Nat) (x : Sent) : (s.hostSend p n x).disp = s.disp := by unfold State.hostSend; split <;> rfl
@[simp] theorem State.hostSend_units (s : State) (p n : Nat) (x : Sent) : (s.hostSend p n x).units = s.units := by unfold State.hostSend; split <;> rfl
@[simp] theorem State.hostSend_gaz (s : State) (p n : Nat) (x : Sent) : (s.hostSend p n x).gaz = s.gaz := by unfold State.hostSend; split <;> rfl
@[simp] theorem State.hostSend_emb (s : State) (p n : Nat) (x : Sent) : (s.hostSend p n x).emb = s.emb := by unfold State.hostSend; split <;> rfl
@[simp] theorem State.hostSend_fab (s : State) (p n : Nat) (x : Sent) : (s.hostSend p n x).fab = s.fab := by unfold State.hostSend; split <;> rfl
@[simp] theorem State.hostSend_frames (s : State) (p n : Nat) (x : Sent) : (s.hostSend p n x).frames = s.frames := by unfold State.hostSend; split <;> rfl
@[simp] theorem State.hostSend_dbg (s : State) (p n : Nat) (x : Sent) : (s.hostSend p n x).dbg = s.dbg := by unfold State.hostSend; split <;> rfl
@[simp] theorem State.hostSend_pins (s : State) (p n : Nat) (x : Sent) : (s.hostSend p n x).pins = s.pins := by unfold State.hostSend; split <;> rfl
@[simp] theorem State.hostSend_free (s : State) (p n : Nat) (x : Sent) : (s.hostSend p n x).free = s.free := by unfold State.hostSend; split <;> rfl

@[simp] theorem State.sendRcp_pending (s : State) (p : Path) (ip port : Nat) (o : RcpOut) : (s.sendRcp p ip port o).pending = s.pending := by unfold State.sendRcp; split <;> cases p <;> simp
@[simp] theorem State.sendRcp_ctl (s : State) (p : Path) (ip port : Nat) (o : RcpOut) : (s.sendRcp p ip port o).ctl = s.ctl := by unfold State.sendRcp; split <;> cases p <;> simp
@[simp] theorem State.sendRcp_clk (s : State) (p : Path) (ip port : Nat) (o : RcpOut) : (s.sendRcp p ip port o).clk = s.clk := by unfold State.sendRcp; split <;> cases p <;> simp
@[simp] theorem State.sendRcp_fw (s : State) (p : Path) (ip port : Nat) (o : RcpOut) : (s.sendRcp p ip port o).fw = s.fw := by unfold State.sendRcp; split <;> cases p <;> simp
@[simp] theorem State.sendRcp_roce (s : State) (p : Path) (ip port : Nat) (o : RcpOut) : (s.sendRcp p ip port o).roce = s.roce := by unfold State.sendRcp; split <;> cases p <;> simp
@[simp] theorem State.sendRcp_rcp (s : State) (p : Path) (ip port : Nat) (o : RcpOut) : (s.sendRcp p ip port o).rcp = s.rcp := by unfold State.sendRcp; split <;> cases p <;> simp
@[simp] theorem State.sendRcp_svc (s : State) (p : Path) (ip port : Nat) (o : RcpOut) : (s.sendRcp p ip port o).svc = s.svc := by unfold State.sendRcp; split <;> cases p <;> simp
@[simp] theorem State.sendRcp_mem (s : State) (p : Path) (ip port : Nat) (o : RcpOut) : (s.sendRcp p ip port o).mem = s.mem := by unfold State.sendRcp; split <;> cases p <;> simp
@[simp] theorem State.sendRcp_pods (s : State) (p : Path) (ip port : Nat) (o : RcpOut) : (s.sendRcp p ip port o).pods = s.pods := by unfold State.sendRcp; split <;> cases p <;> simp
@[simp] theorem State.sendRcp_disp (s : State) (p : Path) (ip port : Nat) (o : RcpOut) : (s.sendRcp p ip port o).disp = s.disp := by unfold State.sendRcp; split <;> cases p <;> simp
@[simp] theorem State.sendRcp_units (s : State) (p : Path) (ip port : Nat) (o : RcpOut) : (s.sendRcp p ip port o).units = s.units := by unfold State.sendRcp; split <;> cases p <;> simp
@[simp] theorem State.sendRcp_gaz (s : State) (p : Path) (ip port : Nat) (o : RcpOut) : (s.sendRcp p ip port o).gaz = s.gaz := by unfold State.sendRcp; split <;> cases p <;> simp
@[simp] theorem State.sendRcp_emb (s : State) (p : Path) (ip port : Nat) (o : RcpOut) : (s.sendRcp p ip port o).emb = s.emb := by unfold State.sendRcp; split <;> cases p <;> simp
@[simp] theorem State.sendRcp_fab (s : State) (p : Path) (ip port : Nat) (o : RcpOut) : (s.sendRcp p ip port o).fab = s.fab := by unfold State.sendRcp; split <;> cases p <;> simp
@[simp] theorem State.sendRcp_frames (s : State) (p : Path) (ip port : Nat) (o : RcpOut) : (s.sendRcp p ip port o).frames = s.frames := by unfold State.sendRcp; split <;> cases p <;> simp
@[simp] theorem State.sendRcp_dbg (s : State) (p : Path) (ip port : Nat) (o : RcpOut) : (s.sendRcp p ip port o).dbg = s.dbg := by unfold State.sendRcp; split <;> cases p <;> simp
@[simp] theorem State.sendRcp_pins (s : State) (p : Path) (ip port : Nat) (o : RcpOut) : (s.sendRcp p ip port o).pins = s.pins := by unfold State.sendRcp; split <;> cases p <;> simp
@[simp] theorem State.sendRcp_free (s : State) (p : Path) (ip port : Nat) (o : RcpOut) : (s.sendRcp p ip port o).free = s.free := by unfold State.sendRcp; split <;> cases p <;> simp

@[simp] theorem State.modSession_pending (s : State) (i : Nat) (f : Session → Session) : (s.modSession i f).pending = s.pending := by unfold State.modSession; split <;> rfl
@[simp] theorem State.modSession_ctl (s : State) (i : Nat) (f : Session → Session) : (s.modSession i f).ctl = s.ctl := by unfold State.modSession; split <;> rfl
@[simp] theorem State.modSession_clk (s : State) (i : Nat) (f : Session → Session) : (s.modSession i f).clk = s.clk := by unfold State.modSession; split <;> rfl
@[simp] theorem State.modSession_fw (s : State) (i : Nat) (f : Session → Session) : (s.modSession i f).fw = s.fw := by unfold State.modSession; split <;> rfl
@[simp] theorem State.modSession_host (s : State) (i : Nat) (f : Session → Session) : (s.modSession i f).host = s.host := by unfold State.modSession; split <;> rfl
@[simp] theorem State.modSession_roce (s : State) (i : Nat) (f : Session → Session) : (s.modSession i f).roce = s.roce := by unfold State.modSession; split <;> rfl
@[simp] theorem State.modSession_svc (s : State) (i : Nat) (f : Session → Session) : (s.modSession i f).svc = s.svc := by unfold State.modSession; split <;> rfl
@[simp] theorem State.modSession_mem (s : State) (i : Nat) (f : Session → Session) : (s.modSession i f).mem = s.mem := by unfold State.modSession; split <;> rfl
@[simp] theorem State.modSession_pods (s : State) (i : Nat) (f : Session → Session) : (s.modSession i f).pods = s.pods := by unfold State.modSession; split <;> rfl
@[simp] theorem State.modSession_disp (s : State) (i : Nat) (f : Session → Session) : (s.modSession i f).disp = s.disp := by unfold State.modSession; split <;> rfl
@[simp] theorem State.modSession_units (s : State) (i : Nat) (f : Session → Session) : (s.modSession i f).units = s.units := by unfold State.modSession; split <;> rfl
@[simp] theorem State.modSession_gaz (s : State) (i : Nat) (f : Session → Session) : (s.modSession i f).gaz = s.gaz := by unfold State.modSession; split <;> rfl
@[simp] theorem State.modSession_emb (s : State) (i : Nat) (f : Session → Session) : (s.modSession i f).emb = s.emb := by unfold State.modSession; split <;> rfl
@[simp] theorem State.modSession_fab (s : State) (i : Nat) (f : Session → Session) : (s.modSession i f).fab = s.fab := by unfold State.modSession; split <;> rfl
@[simp] theorem State.modSession_frames (s : State) (i : Nat) (f : Session → Session) : (s.modSession i f).frames = s.frames := by unfold State.modSession; split <;> rfl
@[simp] theorem State.modSession_dbg (s : State) (i : Nat) (f : Session → Session) : (s.modSession i f).dbg = s.dbg := by unfold State.modSession; split <;> rfl
@[simp] theorem State.modSession_pins (s : State) (i : Nat) (f : Session → Session) : (s.modSession i f).pins = s.pins := by unfold State.modSession; split <;> rfl
@[simp] theorem State.modSession_free (s : State) (i : Nat) (f : Session → Session) : (s.modSession i f).free = s.free := by unfold State.modSession; split <;> rfl
@[simp] theorem State.modSession_sent (s : State) (i : Nat) (f : Session → Session) : (s.modSession i f).sent = s.sent := by unfold State.modSession; split <;> rfl

@[simp] theorem State.complete_pending (s : State) (i r op : Nat) (p : Path) (ip port st : Nat) (b : List Byte) : (s.complete i r op p ip port st b).pending = s.pending := by unfold State.complete; repeat' split <;> simp
@[simp] theorem State.complete_ctl (s : State) (i r op : Nat) (p : Path) (ip port st : Nat) (b : List Byte) : (s.complete i r op p ip port st b).ctl = s.ctl := by unfold State.complete; repeat' split <;> simp
@[simp] theorem State.complete_clk (s : State) (i r op : Nat) (p : Path) (ip port st : Nat) (b : List Byte) : (s.complete i r op p ip port st b).clk = s.clk := by unfold State.complete; repeat' split <;> simp
@[simp] theorem State.complete_fw (s : State) (i r op : Nat) (p : Path) (ip port st : Nat) (b : List Byte) : (s.complete i r op p ip port st b).fw = s.fw := by unfold State.complete; repeat' split <;> simp
@[simp] theorem State.complete_roce (s : State) (i r op : Nat) (p : Path) (ip port st : Nat) (b : List Byte) : (s.complete i r op p ip port st b).roce = s.roce := by unfold State.complete; repeat' split <;> simp
@[simp] theorem State.complete_svc (s : State) (i r op : Nat) (p : Path) (ip port st : Nat) (b : List Byte) : (s.complete i r op p ip port st b).svc = s.svc := by unfold State.complete; repeat' split <;> simp
@[simp] theorem State.complete_mem (s : State) (i r op : Nat) (p : Path) (ip port st : Nat) (b : List Byte) : (s.complete i r op p ip port st b).mem = s.mem := by unfold State.complete; repeat' split <;> simp
@[simp] theorem State.complete_pods (s : State) (i r op : Nat) (p : Path) (ip port st : Nat) (b : List Byte) : (s.complete i r op p ip port st b).pods = s.pods := by unfold State.complete; repeat' split <;> simp
@[simp] theorem State.complete_disp (s : State) (i r op : Nat) (p : Path) (ip port st : Nat) (b : List Byte) : (s.complete i r op p ip port st b).disp = s.disp := by unfold State.complete; repeat' split <;> simp
@[simp] theorem State.complete_units (s : State) (i r op : Nat) (p : Path) (ip port st : Nat) (b : List Byte) : (s.complete i r op p ip port st b).units = s.units := by unfold State.complete; repeat' split <;> simp
@[simp] theorem State.complete_gaz (s : State) (i r op : Nat) (p : Path) (ip port st : Nat) (b : List Byte) : (s.complete i r op p ip port st b).gaz = s.gaz := by unfold State.complete; repeat' split <;> simp
@[simp] theorem State.complete_emb (s : State) (i r op : Nat) (p : Path) (ip port st : Nat) (b : List Byte) : (s.complete i r op p ip port st b).emb = s.emb := by unfold State.complete; repeat' split <;> simp
@[simp] theorem State.complete_fab (s : State) (i r op : Nat) (p : Path) (ip port st : Nat) (b : List Byte) : (s.complete i r op p ip port st b).fab = s.fab := by unfold State.complete; repeat' split <;> simp
@[simp] theorem State.complete_frames (s : State) (i r op : Nat) (p : Path) (ip port st : Nat) (b : List Byte) : (s.complete i r op p ip port st b).frames = s.frames := by unfold State.complete; repeat' split <;> simp
@[simp] theorem State.complete_dbg (s : State) (i r op : Nat) (p : Path) (ip port st : Nat) (b : List Byte) : (s.complete i r op p ip port st b).dbg = s.dbg := by unfold State.complete; repeat' split <;> simp
@[simp] theorem State.complete_pins (s : State) (i r op : Nat) (p : Path) (ip port st : Nat) (b : List Byte) : (s.complete i r op p ip port st b).pins = s.pins := by unfold State.complete; repeat' split <;> simp
@[simp] theorem State.complete_free (s : State) (i r op : Nat) (p : Path) (ip port st : Nat) (b : List Byte) : (s.complete i r op p ip port st b).free = s.free := by unfold State.complete; repeat' split <;> simp

@[simp] theorem State.finish_pending (s : State) (i r st : Nat) (b : List Byte) : (s.finish i r st b).pending = s.pending := by
  unfold State.finish
  repeat' split
  all_goals first | rfl | simp
@[simp] theorem State.finish_ctl (s : State) (i r st : Nat) (b : List Byte) : (s.finish i r st b).ctl = s.ctl := by
  unfold State.finish
  repeat' split
  all_goals first | rfl | simp
@[simp] theorem State.finish_clk (s : State) (i r st : Nat) (b : List Byte) : (s.finish i r st b).clk = s.clk := by
  unfold State.finish
  repeat' split
  all_goals first | rfl | simp
@[simp] theorem State.finish_fw (s : State) (i r st : Nat) (b : List Byte) : (s.finish i r st b).fw = s.fw := by
  unfold State.finish
  repeat' split
  all_goals first | rfl | simp
@[simp] theorem State.finish_roce (s : State) (i r st : Nat) (b : List Byte) : (s.finish i r st b).roce = s.roce := by
  unfold State.finish
  repeat' split
  all_goals first | rfl | simp
@[simp] theorem State.finish_svc (s : State) (i r st : Nat) (b : List Byte) : (s.finish i r st b).svc = s.svc := by
  unfold State.finish
  repeat' split
  all_goals first | rfl | simp
@[simp] theorem State.finish_mem (s : State) (i r st : Nat) (b : List Byte) : (s.finish i r st b).mem = s.mem := by
  unfold State.finish
  repeat' split
  all_goals first | rfl | simp
@[simp] theorem State.finish_pods (s : State) (i r st : Nat) (b : List Byte) : (s.finish i r st b).pods = s.pods := by
  unfold State.finish
  repeat' split
  all_goals first | rfl | simp
@[simp] theorem State.finish_disp (s : State) (i r st : Nat) (b : List Byte) : (s.finish i r st b).disp = s.disp := by
  unfold State.finish
  repeat' split
  all_goals first | rfl | simp
@[simp] theorem State.finish_units (s : State) (i r st : Nat) (b : List Byte) : (s.finish i r st b).units = s.units := by
  unfold State.finish
  repeat' split
  all_goals first | rfl | simp
@[simp] theorem State.finish_gaz (s : State) (i r st : Nat) (b : List Byte) : (s.finish i r st b).gaz = s.gaz := by
  unfold State.finish
  repeat' split
  all_goals first | rfl | simp
@[simp] theorem State.finish_emb (s : State) (i r st : Nat) (b : List Byte) : (s.finish i r st b).emb = s.emb := by
  unfold State.finish
  repeat' split
  all_goals first | rfl | simp
@[simp] theorem State.finish_fab (s : State) (i r st : Nat) (b : List Byte) : (s.finish i r st b).fab = s.fab := by
  unfold State.finish
  repeat' split
  all_goals first | rfl | simp
@[simp] theorem State.finish_frames (s : State) (i r st : Nat) (b : List Byte) : (s.finish i r st b).frames = s.frames := by
  unfold State.finish
  repeat' split
  all_goals first | rfl | simp
@[simp] theorem State.finish_dbg (s : State) (i r st : Nat) (b : List Byte) : (s.finish i r st b).dbg = s.dbg := by
  unfold State.finish
  repeat' split
  all_goals first | rfl | simp
@[simp] theorem State.finish_pins (s : State) (i r st : Nat) (b : List Byte) : (s.finish i r st b).pins = s.pins := by
  unfold State.finish
  repeat' split
  all_goals first | rfl | simp
@[simp] theorem State.finish_free (s : State) (i r st : Nat) (b : List Byte) : (s.finish i r st b).free = s.free := by
  unfold State.finish
  repeat' split
  all_goals first | rfl | simp

@[simp] theorem State.modDetector_pending (s : State) (d : Nat) (f : Detector → Detector) : (s.modDetector d f).pending = s.pending := rfl
@[simp] theorem State.modDetector_ctl (s : State) (d : Nat) (f : Detector → Detector) : (s.modDetector d f).ctl = s.ctl := rfl
@[simp] theorem State.modDetector_clk (s : State) (d : Nat) (f : Detector → Detector) : (s.modDetector d f).clk = s.clk := rfl
@[simp] theorem State.modDetector_fw (s : State) (d : Nat) (f : Detector → Detector) : (s.modDetector d f).fw = s.fw := rfl
@[simp] theorem State.modDetector_host (s : State) (d : Nat) (f : Detector → Detector) : (s.modDetector d f).host = s.host := rfl
@[simp] theorem State.modDetector_roce (s : State) (d : Nat) (f : Detector → Detector) : (s.modDetector d f).roce = s.roce := rfl
@[simp] theorem State.modDetector_rcp (s : State) (d : Nat) (f : Detector → Detector) : (s.modDetector d f).rcp = s.rcp := rfl
@[simp] theorem State.modDetector_mem (s : State) (d : Nat) (f : Detector → Detector) : (s.modDetector d f).mem = s.mem := rfl
@[simp] theorem State.modDetector_pods (s : State) (d : Nat) (f : Detector → Detector) : (s.modDetector d f).pods = s.pods := rfl
@[simp] theorem State.modDetector_disp (s : State) (d : Nat) (f : Detector → Detector) : (s.modDetector d f).disp = s.disp := rfl
@[simp] theorem State.modDetector_units (s : State) (d : Nat) (f : Detector → Detector) : (s.modDetector d f).units = s.units := rfl
@[simp] theorem State.modDetector_gaz (s : State) (d : Nat) (f : Detector → Detector) : (s.modDetector d f).gaz = s.gaz := rfl
@[simp] theorem State.modDetector_emb (s : State) (d : Nat) (f : Detector → Detector) : (s.modDetector d f).emb = s.emb := rfl
@[simp] theorem State.modDetector_fab (s : State) (d : Nat) (f : Detector → Detector) : (s.modDetector d f).fab = s.fab := rfl
@[simp] theorem State.modDetector_frames (s : State) (d : Nat) (f : Detector → Detector) : (s.modDetector d f).frames = s.frames := rfl
@[simp] theorem State.modDetector_dbg (s : State) (d : Nat) (f : Detector → Detector) : (s.modDetector d f).dbg = s.dbg := rfl
@[simp] theorem State.modDetector_pins (s : State) (d : Nat) (f : Detector → Detector) : (s.modDetector d f).pins = s.pins := rfl
@[simp] theorem State.modDetector_free (s : State) (d : Nat) (f : Detector → Detector) : (s.modDetector d f).free = s.free := rfl
@[simp] theorem State.modDetector_sent (s : State) (d : Nat) (f : Detector → Detector) : (s.modDetector d f).sent = s.sent := rfl

@[simp] theorem State.disarm_pending (s : State) (k n : Nat) : (s.disarm k n).pending = s.pending := rfl
@[simp] theorem State.disarm_ctl (s : State) (k n : Nat) : (s.disarm k n).ctl = s.ctl := rfl
@[simp] theorem State.disarm_clk (s : State) (k n : Nat) : (s.disarm k n).clk = s.clk := rfl
@[simp] theorem State.disarm_fw (s : State) (k n : Nat) : (s.disarm k n).fw = s.fw := rfl
@[simp] theorem State.disarm_host (s : State) (k n : Nat) : (s.disarm k n).host = s.host := rfl
@[simp] theorem State.disarm_roce (s : State) (k n : Nat) : (s.disarm k n).roce = s.roce := rfl
@[simp] theorem State.disarm_rcp (s : State) (k n : Nat) : (s.disarm k n).rcp = s.rcp := rfl
@[simp] theorem State.disarm_mem (s : State) (k n : Nat) : (s.disarm k n).mem = s.mem := rfl
@[simp] theorem State.disarm_pods (s : State) (k n : Nat) : (s.disarm k n).pods = s.pods := rfl
@[simp] theorem State.disarm_disp (s : State) (k n : Nat) : (s.disarm k n).disp = s.disp := rfl
@[simp] theorem State.disarm_units (s : State) (k n : Nat) : (s.disarm k n).units = s.units := rfl
@[simp] theorem State.disarm_gaz (s : State) (k n : Nat) : (s.disarm k n).gaz = s.gaz := rfl
@[simp] theorem State.disarm_emb (s : State) (k n : Nat) : (s.disarm k n).emb = s.emb := rfl
@[simp] theorem State.disarm_fab (s : State) (k n : Nat) : (s.disarm k n).fab = s.fab := rfl
@[simp] theorem State.disarm_frames (s : State) (k n : Nat) : (s.disarm k n).frames = s.frames := rfl
@[simp] theorem State.disarm_dbg (s : State) (k n : Nat) : (s.disarm k n).dbg = s.dbg := rfl
@[simp] theorem State.disarm_pins (s : State) (k n : Nat) : (s.disarm k n).pins = s.pins := rfl
@[simp] theorem State.disarm_free (s : State) (k n : Nat) : (s.disarm k n).free = s.free := rfl
@[simp] theorem State.disarm_sent (s : State) (k n : Nat) : (s.disarm k n).sent = s.sent := rfl

@[simp] theorem State.eventTo_pending (s : State) (i c k : Nat) (b : List Byte) : (s.eventTo i c k b).pending = s.pending := by
  unfold State.eventTo; split
  · rfl
  · split
    · dsimp only
      split <;> split <;> simp
    · rfl
@[simp] theorem State.eventTo_ctl (s : State) (i c k : Nat) (b : List Byte) : (s.eventTo i c k b).ctl = s.ctl := by
  unfold State.eventTo; split
  · rfl
  · split
    · dsimp only
      split <;> split <;> simp
    · rfl
@[simp] theorem State.eventTo_clk (s : State) (i c k : Nat) (b : List Byte) : (s.eventTo i c k b).clk = s.clk := by
  unfold State.eventTo; split
  · rfl
  · split
    · dsimp only
      split <;> split <;> simp
    · rfl
@[simp] theorem State.eventTo_fw (s : State) (i c k : Nat) (b : List Byte) : (s.eventTo i c k b).fw = s.fw := by
  unfold State.eventTo; split
  · rfl
  · split
    · dsimp only
      split <;> split <;> simp
    · rfl
@[simp] theorem State.eventTo_roce (s : State) (i c k : Nat) (b : List Byte) : (s.eventTo i c k b).roce = s.roce := by
  unfold State.eventTo; split
  · rfl
  · split
    · dsimp only
      split <;> split <;> simp
    · rfl
@[simp] theorem State.eventTo_svc (s : State) (i c k : Nat) (b : List Byte) : (s.eventTo i c k b).svc = s.svc := by
  unfold State.eventTo; split
  · rfl
  · split
    · dsimp only
      split <;> split <;> simp
    · rfl
@[simp] theorem State.eventTo_mem (s : State) (i c k : Nat) (b : List Byte) : (s.eventTo i c k b).mem = s.mem := by
  unfold State.eventTo; split
  · rfl
  · split
    · dsimp only
      split <;> split <;> simp
    · rfl
@[simp] theorem State.eventTo_pods (s : State) (i c k : Nat) (b : List Byte) : (s.eventTo i c k b).pods = s.pods := by
  unfold State.eventTo; split
  · rfl
  · split
    · dsimp only
      split <;> split <;> simp
    · rfl
@[simp] theorem State.eventTo_disp (s : State) (i c k : Nat) (b : List Byte) : (s.eventTo i c k b).disp = s.disp := by
  unfold State.eventTo; split
  · rfl
  · split
    · dsimp only
      split <;> split <;> simp
    · rfl
@[simp] theorem State.eventTo_units (s : State) (i c k : Nat) (b : List Byte) : (s.eventTo i c k b).units = s.units := by
  unfold State.eventTo; split
  · rfl
  · split
    · dsimp only
      split <;> split <;> simp
    · rfl
@[simp] theorem State.eventTo_gaz (s : State) (i c k : Nat) (b : List Byte) : (s.eventTo i c k b).gaz = s.gaz := by
  unfold State.eventTo; split
  · rfl
  · split
    · dsimp only
      split <;> split <;> simp
    · rfl
@[simp] theorem State.eventTo_emb (s : State) (i c k : Nat) (b : List Byte) : (s.eventTo i c k b).emb = s.emb := by
  unfold State.eventTo; split
  · rfl
  · split
    · dsimp only
      split <;> split <;> simp
    · rfl
@[simp] theorem State.eventTo_fab (s : State) (i c k : Nat) (b : List Byte) : (s.eventTo i c k b).fab = s.fab := by
  unfold State.eventTo; split
  · rfl
  · split
    · dsimp only
      split <;> split <;> simp
    · rfl
@[simp] theorem State.eventTo_frames (s : State) (i c k : Nat) (b : List Byte) : (s.eventTo i c k b).frames = s.frames := by
  unfold State.eventTo; split
  · rfl
  · split
    · dsimp only
      split <;> split <;> simp
    · rfl
@[simp] theorem State.eventTo_dbg (s : State) (i c k : Nat) (b : List Byte) : (s.eventTo i c k b).dbg = s.dbg := by
  unfold State.eventTo; split
  · rfl
  · split
    · dsimp only
      split <;> split <;> simp
    · rfl
@[simp] theorem State.eventTo_free (s : State) (i c k : Nat) (b : List Byte) : (s.eventTo i c k b).free = s.free := by
  unfold State.eventTo; split
  · rfl
  · split
    · dsimp only
      split <;> split <;> simp
    · rfl

@[simp] theorem State.event_pending (s : State) (p : Session → Bool) (c k : Nat) (b : List Byte) : (s.event p c k b).pending = s.pending := foldl_keeps (p := State.pending) (fun a i => by simp) _ s
@[simp] theorem State.event_ctl (s : State) (p : Session → Bool) (c k : Nat) (b : List Byte) : (s.event p c k b).ctl = s.ctl := foldl_keeps (p := State.ctl) (fun a i => by simp) _ s
@[simp] theorem State.event_clk (s : State) (p : Session → Bool) (c k : Nat) (b : List Byte) : (s.event p c k b).clk = s.clk := foldl_keeps (p := State.clk) (fun a i => by simp) _ s
@[simp] theorem State.event_fw (s : State) (p : Session → Bool) (c k : Nat) (b : List Byte) : (s.event p c k b).fw = s.fw := foldl_keeps (p := State.fw) (fun a i => by simp) _ s
@[simp] theorem State.event_roce (s : State) (p : Session → Bool) (c k : Nat) (b : List Byte) : (s.event p c k b).roce = s.roce := foldl_keeps (p := State.roce) (fun a i => by simp) _ s
@[simp] theorem State.event_svc (s : State) (p : Session → Bool) (c k : Nat) (b : List Byte) : (s.event p c k b).svc = s.svc := foldl_keeps (p := State.svc) (fun a i => by simp) _ s
@[simp] theorem State.event_mem (s : State) (p : Session → Bool) (c k : Nat) (b : List Byte) : (s.event p c k b).mem = s.mem := foldl_keeps (p := State.mem) (fun a i => by simp) _ s
@[simp] theorem State.event_pods (s : State) (p : Session → Bool) (c k : Nat) (b : List Byte) : (s.event p c k b).pods = s.pods := foldl_keeps (p := State.pods) (fun a i => by simp) _ s
@[simp] theorem State.event_disp (s : State) (p : Session → Bool) (c k : Nat) (b : List Byte) : (s.event p c k b).disp = s.disp := foldl_keeps (p := State.disp) (fun a i => by simp) _ s
@[simp] theorem State.event_units (s : State) (p : Session → Bool) (c k : Nat) (b : List Byte) : (s.event p c k b).units = s.units := foldl_keeps (p := State.units) (fun a i => by simp) _ s
@[simp] theorem State.event_gaz (s : State) (p : Session → Bool) (c k : Nat) (b : List Byte) : (s.event p c k b).gaz = s.gaz := foldl_keeps (p := State.gaz) (fun a i => by simp) _ s
@[simp] theorem State.event_emb (s : State) (p : Session → Bool) (c k : Nat) (b : List Byte) : (s.event p c k b).emb = s.emb := foldl_keeps (p := State.emb) (fun a i => by simp) _ s
@[simp] theorem State.event_fab (s : State) (p : Session → Bool) (c k : Nat) (b : List Byte) : (s.event p c k b).fab = s.fab := foldl_keeps (p := State.fab) (fun a i => by simp) _ s
@[simp] theorem State.event_frames (s : State) (p : Session → Bool) (c k : Nat) (b : List Byte) : (s.event p c k b).frames = s.frames := foldl_keeps (p := State.frames) (fun a i => by simp) _ s
@[simp] theorem State.event_dbg (s : State) (p : Session → Bool) (c k : Nat) (b : List Byte) : (s.event p c k b).dbg = s.dbg := foldl_keeps (p := State.dbg) (fun a i => by simp) _ s
@[simp] theorem State.event_free (s : State) (p : Session → Bool) (c k : Nat) (b : List Byte) : (s.event p c k b).free = s.free := foldl_keeps (p := State.free) (fun a i => by simp) _ s

@[simp] theorem State.fire_pending (s : State) (k n d : Nat) (j : Bool) : (s.fire k n d j).pending = s.pending := by unfold State.fire; dsimp only; split <;> split <;> simp <;> split <;> rfl
@[simp] theorem State.fire_ctl (s : State) (k n d : Nat) (j : Bool) : (s.fire k n d j).ctl = s.ctl := by unfold State.fire; dsimp only; split <;> split <;> simp <;> split <;> rfl
@[simp] theorem State.fire_clk (s : State) (k n d : Nat) (j : Bool) : (s.fire k n d j).clk = s.clk := by unfold State.fire; dsimp only; split <;> split <;> simp <;> split <;> rfl
@[simp] theorem State.fire_fw (s : State) (k n d : Nat) (j : Bool) : (s.fire k n d j).fw = s.fw := by unfold State.fire; dsimp only; split <;> split <;> simp <;> split <;> rfl
@[simp] theorem State.fire_roce (s : State) (k n d : Nat) (j : Bool) : (s.fire k n d j).roce = s.roce := by unfold State.fire; dsimp only; split <;> split <;> simp <;> split <;> rfl
@[simp] theorem State.fire_mem (s : State) (k n d : Nat) (j : Bool) : (s.fire k n d j).mem = s.mem := by unfold State.fire; dsimp only; split <;> split <;> simp <;> split <;> rfl
@[simp] theorem State.fire_pods (s : State) (k n d : Nat) (j : Bool) : (s.fire k n d j).pods = s.pods := by unfold State.fire; dsimp only; split <;> split <;> simp <;> split <;> rfl
@[simp] theorem State.fire_disp (s : State) (k n d : Nat) (j : Bool) : (s.fire k n d j).disp = s.disp := by unfold State.fire; dsimp only; split <;> split <;> simp <;> split <;> rfl
@[simp] theorem State.fire_units (s : State) (k n d : Nat) (j : Bool) : (s.fire k n d j).units = s.units := by unfold State.fire; dsimp only; split <;> split <;> simp <;> split <;> rfl
@[simp] theorem State.fire_gaz (s : State) (k n d : Nat) (j : Bool) : (s.fire k n d j).gaz = s.gaz := by unfold State.fire; dsimp only; split <;> split <;> simp <;> split <;> rfl
@[simp] theorem State.fire_emb (s : State) (k n d : Nat) (j : Bool) : (s.fire k n d j).emb = s.emb := by unfold State.fire; dsimp only; split <;> split <;> simp <;> split <;> rfl
@[simp] theorem State.fire_fab (s : State) (k n d : Nat) (j : Bool) : (s.fire k n d j).fab = s.fab := by unfold State.fire; dsimp only; split <;> split <;> simp <;> split <;> rfl
@[simp] theorem State.fire_frames (s : State) (k n d : Nat) (j : Bool) : (s.fire k n d j).frames = s.frames := by unfold State.fire; dsimp only; split <;> split <;> simp <;> split <;> rfl
@[simp] theorem State.fire_free (s : State) (k n d : Nat) (j : Bool) : (s.fire k n d j).free = s.free := by unfold State.fire; dsimp only; split <;> split <;> simp <;> split <;> rfl

@[simp] theorem State.fireInjected_pending (s : State) (k n d : Nat) : (s.fireInjected k n d).pending = s.pending := by simp [State.fireInjected]
@[simp] theorem State.fireInjected_ctl (s : State) (k n d : Nat) : (s.fireInjected k n d).ctl = s.ctl := by simp [State.fireInjected]
@[simp] theorem State.fireInjected_clk (s : State) (k n d : Nat) : (s.fireInjected k n d).clk = s.clk := by simp [State.fireInjected]
@[simp] theorem State.fireInjected_fw (s : State) (k n d : Nat) : (s.fireInjected k n d).fw = s.fw := by simp [State.fireInjected]
@[simp] theorem State.fireInjected_roce (s : State) (k n d : Nat) : (s.fireInjected k n d).roce = s.roce := by simp [State.fireInjected]
@[simp] theorem State.fireInjected_mem (s : State) (k n d : Nat) : (s.fireInjected k n d).mem = s.mem := by simp [State.fireInjected]
@[simp] theorem State.fireInjected_pods (s : State) (k n d : Nat) : (s.fireInjected k n d).pods = s.pods := by simp [State.fireInjected]
@[simp] theorem State.fireInjected_disp (s : State) (k n d : Nat) : (s.fireInjected k n d).disp = s.disp := by simp [State.fireInjected]
@[simp] theorem State.fireInjected_units (s : State) (k n d : Nat) : (s.fireInjected k n d).units = s.units := by simp [State.fireInjected]
@[simp] theorem State.fireInjected_gaz (s : State) (k n d : Nat) : (s.fireInjected k n d).gaz = s.gaz := by simp [State.fireInjected]
@[simp] theorem State.fireInjected_emb (s : State) (k n d : Nat) : (s.fireInjected k n d).emb = s.emb := by simp [State.fireInjected]
@[simp] theorem State.fireInjected_fab (s : State) (k n d : Nat) : (s.fireInjected k n d).fab = s.fab := by simp [State.fireInjected]
@[simp] theorem State.fireInjected_frames (s : State) (k n d : Nat) : (s.fireInjected k n d).frames = s.frames := by simp [State.fireInjected]
@[simp] theorem State.fireInjected_free (s : State) (k n d : Nat) : (s.fireInjected k n d).free = s.free := by simp [State.fireInjected]

end Sys2Proof.Machine
end

