-- ==== Sys2Proof/Laws/Io.lean ====
section
/-!
SUPPORT. Reads and writes of memory leave threads, the Dispatcher and everything outside memory, detectors and what is sent as they are; an
instruction that issues comes to its effect.
-/
namespace Sys2Proof.Machine
open Sys2Proof

/-- The parts of the state that no access of memory changes. -/
def sameCore (s u : State) : Prop :=
  u.pending = s.pending ∧ u.ctl = s.ctl ∧ u.clk = s.clk ∧ u.fw = s.fw ∧ u.roce = s.roce ∧ u.pods = s.pods ∧ u.disp = s.disp ∧
  u.units = s.units ∧ u.gaz = s.gaz ∧ u.emb = s.emb ∧ u.fab = s.fab ∧ u.frames = s.frames

theorem sameCore.refl (s : State) : sameCore s s := ⟨rfl, rfl, rfl, rfl, rfl, rfl, rfl, rfl, rfl, rfl, rfl, rfl⟩

theorem sameCore.trans {s u v : State} (h : sameCore s u) (k : sameCore u v) : sameCore s v := by
  obtain ⟨a1, a2, a3, a4, a5, a6, a7, a8, a9, a10, a11, a12⟩ := h
  obtain ⟨b1, b2, b3, b4, b5, b6, b7, b8, b9, b10, b11, b12⟩ := k
  exact ⟨b1.trans a1, b2.trans a2, b3.trans a3, b4.trans a4, b5.trans a5, b6.trans a6, b7.trans a7, b8.trans a8, b9.trans a9, b10.trans a10,
    b11.trans a11, b12.trans a12⟩

theorem sameCore_modChannel (s : State) (c : Nat) (f : Channel → Channel) : sameCore s (s.modChannel c f) := sameCore.refl _
theorem sameCore_draw (s : State) : sameCore s s.draw.2 := sameCore.refl _
theorem sameCore_mem (s : State) (m : Mem) : sameCore s { s with mem := m } := sameCore.refl _
theorem sameCore_countRefused (s : State) (c st : Nat) : sameCore s (s.countRefused c st) := by simp [sameCore]
theorem sameCore_fire (s : State) (k n d : Nat) (j : Bool) : sameCore s (s.fire k n d j) := by simp [sameCore]
theorem sameCore_fireInjected (s : State) (k n d : Nat) : sameCore s (s.fireInjected k n d) := by simp [sameCore]

theorem sameCore_fireAs (s : State) (j : Bool) (k n d : Nat) : sameCore s (s.fireAs j k n d) := by
  unfold State.fireAs; split
  · exact sameCore_fireInjected ..
  · exact sameCore_fire ..

theorem sameCore_countAccess (s : State) (ch : Nat) (full : Bool) : sameCore s (s.countAccess ch full) := sameCore.refl _

theorem sameCore_linkMeet (s : State) (ch : Nat) : sameCore s (linkMeet s ch).1 := by
  unfold linkMeet; split
  · exact sameCore.refl _
  · exact (sameCore_modChannel ..).trans (sameCore_fireInjected ..)

theorem sameCore_eccRead (s : State) (ch blk : Nat) : sameCore s (eccRead s ch blk).1 := by
  unfold eccRead; split
  · exact sameCore.refl _
  · exact sameCore.trans (sameCore.refl _) (sameCore_fireAs ..)
  · exact sameCore.trans (sameCore.refl _) (sameCore_fireAs ..)

theorem sameCore_lpddrBlock (s : State) (pa : Nat) (ecc reads full : Bool) : sameCore s (lpddrBlock s pa ecc reads full).1 := by
  have h := (sameCore_countAccess s (channelOf pa) full).trans (sameCore_linkMeet (s.countAccess (channelOf pa) full) (channelOf pa))
  unfold lpddrBlock
  dsimp only
  split
  · exact sameCore.refl _
  · split
    · exact h
    · split
      · exact h
      · split
        · exact h.trans (sameCore.refl _)
        · split
          · exact h
          · exact h.trans (sameCore_eccRead ..)

theorem sameCore_storeWords (s : State) (pa len : Nat) : sameCore s (storeWords s pa len).1 := by
  unfold storeWords
  dsimp only
  split_ifs <;> simp [sameCore]

theorem sameCore_pieceAccess (s : State) (pa len : Nat) (ecc write reads : Bool) : sameCore s (pieceAccess s pa len ecc write reads).1 := by
  unfold pieceAccess
  split_ifs
  · exact sameCore_lpddrBlock ..
  · exact sameCore_storeWords ..
  · exact sameCore.refl _

theorem sameCore_translate (s : State) (ctx va len : Nat) (n : Need) (old : Bool) : sameCore s ((translate ctx va len n old).exec s).2 := by
  unfold translate Io.exec
  dsimp only
  split
  · exact sameCore.refl _
  · exact sameCore_countRefused _ _ _

theorem sameCore_touchAll (ctx : Nat) (n : Need) (write reads : Bool) (l : List (Nat × Nat × Bool)) (s : State) :
    sameCore s ((touchAll ctx n write reads l).exec s).2 := by
  induction l generalizing s with
  | nil => exact sameCore.refl _
  | cons p t ih =>
    obtain ⟨pa, len, ecc⟩ := p
    have hp := sameCore_pieceAccess s pa len ecc write reads
    unfold touchAll Io.exec
    dsimp only
    split
    · rename_i s' h; rw [h] at hp; exact hp.trans (ih s')
    · rename_i s' e h; rw [h] at hp; exact hp.trans (sameCore_countRefused _ _ _)

/-- One operation after another keeps the core where both do. -/
theorem sameCore_bind {α β : Type} (m : Io α) (k : α → Io β) (s : State) (hm : sameCore s (m.exec s).2)
    (hk : ∀ a u, sameCore u ((k a).exec u).2) : sameCore s ((m >>= k).exec s).2 := by
  have e : (m >>= k).exec s = match m.exec s with
      | (.ok a, u) => (k a).exec u
      | (.error e, u) => (.error e, u) := by
    show (ExceptT.bind m k) s = _
    unfold ExceptT.bind ExceptT.mk Io.exec
    show (StateT.bind m _) s = _
    unfold StateT.bind
    rcases h : m s with ⟨r, u⟩
    cases r <;> simp [bind] <;> rfl
  rw [e]
  rcases h : m.exec s with ⟨r, u⟩
  rw [h] at hm
  cases r with
  | ok a => exact hm.trans (hk a u)
  | error e => exact hm

/-- A read leaves threads, the Dispatcher and the units as they are. -/
theorem sameCore_memReadN (n : Need) (ctx va len : Nat) (old : Bool) (s : State) : sameCore s ((memReadN n ctx va len old).exec s).2 := by
  unfold memReadN
  refine sameCore_bind _ _ _ (sameCore_translate ..) fun ps u => ?_
  exact sameCore_bind _ _ _ (sameCore_touchAll ..) fun _ v => sameCore.refl _

theorem sameCore_memRead (ctx va len : Nat) (old : Bool) (s : State) : sameCore s ((memRead ctx va len old).exec s).2 :=
  sameCore_memReadN ..

/-- Bytes shared with an operation in progress leave threads, the Dispatcher and the units as they are. -/
theorem sameCore_shareAll (thr reads : Bool) (bs : List Byte) (pa : Nat) (s : State) : sameCore s (s.shareAll thr reads pa bs).2 := by
  induction bs generalizing pa s with
  | nil => exact sameCore.refl _
  | cons b t ih =>
    unfold State.shareAll
    dsimp only
    refine sameCore.trans ?_ (ih _ _)
    split <;> exact sameCore.refl _

/-- A store of bytes leaves threads, the Dispatcher and the units as they are. -/
theorem sameCore_store (s : State) (thr : Bool) (pa : Nat) (bs : List Byte) : sameCore s (s.store thr pa bs) := by
  unfold State.store; split
  · exact sameCore.refl _
  · exact sameCore_shareAll ..

theorem sameCore_view (s : State) (thr : Bool) (pa len : Nat) : sameCore s (s.view thr pa len).2 := by
  unfold State.view; split
  · exact sameCore.refl _
  · exact sameCore_shareAll ..

theorem sameCore_storePieces (thr : Bool) (ps : List (Nat × Nat × Bool)) (bs : List Byte) (s : State) :
    sameCore s (storePieces thr ps bs s) := by
  induction ps generalizing s bs with
  | nil => exact sameCore.refl _
  | cons p t ih => obtain ⟨pa, len, e⟩ := p; exact (sameCore_store ..).trans (ih _ _)

theorem sameCore_viewPieces (thr : Bool) (ps : List (Nat × Nat × Bool)) (s : State) : sameCore s (viewPieces thr ps s).2 := by
  induction ps generalizing s with
  | nil => exact sameCore.refl _
  | cons p t ih => obtain ⟨pa, len, e⟩ := p; exact (sameCore_view ..).trans (ih _)

theorem sameCore_memWrite_go (ctx : Nat) (old : Bool) (ps : List (Nat × Nat × Bool)) (b : List Byte) (s : State) :
    sameCore s ((memWrite.go ctx old ps b).exec s).2 := by
  induction ps generalizing s b with
  | nil => exact sameCore.refl _
  | cons p t ih =>
    unfold memWrite.go
    refine sameCore_bind _ _ _ (sameCore_touchAll ..) fun _ u => ?_
    exact sameCore_bind _ _ _ (sameCore_storePieces ..) fun _ v => ih _ v

/-- A write leaves threads, the Dispatcher and the units as they are. -/
theorem sameCore_memWrite (ctx va : Nat) (bs : List Byte) (old : Bool) (s : State) : sameCore s ((memWrite ctx va bs old).exec s).2 := by
  unfold memWrite
  exact sameCore_bind _ _ _ (sameCore_translate ..) fun ps u => sameCore_memWrite_go ..

/-- A read-modify-write leaves threads, the Dispatcher and the units as they are. -/
theorem sameCore_memModify (ctx va len : Nat) (f : List Byte → List Byte) (old : Bool) (s : State) :
    sameCore s ((memModify ctx va len f old).exec s).2 := by
  unfold memModify
  refine sameCore_bind _ _ _ (sameCore_translate ..) fun ps u => ?_
  refine sameCore_bind _ _ _ (sameCore_touchAll ..) fun _ v => ?_
  exact (sameCore_viewPieces ..).trans (sameCore_storePieces ..)

/-- A write whose refusal is dropped leaves threads, the Dispatcher and the units as they are. -/
theorem sameCore_writeDropped (s : State) (ctx va : Nat) (bs : List Byte) : sameCore s (s.writeDropped ctx va bs) := sameCore_memWrite ..

/-- A fetch leaves threads, the Dispatcher and the units as they are. -/
theorem sameCore_podFetch (s : State) (t : Nat) : sameCore s (podFetch s t).2 := by
  unfold podFetch
  dsimp only
  split_ifs
  · exact sameCore.refl _
  · have h := sameCore_memReadN .x (s.ctxOf t) (s.thread t).pc 4 false s
    rcases e : (memReadN .x (s.ctxOf t) (s.thread t).pc 4).exec s with ⟨q, u⟩
    rw [e] at h
    cases q with
    | error e => exact h
    | ok b =>
      dsimp only
      split_ifs
      · have k := sameCore_memReadN .x (u.ctxOf t) (((s.thread t).pc + 4) % 2 ^ 64) 4 false u
        rcases e2 : (memReadN .x (u.ctxOf t) (((s.thread t).pc + 4) % 2 ^ 64) 4).exec u with ⟨q, v⟩
        rw [e2] at k
        cases q <;> exact h.trans k
      · exact h

end Sys2Proof.Machine
end

