-- ==== Sys2Proof/Laws/Table.lean ====
section
/-!
SUPPORT. Sparse tables: what is read after an entry is set or removed, and that keys stay strictly rising.
-/
namespace Sys2Proof

/-- The first key, where there is one, lies above a bound. -/
def Tbl.above {α : Type} (b : Nat) : Tbl α → Prop
  | [] => True
  | (k, _) :: _ => b < k

theorem Tbl.sorted_cons {α : Type} (k : Nat) (v : α) (t : Tbl α) :
    Tbl.sorted ((k, v) :: t) = true ↔ Tbl.above k t ∧ Tbl.sorted t = true := by
  cases t with
  | nil => simp [Tbl.sorted, Tbl.above]
  | cons p t => obtain ⟨b, y⟩ := p; simp [Tbl.sorted, Tbl.above]

theorem Tbl.above_mono {α : Type} {a b : Nat} (h : a ≤ b) {t : Tbl α} (ht : Tbl.above b t) : Tbl.above a t := by
  cases t with
  | nil => trivial
  | cons p t => exact lt_of_le_of_lt h ht

/-- A key at or below the bound is not listed. -/
theorem Tbl.find_of_above {α : Type} {t : Tbl α} {a b : Nat} (ht : Tbl.above b t) (h : a ≤ b) : Tbl.find t a = none := by
  cases t with
  | nil => rfl
  | cons p t =>
    obtain ⟨k, v⟩ := p
    have hk : b < k := ht
    simp only [Tbl.find]
    rw [if_neg (by omega), if_pos (by omega)]

@[simp] theorem Tbl.find_put_self {α : Type} (t : Tbl α) (a : Nat) (x : α) : Tbl.find (Tbl.put t a x) a = some x := by
  induction t with
  | nil => simp [Tbl.put, Tbl.find]
  | cons p t ih =>
    obtain ⟨k, v⟩ := p
    simp only [Tbl.put]
    split_ifs with h1 h2
    · simp [Tbl.find]
    · simp [Tbl.find]
    · simp only [Tbl.find]
      rw [if_neg h1, if_neg h2, ih]

theorem Tbl.find_put_ne {α : Type} (t : Tbl α) {a b : Nat} (x : α) (h : b ≠ a) : Tbl.find (Tbl.put t a x) b = Tbl.find t b := by
  induction t with
  | nil => simp only [Tbl.put, Tbl.find]; rw [if_neg (Ne.symm h)]; split_ifs <;> rfl
  | cons p t ih =>
    obtain ⟨k, v⟩ := p
    simp only [Tbl.put]
    split_ifs with h1 h2
    · subst h1; simp only [Tbl.find]; rw [if_neg (Ne.symm h), if_neg (Ne.symm h)]
    · simp only [Tbl.find]
      rw [if_neg (Ne.symm h)]
      by_cases hb : b < a
      · rw [if_pos hb]; split_ifs <;> first | rfl | omega
      · rw [if_neg hb]
    · simp only [Tbl.find, ih]

/-- Setting an entry that is listed leaves the number of entries and every other one. -/
theorem Tbl.put_map {α β : Type} (t : Tbl α) (a : Nat) (x y : α) (g : Nat × α → β) (h : Tbl.find t a = some x) (hg : g (a, y) = g (a, x)) :
    (Tbl.put t a y).map g = t.map g := by
  induction t with
  | nil => simp [Tbl.find] at h
  | cons p t ih =>
    obtain ⟨k, v⟩ := p
    simp only [Tbl.find] at h
    simp only [Tbl.put]
    split_ifs at h with h1 h2
    · subst h1; cases h; simp [hg]
    · rw [if_neg h1, if_neg h2]; simp [ih h]

theorem Tbl.above_put {α : Type} {t : Tbl α} {a b : Nat} (x : α) (ht : Tbl.above b t) (h : b < a) : Tbl.above b (Tbl.put t a x) := by
  cases t with
  | nil => exact h
  | cons p t =>
    obtain ⟨k, v⟩ := p
    have hk : b < k := ht
    simp only [Tbl.put]
    split_ifs
    · exact h
    · exact h
    · exact hk

theorem Tbl.sorted_put {α : Type} (t : Tbl α) (a : Nat) (x : α) (h : Tbl.sorted t = true) : Tbl.sorted (Tbl.put t a x) = true := by
  induction t with
  | nil => rfl
  | cons p t ih =>
    obtain ⟨k, v⟩ := p
    rw [Tbl.sorted_cons] at h
    simp only [Tbl.put]
    split_ifs with h1 h2
    · subst h1; rw [Tbl.sorted_cons]; exact h
    · rw [Tbl.sorted_cons, Tbl.sorted_cons]; exact ⟨h2, h⟩
    · rw [Tbl.sorted_cons]; exact ⟨Tbl.above_put x h.1 (by omega), ih h.2⟩

theorem Tbl.mem_put {α : Type} {t : Tbl α} {a : Nat} {x : α} {e : Nat × α} (h : e ∈ Tbl.put t a x) : e = (a, x) ∨ e ∈ t := by
  induction t with
  | nil => simpa [Tbl.put] using h
  | cons p t ih =>
    obtain ⟨k, v⟩ := p
    simp only [Tbl.put] at h
    split_ifs at h
    · rcases List.mem_cons.1 h with h | h
      · exact .inl h
      · exact .inr (List.mem_cons_of_mem _ h)
    · rcases List.mem_cons.1 h with h | h
      · exact .inl h
      · exact .inr h
    · rcases List.mem_cons.1 h with h | h
      · exact .inr (by simp [h])
      · rcases ih h with h | h
        · exact .inl h
        · exact .inr (List.mem_cons_of_mem _ h)

theorem Tbl.sorted_tail {α : Type} {p : Nat × α} {t : Tbl α} (h : Tbl.sorted (p :: t) = true) : Tbl.sorted t = true := by
  obtain ⟨k, v⟩ := p; exact ((Tbl.sorted_cons k v t).1 h).2

theorem Tbl.above_filter {α : Type} {t : Tbl α} {b : Nat} (q : Nat × α → Bool) (ht : Tbl.above b t) (hs : Tbl.sorted t = true) :
    Tbl.above b (t.filter q) := by
  induction t with
  | nil => trivial
  | cons p t ih =>
    obtain ⟨k, v⟩ := p
    have hk : b < k := ht
    have h := (Tbl.sorted_cons k v t).1 hs
    rw [List.filter_cons]
    split_ifs
    · exact hk
    · exact ih (Tbl.above_mono (le_of_lt hk) h.1) h.2

theorem Tbl.sorted_filter {α : Type} (t : Tbl α) (q : Nat × α → Bool) (h : Tbl.sorted t = true) : Tbl.sorted (t.filter q) = true := by
  induction t with
  | nil => rfl
  | cons p t ih =>
    obtain ⟨k, v⟩ := p
    have h' := (Tbl.sorted_cons k v t).1 h
    rw [List.filter_cons]
    split_ifs
    · exact (Tbl.sorted_cons k v _).2 ⟨Tbl.above_filter q h'.1 h'.2, ih h'.2⟩
    · exact ih h'.2

theorem Tbl.sorted_keep {α : Type} (t : Tbl α) (q : Nat → α → Bool) (h : Tbl.sorted t = true) : Tbl.sorted (t.keep q) = true :=
  Tbl.sorted_filter t _ h

theorem Tbl.mem_del {α : Type} {t : Tbl α} {a : Nat} {e : Nat × α} (h : e ∈ Tbl.del t a) : e ∈ t := List.mem_of_mem_filter h

theorem Tbl.sorted_del {α : Type} (t : Tbl α) (a : Nat) (h : Tbl.sorted t = true) : Tbl.sorted (Tbl.del t a) = true :=
  Tbl.sorted_filter t _ h

/-- A key found is the key of an entry. -/
theorem Tbl.find_mem {α : Type} {t : Tbl α} {a : Nat} {x : α} (h : Tbl.find t a = some x) : (a, x) ∈ t := by
  induction t with
  | nil => cases h
  | cons p t ih =>
    obtain ⟨k, v⟩ := p
    simp only [Tbl.find] at h
    split_ifs at h with h1
    · subst h1; cases h; exact List.mem_cons_self
    · exact List.mem_cons_of_mem _ (ih h)

/-- A key removed is not found. -/
@[simp] theorem Tbl.find_del_self {α : Type} (t : Tbl α) (a : Nat) : Tbl.find (Tbl.del t a) a = none := by
  cases h : Tbl.find (Tbl.del t a) a with
  | none => rfl
  | some x =>
    have hm := (List.mem_filter.1 (Tbl.find_mem h)).2
    simp at hm

theorem Tbl.find_filter_ne {α : Type} (t : Tbl α) (q : Nat × α → Bool) {b : Nat} (hq : ∀ x, q (b, x) = true) (hs : Tbl.sorted t = true) :
    Tbl.find (t.filter q) b = Tbl.find t b := by
  induction t with
  | nil => rfl
  | cons p t ih =>
    obtain ⟨k, v⟩ := p
    have h := (Tbl.sorted_cons k v t).1 hs
    rw [List.filter_cons]
    split_ifs with hk
    · simp only [Tbl.find, ih h.2]
    · have hne : k ≠ b := fun e => hk (by rw [e]; exact hq v)
      rw [ih h.2]
      simp only [Tbl.find]
      rw [if_neg hne]
      by_cases hb : b < k
      · rw [if_pos hb]; exact Tbl.find_of_above h.1 (le_of_lt hb)
      · rw [if_neg hb]

/-- Every other key of a table in order is found as before. -/
theorem Tbl.find_del_ne {α : Type} (t : Tbl α) {a b : Nat} (h : b ≠ a) (hs : Tbl.sorted t = true) : Tbl.find (Tbl.del t a) b = Tbl.find t b :=
  Tbl.find_filter_ne t _ (fun _ => by simp [h]) hs

theorem Tbl.sorted_upd {α : Type} [DecidableEq α] (t : Tbl α) (d : α) (a : Nat) (x : α) (h : Tbl.sorted t = true) :
    Tbl.sorted (Tbl.upd t d a x) = true := by
  unfold Tbl.upd; split_ifs
  · exact Tbl.sorted_del t a h
  · exact Tbl.sorted_put t a x h

/-- The value set is the value read. -/
theorem Tbl.at_upd_self {α : Type} [DecidableEq α] (t : Tbl α) (d : α) (a : Nat) (x : α) :
    Tbl.at (Tbl.upd t d a x) d a = x := by
  unfold Tbl.upd Tbl.at; split_ifs with hx
  · simp [Tbl.find_del_self t a, hx]
  · simp

/-- Every other value reads as before. -/
theorem Tbl.at_upd_ne {α : Type} [DecidableEq α] (t : Tbl α) (d : α) {a b : Nat} (x : α) (hb : b ≠ a) (h : Tbl.sorted t = true) :
    Tbl.at (Tbl.upd t d a x) d b = Tbl.at t d b := by
  unfold Tbl.upd Tbl.at; split_ifs
  · rw [Tbl.find_del_ne t hb h]
  · rw [Tbl.find_put_ne t x hb]

/-- A listed entry of an updated table holds no default where none did. -/
theorem Tbl.upd_listed {α : Type} [DecidableEq α] {t : Tbl α} {d : α} {a : Nat} {x : α} (h : ∀ e ∈ t, e.2 ≠ d) :
    ∀ e ∈ Tbl.upd t d a x, e.2 ≠ d := by
  intro e he
  unfold Tbl.upd at he; split_ifs at he with hx
  · exact h e (Tbl.mem_del he)
  · rcases Tbl.mem_put he with rfl | he
    · exact hx
    · exact h e he

end Sys2Proof
end

