-- ==== Sys2Proof/Laws/Issue.lean ====
section
/-!
SUPPORT. An instruction that issues comes to its effect; a thread read after a change.
-/
namespace Sys2Proof.Machine
open Sys2Proof

@[simp] theorem State.thread_modThread_self (s : State) (t : Nat) (f : Thread → Thread) : (s.modThread t f).thread t = f (s.thread t) :=
  Tbl.at_upd_self _ _ _ _

theorem State.thread_modThread_ne (s : State) {t k : Nat} (f : Thread → Thread) (h : k ≠ t) (hs : s.pods.threads.sorted = true) :
    (s.modThread t f).thread k = s.thread k := Tbl.at_upd_ne _ _ _ h hs

theorem fetched_sameCore (t : Nat) (s : State) : sameCore (s.turned t) (fetched t s) := sameCore_podFetch _ t

theorem Tbl.find_mapKey {α : Type} (f : Nat → α → α) (t : Tbl α) (a : Nat) :
    Tbl.find (t.map (fun e => (e.1, f e.1 e.2))) a = (Tbl.find t a).map (f a) := by
  induction t with
  | nil => rfl
  | cons p t ih =>
    obtain ⟨k, v⟩ := p
    simp only [List.map_cons, Tbl.find]
    split_ifs with h1 h2
    · subst h1; rfl
    · rfl
    · exact ih

/-- A free sort network wakes the threads of its Pod that wait for it, and changes no other thread. -/
theorem State.thread_sortFree (s : State) (p k : Nat) :
    (s.sortFree p).thread k = if podOf k = p then (s.thread k).wakeSort else s.thread k := by
  unfold State.sortFree State.thread
  dsimp only
  unfold Tbl.at
  have e := Tbl.find_mapKey (fun a (th : Thread) => if podOf a = p then th.wakeSort else th) s.pods.threads k
  show (Tbl.find (s.pods.threads.map _) k).getD _ = _
  rw [e]
  cases Tbl.find s.pods.threads k with
  | none => split_ifs <;> rfl
  | some x => rfl

/-- The turn and the fetch change no thread that does not wait for the sort network. -/
theorem State.thread_turned (s : State) {t k : Nat} (h : (s.thread k).st ≠ .blocked .sort) : (s.turned t).thread k = s.thread k := by
  have e : (s.turned t).thread k = (s.sortBeat (podOf t)).thread k := rfl
  rw [e]
  unfold State.sortBeat
  split
  · rfl
  · rw [State.thread_sortFree]; unfold Thread.wakeSort; rw [if_neg h, ite_self]
  · rfl

theorem fetched_thread {t k : Nat} {s : State} (h : (s.thread k).st ≠ .blocked .sort) : (fetched t s).thread k = s.thread k := by
  rw [← State.thread_turned s (t := t) h]
  unfold State.thread; rw [(fetched_sameCore t s).2.2.2.2.2.1]

/-- A thread that its Pod chooses is RUNNING. -/
theorem chosen_running {t : Nat} {s : State} (h : s.chosen t = true) : (s.thread t).st = .running := by
  unfold State.chosen at h
  simp only [Bool.and_eq_true, decide_eq_true_eq] at h
  exact h.1.1

theorem issues_chosen {r : Row} {t : Nat} {w : Insn} {s : State} (h : issues r t w s = true) : s.chosen t = true := by
  unfold issues fetches at h
  simp only [Bool.and_eq_true] at h
  exact h.1.1.1.1.1.1

/-- The thread that issues is as it was before. -/
theorem issued_thread {r : Row} {t : Nat} {w : Insn} {s : State} (h : issues r t w s = true) : (fetched t s).thread t = s.thread t :=
  fetched_thread (by rw [chosen_running (issues_chosen h)]; exact TState.noConfusion)

/-- An instruction that issues comes to its effect in the state that its fetch leaves. -/
theorem issue_issues {r : Row} {t : Nat} {w : Insn} {s : State} (h : issues r t w s = true) :
    r.issue t w s = r.perform t w (fetched t s) := by
  unfold issues fetches at h
  simp only [Bool.and_eq_true, Bool.not_eq_true'] at h
  obtain ⟨⟨⟨⟨⟨⟨hr, hf⟩, hm⟩, hx⟩, ho⟩, hp⟩, haw⟩ := h
  unfold Row.issue
  dsimp only
  rw [if_neg (by simp [hr])]
  unfold fetched at hp ⊢
  rcases e : podFetch (s.turned t) t with ⟨q, u⟩
  rw [e] at hf hp
  cases q with
  | error e => cases hf
  | ok v =>
    have hv : v = w := by simpa using hf
    subst hv
    dsimp only at hp ⊢
    rw [if_neg (by simp [hm]), if_neg (by simp [hx, ho])]
    have : (if (r.reads v).isEmpty = true then none else u.armed 6 (podOf t)) = none := by
      split_ifs
      · rfl
      · simpa using hp
    rw [this]
    dsimp only
    rw [haw, if_neg (by decide)]

/-- An instruction that only changes its thread. -/
theorem issue_onThread {r : Row} {g : Thread → Insn → Thread} {t : Nat} {w : Insn} {s : State} (hg : r.run = onThread g)
    (h : issues r t w s = true) : r.issue t w s = retiredNext r t w s (fun y => g y w) := by
  rw [issue_issues h]
  unfold Row.perform
  dsimp only
  rw [hg, issued_thread h]
  rfl

end Sys2Proof.Machine
end

