-- ==== Sys2Proof/Laws/Mem.lean ====
section
/-!
SUPPORT. Memory: its operations keep the canonical form, a byte written is the byte read, and every other byte reads as before.
-/
namespace Sys2Proof.Machine
open Sys2Proof

theorem Mem.wf_iff (m : Mem) : m.wf = true ↔ m.bytes.sorted = true ∧ ∀ e ∈ m.bytes, e.2 ≠ 0 := by
  simp [Mem.wf, List.all_eq_true]

theorem Mem.wf_congr {m n : Mem} (h : n.bytes = m.bytes) (hm : m.wf = true) : n.wf = true := by
  unfold Mem.wf at *; rw [h]; exact hm

/-- Writing bytes keeps the canonical form. -/
theorem Mem.wf_write (m : Mem) (pa : Nat) (bs : List Byte) (h : m.wf = true) : (m.write pa bs).wf = true := by
  induction bs generalizing m pa with
  | nil => exact h
  | cons b bs ih =>
    refine ih _ _ ?_
    rw [Mem.wf_iff] at h ⊢
    exact ⟨Tbl.sorted_upd _ _ _ _ h.1, Tbl.upd_listed h.2⟩

/-- Zeroing a range keeps the canonical form. -/
theorem Mem.wf_zero (m : Mem) (pa len : Nat) (h : m.wf = true) : (m.zero pa len).wf = true := by
  rw [Mem.wf_iff] at h ⊢
  exact ⟨Tbl.sorted_keep m.bytes (fun a _ => !(pa ≤ a && a < pa + len)) h.1, fun e he => h.2 e (List.mem_of_mem_filter he)⟩

/-- Accesses that an operation in progress minds keep the canonical form. -/
theorem State.wf_shareAll (thr reads : Bool) (bs : List Byte) (pa : Nat) (s : State) (h : s.mem.wf = true) :
    (s.shareAll thr reads pa bs).2.mem.wf = true := by
  induction bs generalizing pa s with
  | nil => exact h
  | cons b t ih =>
    unfold State.shareAll
    dsimp only
    refine ih _ _ ?_
    split <;> exact Mem.wf_write _ _ _ (Mem.wf_congr rfl h)

/-- Storing bytes keeps the canonical form. -/
theorem State.wf_store (s : State) (thr : Bool) (pa : Nat) (bs : List Byte) (h : s.mem.wf = true) : (s.store thr pa bs).mem.wf = true := by
  unfold State.store; split
  · exact Mem.wf_write _ _ _ h
  · exact State.wf_shareAll _ _ _ _ _ h

/-- Viewing bytes keeps the canonical form. -/
theorem State.wf_view (s : State) (thr : Bool) (pa len : Nat) (h : s.mem.wf = true) : (s.view thr pa len).2.mem.wf = true := by
  unfold State.view; split
  · exact h
  · exact State.wf_shareAll _ _ _ _ _ h

/-- Storing over pieces keeps the canonical form. -/
theorem State.wf_storePieces (thr : Bool) (ps : List (Nat × Nat × Bool)) (bs : List Byte) (s : State) (h : s.mem.wf = true) :
    (storePieces thr ps bs s).mem.wf = true := by
  induction ps generalizing s bs with
  | nil => exact h
  | cons p t ih =>
    obtain ⟨pa, len, e⟩ := p
    exact ih _ _ (State.wf_store _ _ _ _ h)

/-- Viewing pieces keeps the canonical form. -/
theorem State.wf_viewPieces (thr : Bool) (ps : List (Nat × Nat × Bool)) (s : State) (h : s.mem.wf = true) :
    (viewPieces thr ps s).2.mem.wf = true := by
  induction ps generalizing s with
  | nil => exact h
  | cons p t ih =>
    obtain ⟨pa, len, e⟩ := p
    exact ih _ (State.wf_view _ _ _ _ h)

/-- With no operation watched a store is the write of its bytes. -/
theorem State.store_unwatched (s : State) (thr : Bool) (pa : Nat) (bs : List Byte) (h : s.mem.watch = []) :
    s.store thr pa bs = { s with mem := s.mem.write pa bs } := by
  simp [State.store, h]

/-- With no operation watched a view is the read of the bytes. -/
theorem State.view_unwatched (s : State) (thr : Bool) (pa len : Nat) (h : s.mem.watch = []) : s.view thr pa len = (s.mem.read pa len, s) := by
  simp [State.view, h]

/-- A byte outside the bytes written reads as before. -/
theorem Mem.byte_write_other (m : Mem) (pa a : Nat) (bs : List Byte) (h : m.wf = true) (ha : a < pa ∨ pa + bs.length ≤ a) :
    (m.write pa bs).byte a = m.byte a := by
  induction bs generalizing m pa with
  | nil => rfl
  | cons b bs ih =>
    have hw := (Mem.wf_iff m).1 h
    simp only [List.length_cons] at ha
    rw [Mem.write, ih _ _ (by simpa [Mem.write] using Mem.wf_write m pa [b] h) (by omega)]
    exact Tbl.at_upd_ne _ _ _ (by omega) hw.1

/-- Reading back the bytes just written gives them. -/
theorem Mem.read_write (m : Mem) (pa : Nat) (bs : List Byte) (h : m.wf = true) : (m.write pa bs).read pa bs.length = bs := by
  induction bs generalizing m pa with
  | nil => rfl
  | cons b bs ih =>
    have h1 : Mem.wf { m with bytes := m.bytes.upd 0 pa b } = true := by simpa [Mem.write] using Mem.wf_write m pa [b] h
    simp only [List.length_cons, Mem.read, Mem.write]
    rw [ih _ _ h1, Mem.byte_write_other _ _ _ _ h1 (by omega)]
    simp [Mem.byte, Tbl.at_upd_self]

/-- The memory at reset has the canonical form. -/
theorem Mem.wf_reset : State.reset.mem.wf = true := by decide

end Sys2Proof.Machine
end

