-- ==== Sys2Proof/Laws/Rcp.lean ====
section
/-!
SUPPORT. What a frame that is accepted does (R64), and what its completion leaves (R78).
-/
namespace Sys2Proof.Machine
open Sys2Proof

/-! Sessions read after a change. -/

theorem State.session_modSession_self {s : State} {sid : Nat} {x : Session} (f : Session → Session) (h : s.session sid = some x) :
    (s.modSession sid f).session sid = some (f x) := by
  unfold State.modSession
  rw [h]
  exact Tbl.find_put_self _ _ _

theorem State.session_modSession_ne (s : State) {sid n : Nat} (f : Session → Session) (h : n ≠ sid) :
    (s.modSession sid f).session n = s.session n := by
  unfold State.modSession
  split
  · rfl
  · exact Tbl.find_put_ne _ _ h

@[simp] theorem State.session_sendRcp (s : State) (p : Path) (ip port : Nat) (o : RcpOut) (n : Nat) :
    (s.sendRcp p ip port o).session n = s.session n := by
  simp [State.session]

/-- Requests in flight are as many as before where a session's own are. -/
theorem State.allInFlight_modSession (s : State) (sid : Nat) (f : Session → Session) (h : ∀ x, (f x).inFlight = x.inFlight) :
    (s.modSession sid f).allInFlight = s.allInFlight := by
  unfold State.modSession
  split
  · rfl
  · rename_i x hx
    unfold State.allInFlight
    dsimp only
    rw [Tbl.put_map s.rcp.sessions sid x (f x) (fun e => e.2.inFlight.length) hx (by simp [h])]

/-! Frames. -/

/-- The session of a frame that is heard from. -/
theorem seen_session {f : Frame} {s : State} {x : Session} (h : s.session f.sessionId.toNat = some x) :
    (seen f s).session f.sessionId.toNat = some { x with lastSeen := s.ctl.now } :=
  State.session_modSession_self _ h

theorem seen_other (f : Frame) (s : State) {n : Nat} (h : n ≠ f.sessionId.toNat) : (seen f s).session n = s.session n :=
  State.session_modSession_ne s _ h

theorem sessionOf_some {s : State} {f : Frame} {x : Session} (h : sessionOf s f = some x) :
    s.session f.sessionId.toNat = some x ∧ x.path = f.path := by
  unfold sessionOf at h
  split at h
  · cases h
  · rename_i y hy
    split_ifs at h with hp
    cases h
    exact ⟨hy, hp⟩

/-- A frame whose path delivers it to firmware or the boot ROM is run. -/
theorem rcpGate_taken {op : Nat} {f : Frame} {s : State} (run : State → State) (h : taken f s = true) : rcpGate op f s run = run s := by
  unfold taken at h
  rw [Bool.and_eq_true, Bool.or_eq_true, beq_iff_eq, beq_iff_eq] at h
  unfold rcpGate
  rw [if_pos h.1]
  rcases h.2 with h2 | h2 <;> rw [h2]

/-- The session of a frame that is accepted. -/
theorem accepted_session {op : Nat} {f : Frame} {s : State} {x : Session} (h : accepted op f s x = true) :
    s.session f.sessionId.toNat = some x := by
  unfold accepted wellSent at h
  simp only [Bool.and_eq_true, decide_eq_true_eq] at h
  exact (sessionOf_some h.1.1.1.2.1.1.1.1).1

/-- An accepted command comes to step 16 of R64: it runs in a state in which its session has just been heard from. -/
theorem rcpRun_accepted {op : Nat} {f : Frame} {s : State} {x : Session} (hd : Handler) (h : accepted op f s x = true) :
    rcpRun op hd f s = rcpExecute op hd f { x with lastSeen := s.ctl.now } (seen f s) := by
  have hs := accepted_session h
  unfold accepted at h
  simp only [Bool.and_eq_true] at h
  obtain ⟨⟨⟨⟨ht, hw⟩, hf⟩, ha⟩, hz⟩ := h
  unfold rcpRun
  rw [rcpGate_taken _ ht]
  unfold wellSent at hw
  simp only [Bool.and_eq_true, decide_eq_true_eq, Bool.not_eq_true'] at hw
  obtain ⟨⟨⟨⟨hso, hk⟩, hmaj⟩, hmin⟩, hb⟩ := hw
  unfold freshRequest at hf
  simp only [Bool.and_eq_true, decide_eq_true_eq, Bool.not_eq_true'] at hf
  obtain ⟨⟨hc, hi⟩, hfl⟩ := hf
  unfold admissible at ha
  simp only [Bool.and_eq_true, decide_eq_true_eq, Bool.or_eq_true, Bool.not_eq_true'] at ha
  obtain ⟨⟨⟨⟨hp, ho⟩, hpr⟩, hn⟩, hall⟩ := ha
  have hcache : x.cache.find? (fun o => o.requestId == f.requestId.toNat) = none := by
    rw [List.find?_eq_none]; rw [List.any_eq_false] at hc; exact hc
  have hoff : offered (seen f s) f.path op = true := by simpa [offered, seen] using ho
  have hcat : catalogued op ≠ none := by
    intro hcn; unfold offered at ho; rw [hcn] at ho; cases ho
  have hall' : (seen f s).allInFlight = s.allInFlight := State.allInFlight_modSession s _ _ (fun _ => rfl)
  have href : rcpRefusal op f { x with lastSeen := s.ctl.now } (seen f s) = none := by
    unfold rcpRefusal
    have h1 : ¬ f.payload.length > x.maxPayload := by omega
    have h2 : (catalogued op).isNone = false := by
      cases hq : catalogued op with
      | none => exact absurd hq hcat
      | some _ => rfl
    have h3 : (((catalogued op).map Prod.fst).getD false && !x.priv) = false := by
      rcases hpr with h | h <;> simp [h]
    have h4 : ¬ (x.inFlight.length ≥ 256) := by omega
    have h5 : ¬ (s.allInFlight ≥ 16384) := by omega
    simp only [firstFail, hoff, hall', h1, h2, h3, h4, h5]
    decide
  have hfr : mustWait op { x with lastSeen := s.ctl.now } (seen f s) = false := by
    rw [Bool.not_eq_true'] at hz; simpa only [mustWait, seen, State.modSession_dbg] using hz
  unfold rcpSession
  rw [hso]
  dsimp only
  rw [if_neg (by cases hx : x.key <;> simp_all), if_neg (by simp [hmaj, hmin]), if_neg (by simp [hb])]
  unfold rcpReplay
  rw [hcache]
  dsimp only
  rw [hi, if_neg (by decide), if_neg (by omega)]
  show (match rcpRefusal op f { x with lastSeen := s.ctl.now } (seen f s) with
    | some e => _
    | none => _) = _
  rw [href]
  dsimp only
  show (if mustWait op { x with lastSeen := s.ctl.now } (seen f s) = true then _ else _) = _
  rw [hfr, if_neg (by decide)]
  rfl

/-- A row of one ACTION runs the command where the payload names that ACTION. -/
theorem rcpAction_accepted {op off act : Nat} {f : Frame} {s : State} {x : Session} (hd : Handler) (h : acceptedAs op off act f s x = true) :
    rcpAction op off act hd f s = rcpExecute op hd f { x with lastSeen := s.ctl.now } (seen f s) := by
  unfold acceptedAs at h
  simp only [Bool.and_eq_true, decide_eq_true_eq] at h
  unfold rcpAction
  rw [if_pos ⟨h.1.2, h.2⟩, rcpRun_accepted hd h.1.1]

theorem acceptedAs_accepted {op off act : Nat} {f : Frame} {s : State} {x : Session} (h : acceptedAs op off act f s x = true) :
    accepted op f s x = true := by
  unfold acceptedAs at h
  simp only [Bool.and_eq_true] at h
  exact h.1.1

/-! Completions (R78). -/

/-- A completion entered in the cache is its last entry. -/
theorem Session.cachePut_last (x : Session) (o : RcpOut) : (x.cachePut o).cache.getLast? = some o := by
  unfold Session.cachePut
  dsimp only
  split_ifs with h
  · have hn : ¬ (x.cache ++ [o]).length ≤ 1 := by omega
    rw [List.getLast?_drop, if_neg hn]
    simp
  · simp

/-- A completion leaves the session's other fields. -/
theorem Session.cachePut_inFlight (x : Session) (o : RcpOut) : (x.cachePut o).inFlight = x.inFlight := by
  unfold Session.cachePut; dsimp only; split_ifs <;> rfl

/-- The session's cache ends with the completion of a command that has ended. -/
theorem complete_cached {s : State} {sid : Nat} {x : Session} (rid op : Nat) (p : Path) (ip port st : Nat) (b : List Byte)
    (h : s.session sid = some x) :
    (s.complete sid rid op p ip port st b).session sid = some (x.cachePut (x.completion sid rid op st b)) := by
  unfold State.complete
  rw [h]
  dsimp only
  split_ifs
  · exact State.session_modSession_self _ h
  · rw [State.session_sendRcp]; exact State.session_modSession_self _ h

end Sys2Proof.Machine
end

