-- ==== Sys2Proof/WellFormed.lean ====
section
/-!
DEFINITION. Which commands and events are well formed: operands that the device can meet. A meaning is given for every command; these are the
ranges that the spec's fields and ports have.
-/
namespace Sys2Proof

/-- The X bit of a Pod instruction word, which says that an extension word follows (R95). -/
def wordX (w : Insn) : Bool := w.word.getLsbD 25

/-- An instruction as fetched: the extension word is there only where the X bit asks for one. -/
def insnOk (w : Insn) : Bool := wordX w || w.ext == 0

/-- A frame that passed steps 1 to 4 of R64 (R60 to R62): a MAC of 16 bytes where FLAGS.MAC is set and none otherwise, neither RSP nor EVENT, a
sender that its path can name. -/
def frameOk (f : Frame) : Bool :=
  decide (f.payload.length < 65536) && f.mac.length == (if f.flags.getLsbD 1 then 16 else 0) && !f.flags.getLsbD 0 && !f.flags.getLsbD 3 &&
    (match f.path with
      | .host => decide (f.srcIp < 2 ^ 128) && decide (f.srcPort < 65536)
      | .mctp => decide (f.srcIp < 256) && decide (f.srcPort < 8))

/-- Bytes that one datagram, Ethernet frame or message can hold. -/
def bytesOk (b : List Byte) : Bool := b.length ≤ 65535

/-- A datagram and its sender. -/
def datagramOk (d : Datagram) : Bool := bytesOk d.bytes && decide (d.srcIp < 2 ^ 128) && decide (d.srcPort < 65536)

/-- A RoCEv2 request whose fields fit their headers (R49, R51). -/
def roceReqOk (q : RoceReq) : Bool :=
  decide (q.qpn < 2 ^ 24) && decide (q.psn < 2 ^ 24) && decide (q.rkey < 2 ^ 32) && decide (q.addr < 2 ^ 64) && decide (q.length < 2 ^ 32)
    && decide (q.imm < 2 ^ 32) && decide (q.data.length < 2 ^ 32) && decide (q.prio < 8)

/-- A RoCEv2 response. -/
def roceRespOk (r : RoceResp) : Bool :=
  match r with
  | .ack => true
  | .readData d => decide (d.length < 2 ^ 32)
  | .nakAccess => true
  | .nakInvalid => true
  | .nakOperational => true
  | .nakSequence => true
  | .rnr => true

/-- The result of training: a package holds 32 or 64 GiB (R196). -/
def trainingOk (t : Training) : Bool :=
  match t with
  | .absent => true
  | .fail => true
  | .pass n => n == 32 || n == 64

/-- Whether a command is well formed. -/
def wellFormed (i : Instr) : Bool :=
  match i with
  | .speedMonWindow _ _ => true
  | .islandLockLoss _ => true
  | .islandRelease _ => true
  | .avsLoopIteration _ _ _ => true
  | .setSpeedTarget f => frameOk f
  | .getSpeed f => frameOk f
  | .getConfig f => frameOk f
  | .handshakeStallWatchdog u => decide (u < 0x2B8)
  | .hostLinkTraining _ => true
  | .hostLinkDown => true
  | .hostFrameReceive bytes => bytesOk bytes
  | .pfcPauseReceive _ _ => true
  | .ingressQueueResume qpn => decide (qpn < 2 ^ 64)
  | .roceInboundRequest q => roceReqOk q
  | .roceCnpReceive c => decide (c.qpn < 2 ^ 64) && decide (c.prio < 2 ^ 64)
  | .sqPoll qpn => decide (qpn < 2 ^ 64)
  | .roceResponseReceive qpn r => decide (qpn < 2 ^ 64) && roceRespOk r.resp && decide (r.prio < 2 ^ 64)
  | .roceAckTimeout qpn => decide (qpn < 2 ^ 64)
  | .qpCompletionEnter qpn => decide (qpn < 2 ^ 64)
  | .setPortConfig f => frameOk f
  | .setNetConfig f => frameOk f
  | .qpCreate f => frameOk f
  | .qpModify f => frameOk f
  | .qpDestroy f => frameOk f
  | .mrRegister f => frameOk f
  | .mrDeregister f => frameOk f
  | .rcpFrameReceive d => datagramOk d
  | .commandCompletion sid rid => decide (sid < 2 ^ 64) && decide (rid < 2 ^ 64)
  | .hello f => frameOk f
  | .openSession f => frameOk f
  | .openSessionMemoryExpiry ip port rid => decide (ip < 2 ^ 128) && decide (port < 65536) && decide (rid < 2 ^ 64)
  | .closeSession f => frameOk f
  | .keepalive f => frameOk f
  | .sessionIdleTimeout sid => decide (sid < 2 ^ 64)
  | .subscribe f => frameOk f
  | .getEvents f => frameOk f
  | .resume f => frameOk f
  | .salu _ w => insnOk w
  | .addi _ w => insnOk w
  | .shi _ w => insnOk w
  | .lih _ w => insnOk w
  | .sfp _ w => insnOk w
  | .br _ w => insnOk w
  | .jal _ w => insnOk w
  | .jalr _ w => insnOk w
  | .vint _ w => insnOk w
  | .vflt _ w => insnOk w
  | .vdot _ w => insnOk w
  | .vcvt _ w => insnOk w
  | .vperm _ w => insnOk w
  | .vcmp _ w => insnOk w
  | .vred _ w => insnOk w
  | .mask _ w => insnOk w
  | .ld _ w => insnOk w
  | .st _ w => insnOk w
  | .vld _ w => insnOk w
  | .vst _ w => insnOk w
  | .atom _ w => insnOk w
  | .fence _ w => insnOk w
  | .loadComplete _ _ _ => true
  | .vhash _ w => insnOk w
  | .hashs _ w => insnOk w
  | .vsort _ w => insnOk w
  | .vmerge _ w => insnOk w
  | .vtopk _ w => insnOk w
  | .acca _ w => insnOk w
  | .accAllocGrant _ => true
  | .accf _ w => insnOk w
  | .vaccadd _ w => insnOk w
  | .vaccmax _ w => insnOk w
  | .vaccmin _ w => insnOk w
  | .vaccrd _ w => insnOk w
  | .vaccwr _ w => insnOk w
  | .vaccz _ w => insnOk w
  | .ask _ w => insnOk w
  | .asknb _ w => insnOk w
  | .askOffer _ flow => decide (flow < 2 ^ 64)
  | .done _ w => insnOk w
  | .doneRetire _ => true
  | .post _ w => insnOk w
  | .postResume _ => true
  | .postnb _ w => insnOk w
  | .gsrchT _ w => insnOk w
  | .gsrchG _ w => insnOk w
  | .gbkt _ w => insnOk w
  | .gupd _ w => insnOk w
  | .gupdEnd _ _ => true
  | .jins _ w => insnOk w
  | .jprobe _ w => insnOk w
  | .jnext _ w => insnOk w
  | .embg _ w => insnOk w
  | .embu _ w => insnOk w
  | .proj _ w => insnOk w
  | .accst _ w => insnOk w
  | .tableIntakeJob _ w => insnOk w
  | .columnJob _ w => insnOk w
  | .joinJob _ w => insnOk w
  | .codecJob _ w => insnOk w
  | .fabricOperation _ w => insnOk w
  | .unitResume _ w => insnOk w
  | .waitu _ w => insnOk w
  | .waitany _ w => insnOk w
  | .imageLoad f => frameOk f
  | .imageUnload f => frameOk f
  | .flowCreate f => frameOk f
  | .flowDestroy f => frameOk f
  | .flowBindIngress f => frameOk f
  | .graphSubmit f => frameOk f
  | .graphCancel f => frameOk f
  | .flowStats f => frameOk f
  | .starvePromotion flow => decide (flow < 2 ^ 64)
  | .completionReleaseResume flow => decide (flow < 2 ^ 64)
  | .complRingPoll flow => decide (flow < 2 ^ 64)
  | .descriptorParityError flow k => decide (flow < 2 ^ 64) && decide (k < 2 ^ 64)
  | .podBusyWindow _ _ => true
  | .contextCreate f => frameOk f
  | .contextDestroy f => frameOk f
  | .map f => frameOk f
  | .unmap f => frameOk f
  | .retrainChannel f => frameOk f
  | .channelDrain f => frameOk f
  | .channelRetrainRestore f => frameOk f
  | .granuleCopyDone _ => true
  | .channelTrainingDone _ r => trainingOk r
  | .perBankRefresh _ => true
  | .zqCalibration _ => true
  | .dqsTracking _ => true
  | .legendCreate f => frameOk f
  | .legendDestroy f => frameOk f
  | .tableIntakeStart _ => true
  | .intakeBatchOutput _ => true
  | .intakeOutputResume _ => true
  | .tableIntakeEnd _ => true
  | .columnJobStart _ => true
  | .columnJobEnd _ => true
  | .joinJobStart _ => true
  | .joinJobEnd _ => true
  | .embTableCreate f => frameOk f
  | .partitionMapSet f => frameOk f
  | .embTablePrepare f => frameOk f
  | .embTableCommit f => frameOk f
  | .embTableCancel f => frameOk f
  | .embTableDestroy f => frameOk f
  | .embTableQuery f => frameOk f
  | .embRowReadDone _ k _ => decide (k < 2 ^ 64)
  | .embStepClose tbl => decide (tbl < 2 ^ 64)
  | .embDeltaReceive k => decide (k < 2 ^ 64)
  | .embTokenReceive k => decide (k < 2 ^ 64)
  | .embNoticeReceive k => decide (k < 2 ^ 64)
  | .embLostReceive k => decide (k < 2 ^ 64)
  | .embHomeStepClose tbl => decide (tbl < 2 ^ 64)
  | .coalesceBufferParity _ k => decide (k < 2 ^ 64)
  | .gazCreate f => frameOk f
  | .gazWrite f => frameOk f
  | .gazSegtags f => frameOk f
  | .gazDestroy f => frameOk f
  | .gazScrubCompare _ k _ => decide (k < 2 ^ 64)
  | .gazThrottleWindow => true
  | .gazPowerWindow => true
  | .gazPowerWrite f => frameOk f
  | .gazReload f => frameOk f
  | .gazEvacuate f => frameOk f
  | .gazRestore f => frameOk f
  | .gazScrubPeriod f => frameOk f
  | .projOpStart _ => true
  | .projSlabDone _ => true
  | .codecQueuePlace _ => true
  | .codecLaneStart _ _ => true
  | .codecJobEnd _ _ => true
  | .frameSessionOpen f => frameOk f
  | .frameSessionClose f => frameOk f
  | .frameRingPoll id => decide (id < 2 ^ 64)
  | .frameStoreGrant id k => decide (id < 2 ^ 64) && decide (k < 2 ^ 64)
  | .frameDecodeTurn id k => decide (id < 2 ^ 64) && decide (k < 2 ^ 64)
  | .sampleEnd id k => decide (id < 2 ^ 64) && decide (k < 2 ^ 64)
  | .sampleItemRelease id k => decide (id < 2 ^ 64) && decide (k < 2 ^ 64)
  | .batchEmit id => decide (id < 2 ^ 64)
  | .manifestRingPoll id => decide (id < 2 ^ 64)
  | .batchAttach f => frameOk f
  | .batchFlush f => frameOk f
  | .batchDetach f => frameOk f
  | .fabricLinkTraining _ => true
  | .initSend _ => true
  | .initReceive _ f => f.bytes.length ≤ 16384
  | .initRetry _ => true
  | .fabricDataReceive _ f => f.bytes.length ≤ 16384
  | .nakReceive _ f => f.bytes.length ≤ 16384
  | .idleSend _ => true
  | .linkSilenceTimeout _ => true
  | .fabricLinkFail _ => true
  | .discoverySettleTimer => true
  | .discoveryStartReceive _ => true
  | .discoveryReportTimer => true
  | .discoveryReportReceive _ => true
  | .discoveryTableReceive _ => true
  | .discoveryTableAckReceive _ => true
  | .discoveryCommitReceive _ => true
  | .remoteWriteReceive _ => true
  | .readReqReceive _ => true
  | .atomicReceive _ => true
  | .sendReceive _ => true
  | .remoteResponseReceive _ => true
  | .remoteRequestTimeout req => decide (req < 2 ^ 64)
  | .fabricStatus f => frameOk f
  | .fabricRediscover f => frameOk f
  | .bootRomStart => true
  | .surveyorRelockPath => true
  | .firmwareStart training => (training.length == 128 && training.all trainingOk)
  | .bootLoadWrite f => frameOk f
  | .bootLoadRun f => frameOk f
  | .bootLoadAbort f => frameOk f
  | .fwUpdateWrite f => frameOk f
  | .fwUpdateActivate f => frameOk f
  | .handoverReady => true
  | .handoverTimeout => true
  | .fwUpdateCommit f => frameOk f
  | .fwUpdateAbort f => frameOk f
  | .fwUpdateConfig f => frameOk f
  | .getCerts f => frameOk f
  | .certRotate f => frameOk f
  | .attest f => frameOk f
  | .podQuarantine f => frameOk f
  | .quarantineAbandonTimer _ => true
  | .podSelftest f => frameOk f
  | .podReinstate f => frameOk f
  | .serviceQuery f => frameOk f
  | .engineReset f => frameOk f
  | .portRelink f => frameOk f
  | .relinkTimeout => true
  | .avsRecal f => frameOk f
  | .avsRecalTimer trims => trims.length == 32
  | .claim f => frameOk f
  | .release f => frameOk f
  | .injectArm f => frameOk f
  | .injectDisarm f => frameOk f
  | .contextCountersRead f => frameOk f
  | .snapshotRead f => frameOk f
  | .smpCtlWrite f => frameOk f
  | .sampleTake _ => true
  | .traverseStart f => frameOk f
  | .traverseStop f => frameOk f
  | .traverseStatus f => frameOk f
  | .traverseRead f => frameOk f
  | .traverseRecord _ => true
  | .traverseTrigger _ => true
  | .triggerPulseEnd => true
  | .waitGraph f => frameOk f
  | .waitGraphSecondRead sid => decide (sid < 2 ^ 64)
  | .freezeNow f => frameOk f
  | .freezeArm f => frameOk f
  | .freezeDisarm f => frameOk f
  | .freezeMarker u => decide (u < 0x32D)
  | .freezeCutTimeout => true
  | .thaw f => frameOk f
  | .freezeTimeoutThaw => true
  | .railBelowThreshold _ => true
  | .porRelease _ => true
  | .resetNCoreThreshold => true
  | .resetNSystemThreshold => true
  | .resetNRelease _ => true
  | .resetCore f => frameOk f
  | .resetSystem f => frameOk f
  | .resetDriveStart => true
  | .resetDriveEnd => true
  | .refclkStop => true
  | .refclkReturn => true
  | .railMonitorWindow _ _ => true
  | .thermalSensorWindow temps => temps.length == 38
  | .getThermal f => frameOk f
  | .tachWindow edges => edges.length == 8
  | .mctpMessageReceive bytes => bytesOk bytes
  | .setEndpointId bytes => bytesOk bytes
  | .getEndpointId bytes => bytesOk bytes
  | .getEndpointUuid bytes => bytesOk bytes
  | .getMctpVersionSupport bytes => bytesOk bytes
  | .getMessageTypeSupport bytes => bytesOk bytes
  | .getVendorDefinedMessageSupport bytes => bytesOk bytes
  | .alertResponseRead => true
  | .smbAddrWrite f => frameOk f
  | .jtagBypass => true
  | .jtagIdcode => true
  | .jtagSamplePreload => true
  | .jtagExtest => true
  | .jtagClamp => true
  | .jtagHighz => true
  | .readReg f => frameOk f
  | .writeReg f => frameOk f
  | .gpioOutWrite f => frameOk f
  | .getPortStatus f => frameOk f
  | .railGood _ => true
  | .pllLocked _ => true
  | .storeComplete _ k _ => decide (k < 2 ^ 64)
  | .nmuRowWriteDone _ _ => true
  | .reservationRebuilt => true

end Sys2Proof
end

