-- ==== Sys2Proof/Tests/Slice0.lean ====
section
/-!
SUPPORT. Tests: ill-formed operands refused, commands on small states against values worked out from the spec, and a witness for the hypotheses of
each statement.
-/
namespace Sys2Proof.Tests
open Sys2Proof Sys2Proof.Machine

/-! Small states. -/

/-- A privileged session without a key. -/
def sess : Session where
  path := .host
  ip := 0xFFFF0A000002
  port := 5000
  verMajor := 1
  verMinor := 0
  priv := true
  ctx := 1
  maxPayload := 8192
  key := none
  idle := 60
  lastSeen := 0
  boot := false
  cache := []
  floor := 0
  inFlight := []
  mask := 63
  evSeq := 0
  events := []
  unsent := []
  fetched := 0
  latches := []

/-- A context. -/
def ctx1 : Ctx := ⟨false, 0, [⟨0x10000, 0x10000, .alloc, 0, true, true, true, false, [⟨0x10000, 0x20000⟩], false⟩], 0, ⟨0, 0, 0, 0, 0, 0⟩, false⟩

/-- A machine whose firmware runs, every island released, the Host Port's link up, context 1 mapped, session 1 open. -/
def live : State := { State.reset with
  ctl := { Ctl.reset with held := none, surveyor := .ready, islandUp := BitVec.allOnes 47, fabricOn := true }
  host := { HostPort.reset with link := .up, v4Valid := true, v4Addr := 0x0A000001, v4Prefix := 8 }
  rcp := ⟨[(1, sess)], [], [], [], [], 0⟩
  mem := { State.reset.mem with
    contexts := [(0, ⟨false, 0, [], 0, ⟨0, 0, 0, 0, 0, 0⟩, false⟩), (1, ctx1)]
    memGib := 64
    density := 32 } }

/-- A request of session 1 with a payload. -/
def req (p : List Byte) : Frame := ⟨1, 0, 1, 1, 0, 0, 0, p, [], .host, 0xFFFF0A000002, 5000⟩

/-- What a step answers, where it answers a next state. -/
def after (o : Host.Outcome State Fault Refusal) : State :=
  match o with
  | .next s => s
  | .fault _ => State.reset
  | .refused _ => State.reset

/-- Its session 1. -/
def sess1 (s : State) : Session := (s.session 1).getD sess

/-- An image bound to thread 0. -/
def img1 : Image := ⟨1, 1, 1, false, false, [], 0x10000, 0x1000, 0, 0, 0, 0, 0, 0, 0, List.replicate 16 0xFFFFFFFF, none, 1⟩

/-- Thread 0 running at 0x10000. -/
def thr : Thread := { Thread.init with st := .running, pc := 0x10000, image := some 1 }

/-- A machine whose thread 0 is th and whose code at 0x10000 is one instruction. -/
def podSt (th : Thread) (w : Insn) : State := { live with
  mem := live.mem.write 0x20000 (leb 4 w.word.toNat ++ leb 4 w.ext.toNat)
  pods := ⟨[(0, th)], [], [(1, img1)]⟩ }

/-- A word of format A. -/
def wA (m d a b mk t f : Nat) : Insn :=
  ⟨BitVec.ofNat 32 (m * 2 ^ 26 + d * 2 ^ 20 + a * 2 ^ 15 + b * 2 ^ 10 + mk * 2 ^ 7 + t * 2 ^ 4 + f), 0⟩

/-- A word of format A with an extension. -/
def wX (m d a mk t f : Nat) (x : Word) : Insn :=
  ⟨BitVec.ofNat 32 (m * 2 ^ 26 + 2 ^ 25 + d * 2 ^ 20 + a * 2 ^ 15 + mk * 2 ^ 7 + t * 2 ^ 4 + f), x⟩


/-- A machine whose context 1 maps nothing and whose channels are all ACTIVE. -/
def bare : State := { live with mem := { live.mem with
  contexts := [(0, ⟨false, 0, [], 0, ⟨0, 0, 0, 0, 0, 0⟩, false⟩), (1, { ctx1 with maps := [] })]
  channels := (List.range 128).map (fun c => (c, { Channel.init with state := .active })) } }

set_option maxRecDepth 20000 in
theorem bare_page : bare.allocate 0xFF (2 ^ 21) (2 ^ 21) false = some ([⟨2 ^ 21, 0⟩], []) :=
  allocate_first _ _ _ (by decide) (by decide) (by decide) (by decide) (by decide) (by decide)

/-! Ill-formed operands are refused, one for each check of WellFormed. -/

theorem test_extension_word_without_X_refused : wellFormed (.salu 0 ⟨0x04000000, 1⟩) = false ∧ wellFormed (.salu 0 ⟨0x06000000, 1⟩) = true := by decide
theorem test_frame_mac_without_flag_refused : wellFormed (.keepalive { req [] with mac := zeros 16 }) = false ∧ wellFormed (.keepalive (req [])) = true := by decide
theorem test_frame_flag_without_mac_refused : wellFormed (.keepalive { req [] with flags := 2 }) = false := by decide
theorem test_frame_response_refused : wellFormed (.keepalive { req [] with flags := 1 }) = false := by decide
theorem test_frame_event_refused : wellFormed (.keepalive { req [] with flags := 8 }) = false := by decide
theorem test_frame_host_port_refused : wellFormed (.keepalive { req [] with srcPort := 65536 }) = false := by decide
theorem test_frame_host_address_refused : wellFormed (.keepalive { req [] with srcIp := 2 ^ 128 }) = false := by decide
theorem test_frame_mctp_sender_refused : wellFormed (.keepalive { req [] with path := .mctp, srcIp := 256, srcPort := 0 }) = false ∧
    wellFormed (.keepalive { req [] with path := .mctp, srcIp := 8, srcPort := 8 }) = false := by decide
theorem test_frame_payload_too_long_refused (p : List Byte) (h : p.length = 65536) : wellFormed (.keepalive { req [] with payload := p }) = false := by
  simp [wellFormed, frameOk, h]
theorem test_bytes_too_long_refused (b : List Byte) (h : b.length = 65536) : wellFormed (.hostFrameReceive b) = false ∧
    wellFormed (.mctpMessageReceive b) = false := by simp [wellFormed, bytesOk, h]
theorem test_datagram_sender_refused : wellFormed (.rcpFrameReceive ⟨[], .host, 2 ^ 128, 0⟩) = false ∧
    wellFormed (.rcpFrameReceive ⟨[], .host, 0, 65536⟩) = false := by decide
theorem test_roce_request_refused : ∀ q ∈ ([⟨2 ^ 24, 0, .send, 0, 0, 0, [], 0, false, 0⟩, ⟨0, 0, .send, 2 ^ 32, 0, 0, [], 0, false, 0⟩, ⟨0, 0, .send, 0, 0, 0, [], 0, false, 8⟩] : List RoceReq), wellFormed (.roceInboundRequest q) = false := by decide
theorem test_training_package_refused : wellFormed (.channelTrainingDone 0 (.pass 48)) = false ∧ wellFormed (.channelTrainingDone 0 (.pass 32)) = true := by decide
theorem test_training_count_refused : wellFormed (.firmwareStart []) = false := by decide
theorem test_trims_count_refused : wellFormed (.avsRecalTimer []) = false := by decide
theorem test_temperature_count_refused : wellFormed (.thermalSensorWindow [0]) = false := by decide
theorem test_tachometer_count_refused : wellFormed (.tachWindow [0]) = false := by decide
theorem test_watchdog_unit_refused : wellFormed (.handshakeStallWatchdog 0x2B8) = false := by decide
theorem test_freeze_part_refused : wellFormed (.freezeMarker 0x32D) = false := by decide
theorem test_wide_number_refused : wellFormed (.sqPoll (2 ^ 64)) = false ∧ wellFormed (.batchEmit (2 ^ 64)) = false := by decide
theorem test_link_frame_too_long_refused (b : List Byte) (h : b.length = 16385) : wellFormed (.initReceive 0 ⟨b⟩) = false := by
  simp [wellFormed, h]

/-! No word spells a command: the table gives its rows no bits. -/

theorem test_no_word_spells_a_command (n w : Nat) : decodeTableWord n w = none := rfl
theorem test_fetch_word_changes_nothing (n w : Nat) (s : State) : s.withFetchWord n w = s := rfl

/-! The spec's worked examples, and published check values of the standards it names. -/

/-- The loop's step 1 of 01_architecture.md: 6,406 below 6,656 raises VCORE from 0.745 V to 0.750 V. -/
def loopSt (n : Nat) : State := { live with clk := { live.clk with
  mons := (List.replicate 32 ⟨0xFFFFF, true⟩).set 7 ⟨BitVec.ofNat 20 n, true⟩, vreq := 745 } }
theorem test_loop_raises_vcore : ((after (exec (.avsLoopIteration 745 644 false) (loopSt 6406))).clk.vreq,
    (after (exec (.avsLoopIteration 745 644 false) (loopSt 6406))).clk.limited) = (750, false) := by decide +kernel
/-- Its step 3: 6,664 lies in the hold band. -/
theorem test_loop_holds_vcore : (after (exec (.avsLoopIteration 745 644 false) (loopSt 6664))).clk.vreq = 745 := by decide
/-- The device's answer to HELLO in 02_ryupin_control_protocol.md. -/
theorem test_hello_payload :
    (match (after (exec (.hello { req [1, 3, 0, 0x20, 0, 0, 0, 0] with sessionId := 0 })
        { live with fw := { live.fw with fuses := { live.fw.fuses with serial := 0x000000A35C170E42 } } })).sent.head? with
      | some (.rcp _ _ _ _ _ _ o) => some (o.opcode, o.flags, o.payload)
      | _ => none) = some (1, 1, [1, 0, 0, 0x20, 1, 1, 0, 0, 0x42, 0x0E, 0x17, 0x5C, 0xA3, 0, 0, 0]) := by decide
/-- Narrowing to FP8 in 04_numerics.md: values with their flags. -/
theorem test_fp8_500 : cvtFloat fp32 e4m3 .near false 0x43FA0000 = ⟨0x7F, flOF + flNX⟩ ∧ cvtFloat fp32 e4m3 .near true 0x43FA0000 = ⟨0x7E, flSAT + flNX⟩ ∧
    cvtFloat fp32 e5m2 .near false 0x43FA0000 = ⟨0x60, flNX⟩ := by decide
theorem test_fp8_300 : cvtFloat fp32 e4m3 .near false 0x43960000 = ⟨0x79, flNX⟩ ∧ cvtFloat fp32 e5m2 .near false 0x43960000 = ⟨0x5D, flNX⟩ ∧
    cvtFloat fp32 e4m3 .near false 0x80000000 = ⟨0x80, 0⟩ := by decide
/-- Stochastic rounding of 300 to E5M2: up from r = 0x5000. -/
theorem test_fp8_stochastic : (cvtFloat fp32 e5m2 (.stoch 0x5000) false 0x43960000).val = 0x5D ∧
    (cvtFloat fp32 e5m2 (.stoch 0x4FFF) false 0x43960000).val = 0x5C := by decide
/-- The 4-bit row of 04_numerics.md. -/
theorem test_quantised_row : let q := quantRow 4 [0xBF800000, 0xBF000000, 0, 0x3F400000, 0x40200000, 0x40300000, 0x3F19999A, 0x3FA66666] (fun _ => none)
    (q.1, q.2.1, q.2.2.1) = (0x3400, 0xBC00, [0, 2, 4, 7, 14, 15, 6, 9]) := by decide
/-- The two granules of 06_memory_and_translation.md. -/
theorem test_physical_map : [0x001234567000, 0x001234568000].map (fun pa => (ctrlOf pa, channelOf pa, localOf pa)) =
    [(9, 36, 0x2468A000), (6, 24, 0x2468A000)] := by decide
/-- The VSORT of 09_sort_and_select.md: its word, and the payloads in both directions. -/
def vsortKeys : List (Word × Word) :=
  [(0x40000000, 0), (0x7FC00000, 1), (0x80000000, 2), (0x3F800000, 3), (0, 4), (0xFFC00001, 5), (0xBF800000, 6), (0x3F800000, 7)]
set_option maxRecDepth 20000 in
theorem test_vsort_order : (netSort .float false vsortKeys).map Prod.snd = [6, 2, 4, 3, 7, 0, 1, 5] ∧
    (netSort .float true vsortKeys).map Prod.snd = [0, 3, 7, 2, 4, 6, 1, 5] := by decide
theorem test_vsort_word : rowVsort.mine ⟨0xC8410090, 0⟩ = true ∧ insD ⟨0xC8410090, 0⟩ = 4 ∧ insA ⟨0xC8410090, 0⟩ = 2 := by decide
set_option maxRecDepth 20000 in
/-- The code stream of the seven-byte frame of 13_dictionary_codec.md. -/
theorem test_gds_codes : gdsPack ((gdsCompress [0x41, 0x42, 0x41, 0x42, 0x41, 0x42, 0x41] 7 0x0C0D).1) = [0x41, 0x84, 0x08, 0x24, 0x18, 0x10] := by decide
/-- The row of 10_embedding_tables.md after its update. -/
theorem test_embedding_row :
    (({ (tableFrom 1 (zeros 64)) with d := 8, bits := 8, opt := 1, rows := 100 } : EmbTable).updated
      (leb 4 0x3E800000 ++ leb 4 0x322BCC77 ++ zeros 24) 18 ((List.range 8).map (fun i => if i % 2 = 0 then 0x3F800000 else 0xBF800000))
      ([0, 0x2C, 0, 0xBC, 0x11, 0, 0, 0, 0, 8, 0x10, 0x18, 0x20, 0x28, 0x30, 0x40] ++ zeros 16) 0).1 =
    [0x85, 0x24, 0, 0xBD, 0x12, 0, 0, 0, 0, 0x39, 0x39, 0x71, 0x71, 0xAA, 0xAA, 0xFF, 0, 0, 0x80, 0x3F] ++ zeros 12 := by decide +kernel
/-- The detector of channel 36 in 17_service_in_operation.md, and the rejected write of 21_register_map.md. -/
theorem test_detector_identifier : detId 1 0x24 = 0x01002400 := by decide
theorem test_gaz_power_write_refused :
    firstFail (writeRegFails (req (leb 4 0x00020104 ++ leb 4 0x01000000)) 1 live) = some (errAt stArg 4) ∧ errPayload (errAt stArg 4) = [0, 0, 4, 0, 0, 0, 0, 0] := by decide
/-- The check value of CRC-32C (RFC 3720), and SHA-384 of the empty string (FIPS 180-4). -/
theorem test_crc32c : crc32c [0x31, 0x32, 0x33, 0x34, 0x35, 0x36, 0x37, 0x38, 0x39] = 0xE3069283 := by decide +kernel
theorem test_sha384_empty : (sha384 []).take 8 = [0x38, 0xB0, 0x60, 0xA7, 0x51, 0xAC, 0x96, 0x38] := by decide +kernel
/-- xxHash64 of nothing with seed 0, and Murmur3 of nothing (the published values of both). -/
theorem test_hash_empty : xxHash64 [] 0 = 0xEF46DB3751D8E999 ∧ murmur3 [] 0 = 0 := by decide
/-- SipHash-2-4 of its authors' test key over the byte 00. -/
theorem test_siphash : sipHash [0] 0x0706050403020100 0x0F0E0D0C0B0A0908 = 0x74F839C593DC67FD := by decide
/-- The MCTP header and addresses of 20_pins_and_package.md: a HELLO is taken by EID 0x1A. -/
theorem test_mctp_addressed : mctpMine ([0x01, 0x1A, 0x08, 0xC8, 0x7F]) { live with pins := { live.pins with eid := 0x1A } } = true ∧
    mctpMine ([0x01, 0x1B, 0x08, 0xC8, 0x7F]) { live with pins := { live.pins with eid := 0x1A } } = false := by decide

/-! Single steps. -/

theorem test_idle_step_is_a_tick : (after (step live)).ctl.now = 1 ∧ (after (step live)).ctl.surveyorTime = 16 := by decide
theorem test_step_takes_front : (after (step { live with pending := [.triggerPulseEnd, .hostLinkDown] })).pending = [.hostLinkDown] := by decide
theorem test_core_reset_keeps_memory :
    let s := after (exec .resetNCoreThreshold (podSt thr (wA 1 2 3 4 0 0 0)))
    s.rcp.sessions = [] ∧ s.mem.byte 0x20003 ≠ 0 ∧ s.ctl.held = some .core := by decide

theorem witness_StepRunsFrontCommand : live.pending = [] ∧ live.ctl.refclk = true := by decide

theorem witness_CompletionSentAndCached : live.session (req []).sessionId.toNat = some sess ∧ live.ctl.surveyor ≠ .paused ∧
    live.reaches (req []).path (req []).srcIp = true ∧ live.paused live.host.rcpPriority = false ∧
    live.reaches (req []).path 0xFFFF0B000002 = false ∧
    (let s := { live with host := { live.host with paused := 255, pfcEnable := 255 } }
     s.reaches (req []).path (req []).srcIp = true ∧ s.paused s.host.rcpPriority = true) := by decide

theorem witness_SessionKeepaliveSubscribeEvents :
    accepted 0x0004 (req []) live sess = true ∧ accepted 0x0005 (req [63, 0, 0, 0, 0, 0, 0, 0]) live sess = true ∧
    accepted 0x0006 (req [1, 0, 0, 0, 0, 0, 0, 0]) live sess = true ∧
    (let x := { sess with evSeq := 1, events := [⟨1, 0, 16, []⟩] }
     accepted 0x0006 (req [1, 0, 0, 0, 0, 0, 0, 0]) { live with rcp := ⟨[(1, x)], [], [], [], [], 0⟩ } x = true) := by decide

theorem witness_HelloAndSessionLifetime :
    (let f := { req [1, 1, 0, 2, 0, 0, 0, 0] with sessionId := 0 }
     taken f live = true ∧ fldZero f.payload 4 4 = true ∧ fld f.payload 2 2 = 512) ∧
    (let f := { req [2, 2, 0, 32, 0, 0, 0, 0] with sessionId := 0 }
     taken f live = true ∧ fld f.payload 0 1 = 2 ∧ fld f.payload 2 2 = 8192) ∧
    (let f := { req [0, 0, 1, 0, 0, 0, 0, 2] with sessionId := 0 }
     taken f live = true ∧ frameHeaderBad f false = false ∧ live.rcp.opens = [] ∧ live.allInFlight < 16384 ∧ firstFail (openFails f live) = none) ∧
    accepted 0x0003 (req []) live sess = true ∧ live.session 1 = some sess ∧
    (let s := { live with ctl := { live.ctl with now := 6000000000 } }
     sess.lastSeen + sess.idle * 100000000 ≤ s.ctl.now) ∧ live.ctl.now < sess.lastSeen + sess.idle * 100000000 := by
  refine ⟨?_, ?_, ?_, ?_, ?_, ?_, ?_⟩ <;> decide

/-- A KEEPALIVE of session 1 as bytes, without its CRC. -/
def keepBytes : List Byte := headerBytes 1 0 1 1 4 0 0 0 (zeros 6)

set_option maxRecDepth 20000 in
theorem witness_FrameReceptionChecksInOrder :
    live.canReceive .host = true ∧ live.canFinish = true ∧
    (let b := keepBytes ++ leb 4 (crc32c keepBytes)
     36 ≤ b.length ∧ b.length = frameLen b ∧ fld b 0 2 = 0x5259 ∧ fld b (b.length - 4) 4 = crc32c (b.take (b.length - 4)) ∧
     bit (fld b 0x12 2) 0 = false ∧ bit (fld b 0x12 2) 3 = false ∧ live.ctl.surveyor = .ready ∧
     (let c := headerBytes 1 0 1 1 4 1 0 0 (zeros 6); let d := c ++ leb 4 (crc32c c)
      d.length = frameLen d ∧ fld d (d.length - 4) 4 = crc32c (d.take (d.length - 4)) ∧ bit (fld d 0x12 2) 0 = true) ∧
     ({ live with ctl := { live.ctl with surveyor := .paused } }).canReceive .host = true ∧
     ({ live with ctl := { live.ctl with surveyor := .held } }).canFinish = false ∧
     fld (keepBytes ++ [0, 0, 0, 0]) 32 4 ≠ crc32c keepBytes ∧ fld (5 :: b) 0 2 ≠ 0x5259) ∧
    0 < (req [1]).payload.length ∧ fld (req [1]).payload 0 1 = 1 ∧
    (let o : RcpOut := ⟨1, 0, 1, 1, 4, 1, 0, [], []⟩
     let x := { sess with cache := [o] }
     let s := { live with rcp := ⟨[(1, x)], [], [], [], [], 0⟩ }
     taken (req []) s = true ∧ wellSent 4 (req []) s x = true ∧ x.cache.find? (fun o => o.requestId == (req []).requestId.toNat) = some o) ∧
    (let x := { sess with inFlight := [⟨1, 4, .host, 0, 0, .recal, 0⟩] }
     let s := { live with rcp := ⟨[(1, x)], [], [], [], [], 0⟩ }
     wellSent 4 (req []) s x = true ∧ x.cache.any (fun o => o.requestId == 1) = false ∧
       x.inFlight.any (fun c => c.rid == (req []).requestId.toNat) = true) := by
  refine ⟨?_, ?_, ?_, ?_, ?_, ?_, ?_⟩ <;> decide

set_option maxRecDepth 20000 in
theorem witness_PortAndNetworkConfiguration :
    (let f := req ([7, 255, 6, 0, 0, 0, 0, 0] ++ (List.range 64).map (fun i => BitVec.ofNat 8 (i / 8)))
     accepted 0x0011 f live sess = true ∧ passes (setPortConfigFails f (seen f live)) = true) ∧
    (let f := req ([1] ++ zeros 127)
     accepted 0x0012 f live sess = true ∧ passes (setNetConfigFails f) = true) ∧
    (let f := req (zeros 128)
     accepted 0x0012 f live sess = true ∧ passes (setNetConfigFails f) = true) ∧
    (accepted 0x0010 (req [0, 0, 0, 0, 0, 0, 0, 0]) live sess = true ∧ accepted 0x0010 (req [12, 0, 0, 0, 0, 0, 0, 0]) live sess = true) ∧
    accepted 0x0100 (req []) live sess = true := by
  refine ⟨?_, ?_, ?_, ?_, ?_⟩ <;> decide

set_option maxRecDepth 20000 in
theorem witness_ControlSpaceRegisters :
    (let f := req [0, 0x10, 0, 0, 1, 0, 0, 0]
     accepted 0x0101 f live sess = true ∧ passes (readRegFails f sess) = true ∧ latches 0x1000 = false ∧ sess.latches.find 0x1000 = none) ∧
    (let f := req [8, 0, 0, 0, 1, 0, 0, 0]
     accepted 0x0101 f live sess = true ∧ passes (readRegFails f sess) = true ∧ latches 8 = true) ∧
    (let f := req [12, 0, 0, 0, 1, 0, 0, 0]
     let x := { sess with latches := [(12, 5)] }
     accepted 0x0101 f { live with rcp := ⟨[(1, x)], [], [], [], [], 0⟩ } x = true ∧ passes (readRegFails f x) = true ∧ latches 12 = false ∧
       x.latches.find 12 = some 5) ∧
    (let f := req [0, 0x10, 0, 0, 1, 0, 0, 0]
     accepted 0x0102 f live sess = true ∧ passes (writeRegFails f 1 (seen f live)) = true ∧ namedRegs.contains 0x1000 = false) ∧
    (let f := req [4, 1, 2, 0, 1, 0, 0, 0]
     accepted 0x0102 f live sess = true ∧ passes (writeRegFails f 1 (seen f live)) = true) ∧
    (let f := req [0, 0x50, 0x40, 0, 0, 0, 0, 0]
     passes (writeRegFails f 1 (seen f live)) = true) ∧
    (let f := req [0x84, 0, 0x50, 0, 0, 0, 0, 0]
     passes (writeRegFails f 1 (seen f live)) = true) ∧
    (let f := req [0, 1, 0x50, 0, 0xAC, 0, 0, 0]
     let s := { live with svc := { live.svc with owners := [(10, ⟨1, false, 0, 0⟩)] } }
     accepted 0x0102 f s sess = true ∧ passes (writeRegFails f 1 (seen f s)) = true) ∧
    (let f := req ([0, 1, 1, 0] ++ zeros 12)
     acceptedAs 0x0904 0 0 f live sess = true ∧ passes (countersFails (seen f live) sess f.payload) = true) ∧
    (let f := req ([1, 0, 0, 0, 0, 0, 0x40, 0, 2, 0, 0, 0] ++ zeros 4)
     acceptedAs 0x0904 0 1 f live sess = true ∧ passes (countersFails (seen f live) sess f.payload) = true) := by
  refine ⟨?_, ?_, ?_, ?_, ?_, ?_, ?_, ?_, ?_, ?_⟩ <;> decide

theorem witness_SpeedAndThermalQueries :
    accepted 0x0104 (req [70, 0, 0, 0, 0, 0, 0, 0]) live sess = true ∧ accepted 0x0104 (req [130, 0, 0, 0, 0, 0, 0, 0]) live sess = true ∧
    fldZero (req [130, 0, 0, 0, 0, 0, 0, 0]).payload 1 7 = true ∧ accepted 0x0103 (req []) live sess = true ∧
    accepted 0x0A01 (req []) live sess = true ∧ live.clk.temps.length = 38 ∧ live.clk.rails.length = 6 := by decide

/-- A broadcast frame of 64 bytes of an EtherType nobody hears, without its FCS. -/
def bcast : List Byte := List.replicate 6 0xFF ++ zeros 6 ++ [0x88, 0xB5] ++ zeros 46

set_option maxRecDepth 20000 in
theorem witness_HostLinkAndReceivedFrames :
    (let s := { live with host := { live.host with link := .training } }
     s.up islHost = true ∧ s.host.link = .training ∧ (s.host.advertise &&& 7).getLsbD 0 = true ∧
     (s.host.advertise &&& 4).getLsbD 2 = true ∧ (∀ k, k < 2 → (s.host.advertise &&& 4).getLsbD k = false) ∧ s.svc.relink.find 0 = none) ∧
    (live.host.link = .up ∧ live.linkUp = true ∧ live.armed 0x0B 0 = none) ∧
    (let b := bcast ++ leb 4 (fcs bcast)
     le (lastN 4 b) = fcs (b.take (b.length - 4)) ∧ b.length ≤ 9216 ∧ live.hearsMac (b.take 6) = true) ∧
    le (lastN 4 (bcast ++ [0, 0, 0, 0])) ≠ fcs ((bcast ++ [0, 0, 0, 0]).take 60) ∧
    live.hearsMac [2, 0, 0, 0, 0, 1] = false ∧
    live.host.pfcEnable.getLsbD 7 = true ∧ live.host.txq = [] := by
  refine ⟨?_, ?_, ?_, ?_, ?_, ?_⟩ <;> decide

/-- A queue pair of context 1 without a send queue. -/
def qp1 : Qp where
  ctx := 1
  session := 1
  prio := 0
  sqEntries := 0
  sqAddr := 0
  prodAddr := 0
  consAddr := 0
  complFlow := 0xFFFFFFFF
  state := .init
  mtu := 1024
  remoteQpn := 0
  rqPsn := 0
  remoteIp := 0xFFFF0A000002
  src := 0xFFFF0A000001
  nakSent := false
  sqPsn := 0
  timeoutUs := 0
  retry := 0
  rnrRetry := 0
  retriesLeft := 0
  rnrLeft := 0
  taken := 0
  outstanding := []
  held := []
  rate := 65536
  rateTime := 0
  destroying := false
  ingress := none

/-- A machine with one queue pair. -/
def liveQp (q : Qp) : State := { live with roce := ⟨[(2, q)], [(1, ⟨1, 0x10000, 0x1000, 3⟩)], [1], []⟩ }

set_option maxRecDepth 20000 in
theorem witness_QueuePairAndRegionCommands :
    (let f := req ([0, 0, 0, 0, 0, 0, 0, 0] ++ zeros 24 ++ [255, 255, 255, 255] ++ zeros 12)
     accepted 0x0013 f live sess = true ∧ passes (qpCreateFails f sess (seen f live)) = true) ∧
    (let f := req ([2, 0, 0, 0, 1, 0, 0, 0] ++ zeros 8 ++ zeros 10 ++ [0xFF, 0xFF, 10, 0, 0, 2] ++ zeros 16)
     accepted 0x0014 f (liveQp qp1) sess = true ∧ passes (qpModifyFails f sess (seen f (liveQp qp1))) = true) ∧
    (let f := req ([2, 0, 0, 0, 2, 0, 0, 0] ++ zeros 24 ++ [0, 0, 0, 0, 4, 0, 0, 0, 7, 7] ++ zeros 6)
     let s := liveQp { qp1 with state := .rtr }
     accepted 0x0014 f s sess = true ∧ passes (qpModifyFails f sess (seen f s)) = true) ∧
    (let f := req ([2, 0, 0, 0, 3] ++ zeros 43)
     accepted 0x0014 f (liveQp qp1) sess = true ∧ passes (qpModifyFails f sess (seen f (liveQp qp1))) = true) ∧
    (let f := req ([2] ++ zeros 7)
     accepted 0x0015 f (liveQp qp1) sess = true ∧ passes (qpDestroyFails f sess (seen f (liveQp qp1))) = true) ∧
    (let f := req ([0, 0, 1, 0, 0, 0, 0, 0, 1] ++ zeros 7 ++ [3] ++ zeros 7)
     accepted 0x0016 f live sess = true ∧ passes (mrRegisterFails f (seen f live)) = true ∧ live.roce.mrs.length + live.roce.issued.length < 100) ∧
    (let f := req ([1] ++ zeros 7)
     accepted 0x0017 f (liveQp qp1) sess = true ∧ passes (mrDeregisterFails f sess (seen f (liveQp qp1))) = true) := by
  refine ⟨?_, ?_, ?_, ?_, ?_, ?_, ?_⟩ <;> decide

/-- An inbound request of 40 bytes. -/
def req40 (op : RoceOp) (key : Nat) : RoceReq := ⟨2, 0, op, key, 0x10000, 40, List.replicate 40 1, 0, false, 0⟩

/-- A flow of context 1. -/
def flow1 : Flow := { graphFlowInit 0 with ctx := 1, capacity := 64 }

/-- A posted WRITE of no bytes. -/
def post64 : List Byte := [1] ++ zeros 63

/-- A machine whose queue pair has a send queue at 0x10000, one request posted, and context 1's flow 0. -/
def liveSq : State :=
  let s := liveQp { qp1 with state := .rts, sqEntries := 16, sqAddr := 0x10000, prodAddr := 0x11000, consAddr := 0x11008, complFlow := 0 }
  { s with disp := { s.disp with flows := [(0, flow1)] }
           mem := { s.mem with bytes := [(0x20000, 1), (0x21000, 1)] } }

set_option maxRecDepth 20000 in
theorem witness_RoceRequestsAndWork :
    (let q := { qp1 with state := .rtr }
     let s := liveQp q
     s.qp 2 = some q ∧ s.linkUp = true ∧ s.hostActive = true ∧ mrGrants s 1 1 0x10000 40 0 = true ∧ ((Io.exec (memRead 1 0x10000 40) s).1.isOk = true) ∧ mrGrants s 1 1 0x10000 40 1 = true ∧
     mrGrants s 1 7 0x10000 40 1 = false ∧ ((Io.exec (memWrite 1 0x10000 (req40 .write 1).data) s).1.isOk = true)) ∧
    (le ((Io.exec (memRead 1 0x11000 4) liveSq).1.toOption.getD []) = 1 ∧
     (let e := (Io.exec (memRead 1 0x10000 64) (Io.exec (memRead 1 0x11000 4) liveSq).2).1.toOption.getD []
      e.length = 64 ∧ badWork e = false)) ∧
    ((liveSq.qp 2).isSome = true ∧ (liveSq.flow 0) = some flow1 ∧ flow1.full = false ∧
      ((liveSq.mem.contexts.find 1).map Ctx.destroying).getD false = false) := by
  refine ⟨?_, ?_, ?_⟩ <;> decide

/-- A machine with flow 0 of context 1. -/
def liveFlow : State := { live with disp := { live.disp with flows := [(0, flow1)] } }

set_option maxRecDepth 20000 in
theorem witness_FlowCommandsAndStatistics :
    (let f := req ([0, 0, 0, 0, 64, 0, 0, 0] ++ zeros 40)
     accepted 0x0300 f liveFlow sess = true ∧ passes (flowCreateFails (seen f liveFlow) 1 f.payload) = true ∧
     liveFlow.disp.flows.find 1 = none) ∧
    (let f := req (zeros 8)
     accepted 0x0301 f liveFlow sess = true ∧ passes (flowDestroyFails f sess (seen f liveFlow)) = true) ∧
    (let f := req ([0, 0, 0, 0, 2, 0, 0, 0] ++ zeros 8)
     let s := { liveQp qp1 with disp := liveFlow.disp }
     accepted 0x0302 f s sess = true ∧ passes (bindIngressFails f sess (seen f s)) = true ∧ s.qp 2 = some qp1) ∧
    (let f := req ([0, 0, 0, 0, 2, 0, 0, 0, 0, 1] ++ zeros 6)
     let s := { liveQp { qp1 with ingress := some (0, 0) } with disp := liveFlow.disp }
     accepted 0x0302 f s sess = true ∧ passes (bindIngressFails f sess (seen f s)) = true) ∧
    (let f := req ([0, 0, 0, 0, 1, 0, 0, 0])
     accepted 0x0304 f liveFlow sess = true ∧ liveFlow.flow 0 = some flow1 ∧ flow1.ctx = sess.ctx ∧ fidKind 0 = 0) := by
  refine ⟨?_, ?_, ?_, ?_, ?_⟩ <;> decide

/-- A graph of one node that is held, or ready. -/
def graph1 (st : NodeState) : Graph := ⟨[⟨zeros 40, 0, [], st⟩], false, false, 0, none⟩

/-- Two nodes, the first before the second, at 0x10000 of context 0, and the successor array at 0x10080. -/
def liveGraph : State := { live with mem := { live.mem with
  contexts := live.mem.contexts.put 0 { ctx1 with maps := ctx1.maps }
  bytes := [(0x2002A, 1), (0x20068, 1), (0x20080, 1)] } }

set_option maxRecDepth 20000 in
theorem witness_GraphsStartAndCancel :
    (let f := req ([4, 0, 0, 0, 2, 0, 0, 0] ++ leb 8 0x10000 ++ leb 8 0x10080 ++ [1, 0, 0, 0] ++ zeros 4)
     accepted 0x0303 f liveGraph sess = true ∧ passes (graphFails (seen f liveGraph) f.payload) = true ∧
     (Io.exec (memRead 0 0x10000 128) (seen f liveGraph)).1.isOk = true ∧ bit (fld f.payload 1 1) 1 = false) ∧
    (let f := req ([4, 2] ++ zeros 30)
     let s := { live with disp := { live.disp with graphs := [(4, graph1 .held)] } }
     accepted 0x0303 f s sess = true ∧ passes (graphFails (seen f s) f.payload) = true ∧ s.canFinish = true ∧
       (graph1 .held).nodes.any (fun m => m.state == .held) = true ∧ (graph1 .ready).nodes.any (fun m => m.state == .held) = false) := by
  refine ⟨?_, ?_⟩ <;> decide

/-- An item of flow 0 that has waited since reset. -/
def item0 : Item := ⟨zeros 40, 0, 0, 0, 0, 0, 0, 0, 0, 0⟩

/-- Its completion. -/
def held0 : Held := ⟨item0, 0, 0, true, 0, false, false⟩

set_option maxRecDepth 20000 in
theorem witness_DispatcherSlicesByThemselves :
    (let f := { flow1 with ready := [item0], starveUs := 1 }
     let s := { liveFlow with ctl := { live.ctl with now := 101 }, disp := { live.disp with flows := [(0, f)] } }
     s.flow 0 = some f ∧ s.active (unitSlice 0) = true ∧ f.starveUs * 100 < s.ctl.now - item0.entered ∧ f.ready[0]? = some item0) ∧
    (let f := { flow1 with complKind := 2, complFlow := 1, out := [held0] }
     let s := { live with disp := { live.disp with flows := [(0, f), (1, flow1)] } }
     s.flow 0 = some f ∧ f.nextRelease = some held0 ∧ s.flow 1 = some flow1 ∧ flow1.full = false ∧ held0.early = false) ∧
    (let f := { flow1 with ordered := true, ready := [{ item0 with seq := 1 }] }
     let s := { live with disp := { live.disp with flows := [(0, f)] } }
     s.flow 0 = some f ∧ f.ready[0]? = some { item0 with seq := 1 } ∧ f.nextRelease = none ∧ f.oldest ≠ 1) ∧
    (let f := { flow1 with complKind := 1, out := [held0], ringAddr := 0x10000, ringEntries := 16, consAddr := 0x11000 }
     let s := { live with disp := { live.disp with flows := [(0, f)] } }
     let r := Io.exec (memRead 1 0x11000 4) s
     let w := Io.exec (memWrite 1 0x10000 (complRecord f held0)) r.2
     r.1.toOption = some (zeros 4) ∧ w.1.isOk = true ∧ w.2.disp = s.disp ∧ f.nextRelease = some held0) ∧
    (let s := { live with ctl := { live.ctl with now := 1048576 } }
     s.ctl.fabricOn = true ∧ s.ctl.refclk = true ∧ s.pods.pods.sorted = true ∧ busyWindow s.clkMode ≤ s.ctl.now - s.winStart 0) := by
  refine ⟨?_, ?_, ?_, ?_, ?_⟩ <;> decide

set_option maxRecDepth 20000 in
theorem witness_ScalarInstructionsComplete :
    (let w := wA 1 5 6 7 0 0 0
     issues rowSalu 0 w (podSt thr w) = true) ∧
    (let w := wX 1 31 0 0 1 15 0xFFFFFFFF
     issues rowSalu 0 w (podSt thr w) = true) ∧
    (let w := wA 2 5 6 7 0 0 0
     issues rowAddi 0 w (podSt thr w) = true) ∧
    (let w := wX 5 5 6 0 0 0 0x80000000
     issues rowAddi 0 w (podSt thr w) = true) ∧
    (let w := wA 6 5 6 0 1 3 15
     issues rowShi 0 w (podSt thr w) = true) ∧
    (let w := wX 7 5 0 0 0 0 1
     issues rowLih 0 w (podSt thr w) = true) ∧
    (let w := wA 8 5 6 0 0 1 8
     issues rowSfp 0 w (podSt thr w) = true) ∧
    (let w := wA 9 5 6 0 0 0 8
     issues rowBr 0 w (podSt thr w) = true) ∧
    (let w := wA 10 1 0 0 0 0 8
     issues rowJal 0 w (podSt thr w) = true) ∧
    (let w := wA 11 1 6 0 0 0 8
     issues rowJalr 0 w (podSt thr w) = true) := by
  refine ⟨?_, ?_, ?_, ?_, ?_, ?_, ?_, ?_, ?_, ?_⟩ <;> decide

set_option maxRecDepth 20000 in
theorem witness_VectorInstructionsComplete :
    (let w := wA 16 15 1 2 7 0 15
     issues rowVint 0 w (podSt thr w) = true) ∧
    (let w := wX 16 0 1 0 0 0 7
     issues rowVint 0 w (podSt thr w) = true ∧ thr.on 0 63 = true ∧ thr.on 1 0 = false) ∧
    (let w := wA 17 1 2 3 0 1 9
     issues rowVflt 0 (wA 17 1 2 0 0 1 9) (podSt thr (wA 17 1 2 0 0 1 9)) = true ∧ insF w = 9) ∧
    (let w := wA 18 1 2 3 0 7 1
     issues rowVdot 0 w (podSt thr w) = true) ∧
    (let w := wA 19 1 2 0 0 0 1
     issues rowVcvt 0 w (podSt thr w) = true ∧ thr.rv 1 = List.replicate 64 0) ∧
    (let w := wA 20 1 2 0 0 0 6
     issues rowVperm 0 w (podSt thr w) = true) ∧
    (let w := wA 21 1 2 3 0 1 7
     issues rowVcmp 0 w (podSt thr w) = true) ∧
    (let w := wA 22 1 2 0 1 0 0
     issues rowVred 0 w (podSt thr w) = true ∧ thr.active 1 = []) ∧
    (let w := wA 24 1 2 0 0 0 8
     issues rowMask 0 w (podSt thr w) = true) ∧
    (let w := wA 48 1 2 0 0 0 0
     issues rowVhash 0 w (podSt thr w) = true) := by
  refine ⟨?_, ?_, ?_, ?_, ?_, ?_, ?_, ?_, ?_, ?_⟩ <;> decide

set_option maxRecDepth 20000 in
theorem witness_SortInstructionsComplete :
    (let w := wA 50 2 4 0 1 0 0
     issues rowVsort 0 w (podSt thr w) = true) ∧
    (let w := wA 50 4 8 10 1 0 4
     issues rowVmerge 0 w (podSt { thr with m := thr.m.set 0 0 } w) = true ∧ netSorted .signed false (thr.pairsOn 8 1) = true) ∧
    (let w := wA 50 2 4 0 1 0 8
     issues rowVtopk 0 w (podSt thr w) = true ∧ ((fetched 0 (podSt thr w)).pod 0).sortBeats = 0) ∧
    (let w := wA 50 2 4 0 1 0 8
     let s := { podSt thr w with pods := { (podSt thr w).pods with pods := [(0, { Pod.init with sortBeats := 9 })] } }
     issues rowVtopk 0 w s = true ∧ ((fetched 0 s).pod 0).sortBeats ≠ 0) := by
  refine ⟨?_, ?_, ?_, ?_⟩ <;> decide

/-- Thread 0 with an address in S6 and a length in S7. -/
def thrA (a n : Nat) : Thread := { thr with s := (thr.s.set 6 (BitVec.ofNat 64 a)).set 7 (BitVec.ofNat 64 n) }

set_option maxRecDepth 20000 in
theorem witness_PodMemoryInstructionsComplete :
    (let w := wX 0x23 5 0 0 0 0 0x10100
     issues rowLd 0 w (podSt thr w) = true ∧ allowed 1 .r 8 [0x10100] (podSt thr w) = true ∧ roomFor 0 1 (podSt thr w) = true ∧
       (podSt thr w).ctxOf 0 = 1) ∧
    (let w := wX 0x23 5 0 0 0 0 0x10104
     let th := { thr with slots := List.replicate 8 (some ⟨.vatomic false [], 0, 0, 0⟩) }
     issues rowLd 0 w (podSt thr w) = true ∧ (atu (podSt thr w) 1 0x10104 .r).toOption.isSome = true ∧ 0x10104 % 8 ≠ 0 ∧
       issues rowLd 0 w (podSt th w) = true ∧ (podSt th w |>.thread 0).freeSlot = none) ∧
    (let w := wA 0x20 5 0 0 0 0 0
     issues rowLd 0 w (podSt thr w) = true ∧ atu (podSt thr w) 1 0 .r = .error stXlate) ∧
    (let w := wX 0x27 5 0 0 0 0 0x1FFF8
     issues rowSt 0 w (podSt thr w) = true ∧ allowed 1 .w 8 [0x1FFF8] (podSt thr w) = true) ∧
    (let w := wX 0x25 5 0 0 0 0 0x20001
     issues rowSt 0 w (podSt thr w) = true ∧ atu (podSt thr w) 1 0x20001 .w = .error stXlate) ∧
    (let w := wX 0x25 5 0 0 0 0 0x10001
     issues rowSt 0 w (podSt thr w) = true ∧ (atu (podSt thr w) 1 0x10001 .w).toOption.isSome = true ∧ 0x10001 % 2 ≠ 0) ∧
    (let w := wA 0x28 5 6 0 0 0 0
     let l := ((thrA 0x10100 0).active 0).map (fun i => (i, vldAddr (thrA 0x10100 0) w i))
     issues rowVld 0 w (podSt (thrA 0x10100 0) w) = true ∧ allowed 1 .r 4 (l.map Prod.snd) (podSt (thrA 0x10100 0) w) = true ∧
       roomFor 0 (distinctBlocks (l.map Prod.snd)) (podSt (thrA 0x10100 0) w) = true) ∧
    (let w := wA 0x29 5 6 7 0 0 1
     let l := ((thrA 0x10100 0).active 0).map (fun i => (i, vldAddr (thrA 0x10100 0) w i))
     issues rowVst 0 w (podSt (thrA 0x10100 0) w) = true ∧ allowed 1 .w 4 (l.map Prod.snd) (podSt (thrA 0x10100 0) w) = true) ∧
    (let w := wA 0x2A 5 6 7 0 0 2
     issues rowAtom 0 w (podSt (thrA 0x10100 0) w) = true ∧ allowed 1 .rw 8 [0x10100] (podSt (thrA 0x10100 0) w) = true) ∧
    (let w := wA 0x2A 5 6 7 1 1 7
     issues rowAtom 0 w (podSt (thrA 0x10100 0) w) = true) ∧
    (let w : Insn := ⟨0xAC000000, 0⟩
     issues rowFence 0 w (podSt thr w) = true ∧ thr.occupied = [] ∧ ((fetched 0 (podSt thr w)).drainStores 0).1 = none) ∧
    (let w := wA 0x31 5 6 7 0 0 0
     (podSt thr w).memFrozen = false ∧ issues rowHashs 0 w (podSt (thrA 0x10100 0x80) w) = true ∧ allowed 1 .r 1 ((blocks64 0x10100 0x80).map Prod.fst) (podSt (thrA 0x10100 0x80) w) = true ∧
       issues rowHashs 0 w (podSt (thrA 0x10100 0x10001) w) = true) := by
  refine ⟨?_, ?_, ?_, ?_, ?_, ?_, ?_, ?_, ?_, ?_, ?_, ?_⟩ <;> decide

/-- Thread 0 with a load of 8 bytes at 0x10100 in slot 7. -/
def thrLd : Thread := { thr with slots := thr.slots.set 7 (some ⟨.scalar 5 8 0x10100, 1, 0, 0x10000⟩) }

/-- Thread 0 with a store of 4 bytes at 0x1013C. -/
def thrSt : Thread := { thr with stores := [⟨0, 0x10000, [(0x1013C, [1, 2, 3, 4])]⟩] }

set_option maxRecDepth 20000 in
theorem witness_LoadsAndStoresReachMemory :
    (let s := podSt thrLd ⟨0, 0⟩
     s.active 0 = true ∧ (s.drainStores 0 0).1 = none ∧ (match (SlotOp.scalar 5 8 0x10100).land 1 s with
       | .done _ _ => true
       | .more _ _ => false
       | .failed _ _ _ => false) = true ∧ (∀ r ∈ (SlotOp.scalar 5 8 0x10100).ranges, s.heldRange 1 r.1 r.2 = false) ∧ thrLd.slotReady ⟨.scalar 5 8 0x10100, 1, 0, 0x10000⟩ = true) ∧
    ((readList 1 true [(0x10100, 8)] [] live).1.toOption.isSome = true ∧ (atu live 1 0x10100 .r true).toOption.isSome = true ∧
      (Io.exec (memModify 1 0x10100 8 (fun b => leb 8 (atomNew 0 8 (le b) 1 0)) true) live).1.toOption.isSome = true ∧
      (readList 1 true ((blocks64 (0x10100 + 0) (0x80 - 0)).take 8) [] live).1.toOption.isSome = true ∧ live.mem.watch = [] ∧
      (readList 1 true ([(3, 0x10100)].map (fun e => (e.2, 4))) [] live).1.toOption.isSome = true) ∧
    (let s := podSt thrSt ⟨0, 0⟩
     s.active 0 = true ∧ ((⟨0, 0x10000, [(0x1013C, [1, 2, 3, 4])]⟩ : StoreOp).run 1 s).1 = none ∧ s.ctxOf 0 = 1 ∧ s.mem.wf = true ∧
       (atu s 1 0x1013C .w true).toOption.isSome = true) := by
  refine ⟨?_, ?_, ?_⟩ <;> decide

/-- Thread 0 with the allocation of 64 words at 128, S7 the offset. -/
def thrAcc (off : Nat) : Thread := { thrA 64 off with acc := some (128, 64) }

set_option maxRecDepth 20000 in
theorem witness_AccumulatorInstructionsComplete :
    (let w := wA 0x34 5 6 0 0 0 0
     issues rowAcca 0 w (podSt (thrA 64 0) w) = true ∧ (podSt (thrA 64 0) w).accWaiting 0 = [] ∧
       accFind ((podSt (thrA 64 0) w).accHeld 0) 64 = some 0 ∧ issues rowAcca 0 w (podSt (thrA 65 0) w) = true) ∧
    (let w := wA 0x34 5 6 0 0 0 0
     let s := { podSt (thrA 4096 0) w with pods := ⟨[(0, thrA 4096 0), (1, { thrA 64 0 with acc := some (0, 64) })], [], [(1, img1)]⟩ }
     issues rowAcca 0 w s = true ∧ accFind (s.accHeld 0) 4096 = none) ∧
    (let w := wA 0x34 0 0 0 0 0 1
     issues rowAccf 0 w (podSt thr w) = true) ∧
    (issues (rowAccVec 2) 0 (wA 0x34 0 1 7 0 0 2) (podSt (thrAcc 0) (wA 0x34 0 1 7 0 0 2)) = true ∧
     issues (rowAccVec 2) 0 (wA 0x34 0 1 7 0 1 2) (podSt (thrAcc 0) (wA 0x34 0 1 7 0 1 2)) = true ∧
     issues (rowAccVec 3) 0 (wA 0x34 0 1 7 0 0 3) (podSt (thrAcc 0) (wA 0x34 0 1 7 0 0 3)) = true ∧
     issues (rowAccVec 4) 0 (wA 0x34 0 1 7 0 0 4) (podSt (thrAcc 0) (wA 0x34 0 1 7 0 0 4)) = true ∧
     issues (rowAccVec 6) 0 (wA 0x34 0 1 7 0 0 6) (podSt (thrAcc 0) (wA 0x34 0 1 7 0 0 6)) = true ∧
     issues rowVaccrd 0 (wA 0x34 1 0 7 0 0 5) (podSt (thrAcc 0) (wA 0x34 1 0 7 0 0 5)) = true ∧
     issues rowVaccz 0 (wA 0x34 0 6 7 0 0 7) (podSt (thrAcc 0) (wA 0x34 0 6 7 0 0 7)) = true ∧
     (∀ i ∈ (thrAcc 0).active 0, i < 64) ∧ live.mem.watch = [] ∧ accFind [(0, 64)] 128 = some 64 ∧
     issues rowVaccz 0 (wA 0x34 0 6 7 0 0 7) (podSt (thrAcc 64) (wA 0x34 0 6 7 0 0 7)) = true) ∧
    (issues (rowAccVec 2) 0 (wA 0x34 0 1 7 0 0 2) (podSt (thrAcc 64) (wA 0x34 0 1 7 0 0 2)) = true ∧ 63 ∈ (thrAcc 64).active 0 ∧
     issues rowVaccrd 0 (wA 0x34 1 0 7 0 0 5) (podSt (thrAcc 1) (wA 0x34 1 0 7 0 0 5)) = true) ∧
    (let s := { podSt thr ⟨0, 0⟩ with pods := ⟨[(0, { thr with st := .blocked (.acc 64 5) })], [(0, { Pod.init with accQueue := [0] })], [(1, img1)]⟩ }
     s.active 0 = true ∧ s.accWaiting 0 = [0] ∧ accFind (s.accHeld 0) 64 = some 0) := by
  refine ⟨?_, ?_, ?_, ?_, ?_, ?_⟩ <;> decide

/-- An image with flow slot 0 bound to flow 0 of generation 1 and slot 5 to flow 1. -/
def imgF : Image := { img1 with slots := (img1.slots.set 0 0x10000).set 5 0x10001 }

/-- Two flows: flow 0 has an item, flow 1 none. -/
def flowA : Flow := { flow1 with gen := 1, capacity := 2, ready := [item0], nextSeq := 1 }

/-- A machine of thread 0 with those flows. -/
def dispSt (th : Thread) (w : Insn) : State := { podSt th w with
  pods := ⟨[(0, th)], [], [(1, imgF)]⟩
  disp := { live.disp with flows := [(0, flowA), (1, { flow1 with gen := 1, capacity := 1 })] } }

set_option maxRecDepth 20000 in
theorem witness_DispatcherInstructionsComplete :
    (let w := wA 0x38 1 6 0 0 0 0
     let s := dispSt (thrA 1 0) w
     issues rowAsk 0 w s = true ∧ (∀ k, k < 64 → (1 : Nat).testBit k = true → s.slotFlow 0 k = some 0x10000) ∧ (askGate 0 (fetched 0 s)).isNone = true ∧
       (bestBid 0 (bids (fetched 0 s) 0 1)).isSome = true) ∧
    (let w := wA 0x38 1 6 0 0 0 1
     issues rowAsknb 0 w (dispSt (thrA 32 0) w) = true ∧ (bids (fetched 0 (dispSt (thrA 32 0) w)) 0 32).isEmpty = true ∧
       (∀ k, k < 64 → (32 : Nat).testBit k = true → (dispSt (thrA 32 0) w).slotFlow 0 k = some 0x10001)) ∧
    (let w := wA 0x38 1 6 0 0 0 0
     issues rowAsk 0 w (dispSt (thrA 32 0) w) = true ∧ issues rowAsk 0 w (dispSt (thrA 2 0) w) = true ∧ (dispSt (thrA 2 0) w).slotFlow 0 1 = none) ∧
    (let w := wA 0x38 0 6 0 0 0 2
     issues rowDone 0 w (dispSt thr w) = true ∧ issues rowDone 0 w (dispSt { thr with item := some item0 } w) = true ∧
       ((fetched 0 (dispSt thr w)).drainStores 0).1 = none ∧
       issues rowDone 0 w (dispSt { thr with item := some item0, tags := thr.tags.set 7 (.busy 2) } w) = true) ∧
    (let w := wA 0x38 0 6 1 0 0 3
     issues rowPost 0 w (dispSt (thrA 5 0) w) = true ∧ (dispSt (thrA 5 0) w).slotFlow 0 5 = some 0x10001 ∧ (dispSt (thrA 5 0) w).memFrozen = false ∧
       issues rowPost 0 w (dispSt (thrA 6 0) w) = true ∧ (dispSt (thrA 6 0) w).slotFlow 0 6 = none) ∧
    (let w := wA 0x38 4 6 1 0 0 4
     issues rowPostnb 0 w (dispSt (thrA 5 0) w) = true) ∧
    (let w := wA 0x3F 5 6 0 0 0 4
     issues rowWaitu 0 w (dispSt { thrA 7 0 with tags := thr.tags.set 7 (.done 3) } w) = true) ∧
    (let w := wA 0x3F 4 0 0 0 0 5
     issues rowWaitany 0 w (dispSt { thr with tags := thr.tags.set 7 (.done 3) } w) = true) ∧
    (let s := dispSt { thr with st := .blocked (.done 0), item := some item0 } ⟨0, 0⟩
     s.works 0 = true ∧ (s.drainStores 0).1 = none) ∧
    ((dispSt { thr with st := .blocked (.post 0x10001 []) } ⟨0, 0⟩).flow 0x10001).isSome = true ∧
    (let s := { dispSt { thr with st := .asking 1 0 } ⟨0, 0⟩ with disp := { live.disp with flows := [(0, { flowA with waiters := [0] })] } }
     s.active (unitSlice flowA.slice) = true ∧ flowA.head.isSome = true ∧ s.parityArmed 0x10000 = false ∧
       (setSlots 1).filter (fun j => s.slotFlow 0 j == some 0x10000) = [0]) := by
  refine ⟨?_, ?_, ?_, ?_, ?_, ?_, ?_, ?_, ?_, ?_, ?_⟩ <;> decide

/-- Set 0x10000 of context 1: the first segment of bank 0, one valid entry of group 5 that matches every key. -/
def gaz1 : State := { live with gaz := { live.gaz with
  sets := [(0, ⟨1, 1, 0, 0, 1⟩)]
  banks := [(0, { GazBank.init with arr := [(7, 2 ^ 272 + 5 * 2 ^ 256)], state := .active })]
  windowLimit := 1000 } }

/-- A machine of thread 0 with that set, S6 its SET_ID. -/
def gazSt (th : Thread) (w : Insn) : State := { podSt th w with gaz := gaz1.gaz }

set_option maxRecDepth 20000 in
theorem witness_GazetteerInstructionsComplete :
    (let w := wA 0x3C 4 1 6 0 0 0
     let s := gazSt (thrA 0x10000 0) w
     issues (rowSearch 0) 0 w s = true ∧ searchFault s 1 0 0x10000 4 = none ∧ s.gazSet 0x10000 = some ⟨1, 1, 0, 0, 1⟩ ∧
       bankServes s 0 = true ∧ thermHolds s 0 = false ∧ powerHolds s = false ∧ (searchSet (s.gazBank 0) ⟨1, 1, 0, 0, 1⟩ 0 0x10000).2 = [5]) ∧
    (let w := wA 0x3C 4 1 6 0 0 1
     issues (rowSearch 1) 0 w (gazSt (thrA 0x10000 0) w) = true ∧ searchFault (gazSt (thrA 0x10000 0) w) 1 1 0x10000 4 = none) ∧
    (let w := wA 0x3C 4 1 6 0 0 2
     issues (rowSearch 2) 0 w (gazSt (thrA 0x10000 0) w) = true ∧ searchFault (gazSt (thrA 0x10000 0) w) 1 2 0x10000 4 = none ∧
       searchFault (gazSt (thrA 0x10000 0) w) 1 2 0x20000 4 = some (fErr stState 7)) ∧
    (let w := wA 0x3C 4 6 7 0 0 3
     let th := thrA 0x10100 0
     let s := { podSt th w with gaz := gaz1.gaz, mem := (podSt th w).mem.write 0x20100 (leb 4 0x10000 ++ leb 4 0 ++ leb 4 1024 ++ leb 4 1 ++ zeros 16) }
     issues rowGupd 0 w s = true ∧ ((fetched 0 s).drainStores 0).1 = none ∧ th.freeTags ≠ [] ∧
       (∀ k, k < 8 → let r := Io.exec (memRead 1 0x10100 32) (withTag 0 4 k 7 ((fetched 0 s).drainStores 0).2)
         (match r.1 with
           | .ok b => passes (gupdFails r.2 1 0x10100 b) && (r.2.gazSet (fld b 0 4)).isSome
           | .error _ => false) = true)) ∧
    (let s := { gaz1 with gaz := { gaz1.gaz with banks := [(0, { gaz1.gazBank 0 with writers := [⟨0x10000, 0, 2, 0, .gupd (.pod 0 3 0 0) 1 0 true⟩] })] } }
     (s.gazBank 0).writers.length = 1 ∧ bankServes s 0 = true ∧ s.memFrozen = false ∧ (s.gazSet 0x10000).isSome = true) := by
  refine ⟨?_, ?_, ?_, ?_, ?_⟩ <;> decide

set_option maxRecDepth 20000 in
theorem witness_GazetteerCommandsAndLimits :
    (let f := req ([0, 0xFF, 1, 0] ++ zeros 28)
     acceptedAs 0x0520 0 0 f gaz1 sess = true ∧ passes (gazLoadFails (seen f gaz1) 1 f.payload) = true) ∧
    (let f := req ([1, 0, 0, 0, 0, 0, 1, 0] ++ [0xFF, 3, 0, 0] ++ [1, 0, 0, 0] ++ leb 8 0x10100 ++ zeros 8)
     acceptedAs 0x0520 0 1 f gaz1 sess = true ∧ passes (gazLoadFails (seen f gaz1) 1 f.payload) = true) ∧
    (let f := req ([2, 0, 0, 0, 0, 0, 1, 0] ++ [0, 0, 0, 0] ++ [1, 0, 0, 0] ++ leb 8 0x10102 ++ zeros 8)
     acceptedAs 0x0520 0 2 f gaz1 sess = true ∧ passes (gazLoadFails (seen f gaz1) 1 f.payload) = true) ∧
    (let f := req ([3, 0, 0, 0, 0, 0, 1, 0] ++ zeros 24)
     acceptedAs 0x0520 0 3 f gaz1 sess = true ∧ passes (gazLoadFails (seen f gaz1) 1 f.payload) = true) ∧
    (let f := req ([1, 0] ++ zeros 6)
     acceptedAs 0x0521 1 0 f gaz1 sess = true ∧ passes (gazServiceFails f (seen f gaz1)) = true) ∧
    (let f := req ([7, 1] ++ zeros 6)
     acceptedAs 0x0521 1 1 f gaz1 sess = true ∧ passes (gazServiceFails f (seen f gaz1)) = true) ∧
    (let s := { gaz1 with gaz := { gaz1.gaz with banks := [(0, { GazBank.init with state := .outOfService })] } }
     let f := req ([0, 2] ++ zeros 6)
     acceptedAs 0x0521 1 2 f s sess = true ∧ passes (gazServiceFails f (seen f s)) = true) ∧
    (let f := req ([0, 3, 0, 0] ++ leb 4 60000)
     acceptedAs 0x0521 1 3 f gaz1 sess = true ∧ passes (gazServiceFails f (seen f gaz1)) = true) ∧
    (bankServes gaz1 7 = true ∧ gaz1.fwReady = true ∧ bankEntries - 1 < bankEntries) ∧
    (gaz1.gaz.sets.sorted = true ∧ (gaz1.gazBank 0).tags.sorted = true ∧ gaz1.gaz.banks.vals.all (fun k => k.waiting.isEmpty) = true ∧ windowsRun gaz1 = true ∧ (gaz1.clk.temps[32]?).isSome = true) := by
  refine ⟨?_, ?_, ?_, ?_, ?_, ?_, ?_, ?_, ?_, ?_⟩ <;> decide

/-- A machine of thread 0 whose context has one page of the Join store at 0x40000, S7 its handle. -/
def joinSt (th : Thread) (w : Insn) : State := { podSt th w with
  mem := { (podSt th w).mem with contexts := [(1, { ctx1 with maps := ctx1.maps ++ [⟨0x40000, 0x1000, .store, 0, true, true, false, false, [⟨0x1000, joinStoreBase⟩], false⟩] })] } }

set_option maxRecDepth 20000 in
theorem witness_JoinInstructionsComplete :
    (let w := wA 0x3D 2 4 7 0 0 0
     let s := joinSt (thrA 0 0x40000) w
     issues rowJins 0 w s = true ∧ (thrA 0 0x40000).freeSlot = some 0 ∧ (thrA 0 0x40000).slots.length = 8 ∧ ((fetched 0 s).drainStores 0).1 = none ∧
       (regionPages s 1 0x40000 .rw).toOption = some [joinStoreBase] ∧ (thrA 0 0x40000).active 0 ≠ [] ∧ s.joinClaims = [] ∧ s.memFrozen = false ∧ tableOf s [joinStoreBase] = some [] ∧
       bit (2 ^ 63) 63 = true ∧ handleVa 1 % 4096 ≠ 0 ∧ (regionPages s 1 0 .r).toOption = none ∧
       s.active (unitJoin (sliceOf joinStoreBase)) = true) ∧
    (let w := wA 0x3D 2 4 7 0 0 1
     issues rowJprobe 0 w (joinSt (thrA 0 0x40000) w) = true) ∧
    (let w := wA 0x3D 2 0 0 0 0 2
     issues rowJnext 0 w (joinSt { thrA 0 0x40000 with cursor := some ⟨0x40000, [(63, [5])]⟩ } w) = true ∧
       issues rowJnext 0 w (joinSt thr w) = true) := by
  refine ⟨?_, ?_, ?_⟩ <;> decide

/-- A JOB of thread 0: its descriptor at 0x10100, its record at 0x10200. -/
def jobIns : Insn := wA 0x3F 4 6 7 0 0 2

/-- A machine of thread 0 with a descriptor at 0x10100. -/
def jobSt (d : List Byte) (w : Insn) : State := { podSt (thrA 0x10100 0x10200) w with mem := (podSt (thrA 0x10100 0x10200) w).mem.write 0x20100 d }

/-- A descriptor of a codec job that compresses nothing. -/
def codecD : List Byte := leb 2 1 ++ [0, 3] ++ zeros 4 ++ leb 8 0x10000 ++ leb 8 0 ++ leb 8 0x10400 ++ leb 8 64 ++ leb 8 0x50000 ++ leb 4 0xFFFFFFFF ++ zeros 12 ++
  zeros 8 ++ leb 8 (2 ^ 64 - 1) ++ zeros 48

set_option maxRecDepth 20000 in
theorem witness_UnitOperationsIssue :
    (issues (rowJob 5 tableIssue) 0 jobIns (jobSt (leb 2 5) jobIns) = true ∧ jobKind (jobSt (leb 2 5) jobIns) 0 jobIns = some 5 ∧
      ((fetched 0 (jobSt (leb 2 5) jobIns)).drainStores 0).1 = none ∧ (thrA 0x10100 0x10200).freeTags ≠ []) ∧
    jobKind (jobSt (leb 2 3) jobIns) 0 jobIns = some 3 ∧
    jobKind (jobSt (leb 2 2) jobIns) 0 jobIns = some 2 ∧
    (issues (rowJob 1 codecStart) 0 jobIns (jobSt (leb 2 1) jobIns) = true ∧ jobKind (jobSt (leb 2 1) jobIns) 0 jobIns = some 1 ∧
      jobKind (jobSt (leb 2 9) jobIns) 0 jobIns = some 9 ∧ isJobKind 9 = false) ∧
    (issues rowFabric 0 jobIns (jobSt (leb 2 8) jobIns) = true ∧ jobKind (jobSt (leb 2 8) jobIns) 0 jobIns = some 8) ∧
    (issues (rowProj false) 0 (wA 0x3F 4 6 7 0 0 0) (jobSt [] (wA 0x3F 4 6 7 0 0 0)) = true ∧
      issues (rowProj true) 0 (wA 0x3F 4 6 7 0 0 1) (jobSt [] (wA 0x3F 4 6 7 0 0 1)) = true) ∧
    ((Io.exec (memRead 1 0x10100 192) live).1.toOption.isSome = true ∧ live.armed 0x0F 5 = none ∧ live.armed 0x0F 4 = none ∧
      (firstFail (tableFails live 1 0x10100 (zeros 128))).isSome = true ∧ (firstFail (colFails live 1 0x10100 (zeros 128))).isSome = true ∧
      (firstFail (joinFails live 1 0x10100 (zeros 192))).isSome = true ∧ (firstFail (codecFails live 1 0x10100 (zeros 128))).isSome = true ∧
      (firstFail (remoteFails live 1 0x10100 (zeros 64))).isSome = true ∧
      (firstFail (projFails false 0x10100 none (zeros 128) (zeros 256) (zeros 256))).isSome = true) := by
  refine ⟨?_, ?_, ?_, ?_, ?_, ?_, ?_⟩ <;> decide

/-- The head of a job of thread 0's tag 3 in context 1. -/
def head0 : JobHead := ⟨.pod 0 3 0 0, 0, 1, 0, 0x10400, 0x400, 0, 0, none, []⟩

/-- Jobs with the descriptor d. -/
def tableJob0 (d : List Byte) : TableJob := ⟨head0, d, [], none, 0, 0, 0, 0, []⟩
def colJob0 (d : List Byte) : ColJob := ⟨head0, d, [], [], [], [], [], 0, 0, 0, [], [], 0, [], false⟩
def joinJob0 (d : List Byte) : JoinJob := ⟨head0, d, [], [], [], [], [], 0, 0, 0, [0, 0, 0, 0, 0, 0]⟩
def projJob0 (d : List Byte) : ProjJob := ⟨head0, false, 0x10000, d, [], [], 0, 0, 0, none, 0, 0⟩

/-- A machine with jobs in the queues of engines 0. -/
def queued : State := { joinSt { thr with st := .blocked (.codec 0), tags := thr.tags.set 3 (.busy 1) } ⟨0, 0⟩ with units := { live.units with
  table := [(0, ⟨[tableJob0 (zeros 128)], none⟩)]
  column := [(0, ⟨[colJob0 (zeros 32 ++ leb 8 0x10000 ++ zeros 88)], none⟩)]
  join := [(0, ⟨[joinJob0 (zeros 64 ++ leb 8 0x40000 ++ zeros 24 ++ leb 8 0x10000 ++ leb 2 1 ++ zeros 86)], none⟩)]
  proj := [(0, ⟨[.job (projJob0 (zeros 128))], none⟩), (1, ⟨[.sample 7 1], none⟩)]
  codecQ := [(0, [.job (CodecJob.first head0 codecD)])]
  codecWait := [(0, [.job (CodecJob.first head0 codecD)])] } }

set_option maxRecDepth 20000 in
theorem witness_UnitJobsStart :
    (queued.works (unitTable 0) = true ∧ (queued.tableEng 0).run.isNone = true ∧ (queued.tableEng 0).queue.length = 1) ∧
    (((queued.setTable 0 ⟨[], none⟩).areaIntact 1 0x10000 [0]).1.toOption = some true ∧
      ((queued.setTable 0 ⟨[], none⟩).areaIntact 1 0x10000 [1]).1.toOption = some false) ∧
    (queued.works (unitProj 0) = true ∧ queued.works (unitProj 1) = true ∧ (Io.exec (projDescs 1 0x10000) (queued.setProj 0 ⟨[], none⟩)).1.toOption.isSome = false) ∧
    (queued.active (unitCodec 0) = true ∧ (queued.freeLanes 0).head? = some 0 ∧ (queued.codecQueue 0).length = 1) ∧
    (queued.works (unitJoin 0) = true ∧ (Io.exec (colArrays (colJob0 (zeros 32 ++ leb 8 0x10000 ++ zeros 88))) (queued.setCol 0 ⟨[], none⟩)).1.toOption.isSome = true) ∧
    ((Io.exec (memRead 1 0x10000 2) (queued.setJoin 0 ⟨[], none⟩)).1.toOption.isSome = true ∧
      (regionPages (queued.setJoin 0 ⟨[], none⟩) 1 0x40000 .rw).toOption = some [joinStoreBase] ∧ queued.joinClaims = []) := by
  refine ⟨?_, ?_, ?_, ?_, ?_, ?_⟩ <;> decide

/-- A codec job of an empty input on a lane that ends at once. -/
def laneJob : CodecJob := { CodecJob.first head0 codecD with ending := some (stOk, 0, 0xFFFF, 0) }

/-- A machine with jobs that run. -/
def running : State := { queued with units := { queued.units with
  table := [(0, ⟨[], some (tableJob0 (zeros 128))⟩), (1, ⟨[], some { tableJob0 (zeros 56 ++ leb 4 0xFFFFFFFF ++ zeros 68) with head := { head0 with held := some [] } }⟩)]
  proj := [(0, ⟨[], some (.job (projJob0 (zeros 128)))⟩), (1, ⟨[], some (.job { projJob0 (zeros 128) with limit := some 0, dst := [1, 1, 1] ++ zeros 253 })⟩),
    (2, ⟨[], some (.sample 7 1)⟩)]
  lanes := [(0, .job laneJob), (1, .job { laneJob with ending := none }), (2, .gds ⟨0, 0, [], 4⟩)] } }

set_option maxRecDepth 20000 in
theorem witness_UnitJobsRunAndEnd :
    (running.works (unitTable 0) = true ∧ (running.tableEng 0).run.isSome = true ∧ ((running.tableEng 1).run.bind (fun j => j.head.held)).isSome = true) ∧
    (running.works (unitProj 0) = true ∧ slabFits (projJob0 (zeros 128)) 0 = true ∧
      slabFits { projJob0 (zeros 128) with limit := some 0, dst := [1, 1, 1] ++ zeros 253 } 0 = false) ∧
    (running.units.lanes.find 0 = some (.job laneJob) ∧ running.works (unitCodec 0) = true ∧ laneJob.flow = 0xFFFFFFFF ∧ running.units.lanes.sorted = true ∧
      (codecRead { laneJob with ending := none } running).1 = []) ∧
    ((running.thread 0).epoch = 0 ∧ running.svc.abandoned.contains (0, 0) = false ∧ (running.thread 0).st = .blocked (.codec 0)) := by
  refine ⟨?_, ?_, ?_, ?_⟩ <;> decide

/-- A table of 8 elements in 8 bits and 4 rows in context 1, handle 9. -/
def emb0 : EmbTable := { tableFrom 1 (leb 4 7 ++ leb 2 8 ++ [8, 0] ++ leb 8 4 ++ zeros 48) with versions := [(1, ⟨0x10000, 0⟩)] }

/-- A machine with that table. -/
def embSt (t : EmbTable) : State := { live with emb := { live.emb with tables := [(9, t)] } }

theorem bare_storage : (mapStorage bare 1 (2 ^ 21) false).isSome = true := by
  unfold mapStorage
  rw [bare_page]
  rfl

set_option maxRecDepth 20000 in
theorem witness_EmbeddingTableCommands :
    (let f := req (leb 4 7 ++ leb 2 8 ++ [8, 0] ++ leb 8 4 ++ zeros 48)
     accepted 0x0510 f bare sess = true ∧ passes (embCreateFails (seen f bare) 1 f.payload) = true ∧
       (tableFrom 1 f.payload).storageLen = 2 ^ 21 ∧ (tableFrom 1 f.payload).ecc = false) ∧
    (let f := req (leb 8 9 ++ [1, 0, 1, 0] ++ leb 4 5 ++ leb 8 0x10100 ++ leb 8 4)
     accepted 0x0512 f (embSt emb0) sess = true ∧ passes (mapSetFails (seen f (embSt emb0)) 1 f.payload) = true) ∧
    (let f := req (leb 8 9 ++ zeros 8)
     acceptedAs 0x0511 8 0 f (embSt emb0) sess = true ∧ passes (embSwapFails 0 0 (fun t => t.prepared.isSome) f sess (seen f (embSt emb0))) = true ∧
       (seen f (embSt emb0)).fits 1 (eccBytes emb0.ecc emb0.storageLen) = true ∧ (embSt emb0).embTable 9 = some emb0) ∧
    (let s := embSt { emb0 with prepared := some 2 }
     let f := req (leb 8 9 ++ [1, 1] ++ zeros 6)
     acceptedAs 0x0511 8 1 f s sess = true ∧ passes (embSwapFails 1 1 (fun t => t.prepared.isNone) f sess (seen f s)) = true) ∧
    (let s := embSt { emb0 with prepared := some 2 }
     let f := req (leb 8 9 ++ [2] ++ zeros 7)
     acceptedAs 0x0511 8 2 f s sess = true ∧ passes (embSwapFails 2 0 (fun t => t.prepared.isNone) f sess (seen f s)) = true) ∧
    (let f := req (leb 8 9 ++ [3] ++ zeros 7)
     acceptedAs 0x0511 8 3 f (embSt emb0) sess = true ∧ passes (embSwapFails 3 0 (fun _ => false) f sess (seen f (embSt emb0))) = true) ∧
    (let f := req (leb 8 9 ++ [4, 2] ++ zeros 6)
     acceptedAs 0x0511 8 4 f (embSt emb0) sess = true ∧ passes (embSwapFails 4 2 (fun _ => false) f sess (seen f (embSt emb0))) = true) := by
  refine ⟨?_, ?_, ?_, ?_, ?_, ?_, ?_⟩ <;> decide

/-- Thread 0 with an EMB control block at 0x10100. -/
def embPod (t : EmbTable) (d : List Byte) (w : Insn) : State := { podSt (thrA 0 0x10100) w with
  mem := (podSt (thrA 0 0x10100) w).mem.write 0x20100 d, emb := (embSt t).emb }

/-- A gather that copies rows to 0x10200. -/
def gatherD : List Byte := leb 8 9 ++ zeros 24 ++ leb 8 0x10200 ++ leb 4 64 ++ zeros 20

/-- An entry, an update and an EMBU of that table. -/
def ent0 : EmbEntry := ⟨0, 1, 0, List.replicate 8 0, 3⟩
def upd0 : RowUpdate := ⟨9, ent0, zeros 32, false⟩
def embu0 : Embu := ⟨.pod 0 3 0 0, 0, 1, 9, [⟨0, 1, List.replicate 8 0⟩], false, false⟩

/-- A machine with work in hand for unit 0. -/
def embWork : State := { live with emb := { live.emb with
  tables := [(9, { emb0 with entries := [ent0] })], embus := [embu0], updates := [(0, [upd0])], reads := [(0, [⟨9, 1, 0, [], true⟩])] } }

set_option maxRecDepth 20000 in
theorem witness_EmbeddingGathersAndUpdates :
    (let w := wA 0x3E 4 2 7 0 0 0
     issues (rowEmb false) 0 w (embPod emb0 gatherD w) = true ∧ ((fetched 0 (embPod emb0 gatherD w)).drainStores 0).1 = none ∧ (embPod emb0 gatherD w).memFrozen = false) ∧
    (let w := wA 0x3E 4 2 7 0 0 1
     issues (rowEmb true) 0 w (embPod { emb0 with ended := [0] } gatherD w) = true ∧
       (((fetched 0 (embPod emb0 gatherD w)).peekStored 0 1 0x10100 8).map le) = some 9) ∧
    (let s := embPod emb0 gatherD ⟨0, 0⟩
     (Io.exec (memRead 1 0x10100 64) s).1.toOption = some gatherD ∧ s.embTable 9 = some emb0 ∧
       passes (embgFails s 1 0x10100 2 gatherD none []) = true ∧ (firstFail (embuFails s 1 0x10101 2 gatherD)).isSome = true) ∧
    ((embWork.rowReads 0).length = 1 ∧ embWork.works (unitEmb 0) = true ∧ (Io.exec (memRead 1 0x10000 emb0.stride) embWork).1.toOption.isSome = true) ∧
    (embWork.armed 8 (unitEmb 0) = none ∧ embWork.emb.embus.length = 1 ∧ (embWork.embUpdates 0).length = 1 ∧ (embWork.embTable 9).isSome = true) := by
  refine ⟨?_, ?_, ?_, ?_, ?_⟩ <;> decide

/-- The same table with updates, a barrier of 1 and its STEP_END counted. -/
def embUp : EmbTable := { emb0 with flags := 1, barrier := 1, ends := 1, ended := [0], hyper := 0x10000 }

/-- A token of part 5 for its step 0. -/
def tokenF (op : Nat) : TFrame := ⟨1, 5, op, 16, 7, 1, 0, 0, 0, 7, leb 8 2, 0⟩

set_option maxRecDepth 20000 in
theorem witness_EmbeddingSteps :
    ((embSt embUp).embTable 9 = some embUp ∧ embUp.updates = true ∧ (embSt embUp).embRuns = true ∧ embUp.participants (embSt embUp) = [wholeSelf] ∧ embUp.self (embSt embUp) = wholeSelf) ∧
    (let t := { embUp with tokens := [⟨wholeSelf, 0, 0⟩] }
     homeReady (embSt t) t = true ∧ (readHyper t (embSt t)).1.isSome = true) ∧
    (let s := { embSt embUp with fab := { live.fab with loop := [tokenF 5] } }
     s.nextArrival 12 [5] = some (2, tokenF 5) ∧ ((s.takeArrival 12 2 (tokenF 5)).embByTag (tokenF 5)).map Prod.fst = some 9 ∧
       (live.takeArrival 12 2 (tokenF 5)).embByTag (tokenF 5) = none) ∧
    (({ embSt embUp with fab := { live.fab with loop := [tokenF 6] } }).nextArrival 12 [6] = some (2, tokenF 6)) ∧
    (({ embSt embUp with fab := { live.fab with loop := [tokenF 7] } }).nextArrival 12 [7] = some (1, tokenF 7)) := by
  refine ⟨?_, ?_, ?_, ?_, ?_⟩ <;> decide

/-- A machine with a suspended table job under handle 9. -/
def suspSt (w : Insn) : State := { podSt (thrA 0x10100 0x10200) w with
  mem := (podSt (thrA 0x10100 0x10200) w).mem.write 0x20100 (leb 8 9 ++ leb 8 0x10400 ++ leb 8 0x100 ++ zeros 8)
  units := { live.units with susp := [(9, ⟨1, .table 0 (tableJob0 (zeros 128)), false⟩)] } }

/-- A machine whose session has a command in flight. -/
def flight (w : Wait) : State := { live with rcp := ⟨[(1, { sess with inFlight := [⟨7, 0x0203, .host, 0xFFFF0A000002, 5000, w, 0⟩] })], [], [], [], [], 1⟩ }

set_option maxRecDepth 20000 in
theorem witness_ResumesAndCompletions :
    (∀ k ∈ [0, 1], let f := req (leb 8 9 ++ leb 8 0x10400 ++ leb 8 0x100 ++ leb 8 k); let s := suspSt ⟨0, 0⟩
      accepted 0x0007 f s sess = true ∧ f.payload.length = 32 ∧ passes (allResumeFails (seen f s) 1 (.rcp 1 1) f.payload) = true ∧
      ((seen f s).units.susp.find 9).isSome = true ∧ rsAbandon f.payload = (k == 1)) ∧
    (let w := wA 0x3F 4 6 7 0 0 3
     issues rowResume 0 w (suspSt w) = true ∧ ((fetched 0 (suspSt w)).drainStores 0).1 = none ∧ resumeKind (fetched 0 (suspSt w)) 0 1 0x10100 = 5) ∧
    ((Io.exec (memRead 1 0x10100 32) (suspSt ⟨0, 0⟩)).1.toOption.isSome = true ∧
      passes (allResumeFails (suspSt ⟨0, 0⟩) 1 (.pod 0 3 0 0) (leb 8 9 ++ leb 8 0x10400 ++ leb 8 0x100 ++ zeros 8)) = true ∧
      (firstFail (allResumeFails (suspSt ⟨0, 0⟩) 1 (.pod 0 3 0 0) (leb 8 9 ++ leb 8 0x10400 ++ leb 8 0x100 ++ leb 8 2))).isSome = true ∧
      live.units.susp.find 9 = none) ∧
    (live.session 2 = none ∧ live.command 2 7 = none ∧ State.reset.fwReady = false ∧ live.canFinish = true ∧ ((flight (.freeze)).command 1 7).isSome = true) ∧
    (let s := flight (.unmap 1 0x10000 0x1000)
     s.fwReady = true ∧ s.canFinish = true ∧ s.accessing 1 0x10000 0x1000 = false ∧ ((sess1 s).inFlight.find? (fun c => c.rid == 7)).isSome = true ∧
       (let q := { s with pods := ⟨[(0, { thr with stores := [⟨0, 0, [(0x10000, [1])]⟩] })], [], [(1, img1)]⟩ }
        q.accessing 1 0x10000 0x1000 = true)) ∧
    (((sess1 (flight (.contextDestroy 1))).inFlight.find? (fun c => c.rid == 7)).map InFlight.wait = some (.contextDestroy 1) ∧ contextBusy (flight (.contextDestroy 1)) 1 = false ∧
      (flight (.mapQueue 1 (req []))).unmapping 1 = false ∧ (flight (.deferred (req []))).dbg.frz.on = false) := by
  refine ⟨?_, ?_, ?_, ?_, ?_, ?_⟩ <;> decide

/-- A Legend of one column of 32-bit integers, and a program of one word, at 0x10100. -/
def legBytes : List Byte := leb 4 0x4447454C ++ [1, 0] ++ leb 2 1 ++ zeros 56 ++ ([3] ++ zeros 31)
def imgBytes : List Byte := leb 4 0x4D494F50 ++ leb 2 1 ++ leb 2 0 ++ leb 8 7 ++ leb 4 1 ++ leb 4 0 ++ leb 4 64 ++ leb 4 4 ++ leb 4 64 ++ leb 4 0 ++
  leb 8 0 ++ leb 4 64 ++ leb 4 0 ++ leb 8 0 ++ zeros 4

/-- A machine with bytes at 0x10100, whose channels are all ACTIVE. -/
def fileSt (b : List Byte) : State := { live with mem := { live.mem.write 0x20100 b with channels := bare.mem.channels } }

/-- A request to load that image on thread 0, and the state and bytes that reading it leaves. -/
def loadReq : Frame := req (leb 8 0x10100 ++ leb 8 68 ++ leb 8 5 ++ leb 8 0 ++ leb 4 0 ++ leb 2 1 ++ leb 2 0 ++ [1] ++ zeros 63 ++ List.replicate 256 0xFF)
def loadRead : Except Err (List Byte) × State := Io.exec (memRead 1 0x10100 68) (seen loadReq (fileSt imgBytes))

theorem passes_of {l : List (Bool × Err)} (h : ∀ e ∈ l, e.1 = false) : passes l = true := by
  unfold passes
  induction l with
  | nil => rfl
  | cons a t ih =>
    obtain ⟨c, e⟩ := a
    have hc : c = false := h (c, e) (by simp)
    subst hc
    exact ih (fun e he => h e (by simp [he]))

set_option maxRecDepth 20000 in
theorem loadReq_read : loadRead.1.toOption = some imgBytes := by decide

set_option maxRecDepth 20000 in
theorem loadReq_passes : passes (loadFailsB loadRead.2 1 loadReq.payload imgBytes) = true := by
  apply passes_of
  unfold loadFailsB
  simp only [List.forall_mem_cons]
  refine ⟨?_, ?_, ?_, ?_, ?_, ?_, ?_, ?_, ?_, ?_, ?_, ?_, ?_, ?_, ?_, by simp⟩
  all_goals decide

set_option maxRecDepth 20000 in
theorem witness_ImagesLegendsAndContexts :
    (∀ c ∈ [0, 9], let f := req (leb 2 c ++ leb 2 1 ++ zeros 4 ++ leb 8 4096)
      accepted 0x0200 f live sess = true ∧ passes (contextCreateFails f (seen f live)) = true) ∧
    (let f := req (leb 2 1 ++ leb 2 1)
     accepted 0x0201 f live sess = true ∧ passes (contextDestroyFails f (seen f live)) = true) ∧
    (accepted 0x0400 loadReq (fileSt imgBytes) sess = true ∧ passes (loadFailsA (seen loadReq (fileSt imgBytes)) 1 loadReq.payload) = true ∧
      ilReplace loadReq.payload = false ∧ ilThreads loadReq.payload = [0]) ∧
    (∀ d ∈ [0, 1], let f := req (leb 8 1 ++ leb 4 d ++ zeros 4); let s := podSt thr ⟨0, 0⟩
      accepted 0x0401 f s sess = true ∧ passes (imageUnloadFails f sess (seen f s)) = true) ∧
    (let f := req (leb 8 0x10100 ++ leb 4 96 ++ zeros 12); let s := fileSt legBytes
     accepted 0x0500 f s sess = true ∧ passes (legendFails (seen f s) 1 f.payload) = true ∧
       (Io.exec (memRead 1 0x10100 96) (seen f s)).1.toOption = some legBytes) ∧
    (let f := req (leb 8 0 ++ leb 4 0 ++ leb 4 1 ++ leb 8 3); let s := { live with units := { live.units with legends := [(3, ⟨1, legBytes⟩)] } }
     accepted 0x0500 f s sess = true ∧ passes (legendDestroyFails f sess (seen f s)) = true) := by
  refine ⟨?_, ?_, ?_, ?_, ?_, ?_⟩ <;> decide

/-- A machine with a retraining of channel 5. -/
def chanSt (st : ChState) (moved : List Moved) : State := { live with mem := { live.mem with
  channels := bare.mem.channels.put 5 { Channel.init with state := st, moved := moved }
  retrains := [(5, ⟨0, 0⟩)] } }

/-- A MAP of memory, of an alias, of a Pod store's page. -/
def mapReq (kind : Nat) (src : Nat) : Frame := req (leb 8 0x100000 ++ leb 8 4096 ++ [BitVec.ofNat 8 kind, 0, 3, 0, 0xFF, 0, 0, 0] ++ leb 8 src ++ leb 2 1 ++ zeros 6)

set_option maxRecDepth 20000 in
theorem witness_MemoryCommandsAndChannels :
    (∀ e ∈ [(0, 0), (1, 0x10000), (2, 0x020000000000)], let f := mapReq e.1 e.2; let s := fileSt []
      accepted 0x0202 f s sess = true ∧ (seen f s).mapBusy 1 = false ∧ passes (mapNowFails f sess (seen f s)) = true) ∧
    (let s := flight (.unmap 1 0x10000 0x1000)
     accepted 0x0202 (mapReq 0 0) s (sess1 s) = true ∧ (seen (mapReq 0 0) s).mapBusy 1 = true) ∧
    (let s := { live with mem := { live.mem with memGib := 0 } }
     accepted 0x0202 (mapReq 0 0) s sess = true ∧ ((seen (mapReq 0 0) s).allocate 0xFF 4096 4096 false).isNone = true ∧
       passes (mapNowFails (mapReq 0 0) sess (seen (mapReq 0 0) s)) = true) ∧
    (let f := req (leb 8 0x10000 ++ leb 8 0x10000 ++ leb 2 1 ++ zeros 6)
     accepted 0x0203 f live sess = true ∧ (seen f live).mapBusy 1 = false ∧ passes (unmapNowFails f sess (seen f live)) = true) ∧
    (∀ act ∈ [0, 1, 2], let f := req ([1, BitVec.ofNat 8 act] ++ zeros 6)
      let s := { bare with mem := { bare.mem with channels := [(1, { Channel.init with state := if act = 2 then .lost else .active })] } }
      acceptedAs 0x0204 1 act f s sess = true ∧ passes (retrainChannelFails f (seen f s)) = true) ∧
    (let s := chanSt .draining []
     s.frozen (partIsland (islMc 1)) = false ∧ (s.channel 5).state = .draining ∧ (s.inUse 5).head? = some 32 ∧ s.mem.wf = true) ∧ (chanSt .draining []).nextMove 5 = some (32, 0) ∧
    ((chanSt .retraining []).up (islMc 1) = true ∧ ((chanSt .retraining []).channel 5).state = .retraining ∧
      ((chanSt .retraining [⟨1, 2, 0⟩]).channel 5).moved ≠ [] ∧ (chanSt .restoring [⟨1, 2, 0⟩]).frozen (partIsland (islMc 1)) = false) ∧
    ({ live with svc := { live.svc with lostControllers := [3] } }.fwReady = true ∧ live.gaz.banks.sorted = true) := by
  refine ⟨?_, ?_, ?_, ?_, ?_, ?_, ?_, ?_, ?_⟩ <;> decide

/-- An OPEN of 16 descriptors at 0x10000 with 4 streams, its template at 0x10800: 4 rows of 64 bytes, a byte each, from axes 2 and 3 of the frames. -/
def openP : List Byte := [0, 0, 0, 0] ++ zeros 4 ++ leb 8 0x10000 ++ leb 4 16 ++ leb 4 0xFFFFFFFF ++ leb 8 0x10700 ++ leb 8 0x10708 ++ leb 8 0x10800 ++
  leb 8 0 ++ leb 4 0xFFFFFFFF ++ leb 2 4 ++ zeros 2 ++ leb 8 5 ++ zeros 24
def tmplBytes : List Byte := [1, 1, 1] ++ zeros 61 ++ (leb 4 4 ++ zeros 4 ++ leb 8 0 ++ leb 8 1) ++ zeros 168 ++ [3] ++ zeros 7 ++ (leb 2 1 ++ zeros 14) ++ zeros 40

/-- A sample of a session with stores asked for. -/
def sample0 (st : SampleState) : Sample :=
  ⟨zeros 64, 0, 0, st, true, [], 0, false, [(.cut, 0)], 0, 0, none, none, 0, 64, 1, 0, [], false, 0, 0, 0, 0, none, false, false, 0, none,
    some ⟨stOk, 0, 0xFFFF, 0⟩, none⟩
def fsess0 (l : List (Nat × Sample)) : FSession := ⟨1, openP, tmplBytes, 0, 0, l, 1, 0, false, none⟩
def intakeSt (x : FSession) : State := { fileSt [] with frames := { live.frames with sessions := [(9, x)] }, mem := (fileSt []).mem.write 0x20800 tmplBytes }

set_option maxRecDepth 20000 in
theorem witness_FrameSessionsAndSamples :
    (let f := req openP; let s := intakeSt (fsess0 [])
     acceptedAs 0x0530 0 0 f s sess = true ∧ passes (frameOpenFails (seen f s) 1 f.payload) = true ∧
       (Io.exec (memRead 1 0x10800 320) (seen f s)).1.toOption = some tmplBytes) ∧
    (∀ d ∈ [0, 1], let f := req ([1, 0, 0, BitVec.ofNat 8 d] ++ leb 4 9 ++ zeros 88); let s := intakeSt (fsess0 [])
      acceptedAs 0x0530 0 1 f s sess = true ∧ passes (frameCloseFails f sess (seen f s)) = true) ∧
    (let s := intakeSt (fsess0 [])
     s.intakeActive = true ∧ (fsess0 []).streams = 4 ∧ (Io.exec (memRead 1 0x10700 4) s).1.toOption = some (zeros 4)) ∧
    (let s := intakeSt (fsess0 [(0, sample0 .stores)])
     storeFree s (fsess0 [(0, sample0 .stores)]) 64 = true ∧ s.works (unitFrame 0) = true ∧ s.allSamples = [sample0 .stores] ∧
       sBudget (fsess0 []) (sample0 .ready).desc = none) ∧
    ((intakeSt (fsess0 [(0, sample0 .ready)])).nextTurn 0 = some (9, 0) ∧ (intakeSt (fsess0 [(0, sample0 .held)])).nextTurn 0 = none ∧
      (intakeSt (fsess0 [(0, sample0 .held)])).firstToLeave 9 0 = true ∧
      ({ intakeSt (fsess0 [(0, sample0 .held), (1, sample0 .held)]) with frames := { (intakeSt (fsess0 [(0, sample0 .held), (1, sample0 .held)])).frames with
        ended := [(9, 1), (9, 0)] } }).firstToLeave 9 0 = false) ∧
    ({ sample0 .ready with complete := true }.wants (fsess0 []) = true ∧ (sample0 .ready).placed = false) := by
  refine ⟨?_, ?_, ?_, ?_, ?_, ?_⟩ <;> decide

/-- An ATTACH of batches of 2 with a ring of 2 manifests at 0x12000. -/
def attachP (act : Nat) : List Byte := [BitVec.ofNat 8 act, 0] ++ leb 2 (if act = 0 then 2 else 0) ++ leb 4 9 ++ leb 4 0 ++ zeros 4 ++
  (if act = 0 then leb 8 0x12000 ++ leb 4 2 ++ zeros 4 ++ leb 8 0x12F00 else zeros 24) ++ zeros 24

/-- An entry, and an Assembler with n of them in its first batch. -/
def man0 : ManEntry := ⟨1, 0x10000, 4, 1, 0, 0, 0⟩
def asm0 (n : Nat) : Assembler := { asmOf (attachP 0) with batches := [⟨(List.range n).map (fun j => (j, man0)), [], [], false⟩] }
def asmSt (a : Option Assembler) : State := { intakeSt { fsess0 [] with asm := a } with disp := { live.disp with flows := [(0, flow1)] } }

set_option maxRecDepth 20000 in
theorem manifest_written :
    (Io.exec (memWrite 1 ((asm0 2).man + (asm0 2).written % (asm0 2).entries * (asm0 2).stride) ((asm0 2).manifest 9 5)) (asmSt (some (asm0 2)))).1.toOption.isSome =
      true := by
  decide +kernel

set_option maxRecDepth 20000 in
theorem witness_BatchAssembly :
    (let f := req (attachP 0); let s := asmSt none
     acceptedAs 0x0531 0 0 f s sess = true ∧ passes (batchFails (seen f s) 1 f.payload) = true) ∧
    (let f := req (attachP 2); let s := asmSt (some (asm0 0))
     acceptedAs 0x0531 0 2 f s sess = true ∧ passes (batchFails (seen f s) 1 f.payload) = true ∧ (asm0 0).anyPartly = false) ∧
    (let f := req (attachP 1); let s := asmSt (some (asm0 1))
     acceptedAs 0x0531 0 1 f s sess = true ∧ passes (batchFails (seen f s) 1 f.payload) = true ∧ (asm0 1).anyPartly = true) ∧
    (let a := asm0 2; let s := asmSt (some a)
     s.intakeActive = true ∧ a.item = none ∧ a.done 0 = true ∧ a.full = false) ∧
    ({ asm0 2 with written := 2 }.full = true ∧ { asm0 2 with item := some [] }.item = some [] ∧ (Io.exec (memRead 1 0x12F00 4) (asmSt none)).1.toOption.isSome = true) := by
  refine ⟨?_, ?_, ?_, ?_, ?_⟩ <;> decide

/-- A machine whose port 0 is in a state; a link frame of a kind. -/
def portSt (st : PortState) : State := { live with
  ctl := { live.ctl with now := 20000 }
  fab := { live.fab with ports := [(0, { FPort.init0 with state := st, init := [9, 9, 9, 9] })], routes := [(3, mkEnt [0, 1] false 1)], grat := 2 } }
def linkF (kind : Nat) (body : List Byte) : LinkFrame :=
  ⟨etherBytes (List.replicate 6 0xFF) [2, 0, 0, 0, 0, 1] (linkBytes [0, 0, 0, 0] kind 0 0 0 body false)⟩
def initF (lo hi : Nat) : LinkFrame := linkF 3 (leb 8 77 ++ leb 1 4 ++ leb 1 lo ++ leb 1 hi ++ zeros 1 ++ leb 2 9 ++ zeros 10 ++ (List.replicate 4 (leb 2 8192)).flatten)
def dataF : LinkFrame := linkF 0 (leb 2 2 ++ leb 2 3 ++ [0, 16] ++ zeros 26)

set_option maxRecDepth 20000 in
theorem witness_FabricLinks :
    ((portSt .down).up (islFabric 0) = true ∧ (portSt .down).clkMode ≠ 3 ∧ ((portSt .down).fport 0).state = .down ∧ ((portSt .init).fport 0).gotInit = false ∧
      ((portSt .init).fport 0).lastTx + 1000 ≤ (portSt .init).ctl.now) ∧
    (let s := { portSt .init with ctl := { live.ctl with now := 100000000 }, fab := { live.fab with ports := [(0, { FPort.init0 with state := .init, gotInit := true })] } }
     (s.fport 0).gotInit = true ∧ (s.fport 0).lastTx + 100000000 ≤ s.ctl.now) ∧
    (((portSt .up).fport 0).lastTx + 100 ≤ (portSt .up).ctl.now ∧ ((portSt .up).fport 0).lastRx + 10000 ≤ (portSt .up).ctl.now ∧ ((portSt .up).fport 0).nak = none) ∧
    (linkBad (initF 1 1) = none ∧ fld (linkPart (initF 1 1)) 1 1 = 3 ∧ fld (sub (linkPart (initF 1 1)) 16 32) 9 1 = 1 ∧ linkBad (initF 2 2) = none ∧
      fld (sub (linkPart (initF 2 2)) 16 32) 9 1 = 2) ∧
    (linkBad ⟨zeros 64⟩ = some false) ∧
    (linkBad dataF = none ∧ fld (linkPart dataF) 1 1 = 0 ∧ fld (linkPart dataF) 4 2 = 0 ∧ linkBad (linkF 1 []) = none ∧ linkBad (linkF 2 []) = none ∧
      fld (linkPart (linkF 2 [])) 1 1 = 2 ∧ ((portSt .up).ackPort 0 (linkPart (linkF 2 []))).portFrozen 0 = false ∧
      (((portSt .up).ackPort 0 (linkPart (linkF 2 []))).fport 0).replay = []) ∧
    (let s := { portSt .up with fab := { live.fab with ports := [(0, { FPort.init0 with state := .up, replay := [(0, 0, ⟨2, 3, 0, 16, 0, 1, 0, 5, 0, 0, [], 0⟩)] })] } }
     (((s.ackPort 0 (linkPart (linkF 2 []))).fport 0).replay.head?.map Prod.fst) = some (fld (linkPart (linkF 2 [])) 6 2)) := by
  refine ⟨?_, ?_, ?_, ?_, ?_, ?_, ?_⟩ <;> decide +kernel

/-- A machine whose discovery runs at epoch 4 with parent 0, with a message of port 0 at hand. -/
def discSt (parent : Option Nat) (m : List Byte) : State := { portSt .up with
  ctl := { live.ctl with now := 2000000 }
  fab := { (portSt .up).fab with
    disc := some (Discovery.start 4 7 parent 0), changedAt := some 0, msgs := [(0, ⟨2, 3, 16, 16, 0, 0, 0, 0, 0, 0, m, 0⟩)] } }
def msgAt (k e : Nat) (body : List Byte) : List Byte := discMsg k 0 e 0 3 body

set_option maxRecDepth 20000 in
theorem witness_FabricDiscovery :
    (let s := discSt (some 0) []
     s.fwReady = true ∧ s.fab.changedAt = some 0 ∧ s.upPorts = [0] ∧ s.serial = 0) ∧
    ((((discSt (some 0) (msgAt 1 5 [])).nextMsg 0 1).map Prod.fst) = some (msgAt 1 5 []) ∧ (discSt (some 0) []).discEpoch = 4 ∧
      (((discSt (some 0) (msgAt 2 4 (zeros 4))).nextMsg 0 2).map Prod.fst) = some (msgAt 2 4 (zeros 4)) ∧
      (((discSt (some 0) (msgAt 4 4 [])).nextMsg 0 4).map Prod.fst) = some (msgAt 4 4 []) ∧
      (((discSt (some 0) (msgAt 5 4 [])).nextMsg 0 5).map Prod.fst) = some (msgAt 5 4 []) ∧
      (((discSt (some 0) (msgAt 5 3 [])).nextMsg 0 5).map Prod.fst) = some (msgAt 5 3 []) ∧ (discSt (some 0) []).nextMsg 0 5 = none) ∧
    ((((discSt (some 0) (msgAt 3 4 (zeros 2052))).nextMsg 0 3).map (fun m => (fld m.1 4 4, fld m.1 8 8))) = some (4, 0)) ∧
    (assignAddrs [] [⟨5, 12, 0xFFFF, []⟩, ⟨6, 1, 0xFFFF, []⟩] = [(5, 0), (6, 1)]) ∧
    (accepted 0x0600 (req []) (portSt .up) sess = true ∧ accepted 0x0601 (req (zeros 8)) (portSt .up) sess = true ∧ live.upPorts = []) := by
  refine ⟨?_, ?_, ?_, ?_, ?_⟩ <;> decide

/-- A machine to whose port 0 a request frame of context 1 has come; one with a request of an operation outstanding. -/
def arrived (op : Nat) (payload : List Byte) (want : Nat) (aux : Nat) : State := { portSt .up with
  disp := { live.disp with flows := [(0, flow1)] }
  fab := { (portSt .up).fab with ports := [(0, { FPort.init0 with state := .up, rx := [(0, ⟨2, 3, op, 16, 0, 1, 0, 5, 0x10100, aux, payload, want⟩)] })] } }
def remote0 : RemoteOp := ⟨.pod 0 3 0 0, 0, 1, leb 2 8 ++ zeros 62, [], [4], [], [], []⟩
def outstanding (now : Nat) : State := { live with
  ctl := { live.ctl with now := now }
  fab := { live.fab with ops := [(7, remote0)], reqs := [(5, ⟨7, 0, ⟨3, 2, 0, 16, 0, 1, 0, 5, 0, 0, [], 0⟩, 0, 0x10100, some 0⟩)] } }

set_option maxRecDepth 20000 in
theorem witness_RemoteRequestsAndResponses :
    (∀ k ∈ [0, 1, 2], let s := arrived k [1, 2, 3, 4] 4 1; let f := ((s.nextArrival 0 [k]).getD (0, ⟨0, 0, 0, 0, 0, 0, 0, 0, 0, 0, [], 0⟩)).2
      f.ctx = 1 ∧ f.op = k ∧ noContext (s.takeArrival 0 0 f) f = false ∧
        (Io.exec (memWrite 1 0x10100 [1, 2, 3, 4]) (s.takeArrival 0 0 f)).1.toOption.isSome = true ∧
        (Io.exec (memRead 1 0x10100 4) (s.takeArrival 0 0 f)).1.toOption.isSome = true ∧
        (Io.exec (memModify 1 0x10100 4 (fun b => leb 4 (le b + 1))) (s.takeArrival 0 0 f)).1.toOption.isSome = true) ∧
    (let s := arrived 3 (zeros 40) 0 0; ((s.nextArrival 0 [3]).map (fun e => noContext s e.2)) = some false ∧ (s.flow 0).isSome = true ∧ fidKind 0 = 0 ∧
      s.flow 1 = none ∧ (s.nextArrival 0 [0]) = none ∧ s.memFrozen = false) ∧
    (((arrived 8 [] 0 0).nextArrival 0 [8, 9, 10, 11, 12]).isSome = true ∧ ((outstanding 0).fab.reqs.find 5).isSome = true ∧
      ((outstanding 0).fab.ops.find 7).isSome = true ∧ (Io.exec (memWrite 1 0x10100 [1, 2, 3, 4]) (outstanding 0)).1.toOption.isSome = true) ∧
    ((outstanding 100000000).fab.reqs.find 5 ≠ none ∧ (outstanding 0).fab.reqs.find 6 = none) := by
  refine ⟨?_, ?_, ?_, ?_⟩ <;> decide

/-- A firmware image of an empty body with its signature block, signed by a test key whose digest the fuses of fuses0 hold. -/
def fwBody : List Byte := leb 4 0x57465653 ++ leb 2 1 ++ leb 2 0 ++ leb 4 7 ++ [3, 1] ++ leb 2 0 ++ leb 4 16 ++ leb 4 0 ++ leb 4 80 ++ zeros 52
def fwKey : List Byte := [4] ++ beb 48 0x2058f1c574f94e9cd6d34e5fc6b9333a433b0279aeac0bb5482088edc042977271096b76898962e12a4f9a5d56258e85 ++ beb 48 0xae4292d0a3b10c317e62f5126b5e16ecf6bc93d1ef3a452bc713332369197050484275ed38cc9a359e5370c200cc9712
def fwSig : List Byte := beb 48 0x11de24a2c251c777573cac5ea025e467f208e51dbff98fc54f6661cbe56583b037882f4a1ca297e60abcdbc3836d84bc ++ beb 48 0xfe51e5ed1a1a0108d0c75c008d0f80e3c1f78f88dc6a6986e86d9678c659c195ca39b0f1a0d2d12220d04935627bcaad
def fwBlock : List Byte := leb 4 0x42474953 ++ [1, 0] ++ leb 2 0 ++ leb 8 80 ++ fwKey ++ zeros 3 ++ fwSig ++ zeros 12
def fuses0 : Fuses := { State.reset.fw.fuses with rootHash := [beb 48 0x36102f6f297df24c9c798384b3611fe646058955a6c979023542ca9df7d7eeee879a3240418d2ddde074cc6fa40bb95b, [], [], []] }
def fwImage (slot : Nat) : FwImage := ⟨slot, 7, 3, 1, 0, beb 48 0xfe51e5ed1a1a0108d0c75c008d0f80e3c1f78f88dc6a6986e86d9678c659c195ca39b0f1a0d2d12220d04935627bcaad⟩

theorem fwBody_digest : sha384 fwBody = beb 48 0xfe51e5ed1a1a0108d0c75c008d0f80e3c1f78f88dc6a6986e86d9678c659c195ca39b0f1a0d2d12220d04935627bcaad := by decide +kernel
theorem fwKey_digest : sha384 (sub fwBlock 0x10 97) = beb 48 0x36102f6f297df24c9c798384b3611fe646058955a6c979023542ca9df7d7eeee879a3240418d2ddde074cc6fa40bb95b := by decide +kernel
theorem fwBlock_signed : ecdsaVerify (sub fwBlock 0x10 97) (beb 48 0xfe51e5ed1a1a0108d0c75c008d0f80e3c1f78f88dc6a6986e86d9678c659c195ca39b0f1a0d2d12220d04935627bcaad) (sub fwBlock 0x74 96) = true := by decide +kernel

/-- That image passes its checks wherever its bytes are read from. -/
theorem fwImage_ok (slot avail : Nat) (rd : Nat → Nat → List Byte) (ha : 304 ≤ avail) (h1 : rd 0 64 = fwBody.take 64) (h2 : rd 80 224 = fwBlock)
    (h3 : rd 0 80 = fwBody) : checkImage fuses0 slot avail rd = .ok (fwImage slot) := by
  have ho : fld (fwBody.take 64) 0x18 4 = 80 := by decide
  have hav : (avail < 288) = False := by simp; omega
  have hso : (80 + 224 > avail) = False := by simp; omega
  unfold checkImage
  simp only [h1, ho, h2, h3, fwBody_digest, fwKey_digest, fwBlock_signed, hav, hso]
  rfl

/-- Its slot record, PENDING with sequence 9. -/
def slotBytes : List Byte :=
  let b := leb 4 0x544F4C53 ++ leb 1 2 ++ zeros 3 ++ leb 8 9 ++ beb 48 0xfe51e5ed1a1a0108d0c75c008d0f80e3c1f78f88dc6a6986e86d9678c659c195ca39b0f1a0d2d12220d04935627bcaad
  b ++ leb 4 (crc32c b)

/-- A machine at the boot ROM whose primary flash holds that image in slot A, PENDING. -/
def romSt : State := { live with
  ctl := { live.ctl with surveyor := .atRom }
  fw := { live.fw with fuses := fuses0, primary := { live.fw.primary with bytes :=
    (slotBytes.zipIdx.map (fun b => (b.2, b.1))) ++ ((fwBody ++ fwBlock).zipIdx.map (fun b => (4096 + b.2, b.1))) } } }

theorem romSt_image (fl : Flash) (h : fl = romSt.flash) : fl.checkSlot fuses0 0 = .ok (fwImage 0) := by
  subst h
  exact fwImage_ok 0 maxImage _ (by decide) (by decide +kernel) (by decide +kernel) (by decide +kernel)

/-- An image that runs from a slot is read again from it. -/
theorem reread_slot (s : State) (r : FwImage) (h : s.fw.running = some r) (h2 : r.slot < 2) (h3 : s.up islLow = true) :
    rereadImage s = s.flash.checkSlot s.fw.fuses r.slot := by
  unfold rereadImage
  rw [h]
  simp [h2, h3]

/-- A machine that waits for BOOT_LOAD with that image staged. -/
def netSt : State := { live with
  ctl := { live.ctl with surveyor := .netboot, straps := 2, stagingLen := 304, staging := ((fwBody ++ fwBlock).zipIdx).map (fun b => (b.2, b.1)) }
  fw := { live.fw with fuses := fuses0 } }

set_option maxRecDepth 20000 in
theorem witness_BootAndFirmwareStart :
    (romSt.relocking = false ∧ romSt.up islLow = true ∧ romSt.ctl.straps.toNat % 4 = 0 ∧ candidates romSt.flash = [(0, ⟨2, 9⟩)] ∧
      romSt.flash.checkSlot romSt.fw.fuses 0 = .ok (fwImage 0)) ∧
    (let s := { romSt with fw := live.fw }; candidates s.flash = []) ∧
    (let s := { live with ctl := { live.ctl with surveyor := .atRom, lockStatus := BitVec.allOnes 47, resetSinceRom := false } }
     s.relocking = true ∧ (match rereadImage s with
       | .error _ => true
       | .ok _ => false) = true) ∧
    (let s := { romSt with ctl := { romSt.ctl with lockStatus := BitVec.allOnes 47, resetSinceRom := false }, fw := { romSt.fw with running := some (fwImage 0) } }
     s.relocking = true ∧ rereadImage s = .ok (fwImage 0)) ∧
    (∀ e ∈ [(0, 4, 0), (1, 0, 0), (2, 0, 0)], let f := req ([BitVec.ofNat 8 e.1] ++ zeros 3 ++ leb 4 e.2.1 ++ leb 8 e.2.2 ++ zeros e.2.1)
      acceptedAs 0x0A02 0 e.1 f netSt sess = true ∧ passes (bootLoadFails f (seen f netSt)) = true) ∧
    (checkImage netSt.fw.fuses 2 netSt.ctl.stagingLen netSt.staged = .ok (fwImage 2)) := by
  refine ⟨⟨?_, ?_, ?_, ?_, ?_⟩, ?_, ?_, ⟨?_, ?_⟩, ?_, ?_⟩
  · decide
  · decide
  · decide
  · decide +kernel
  · exact romSt_image _ rfl
  · decide +kernel
  · decide
  · decide
  · exact (reread_slot _ (fwImage 0) rfl (by decide) (by decide)).trans (romSt_image _ rfl)
  · decide
  · exact fwImage_ok 2 304 _ (by decide) (by decide +kernel) (by decide +kernel) (by decide +kernel)

/-- A machine that runs an image from slot B, whose session owns the flash, slot A holding the image above; an FW_UPDATE of an ACTION. -/
def fwSt : State := { live with
  svc := { live.svc with owners := [(8, ⟨1, false, 1, 0⟩)] }
  fw := { romSt.fw with running := some (fwImage 1) } }
def fwReq (act : Nat) (data : List Byte) : Frame := req ([BitVec.ofNat 8 act] ++ zeros 3 ++ leb 4 data.length ++ leb 8 0 ++ data)

set_option maxRecDepth 20000 in
theorem witness_FirmwareUpdateAndAttestation :
    (let f := fwReq 0 [1, 2]
     acceptedAs 0x0702 0 0 f fwSt sess = true ∧ passes (fwWriteFails f 1 (seen f fwSt)) = true) ∧
    (let f := fwReq 1 []
     acceptedAs 0x0702 0 1 f fwSt sess = true ∧ passes (fwActivateFails f 1 (seen f fwSt)) = true ∧ fwSt.inactiveSlot = 0 ∧
       fwSt.flash.checkSlot fwSt.fw.fuses 0 = .ok (fwImage 0)) ∧
    (let s := { fwSt with fw := { fwSt.fw with running := some (fwImage 0) } }
     let f := fwReq 2 []
     acceptedAs 0x0702 0 2 f s sess = true ∧ passes (fwCommitFails f 1 (seen f s)) = true) ∧
    (let f := fwReq 3 []
     acceptedAs 0x0702 0 3 f fwSt sess = true ∧ passes (fwFails f 1 (seen f fwSt)) = true) ∧
    (let f := fwReq 4 ([1, 0] ++ zeros 54)
     acceptedAs 0x0702 0 4 f fwSt sess = true ∧ passes (fwConfigFails f 1 (seen f fwSt)) = true) ∧
    (let f := req (zeros 32 ++ leb 2 0xFFFF ++ zeros 6)
     accepted 0x0700 f fwSt sess = true ∧ passes (attestFails f sess (seen f fwSt)) = true) ∧
    (let s := { fwSt with ctl := { fwSt.ctl with surveyor := .paused }, fw := { fwSt.fw with handover := some (fwImage 0) } }
     s.rcp.heldFrames = [] ∧ s.ctl.now < s.fw.pauseAt + 400000 ∧ s.fw.pauseAt + 400000 ≤ { s with ctl := { s.ctl with now := 400000 } }.ctl.now) ∧
    (accepted 0x0701 (req (zeros 8)) fwSt sess = true ∧ accepted 0x0703 (req (zeros 8)) fwSt sess = true) := by
  refine ⟨?_, ⟨?_, ?_, ?_, ?_⟩, ⟨?_, ?_⟩, ?_, ?_, ?_, ?_, ?_⟩
  · decide
  · decide
  · decide
  · decide
  · exact romSt_image _ rfl
  · decide
  · decide +kernel
  · decide
  · decide
  · decide
  · decide
  · decide

/-- A POD_QUARANTINE of Pod 3 and a SERVICE_STATUS with an ACTION. -/
def quarReq (act flags : Nat) : Frame := req (leb 2 3 ++ [BitVec.ofNat 8 act, BitVec.ofNat 8 flags] ++ zeros 4)
def svcReq (act t : Nat) : Frame := req ([BitVec.ofNat 8 act, 0] ++ leb 2 t ++ zeros 4)
def quarSt : State := { live with pods := { live.pods with pods := [(3, { Pod.init with quarantine := true, quarAt := 1 })] }, ctl := { live.ctl with now := 100001 } }
def waitSt (w : Wait) : State := { live with rcp := { live.rcp with sessions := [(1, { sess with inFlight := [⟨1, 0x0803, .host, 0xFFFF0A000002, 5000, w, 0⟩] })] } }

set_option maxRecDepth 20000 in
theorem witness_PodServiceAndEngines :
    (∀ k ∈ [0, 1], acceptedAs 0x0803 2 0 (quarReq 0 k) live sess = true ∧ passes (quarantineFails (seen (quarReq 0 k) live) (quarReq 0 k).payload) = true) ∧
    (∀ k ∈ [1, 2], let s := { live with pods := { live.pods with pods := [(3, { Pod.init with quarantine := true, selftest := some 0 })], threads := (List.range 16).map (fun k => (48 + k, { Thread.init with st := .quarantined })) } }
      acceptedAs 0x0803 2 k (quarReq k 0) s sess = true ∧ passes (quarantineFails (seen (quarReq k 0) s) (quarReq k 0).payload) = true) ∧
    (∀ e ∈ [(0, 0), (1, 5), (2, 1), (3, 0)], acceptedAs 0x0802 0 e.1 (svcReq e.1 e.2) live sess = true ∧
      passes (serviceFails (seen (svcReq e.1 e.2) live) sess (svcReq e.1 e.2).payload) = true) ∧
    ((quarSt.pod 3).quarantine && !(quarSt.pod 3).draining && decide ((quarSt.pod 3).quarAt + 100000 ≤ quarSt.ctl.now) && (quarSt.thread 48).st != .quarantined) = true ∧
    (∀ w ∈ [Wait.selftest 3, .engineReset 5, .recal], (waitSt w).fwReady = true ∧ ((waitSt w).command 1 1).map (fun c => (c.2.wait, c.2.rid)) = some (w, 1)) ∧
    (let s := { live with svc := { live.svc with relink := [(1, 0)] } }; s.svc.relink = [(1, 0)] ∧ s.ctl.now < 0 + 50000000) ∧
    (let s := { live with ctl := { live.ctl with now := 8640000000000 } }
     s.fwReady = true ∧ s.clk.recal = false ∧ s.clk.calTime + 8640000000000 ≤ s.ctl.now ∧ (List.replicate 32 (0 : BitVec 6)).length = 32) ∧
    (live.ctl.fabricOn = true ∧ live.dbg.frz.on = false ∧ live.fwReady = true ∧ live.host.link = .up) := by
  refine ⟨?_, ?_, ?_, ?_, ?_, ?_, ?_, ?_⟩ <;> decide

/-- A CLAIM of GPIO pin 2, and an injection into channel 5's detector for address 0x10000. -/
def claimReq (cls : Nat) : Frame := req (leb 2 2 ++ [BitVec.ofNat 8 cls, 0] ++ zeros 4)
def injReq (act : Nat) : Frame := req (leb 4 (detId 3 5) ++ [BitVec.ofNat 8 act, 0] ++ zeros 18)

set_option maxRecDepth 20000 in
theorem witness_SharedResourcesAndDetectors :
    (accepted 0x0800 (claimReq 1) live sess = true ∧ passes (claimFails (seen (claimReq 1) live) 1 sess (claimReq 1).payload) = true ∧ live.owner 2 = none) ∧
    (let s := { live with svc := { live.svc with owners := [(2, ⟨1, false, 0, 0⟩)] } }
     accepted 0x0800 (claimReq 1) s sess = true ∧ passes (claimFails (seen (claimReq 1) s) 1 sess (claimReq 1).payload) = true ∧ s.owns 1 2 = true ∧
       accepted 0x0801 (req (leb 2 2 ++ zeros 6)) s sess = true ∧ passes (releaseResFails (req (leb 2 2 ++ zeros 6)) 1 (seen (req (leb 2 2 ++ zeros 6)) s)) = true) ∧
    (let s := { live with svc := { live.svc with owners := [(2, ⟨9, false, 0, 0⟩)] } }
     passes (claimFails (seen (claimReq 1) s) 1 sess (claimReq 1).payload) = true ∧ s.owns 1 2 = false) ∧
    (let s := { live with svc := { live.svc with owners := [(2, ⟨2, false, 0, 0⟩)] }, rcp := { live.rcp with sessions := [(1, sess), (2, sess)] } }
     accepted 0x0800 (claimReq 1) s sess = true ∧ passes (claimFails (seen (claimReq 1) s) 1 sess (claimReq 1).payload) = true ∧ s.owns 1 2 = false ∧
       s.session 2 = some sess ∧ bit sess.mask 2 = true) ∧
    (let f := req (leb 4 (detId 9 0x2B1) ++ zeros 20)
     acceptedAs 0x0804 4 0 f live sess = true ∧ passes (injectFails (seen f live) f.payload) = true ∧ bits (fld f.payload 0 4) 31 24 = 9) ∧
    (acceptedAs 0x0804 4 0 (injReq 0) live sess = true ∧ passes (injectFails (seen (injReq 0) live) (injReq 0).payload) = true) ∧
    (let s := live.modDetector (detId 3 5) (fun d => { d with armed := some ⟨0, 0, 0, 0, 0⟩ })
     acceptedAs 0x0804 4 1 (injReq 1) s sess = true ∧ passes (injectFails (seen (injReq 1) s) (injReq 1).payload) = true) ∧
    (live.rcp.sessions = [(1, sess)] ∧ sess.priv = true ∧ bit sess.mask 0 = true ∧ (live.detector (detId 3 5)).lastEvent = none) := by
  refine ⟨?_, ?_, ?_, ?_, ?_, ?_, ?_, ?_⟩ <;> decide

/-- A TRAVERSE_CONFIG, and a machine whose session 1 owns the Traverse buffer and whose capture is t. -/
def trvReq (act mode post flags cores src : Nat) : Frame :=
  req ([BitVec.ofNat 8 act, BitVec.ofNat 8 mode, BitVec.ofNat 8 post, BitVec.ofNat 8 flags, BitVec.ofNat 8 cores, BitVec.ofNat 8 src] ++ zeros 26)
def trv0 : Trv := { State.reset.dbg.trv with state := 1, mode := 2, post := 4, cores := 3, stall := true, trigSrc := 1, capacity := 16, gaps := [0, 0, 0, 0] }
def trvSt (t : Trv) : State := { live with
  svc := { live.svc with owners := [(resTraverse, ⟨1, false, 0, 0⟩)] }
  dbg := { live.dbg with trv := t } }

set_option maxRecDepth 20000 in
theorem witness_TraverseCapture :
    (let s := trvSt State.reset.dbg.trv; let f := trvReq 0 0 0 0 3 0
      acceptedAs 0x0902 0 0 f s sess = true ∧ passes (trvFails f 1 (seen f s)) = true) ∧
    (let s := trvSt trv0; let f := trvReq 1 0 0 0 0 0; acceptedAs 0x0902 0 1 f s sess = true ∧ passes (trvFails f 1 (seen f s)) = true) ∧
    (let s := trvSt trv0; let f := trvReq 2 0 0 0 0 0; acceptedAs 0x0902 0 2 f s sess = true ∧ passes (trvFails f 1 (seen f s)) = true) ∧
    (let s := trvSt { trv0 with state := 3, recs := [⟨5, 0, 0, 0, 0, 0⟩] }; let f := trvReq 3 0 0 0 0 0
      acceptedAs 0x0902 0 3 f s sess = true ∧ passes (trvFails f 1 (seen f s)) = true) ∧
    (live.dbg.trv.capturing = false ∧ live.dbg.trv.awaits = false) ∧
    (trv0.capturing = true ∧ bit trv0.cores 1 = true ∧ live.up islSurveyor = true ∧ live.ctl.surveyor ≠ .paused ∧ trv0.state = 1 ∧
      nth trv0.gaps 0 1 = 0 ∧ trv0.recs.length < trv0.capacity ∧ trv0.mode ≠ 0) ∧
    (let t := { trv0 with gaps := [0, 3, 0, 0] }; t.recs.length + 2 ≤ t.capacity ∧ nth t.gaps 0 1 ≠ 0 ∧ { t with stall := false }.stall = false) ∧
    (trv0.awaits = true ∧ bit trv0.trigSrc 0 = true ∧ 16 ≤ trv0.capacity ∧ 1 ≤ trv0.post) := by
  refine ⟨?_, ?_, ?_, ?_, ?_, ?_, ?_, ?_⟩ <;> decide

/-- A machine with a freeze z, and a FREEZE. -/
def frz0 : Frz := ⟨true, 1, [], false, false, 0, 1, none, false⟩
def frzSt (z : Frz) (now : Nat) : State := { live with dbg := { live.dbg with frz := z, trv := trv0 }, ctl := { live.ctl with now := now } }
def frzReq (act : Nat) : Frame := req ([BitVec.ofNat 8 act] ++ zeros 15)

set_option maxRecDepth 20000 in
theorem witness_FreezeAndThaw :
    (∀ k ∈ [(0, State.reset.dbg.frz), (1, State.reset.dbg.frz), (2, { State.reset.dbg.frz with arm := some ⟨false, 0⟩ })], let s := frzSt k.2 0
      acceptedAs 0x0900 0 k.1 (frzReq k.1) s sess = true ∧ passes (freezeCmdFails (frzReq k.1) (seen (frzReq k.1) s)) = true) ∧
    (let s := frzSt { frz0 with late := true } 0; let f := req (zeros 8)
      accepted 0x0901 f s sess = true ∧ passes (thawCmdFails f (seen f s)) = true) ∧
    (frz0.on = true ∧ 5 ∈ freezeParts ∧ 5 ∉ frz0.parts ∧ frz0.parts.length + 1 ≠ freezeParts.length) ∧
    (let z := { frz0 with parts := freezeParts.drop 1 }; 0 ∈ freezeParts ∧ 0 ∉ z.parts ∧ z.parts.length + 1 = freezeParts.length) ∧
    (let s := frzSt frz0 100000; s.dbg.frz.cut = false ∧ s.dbg.frz.late = false ∧ s.dbg.frz.began + 100000 ≤ s.ctl.now ∧
      freezeParts.find? (fun u => !s.dbg.frz.parts.contains u) = some 0) ∧
    (let s := frzSt { frz0 with late := true } 100000; s.isFrozen = true ∧ s.dbg.frz.timeout ≠ 0 ∧
      s.dbg.frz.began + s.dbg.frz.timeout * 100000 ≤ s.ctl.now ∧ s.fwReady = true) := by
  refine ⟨?_, ?_, ?_, ?_, ?_, ?_⟩ <;> decide

/-- A WAIT_GRAPH, and a machine whose session 1 has a graph g. -/
def graphReq (off : Nat) : Frame := req ([0, 0] ++ leb 2 0xFFFF ++ leb 4 off)
def rec0 (a b : Nat) : WaitRec := ⟨0, a, 3, 0, 0, 1, 1, [(0, b)], false, false, false⟩
def wg0 : WaitGraph := ⟨1, 0xFFFF, false, [rec0 0 1, rec0 1 0], false, 0⟩
def graphSt (g : WaitGraph) (now : Nat) : State := { live with
  dbg := { live.dbg with graphs := [(1, g)], assembling := [(1, 7, g)], smp := { live.dbg.smp with enable := true, ctx := 1, ring := 0x10000, entries := 4 } }
  ctl := { live.ctl with now := now }
  pods := ⟨[(0, thr)], [], [(1, img1)]⟩ }

set_option maxRecDepth 20000 in
theorem witness_WaitGraphAndSampler :
    (let s := graphSt wg0 0; accepted 0x0903 (graphReq 1) s sess = true ∧
      passes (waitGraphFails (seen (graphReq 1) s) 1 sess (graphReq 1).payload) = true) ∧
    (∀ s ∈ [live, frzSt frz0 0], accepted 0x0903 (graphReq 0) s sess = true ∧ passes (waitGraphFails (seen (graphReq 0) s) 1 sess (graphReq 0).payload) = true) ∧
    (let s := graphSt wg0 100000; s.dbg.assembling.find? (fun a => a.1 == 1) = some (1, 7, wg0) ∧ s.session 1 = some sess ∧ s.fwReady = true ∧
      wg0.began + 100000 ≤ s.ctl.now) ∧
    ((wg0.recs.map (fun r => (r.wkind, r.waiter))).Nodup ∧ (markRecs wg0.recs wg0.recs).map WaitRec.knot = [true, true]) ∧
    (let s := graphSt wg0 0; s.dbg.smp.enable = true ∧ s.works 0 = true ∧ (s.pod 0).quarantine = false ∧ nextSampled s 0 = some 0) := by
  refine ⟨?_, ?_, ?_, ?_, ?_⟩ <;> decide

/-- A machine whose RESET_N pulse has come to a level; one in power-on reset whose rails are good. -/
def pinSt (l : Option Level) : State := { live with ctl := { live.ctl with pinLevel := l } }
def porSt : State := { State.reset with ctl := { State.reset.ctl with held := some .power, porCounting := true, railGood := List.replicate 6 true, now := 16384 } }

set_option maxRecDepth 20000 in
theorem witness_ResetLevels :
    (∀ l ∈ [none, some Level.core, some Level.system], (pinSt l).ctl.refclk = true ∧ (pinSt l).ctl.held ≠ some .power ∧ (pinSt l).ctl.pinLevel = l ∧
      (pinSt l).ctl.driving = false) ∧
    (live.mem.channels.sorted = true ∧ live.svc.detectors.sorted = true ∧ live.mem.bytes.sorted = true) ∧
    (porSt.ctl.refclk = true ∧ porSt.ctl.held = some .power ∧ porSt.ctl.porCounting = true ∧ porSt.ctl.railGood.all id = true ∧ porSt.ctl.goodAt + 16384 ≤ porSt.ctl.now) ∧
    ((refclkStop porSt).ctl.refclk = false) := by
  refine ⟨?_, ?_, ?_, ?_⟩ <;> decide

set_option maxRecDepth 20000 in
theorem witness_ResetCommandClockAndIslands :
    (∀ k ∈ [0, 1], let f := req ([BitVec.ofNat 8 k] ++ zeros 7); acceptedAs 0x0A00 0 k f live sess = true ∧ passes (resetCmdFails f) = true) ∧
    (let c := { live.ctl with driveLevel := some .core, now := 100000 };
      c.refclk = true ∧ c.driveLevel ≠ none ∧ c.driving = false ∧ c.driveAt + 100000 ≤ c.now) ∧
    ({ live.ctl with driving := true, now := 40000 }.driveAt + 40000 ≤ 40000 ∧ Level.core.rank ≤ Level.system.rank ∧ live.ctl.refclk = true ∧ (refclkStop porSt).ctl.refclk = false) ∧
    (live.ctl.railGood.all id = false ∧ live.ctl.held ≠ some .power ∧ porSt.ctl.railGood.all id = true) ∧
    (live.ctl.islandUp.getLsbD 5 = true ∧ State.reset.ctl.islandUp.getLsbD 5 = false) ∧
    (let s := { live with ctl := { live.ctl with islandUp := 0, pllStarted := true, pllLock := BitVec.allOnes 47, now := 6400 } };
      s.clkMode ≠ 3 ∧ mayRelease 0 s = true ∧ mayRelease 1 s = true ∧ mayRelease 45 s = true ∧ mayRelease 46 s = true ∧ mayRelease 13 live = false) ∧
    (live.disp.flows = [] ∧ live.disp.graphFlows = [] ∧ live.emb.tables = [] ∧ live.frames.sessions = [] ∧ live.mem.retrains = [] ∧
      live.dbg.trv.redirect = false ∧ ctx1.onController live.mem 0 ≠ []) := by
  refine ⟨?_, ?_, ?_, ?_, ?_, ?_, ?_⟩ <;> decide

set_option maxRecDepth 20000 in
theorem witness_MonitorsAndVoltageLoop :
    (live.ctl.fabricOn = true ∧ live.ctl.refclk = true ∧ State.reset.ctl.fabricOn = false) ∧
    (live.fwReady = true ∧ live.dbg.frz.on = false ∧ live.up islLow = true ∧ live.clk.recal = false ∧ live.clk.throttle = false ∧
      700 ≤ live.clk.vreq ∧ live.clk.vreq ≤ 850) ∧
    (live.inSystemReset = false ∧ live.armed 0x0E 1 = none ∧ live.clk.rails.length = 6 ∧ railOut live.clk.vreq 1 750 = false ∧
      railOut live.clk.vreq 1 900 = true) ∧
    ((List.replicate 38 (40 : BitVec 8)).length = 38) ∧
    (live.svc.detectors = []) := by
  refine ⟨?_, ?_, ?_, ?_, ?_⟩ <;> decide

/-- An MCTP message with a message type, and a control request. -/
def mctpMsg (type : Nat) (rest : List Byte) : List Byte := [1, 0, 9, 8, BitVec.ofNat 8 type] ++ rest
def ctlMsg (code : Nat) (data : List Byte) : List Byte := mctpMsg 0 ([0x81, BitVec.ofNat 8 code] ++ data)

set_option maxRecDepth 20000 in
theorem witness_ManagementMessagesAndJtag :
    (let b := mctpMsg 0x7F ([0, 0, 0xB6, 0xD1] ++ zeros 40);
      mctpMine b live = true ∧ fld b 4 1 = 0x7F ∧ be (sub b 5 4) = 0xB6D1 ∧ b.length ≤ 8253) ∧
    (∀ d ∈ [([0, 9] : List Byte), [0, 7], [0]], let b := ctlMsg 1 d
      mctpMine b live = true ∧ live.ctl.surveyor ≠ .paused ∧ fld b 4 1 = 0 ∧ bit (fld b 5 1) 7 = true ∧ fld b 6 1 = 1 ∧ 7 ≤ b.length) ∧
    (fld ((ctlMsg 1 [0, 9]).drop 7) 1 1 = 9 ∧ (b2n ((ctlMsg 1 [0]).drop 7 == [0]) = 1)) ∧
    (∀ k ∈ [2, 3, 4, 5, 6], let b := ctlMsg k [0]; mctpMine b live = true ∧ bit (fld b 5 1) 7 = true ∧ fld b 6 1 = k ∧ fld (b.drop 7) 0 1 = 0) ∧
    (∀ k ∈ [4, 6], let b := ctlMsg k [1]; mctpMine b live = true ∧ fld b 6 1 = k ∧ fld (b.drop 7) 0 1 = 1) ∧
    (let s := { live with pins := { live.pins with alertEn := true, smbAlert := true } }; s.up islLow = true ∧ s.pins.alertEn = true ∧ s.pins.smbAlert = true) ∧
    ((pinSt (some .system)).ctl.pinLevel = some .system ∧ live.ctl.pinLevel ≠ some .system) := by
  refine ⟨?_, ?_, ?_, ?_, ?_, ?_, ?_⟩ <;> decide

set_option maxRecDepth 20000 in
theorem witness_RefusedCommandsChangeNothing :
    (let f := req [5]; accepted 0x0800 f live sess = true ∧ firstFail (claimFails (seen f live) 1 (heard live sess) f.payload) ≠ none) ∧
    (let f := req [1]; acceptedAs 0x0A00 0 1 f live sess = true ∧ firstFail (resetCmdFails f) ≠ none) := by
  refine ⟨?_, ?_⟩ <;> decide

set_option maxRecDepth 20000 in
theorem witness_EventsNumberedAndRetained :
    live.session 1 = some sess ∧ bit sess.mask 2 = true ∧ bit sess.mask 9 = false ∧ live.ctl.surveyor = .ready ∧
      live.reaches sess.path sess.ip = true ∧ live.rcp.sessions = [(1, sess)] ∧ live.paused live.host.rcpPriority = false ∧
      (let s := { live with host := { live.host with paused := 255, pfcEnable := 255 } }; s.reaches sess.path sess.ip = true ∧
        s.paused s.host.rcpPriority = true) := by
  refine ⟨?_, ?_, ?_, ?_, ?_, ?_, ?_, ?_⟩ <;> decide

set_option maxRecDepth 20000 in
theorem witness_FramesDecodeAsEncoded :
    (let f := req (zeros 8); f.payload.length < 2 ^ 32 ∧ f.mac.length = (if bit f.flags.toNat 1 then 16 else 0) ∧ bit f.flags.toNat 0 = false ∧
      bit f.flags.toNat 3 = false ∧ live.canReceive f.path = true ∧ live.ctl.surveyor = .ready ∧ 0 < f.payload.length ∧ fld f.payload 0 1 = 0) ∧
    (let f := { req (zeros 8) with flags := 2, mac := zeros 16 }; f.mac.length = (if bit f.flags.toNat 1 then 16 else 0)) := by
  refine ⟨?_, ?_⟩ <;> decide

set_option maxRecDepth 20000 in
theorem witness_FusesOnlyGrow : Fuses.le State.reset.fw.fuses live.fw.fuses = true ∧
    step { live with pending := [.triggerPulseEnd] } = .next { live with pending := [] } := by
  refine ⟨?_, ?_⟩
  · decide
  · rfl

set_option maxRecDepth 20000 in
theorem witness_MemoryStaysCanonical : live.mem.wf = true ∧ (podSt thr (wA 1 2 3 4 0 0 0)).mem.wf = true := by
  refine ⟨?_, ?_⟩ <;> decide

theorem witness_ResetState : State.reset.ctl.held = some .power := by decide

set_option maxRecDepth 20000 in
theorem witness_SpeedLimitedFlag : live.fwReady = true ∧ live.dbg.frz.on = false ∧ live.ctl.refclk = true ∧
    accepted 0x0103 (req []) live sess = true ∧ (req []).payload = [] := by
  refine ⟨?_, ?_, ?_, ?_, ?_⟩ <;> decide

set_option maxRecDepth 20000 in
theorem witness_SpeedTargetCommand :
    (∀ t ∈ [70, 130, 69, 131], let f := req ([BitVec.ofNat 8 t] ++ zeros 7); accepted 0x0104 f live sess = true ∧ f.payload.length = 8 ∧
      fldZero f.payload 1 7 = true ∧ fld f.payload 0 1 = t) ∧
    (let f := req [100, 1, 0, 0, 0, 0, 0, 0]; accepted 0x0104 f live sess = true ∧ fldZero f.payload 1 7 = false) ∧
    (accepted 0x0104 (req [100]) live sess = true ∧ (req [100]).payload.length ≠ 8) ∧ handoverReady live = live := by
  refine ⟨?_, ?_, ?_, ?_⟩ <;> decide

theorem witness_ResetDestroysFlows : (assertReset .core live).disp.flows = [] := by decide

set_option maxRecDepth 20000 in
theorem witness_PodInstructionsStopAndWait :
    ((live.thread 0).st ≠ .running) ∧
    (let w := wA 1 1 2 3 0 0 0; let s := podSt thr w; s.chosen 0 = true ∧ fetches 0 w s = true ∧ rowSalu.mine w = true ∧ rowAddi.mine w = false) ∧
    (let s := podSt { thr with pc := 0x400000 } (wA 1 1 2 3 0 0 0); s.chosen 0 = true ∧
      (match (podFetch (s.turned 0) 0).1 with
        | .error _ => true
        | .ok _ => false) = true) ∧
    (let w := wA 1 1 2 3 1 0 0; let s := podSt thr w; fetches 0 w s = true ∧ rowSalu.mine w = true ∧ (xOk w && rowSalu.ok w) = false) := by
  refine ⟨?_, ?_, ?_, ?_⟩ <;> decide

theorem witness_EveryWordHasOneRow : majorOf (insMajor ⟨0, 0⟩) = none ∧ (⟨0, 0⟩ : Insn).word = 0 := by decide

end Sys2Proof.Tests
end

namespace Sys2Proof.Machine
open Sys2Proof

/-! What freeing the sort networks and a tick keep, and what a step comes to in each case of its queue. -/

@[simp] theorem State.sortFree_pending (s : State) (p : Nat) : (s.sortFree p).pending = s.pending := rfl
@[simp] theorem State.sortFree_ctl (s : State) (p : Nat) : (s.sortFree p).ctl = s.ctl := rfl

@[simp] theorem foldl_sortFree_pending (l : List (Nat × Pod)) (s : State) :
    (l.foldl (fun a e => a.sortFree e.1) s).pending = s.pending :=
  foldl_keeps (p := State.pending) (fun a e => a.sortFree_pending e.1) l s

@[simp] theorem foldl_sortFree_ctl (l : List (Nat × Pod)) (s : State) : (l.foldl (fun a e => a.sortFree e.1) s).ctl = s.ctl :=
  foldl_keeps (p := State.ctl) (fun a e => a.sortFree_ctl e.1) l s

@[simp] theorem tick_pending (s : State) : (tick s).pending = s.pending := foldl_sortFree_pending _ s

/-- The tick reads REFCLK and the time after the sort networks are freed, which changes neither. -/
theorem tick_now (s : State) : (tick s).ctl.now = if s.ctl.refclk then s.ctl.now + 1 else s.ctl.now := by
  simp only [tick, foldl_sortFree_ctl]

theorem step_of_pending_nil {s : State} (h : s.pending = []) : step s = .next (tick s) := by
  rw [step, h]

theorem step_of_pending_cons {s : State} {c : Instr} {rest : List Instr} (h : s.pending = c :: rest) :
    step s = exec c { s with pending := rest } := by
  rw [step, h]

/-- Settles O1, by the two cases of a step's queue; what an idle step keeps is what the tick keeps. -/
theorem stepRunsFrontCommand : Obligations.StepRunsFrontCommand := by
  refine ⟨fun c rest s => step_of_pending_cons rfl, fun s hq => ⟨tick s, step_of_pending_nil hq, ?_, fun href => ?_⟩⟩
  · rw [tick_pending, hq]
  · rw [tick_now, if_pos href]

end Sys2Proof.Machine

namespace Sys2Proof.Machine
open Sys2Proof

/-! Commands of a session: an accepted one ends as its table of failures and its handler say. -/

/-- A table of failures that a command passes lets it go on. -/
theorem Reply.check_of_passes {l : List (Bool × Err)} (s : State) (go : Reply) (h : passes l = true) : Reply.check l s go = go := by
  unfold passes at h
  unfold Reply.check
  rw [Option.isNone_iff_eq_none] at h
  rw [h]

/-- A failure that a command meets ends it. -/
theorem Reply.check_of_fails {l : List (Bool × Err)} {e : Err} (s : State) (go : Reply) (h : firstFail l = some e) :
    Reply.check l s go = .err e s := by
  unfold Reply.check
  rw [h]

/-- A handler that answers OK ends its accepted command with its payload in the state it leaves. -/
theorem rcpRun_ok {op : Nat} {f : Frame} {s : State} {x : Session} {hd : Handler} {p : List Byte} {v : State} (h : accepted op f s x = true)
    (hh : hd f f.sessionId.toNat (heard s x) (seen f s) = .ok p v) : rcpRun op hd f s = doneOk op f p v := by
  rw [rcpRun_accepted hd h]
  unfold rcpExecute
  unfold heard at hh
  rw [hh]
  rfl

/-- A handler that answers an error ends its accepted command with it. -/
theorem rcpRun_err {op : Nat} {f : Frame} {s : State} {x : Session} {hd : Handler} {e : Err} {v : State} (h : accepted op f s x = true)
    (hh : hd f f.sessionId.toNat (heard s x) (seen f s) = .err e v) :
    rcpRun op hd f s = frameComplete f op e.status (errPayload e) v := by
  rw [rcpRun_accepted hd h]
  unfold rcpExecute
  unfold heard at hh
  rw [hh]

@[simp] theorem seen_ctl (f : Frame) (s : State) : (seen f s).ctl = s.ctl := State.modSession_ctl ..
@[simp] theorem seen_clk (f : Frame) (s : State) : (seen f s).clk = s.clk := State.modSession_clk ..
@[simp] theorem seen_gaz (f : Frame) (s : State) : (seen f s).gaz = s.gaz := State.modSession_gaz ..

@[simp] theorem leb_length (n v : Nat) : (leb n v).length = n := by
  induction n generalizing v with
  | zero => rfl
  | succ n ih => simp [leb, ih]

@[simp] theorem zeros_length (n : Nat) : (zeros n).length = n := List.length_replicate

/-! SET_SPEED_TARGET, GET_SPEED and GET_THERMAL (R27, R28, R575). -/

/-- The fields of SET_SPEED_TARGET that R27 asks for pass its table. -/
theorem setSpeedTargetFails_passes {f : Frame} (hl : f.payload.length = 8) (hz : fldZero f.payload 1 7 = true) (h1 : 70 ≤ fld f.payload 0 1)
    (h2 : fld f.payload 0 1 ≤ 130) : passes (setSpeedTargetFails f) = true := by
  have a : decide (fld f.payload 0 1 < 70) = false := decide_eq_false (by omega)
  have b : decide (fld f.payload 0 1 > 130) = false := decide_eq_false (by omega)
  simp [passes, setSpeedTargetFails, badLength, hl, hz, a, b, firstFail]

/-- An accepted SET_SPEED_TARGET in range sets the target. -/
theorem exec_setSpeedTarget {f : Frame} {s : State} {x : Session} (h : accepted 0x0104 f s x = true) (hl : f.payload.length = 8)
    (hz : fldZero f.payload 1 7 = true) (h1 : 70 ≤ fld f.payload 0 1) (h2 : fld f.payload 0 1 ≤ 130) :
    exec (.setSpeedTarget f) s = .next (doneOk 0x0104 f [] { seen f s with clk := { s.clk with target := fld f.payload 0 1 } }) := by
  have hh : setSpeedTarget f f.sessionId.toNat (heard s x) (seen f s) =
      .ok [] { seen f s with clk := { s.clk with target := fld f.payload 0 1 } } := by
    unfold setSpeedTarget
    rw [Reply.check_of_passes _ _ (setSpeedTargetFails_passes hl hz h1 h2), seen_clk]
  exact congrArg Host.Outcome.next (rcpRun_ok h hh)

/-- An accepted GET_SPEED answers the loop's record and changes nothing. -/
theorem exec_getSpeed {f : Frame} {s : State} {x : Session} (h : accepted 0x0103 f s x = true) (hp : f.payload = []) :
    exec (.getSpeed f) s = .next (doneOk 0x0103 f
      (leb 1 (if s.clk.iterated then s.clk.targetLast else s.clk.target) ++
        leb 1 (b2n s.clk.limited + 2 * b2n s.clk.thermalLast + 4 * b2n s.clk.powerLast) ++ leb 2 s.clk.slowest ++
        leb 4 s.clk.tCount ++ leb 4 s.clk.sCount ++ leb 2 (if s.clk.iterated then s.clk.vreq else 0) ++ leb 2 s.clk.budget ++
        leb 8 s.clk.iterations ++ leb 8 s.clk.limitedCount) (seen f s)) := by
  refine congrArg Host.Outcome.next (rcpRun_ok h ?_)
  unfold getSpeed
  rw [Reply.check_of_passes _ _ (by simp [passes, getSpeedFails, badLength, hp, firstFail]), seen_clk]

/-- Settles O8: each of the three commands passes its table, and its handler's reply is the one stated. -/
theorem speedAndThermalQueries : Obligations.SpeedAndThermalQueries := by
  intro f s x
  refine ⟨fun h hl hz h1 h2 => exec_setSpeedTarget h hl hz h1 h2, fun h hp => exec_getSpeed h hp, fun h hp => ⟨_, ?_, rfl, ?_⟩⟩
  · refine congrArg Host.Outcome.next (rcpRun_ok h ?_)
    unfold getThermal
    rw [Reply.check_of_passes _ _ (by simp [passes, getThermalFails, badLength, hp, firstFail]), seen_clk, seen_gaz]
    rfl
  · intro ht hr
    simp [ht, hr]

end Sys2Proof.Machine

namespace Sys2Proof.Machine
open Sys2Proof

/-! Fields of a byte string that is put together from fields. -/

/-- A value's n little-endian bytes read back as the value modulo 2^(8n) (R7). -/
theorem le_leb (n v : Nat) : le (leb n v) = v % 256 ^ n := by
  induction n generalizing v with
  | zero => simp [le, leb, Nat.mod_one]
  | succ n ih =>
    rw [leb, le, ih, BitVec.toNat_ofNat, show 256 ^ (n + 1) = 256 * 256 ^ n from Nat.pow_succ']
    exact Nat.mod_mul.symm

/-- A field that a leading part of the bytes precedes lies in the rest. -/
theorem fld_append {a : List Byte} {off size : Nat} (b : List Byte) (h : a.length ≤ off) :
    fld (a ++ b) off size = fld b (off - a.length) size := by
  unfold fld
  rw [List.drop_append, List.drop_eq_nil_of_le h, List.nil_append]

/-- The first field of a byte string is the value whose bytes it starts with. -/
theorem fld_leb_append (n v : Nat) (b : List Byte) : fld (leb n v ++ b) 0 n = v % 256 ^ n := by
  unfold fld
  rw [List.drop_zero, List.take_left' (leb_length n v), le_leb]

/-! The voltage loop (R24 to R27): what an iteration records, and what it asks of VCORE. -/

/-- Whether an iteration's AVSBus transaction fails: by itself, or because the low-speed island is held. -/
def loopBad (failed : Bool) (s : State) : Bool := failed || !s.up islLow

/-- The count t of R24 for the target in force. -/
def State.speedGoal (s : State) : Nat := speedCount s.clkMode s.clk.target

/-- The branch an iteration takes: a failed transaction leaves it to the last power reading. -/
def loopTaken (vread : BitVec 12) (iread : BitVec 16) (failed : Bool) (s : State) : Nat :=
  loopBranch s.clk (if loopBad failed s then s.clk.vread * s.clk.iread else vread.toNat * iread.toNat) s.clk.slow.1 s.speedGoal

/-- Whether an iteration is limited (R25): it takes the thermal or the power branch while the slowest cluster is below t. -/
def loopLimited (vread : BitVec 12) (iread : BitVec 16) (failed : Bool) (s : State) : Bool :=
  decide (loopTaken vread iread failed s ≤ 1) && decide (s.clk.slow.1 < s.speedGoal)

/-- What an iteration records before it asks for a voltage. -/
def loopRecord (vread : BitVec 12) (iread : BitVec 16) (failed : Bool) (s : State) : Clk :=
  let b := loopTaken vread iread failed s
  { s.clk with
    targetLast := s.clk.target, thermalLast := b == 0, powerLast := b == 1
    limited := if loopLimited vread iread failed s then true else if s.clk.slow.1 ≥ s.speedGoal then false else s.clk.limited
    slowest := s.clk.slow.2, tCount := s.speedGoal, sCount := s.clk.slow.1, iterations := s.clk.iterations + 1
    limitedCount := s.clk.limitedCount + b2n (loopLimited vread iread failed s), iterated := true
    avsFails := s.clk.avsFails + b2n (loopBad failed s)
    vread := if loopBad failed s then s.clk.vread else vread.toNat
    iread := if loopBad failed s then s.clk.iread else iread.toNat
    pread := if loopBad failed s then s.clk.pread else vread.toNat * iread.toNat / 1000 % 65536 }

/-- The voltage in force after an iteration: it is asked anew where a transaction works and no recalibration runs (R512, R569). -/
def loopAsked (vread : BitVec 12) (iread : BitVec 16) (failed : Bool) (s : State) : Nat :=
  if loopBad failed s || s.clk.recal then s.clk.vreq else loopVolt (loopTaken vread iread failed s) s.clk.vreq

/-- An iteration does nothing while firmware does not run, in a freeze, and without REFCLK. -/
theorem loopIteration_idle (vread : BitVec 12) (iread : BitVec 16) (failed : Bool) {s : State}
    (h : s.fwReady = false ∨ s.dbg.frz.on = true ∨ s.ctl.refclk = false) : loopIteration vread iread failed s = s := by
  unfold loopIteration
  rw [if_pos]
  rcases h with h | h | h <;> simp [h]

theorem requestVcore_self (s : State) : requestVcore s.clk.vreq s = s := if_pos rfl

/-- An iteration that runs makes its record, asks for its voltage and sets the fans. -/
theorem loopIteration_runs (vread : BitVec 12) (iread : BitVec 16) (failed : Bool) {s : State} (hf : s.fwReady = true) (hz : s.dbg.frz.on = false)
    (hr : s.ctl.refclk = true) : loopIteration vread iread failed s =
      setFans (requestVcore (loopAsked vread iread failed s) { s with clk := loopRecord vread iread failed s }) := by
  have hrun : (!s.fwReady || s.dbg.frz.on || !s.ctl.refclk) = false := by simp [hf, hz, hr]
  have hask : requestVcore (loopAsked vread iread failed s) { s with clk := loopRecord vread iread failed s } =
      if loopBad failed s || s.clk.recal then { s with clk := loopRecord vread iread failed s }
      else requestVcore (loopVolt (loopTaken vread iread failed s) s.clk.vreq) { s with clk := loopRecord vread iread failed s } := by
    unfold loopAsked
    split
    · exact requestVcore_self { s with clk := loopRecord vread iread failed s }
    · rfl
  rw [hask]
  unfold loopIteration
  rw [if_neg (by rw [hrun]; decide)]
  rfl

/-- A request for VCORE changes the voltage asked for and its time alone of the clock registers. -/
theorem requestVcore_clk (v : Nat) (s : State) :
    (requestVcore v s).clk = { s.clk with vreq := v, vreqTime := if v = s.clk.vreq then s.clk.vreqTime else s.ctl.now } := by
  unfold requestVcore
  split_ifs with h
  · subst h; rfl
  · rfl

/-- One AVSBus write asks for VCORE where the request changes (R569). -/
theorem requestVcore_sent (v : Nat) (s : State) : (requestVcore v s).sent = if v = s.clk.vreq then s.sent else .avs v :: s.sent := by
  unfold requestVcore
  split_ifs <;> rfl

@[simp] theorem requestVcore_rcp (v : Nat) (s : State) : (requestVcore v s).rcp = s.rcp := by unfold requestVcore; split_ifs <;> rfl
@[simp] theorem requestVcore_mem (v : Nat) (s : State) : (requestVcore v s).mem = s.mem := by unfold requestVcore; split_ifs <;> rfl
@[simp] theorem requestVcore_svc (v : Nat) (s : State) : (requestVcore v s).svc = s.svc := by unfold requestVcore; split_ifs <;> rfl
@[simp] theorem requestVcore_pins (v : Nat) (s : State) : (requestVcore v s).pins = s.pins := by unfold requestVcore; split_ifs <;> rfl

@[simp] theorem setFans_clk (s : State) : (setFans s).clk = s.clk := rfl
@[simp] theorem setFans_sent (s : State) : (setFans s).sent = s.sent := rfl
@[simp] theorem setFans_rcp (s : State) : (setFans s).rcp = s.rcp := rfl
@[simp] theorem setFans_mem (s : State) : (setFans s).mem = s.mem := rfl

/-- The clock registers after an iteration: its record, and the voltage asked for. -/
theorem loopIteration_clk (vread : BitVec 12) (iread : BitVec 16) (failed : Bool) {s : State} (hf : s.fwReady = true) (hz : s.dbg.frz.on = false)
    (hr : s.ctl.refclk = true) : ∃ time, (loopIteration vread iread failed s).clk =
      { loopRecord vread iread failed s with vreq := loopAsked vread iread failed s, vreqTime := time } := by
  rw [loopIteration_runs _ _ _ hf hz hr, setFans_clk, requestVcore_clk]
  exact ⟨_, rfl⟩

/-- An iteration takes the thermal or the power branch where its branch is at most 1. -/
theorem loopLimited_iff (vread : BitVec 12) (iread : BitVec 16) (failed : Bool) (s : State) : loopLimited vread iread failed s =
    (((loopTaken vread iread failed s == 0) || (loopTaken vread iread failed s == 1)) && decide (s.clk.slow.1 < s.speedGoal)) := by
  have h : decide (loopTaken vread iread failed s ≤ 1) = ((loopTaken vread iread failed s == 0) || (loopTaken vread iread failed s == 1)) := by
    rw [Bool.eq_iff_iff]
    simp only [decide_eq_true_eq, Bool.or_eq_true, beq_iff_eq]
    omega
  rw [loopLimited, h]

/-- Bit 0 of the flags of GET_SPEED is the first of the three. -/
theorem bit_zero_flags (a b c : Bool) : bit ((b2n a + 2 * b2n b + 4 * b2n c) % 256 ^ 1) 0 = a := by
  cases a <;> cases b <;> cases c <;> rfl

/-- Settles O56: the iteration's record holds the flag and the count that R25 gives, and GET_SPEED shows them in its bytes 1 and 0x18 to 0x1F. -/
theorem speedLimitedFlag : Obligations.SpeedLimitedFlag := by
  intro vr ir failed s hf hz hr
  obtain ⟨time, hc⟩ := loopIteration_clk vr ir failed hf hz hr
  refine ⟨_, rfl, ?_⟩
  rw [hc]
  refine ⟨rfl, rfl, ?_, ?_, fun f x ha hp => ⟨_, exec_getSpeed ha hp, ?_, ?_⟩⟩
  · simp only [loopRecord, loopLimited_iff, Bool.and_eq_true, decide_eq_true_eq]
  · simp only [loopRecord, loopLimited_iff, b2n, Bool.and_eq_true, decide_eq_true_eq]
  · rw [hc]
    simp only [List.append_assoc]
    rw [fld_append _ (by simp), leb_length, fld_leb_append, bit_zero_flags]
  · rw [hc]
    rw [fld_append _ (by simp)]
    simp only [List.length_append, leb_length]
    rw [← List.append_nil (leb 8 _), fld_leb_append, show 256 ^ 8 = 2 ^ 64 from by norm_num]

end Sys2Proof.Machine

namespace Sys2Proof.Machine
open Sys2Proof

/-! The clock registers are kept by what ends, stops and settles work, the target of R27 among them. -/

theorem sameCore.clk {s u : State} (h : sameCore s u) : u.clk = s.clk := by
  obtain ⟨_, _, hc, _⟩ := h
  exact hc

@[simp] theorem State.finishAll_clk (s : State) (w : Wait) (st : Nat) (p : List Byte) : (s.finishAll w st p).clk = s.clk :=
  foldl_keeps (p := State.clk) (fun a (c : Nat × Nat) => a.finish_clk c.1 c.2 st p) (s.waiting w) s

@[simp] theorem State.failAll_clk (s : State) (w : Wait) (e : Err) : (s.failAll w e).clk = s.clk := s.finishAll_clk ..

/-! Flows and graphs. -/

@[simp] theorem State.putFlow_clk (s : State) (fid : Nat) (f : Flow) : (s.putFlow fid f).clk = s.clk := by
  unfold State.putFlow
  split <;> rfl

@[simp] theorem State.modFlow_clk (s : State) (fid : Nat) (g : Flow → Flow) : (s.modFlow fid g).clk = s.clk := by
  unfold State.modFlow
  split
  · rfl
  · exact s.putFlow_clk ..


@[simp] theorem graphReady_clk (q i : Nat) (s : State) : (graphReady q i s).clk = s.clk := by
  unfold graphReady
  split
  · rfl
  · exact State.modFlow_clk ..

@[simp] theorem graphDecr_clk (q i : Nat) (s : State) : (graphDecr q s i).clk = s.clk := by
  unfold graphDecr
  split
  · rfl
  · dsimp only
    split
    · exact graphReady_clk ..
    · rfl

@[simp] theorem graphEnd_clk (q : Nat) (s : State) : (graphEnd q s).clk = s.clk := by
  unfold graphEnd
  split
  · rfl
  · split
    · simp
    · rfl

@[simp] theorem graphRetire_clk (q i st : Nat) (s : State) : (graphRetire q i st s).clk = s.clk := by
  unfold graphRetire
  split
  · rfl
  · rw [graphEnd_clk]
    split
    · exact foldl_keeps (p := State.clk) (fun a k => graphDecr_clk q k a) _ _
    · rfl

@[simp] theorem State.offer_clk (s : State) (fid : Nat) (b : List Byte) (k i st fp c : Nat) : (s.offer fid b k i st fp c).2.clk = s.clk := by
  unfold State.offer
  split
  · rfl
  · split_ifs <;> simp

@[simp] theorem readCons_clk (s : State) (f : Flow) : (readCons s f).2.clk = s.clk := by
  have h := (sameCore_memRead f.ctx f.consAddr 4 false s).clk
  unfold readCons
  split <;> rename_i e <;> rw [e] at h <;> exact h

theorem releaseOne_clk {s u : State} {fid : Nat} {f : Flow} {h : Held} (hu : releaseOne s fid f h = some u) : u.clk = s.clk := by
  unfold releaseOne at hu
  by_cases h0 : f.complKind = 0
  · rw [if_pos h0] at hu
    rw [← Option.some.inj hu, State.putFlow_clk]
  · rw [if_neg h0] at hu
    by_cases h1 : f.complKind = 1
    · rw [if_pos h1] at hu
      dsimp only at hu
      rw [Option.ite_none_right_eq_some] at hu
      rw [← Option.some.inj hu.2, State.putFlow_clk]
      exact (sameCore_memWrite ..).clk.trans (readCons_clk s f)
    · rw [if_neg h1] at hu
      have ho := s.offer_clk f.complFlow (if h.hw then zeros 40 else h.item.body) 6 (fidIndex fid) h.item.status h.item.fpflags
        (setBit h.item.cflags 0)
      split at hu <;> rename_i he
      · cases hu
      · rw [← Option.some.inj hu, State.putFlow_clk, ← ho, he]

@[simp] theorem releaseLoop_clk (fid n : Nat) (s : State) : (releaseLoop fid n s).clk = s.clk := by
  induction n generalizing s with
  | zero => rfl
  | succ n ih =>
    unfold releaseLoop
    split
    · rfl
    · split
      · rfl
      · split
        · rfl
        · rename_i hu
          rw [ih, State.modFlow_clk, releaseOne_clk hu]

@[simp] theorem State.release_clk (s : State) (fid : Nat) : (s.release fid).clk = s.clk := by
  unfold State.release
  split
  · rfl
  · exact releaseLoop_clk ..

/-! Stores of a thread that have left it. -/

theorem sameCore_storeTry (ctx : Nat) (l : List (Nat × List Byte)) (s : State) : sameCore s (storeTry ctx l s).2 := by
  induction l generalizing s with
  | nil => exact sameCore.refl _
  | cons p t ih =>
    obtain ⟨va, b⟩ := p
    have h := sameCore_memWrite ctx va b true s
    unfold storeTry
    split <;> rename_i e <;> rw [e] at h
    · exact h.trans (ih _)
    · exact h

theorem sameCore_pokeElem (ctx va len : Nat) (f : List Byte → List Byte) (s : State) : sameCore s (pokeElem ctx va len f s) := by
  unfold pokeElem
  split
  · exact sameCore.refl _
  · exact (sameCore_view ..).trans (sameCore_store ..)

/-- A fold of steps that each keep the core keeps it. -/
theorem sameCore_foldl {γ : Type} {g : State → γ → State} (h : ∀ a x, sameCore a (g a x)) (l : List γ) (s : State) :
    sameCore s (l.foldl g s) := by
  induction l generalizing s with
  | nil => exact sameCore.refl _
  | cons x t ih => exact (h s x).trans (ih _)

theorem sameCore_partialElems (ctx bad : Nat) (els : List (Nat × Nat × (List Byte → List Byte))) (s : State) :
    sameCore s (partialElems ctx bad els s) := by
  refine sameCore_foldl (fun a e => ?_) els s
  split_ifs
  · exact sameCore.refl _
  · exact (sameCore_draw a).trans (sameCore_pokeElem ..)
  · exact sameCore_draw a

theorem sameCore_storeOp_run (st : StoreOp) (ctx : Nat) (s : State) : sameCore s (st.run ctx s).2 := by
  have h := sameCore_storeTry ctx (cutPieces (joinPieces st.pieces)) s
  unfold StoreOp.run
  split <;> rename_i e <;> rw [e] at h
  · exact h
  · exact (h.trans (sameCore_mem _ _)).trans (sameCore_partialElems ..)

@[simp] theorem State.drainStores_clk (s : State) (t n : Nat) : (s.drainStores t n).2.clk = s.clk := by
  unfold State.drainStores
  dsimp only
  rw [State.modThread_clk]
  refine foldl_keeps (p := fun a : Option (Nat × Nat × Err) × State => a.2.clk) (fun a st => ?_) _ _
  have h := (sameCore_storeOp_run st (s.ctxOf t) a.2).clk
  split <;> rename_i e <;> rw [e] at h <;> exact h

/-! Threads and Pods that are stopped. -/

@[simp] theorem State.unwait_clk (s : State) (t : Nat) : (s.unwait t).clk = s.clk := rfl
@[simp] theorem State.block_clk (s : State) (t : Nat) (b : Block) : (s.block t b).clk = s.clk := rfl

@[simp] theorem State.wakePod_clk (s : State) (p : Nat) : (s.wakePod p).clk = s.clk :=
  foldl_keeps (p := State.clk) (fun a _ => a.modThread_clk ..) _ s

@[simp] theorem State.quiesce_clk (s : State) (t : Nat) : (s.quiesce t).clk = s.clk := by simp [State.quiesce]

@[simp] theorem State.start_clk (s : State) (t h : Nat) : (s.start t h).clk = s.clk := by
  unfold State.start
  split <;> rfl

@[simp] theorem State.restart_clk (s : State) (t : Nat) : (s.restart t).clk = s.clk := by
  unfold State.restart
  dsimp only
  split <;> simp

@[simp] theorem State.stopEnd_clk (s : State) (t : Nat) : (s.stopEnd t).clk = s.clk := by
  unfold State.stopEnd
  dsimp only
  split <;> simp [quarantineThread]

@[simp] theorem State.dropHeld_clk (s : State) (t : Nat) : (s.dropHeld t).clk = s.clk := by
  unfold State.dropHeld
  dsimp only
  split <;> rfl

@[simp] theorem State.retire_clk (s : State) (t st : Nat) (b : Bool) : (s.retire t st b).clk = s.clk := by
  unfold State.retire
  dsimp only
  split
  · rfl
  · split_ifs <;> simp

@[simp] theorem State.stop_clk (s : State) (t st : Nat) : (s.stop t st).clk = s.clk := by
  unfold State.stop
  dsimp only
  split <;> simp

@[simp] theorem quarantineNow_clk (p st : Nat) (s : State) : (quarantineNow p st s).clk = s.clk := by
  refine foldl_keeps (p := State.clk) (fun a k => ?_) _ _
  split <;> simp

@[simp] theorem podSettle_clk (p : Nat) (s : State) : (podSettle p s).clk = s.clk := by
  unfold podSettle
  split <;> simp

/-! Stalls that came in a pause, served once it ends (R508). -/

@[simp] theorem State.dropSusp_clk (s : State) (h : Nat) : (s.dropSusp h).clk = s.clk := by
  unfold State.dropSusp
  split <;> rfl

@[simp] theorem stopSamples_clk (p : Sample → Bool) (e : Err) (s : State) : (stopSamples p e s).clk = s.clk :=
  foldl_keeps (p := State.clk) (fun a h => a.dropSusp_clk h) _ s

@[simp] theorem selfQuarantine_clk (p : Nat) (s : State) : (selfQuarantine p s).clk = s.clk := by
  unfold selfQuarantine
  split <;> simp

@[simp] theorem selfReset_clk (e : Nat) (s : State) : (selfReset e s).clk = s.clk :=
  stopSamples_clk (fun y => y.engine == e) (errD stHw 0x0A0F) s

@[simp] theorem selfService_clk (u : Nat) (s : State) : (selfService u s).clk = s.clk := by
  unfold selfService
  split_ifs <;> simp

@[simp] theorem serveStalls_clk (s : State) : (serveStalls s).clk = s.clk :=
  foldl_keeps (p := State.clk) (fun a u => selfService_clk u a) _ _

/-! The Gazetteer's late entries. -/

@[simp] theorem State.modBank_clk (s : State) (b : Nat) (f : GazBank → GazBank) : (s.modBank b f).clk = s.clk := rfl

@[simp] theorem reportEntry_clk (b e how : Nat) (s : State) : (reportEntry b e how s).clk = s.clk := by
  unfold reportEntry
  dsimp only
  split_ifs <;> simp

@[simp] theorem settleEntry_clk (b e : Nat) (s : State) : (settleEntry b e s).clk = s.clk := by
  unfold settleEntry
  dsimp only
  split_ifs <;> simp

@[simp] theorem settlePair_clk (b g : Nat) (s : State) : (settlePair b g s).clk = s.clk := rfl

@[simp] theorem settleOne_clk (b e : Nat) (s : State) : (settleOne b e s).clk = s.clk := by
  unfold settleOne
  split <;> simp

@[simp] theorem settleLate_clk (s : State) : (settleLate s).clk = s.clk := by
  refine foldl_keeps (p := State.clk) (fun a b => ?_) _ s
  rw [State.modBank_clk]
  exact foldl_keeps (p := State.clk) (fun a e => settleOne_clk b e a) _ a

/-! What the end of a handover's pause sends. -/

@[simp] theorem flushOwed_clk (s : State) : (flushOwed s).clk = s.clk :=
  foldl_keeps (p := State.clk) (fun a _ => a.sendRcp_clk ..) _ _

@[simp] theorem State.flushEvents_clk (s : State) : (s.flushEvents).clk = s.clk := by
  refine foldl_keeps (p := State.clk) (fun a e => ?_) _ s
  dsimp only
  rw [State.modSession_clk]
  exact foldl_keeps (p := State.clk) (fun c _ => c.sendRcp_clk ..) _ a

end Sys2Proof.Machine

namespace Sys2Proof.Machine
open Sys2Proof

/-! The frames held in a handover's pause (R73) stay held while commands end and events are raised. -/

@[simp] theorem State.modSession_heldFrames (s : State) (i : Nat) (f : Session → Session) :
    (s.modSession i f).rcp.heldFrames = s.rcp.heldFrames := by
  unfold State.modSession
  split <;> rfl

@[simp] theorem State.complete_heldFrames (s : State) (i r op : Nat) (p : Path) (ip port st : Nat) (b : List Byte) :
    (s.complete i r op p ip port st b).rcp.heldFrames = s.rcp.heldFrames := by
  unfold State.complete
  split
  · rfl
  · dsimp only
    split <;> simp

@[simp] theorem State.finish_heldFrames (s : State) (i r st : Nat) (b : List Byte) :
    (s.finish i r st b).rcp.heldFrames = s.rcp.heldFrames := by
  unfold State.finish
  split
  · split <;> rfl
  · split
    · rfl
    · split
      · rfl
      · simp

@[simp] theorem State.finishAll_heldFrames (s : State) (w : Wait) (st : Nat) (p : List Byte) :
    (s.finishAll w st p).rcp.heldFrames = s.rcp.heldFrames :=
  foldl_keeps (p := fun a : State => a.rcp.heldFrames) (fun a (c : Nat × Nat) => a.finish_heldFrames c.1 c.2 st p) (s.waiting w) s

@[simp] theorem State.failAll_heldFrames (s : State) (w : Wait) (e : Err) : (s.failAll w e).rcp.heldFrames = s.rcp.heldFrames :=
  s.finishAll_heldFrames ..

@[simp] theorem State.eventTo_heldFrames (s : State) (i c k : Nat) (b : List Byte) :
    (s.eventTo i c k b).rcp.heldFrames = s.rcp.heldFrames := by
  unfold State.eventTo
  split
  · rfl
  · split
    · dsimp only
      split <;> split <;> simp
    · rfl

@[simp] theorem State.event_heldFrames (s : State) (p : Session → Bool) (c k : Nat) (b : List Byte) :
    (s.event p c k b).rcp.heldFrames = s.rcp.heldFrames :=
  foldl_keeps (p := fun a : State => a.rcp.heldFrames) (fun a i => a.eventTo_heldFrames i c k b) _ s

/-! The records with which a capture shows that its cores start (R536) change the capture and raise events alone. -/

@[simp] theorem trvStop_clk (r : Nat) (s : State) : (trvStop r s).clk = s.clk := by
  unfold trvStop
  dsimp only
  split
  · exact State.event_clk ..
  · rfl

@[simp] theorem trvStop_heldFrames (r : Nat) (s : State) : (trvStop r s).rcp.heldFrames = s.rcp.heldFrames := by
  unfold trvStop
  dsimp only
  split
  · exact State.event_heldFrames ..
  · rfl

@[simp] theorem trvPut_clk (r : TrvRec) (s : State) : (trvPut r s).clk = s.clk := by
  unfold trvPut
  dsimp only
  split_ifs <;> simp [State.modTrv]

@[simp] theorem trvPut_heldFrames (r : TrvRec) (s : State) : (trvPut r s).rcp.heldFrames = s.rcp.heldFrames := by
  unfold trvPut
  dsimp only
  split_ifs <;> simp [State.modTrv]

@[simp] theorem trvStarts_clk (s : State) : (trvStarts s).clk = s.clk :=
  foldl_keeps (p := State.clk) (fun a _ => trvPut_clk _ a.draw.2) _ s

@[simp] theorem trvStarts_heldFrames (s : State) : (trvStarts s).rcp.heldFrames = s.rcp.heldFrames :=
  foldl_keeps (p := fun a : State => a.rcp.heldFrames) (fun a _ => trvPut_heldFrames _ a.draw.2) _ s

/-! The end of a handover (R500 to R502). -/

@[simp] theorem State.modFlash_clk (s : State) (f : Flash → Flash) : (s.modFlash f).clk = s.clk := by
  unfold State.modFlash
  split <;> rfl

@[simp] theorem State.modFlash_rcp (s : State) (f : Flash → Flash) : (s.modFlash f).rcp = s.rcp := by
  unfold State.modFlash
  split <;> rfl

@[simp] theorem dropHandover_clk (s : State) : (dropHandover s).clk = s.clk := by
  unfold dropHandover
  split <;> simp

@[simp] theorem dropHandover_rcp (s : State) : (dropHandover s).rcp = s.rcp := by
  unfold dropHandover
  split <;> simp

/-- The end of a pause takes the held frames in a state with the clock registers of the one it found. -/
theorem pauseEnd_takes (s : State) : ∃ w : State, w.clk = s.clk ∧ pauseEnd s = s.rcp.heldFrames.foldl (fun a h => takeHeld h a) w :=
  ⟨_, by simp, rfl⟩

/-- A handover that ends takes what was held in a state with the same target, or does nothing. -/
theorem handoverReady_target (s : State) :
    handoverReady s = s ∨ ∃ w : State, w.clk.target = s.clk.target ∧ handoverReady s = s.rcp.heldFrames.foldl (fun a h => takeHeld h a) w := by
  unfold handoverReady
  split
  · split_ifs
    · exact .inl rfl
    · dsimp only
      obtain ⟨w, hw, he⟩ := pauseEnd_takes _
      refine .inr ⟨w, ?_, he.trans ?_⟩
      · rw [hw]; split <;> simp [State.extend]
      · congr 1; split <;> simp [State.extend]
  · exact .inl rfl

/-- A handover that fails takes what was held in a state with the same target, or does nothing. -/
theorem handoverTimeout_target (s : State) :
    handoverTimeout s = s ∨ ∃ w : State, w.clk.target = s.clk.target ∧ handoverTimeout s = s.rcp.heldFrames.foldl (fun a h => takeHeld h a) w := by
  unfold handoverTimeout
  split
  · split_ifs
    · exact .inl rfl
    · obtain ⟨w, hw, he⟩ := pauseEnd_takes ((dropHandover s).failAll .handover (errD stHw 0x0D01))
      exact .inr ⟨w, by rw [hw]; simp, he.trans (by simp)⟩
  · exact .inl rfl

/-! SET_SPEED_TARGET refused (R27). -/

/-- An accepted SET_SPEED_TARGET ends with the first failure of its table. -/
theorem setSpeedTarget_fails {f : Frame} {s : State} {x : Session} {e : Err} (h : accepted 0x0104 f s x = true)
    (he : firstFail (setSpeedTargetFails f) = some e) :
    exec (.setSpeedTarget f) s = .next (frameComplete f 0x0104 e.status (errPayload e) (seen f s)) :=
  congrArg Host.Outcome.next (rcpRun_err h (Reply.check_of_fails _ _ he))

theorem setSpeedTargetFails_length {f : Frame} (hl : f.payload.length ≠ 8) : firstFail (setSpeedTargetFails f) = some (err0 stArg) := by
  have hb : badLength f 8 = true := by simpa [badLength] using hl
  rw [setSpeedTargetFails, hb]
  rfl

theorem setSpeedTargetFails_reserved {f : Frame} (hl : f.payload.length = 8) (hz : fldZero f.payload 1 7 = false) :
    firstFail (setSpeedTargetFails f) = some (errAt stArg 1) := by
  have hb : badLength f 8 = false := by simp [badLength, hl]
  have hr : reservedErr f.payload [(1, 7)] = some (errAt stArg 1) := by simp [reservedErr, hz]
  rw [setSpeedTargetFails, hb, hz, hr]
  rfl

theorem setSpeedTargetFails_range {f : Frame} (hl : f.payload.length = 8) (hz : fldZero f.payload 1 7 = true)
    (ht : fld f.payload 0 1 < 70 ∨ 130 < fld f.payload 0 1) : firstFail (setSpeedTargetFails f) = some (errAt stRange 0) := by
  have hb : badLength f 8 = false := by simp [badLength, hl]
  have hr : (decide (fld f.payload 0 1 < 70) || decide (fld f.payload 0 1 > 130)) = true := by simpa using ht
  rw [setSpeedTargetFails, hb, hz, hr]
  rfl

/-- Settles O57: the table's three rows give the three refusals; a handover ends or fails in a state with the same target and then
takes the frames it held; each level starts the loop anew. -/
theorem speedTargetCommand : Obligations.SpeedTargetCommand := by
  refine ⟨fun f s x h hl => ⟨fun hz h1 h2 => ⟨_, exec_setSpeedTarget h hl hz h1 h2, rfl⟩, fun hz => ?_, fun hz ht => ?_⟩, ?_, ?_, ?_, ?_⟩
  · exact ⟨errAt stArg 1, rfl, setSpeedTarget_fails (e := errAt stArg 1) h (setSpeedTargetFails_reserved hl hz), seen_clk f s⟩
  · exact setSpeedTarget_fails (e := errAt stRange 0) h (setSpeedTargetFails_range hl hz ht)
  · exact fun f s op st p => State.complete_clk ..
  · exact fun f s x h hl => setSpeedTarget_fails (e := err0 stArg) h (setSpeedTargetFails_length hl)
  · rintro s v (h | h)
    · exact Host.Outcome.next.inj h ▸ handoverReady_target s
    · exact Host.Outcome.next.inj h ▸ handoverTimeout_target s
  · intro l s
    cases l <;> rfl

end Sys2Proof.Machine

namespace Sys2Proof.Machine
open Sys2Proof

theorem Fuses.le_refl (a : Fuses) : Fuses.le a a = true := by
  simp [Fuses.le]

/-- Settles O55: each register of State.reset holds the value stated, and a table that lists nothing reads as its initial value everywhere
(that memory's bytes read 0 is log entry 4, that the fuses are 0 entry 2). -/
theorem resetState : Obligations.ResetState := by
  refine ⟨rfl, rfl, rfl, rfl, rfl, rfl, rfl, rfl, rfl, rfl, rfl, rfl, rfl, rfl, fun _ => rfl, rfl, rfl, rfl, rfl, fun _ => rfl, fun _ => ⟨rfl, rfl⟩,
    fun _ => rfl, fun _ => rfl, Mem.wf_reset, Fuses.le_refl _⟩

end Sys2Proof.Machine

namespace Sys2Proof.Machine
open Sys2Proof

/-! Detectors: what a firing sets, and what it leaves (R526, R527). -/

/-- A detector as it stands after it has fired. -/
def State.firedAs (s : State) (id detail : Nat) (inj : Bool) : Detector :=
  let d := s.detector id
  let due := match d.lastEvent with
    | none => true
    | some t => decide (t + 100000 ≤ s.ctl.now)
  { d with
    fired := true, fromInject := inj, detail := detail, count := sat32 d.count 1, lastEvent := if due then some s.ctl.now else d.lastEvent }

theorem State.firedAs_ne_init (s : State) (id detail : Nat) (inj : Bool) : s.firedAs id detail inj ≠ Detector.init := fun h =>
  Bool.noConfusion (show true = false from congrArg Detector.fired h)

/-- An event that may or may not be due leaves the service state. -/
theorem State.event_if_svc (b : Bool) (s : State) (p : Session → Bool) (c k : Nat) (d : List Byte) :
    (if b then s.event p c k d else s).svc = s.svc := by
  cases b
  · rfl
  · exact s.event_svc ..

/-- A firing sets its own detector and leaves every other field of the service state. -/
theorem State.fire_svc (s : State) (kind inst detail : Nat) (inj : Bool) : (s.fire kind inst detail inj).svc =
    { s.svc with detectors := s.svc.detectors.put (detId kind inst) (s.firedAs (detId kind inst) detail inj) } := by
  have hput : s.svc.detectors.upd Detector.init (detId kind inst) (s.firedAs (detId kind inst) detail inj) =
      s.svc.detectors.put (detId kind inst) (s.firedAs (detId kind inst) detail inj) := if_neg (s.firedAs_ne_init _ _ _)
  rw [← hput]
  refine (State.event_if_svc ..).trans ?_
  by_cases h : s.dbg.trv.trigDet = detId kind inst
  · rw [if_pos h]; rfl
  · rw [if_neg h]; rfl

/-- The detector that fires. -/
theorem State.detector_fire_self (s : State) (kind inst detail : Nat) (inj : Bool) :
    (s.fire kind inst detail inj).detector (detId kind inst) = s.firedAs (detId kind inst) detail inj := by
  unfold State.detector
  rw [State.fire_svc]
  unfold Tbl.at
  rw [Tbl.find_put_self, Option.getD_some]

theorem State.detector_fire_ne (s : State) (kind inst detail : Nat) (inj : Bool) {id : Nat} (h : id ≠ detId kind inst) :
    (s.fire kind inst detail inj).detector id = s.detector id := by
  unfold State.detector
  rw [State.fire_svc]
  unfold Tbl.at
  rw [Tbl.find_put_ne _ _ h]

/-- A detector that has fired stays so at every later firing. -/
theorem State.fired_fire {s : State} {id : Nat} (kind inst detail : Nat) (inj : Bool) (h : (s.detector id).fired = true) :
    ((s.fire kind inst detail inj).detector id).fired = true := by
  by_cases hid : id = detId kind inst
  · rw [hid, State.detector_fire_self]; rfl
  · rw [State.detector_fire_ne _ _ _ _ _ hid, h]

@[simp] theorem State.fire_owners (s : State) (kind inst detail : Nat) (inj : Bool) : (s.fire kind inst detail inj).svc.owners = s.svc.owners := by
  rw [State.fire_svc]

end Sys2Proof.Machine

namespace Sys2Proof.Machine
open Sys2Proof

/-! Lists: the greatest element and the first index that satisfies a predicate. -/

theorem foldl_max_eq_or_mem (l : List Nat) (a : Nat) : l.foldl max a = a ∨ l.foldl max a ∈ l := by
  induction l generalizing a with
  | nil => exact .inl rfl
  | cons x t ih =>
    rw [List.foldl_cons]
    rcases ih (max a x) with h | h
    · rcases le_total a x with hx | hx
      · rw [h, max_eq_right hx]; exact .inr List.mem_cons_self
      · rw [h, max_eq_left hx]; exact .inl rfl
    · exact .inr (List.mem_cons_of_mem _ h)

/-- The greatest of a list that is not empty is in it. -/
theorem foldl_max_mem {l : List Nat} (h : l ≠ []) : l.foldl max 0 ∈ l := by
  cases l with
  | nil => exact absurd rfl h
  | cons x t =>
    rw [List.foldl_cons, Nat.zero_max]
    rcases foldl_max_eq_or_mem t x with h | h
    · rw [h]; exact List.mem_cons_self
    · exact List.mem_cons_of_mem _ h

/-- Where some index satisfies a predicate, firstIdx gives one that does. -/
theorem firstIdx_of_exists {p : Nat → Bool} {n : Nat} (h : ∃ i, i < n ∧ p i = true) : ∃ k, firstIdx p n = some k ∧ k < n ∧ p k = true := by
  obtain ⟨i, hi, hp⟩ := h
  have hs : ((List.range n).find? p).isSome = true := List.find?_isSome.2 ⟨i, List.mem_range.2 hi, hp⟩
  obtain ⟨k, hk⟩ := Option.isSome_iff_exists.1 hs
  exact ⟨k, hk, List.mem_range.1 (List.mem_of_find?_eq_some hk), List.find?_some hk⟩

/-! The loop's branch and the voltage it asks for (R24, R570). -/

theorem loopBranch_eq_zero (c : Clk) (p m t : Nat) : (loopBranch c p m t == 0) = c.throttle := by
  unfold loopBranch
  split_ifs with h <;> simp [h]

theorem loopBranch_eq_one (c : Clk) (p m t : Nat) :
    (loopBranch c p m t == 1) = (!c.throttle && decide ((700 - c.allowance) * 10000 < p)) := by
  unfold loopBranch Clk.budget
  split_ifs with h1 h2 <;> simp_all

theorem loopVolt_range (b v : Nat) : 700 ≤ loopVolt b v ∧ loopVolt b v ≤ 850 := by
  unfold loopVolt
  omega

theorem loopVolt_thermal {v : Nat} (h : 700 ≤ v) : loopVolt 0 v ≤ v := by
  simp only [loopVolt]
  omega

theorem loopVolt_power {v : Nat} (h1 : 705 ≤ v) (h2 : v ≤ 850) : loopVolt 1 v + 5 = v := by
  simp only [loopVolt]
  omega

/-- Without throttle and within the budget the loop follows the slowest cluster: up below t, down above t and its 3 %, else it holds. -/
theorem loopVolt_follows {c : Clk} {p : Nat} (m t : Nat) (ht : c.throttle = false) (hp : p ≤ (700 - c.allowance) * 10000) (h1 : 700 ≤ c.vreq)
    (h2 : c.vreq ≤ 850) : let v := loopVolt (loopBranch c p m t) c.vreq
      (m < t → v = min 850 (c.vreq + 5)) ∧ (t + t * 3 / 100 < m → v = max 700 (c.vreq - 5)) ∧ (t ≤ m → m ≤ t + t * 3 / 100 → v = c.vreq) := by
  have hb : ¬ p > c.budget * 10000 := by unfold Clk.budget; omega
  unfold loopBranch
  rw [ht, if_neg Bool.false_ne_true, if_neg hb]
  refine ⟨fun h => ?_, fun h => ?_, fun ha hb => ?_⟩
  · rw [if_pos h]; simp only [loopVolt]; omega
  · rw [if_neg (by omega), if_pos h]; simp only [loopVolt]; omega
  · rw [if_neg (by omega), if_neg (by omega)]; simp only [loopVolt]; omega

/-- The duty of a fan that firmware holds follows the hottest reading (R611). -/
theorem setFans_duty {s : State} {n : Nat} {o : Owner} (hn : n < s.pins.duty.length) (ho : s.owner n = some o) (hf : o.firmware = true)
    (hk : o.fn = 3) : nth (setFans s).pins.duty 0 n = fanDuty s.clk.alertC s.clk.hottest := by
  unfold setFans nth
  rw [List.getD_eq_getElem _ _ (by simpa using hn), List.getElem_mapIdx]
  simp [ho, hf, hk]

/-! Rails (R568). -/

/-- A monitor as a reading leaves it; one that is not compared keeps its run and its excursion. -/
def RailMon.after (m : RailMon) (mv : BitVec 12) (compared out : Bool) : RailMon :=
  if !compared then { m with mv := mv } else if out then ⟨mv, m.outRun + 1, m.fired || decide (m.outRun + 1 ≥ 2)⟩ else ⟨mv, 0, false⟩

/-- A reading without an injection updates its monitor, which fires where the excursion begins. -/
theorem railWindow_plain {r : Nat} (mv : BitVec 12) {s : State} (hs : s.inSystemReset = false) (hr : s.ctl.refclk = true)
    (ha : s.armed 0x0E r = none) : railWindow r mv s =
      let m := nth s.clk.rails ⟨0, 0, false⟩ r
      let m1 := m.after mv (r != 0 || decide (s.clk.vreqTime + 100000 ≤ s.ctl.now)) (railOut s.clk.vreq r mv.toNat)
      let s2 := { s with clk := { s.clk with rails := s.clk.rails.set r m1 } }
      if m1.fired && !m.fired then s2.fire 0x0E r 0 false else s2 := by
  have hgo : (s.inSystemReset || !s.ctl.refclk) = false := by simp [hs, hr]
  unfold railWindow
  rw [if_neg (by rw [hgo]; decide), ha]
  simp only [BitVec.ofNat_toNat, BitVec.setWidth_eq]
  rfl

theorem nth_set_self {α : Type} {l : List α} (d x : α) {i : Nat} (h : i < l.length) : nth (l.set i x) d i = x := by
  unfold nth
  rw [List.getD_eq_getElem _ _ (by simpa using h), List.getElem_set_self]

/-! Temperature (R570, R572, R573): each threshold alone. -/

@[simp] theorem thermEvent_clk (k : Nat) (s : State) : (thermEvent k s).clk = s.clk := State.event_clk ..
@[simp] theorem thermEvent_svc (k : Nat) (s : State) : (thermEvent k s).svc = s.svc := State.event_svc ..
@[simp] theorem thermFire_clk (d : Nat) (inj : Bool) (s : State) : (thermFire d inj s).clk = s.clk := State.fire_clk ..
@[simp] theorem thermFire_owners (d : Nat) (inj : Bool) (s : State) : (thermFire d inj s).svc.owners = s.svc.owners := State.fire_owners ..
@[simp] theorem hotClaims_clk (s : State) : (hotClaims s).clk = s.clk := rfl
@[simp] theorem coolClaims_clk (s : State) : (coolClaims s).clk = s.clk := rfl

/-- A threshold that is entered, left or stays: the clock registers hold its flag after the reading. -/
theorem threshold_clk {on enter leave : Bool} {a b s : State} (set : Bool → Clk) (ha : a.clk = set true) (hb : b.clk = set false)
    (hs : s.clk = set on) : (if !on && enter then a else if on && leave then b else s).clk = set (if on then !leave else enter) := by
  cases on
  · cases enter
    · exact hs
    · exact ha
  · cases leave
    · exact hs
    · exact hb

theorem alertStep_clk (inj : Bool) (s : State) : (alertStep inj s).clk = { s.clk with
    alert := if s.clk.alert then !decide (s.clk.hottest + 3 < s.clk.alertC) else decide (s.clk.hottest ≥ s.clk.alertC) } :=
  threshold_clk (fun x => { s.clk with alert := x }) (by simp) rfl rfl

theorem throttleStep_clk (inj : Bool) (s : State) : (throttleStep inj s).clk = { s.clk with
    throttle := if s.clk.throttle then !decide (s.clk.hottest + 3 < s.clk.throttleC) else decide (s.clk.hottest ≥ s.clk.throttleC) } :=
  threshold_clk (fun x => { s.clk with throttle := x }) (by simp) (by simp) rfl

theorem hotStep_clk (inj : Bool) (s : State) : (hotStep inj s).clk = { s.clk with
    hot := if s.clk.hot then !decide (s.clk.hottest < 102) else decide (s.clk.hottest ≥ 105) } :=
  threshold_clk (fun x => { s.clk with hot := x }) (by simp) (by simp) rfl

@[simp] theorem detector_clk (s : State) (c : Clk) (id : Nat) : ({ s with clk := c }).detector id = s.detector id := rfl
@[simp] theorem hotClaims_detector (s : State) (id : Nat) : (hotClaims s).detector id = s.detector id := rfl
@[simp] theorem coolClaims_detector (s : State) (id : Nat) : (coolClaims s).detector id = s.detector id := rfl
@[simp] theorem thermEvent_detector (k : Nat) (s : State) (id : Nat) : (thermEvent k s).detector id = s.detector id := by
  simp [State.detector]

/-- Entering the Alert threshold fires the detector of the hottest sensor. -/
theorem alertStep_fires (inj : Bool) {s : State} (ha : s.clk.alert = false) (hh : s.clk.alertC ≤ s.clk.hottest) :
    ((alertStep inj s).detector (detId 0x0D s.clk.sensor)).fired = true := by
  unfold alertStep
  rw [if_pos (by simp [ha, hh])]
  unfold thermFire
  rw [thermEvent_clk, State.detector_fire_self]
  rfl

theorem throttleStep_fired (inj : Bool) {s : State} {id : Nat} (h : (s.detector id).fired = true) :
    ((throttleStep inj s).detector id).fired = true := by
  unfold throttleStep
  dsimp only
  split_ifs
  · exact State.fired_fire _ _ _ _ (by simpa using h)
  · simpa using h
  · exact h

theorem hotStep_fired (inj : Bool) {s : State} {id : Nat} (h : (s.detector id).fired = true) :
    ((hotStep inj s).detector id).fired = true := by
  unfold hotStep
  dsimp only
  split_ifs
  · exact State.fired_fire _ _ _ _ (by simpa using h)
  · simpa using h
  · exact h

/-- Once hardware has claimed the pins, firmware holds none with a function of FAN_PWM or THERM_ALERT_N (R573). -/
theorem hotClaims_owners {s : State} {e : Nat × Owner} (he : e ∈ (hotClaims s).svc.owners) (hf : e.2.firmware = true) : e.2.fn ≠ 3 ∧ e.2.fn ≠ 4 := by
  obtain ⟨⟨n, o⟩, _, rfl⟩ := List.mem_map.1 he
  dsimp only at hf ⊢
  split_ifs at hf ⊢ with hc
  simp only [Bool.and_eq_true, Bool.or_eq_true, beq_iff_eq, not_and, not_or] at hc
  exact hc hf

/-- Entering the Hot threshold takes firmware's claims of those pins. -/
theorem hotStep_owners (inj : Bool) {s : State} (hot : s.clk.hot = false) (hh : 105 ≤ s.clk.hottest) {e : Nat × Owner}
    (he : e ∈ (hotStep inj s).svc.owners) (hf : e.2.firmware = true) : e.2.fn ≠ 3 ∧ e.2.fn ≠ 4 := by
  unfold hotStep at he
  rw [if_pos (by simp [hot, hh]), thermFire_owners, thermEvent_svc] at he
  exact hotClaims_owners he hf

/-! A window of the temperature sensors without an injection. -/

/-- The state with 38 readings taken: the hottest, and the first sensor that reads it. -/
def thermalRead (temps : List (BitVec 8)) (s : State) : State :=
  let vals := temps.map BitVec.toNat
  { s with clk := { s.clk with
    temps := temps.map some, gazInj := false, hottest := vals.foldl max 0
    sensor := (firstIdx (fun i => nth vals 0 i == vals.foldl max 0) 38).getD 0 } }

/-- The Trip threshold, which latches (R574). -/
def tripStep (temps : List (BitVec 8)) (s : State) : State :=
  let h := (temps.map BitVec.toNat).foldl max 0
  if !s.clk.trip && decide (h ≥ 115) then
    ({ s with clk := { s.clk with trip := true } }).fire 0x0D ((firstIdx (fun i => (nth temps 0 i).toNat == h) 38).getD 0) 4 false
  else s

theorem tripStep_clk (temps : List (BitVec 8)) (s : State) :
    (tripStep temps s).clk = { s.clk with trip := s.clk.trip || decide (115 ≤ (temps.map BitVec.toNat).foldl max 0) } := by
  unfold tripStep
  dsimp only
  by_cases hg : (!s.clk.trip && decide (115 ≤ (temps.map BitVec.toNat).foldl max 0)) = true
  · rw [if_pos hg, State.fire_clk]
    rw [Bool.and_eq_true] at hg
    rw [hg.2, Bool.or_true]
  · rw [if_neg hg]
    have hk : (s.clk.trip || decide (115 ≤ (temps.map BitVec.toNat).foldl max 0)) = s.clk.trip := by
      revert hg
      cases s.clk.trip <;> simp
    rw [hk]

theorem tripStep_fired (temps : List (BitVec 8)) {s : State} {id : Nat} (h : (s.detector id).fired = true) :
    ((tripStep temps s).detector id).fired = true := by
  unfold tripStep
  dsimp only
  split_ifs
  · exact State.fired_fire _ _ _ _ h
  · exact h

@[simp] theorem tripStep_owners (temps : List (BitVec 8)) (s : State) : (tripStep temps s).svc.owners = s.svc.owners := by
  unfold tripStep
  dsimp only
  split_ifs
  · exact State.fire_owners ..
  · rfl

/-- A window that meets no injection takes its readings and acts on each threshold in turn. -/
theorem thermalWindow_plain {temps : List (BitVec 8)} {s : State} (hs : s.inSystemReset = false) (hr : s.ctl.refclk = true)
    (hl : temps.length = 38) (ha : ∀ i, s.armed 0x0D i = none) :
    thermalWindow temps s = tripStep temps (hotStep false (throttleStep false (alertStep false (thermalRead temps s)))) := by
  have hgo : (s.inSystemReset || !s.ctl.refclk || temps.length != 38) = false := by simp [hs, hr, hl]
  have hmax : temps.foldl (fun (a : Nat) (t : BitVec 8) => max a t.toNat) 0 = (temps.map BitVec.toNat).foldl max 0 := List.foldl_map.symm
  have hv : temps.mapIdx (fun (_ : Nat) (t : BitVec 8) => t.toNat) = temps.map BitVec.toNat := by
    apply List.ext_getElem <;> simp
  have hnone : (List.range 38).filter (fun _ => false) = [] := by simp
  unfold thermalWindow
  rw [if_neg (by rw [hgo]; decide)]
  simp only [ha, Option.map_none, hv, hmax, Option.isSome_none, hnone, List.foldl_nil, List.contains_nil, List.map_map]
  have ht : temps.map ((fun v => some (BitVec.ofNat 8 v)) ∘ BitVec.toNat) = temps.map some := by
    refine List.map_congr_left fun t _ => ?_
    simp
  rw [ht]
  rfl

end Sys2Proof.Machine

namespace Sys2Proof.Machine
open Sys2Proof

/-! An iteration's record and request, clause by clause. -/

/-- An iteration takes the thermal branch under throttle. -/
theorem loopTaken_eq_zero (vr : BitVec 12) (ir : BitVec 16) (failed : Bool) (s : State) : (loopTaken vr ir failed s == 0) = s.clk.throttle :=
  loopBranch_eq_zero ..

/-- An iteration takes the power branch without throttle where the power, of the last reading if the transaction fails, is over the budget. -/
theorem loopTaken_eq_one (vr : BitVec 12) (ir : BitVec 16) (failed : Bool) (s : State) : (loopTaken vr ir failed s == 1) =
    (!s.clk.throttle && decide ((700 - s.clk.allowance) * 10000 <
      if loopBad failed s then s.clk.vread * s.clk.iread else vr.toNat * ir.toNat)) :=
  loopBranch_eq_one ..

/-- A transaction that fails, or a recalibration that runs, changes no request. -/
theorem loopAsked_kept {vr : BitVec 12} {ir : BitVec 16} {failed : Bool} {s : State} (h : loopBad failed s = true ∨ s.clk.recal = true) :
    loopAsked vr ir failed s = s.clk.vreq := by
  unfold loopAsked
  rw [if_pos (by rcases h with h | h <;> simp [h])]

/-- Otherwise the branch that the reading in hand takes asks for its voltage. -/
theorem loopAsked_anew {vr : BitVec 12} {ir : BitVec 16} {failed : Bool} {s : State} (hb : loopBad failed s = false) (hr : s.clk.recal = false) :
    loopAsked vr ir failed s = loopVolt (loopBranch s.clk (vr.toNat * ir.toNat) s.clk.slow.1 s.speedGoal) s.clk.vreq := by
  unfold loopAsked loopTaken
  rw [hb, hr]
  rfl

theorem loopIteration_sent (vr : BitVec 12) (ir : BitVec 16) (failed : Bool) {s : State} (hf : s.fwReady = true) (hz : s.dbg.frz.on = false)
    (hr : s.ctl.refclk = true) : (loopIteration vr ir failed s).sent =
      if loopAsked vr ir failed s = s.clk.vreq then s.sent else .avs (loopAsked vr ir failed s) :: s.sent := by
  rw [loopIteration_runs _ _ _ hf hz hr, setFans_sent, requestVcore_sent]
  rfl

theorem loopIteration_rcp (vr : BitVec 12) (ir : BitVec 16) (failed : Bool) {s : State} (hf : s.fwReady = true) (hz : s.dbg.frz.on = false)
    (hr : s.ctl.refclk = true) : (loopIteration vr ir failed s).rcp = s.rcp := by
  rw [loopIteration_runs _ _ _ hf hz hr, setFans_rcp, requestVcore_rcp]

theorem loopIteration_mem (vr : BitVec 12) (ir : BitVec 16) (failed : Bool) {s : State} (hf : s.fwReady = true) (hz : s.dbg.frz.on = false)
    (hr : s.ctl.refclk = true) : (loopIteration vr ir failed s).mem = s.mem := by
  rw [loopIteration_runs _ _ _ hf hz hr, setFans_mem, requestVcore_mem]

theorem loopIteration_duty (vr : BitVec 12) (ir : BitVec 16) (failed : Bool) {s : State} {n : Nat} {o : Owner} (hf : s.fwReady = true)
    (hz : s.dbg.frz.on = false) (hr : s.ctl.refclk = true) (hn : n < s.pins.duty.length) (ho : s.owner n = some o) (hw : o.firmware = true)
    (hk : o.fn = 3) : nth (loopIteration vr ir failed s).pins.duty 0 n = fanDuty s.clk.alertC s.clk.hottest := by
  have hd : ∀ v u, (requestVcore v u).clk.alertC = u.clk.alertC ∧ (requestVcore v u).clk.hottest = u.clk.hottest := by
    intro v u
    rw [requestVcore_clk]
    exact ⟨rfl, rfl⟩
  rw [loopIteration_runs _ _ _ hf hz hr, setFans_duty (o := o) (by simpa using hn) (by simpa [State.owner] using ho) hw hk, (hd _ _).1, (hd _ _).2]
  rfl

/-- What a throttled iteration asks for is no more than was asked for before (R570). -/
theorem loopVolt_throttled {c : Clk} (p m t : Nat) (h : c.throttle = true) (hv : 700 ≤ c.vreq) :
    loopVolt (loopBranch c p m t) c.vreq ≤ c.vreq := by
  have hb : loopBranch c p m t = 0 := by simpa [h] using loopBranch_eq_zero c p m t
  rw [hb]
  exact loopVolt_thermal hv

/-- Over the budget the loop steps down by 5 mV. -/
theorem loopVolt_over {c : Clk} {p : Nat} (m t : Nat) (h : c.throttle = false) (hp : (700 - c.allowance) * 10000 < p) (h1 : 705 ≤ c.vreq)
    (h2 : c.vreq ≤ 850) : loopVolt (loopBranch c p m t) c.vreq + 5 = c.vreq := by
  have hb : loopBranch c p m t = 1 := by simpa [h, hp] using loopBranch_eq_one c p m t
  rw [hb]
  exact loopVolt_power h1 h2

/-! What a reading does to its monitor. -/

/-- Whether a monitor compares its reading: VCORE's does not within 1 ms of a change of the request. -/
def State.railCompared (s : State) (r : Nat) : Bool := r != 0 || decide (s.clk.vreqTime + 100000 ≤ s.ctl.now)

/-- A monitor after a reading. -/
def State.railAfter (s : State) (r : Nat) (mv : BitVec 12) : RailMon :=
  (nth s.clk.rails ⟨0, 0, false⟩ r).after mv (s.railCompared r) (railOut s.clk.vreq r mv.toNat)

theorem State.railCompared_iff (s : State) (r : Nat) : s.railCompared r = true ↔ r ≠ 0 ∨ s.clk.vreqTime + 100000 ≤ s.ctl.now := by
  simp [State.railCompared]

theorem State.railAfter_uncompared {s : State} {r : Nat} (mv : BitVec 12) (h : s.railCompared r = false) :
    s.railAfter r mv = { nth s.clk.rails ⟨0, 0, false⟩ r with mv := mv } := by
  rw [State.railAfter, h]
  rfl

theorem State.railAfter_inside {s : State} {r : Nat} {mv : BitVec 12} (h : s.railCompared r = true) (ho : railOut s.clk.vreq r mv.toNat = false) :
    s.railAfter r mv = ⟨mv, 0, false⟩ := by
  rw [State.railAfter, h, ho]
  rfl

theorem State.railAfter_outside {s : State} {r : Nat} {mv : BitVec 12} (h : s.railCompared r = true) (ho : railOut s.clk.vreq r mv.toNat = true) :
    s.railAfter r mv = let m := nth s.clk.rails ⟨0, 0, false⟩ r; ⟨mv, m.outRun + 1, m.fired || decide (m.outRun + 1 ≥ 2)⟩ := by
  rw [State.railAfter, h, ho]
  rfl

theorem State.railAfter_mv (s : State) (r : Nat) (mv : BitVec 12) : (s.railAfter r mv).mv = mv := by
  unfold State.railAfter RailMon.after
  split_ifs <;> rfl

theorem railWindow_rails {r : Nat} (mv : BitVec 12) {s : State} (hs : s.inSystemReset = false) (hr : s.ctl.refclk = true)
    (ha : s.armed 0x0E r = none) (hl : r < s.clk.rails.length) : nth (railWindow r mv s).clk.rails ⟨0, 0, false⟩ r = s.railAfter r mv := by
  rw [railWindow_plain mv hs hr ha]
  dsimp only
  split
  · rw [State.fire_clk]; exact nth_set_self _ _ hl
  · exact nth_set_self _ _ hl

/-- No detector fires but where an excursion begins. -/
theorem railWindow_svc {r : Nat} (mv : BitVec 12) {s : State} (hs : s.inSystemReset = false) (hr : s.ctl.refclk = true)
    (ha : s.armed 0x0E r = none) (hf : (s.railAfter r mv).fired = true → (nth s.clk.rails ⟨0, 0, false⟩ r).fired = true) :
    (railWindow r mv s).svc = s.svc := by
  rw [railWindow_plain mv hs hr ha]
  dsimp only
  rw [if_neg]
  intro h
  rw [Bool.and_eq_true, Bool.not_eq_true'] at h
  exact Bool.false_ne_true (h.2.symm.trans (hf h.1))

theorem railWindow_fires {r : Nat} (mv : BitVec 12) {s : State} (hs : s.inSystemReset = false) (hr : s.ctl.refclk = true)
    (ha : s.armed 0x0E r = none) (h1 : (s.railAfter r mv).fired = true) (h0 : (nth s.clk.rails ⟨0, 0, false⟩ r).fired = false) :
    ((railWindow r mv s).detector (detId 0x0E r)).fired = true := by
  rw [railWindow_plain mv hs hr ha]
  dsimp only
  rw [if_pos, State.detector_fire_self]
  · rfl
  · rw [h0]; exact (Bool.and_true _).trans h1

/-! What a window of temperatures leaves. -/

/-- A threshold that is left below a bound stays at the bound and above it. -/
theorem leaves_below (on enter : Bool) (h bound : Nat) :
    (if on then !decide (h < bound) else enter) = if on then decide (bound ≤ h) else enter := by
  rw [← decide_not]
  simp only [not_lt]

/-- The sensor named is one of the 38, and it reads the hottest value. -/
theorem thermalRead_sensor {temps : List (BitVec 8)} (s : State) (hl : temps.length = 38) : (thermalRead temps s).clk.sensor < 38 ∧
    nth (temps.map BitVec.toNat) 0 (thermalRead temps s).clk.sensor = (temps.map BitVec.toNat).foldl max 0 := by
  have hm : (temps.map BitVec.toNat).foldl max 0 ∈ temps.map BitVec.toNat := by
    refine foldl_max_mem fun h => ?_
    rw [List.map_eq_nil_iff] at h
    rw [h] at hl
    cases hl
  obtain ⟨i, hi, he⟩ := List.getElem_of_mem hm
  have hp : nth (temps.map BitVec.toNat) 0 i = (temps.map BitVec.toNat).foldl max 0 := by rw [nth, List.getD_eq_getElem _ _ hi, he]
  obtain ⟨k, hk, hk38, hkp⟩ := firstIdx_of_exists (p := fun i => nth (temps.map BitVec.toNat) 0 i == (temps.map BitVec.toNat).foldl max 0)
    (n := 38) ⟨i, by simpa [hl] using hi, by simpa using hp⟩
  have hs : (thermalRead temps s).clk.sensor = k := by
    unfold thermalRead
    dsimp only
    rw [hk, Option.getD_some]
  rw [hs]
  exact ⟨hk38, by simpa using hkp⟩

/-- Settles O48: the loop by its record and its request, a rail by what a reading does to its monitor, the temperatures by the four thresholds.
That a failed transaction leaves the branch to the last power reading is log entry 22. -/
theorem monitorsAndVoltageLoop : Obligations.MonitorsAndVoltageLoop := by
  refine ⟨fun c n s => ⟨fun h1 h2 => ?_, fun h => ?_⟩, fun vr ir failed s => ⟨fun h => ?_, fun hf hz hr => ⟨_, rfl, ?_⟩⟩,
    fun r mv s => ⟨fun h => ?_, fun hs hr ha hl => ⟨_, rfl, ?_⟩, fun hr => ?_⟩,
    fun l s => ⟨fun h => ?_, fun hs hr hl ha => ⟨_, rfl, ?_⟩⟩, fun l s => ⟨fun h1 h2 => ?_, fun h => ?_⟩⟩
  · exact congrArg Host.Outcome.next (if_pos (by simp [h1, h2]))
  · exact congrArg Host.Outcome.next (if_neg (by rcases h with h | h <;> simp [h]))
  · exact congrArg Host.Outcome.next (loopIteration_idle vr ir failed h)
  · obtain ⟨time, hc⟩ := loopIteration_clk vr ir failed hf hz hr
    have hsent := loopIteration_sent vr ir failed hf hz hr
    have hth := loopTaken_eq_zero vr ir failed s
    have hpw := loopTaken_eq_one vr ir failed s
    rw [hc, hsent]
    refine ⟨rfl, rfl, rfl, loopIteration_rcp vr ir failed hf hz hr, loopIteration_mem vr ir failed hf hz hr, fun hb => ?_, ?_,
      fun n o hn ho hw hk => loopIteration_duty vr ir failed hf hz hr hn ho hw hk, rfl, hth, hpw, fun hb => ?_, fun hb hrec => ?_,
      fun hb hrec => ?_⟩
    · have hk := loopAsked_kept (vr := vr) (ir := ir) (.inl hb : loopBad failed s = true ∨ _)
      have hbad : loopBad failed s = true := hb
      exact ⟨hk, if_pos hk, by simp [loopRecord, hbad, b2n], by simp [loopRecord, hbad]⟩
    · have hlim := loopLimited_iff vr ir failed s
      exact ⟨congrArg (fun b : Bool => if b then true else if s.speedGoal ≤ s.clk.slow.1 then false else s.clk.limited) hlim,
        congrArg (fun b => s.clk.limitedCount + b2n b) hlim⟩
    · have hbad : loopBad failed s = false := hb
      exact ⟨by simp [loopRecord, hbad], by simp [loopRecord, hbad], by simp [loopRecord, hbad, b2n]⟩
    · have hk := loopAsked_kept (vr := vr) (ir := ir) (failed := failed) (.inr hrec)
      exact ⟨hk, if_pos hk⟩
    · have hb' : loopBad failed s = false := hb
      have ha := loopAsked_anew (vr := vr) (ir := ir) hb hrec
      rw [ha]
      refine ⟨(loopVolt_range _ _).1, (loopVolt_range _ _).2, rfl, fun ht => ⟨hth.trans ht, fun hv => loopVolt_throttled _ _ _ ht hv⟩,
        fun ht hp => ⟨?_, fun h1 h2 => loopVolt_over _ _ ht hp h1 h2⟩, fun ht hp => ⟨?_, hth.trans ht, fun h1 h2 => loopVolt_follows _ _ ht hp h1 h2⟩⟩
      · exact hpw.trans (by rw [ht, hb']; simpa using hp)
      · exact hpw.trans (by rw [ht, hb']; simpa using hp)
  · exact congrArg Host.Outcome.next (if_pos (by rcases h with h | h <;> simp [h]))
  · rw [railWindow_rails mv hs hr ha (by rw [hl]; exact r.isLt)]
    refine ⟨s.railAfter_mv r mv, fun h0 hn => ?_, fun hc hout => ?_, fun hc hout => ?_⟩
    · have hc : s.railCompared r = false := by simp [State.railCompared, h0]; omega
      have he := State.railAfter_uncompared mv hc
      exact ⟨by rw [he], by rw [he], railWindow_svc mv hs hr ha (by rw [he]; exact id)⟩
    · have he := State.railAfter_inside ((s.railCompared_iff r).2 hc) hout
      exact ⟨by rw [he], by rw [he], railWindow_svc mv hs hr ha (by rw [he]; exact fun h => Bool.noConfusion h)⟩
    · have he := State.railAfter_outside ((s.railCompared_iff r).2 hc) hout
      refine ⟨by rw [he], fun h1 => ?_, fun h0 hf => ?_⟩
      · have hfired : (s.railAfter r mv).fired = true := by
          rw [he, Bool.or_eq_true]
          exact .inr (decide_eq_true (by omega))
        exact ⟨hfired, fun hf => railWindow_fires mv hs hr ha hfired hf, fun hf => railWindow_svc mv hs hr ha fun _ => hf⟩
      · have hkept : (s.railAfter r mv).fired = false := by
          rw [he]
          dsimp only
          rw [hf, h0]
          rfl
        exact ⟨hkept, railWindow_svc mv hs hr ha fun h => absurd (hkept.symm.trans h) Bool.false_ne_true⟩
  · rw [hr]
    simp [railOut]
  · exact congrArg Host.Outcome.next (if_pos (by rcases h with h | h | h <;> simp [h]))
  · obtain ⟨hk, hh⟩ := thermalRead_sensor s hl
    rw [thermalWindow_plain hs hr hl ha, tripStep_clk, hotStep_clk, throttleStep_clk, alertStep_clk]
    refine ⟨rfl, rfl, hk, hh, ?_, ?_, ?_, rfl, rfl, fun h0 h1 => ?_, fun h0 h1 e he hf => ?_⟩
    · exact leaves_below s.clk.alert _ _ _
    · exact leaves_below s.clk.throttle _ _ _
    · exact leaves_below s.clk.hot _ _ _
    · exact tripStep_fired _ (hotStep_fired _ (throttleStep_fired _ (alertStep_fires _ h0 h1)))
    · rw [tripStep_owners] at he
      exact hotStep_owners false (by rw [throttleStep_clk, alertStep_clk]; exact h0) (by rw [throttleStep_clk, alertStep_clk]; exact h1) he hf
  · exact congrArg Host.Outcome.next (if_pos ⟨h1, h2⟩)
  · exact congrArg Host.Outcome.next (if_neg (by rcases h with h | h <;> simp [h]))

end Sys2Proof.Machine

namespace Sys2Proof

/-! Sparse tables whose values are changed, or of which some entries are kept. -/

theorem Tbl.find_mapV {α β : Type} (t : Tbl α) (f : α → β) (a : Nat) : Tbl.find (t.mapV f) a = (Tbl.find t a).map f := by
  induction t with
  | nil => rfl
  | cons p t ih =>
    obtain ⟨k, v⟩ := p
    show (if k = a then some (f v) else if a < k then none else Tbl.find (Tbl.mapV t f) a) = _
    rw [ih]
    simp only [Tbl.find]
    split_ifs <;> rfl

theorem Tbl.above_mapV {α β : Type} {t : Tbl α} (f : α → β) {b : Nat} (h : t.above b) : (t.mapV f).above b := by
  cases t with
  | nil => trivial
  | cons p t => exact h

theorem Tbl.sorted_mapV {α β : Type} {t : Tbl α} (f : α → β) (h : t.sorted = true) : (t.mapV f).sorted = true := by
  induction t with
  | nil => rfl
  | cons p t ih =>
    obtain ⟨k, v⟩ := p
    rw [Tbl.sorted_cons] at h
    exact (Tbl.sorted_cons _ _ _).2 ⟨Tbl.above_mapV f h.1, ih h.2⟩

/-- Dropping the entries that hold the default changes no value. -/
theorem Tbl.at_keep_ne {α : Type} [DecidableEq α] {t : Tbl α} (d : α) (a : Nat) (h : t.sorted = true) :
    (t.keep (fun _ x => x != d)).at d a = t.at d a := by
  induction t with
  | nil => rfl
  | cons p t ih =>
    obtain ⟨k, v⟩ := p
    obtain ⟨hk, ht⟩ := (Tbl.sorted_cons _ _ _).1 h
    have ih := ih ht
    by_cases hv : v = d
    · have hkeep : Tbl.keep ((k, v) :: t) (fun _ x => x != d) = Tbl.keep t (fun _ x => x != d) := by simp [Tbl.keep, hv]
      rw [hkeep, ih]
      unfold Tbl.at
      by_cases ha : a ≤ k
      · rw [Tbl.find_of_above hk ha, Tbl.find]
        split_ifs
        · exact hv.symm
        · rfl
        · omega
      · rw [Tbl.find, if_neg (by omega), if_neg (by omega)]
    · have hkeep : Tbl.keep ((k, v) :: t) (fun _ x => x != d) = (k, v) :: Tbl.keep t (fun _ x => x != d) := by simp [Tbl.keep, hv]
      rw [hkeep]
      unfold Tbl.at at ih ⊢
      simp only [Tbl.find]
      split_ifs
      · rfl
      · rfl
      · exact ih

/-- Every value of a table changed by a function that keeps the default, with entries that come to hold it dropped. -/
theorem Tbl.at_mapV_keep {α : Type} [DecidableEq α] {t : Tbl α} {d : α} (f : α → α) (a : Nat) (hd : f d = d) (h : t.sorted = true) :
    ((t.mapV f).keep (fun _ x => x != d)).at d a = f (t.at d a) := by
  rw [Tbl.at_keep_ne d a (Tbl.sorted_mapV f h)]
  unfold Tbl.at
  rw [Tbl.find_mapV]
  cases Tbl.find t a with
  | none => exact hd.symm
  | some x => rfl

/-- A key whose entries are all dropped is not found. -/
theorem Tbl.find_keep_none {α : Type} (t : Tbl α) (q : Nat → α → Bool) {a : Nat} (h : ∀ x, q a x = false) : (t.keep q).find a = none := by
  cases hf : (t.keep q).find a with
  | none => rfl
  | some x =>
    have hm := (List.mem_filter.1 (Tbl.find_mem hf)).2
    rw [h x] at hm
    cases hm

end Sys2Proof

namespace Sys2Proof.Machine
open Sys2Proof

/-- A bit vector with one bit set or cleared. -/
theorem getLsbD_putBit {n : Nat} (v : BitVec n) {i : Nat} (b : Bool) (j : Nat) (hi : i < n) :
    (putBit v i b).getLsbD j = if j = i then b else v.getLsbD j := by
  unfold putBit
  by_cases hj : j = i
  · subst hj
    cases b <;> simp [hi]
  · have h1 : ((1 : BitVec n) <<< i).getLsbD j = false := by
      simp [BitVec.getLsbD_shiftLeft, BitVec.getLsbD_one]
      omega
    have h2 : (if b then (1 : BitVec n) <<< i else 0).getLsbD j = false := by
      cases b
      · exact BitVec.getLsbD_zero
      · exact h1
    rw [BitVec.getLsbD_or, BitVec.getLsbD_and, BitVec.getLsbD_not, h1, h2, if_neg hj]
    by_cases hn : j < n
    · simp [hn]
    · simp [BitVec.getLsbD_of_ge v j (by omega)]

end Sys2Proof.Machine

namespace Sys2Proof.Machine
open Sys2Proof

/-! What each reset level leaves of the tables (R554, R607). -/

/-- No injection is armed after core or system reset (R528). -/
theorem disarmAll_armed (t : Tbl Detector) (id : Nat) : ((disarmAll t).at Detector.init id).armed = none := by
  unfold Tbl.at
  cases hf : (disarmAll t).find id with
  | none => rfl
  | some d =>
    obtain ⟨e, _, he⟩ := List.mem_map.1 (List.mem_of_mem_filter (Tbl.find_mem hf))
    cases he
    rfl

/-- A detector keeps what it has counted through core and system reset. -/
theorem disarmAll_at {t : Tbl Detector} (h : t.sorted = true) (id : Nat) :
    (disarmAll t).at Detector.init id = { t.at Detector.init id with armed := none, lastEvent := none } :=
  Tbl.at_mapV_keep (fun d : Detector => { d with armed := none, lastEvent := none }) id rfl h

/-- A channel keeps its state through core reset (R226). -/
theorem channel_assertReset_core {s : State} (h : s.mem.channels.sorted = true) (c : Nat) :
    ((assertReset .core s).channel c).state = (s.channel c).state := by
  have hc : (assertReset .core s).channel c = { s.channel c with moved := [] } :=
    Tbl.at_mapV_keep (fun x : Channel => { x with moved := [] }) c rfl h
  rw [hc]

theorem detector_assertReset_core {s : State} (h : s.svc.detectors.sorted = true) (id : Nat) :
    ((assertReset .core s).detector id).count = (s.detector id).count ∧ ((assertReset .core s).detector id).fired = (s.detector id).fired := by
  have hd : (assertReset .core s).detector id = { s.detector id with armed := none, lastEvent := none } := disarmAll_at h id
  rw [hd]
  exact ⟨rfl, rfl⟩

/-- LPDDR keeps its bytes through core reset, and the on-die stores read zero (R226, log entry 4). -/
theorem byte_assertReset_core {s : State} (h : s.mem.bytes.sorted = true) (a : Nat) :
    (assertReset .core s).mem.byte a = if a < lpddrEnd then s.mem.byte a else 0 := by
  show ((s.mem.bytes.keep (fun a _ => decide (a < lpddrEnd))).find a).getD 0 = _
  split_ifs with ha
  · rw [Tbl.keep, Tbl.find_filter_ne _ _ (fun _ => decide_eq_true ha) h]
    rfl
  · rw [Tbl.find_keep_none _ _ (fun _ => decide_eq_false ha)]
    rfl

theorem armed_assertReset (l : Level) (s : State) (kind inst : Nat) : (assertReset l s).armed kind inst = none := by
  cases l
  · exact disarmAll_armed _ _
  · exact disarmAll_armed _ _
  · rfl

theorem up_assertReset_core (s : State) (i : Nat) : (assertReset .core s).up i = if i = islSurveyor then false else s.up i :=
  getLsbD_putBit _ _ _ (by decide)

/-- No level leaves the Surveyor complex out of reset. -/
theorem up_assertReset_surveyor (l : Level) (s : State) : (assertReset l s).up islSurveyor = false := by
  cases l
  · rw [up_assertReset_core, if_pos rfl]
  · exact BitVec.getLsbD_zero
  · exact BitVec.getLsbD_zero

/-- The level held after one is asserted is the higher of it and the one held before. -/
theorem held_assertReset (l : Level) (s : State) : (assertReset l s).ctl.held =
    some (match s.ctl.held with
      | none => l
      | some k => if k.rank < l.rank then l else k) := by
  cases l <;> rfl

theorem held_assertReset_power (s : State) : (assertReset .power s).ctl.held = some .power := by
  rw [held_assertReset]
  cases s.ctl.held with
  | none => rfl
  | some k => cases k <;> rfl

theorem held_assertReset_system {s : State} (h : s.ctl.held ≠ some .power) : (assertReset .system s).ctl.held = some .system := by
  rw [held_assertReset]
  cases hk : s.ctl.held with
  | none => rfl
  | some k =>
    cases k
    · rfl
    · rfl
    · exact absurd hk h

theorem held_assertReset_core {s : State} (h : s.ctl.held ≠ some .power) :
    (assertReset .core s).ctl.held = some (if s.ctl.held = some .system then .system else .core) := by
  rw [held_assertReset]
  cases hk : s.ctl.held with
  | none => rfl
  | some k =>
    cases k
    · rfl
    · rfl
    · exact absurd hk h

/-! When RESET_N and the rails act (R552, R555, R560). -/

theorem pinCore_acts {s : State} (hr : s.ctl.refclk = true) (hp : s.ctl.held ≠ some .power) (hl : s.ctl.pinLevel = none) :
    pinCore s = assertReset .core { s with ctl := { s.ctl with pinLevel := some .core } } := if_pos (by simp [hr, hp, hl])

theorem pinSystem_acts {s : State} (hr : s.ctl.refclk = true) (hp : s.ctl.held ≠ some .power) (hl : s.ctl.pinLevel = some .core) :
    pinSystem s = assertReset .system { s with ctl := { s.ctl with pinLevel := some .system } } := if_pos (by simp [hr, hp, hl])

/-- The conditions under which a release of RESET_N acts at all. -/
theorem pinRelease_gate {s : State} (hr : s.ctl.refclk = true) (hd : s.ctl.driving = false) (hp : s.ctl.held ≠ some .power) :
    (!s.ctl.refclk || s.ctl.driving || s.ctl.held == some .power) ≠ true := by
  simp [hr, hd, hp]

theorem pinRelease_core (w : BitVec 4) {s : State} (hr : s.ctl.refclk = true) (hd : s.ctl.driving = false) (hp : s.ctl.held ≠ some .power)
    (hl : s.ctl.pinLevel = some .core) : pinRelease w s =
      enableFabric { s with ctl := { s.ctl with pinLevel := none, rstCause := putBit s.ctl.rstCause 2 true } } := by
  unfold pinRelease
  rw [if_neg (pinRelease_gate hr hd hp), hl]

theorem pinRelease_system (w : BitVec 4) {s : State} (hr : s.ctl.refclk = true) (hd : s.ctl.driving = false) (hp : s.ctl.held ≠ some .power)
    (hl : s.ctl.pinLevel = some .system) : pinRelease w s =
      enableFabric (sampleStraps w { s with ctl := { s.ctl with pinLevel := none, rstCause := putBit s.ctl.rstCause 1 true } }) := by
  unfold pinRelease
  rw [if_neg (pinRelease_gate hr hd hp), hl]

theorem railBelow_asserts (r : Nat) {s : State} (h : s.ctl.refclk = true) : railBelow r s =
    assertReset .power { s with ctl := { s.ctl with railGood := s.ctl.railGood.set r false, porCounting := false } } := if_pos h

theorem pinRelease_idle (w : BitVec 4) {s : State}
    (h : s.ctl.refclk = false ∨ s.ctl.driving = true ∨ s.ctl.held = some .power ∨ s.ctl.pinLevel = none) : pinRelease w s = s := by
  unfold pinRelease
  split
  · rfl
  · rename_i hg
    rcases h with h | h | h | h
    · simp [h] at hg
    · simp [h] at hg
    · simp [h] at hg
    · rw [h]

/-- Settles O46: each level's column is read off assertReset field by field, the tables by the lemmas above.
That the on-die stores read 0 after a reset is log entry 4, what a core reset keeps entry 18, and that the pin's cause is recorded at its release
entry 19. -/
theorem resetLevels : Obligations.ResetLevels := by
  unfold Obligations.ResetLevels
  intro goOn cleared kept coreKept systemGone
  have hcleared : ∀ l s, cleared (assertReset l s) := by
    intro l s
    have ha := armed_assertReset l s
    have hu := up_assertReset_surveyor l s
    cases l <;> exact ⟨rfl, rfl, rfl, rfl, rfl, rfl, rfl, rfl, rfl, rfl, rfl, rfl, rfl, rfl, hu, rfl, rfl, ha⟩
  have hgone : ∀ l s, l ≠ Level.core → systemGone (assertReset l s) := by
    intro l s hl
    cases l
    · exact absurd rfl hl
    · exact ⟨rfl, rfl, rfl, rfl, rfl, rfl, rfl, rfl, rfl⟩
    · exact ⟨rfl, rfl, rfl, rfl, rfl, rfl, rfl, rfl, rfl⟩
  refine ⟨fun s => ⟨fun h => ?_, fun hr hp hl => ⟨_, rfl, ?_⟩, fun h => ?_, fun hr hp hl => ⟨_, rfl, ?_⟩⟩, fun w s => ⟨fun h => ?_, fun hr hd hp =>
    ⟨fun hl => ?_, fun hl => ?_⟩, fun hr hp hc hg he => ?_, fun h => ?_⟩, fun r s => ⟨rfl, fun h => ?_, fun h => ⟨_, rfl, ?_⟩⟩⟩
  · exact congrArg Host.Outcome.next (if_neg (by rcases h with h | h | h <;> simp [h]))
  · rw [pinCore_acts hr hp hl]
    refine ⟨rfl, held_assertReset_core hp, hcleared _ _, ⟨rfl, rfl, rfl, rfl, rfl⟩, rfl, rfl, rfl, rfl, rfl, rfl, rfl, rfl, fun i hi => ?_,
      fun hs c => channel_assertReset_core hs c, fun hs k => detector_assertReset_core hs k, fun hs a => byte_assertReset_core hs a⟩
    rw [up_assertReset_core, if_neg hi]
    rfl
  · exact congrArg Host.Outcome.next (if_neg (by rcases h with h | h | h <;> simp [h]))
  · rw [pinSystem_acts hr hp hl]
    exact ⟨rfl, held_assertReset_system hp, hcleared _ _, hgone _ _ (by decide), ⟨rfl, rfl, rfl, rfl, rfl⟩, rfl, rfl, rfl, rfl⟩
  · exact congrArg Host.Outcome.next (pinRelease_idle w h)
  · exact congrArg Host.Outcome.next (pinRelease_core w hr hd hp hl)
  · exact congrArg Host.Outcome.next (pinRelease_system w hr hd hp hl)
  · exact congrArg Host.Outcome.next (if_pos (by simpa [hr, hp, hc, hg, refclkTicks] using he))
  · exact congrArg Host.Outcome.next (if_neg (by rcases h with h | h | h | h | h <;> simp [refclkTicks, h]))
  · exact congrArg Host.Outcome.next (if_neg (by simp [h]))
  · rw [railBelow_asserts r h]
    exact ⟨rfl, rfl, held_assertReset_power _, hcleared _ _, hgone _ _ (by decide), rfl, rfl, rfl, rfl, rfl, rfl, rfl, rfl, rfl⟩

end Sys2Proof.Machine

namespace Sys2Proof
open Sys2Proof.Machine

/-- A key that is found is found as before once another key is removed, in whatever order the entries stand. -/
theorem Tbl.find_del_of_found {α : Type} {t : Tbl α} {a b : Nat} {x : α} (h : b ≠ a) (hf : t.find b = some x) : (t.del a).find b = some x := by
  induction t with
  | nil => cases hf
  | cons p t ih =>
    obtain ⟨k, v⟩ := p
    have hdel : Tbl.del ((k, v) :: t) a = if k = a then Tbl.del t a else (k, v) :: Tbl.del t a := by
      by_cases hk : k = a <;> simp [Tbl.del, hk]
    rw [hdel]
    simp only [Tbl.find] at hf
    by_cases ha : k = a
    · rw [if_neg (fun hb => h (hb.symm.trans ha))] at hf
      rw [if_pos ha]
      split_ifs at hf
      exact ih hf
    · rw [if_neg ha]
      simp only [Tbl.find]
      split_ifs at hf ⊢
      · exact hf
      · exact ih hf

theorem Tbl.find_upd_of_found {α : Type} [DecidableEq α] {t : Tbl α} (d : α) {a b : Nat} {x : α} (y : α) (h : b ≠ a) (hf : t.find b = some x) :
    (t.upd d a y).find b = some x := by
  unfold Tbl.upd
  split_ifs
  · exact Tbl.find_del_of_found h hf
  · rw [Tbl.find_put_ne t y h, hf]

end Sys2Proof

namespace Sys2Proof.Machine
open Sys2Proof

/-! A Fabric Port that has failed stays so while what it held finds another way (R449 to R452, R477). -/

/-- A port's state is FAILED. -/
def State.portFailed (s : State) (p : Nat) : Prop := (s.fport p).state = .failed

/-- A change of a port's other fields, or of another port, leaves a failed port so. -/
theorem State.portFailed_modFport {s : State} {p : Nat} (q : Nat) (f : FPort → FPort) (hf : ∀ x, (f x).state = x.state) (h : s.portFailed p) :
    (s.modFport q f).portFailed p := by
  by_cases hq : p = q
  · subst hq
    unfold State.portFailed State.fport State.modFport
    rw [Tbl.at_upd_self, hf]
    exact h
  · unfold State.portFailed State.fport Tbl.at at h
    cases hx : s.fab.ports.find p with
    | none => rw [hx] at h; cases h
    | some x =>
      rw [hx] at h
      unfold State.portFailed State.fport Tbl.at State.modFport
      rw [Tbl.find_upd_of_found FPort.init0 _ hq hx]
      exact h

theorem State.portFailed_of_ports {s u : State} {p : Nat} (hu : u.fab.ports = s.fab.ports) (h : s.portFailed p) : u.portFailed p := by
  unfold State.portFailed State.fport at *
  rw [hu]
  exact h

/-- What each step of a fold keeps, the fold keeps. -/
theorem foldl_invariant {α γ : Type} {P : α → Prop} {g : α → γ → α} (h : ∀ a x, P a → P (g a x)) (l : List γ) (a : α) (ha : P a) :
    P (l.foldl g a) := by
  induction l generalizing a with
  | nil => exact ha
  | cons x t ih => exact ih _ (h a x ha)

theorem State.portFailed_sendLink {s : State} {p : Nat} (q k vc seq ack : Nat) (b : List Byte) (bad : Bool) (h : s.portFailed p) :
    (s.sendLink q k vc seq ack b bad).portFailed p :=
  State.portFailed_modFport q _ (fun _ => rfl) (State.portFailed_of_ports rfl h)

theorem State.portFailed_giveBack {s : State} {p : Nat} (arr vc : Nat) (f : TFrame) (h : s.portFailed p) : (s.giveBack arr vc f).portFailed p := by
  unfold State.giveBack
  split
  · exact State.portFailed_modFport arr _ (fun _ => rfl) h
  · exact h

theorem State.portFailed_leaves {s : State} {p : Nat} (arr : Nat) (f : TFrame) (h : s.portFailed p) : (s.leaves arr f).portFailed p := by
  unfold State.leaves
  split
  · exact h
  · exact State.portFailed_of_ports rfl h

theorem State.portFailed_countDiscard {s : State} {p : Nat} (q : Nat) (h : s.portFailed p) : (s.countDiscard q).portFailed p := by
  unfold State.countDiscard
  split
  · exact State.portFailed_modFport q _ (fun _ => rfl) h
  · exact h

theorem State.portFailed_transmit {s : State} {p : Nat} (q vc arr : Nat) (f : TFrame) (h : s.portFailed p) : (s.transmit q vc arr f).portFailed p := by
  refine State.portFailed_leaves _ _ (State.portFailed_giveBack _ _ _ (State.portFailed_modFport q _ (fun _ => rfl)
    (State.portFailed_sendLink _ _ _ _ _ _ _ ?_)))
  split
  · exact State.portFailed_of_ports rfl h
  · exact h

theorem State.portFailed_replayPort {s : State} {p : Nat} (q : Nat) (h : s.portFailed p) : (s.replayPort q).portFailed p :=
  State.portFailed_modFport q _ (fun _ => rfl) (foldl_invariant (P := fun a : State => a.portFailed p) (fun _ _ ha => State.portFailed_sendLink _ _ _ _ _ _ _ ha) _ s h)

theorem State.portFailed_pumpPort {s : State} {p : Nat} (q : Nat) (h : s.portFailed p) : (s.pumpPort q).portFailed p := by
  unfold State.pumpPort
  split
  · exact h
  · refine State.portFailed_modFport q _ (fun _ => rfl) ?_
    refine foldl_invariant (P := fun a : State × List (Nat × Nat × TFrame) × List Nat => a.1.portFailed p) (fun a e ha => ?_) _ _ ?_
    · dsimp only
      split
      · exact ha
      · exact State.portFailed_transmit _ _ _ _ ha
    · dsimp only
      split
      · exact State.portFailed_replayPort q h
      · exact h

theorem State.portFailed_tryRoute {s u : State} {p : Nat} {arr vc : Nat} {f : TFrame} (hu : tryRoute s arr vc f = some u) (h : s.portFailed p) :
    u.portFailed p := by
  unfold tryRoute at hu
  split at hu
  · split at hu
    · rw [← Option.some.inj hu]
      exact State.portFailed_modFport arr _ (fun _ => rfl) h
    · rw [← Option.some.inj hu]
      exact State.portFailed_of_ports rfl h
  · split at hu
    · cases hu
    · rename_i q _
      rw [← Option.some.inj hu]
      exact State.portFailed_pumpPort q (State.portFailed_modFport q _ (fun _ => rfl) h)

/-- A frame that finds a way, or is dealt with otherwise. -/
theorem State.portFailed_tryRoute_getD {s d : State} {p : Nat} (arr vc : Nat) (f : TFrame) (h : s.portFailed p) (hd : d.portFailed p) :
    ((tryRoute s arr vc f).getD d).portFailed p := by
  cases hu : tryRoute s arr vc f with
  | none => exact hd
  | some u => exact State.portFailed_tryRoute hu h

theorem lossReport_ports (s : State) (q d : Nat) (f : TFrame) : (lossReport s q d f).2.fab.ports = s.fab.ports := by
  unfold lossReport deltaRecords
  dsimp only
  split_ifs
  · rfl
  · split <;> rfl
  · rfl
  · rfl
  · rfl

theorem State.portFailed_report {s : State} {p : Nat} (q d : Nat) (f : TFrame) (h : s.portFailed p) : (s.report q d f).portFailed p := by
  have hr : (lossReport s q d f).2.portFailed p := State.portFailed_of_ports (lossReport_ports s q d f) h
  unfold State.report
  split <;> rename_i hl <;> rw [hl] at hr
  · exact hr
  · exact State.portFailed_tryRoute_getD _ _ _ hr (State.portFailed_countDiscard q hr)

theorem State.portFailed_fabEvent {s : State} {p : Nat} (c g q n : Nat) (h : s.portFailed p) : (s.fabEvent c g q n).portFailed p :=
  State.portFailed_of_ports (by rw [State.fabEvent, State.event_fab]) h

/-- A change that sets a port's state to FAILED. -/
theorem State.portFailed_set (s : State) (p : Nat) (f : FPort → FPort) (hf : ∀ x, (f x).state = .failed) : (s.modFport p f).portFailed p := by
  unfold State.portFailed State.fport State.modFport
  rw [Tbl.at_upd_self, hf]

/-- A Fabric Port that fails is FAILED, whatever it held. -/
theorem State.portFailed_failPort (s : State) (p : Nat) : (s.failPort p).portFailed p := by
  unfold State.failPort
  dsimp only
  split
  · refine State.portFailed_fabEvent _ _ _ _ (foldl_invariant (P := fun a : State => a.portFailed p) (fun a e ha => ?_) _ _
      (foldl_invariant (P := fun a : State => a.portFailed p) (fun a e ha => ?_) _ _ (State.portFailed_set _ p _ (fun _ => rfl))))
    · split
      · exact ha
      · exact State.portFailed_countDiscard _ (State.portFailed_report _ _ _ ha)
    · split
      · exact ha
      · exact State.portFailed_tryRoute_getD _ _ _ ha
          (State.portFailed_giveBack _ _ _ (State.portFailed_countDiscard _ (State.portFailed_report _ _ _ ha)))
  · have h := State.portFailed_set s p (fun x => { x with state := .failed, gotInit := false }) (fun _ => rfl)
    split
    · exact State.portFailed_fabEvent _ _ _ _ (State.portFailed_modFport p _ (fun _ => rfl) h)
    · exact h

end Sys2Proof.Machine

namespace Sys2Proof.Machine
open Sys2Proof

/-! Events leave the state of the Host Port's link. -/

@[simp] theorem State.hostSend_link (s : State) (p n : Nat) (x : Sent) : (s.hostSend p n x).host.link = s.host.link := by
  unfold State.hostSend
  split <;> rfl

@[simp] theorem State.sendRcp_link (s : State) (p : Path) (ip port : Nat) (o : RcpOut) : (s.sendRcp p ip port o).host.link = s.host.link := by
  unfold State.sendRcp
  split
  · cases p
    · exact State.hostSend_link ..
    · rfl
  · rfl

@[simp] theorem State.eventTo_link (s : State) (i c k : Nat) (b : List Byte) : (s.eventTo i c k b).host.link = s.host.link := by
  unfold State.eventTo
  split
  · rfl
  · split
    · dsimp only
      split <;> split <;> simp
    · rfl

@[simp] theorem State.event_link (s : State) (p : Session → Bool) (c k : Nat) (b : List Byte) : (s.event p c k b).host.link = s.host.link :=
  foldl_keeps (p := fun a : State => a.host.link) (fun a i => a.eventTo_link i c k b) _ s

@[simp] theorem State.fire_link (s : State) (k n d : Nat) (j : Bool) : (s.fire k n d j).host.link = s.host.link := by
  have h : ∀ (b : Bool) (u : State) (e : List Byte), (if b then u.event (·.priv) 0 0x0010 e else u).host.link = u.host.link := by
    intro b u e
    cases b
    · rfl
    · exact State.event_link ..
  refine (h ..).trans ?_
  split <;> rfl

/-! An injected firing also disarms its injection (R525, R528). -/

theorem State.fireInjected_self (s : State) (k n d : Nat) : ((s.fireInjected k n d).detector (detId k n)).fired = true ∧
    ((s.fireInjected k n d).detector (detId k n)).fromInject = true := by
  unfold State.fireInjected
  rw [State.detector_fire_self]
  exact ⟨rfl, rfl⟩

theorem State.fire_self (s : State) (k n d : Nat) (j : Bool) : ((s.fire k n d j).detector (detId k n)).fired = true ∧
    ((s.fire k n d j).detector (detId k n)).fromInject = j := by
  rw [State.detector_fire_self]
  exact ⟨rfl, rfl⟩

/-! The loss of a memory controller (R227). -/

/-- A channel's state once its controller is lost. -/
def ChState.afterLoss (x : ChState) : ChState := if x = .absent then .absent else .lost

theorem ChState.afterLoss_afterLoss (x : ChState) : x.afterLoss.afterLoss = x.afterLoss := by cases x <;> rfl

/-- A channel of a lost controller: LOST with nothing to bring back, unless it is ABSENT. -/
def chanLost (ch : Nat) (s : State) : State :=
  if (s.channel ch).state = .absent then s else (s.setChannel ch .lost).modChannel ch (fun c => { c with moved := [] })

/-- A change of a channel that leaves it in a state other than ABSENT is seen at it and at no other. -/
theorem State.channel_modChannel {s : State} {ch : Nat} (f : Channel → Channel) (h : (f (s.channel ch)).state ≠ .absent) (c : Nat) :
    (s.modChannel ch f).channel c = if c = ch then f (s.channel ch) else s.channel c := by
  have hne : f (s.channel ch) ≠ Channel.init := fun he => h (congrArg Channel.state he)
  show (s.mem.channels.upd Channel.init ch (f (s.channel ch))).at Channel.init c = _
  split_ifs with hc
  · subst hc
    exact Tbl.at_upd_self ..
  · unfold Tbl.upd Tbl.at
    rw [if_neg hne, Tbl.find_put_ne _ _ hc]
    rfl

theorem chanLost_state (ch : Nat) (s : State) (c : Nat) :
    ((chanLost ch s).channel c).state = if c = ch then (s.channel c).state.afterLoss else (s.channel c).state := by
  unfold chanLost ChState.afterLoss
  by_cases ha : (s.channel ch).state = .absent
  · rw [if_pos ha]
    split_ifs with hc h
    · exact h
    · subst hc; exact absurd ha h
    · rfl
  · have h1 := State.channel_modChannel (s := s) (ch := ch) (fun x => { x with state := .lost }) (by simp)
    have hs : s.setChannel ch .lost = s.modChannel ch (fun x => { x with state := .lost }) := rfl
    rw [if_neg ha, hs, State.channel_modChannel _ (by rw [h1, if_pos rfl]; simp), h1, h1]
    by_cases hc : c = ch
    · subst hc
      rw [if_pos rfl, if_pos rfl, if_neg ha, if_pos rfl]
    · rw [if_neg hc, if_neg hc, if_neg hc]

/-- Every channel of a list is lost, and no other changes its state. -/
theorem foldl_chanLost_state (n : Nat) (l : List Nat) (s : State) (c : Nat) :
    ((l.foldl (fun a k => chanLost (4 * n + k) a) s).channel c).state =
      if ∃ k ∈ l, c = 4 * n + k then (s.channel c).state.afterLoss else (s.channel c).state := by
  induction l generalizing s with
  | nil => simp
  | cons k t ih =>
    rw [List.foldl_cons, ih, chanLost_state]
    by_cases ht : ∃ j ∈ t, c = 4 * n + j
    · obtain ⟨j, hj, he⟩ := ht
      rw [if_pos (show ∃ j ∈ t, c = 4 * n + j from ⟨j, hj, he⟩),
        if_pos (show ∃ j ∈ k :: t, c = 4 * n + j from ⟨j, List.mem_cons_of_mem _ hj, he⟩)]
      split_ifs
      · exact ChState.afterLoss_afterLoss _
      · rfl
    · rw [if_neg ht]
      by_cases hc : c = 4 * n + k
      · rw [if_pos hc, if_pos (show ∃ j ∈ k :: t, c = 4 * n + j from ⟨k, List.mem_cons_self, hc⟩)]
      · rw [if_neg hc, if_neg]
        rintro ⟨j, hj, he⟩
        rcases List.mem_cons.1 hj with rfl | hj
        · exact hc he
        · exact ht ⟨j, hj, he⟩

/-- A state in which no flow, graph, embedding table or retraining is at work and no capture goes to memory: the loss of a controller then touches
the channels, the lost granules and the events alone. -/
structure Quiet (s : State) : Prop where
  flows : s.disp.flows = []
  graphFlows : s.disp.graphFlows = []
  tables : s.emb.tables = []
  retrains : s.mem.retrains = []
  redirect : s.dbg.trv.redirect = false

theorem Quiet.of_same {s u : State} (h : Quiet s) (hd : u.disp = s.disp) (he : u.emb = s.emb) (hm : u.mem.retrains = s.mem.retrains)
    (hg : u.dbg = s.dbg) : Quiet u :=
  ⟨by rw [hd, h.flows], by rw [hd, h.graphFlows], by rw [he, h.tables], by rw [hm, h.retrains], by rw [hg, h.redirect]⟩

theorem quiet_chanLost {s : State} (h : Quiet s) (ch : Nat) : Quiet (chanLost ch s) := by
  unfold chanLost
  split
  · exact h
  · exact h.of_same rfl rfl rfl rfl

theorem chanLost_lost (ch : Nat) (s : State) : (chanLost ch s).mem.lost = s.mem.lost := by
  unfold chanLost
  split <;> rfl

theorem quiet_granulesLost {s : State} (h : Quiet s) (n c k : Nat) (p : Session → Bool) : Quiet (granulesLost n c k p s) :=
  h.of_same (State.event_disp ..) (State.event_emb ..) (by rw [granulesLost, State.event_mem]) (State.event_dbg ..)

@[simp] theorem granulesLost_mem (n c k : Nat) (p : Session → Bool) (s : State) : (granulesLost n c k p s).mem = s.mem := State.event_mem ..

@[simp] theorem State.dropSusp_mem (s : State) (h : Nat) : (s.dropSusp h).mem = s.mem := by
  unfold State.dropSusp
  split <;> rfl

@[simp] theorem State.dropSusp_svc (s : State) (h : Nat) : (s.dropSusp h).svc = s.svc := by
  unfold State.dropSusp
  split <;> rfl

@[simp] theorem State.dropSusp_dbg (s : State) (h : Nat) : (s.dropSusp h).dbg = s.dbg := by
  unfold State.dropSusp
  split <;> rfl

@[simp] theorem frameStoresLost_mem (n : Nat) (s : State) : (frameStoresLost n s).mem = s.mem :=
  foldl_keeps (p := State.mem) (fun a h => a.dropSusp_mem h) _ s

@[simp] theorem frameStoresLost_svc (n : Nat) (s : State) : (frameStoresLost n s).svc = s.svc :=
  foldl_keeps (p := State.svc) (fun a h => a.dropSusp_svc h) _ s

@[simp] theorem frameStoresLost_dbg (n : Nat) (s : State) : (frameStoresLost n s).dbg = s.dbg :=
  foldl_keeps (p := State.dbg) (fun a h => a.dropSusp_dbg h) _ s

theorem embUnitLost_quiet (n : Nat) {s : State} (h : Quiet s) : embUnitLost n s = s := by
  simp [embUnitLost, State.closeAll, h.tables, Tbl.keys]

theorem loseTraverse_quiet {s : State} (h : s.dbg.trv.redirect = false) : loseTraverse s = s := by
  simp [loseTraverse, h]

/-- The granules on a controller, over every context, each once. -/
def lostGranules (n : Nat) (s : State) : List Nat := ((s.mem.contexts.map (fun e => (e.1, e.2.onController s.mem n))).flatMap Prod.snd).eraseDups

/-! The loss of a controller in its parts: granules, channels, reports, the note of the controller, and what other units lose. -/

def mcGranules (n : Nat) (s : State) : State :=
  { s with mem := { s.mem with lost := (lostGranules n s).foldl (fun t g => t.put g n) s.mem.lost } }

def mcChannels (n : Nat) (s : State) : State :=
  (List.range 4).foldl (fun a k =>
    let ch := 4 * n + k
    if ((chanLost ch a).mem.retrains.find ch).isSome then ((chanLost ch a).endRetrain ch).failAll (.channel ch) (unavailable (islMc n))
    else chanLost ch a) s

def mcReports (n : Nat) (used : List (Nat × List Nat)) (count : Nat) (s : State) : State :=
  used.foldl (fun a u => if u.2.isEmpty then a else granulesLost n u.1 u.2.length (fun x => x.ctx == u.1 && !x.priv) a)
    (granulesLost n 0xFFFF count (·.priv) s)

def mcNoted (n : Nat) (s : State) : State :=
  { s with svc := { s.svc with
    lostControllers := if s.svc.lostControllers.contains n then s.svc.lostControllers else s.svc.lostControllers ++ [n] } }

def mcOthers (n : Nat) (s : State) : State :=
  let s1 := s.disp.flows.foldl (fun a e => loseOverflow (mkFid e.2.gen e.1) e.2.ready.length a) s
  let s2 := s1.disp.graphFlows.foldl (fun a e => loseOverflow (0x1000_0000 + e.1) e.2.ready.length a) s1
  loseTraverse (frameStoresLost n (embUnitLost n s2))

theorem mcLost_eq (n : Nat) (s : State) : mcLost n s = mcOthers n (mcNoted n (mcReports n
    (s.mem.contexts.map (fun e => (e.1, e.2.onController s.mem n))) (lostGranules n s).length (mcChannels n (mcGranules n s)))) := rfl

/-- What each step of a fold does wherever an invariant holds that it keeps, the fold does. -/
theorem foldl_congr_of_invariant {α γ : Type} {P : α → Prop} {g g' : α → γ → α} (he : ∀ a x, P a → g a x = g' a x) (hk : ∀ a x, P a → P (g' a x))
    (l : List γ) (a : α) (ha : P a) : l.foldl g a = l.foldl g' a := by
  induction l generalizing a with
  | nil => rfl
  | cons x t ih => rw [List.foldl_cons, List.foldl_cons, he a x ha, ih _ (hk a x ha)]

/-- Where no RETRAIN_CHANNEL runs, the channels of the controller are lost and no command ends. -/
theorem mcChannels_quiet (n : Nat) {s : State} (h : Quiet s) : mcChannels n s = (List.range 4).foldl (fun a k => chanLost (4 * n + k) a) s := by
  refine foldl_congr_of_invariant (P := Quiet) (fun a k ha => ?_) (fun _ _ ha => quiet_chanLost ha _) _ s h
  dsimp only
  rw [(quiet_chanLost ha _).retrains]
  rfl

theorem quiet_mcChannels {s : State} (h : Quiet s) (n : Nat) : Quiet (mcChannels n s) := by
  rw [mcChannels_quiet n h]
  exact foldl_invariant (P := Quiet) (fun _ _ ha => quiet_chanLost ha _) _ _ h

theorem quiet_mcReports {s : State} (h : Quiet s) (n : Nat) (used : List (Nat × List Nat)) (count : Nat) : Quiet (mcReports n used count s) := by
  refine foldl_invariant (P := Quiet) (fun a u ha => ?_) used _ (quiet_granulesLost h ..)
  split
  · exact ha
  · exact quiet_granulesLost ha ..

theorem mcReports_mem (n : Nat) (used : List (Nat × List Nat)) (count : Nat) (s : State) : (mcReports n used count s).mem = s.mem := by
  refine (foldl_keeps (p := State.mem) (fun a u => ?_) used _).trans (granulesLost_mem ..)
  split
  · rfl
  · exact granulesLost_mem ..

theorem mcNoted_contains (n : Nat) (s : State) : (mcNoted n s).svc.lostControllers.contains n = true := by
  unfold mcNoted
  dsimp only
  split
  · assumption
  · simp

/-- In a quiet state no other unit's loss touches memory or the service state. -/
theorem mcOthers_quiet (n : Nat) {s : State} (h : Quiet s) : (mcOthers n s).mem = s.mem ∧ (mcOthers n s).svc = s.svc := by
  have hr : mcOthers n s = frameStoresLost n s := by
    simp only [mcOthers, h.flows, h.graphFlows, List.foldl_nil, embUnitLost_quiet n h]
    exact loseTraverse_quiet (by rw [frameStoresLost_dbg, h.redirect])
  rw [hr]
  exact ⟨frameStoresLost_mem n s, frameStoresLost_svc n s⟩

theorem quiet_mcGranules {s : State} (h : Quiet s) (n : Nat) : Quiet (mcGranules n s) := h.of_same rfl rfl rfl rfl

/-- A quiet state is quiet still when the other units come to their losses. -/
theorem quiet_mcNoted {s : State} (h : Quiet s) (n : Nat) (used : List (Nat × List Nat)) (count : Nat) :
    Quiet (mcNoted n (mcReports n used count (mcChannels n (mcGranules n s)))) :=
  (quiet_mcReports (quiet_mcChannels (quiet_mcGranules h n) n) n used count).of_same rfl rfl rfl rfl

/-- In a quiet state the loss of a controller changes memory by its granules and its channels. -/
theorem mcLost_mem (n : Nat) {s : State} (h : Quiet s) : (mcLost n s).mem = (mcChannels n (mcGranules n s)).mem := by
  rw [mcLost_eq, (mcOthers_quiet n (quiet_mcNoted h ..)).1]
  exact mcReports_mem ..

theorem mcLost_noted (n : Nat) {s : State} (h : Quiet s) : (mcLost n s).svc.lostControllers.contains n = true := by
  rw [mcLost_eq, (mcOthers_quiet n (quiet_mcNoted h ..)).2]
  exact mcNoted_contains ..

/-- Each of its four channels is LOST, unless it is ABSENT. -/
theorem mcLost_channel (n : Nat) {s : State} (h : Quiet s) {k : Nat} (hk : k < 4) :
    ((mcLost n s).channel (4 * n + k)).state = (s.channel (4 * n + k)).state.afterLoss := by
  have hc : (mcLost n s).channel (4 * n + k) = (mcChannels n (mcGranules n s)).channel (4 * n + k) := by
    unfold State.channel
    rw [mcLost_mem n h]
  rw [hc, mcChannels_quiet n (quiet_mcGranules h n), foldl_chanLost_state, if_pos ⟨k, List.mem_range.2 hk, rfl⟩]
  rfl

theorem foldl_put_find {α : Type} (l : List Nat) (x : α) (t : Tbl α) {g : Nat} (h : g ∈ l ∨ Tbl.find t g = some x) :
    Tbl.find (l.foldl (fun t g => Tbl.put t g x) t) g = some x := by
  induction l generalizing t with
  | nil => exact h.resolve_left List.not_mem_nil
  | cons a l ih =>
    refine ih _ ?_
    by_cases ha : g = a
    · subst ha
      exact .inr (Tbl.find_put_self ..)
    · rw [Tbl.find_put_ne _ _ ha]
      exact h.imp_left fun hm => (List.mem_cons.1 hm).resolve_left ha

/-- A granule that a context has on the controller is lost with it. -/
theorem mcLost_granule (n : Nat) {s : State} (h : Quiet s) {e : Nat × Ctx} {g : Nat} (he : e ∈ s.mem.contexts)
    (hg : g ∈ e.2.onController s.mem n) : (mcLost n s).mem.lost.find g = some n := by
  have hl : (mcChannels n (mcGranules n s)).mem.lost = (mcGranules n s).mem.lost := by
    rw [mcChannels_quiet n (quiet_mcGranules h n)]
    exact foldl_keeps (p := fun a : State => a.mem.lost) (fun a _ => chanLost_lost _ a) _ _
  rw [mcLost_mem n h, hl]
  refine foldl_put_find _ _ _ (.inl (List.mem_eraseDups.2 (List.mem_flatMap.2 ⟨_, List.mem_map.2 ⟨e, he, rfl⟩, hg⟩)))

end Sys2Proof.Machine

namespace Sys2Proof.Machine
open Sys2Proof

/-! The RESET command (R553). -/

/-- A handler that answers OK and goes on after its completion. -/
theorem rcpAction_okThen {op off act : Nat} {f : Frame} {s : State} {x : Session} {hd : Handler} {p : List Byte} {v : State} {after : State → State}
    (h : acceptedAs op off act f s x = true) (hh : hd f f.sessionId.toNat (heard s x) (seen f s) = .okThen p v after) :
    rcpAction op off act hd f s = after (doneOk op f p v) := by
  rw [rcpAction_accepted hd h]
  unfold rcpExecute
  unfold heard at hh
  rw [hh]
  rfl

theorem acceptedAs_action {op off act : Nat} {f : Frame} {s : State} {x : Session} (h : acceptedAs op off act f s x = true) :
    fld f.payload off 1 = act := by
  unfold acceptedAs at h
  rw [Bool.and_eq_true, decide_eq_true_eq] at h
  exact h.2

/-- An accepted RESET completes, and then its drive of RESET_N is due. -/
theorem resetCmd_accepted {f : Frame} {s : State} {x : Session} {act : Nat} (hp : passes (resetCmdFails f) = true)
    (h : acceptedAs 0x0A00 0 act f s x = true) : rcpAction 0x0A00 0 act resetCmd f s =
      let w := doneOk 0x0A00 f [] (seen f s)
      { w with ctl := { w.ctl with driveLevel := some (if act = 0 then .core else .system), driveAt := s.ctl.now } } := by
  have hh : resetCmd f f.sessionId.toNat (heard s x) (seen f s) = .okThen [] (seen f s) (fun s => { s with ctl := { s.ctl with
      driveLevel := some (if fld f.payload 0 1 = 0 then .core else .system), driveAt := s.ctl.now } }) := Reply.check_of_passes _ _ hp
  have hnow : (doneOk 0x0A00 f [] (seen f s)).ctl = s.ctl := (State.complete_ctl ..).trans (seen_ctl f s)
  rw [rcpAction_okThen h hh, acceptedAs_action h]
  dsimp only
  rw [hnow]

theorem driveEnd_acts {s : State} {l k : Level} (hl : s.ctl.driveLevel = some l) (hk : s.ctl.pinLevel = some k) (hr : s.ctl.refclk = true)
    (hd : s.ctl.driving = true) (hle : l.rank ≤ k.rank) (hn : s.ctl.driveAt + driveTicks l ≤ s.ctl.now) :
    driveEnd s = { s with ctl := { s.ctl with driving := false, driveLevel := none } } := by
  unfold driveEnd
  rw [hl, hk]
  exact if_pos (by simp [hr, hd, hle, hn])

theorem driveEnd_idle {s : State} (h : s.ctl.driveLevel = none ∨ s.ctl.pinLevel = none ∨ s.ctl.driving = false ∨ s.ctl.refclk = false ∨
    (∃ l, s.ctl.driveLevel = some l ∧ (s.ctl.now < s.ctl.driveAt + driveTicks l ∨ ∃ k, s.ctl.pinLevel = some k ∧ k.rank < l.rank))) :
    driveEnd s = s := by
  unfold driveEnd
  split
  · rename_i l k hl hk
    refine if_neg ?_
    rcases h with h | h | h | h | ⟨l', hl', h | ⟨k', hk', h⟩⟩
    · rw [hl] at h; cases h
    · rw [hk] at h; cases h
    · simp [h]
    · simp [h]
    · cases hl.symm.trans hl'
      simp [h]
    · cases hl.symm.trans hl'
      cases hk.symm.trans hk'
      simp [h]
  · rfl

/-! REFCLK that returns (R551). -/

theorem refclkReturn_good {s : State} (hr : s.ctl.refclk = false) (h : s.ctl.railGood.all id = true ∨ s.ctl.held = some .power) :
    refclkReturn s = { s with ctl := { s.ctl with refclk := true, lockStatus := s.ctl.lockStatus ||| s.ctl.unrecorded, unrecorded := 0 } } := by
  unfold refclkReturn
  rw [if_neg (by simp [hr])]
  exact if_pos (by rcases h with h | h <;> simp [h])

theorem refclkReturn_asserts {s : State} (hr : s.ctl.refclk = false) (hg : s.ctl.railGood.all id = false) (hp : s.ctl.held ≠ some .power) :
    refclkReturn s = assertReset .power
      { s with ctl := { s.ctl with refclk := true, lockStatus := s.ctl.lockStatus ||| s.ctl.unrecorded, unrecorded := 0 } } := by
  unfold refclkReturn
  rw [if_neg (by simp [hr])]
  exact if_neg (by rw [hg]; simpa using hp)

/-! Islands that lose lock and islands that are released (R557, R559). -/

/-- An island that is not up loses its lock and nothing else. -/
theorem islandLost_held {i : Nat} (rec inj : Bool) {s : State} (h : s.ctl.islandUp.getLsbD i = false) : islandLost i rec inj s =
    { s with ctl := { s.ctl with pllLock := putBit s.ctl.pllLock i false, islandUp := putBit s.ctl.islandUp i false } } := by
  unfold islandLost
  simp only [h, Bool.false_and, if_neg Bool.false_ne_true]

/-- The state that an island's loss leaves before its effect: it is down, the loss is noted, and its detector fires. -/
def islandDown (i : Nat) (rec inj : Bool) (s : State) : State :=
  let s1 := { s with ctl := { s.ctl with
    pllLock := putBit s.ctl.pllLock i false
    islandUp := putBit s.ctl.islandUp i false
    lockStatus := if rec then putBit s.ctl.lockStatus i true else s.ctl.lockStatus
    unrecorded := if rec then s.ctl.unrecorded else putBit s.ctl.unrecorded i true } }
  if inj then s1.fireInjected 3 i 0 else s1.fire 3 i 0 false

theorem islandLost_up {i : Nat} (rec inj : Bool) {s : State} (h : s.ctl.islandUp.getLsbD i = true) :
    islandLost i rec inj s = islandEffect i (islandDown i rec inj s) := by
  unfold islandLost islandDown
  cases rec <;> simp only [h, Bool.true_and, Bool.not_true, Bool.not_false, Bool.false_eq_true, if_true, if_false]

theorem islandDown_detector (i : Nat) (rec inj : Bool) (s : State) : ((islandDown i rec inj s).detector (detId 3 i)).fired = true ∧
    ((islandDown i rec inj s).detector (detId 3 i)).fromInject = inj := by
  unfold islandDown
  cases inj
  · exact State.fire_self ..
  · exact State.fireInjected_self ..

theorem islandDown_ctl (i : Nat) (rec inj : Bool) (s : State) : (islandDown i rec inj s).ctl = { s.ctl with
    pllLock := putBit s.ctl.pllLock i false
    islandUp := putBit s.ctl.islandUp i false
    lockStatus := if rec then putBit s.ctl.lockStatus i true else s.ctl.lockStatus
    unrecorded := if rec then s.ctl.unrecorded else putBit s.ctl.unrecorded i true } := by
  unfold islandDown
  cases inj
  · exact State.fire_ctl ..
  · exact State.fireInjected_ctl ..

theorem islandDown_mem (i : Nat) (rec inj : Bool) (s : State) : (islandDown i rec inj s).mem = s.mem := by
  unfold islandDown
  cases inj
  · exact State.fire_mem ..
  · exact State.fireInjected_mem ..

theorem islandDown_link (i : Nat) (rec inj : Bool) (s : State) : (islandDown i rec inj s).host.link = s.host.link := by
  unfold islandDown
  cases inj
  · exact State.fire_link ..
  · exact State.fire_link ..

/-- When an island may leave reset (R559). -/
theorem mayRelease_iff (i : Nat) (s : State) : mayRelease i s = true ↔ s.ctl.refclk = true ∧ s.ctl.pllStarted = true ∧
    (s.clkMode = 3 ∨ (s.ctl.pllLock.getLsbD i = true ∧ s.ctl.lockAt.at 0 i + 6400 ≤ s.ctl.now)) ∧ s.ctl.islandUp.getLsbD i = false ∧
    (s.ctl.held = none ∨ (s.ctl.held = some .core ∧ i ≠ islSurveyor)) ∧ (i = islSurveyor → s.ctl.fabricOn = true) := by
  unfold mayRelease State.lockHeld State.up
  cases s.ctl.held with
  | none =>
    simp only [Bool.and_eq_true, Bool.or_eq_true, beq_iff_eq, bne_iff_ne, decide_eq_true_eq, Bool.not_eq_true', true_or, true_and]
    tauto
  | some l =>
    cases l with
    | core =>
      simp only [Bool.and_eq_true, Bool.or_eq_true, beq_iff_eq, bne_iff_ne, decide_eq_true_eq, Bool.not_eq_true', reduceCtorEq, false_or, true_and]
      tauto
    | system => simp
    | power => simp

theorem retrainLost_ctl (s : State) : (retrainLost s).ctl = s.ctl := by
  refine foldl_keeps (p := State.ctl) (fun a ch => ?_) _ s
  split <;> rfl

theorem islandRelease_acts {i : Nat} {s : State} (h : mayRelease i s = true) :
    islandRelease i s = islandStart i { s with ctl := { s.ctl with islandUp := putBit s.ctl.islandUp i true } } := if_pos h

/-- What an island's release starts leaves the reset controller as it is, but for the Surveyor complex. -/
theorem islandStart_ctl {i : Nat} (s : State) (h : i ≠ islSurveyor) : (islandStart i s).ctl = s.ctl := by
  unfold islandStart
  split_ifs
  · rfl
  · rfl
  · rfl
  · exact retrainLost_ctl s
  · rfl
  · rfl

theorem islandStart_surveyor (s : State) :
    islandStart islSurveyor s = { s with ctl := { s.ctl with surveyor := .atRom, stage := 0, surveyorTime := 0 } } := rfl

theorem islandStart_islandUp (i : Nat) (s : State) : (islandStart i s).ctl.islandUp = s.ctl.islandUp := by
  by_cases h : i = islSurveyor
  · rw [h, islandStart_surveyor]
  · rw [islandStart_ctl s h]

/-- The Host Port's link trains once its island is released, but not with CLKMODE 0b11. -/
theorem islandStart_host {s : State} (h : s.clkMode ≠ 3) : islandStart islHost s = { s with host := { s.host with link := .training } } := if_neg h

/-- The release of a Fabric Port's island starts nothing there (log entry 18). -/
theorem islandStart_fabric {p : Nat} (s : State) (h : p < 12) : islandStart (islFabric p) s = s := by
  unfold islandStart islFabric
  rw [if_neg (by unfold islHost; omega), if_pos (by omega)]

theorem islandEffect_fabric {p : Nat} (s : State) (h : p < 12) : islandEffect (islFabric p) s = s.failPort p := by
  unfold islandEffect islFabric
  rw [if_neg (by unfold islHost; omega), if_pos (by omega), Nat.add_sub_cancel_left]

theorem islandEffect_mc {n : Nat} (s : State) (h : n < 32) : islandEffect (islMc n) s = mcLost n s := by
  unfold islandEffect islMc
  rw [if_neg (by unfold islHost; omega), if_neg (by omega), if_pos (by omega), Nat.add_sub_cancel_left]

/-- Settles O47: the RESET command by its table, the pin's drive and REFCLK by their conditions, an island by its loss, its effect and its release.
That an ABSENT channel stays ABSENT at a loss of lock is log entry 17, that a release leaves the Fabric Ports as they are entry 18. -/
theorem resetCommandClockAndIslands : Obligations.ResetCommandClockAndIslands := by
  refine ⟨fun f s x => ?_, fun s => ⟨fun h => ?_, fun hr hl hd hn => ?_, fun l k hl hk hr hd hle hn => ?_, fun h => ?_, fun h => ?_, fun h => ?_,
    fun h => ?_, fun h => ⟨_, rfl, ?_⟩⟩, fun i s => ⟨fun rec inj h => ⟨_, rfl, ?_⟩, fun rec inj h => ⟨islandDown i rec inj s, islandLost_up rec inj h, ?_⟩,
      rfl, fun hr hp hl => ?_, fun h => ?_, mayRelease_iff i s, fun h => ?_, fun h => ⟨_, rfl, ?_⟩⟩, fun s => ⟨rfl, rfl, rfl, fun p hp => ?_, rfl, rfl, ?_⟩⟩
  · intro w hp
    exact ⟨fun h => congrArg Host.Outcome.next (resetCmd_accepted hp h), fun h => congrArg Host.Outcome.next (resetCmd_accepted hp h)⟩
  · exact congrArg Host.Outcome.next (if_neg (by rcases h with h | h | h | h <;> simp [h]))
  · exact congrArg Host.Outcome.next (if_pos (by simp [hr, hd, hn, Option.isSome_iff_ne_none, hl]))
  · exact congrArg Host.Outcome.next (driveEnd_acts hl hk hr hd hle hn)
  · exact congrArg Host.Outcome.next (driveEnd_idle h)
  · exact congrArg Host.Outcome.next (if_neg (by simp [h]))
  · exact congrArg Host.Outcome.next (if_pos h)
  · exact congrArg Host.Outcome.next (if_pos h)
  · by_cases hg : s.ctl.railGood.all id = true ∨ s.ctl.held = some .power
    · rw [refclkReturn_good h hg]
      exact ⟨rfl, rfl, fun _ => ⟨rfl, rfl⟩, fun h1 h2 => absurd hg (by simp [h1, h2])⟩
    · obtain ⟨h1, h2⟩ := not_or.1 hg
      rw [refclkReturn_asserts h (Bool.eq_false_iff.2 h1) h2]
      exact ⟨rfl, rfl, fun h3 => absurd h3 hg, fun _ _ => ⟨held_assertReset_power _, rfl⟩⟩
  · rw [islandLost_held rec inj h]
    exact ⟨(getLsbD_putBit _ _ _ i.isLt).trans (if_pos rfl), rfl, rfl, rfl, rfl, rfl, rfl, rfl⟩
  · obtain ⟨hf, hi⟩ := islandDown_detector i rec inj s
    rw [islandDown_ctl]
    exact ⟨(getLsbD_putBit _ _ _ i.isLt).trans (if_pos rfl), (getLsbD_putBit _ _ _ i.isLt).trans (if_pos rfl),
      fun k hk => (getLsbD_putBit _ _ _ i.isLt).trans (if_neg hk), rfl, rfl, hf, hi, islandDown_mem .., islandDown_link ..⟩
  · exact congrArg Host.Outcome.next (if_pos (by rw [hr, hp, hl]; rfl))
  · exact congrArg Host.Outcome.next (if_neg (by rcases h with h | h | h <;> simp [h]))
  · exact congrArg Host.Outcome.next (if_neg (by simp [h]))
  · rw [islandRelease_acts h]
    refine ⟨islandStart_islandUp .., fun hi hc => ?_, fun p hp hi => ?_, fun hi => ?_, fun hi => ?_⟩
    · rw [hi, islandStart_host (by exact hc)]
    · rw [hi, islandStart_fabric _ hp]
      rfl
    · rw [hi, islandStart_surveyor]
      exact ⟨rfl, rfl⟩
    · rw [islandStart_ctl _ hi]
  · rw [islandEffect_fabric s hp]
    exact s.portFailed_failPort p
  · intro n hn hflows hgraphs htables _ hretrains hredirect
    have hq : Quiet s := ⟨hflows, hgraphs, htables, hretrains, hredirect⟩
    rw [islandEffect_mc s hn]
    exact ⟨fun k hk => mcLost_channel n hq hk, mcLost_noted n hq, fun e g he hg => mcLost_granule n hq he hg⟩

end Sys2Proof.Machine

namespace Sys2Proof.Machine
open Sys2Proof

/-! The row of an opcode, and of an ACTION, is what the dispatch runs (R64, R88). -/

theorem embSwapCmd_eq_nth (f : Frame) (sid : Nat) (x : Session) (s : State) : embSwapCmd f sid x s =
    nth [embPrepare, embCommit, embCancel, embDestroy, embQuery] embSwapCmd (fld f.payload 8 1) f sid x s := by
  rcases h : fld f.payload 8 1 with _ | _ | _ | _ | _ | n
  iterate 5 · simp [nth, embSwapCmd, h]
  · rfl

theorem frameSession_eq_nth (f : Frame) (sid : Nat) (x : Session) (s : State) : frameSession f sid x s =
    nth [frameOpen, frameClose] frameSession (fld f.payload 0 1) f sid x s := by
  rcases h : fld f.payload 0 1 with _ | _ | n
  iterate 2 · simp [nth, frameSession, h]
  · rfl

theorem fwUpdate_eq_nth (f : Frame) (sid : Nat) (x : Session) (s : State) : fwUpdate f sid x s =
    nth [fwWrite, fwActivate, fwCommit, fwAbort, fwConfig] fwUpdate (fld f.payload 0 1) f sid x s := by
  rcases h : fld f.payload 0 1 with _ | _ | _ | _ | _ | n
  iterate 5 · simp [nth, fwUpdate, h]
  · rfl

/-- The handler of the row that an opcode's ACTION has. -/
def rowHandler (op act : Nat) : Handler :=
  if op = 0x0511 then nth [embPrepare, embCommit, embCancel, embDestroy, embQuery] embSwapCmd act
  else if op = 0x0530 then nth [frameOpen, frameClose] frameSession act
  else if op = 0x0702 then nth [fwWrite, fwActivate, fwCommit, fwAbort, fwConfig] fwUpdate act
  else rcpHandler op

/-- Whether ACTION stands at a payload offset, for the commands whose handler reads it, and the opcode is that of a session's command. -/
def actionAt (op off : Nat) : Bool := decide (2 < op) && (if op = 0x0511 then off == 8 else if op = 0x0530 ∨ op = 0x0702 then off == 0 else true)

/-- A command's handler does what the row of its ACTION does. -/
theorem rowHandler_eq {op off act : Nat} {f : Frame} (ho : actionAt op off = true) (ha : fld f.payload off 1 = act) (sid : Nat) (x : Session)
    (s : State) : rowHandler op act f sid x s = rcpHandler op f sid x s := by
  subst ha
  unfold rowHandler
  unfold actionAt at ho
  rw [Bool.and_eq_true] at ho
  replace ho := ho.2
  by_cases h1 : op = 0x0511
  · subst h1
    rw [beq_iff_eq.1 ho]
    exact (embSwapCmd_eq_nth f sid x s).symm
  by_cases h2 : op = 0x0530
  · subst h2
    rw [beq_iff_eq.1 ho]
    exact (frameSession_eq_nth f sid x s).symm
  by_cases h3 : op = 0x0702
  · subst h3
    rw [beq_iff_eq.1 ho]
    exact (fwUpdate_eq_nth f sid x s).symm
  · rw [if_neg h1, if_neg h2, if_neg h3]

/-- Handlers that do the same on a frame run its command alike. -/
theorem rcpSession_congr {op : Nat} {g h : Handler} {f : Frame} (hh : ∀ sid x s, g f sid x s = h f sid x s) (s : State) :
    rcpSession op g f s = rcpSession op h f s := by
  have he : ∀ x s, rcpExecute op g f x s = rcpExecute op h f x s := fun x s => by unfold rcpExecute; rw [hh]
  have hr : ∀ x s, rcpReplay op g f x s = rcpReplay op h f x s := fun x s => by unfold rcpReplay; rw [he]
  unfold rcpSession
  simp only [hr]

theorem rcpDispatch_session {op : Nat} (h : 2 < op) (f : Frame) (s : State) : rcpDispatch op f s = rcpSession op (rcpHandler op) f s := by
  unfold rcpDispatch
  rw [if_neg (by omega), if_neg (by omega)]

/-- Rows that each run their opcode's handler, one for an opcode. -/
theorem exec_rows {l : List (Nat × Instr)} {f : Frame} {s : State}
    (h : l.map (fun e => exec e.2 s) = l.map (fun e => .next (rcpGate e.1 f s (rcpDispatch e.1 f)))) :
    ∀ e ∈ l, exec e.2 s = .next (rcpGate e.1 f s (rcpDispatch e.1 f)) := List.map_inj_left.1 h

/-- Rows that each run the handler of one ACTION. -/
theorem exec_actionRows {l : List (Nat × Nat × Nat × Instr)} {f : Frame} {s : State} (hl : l.all (fun e => actionAt e.1 e.2.1) = true)
    (h : l.map (fun e => exec e.2.2.2 s) = l.map (fun e => .next (rcpAction e.1 e.2.1 e.2.2.1 (rowHandler e.1 e.2.2.1) f s))) :
    ∀ e ∈ l, e.2.1 < f.payload.length → fld f.payload e.2.1 1 = e.2.2.1 → exec e.2.2.2 s = .next (rcpGate e.1 f s (rcpDispatch e.1 f)) := by
  intro e he hlen hact
  have ha := List.all_eq_true.1 hl e he
  have hop : 2 < e.1 := of_decide_eq_true (Bool.and_eq_true_iff.1 ha).1
  have hd : rcpDispatch e.1 f = rcpSession e.1 (rowHandler e.1 e.2.2.1) f :=
    funext fun u => (rcpDispatch_session hop f u).trans (rcpSession_congr (rowHandler_eq ha hact) u).symm
  rw [List.map_inj_left.1 h e he, hd]
  unfold rcpAction rcpRun
  rw [if_pos ⟨hlen, hact⟩]

/-! Reception (R60 to R64, R73). -/

/-- The state once a datagram that came over the Host Port has left the receive buffer. -/
def unbuffered (p : Path) (s : State) : State := if p = .host then s.unbuffer .rcp else s

theorem frameReceive_paused {d : Datagram} {s : State} (hc : s.canReceive d.path = true) (hp : s.ctl.surveyor = .paused) :
    frameReceive d s = { s with rcp := { s.rcp with heldFrames := s.rcp.heldFrames ++ [.datagram d] } } := if_pos ⟨hp, hc⟩

/-- A datagram that is not held in a pause leaves the buffer, and is checked where firmware or the boot ROM takes it. -/
theorem frameReceive_not_held {d : Datagram} {s : State} (h : ¬(s.ctl.surveyor = .paused ∧ s.canReceive d.path = true)) :
    frameReceive d s = if s.canReceive d.path && s.takesFrames then datagram d (unbuffered d.path s) else unbuffered d.path s := by
  unfold frameReceive unbuffered
  rw [if_neg h]
  cases d.path <;> rfl

theorem frameReceive_lost {d : Datagram} {s : State} (h : s.canReceive d.path = false ∨ s.canFinish = false) :
    frameReceive d s = unbuffered d.path s := by
  have hp : s.ctl.surveyor = .paused → s.canFinish = true := fun hp => by simp [State.canFinish, hp]
  rw [frameReceive_not_held (fun hh => by rcases h with h | h <;> simp_all), if_neg]
  unfold State.takesFrames
  rcases h with h | h <;> simp [h]

theorem frameReceive_taken {d : Datagram} {s : State} (hc : s.canReceive d.path = true) (h : s.ctl.surveyor = .ready ∨ s.ctl.surveyor = .netboot) :
    frameReceive d s = datagram d (unbuffered d.path s) := by
  rw [frameReceive_not_held (fun hh => by rcases h with h | h <;> simp [h] at hh), if_pos]
  unfold State.takesFrames State.canFinish
  rcases h with h | h <;> simp [hc, h]

/-- Whether a datagram has the length and the MAGIC of R60 and R61. -/
def wellFormed (b : List Byte) : Prop := 36 ≤ b.length ∧ b.length = frameLen b ∧ fld b 0 2 = 0x5259

theorem datagram_malformed {d : Datagram} (s : State) (h : ¬ wellFormed d.bytes) :
    datagram d s = s.modHp (fun c => { c with dropMalformed := sat32 c.dropMalformed 1 }) := by
  unfold datagram
  dsimp only
  by_cases h1 : d.bytes.length < 36 ∨ d.bytes.length ≠ frameLen d.bytes
  · exact if_pos h1
  · rw [if_neg h1, if_pos]
    intro hm
    exact h ⟨by omega, by omega, hm⟩

theorem datagram_wellFormed {d : Datagram} (s : State) (h : wellFormed d.bytes) : datagram d s =
    if fld d.bytes (d.bytes.length - 4) 4 ≠ crc32c (d.bytes.take (d.bytes.length - 4)) then
      s.modHp (fun c => { c with dropCrc := sat32 c.dropCrc 1 })
    else if bit (fld d.bytes 0x12 2) 0 ∨ bit (fld d.bytes 0x12 2) 3 then s.modHp (fun c => { c with dropMalformed := sat32 c.dropMalformed 1 })
    else rcpGate (fld d.bytes 0x10 2) (frameOf d) s (rcpDispatch (fld d.bytes 0x10 2) (frameOf d)) := by
  obtain ⟨h1, h2, h3⟩ := h
  unfold datagram
  dsimp only
  rw [if_neg (by omega), if_neg (not_not.2 h3)]

/-- A request whose CRC is good is run as its opcode. -/
theorem datagram_runs {d : Datagram} (s : State) (h : wellFormed d.bytes)
    (hc : fld d.bytes (d.bytes.length - 4) 4 = crc32c (d.bytes.take (d.bytes.length - 4))) (h0 : bit (fld d.bytes 0x12 2) 0 = false)
    (h3 : bit (fld d.bytes 0x12 2) 3 = false) :
    datagram d s = rcpGate (fld d.bytes 0x10 2) (frameOf d) s (rcpDispatch (fld d.bytes 0x10 2) (frameOf d)) := by
  rw [datagram_wellFormed s h, if_neg (not_not.2 hc), if_neg (by simp [h0, h3])]

/-! A frame's bytes and the fields read back from them (R60, R61). -/

/-- A request's bytes before its CRC, in the layout of R60. -/
def frameBody (op : Nat) (f : Frame) : List Byte :=
  leb 2 0x5259 ++ leb 1 f.verMajor.toNat ++ leb 1 f.verMinor.toNat ++ leb 4 f.sessionId.toNat ++ leb 8 f.requestId.toNat ++ leb 2 op ++
    leb 2 f.flags.toNat ++ leb 4 f.payload.length ++ leb 2 f.status.toNat ++ leb 6 f.reserved.toNat ++ f.payload ++ f.mac

/-- The bytes of a request on the wire. -/
def frameWire (op : Nat) (f : Frame) : List Byte := frameBody op f ++ leb 4 (crc32c (frameBody op f))

theorem frameBody_length (op : Nat) (f : Frame) : (frameBody op f).length = 32 + f.payload.length + f.mac.length := by
  simp only [frameBody, List.length_append, leb_length]

theorem frameWire_length (op : Nat) (f : Frame) : (frameWire op f).length = 36 + f.payload.length + f.mac.length := by
  simp only [frameWire, List.length_append, frameBody_length, leb_length]
  omega

/-- The bytes on the wire, as header, payload, MAC and CRC. -/
theorem frameWire_eq (op : Nat) (f : Frame) : frameWire op f = frameHeader f op ++ (f.payload ++ (f.mac ++ leb 4 (crc32c (frameBody op f)))) := by
  simp [frameWire, frameBody, frameHeader, headerBytes]

theorem frameHeader_length (op : Nat) (f : Frame) : (frameHeader f op).length = 32 := by
  simp [frameHeader, headerBytes]

/-- The header fields of a frame as they stand in its bytes. -/
theorem fld_frameWire (op : Nat) (f : Frame) : fld (frameWire op f) 0 2 = 0x5259 ∧ fld (frameWire op f) 2 1 = f.verMajor.toNat ∧
    fld (frameWire op f) 3 1 = f.verMinor.toNat ∧ fld (frameWire op f) 4 4 = f.sessionId.toNat ∧ fld (frameWire op f) 8 8 = f.requestId.toNat ∧
    fld (frameWire op f) 0x10 2 = op % 2 ^ 16 ∧ fld (frameWire op f) 0x12 2 = f.flags.toNat ∧
    fld (frameWire op f) 0x14 4 = f.payload.length % 2 ^ 32 ∧ fld (frameWire op f) 0x18 2 = f.status.toNat ∧
    fld (frameWire op f) 0x1A 6 = f.reserved.toNat := by
  unfold frameWire frameBody
  simp only [List.append_assoc]
  refine ⟨?_, ?_, ?_, ?_, ?_, ?_, ?_, ?_, ?_, ?_⟩ <;> simp [fld_append, fld_leb_append]
  exacts [f.verMajor.isLt, f.verMinor.isLt, f.sessionId.isLt, f.requestId.isLt, f.flags.isLt, f.status.isLt, f.reserved.isLt]

/-- A part of a byte string that stands after n bytes. -/
theorem sub_append {a : List Byte} {n : Nat} (b c : List Byte) (h : a.length = n) : sub (a ++ (b ++ c)) n b.length = b := by
  unfold sub
  rw [List.drop_append_of_le_length (by omega), ← h, List.drop_length, List.nil_append, List.take_left' rfl]

/-- The length that R60 gives a frame is the length of its bytes. -/
theorem frameLen_frameWire {op : Nat} {f : Frame} (hp : f.payload.length < 2 ^ 32)
    (hm : f.mac.length = if bit f.flags.toNat 1 then 16 else 0) : frameLen (frameWire op f) = (frameWire op f).length := by
  obtain ⟨-, -, -, -, -, -, hflags, hlen, -, -⟩ := fld_frameWire op f
  unfold frameLen
  rw [hflags, hlen, Nat.mod_eq_of_lt hp, frameWire_length, ← hm]
  omega

/-- The frame that is read from its bytes is the frame (R60, R61). -/
theorem frameOf_frameWire {op : Nat} {f : Frame} (hp : f.payload.length < 2 ^ 32) (hm : f.mac.length = if bit f.flags.toNat 1 then 16 else 0) :
    frameOf ⟨frameWire op f, f.path, f.srcIp, f.srcPort⟩ = f := by
  obtain ⟨-, hmaj, hmin, hsid, hrid, -, hflags, hlen, hst, hres⟩ := fld_frameWire op f
  have hpay : sub (frameWire op f) 32 f.payload.length = f.payload := by
    rw [frameWire_eq, sub_append _ _ (frameHeader_length op f)]
  have hmac : (if bit f.flags.toNat 1 = true then sub (frameWire op f) (32 + f.payload.length) 16 else []) = f.mac := by
    split_ifs at hm ⊢ with h
    · rw [frameWire_eq, ← List.append_assoc, ← hm, sub_append _ _ (by rw [List.length_append, frameHeader_length])]
    · exact (List.eq_nil_of_length_eq_zero hm).symm
  unfold frameOf
  dsimp only
  rw [hmaj, hmin, hsid, hrid, hflags, hlen, hst, hres, Nat.mod_eq_of_lt hp, hpay, hmac]
  simp only [BitVec.ofNat_toNat, BitVec.setWidth_eq]

/-- The CRC-32C of a frame's bytes is read back from their end. -/
theorem frameWire_crc (op : Nat) (f : Frame) : fld (frameWire op f) ((frameWire op f).length - 4) 4 =
    crc32c ((frameWire op f).take ((frameWire op f).length - 4)) := by
  have hl : (frameWire op f).length - 4 = (frameBody op f).length := by simp [frameWire]
  rw [hl, frameWire, List.take_left' rfl, fld_append _ le_rfl, Nat.sub_self, ← List.append_nil (leb 4 _), fld_leb_append]
  exact Nat.mod_eq_of_lt (BitVec.isLt _)

theorem wellFormed_frameWire {op : Nat} {f : Frame} (hp : f.payload.length < 2 ^ 32)
    (hm : f.mac.length = if bit f.flags.toNat 1 then 16 else 0) : wellFormed (frameWire op f) :=
  ⟨by rw [frameWire_length]; omega, (frameLen_frameWire hp hm).symm, (fld_frameWire op f).1⟩

/-- A request's bytes run the command of its opcode on that frame. -/
theorem frameReceive_frameWire {op : Nat} {f : Frame} {d : Datagram} (hb : d.bytes = frameWire op f) (hd : frameOf d = f) (hpath : d.path = f.path)
    (ho : op < 2 ^ 16) (hp : f.payload.length < 2 ^ 32) (hm : f.mac.length = if bit f.flags.toNat 1 then 16 else 0)
    (h0 : bit f.flags.toNat 0 = false) (h3 : bit f.flags.toNat 3 = false) {s : State} (hc : s.canReceive f.path = true)
    (hs : s.ctl.surveyor = .ready ∨ s.ctl.surveyor = .netboot) :
    frameReceive d s = rcpGate op f (unbuffered f.path s) (rcpDispatch op f) := by
  obtain ⟨-, -, -, -, -, hop, hflags, -⟩ := fld_frameWire op f
  rw [Nat.mod_eq_of_lt ho, ← hb] at hop
  rw [← hb] at hflags
  have hw : wellFormed d.bytes := hb ▸ wellFormed_frameWire hp hm
  have hcrc := frameWire_crc op f
  rw [← hb] at hcrc
  rw [frameReceive_taken (hpath ▸ hc) hs, datagram_runs _ hw hcrc (by rw [hflags, h0]) (by rw [hflags, h3]), hd, hop, hpath]

/-- Settles O52: a request's fields are read back from its bytes, and each row does what the dispatch runs for its opcode and ACTION. -/
theorem framesDecodeAsEncoded : Obligations.FramesDecodeAsEncoded := by
  intro op f ho hp hm d
  have hb : d.bytes = frameWire op f := rfl
  have hd : frameOf d = f := frameOf_frameWire hp hm
  have hop : fld (frameWire op f) 0x10 2 = op := by
    obtain ⟨-, -, -, -, -, hop, -⟩ := fld_frameWire op f
    rw [hop, Nat.mod_eq_of_lt ho]
  refine ⟨hd, hop, frameLen_frameWire hp hm, fun h0 h3 s hc => ⟨fun hs => congrArg Host.Outcome.next (frameReceive_paused (d := d) hc hs),
    fun hs => ?_⟩⟩
  have hrun : exec (.rcpFrameReceive d) s = .next (rcpGate op f (unbuffered f.path s) (rcpDispatch op f)) :=
    congrArg Host.Outcome.next (frameReceive_frameWire hb hd rfl ho hp hm h0 h3 hc hs)
  refine ⟨hrun, fun p hmem hpo => ?_, fun p hmem hpo hl ha => ?_⟩
  · rw [hrun, hpo]
    exact (exec_rows rfl p hmem).symm
  · rw [hrun, hpo]
    exact (exec_actionRows rfl rfl p hmem hl ha).symm

/-- A row that runs its command's handler is what the dispatch runs for its opcode. -/
theorem rcpRun_dispatch {op : Nat} (h : 2 < op) (f : Frame) (s : State) : rcpRun op (rcpHandler op) f s = rcpGate op f s (rcpDispatch op f) := by
  rw [rcpRun, funext (rcpDispatch_session h f)]

/-- A frame well sent comes to the check of its request ID, in a state in which its session has been heard from (steps 6 to 9 of R64). -/
theorem rcpRun_wellSent {op : Nat} {f : Frame} {s : State} {x : Session} (hd : Handler) (ht : taken f s = true) (hw : wellSent op f s x = true) :
    rcpRun op hd f s = rcpReplay op hd f (heard s x) (seen f s) := by
  unfold wellSent at hw
  simp only [Bool.and_eq_true, decide_eq_true_eq, Bool.not_eq_true'] at hw
  obtain ⟨⟨⟨⟨hso, hk⟩, hmaj⟩, hmin⟩, hb⟩ := hw
  unfold rcpRun
  rw [rcpGate_taken _ ht]
  unfold rcpSession
  rw [hso]
  dsimp only
  rw [if_neg (by cases hx : x.key <;> simp_all), if_neg (by simp [hmaj, hmin]), if_neg (by simp [hb])]
  rfl

/-- A request that its session has answered is answered again with REPLAYED set (R77). -/
theorem rcpReplay_answered {op : Nat} {hd : Handler} {f : Frame} {x : Session} {o : RcpOut} (s : State)
    (h : x.cache.find? (fun o => o.requestId == f.requestId.toNat) = some o) :
    rcpReplay op hd f x s = s.sendRcp f.path f.srcIp f.srcPort (RcpOut.seal { o with flags := 5, mac := [] } x.key) := by
  unfold rcpReplay
  rw [h]

/-- A request in flight is only counted (R77). -/
theorem rcpReplay_inFlight {op : Nat} {hd : Handler} {f : Frame} {x : Session} (s : State)
    (hc : x.cache.any (fun o => o.requestId == f.requestId.toNat) = false) (hi : x.inFlight.any (fun c => c.rid == f.requestId.toNat) = true) :
    rcpReplay op hd f x s = { s with host := { s.host with ctr := { s.host.ctr with dupInflight := sat32 s.host.ctr.dupInflight 1 } } } := by
  have hn : x.cache.find? (fun o => o.requestId == f.requestId.toNat) = none := List.find?_eq_none.2 (List.any_eq_false.1 hc)
  unfold rcpReplay
  rw [hn]
  exact if_pos hi

@[simp] theorem seen_host (f : Frame) (s : State) : (seen f s).host = s.host := State.modSession_host ..

/-- A row of WRITE_REG runs where the payload names its register. -/
theorem regRow_dispatch {mine : Nat → Bool} {f : Frame} (s : State) (h : mine (fld f.payload 0 4) = true) :
    regRow mine f s = rcpGate 0x0102 f s (rcpDispatch 0x0102 f) := (if_pos h).trans (rcpRun_dispatch (op := 0x0102) (by decide) f s)

/-- A row of GRAPH_SUBMIT runs where CANCEL is as it has it. -/
theorem graphRow_dispatch {cancel : Bool} {f : Frame} (s : State) (h : bit (fld f.payload 1 1) 1 = cancel) :
    graphRow cancel f s = rcpGate 0x0303 f s (rcpDispatch 0x0303 f) := (if_pos h).trans (rcpRun_dispatch (op := 0x0303) (by decide) f s)

/-- Settles O5, by the ways a datagram goes, the dispatch of each row, and the check of a request's ID in its session. -/
theorem frameReceptionChecksInOrder : Obligations.FrameReceptionChecksInOrder := by
  refine ⟨fun d s hc hp => congrArg Host.Outcome.next (frameReceive_paused hc hp), fun d s h => congrArg Host.Outcome.next (frameReceive_lost h),
    fun d s hc hs s1 hs1 => ?_, fun f s => exec_rows rfl, fun f s => exec_actionRows rfl rfl, fun f s => ?_, fun op f s x ht hw => ⟨?_, ?_⟩⟩
  · have hd : exec (.rcpFrameReceive d) s = .next (datagram d s1) := by rw [hs1]; exact congrArg Host.Outcome.next (frameReceive_taken hc hs)
    rw [hd]
    refine ⟨fun h1 h2 h3 hcrc h4 h5 => ?_, fun h => ?_, fun h1 h2 h3 hcrc => ?_, fun h1 h2 h3 hcrc h4 => ?_⟩
    · rw [datagram_runs s1 ⟨h1, h2, h3⟩ hcrc h4 h5]
    · rw [datagram_malformed s1 (fun hw => by obtain ⟨h1, h2, h3⟩ := hw; rcases h with h | h | h <;> omega)]
      rfl
    · rw [datagram_wellFormed s1 ⟨h1, h2, h3⟩, if_pos hcrc]
      rfl
    · rw [datagram_wellFormed s1 ⟨h1, h2, h3⟩, if_neg (not_not.2 hcrc), if_pos h4]
      rfl
  · have hleg : rcpRun 0x0500 legendCmd f s = rcpGate 0x0500 f s (rcpDispatch 0x0500 f) := rcpRun_dispatch (op := 0x0500) (by decide) f s
    refine ⟨fun h => ?_, fun h => ?_, fun h => ?_, fun h => ?_, fun h => ?_, fun h => ?_, fun h => ?_, fun h => ?_, fun h => ?_⟩
    · exact congrArg Host.Outcome.next (regRow_dispatch s (by simp_all [namedRegs]))
    iterate 4 · exact congrArg Host.Outcome.next (regRow_dispatch s (beq_iff_eq.2 h))
    · exact congrArg Host.Outcome.next (graphRow_dispatch s h)
    · exact congrArg Host.Outcome.next (graphRow_dispatch s h)
    · exact congrArg Host.Outcome.next ((if_neg (by simp [h])).trans hleg)
    · exact congrArg Host.Outcome.next ((if_pos h).trans hleg)
  · intro o ho hd
    rw [rcpRun_wellSent hd ht hw]
    exact rcpReplay_answered (x := heard s x) (seen f s) ho
  · intro hc hi hd
    rw [rcpRun_wellSent hd ht hw, rcpReplay_inFlight (x := heard s x) (seen f s) hc hi, seen_host]

end Sys2Proof.Machine

namespace Sys2Proof.Machine
open Sys2Proof

/-! Commands that their tables of failures refuse (R79, R80, R610). -/

/-- An accepted command whose handler begins with a table of failures ends with the first that holds, and nothing else changes. -/
theorem exec_refused {op : Nat} {i : Instr} {hd : Handler} {l : List (Bool × Err)} {go : Reply} {f : Frame} {s : State} {x : Session} {e : Err}
    (hi : exec i s = .next (rcpRun op hd f s)) (hh : hd f f.sessionId.toNat (heard s x) (seen f s) = Reply.check l (seen f s) go)
    (ha : accepted op f s x = true) (hl : firstFail l = some e) : exec i s = .next (frameComplete f op e.status (errPayload e) (seen f s)) := by
  rw [hi, rcpRun_err ha (hh.trans (Reply.check_of_fails _ _ hl))]

/-- The same for a row of one ACTION. -/
theorem exec_action_refused {op off act : Nat} {i : Instr} {hd : Handler} {l : List (Bool × Err)} {go : Reply} {f : Frame} {s : State} {x : Session}
    {e : Err} (hi : exec i s = .next (rcpAction op off act hd f s))
    (hh : hd f f.sessionId.toNat (heard s x) (seen f s) = Reply.check l (seen f s) go) (ha : acceptedAs op off act f s x = true)
    (hl : firstFail l = some e) : exec i s = .next (frameComplete f op e.status (errPayload e) (seen f s)) := by
  have hr : rcpAction op off act hd f s = rcpRun op hd f s := by
    rw [rcpAction_accepted hd ha, rcpRun_accepted hd (acceptedAs_accepted ha)]
  exact exec_refused (hi.trans (congrArg _ hr)) hh (acceptedAs_accepted ha) hl

/-- Settles O50: the handler of each command begins with the table that the statement names. -/
theorem refusedCommandsChangeNothing : Obligations.RefusedCommandsChangeNothing := by
  refine ⟨fun f s x e => ⟨?_, ?_⟩, fun e => by simp [errPayload]⟩
  · refine List.forall_iff_forall_mem.1 ?_
    and_intros <;> exact fun ha hl => exec_refused rfl rfl ha hl
  · refine List.forall_iff_forall_mem.1 ?_
    and_intros <;> exact fun ha hl => exec_action_refused rfl rfl ha hl

end Sys2Proof.Machine

namespace Sys2Proof.Machine
open Sys2Proof

/-! What an RCP frame that is sent leaves (R44, R46). -/

/-- An RCP frame as it leaves on a path: over the Host Port with its priority, its VLAN and the next hop, or over SMBus/MCTP. -/
def State.rcpOut (s : State) (p : Path) (ip port : Nat) (o : RcpOut) : Sent :=
  match p with
  | .host => .rcp .host ip port s.host.rcpPriority s.host.vlan ((s.host.nextHop ip).getD ip) o
  | .mctp => .rcp .mctp ip port 0 0 ip o

theorem State.sendRcp_unreached {s : State} {p : Path} {ip : Nat} (port : Nat) (o : RcpOut) (h : s.reaches p ip = false) :
    s.sendRcp p ip port o = s := if_neg (by rw [h]; decide)

theorem State.sendRcp_mctp {s : State} {ip : Nat} (port : Nat) (o : RcpOut) (h : s.reaches .mctp ip = true) :
    s.sendRcp .mctp ip port o = s.send (.rcp .mctp ip port 0 0 ip o) := if_pos h

theorem State.sendRcp_host {s : State} {ip : Nat} (port : Nat) (o : RcpOut) (h : s.reaches .host ip = true) :
    s.sendRcp .host ip port o =
      s.hostSend s.host.rcpPriority (s.host.frameSize ip (36 + o.payload.length + o.mac.length)) (s.rcpOut .host ip port o) := if_pos h

theorem State.hostSend_unpaused {s : State} {prio : Nat} (size : Nat) (m : Sent) (h : s.paused prio = false) :
    s.hostSend prio size m = (s.countTx size).send m := if_neg (by rw [h]; decide)

theorem State.hostSend_paused {s : State} {prio : Nat} (size : Nat) (m : Sent) (h : s.paused prio = true) :
    s.hostSend prio size m = { s with host := { s.host with txq := s.host.txq ++ [(prio, size, m)] } } := if_pos h

/-- A frame sent over the Host Port changes what is sent and of the port what waits and the bytes counted. -/
theorem State.hostSend_rest (s : State) (prio size : Nat) (m : Sent) :
    { s.hostSend prio size m with sent := s.sent, host := s.host } = s ∧ { (s.hostSend prio size m).host with
      txq := s.host.txq, ctr := { (s.hostSend prio size m).host.ctr with txBytes := s.host.ctr.txBytes } } = s.host := by
  unfold State.hostSend
  split_ifs <;> exact ⟨rfl, rfl⟩

/-- An RCP frame sent changes what is sent and of the Host Port what waits and the bytes counted. -/
theorem State.sendRcp_rest (s : State) (p : Path) (ip port : Nat) (o : RcpOut) :
    { s.sendRcp p ip port o with sent := s.sent, host := s.host } = s ∧ { (s.sendRcp p ip port o).host with
      txq := s.host.txq, ctr := { (s.sendRcp p ip port o).host.ctr with txBytes := s.host.ctr.txBytes } } = s.host := by
  cases h : s.reaches p ip with
  | false => rw [State.sendRcp_unreached port o h]; exact ⟨rfl, rfl⟩
  | true =>
    cases p with
    | mctp => rw [State.sendRcp_mctp port o h]; exact ⟨rfl, rfl⟩
    | host => rw [State.sendRcp_host port o h]; exact s.hostSend_rest ..

/-- Where the partner does not pause it, an RCP frame that reaches its receiver is the newest thing sent. -/
theorem State.sendRcp_sent {s : State} {p : Path} {ip : Nat} (port : Nat) (o : RcpOut) (h : s.reaches p ip = true)
    (hp : p = .mctp ∨ s.paused s.host.rcpPriority = false) :
    (s.sendRcp p ip port o).sent = s.rcpOut p ip port o :: s.sent ∧ (s.sendRcp p ip port o).host.txq = s.host.txq := by
  cases p with
  | mctp => rw [State.sendRcp_mctp port o h]; exact ⟨rfl, rfl⟩
  | host =>
    rw [State.sendRcp_host port o h, State.hostSend_unpaused _ _ (hp.resolve_left Path.noConfusion)]
    exact ⟨rfl, rfl⟩

/-- Where the partner pauses its priority it is the last of what waits. -/
theorem State.sendRcp_waits {s : State} {ip : Nat} (port : Nat) (o : RcpOut) (h : s.reaches .host ip = true)
    (hp : s.paused s.host.rcpPriority = true) : (s.sendRcp .host ip port o).sent = s.sent ∧
      ∃ size, (s.sendRcp .host ip port o).host.txq = s.host.txq ++ [(s.host.rcpPriority, size, s.rcpOut .host ip port o)] := by
  rw [State.sendRcp_host port o h, State.hostSend_paused _ _ hp]
  exact ⟨rfl, _, rfl⟩

/-! Completions of an open session (R64, R78). -/

theorem State.modSession_some {s : State} {sid : Nat} {x : Session} (g : Session → Session) (h : s.session sid = some x) :
    s.modSession sid g = { s with rcp := { s.rcp with sessions := s.rcp.sessions.put sid (g x) } } := by
  unfold State.modSession
  rw [h]

/-- The state in which a session's cache has a completion. -/
def State.cached (s : State) (sid : Nat) (x : Session) (o : RcpOut) : State :=
  { s with rcp := { s.rcp with sessions := s.rcp.sessions.put sid (x.cachePut o) } }

/-- A command that ends enters its completion in the cache, and it is sent. -/
theorem State.complete_sends {s : State} {sid : Nat} {x : Session} (rid op : Nat) (p : Path) (ip port st : Nat) (b : List Byte)
    (h : s.session sid = some x) (hp : s.ctl.surveyor ≠ .paused) : s.complete sid rid op p ip port st b =
      (s.cached sid x (x.completion sid rid op st b)).sendRcp p ip port (x.completion sid rid op st b) := by
  unfold State.complete
  rw [h]
  dsimp only
  rw [if_neg hp, State.modSession_some _ h]
  rfl

theorem Session.cachePut_lastSeen (x : Session) (o : RcpOut) : (x.cachePut o).lastSeen = x.lastSeen := by
  unfold Session.cachePut
  dsimp only
  split_ifs <;> rfl

theorem frameOut_eq (f : Frame) (s : State) (o : RcpOut) : frameOut f s o = s.rcpOut f.path f.srcIp f.srcPort o := by
  unfold frameOut State.rcpOut
  cases f.path <;> rfl

/-- Settles O2: the completion enters the cache and is sent, and sending it changes what is sent and the Host Port alone. -/
theorem completionSentAndCached : Obligations.CompletionSentAndCached := by
  intro op f p s x hx hp
  have he : doneOk op f p s = _ := State.complete_sends f.requestId.toNat op f.path f.srcIp f.srcPort stOk p hx hp
  obtain ⟨hrest, hhost⟩ := (s.cached f.sessionId.toNat x (x.completion f.sessionId.toNat f.requestId.toNat op stOk p)).sendRcp_rest f.path f.srcIp
    f.srcPort (x.completion f.sessionId.toNat f.requestId.toNat op stOk p)
  rw [he]
  refine ⟨⟨_, (State.session_sendRcp ..).trans (Tbl.find_put_self ..), Session.cachePut_inFlight .., Session.cachePut_lastSeen ..,
    Session.cachePut_last ..⟩, fun o ho => ⟨fun hr hq => ?_, fun hr hf hq => ?_⟩, fun hr => ?_, fun n hn => ?_, ?_, ?_, hhost⟩
  · rw [ho, frameOut_eq]
    exact State.sendRcp_sent (s := s.cached f.sessionId.toNat x _) _ _ hr hq
  · rw [ho, frameOut_eq, hf]
    rw [hf] at hr
    exact State.sendRcp_waits (s := s.cached f.sessionId.toNat x _) _ _ hr hq
  · rw [State.sendRcp_unreached (s := s.cached f.sessionId.toNat x _) _ _ hr]
    exact ⟨rfl, rfl⟩
  · exact (State.session_sendRcp ..).trans (Tbl.find_put_ne _ _ hn)
  · rw [State.sendRcp_rcp]
    rfl
  · exact congrArg (fun v : State => { v with rcp := s.rcp }) hrest

end Sys2Proof.Machine

namespace Sys2Proof.Machine
open Sys2Proof

/-! Event frames (R86). -/

@[simp] theorem padTo_length (n : Nat) (bs : List Byte) : (padTo n bs).length = n := by
  simp only [padTo, List.length_take, List.length_append, zeros_length]
  omega

theorem EventRec.bytes_length (e : EventRec) : e.bytes.length = 64 := by
  simp [EventRec.bytes]

theorem RcpOut.seal_payload (o : RcpOut) (key : Option (List Byte)) : (o.seal key).payload = o.payload := by
  cases key <;> rfl

/-- An event's frame carries 64 bytes, of its DATA the first 48. -/
theorem Session.eventFrame_payload_length (x : Session) (sid : Nat) (e : EventRec) : (x.eventFrame sid e).payload.length = 64 := by
  unfold Session.eventFrame
  rw [RcpOut.seal_payload]
  exact e.bytes_length

/-- A privileged session over the Host Port that subscribes to every class. -/
def subscriber : Session where
  path := .host
  ip := 0xFFFF0A000002
  port := 5000
  verMajor := 1
  verMinor := 0
  priv := true
  ctx := 0
  maxPayload := 8192
  key := none
  idle := 60
  lastSeen := 0
  boot := false
  cache := []
  floor := 0
  inFlight := []
  mask := 63
  evSeq := 0
  events := []
  unsent := []
  fetched := 0
  latches := []

/-- The reset state with that session open as session 1. -/
def subscribed : State := { State.reset with rcp := { State.reset.rcp with sessions := [(1, subscriber)] } }

/-- Refutes O51: an event with 49 bytes of data has a frame of 64 bytes (its DATA field is the first 48, R86), where the statement asks for 65. -/
theorem not_eventsNumberedAndRetained : ¬ Obligations.EventsNumberedAndRetained := by
  intro h
  obtain ⟨-, hsub, -⟩ := h subscribed 1 0 0x0010 (zeros 49) subscriber rfl
  obtain ⟨-, -, -, hlen, -⟩ := hsub rfl
  rw [Session.eventFrame_payload_length] at hlen
  exact absurd hlen (by decide)

end Sys2Proof.Machine

namespace Sys2Proof.Machine
open Sys2Proof

/-! Identifiers chosen freely (R53, R58, R68). -/

theorem nextFree_lt (taken : Nat → Bool) {m : Nat} (h : 0 < m) (n v : Nat) : nextFree taken m n v < m := by
  induction n generalizing v with
  | zero => exact Nat.mod_lt _ h
  | succ n ih =>
    unfold nextFree
    split_ifs
    · exact ih _
    · exact Nat.mod_lt _ h

/-- A number that is taken in the end follows only numbers that are taken. -/
theorem taken_of_nextFree_taken (taken : Nat → Bool) {m : Nat} (n v : Nat) (h : taken (nextFree taken m n v) = true) (i : Nat) (hi : i ≤ n) :
    taken ((v + i) % m) = true := by
  induction n generalizing v i with
  | zero =>
    obtain rfl : i = 0 := by omega
    exact h
  | succ n ih =>
    unfold nextFree at h
    split_ifs at h with hv
    · cases i with
      | zero => exact hv
      | succ i =>
        have hk := ih _ h i (by omega)
        rwa [Nat.add_assoc, Nat.mod_add_mod, Nat.add_comm 1 i] at hk
    · rw [h] at hv
      exact absurd rfl hv

/-- Where fewer numbers are taken than are tried, and no more are tried than there are, the number found is not taken. -/
theorem nextFree_not_taken (taken : Nat → Bool) {m n v : Nat} {l : List Nat} (hl : ∀ k, k < m → taken k = true → k ∈ l) (hn : l.length ≤ n)
    (hm : n < m) : taken (nextFree taken m (n + 1) v) = false := by
  by_contra hc
  rw [Bool.not_eq_false] at hc
  have hall := taken_of_nextFree_taken taken (n + 1) v hc
  have hsub : (Finset.range (n + 1)).image (fun i => (v + i) % m) ⊆ l.toFinset := by
    intro k hk
    obtain ⟨i, hi, rfl⟩ := Finset.mem_image.1 hk
    rw [Finset.mem_range] at hi
    exact List.mem_toFinset.2 (hl _ (Nat.mod_lt _ (by omega)) (hall i (by omega)))
  have hinj : Set.InjOn (fun i => (v + i) % m) (Finset.range (n + 1) : Set Nat) := by
    intro i hi j hj hij
    rw [Finset.coe_range, Set.mem_Iio] at hi hj
    have h := Nat.ModEq.add_left_cancel' v hij
    rwa [Nat.ModEq, Nat.mod_eq_of_lt (by omega), Nat.mod_eq_of_lt (by omega)] at h
  have hcard := (Finset.card_le_card hsub).trans l.toFinset_card_le
  rw [Finset.card_image_of_injOn hinj, Finset.card_range] at hcard
  omega

/-- A key that is found is among the keys. -/
theorem mem_keys_of_find {α : Type} {t : Tbl α} {a : Nat} (h : (t.find a).isSome = true) : a ∈ t.keys := by
  obtain ⟨x, hx⟩ := Option.isSome_iff_exists.1 h
  exact List.mem_map.2 ⟨(a, x), Tbl.find_mem hx, rfl⟩

/-! Tables of failures (R610). -/

/-- No row of a table fails exactly where each of its conditions is false. -/
theorem firstFail_eq_none_iff (l : List (Bool × Err)) : firstFail l = none ↔ ∀ e ∈ l, e.1 = false := by
  induction l with
  | nil => simp [firstFail]
  | cons e t ih =>
    obtain ⟨c, e⟩ := e
    cases c <;> simp [firstFail, ih]

theorem passes_iff (l : List (Bool × Err)) : passes l = true ↔ ∀ e ∈ l, e.1 = false := by
  rw [← firstFail_eq_none_iff, passes, Option.isNone_iff_eq_none]

/-! HELLO (R64 to R67). -/

/-- A HELLO that meets no row of its table is answered with version 1.0 or with VERSION. -/
theorem hello_answers {f : Frame} (s : State) (h0 : f.sessionId = 0) (hl : f.payload.length = 8) (hz : fldZero f.payload 4 4 = true)
    (h1 : 1 ≤ fld f.payload 0 1) (h2 : fld f.payload 0 1 ≤ fld f.payload 1 1) (h3 : 512 ≤ fld f.payload 2 2) (h4 : fld f.payload 2 2 ≤ 8192) :
    hello f s =
      if fld f.payload 0 1 = 1 then
        frameAnswer f 1 stOk (leb 1 1 ++ leb 1 0 ++ leb 2 (fld f.payload 2 2) ++ (leb 1 1 ++ leb 1 1 ++ zeros 2 ++ leb 8 s.fw.fuses.serial)) s
      else frameAnswer f 1 stVersion (zeros 4 ++ (leb 1 1 ++ leb 1 1 ++ zeros 2 ++ leb 8 s.fw.fuses.serial)) s := by
  have hn : ∀ e, firstFail [(badLength f 8, err0 stArg), (!fldZero f.payload 4 4, e), (fld f.payload 0 1 == 0, errAt stRange 0),
      (fld f.payload 2 2 < 512 || fld f.payload 2 2 > 8192, errAt stRange 2), (fld f.payload 0 1 > fld f.payload 1 1, errAt stArg 0)] = none := by
    intro e
    rw [firstFail_eq_none_iff]
    simp [badLength, hl, hz]
    omega
  unfold hello
  rw [if_neg (not_not.2 h0)]
  dsimp only
  rw [hn, min_eq_left h4]
  dsimp only
  by_cases h : fld f.payload 0 1 = 1
  · rw [if_neg (by omega), if_pos h]
  · rw [if_pos (by omega), if_neg h]

/-! OPEN_SESSION (R68 to R71, R493, R494). -/

/-- Whether a session, open or ended with commands that still run, has the identifier after k. -/
def idTaken (s : State) (k : Nat) : Bool := (s.rcp.sessions.find (k + 1)).isSome || s.rcp.orphans.any (fun o => o.sid == k + 1)

/-- The identifier that an OPEN_SESSION chooses less 1, and the state once it is drawn. -/
def openFresh (s : State) : Nat × State := s.fresh (idTaken s) (2 ^ 32 - 2) (s.rcp.sessions.length + s.rcp.orphans.length)

theorem orphans_le_allInFlight (s : State) : s.rcp.orphans.length ≤ s.allInFlight := Nat.le_add_left _ _

/-- The identifier is not 0 and names no open session. -/
theorem openFresh_spec {s : State} (hs : s.rcp.sessions.length < 512) (ho : s.allInFlight < 16384) :
    (openFresh s).1 + 1 < 2 ^ 32 ∧ s.session ((openFresh s).1 + 1) = none := by
  have hlt : (openFresh s).1 < 2 ^ 32 - 2 := nextFree_lt _ (by decide) _ _
  have hor := orphans_le_allInFlight s
  have hkeys : ∀ k, k < 2 ^ 32 - 2 → idTaken s k = true → k ∈ (s.rcp.sessions.keys ++ s.rcp.orphans.map Orphan.sid).map (· - 1) := by
    intro k _ hk
    unfold idTaken at hk
    rw [Bool.or_eq_true, List.any_eq_true] at hk
    refine List.mem_map.2 ⟨k + 1, List.mem_append.2 ?_, rfl⟩
    rcases hk with hk | ⟨o, hm, he⟩
    · exact .inl (mem_keys_of_find hk)
    · exact .inr (List.mem_map.2 ⟨o, hm, beq_iff_eq.1 he⟩)
  have hlen : ((s.rcp.sessions.keys ++ s.rcp.orphans.map Orphan.sid).map (· - 1)).length = s.rcp.sessions.length + s.rcp.orphans.length := by
    simp only [List.length_map, List.length_append, Tbl.keys]
  have hfree : idTaken s (openFresh s).1 = false := nextFree_not_taken _ hkeys hlen.le (by omega)
  rw [idTaken, Bool.or_eq_false_iff, Option.isSome_eq_false_iff, Option.isNone_iff_eq_none] at hfree
  exact ⟨by omega, hfree.1⟩

/-- The context a session opens in: none while the boot ROM runs. -/
def openCtx (f : Frame) (s : State) : Nat := if s.ctl.surveyor = .netboot then 0 else fld f.payload 2 2

/-- The state in which a session is open under an identifier. -/
def opened (f : Frame) (s : State) (key : Option (List Byte)) (st : State) : State :=
  { st with rcp := { st.rcp with
    sessions := st.rcp.sessions.put ((openFresh s).1 + 1)
      (newSession f st (fld f.payload 0 1 == 1) (openCtx f s) (fld f.payload 6 2) (fld f.payload 4 2) key) } }

/-- A session that opens: in a state that differs in free values and the flash alone it is entered, keyed where MAC_MODE is not 0, and answered. -/
theorem openRun_opens (f : Frame) (s : State) : ∃ (o : RcpOut) (key : Option (List Byte)) (st : State),
    openRun f s = openAnswer f o (opened f s key st) ∧ key.isSome = (fld f.payload 1 1 != 0) ∧ st.rcp = s.rcp ∧ st.ctl = s.ctl ∧ st.mem = s.mem ∧
      st.pods = s.pods ∧ st.disp = s.disp := by
  unfold openRun
  dsimp only
  by_cases h : fld f.payload 1 1 = 0
  · rw [if_pos h]
    exact ⟨_, none, _, rfl, by rw [h]; rfl, rfl, rfl, rfl, rfl, rfl⟩
  · rw [if_neg h]
    refine ⟨_, some _, _, rfl, by simpa using h, ?_⟩
    split_ifs
    · unfold State.writeSec State.modFlash
      split_ifs <;> exact ⟨rfl, rfl, rfl, rfl, rfl⟩
    · exact ⟨rfl, rfl, rfl, rfl, rfl⟩

/-- What an OPEN_SESSION's table leaves where no row fails. -/
theorem openFails_passed {f : Frame} {s : State} (h : firstFail (openFails f s) = none) : fld f.payload 1 1 ≤ 1 ∧ s.rcp.sessions.length < 512 := by
  rw [firstFail_eq_none_iff] at h
  have hmac := h (fld f.payload 1 1 > 1, errAt stArg 1) (by simp [openFails])
  have hmany := h (s.rcp.sessions.length ≥ (if (s.ctl.surveyor == .netboot) = true then 4 else 512), err0 stLimit) (by simp [openFails])
  simp only [decide_eq_false_iff_not] at hmac hmany
  split_ifs at hmany <;> omega

/-- An OPEN_SESSION that is not remembered and meets no row of its table opens a session. -/
theorem openSession_opens {f : Frame} {s : State} (hmaj : f.verMajor = 1) (hmin : f.verMinor = 0) (hb : frameHeaderBad f false = false)
    (hm : s.rcp.opens.all (fun o => !(o.path == f.path && o.ip == f.srcIp && (f.path == .mctp || o.port == f.srcPort) && o.rid == f.requestId.toNat
      && decide (s.ctl.now < o.at_ + 6000000000))) = true) (ha : s.allInFlight < 16384) (hf : firstFail (openFails f s) = none) :
    openSession f s = openRun f s := by
  have hfind : s.rcp.opens.find? (fun o => o.path == f.path && o.ip == f.srcIp && (f.path == .mctp || o.port == f.srcPort) &&
      o.rid == f.requestId.toNat && decide (s.ctl.now < o.at_ + 6000000000)) = none := by
    rw [List.find?_eq_none]
    intro o ho
    exact Bool.not_eq_true _ ▸ Bool.not_eq_true' _ ▸ List.all_eq_true.1 hm o ho
  unfold openSession
  dsimp only
  rw [if_neg (by simp [hmaj, hmin]), if_neg (by simp [hb])]
  rw [hfind]
  dsimp only
  rw [if_neg (by omega), hf]

/-- An answer to OPEN_SESSION leaves the sessions and the machine. -/
theorem openAnswer_session (f : Frame) (o : RcpOut) (s : State) (n : Nat) : (openAnswer f o s).session n = s.session n :=
  State.session_sendRcp ..

theorem rcpRun_okThen {op : Nat} {f : Frame} {s : State} {x : Session} {hd : Handler} {p : List Byte} {v : State} {after : State → State}
    (h : accepted op f s x = true) (hh : hd f f.sessionId.toNat (heard s x) (seen f s) = .okThen p v after) :
    rcpRun op hd f s = after (doneOk op f p v) := by
  rw [rcpRun_accepted hd h]
  unfold rcpExecute
  unfold heard at hh
  rw [hh]
  rfl

/-! The end of a session (R72). -/

theorem endSession_session_self (sid : Nat) (s : State) : (endSession sid s).session sid = none := Tbl.find_del_self _ _

@[simp] theorem alertSettle_rcp (s : State) : (alertSettle s).rcp = s.rcp := by
  unfold alertSettle
  split_ifs <;> rfl

/-- A session not heard from for its idle time ends at its timer. -/
theorem idleTimeout_ends {sid : Nat} {s : State} {x : Session} (hx : s.session sid = some x) (hp : s.ctl.surveyor ≠ .paused)
    (h : x.lastSeen + x.idle * 100000000 ≤ s.ctl.now) : idleTimeout sid s = alertSettle (endSession sid s) := by
  unfold idleTimeout
  rw [hx]
  exact if_pos ⟨hp, h⟩

theorem idleTimeout_early {sid : Nat} {s : State} {x : Session} (hx : s.session sid = some x)
    (h : s.ctl.now < x.lastSeen + x.idle * 100000000) : idleTimeout sid s = s := by
  unfold idleTimeout
  rw [hx]
  exact if_neg (by omega)

/-- Settles O4, by HELLO's answers, the run of OPEN_SESSION, the memory's filter, and the end of a session. -/
theorem helloAndSessionLifetime : Obligations.HelloAndSessionLifetime := by
  refine ⟨fun f s ht h0 hl hz h1 h2 h3 h4 => ?_, fun f s ht h0 hmaj hmin hb hm ha hf => ?_, fun ip port rid s => ⟨_, rfl, fun o => ?_, rfl⟩,
    fun f s x ha hp => ⟨_, ?_, rfl, endSession_session_self ..⟩, fun sid s x hx hp => ⟨fun hi => ⟨_, congrArg Host.Outcome.next (idleTimeout_ends hx hp hi), ?_⟩,
      fun hi => congrArg Host.Outcome.next (idleTimeout_early hx hi)⟩⟩
  · exact congrArg Host.Outcome.next ((rcpGate_taken _ ht).trans (hello_answers s h0 hl hz h1 h2 h3 h4))
  · obtain ⟨hmac, hmany⟩ := openFails_passed hf
    obtain ⟨hsid, hnew⟩ := openFresh_spec hmany ha
    obtain ⟨o, key, st, hrun, hkey, hrcp, hctl, hmem, hpods, hdisp⟩ := openRun_opens f s
    refine ⟨(openFresh s).1 + 1, newSession f st (fld f.payload 0 1 == 1) (openCtx f s) (fld f.payload 6 2) (fld f.payload 4 2) key, _,
      Nat.succ_pos _, hsid, hnew, congrArg Host.Outcome.next ((rcpGate_taken _ ht).trans ((if_pos h0).trans
        ((openSession_opens hmaj hmin hb hm ha hf).trans hrun))), ?_, rfl, rfl, rfl, rfl, rfl, rfl, fun hr => ?_, ?_, rfl, rfl, congrArg Ctl.now hctl,
      fun n hn => ?_, ?_, ?_, ?_⟩
    · exact (openAnswer_session ..).trans (Tbl.find_put_self ..)
    · exact if_neg (by rw [hr]; decide)
    · refine hkey.trans ?_
      rw [Bool.eq_iff_iff, bne_iff_ne, beq_iff_eq]
      omega
    · rw [openAnswer_session]
      exact (Tbl.find_put_ne _ _ hn).trans (by rw [hrcp]; rfl)
    · exact (State.sendRcp_mem ..).trans hmem
    · exact (State.sendRcp_pods ..).trans hpods
    · exact (State.sendRcp_disp ..).trans hdisp
  · simp only [openExpiry, List.mem_filter, Bool.not_eq_true', Bool.and_eq_false_iff, beq_eq_false_iff_ne, decide_eq_false_iff_not]
    tauto
  · exact congrArg Host.Outcome.next (rcpRun_okThen ha (Reply.check_of_passes _ _ (by simp [passes_iff, closeSessionFails, badLength, hp])))
  · rw [State.session, alertSettle_rcp]
    exact endSession_session_self sid s

end Sys2Proof.Machine

namespace Sys2Proof.Machine
open Sys2Proof

/-! KEEPALIVE, SUBSCRIBE and GET_EVENTS (R75, R86, R87). -/

/-- The events that GET_EVENTS answers: those retained from a number on, as many as fit. -/
def eventsFrom (start : Nat) (x : Session) : List EventRec := (x.events.filter (fun v => start ≤ v.seq)).take ((x.maxPayload - 8) / 64)

/-- The highest number fetched once they are. -/
def fetchedAfter (recs : List EventRec) (x : Session) : Nat := recs.foldl (fun a v => max a v.seq) x.fetched

theorem getEventsFails_passes {f : Frame} (hl : f.payload.length = 8) (h0 : 0 < fld f.payload 0 8) : passes (getEventsFails f) = true := by
  rw [passes_iff]
  simp [getEventsFails, badLength, hl, h0.ne']

/-- GET_EVENTS of a session that retains events. -/
theorem getEvents_retained {f : Frame} {x : Session} {e : EventRec} {t : List EventRec} (s : State) (hl : f.payload.length = 8)
    (h0 : 0 < fld f.payload 0 8) (he : x.events = e :: t) (sid : Nat) :
    getEvents f sid x s = .ok (leb 8 e.seq ++ (eventsFrom (fld f.payload 0 8) x).flatMap EventRec.bytes)
      (alertSettle (s.modSession sid (fun y => { y with fetched := fetchedAfter (eventsFrom (fld f.payload 0 8) x) x }))) := by
  unfold getEvents
  rw [Reply.check_of_passes _ _ (getEventsFails_passes hl h0)]
  unfold eventsFrom fetchedAfter
  rw [he]

theorem getEvents_empty {f : Frame} {x : Session} (s : State) (hl : f.payload.length = 8) (h0 : 0 < fld f.payload 0 8) (he : x.events = [])
    (sid : Nat) : getEvents f sid x s = .ok (leb 8 (s.draw).1) (s.draw).2 := by
  unfold getEvents
  rw [Reply.check_of_passes _ _ (getEventsFails_passes hl h0), he]

/-- Releasing SMB_ALERT_N changes nothing else. -/
theorem alertSettle_rest (s : State) : { alertSettle s with pins := { (alertSettle s).pins with smbAlert := s.pins.smbAlert } } = s := by
  unfold alertSettle
  split_ifs <;> rfl

/-- A session changed is the only change. -/
theorem State.modSession_rest (s : State) (sid : Nat) (g : Session → Session) : { s.modSession sid g with rcp := s.rcp } = s ∧
    { (s.modSession sid g).rcp with sessions := s.rcp.sessions } = s.rcp := by
  unfold State.modSession
  split <;> exact ⟨rfl, rfl⟩

/-- The state in which a frame's session has fetched its events up to a number. -/
def fetchedTo (f : Frame) (top : Nat) (s : State) : State := (seen f s).modSession f.sessionId.toNat (fun y => { y with fetched := top })

theorem fetchedTo_rest (f : Frame) (top : Nat) (s : State) : { fetchedTo f top s with rcp := s.rcp } = s ∧
    { (fetchedTo f top s).rcp with sessions := s.rcp.sessions } = s.rcp := by
  obtain ⟨hs, hr⟩ := s.modSession_rest f.sessionId.toNat (fun y => { y with lastSeen := s.ctl.now })
  obtain ⟨hs', hr'⟩ := (seen f s).modSession_rest f.sessionId.toNat (fun y => { y with fetched := top })
  exact ⟨(congrArg (fun v : State => { v with rcp := s.rcp }) hs').trans hs,
    (congrArg (fun r : Rcp => { r with sessions := s.rcp.sessions }) hr').trans hr⟩

/-- Settles O3: each command passes its table, and its handler changes its session alone. -/
theorem sessionKeepaliveSubscribeEvents : Obligations.SessionKeepaliveSubscribeEvents := by
  intro f s x
  refine ⟨fun ha hp => ?_, fun ha hl hm hz => ?_, fun ha hl h0 e t he => ?_, fun ha hl h0 he => ?_⟩
  · exact congrArg Host.Outcome.next (rcpRun_ok ha (Reply.check_of_passes _ _ (by simp [passes_iff, badLength, hp])))
  · refine congrArg Host.Outcome.next (rcpRun_ok ha (Reply.check_of_passes _ _ ?_))
    rw [passes_iff]
    simp [subscribeFails, badLength, hl, hz, hm]
  · have hu := alertSettle_rcp (fetchedTo f (fetchedAfter (eventsFrom (fld f.payload 0 8) x) x) s)
    obtain ⟨hrest, hrcp⟩ := fetchedTo_rest f (fetchedAfter (eventsFrom (fld f.payload 0 8) x) x) s
    refine ⟨eventsFrom (fld f.payload 0 8) x, alertSettle (fetchedTo f (fetchedAfter (eventsFrom (fld f.payload 0 8) x) x) s),
      List.take_prefix _ _, List.length_take.trans (Nat.min_comm _ _), congrArg Host.Outcome.next (rcpRun_ok ha (getEvents_retained _ hl h0 he _)),
      ?_, fun n hn => ?_, ?_, ?_⟩
    · rw [State.session, hu]
      exact State.session_modSession_self _ (seen_session (accepted_session ha))
    · rw [State.session, hu]
      exact (State.session_modSession_ne _ _ hn).trans (seen_other f s hn)
    · rw [hu]
      exact hrcp
    · have h := alertSettle_rest (fetchedTo f (fetchedAfter (eventsFrom (fld f.payload 0 8) x) x) s)
      have hpins : (fetchedTo f (fetchedAfter (eventsFrom (fld f.payload 0 8) x) x) s).pins = s.pins := (State.modSession_pins ..).trans (State.modSession_pins ..)
      rw [hpins] at h
      exact (congrArg (fun v : State => { v with rcp := s.rcp }) h).trans hrest
  · have hd : (seen f s).draw.1 = s.draw.1 := congrArg Config.freeNat (State.modSession_free ..)
    rw [← hd]
    exact congrArg Host.Outcome.next (rcpRun_ok ha (getEvents_empty _ hl h0 he _))

end Sys2Proof.Machine

namespace Sys2Proof.Machine
open Sys2Proof

/-! GET_PORT_STATUS of a Fabric Port (R606). -/

theorem flatMap_leb_length (n : Nat) (l : List Nat) : (l.flatMap (leb n)).length = n * l.length := by
  induction l with
  | nil => rfl
  | cons v l ih => rw [List.flatMap_cons, List.length_append, ih, leb_length, List.length_cons, Nat.mul_succ, Nat.add_comm]

/-- A Fabric Port's eight words are 32 bytes. -/
theorem FPort.words_bytes_length (x : FPort) : (x.words.flatMap (leb 4)).length = 32 := flatMap_leb_length 4 _

/-- Firmware runs, the islands are released, the Host Port's link is up, and session 1 is open over it. -/
def listening : State := { subscribed with
  ctl := { Ctl.reset with held := none, surveyor := .ready, islandUp := BitVec.allOnes 47 }
  host := { HostPort.reset with link := .up } }

/-- GET_PORT_STATUS of session 1 for Fabric Port 0. -/
def askFabricPort : Frame := ⟨1, 0, 1, 1, 0, 0, 0, [1, 0, 0, 0, 0, 0, 0, 0], [], .host, 0xFFFF0A000002, 5000⟩

set_option maxRecDepth 20000 in
theorem accepted_askFabricPort : accepted 0x0010 askFabricPort listening subscriber = true := by decide

/-- Refutes O6: for a Fabric Port GET_PORT_STATUS answers the 32 bytes from FAB_LINKp (R606), where the statement asks for 128. -/
theorem not_portAndNetworkConfiguration : ¬ Obligations.PortAndNetworkConfiguration := by
  intro h
  obtain ⟨-, -, -, hstatus, -⟩ := h askFabricPort listening subscriber
  obtain ⟨b, hlen, -, hb⟩ := hstatus accepted_askFabricPort rfl rfl (by decide)
  rw [hb, if_neg (by decide), FPort.words_bytes_length] at hlen
  exact absurd hlen (by decide)

end Sys2Proof.Machine

namespace Sys2Proof.Machine
open Sys2Proof

/-! The Host Port's link (R38, R39). -/

/-- The fastest mode both ends advertise is the lowest-numbered one. -/
theorem fastestMode_eq {a b : BitVec 3} {m : Nat} (hm : m < 3) (h : (a &&& b).getLsbD m = true) (hlt : ∀ k, k < m → (a &&& b).getLsbD k = false) :
    fastestMode a b = some m := by
  unfold fastestMode firstIdx
  rw [List.find?_range_eq_some]
  exact ⟨h, List.mem_range.2 hm, fun k hk => by rw [hlt k hk]; rfl⟩

theorem State.relinked_none {s : State} {t : Nat} (h : s.svc.relink.find t = none) : s.relinked t = s := if_neg (by rw [h]; decide)

theorem hostLinkTraining_up {peer : BitVec 3} {s : State} {m : Nat} (hu : s.up islHost = true) (ht : s.host.link = .training)
    (hm : fastestMode s.host.advertise peer = some m) (hr : s.svc.relink.find 0 = none) :
    hostLinkTraining peer s = { s with host := { s.host with link := .up, mode := m } } := by
  unfold hostLinkTraining
  rw [if_pos ⟨hu, ht⟩, hm]
  exact State.relinked_none hr

/-- A Host Port is as another but for what waits to be sent and the bytes counted as sent. -/
def sameButTx (a b : HostPort) : Prop := { a with txq := b.txq, ctr := { a.ctr with txBytes := b.ctr.txBytes } } = b

theorem sameButTx.refl (a : HostPort) : sameButTx a a := rfl

theorem sameButTx.trans {a b c : HostPort} (h : sameButTx a b) (k : sameButTx b c) : sameButTx a c := by
  unfold sameButTx at *
  rw [← k, ← h]

theorem sameButTx_sendRcp (s : State) (p : Path) (ip port : Nat) (o : RcpOut) : sameButTx (s.sendRcp p ip port o).host s.host :=
  (s.sendRcp_rest p ip port o).2

theorem sameButTx_modSession (a : State) (i : Nat) (g : Session → Session) : sameButTx (a.modSession i g).host a.host := by
  rw [State.modSession_host]
  exact sameButTx.refl _

theorem sameButTx_eventTo (s : State) (i c k : Nat) (b : List Byte) : sameButTx (s.eventTo i c k b).host s.host := by
  have hsend : ∀ (a : State) (g : Session → Session) p ip port o, sameButTx ((a.modSession i g).sendRcp p ip port o).host a.host :=
    fun a g p ip port o => (sameButTx_sendRcp ..).trans (sameButTx_modSession ..)
  unfold State.eventTo
  split
  · exact sameButTx.refl _
  · split
    · dsimp only
      split <;> split
      · exact hsend { s with pins := { s.pins with smbAlert := true } } ..
      · exact sameButTx_modSession { s with pins := { s.pins with smbAlert := true } } ..
      · exact hsend s ..
      · exact sameButTx_modSession s ..
    · exact sameButTx.refl _

theorem sameButTx_event (s : State) (p : Session → Bool) (c k : Nat) (b : List Byte) : sameButTx (s.event p c k b).host s.host :=
  foldl_invariant (P := fun a : State => sameButTx a.host s.host) (fun a i ha => (sameButTx_eventTo a i c k b).trans ha) _ s (sameButTx.refl _)

theorem sameButTx_fire (s : State) (k n d : Nat) (j : Bool) : sameButTx (s.fire k n d j).host s.host := by
  have hev : ∀ (a : State) p c e b, a.host = s.host → sameButTx (a.event p c e b).host s.host :=
    fun a p c e b ha => ha ▸ sameButTx_event a p c e b
  unfold State.fire
  dsimp only
  split_ifs
  · exact hev _ _ _ _ _ rfl
  · exact hev _ _ _ _ _ rfl
  · exact sameButTx.refl _
  · exact sameButTx.refl _

theorem sameButTx.fields {a b : HostPort} (h : sameButTx a b) : a.link = b.link ∧ a.mode = b.mode ∧ a.rx = b.rx ∧
    a.ctr.linkDowns = b.ctr.linkDowns ∧ a.ctr.fcsErr = b.ctr.fcsErr := by
  unfold sameButTx at h
  exact ⟨congrArg (fun x => x.link) h, congrArg (fun x => x.mode) h, congrArg (fun x => x.rx) h, congrArg (fun x => x.ctr.linkDowns) h,
    congrArg (fun x => x.ctr.fcsErr) h⟩

/-- The state that a link's loss leaves before its event. -/
def lostLink (s : State) : State :=
  ({ s with host := { s.host with link := .training, mode := 0, txq := [] } }).modHp (fun c => { c with linkDowns := sat32 c.linkDowns 1 })

theorem linkDown_up {s : State} (h : s.host.link = .up) : ∃ code data,
    linkDown s = ((lostLink s).draw.2.drawBytes 48).2.event (fun _ => true) 5 code data := ⟨_, _, if_pos h⟩

/-! Frames (R40, R46). -/

/-- The state once a frame's bytes are counted. -/
def rxCounted (n : Nat) (s : State) : State := s.modHp (fun c => { c with rxBytes := c.rxBytes + n })

/-- A frame on a link that is up, without an injection: it is checked in the order of R40. -/
theorem hostFrameReceive_checks {b : List Byte} {s : State} (hl : s.linkUp = true) (ha : s.armed 0x0B 0 = none) : hostFrameReceive b s =
    if le (lastN 4 b) ≠ fcs (b.take (b.length - 4)) then
      ((rxCounted b.length s).modHp (fun c => { c with fcsErr := sat32 c.fcsErr 1 })).fire 0x0B 0 0 false
    else if b.length > 9216 then (rxCounted b.length s).modHp (fun c => { c with lenErr := sat32 c.lenErr 1 })
    else if !s.hearsMac (b.take 6) then (rxCounted b.length s).modHp (fun c => { c with otherMac := sat32 c.otherMac 1 })
    else etherReceive (rxCounted b.length s) b.length b := by
  have hi : ¬ ((rxCounted b.length s).armed 0x0B 0).isSome = true := by
    have ha' : (rxCounted b.length s).armed 0x0B 0 = none := ha
    rw [ha']
    decide
  unfold hostFrameReceive
  rw [if_neg (by simp [hl])]
  dsimp only
  by_cases hb : le (lastN 4 b) ≠ fcs (b.take (b.length - 4))
  · rw [if_pos (.inr hb), if_pos hb]
    exact if_neg hi
  · refine (if_neg (not_or.2 ⟨hi, hb⟩)).trans ?_
    rw [if_neg hb]
    rfl

/-! Priority flow control (R46). -/

theorem State.drainTx_nil {s : State} (h : s.host.txq = []) : s.drainTx = s := by
  unfold State.drainTx
  rw [h]
  exact congrArg (fun q => { s with host := { s.host with txq := q } }) h.symm

theorem pfcPauseReceive_enabled {p : Fin 8} (pause : Bool) {s : State} (hl : s.linkUp = true) (he : s.host.pfcEnable.getLsbD p = true) :
    pfcPauseReceive p pause s = ({ s with host := { s.host with paused := putBit s.host.paused p pause } }).drainTx := if_pos (by rw [hl, he]; rfl)

/-- Settles O9: the link's training and loss, a received frame's checks, and the pause of a priority. -/
theorem hostLinkAndReceivedFrames : Obligations.HostLinkAndReceivedFrames := by
  refine ⟨fun peer s m hu ht hm hc hlt hr => congrArg Host.Outcome.next (hostLinkTraining_up hu ht (fastestMode_eq hm hc hlt) hr), fun s h => ?_,
    fun b s hl ha s0 hs0 => ?_, fun p pause s hl => ⟨fun he => ?_, fun he hq => ?_, fun he => ?_⟩⟩
  · obtain ⟨code, data, he⟩ := linkDown_up h
    obtain ⟨hlink, hmode, -, hdowns, -⟩ := (sameButTx_event ((lostLink s).draw.2.drawBytes 48).2 (fun _ => true) 5 code data).fields
    refine ⟨_, rfl, ?_⟩
    rw [he]
    exact ⟨hlink, hmode, hdowns, State.event_mem .., State.event_pods .., State.event_roce ..⟩
  · have h0 : rxCounted b.length s = s0 := hs0.symm
    have hx : exec (.hostFrameReceive b) s = _ := congrArg Host.Outcome.next (hostFrameReceive_checks hl ha)
    rw [hx, h0]
    refine ⟨fun hf => ?_, fun hf hn => ?_, fun hf hn hm => ?_, fun hf hn hm => ?_⟩
    · rw [if_pos hf]
      obtain ⟨-, -, hrx, -, hfcs⟩ := (sameButTx_fire (s0.modHp (fun c => { c with fcsErr := sat32 c.fcsErr 1 })) 0x0B 0 0 false).fields
      refine ⟨_, rfl, hfcs.trans ?_, hrx.trans ?_, (State.fire_mem ..).trans ?_⟩ <;> (rw [hs0]; rfl)
    · rw [if_neg (not_not.2 hf), if_pos hn, hs0]
      rfl
    · rw [if_neg (not_not.2 hf), if_neg (by omega), if_pos (by rw [hm]; rfl), hs0]
      rfl
    · rw [if_neg (not_not.2 hf), if_neg (by omega), if_neg (by rw [hm]; decide)]
  · exact congrArg Host.Outcome.next (pfcPauseReceive_enabled pause hl he)
  · refine ⟨_, congrArg Host.Outcome.next ((pfcPauseReceive_enabled pause hl he).trans (State.drainTx_nil hq)), ?_, fun q hne => ?_, rfl⟩
    · exact (getLsbD_putBit _ _ _ p.isLt).trans (if_pos rfl)
    · exact (getLsbD_putBit _ _ _ p.isLt).trans (if_neg (fun h => hne (Fin.ext h)))
  · exact congrArg Host.Outcome.next (if_neg (by rw [he, Bool.and_false]; decide))

end Sys2Proof.Machine

namespace Sys2Proof.Machine
open Sys2Proof

/-! Queue pairs read after a change (R53 to R55). -/

@[simp] theorem State.qp_putQp_self (s : State) (n : Nat) (q : Qp) : (s.putQp n q).qp n = some q := Tbl.find_put_self _ _ _

theorem State.qp_putQp_ne (s : State) {n k : Nat} (q : Qp) (h : k ≠ n) : (s.putQp n q).qp k = s.qp k := Tbl.find_put_ne _ _ h

theorem State.modQp_some {s : State} {n : Nat} {q : Qp} (g : Qp → Qp) (h : s.qp n = some q) : s.modQp n g = s.putQp n (g q) := by
  unfold State.modQp
  rw [h]

theorem State.qp_congr {s u : State} (h : u.roce = s.roce) (n : Nat) : u.qp n = s.qp n := congrArg (fun r : Roce => r.qps.find n) h

theorem sameCore.roce {s u : State} (h : sameCore s u) : u.roce = s.roce := by
  obtain ⟨_, _, _, _, hr, _⟩ := h
  exact hr

theorem sameCore.pods {s u : State} (h : sameCore s u) : u.pods = s.pods := by
  obtain ⟨_, _, _, _, _, hp, _⟩ := h
  exact hp

theorem sameCore.disp {s u : State} (h : sameCore s u) : u.disp = s.disp := by
  obtain ⟨_, _, _, _, _, _, hd, _⟩ := h
  exact hd

/-- A state has the queue pairs of another but for one, and its Pods and Dispatcher. -/
def sameButQp (n : Nat) (s u : State) : Prop := (∀ k, k ≠ n → u.qp k = s.qp k) ∧ u.pods = s.pods ∧ u.disp = s.disp

theorem sameButQp.trans {n : Nat} {s u v : State} (h : sameButQp n s u) (k : sameButQp n u v) : sameButQp n s v := by
  obtain ⟨hq, hp, hd⟩ := h
  obtain ⟨kq, kp, kd⟩ := k
  exact ⟨fun j hj => (kq j hj).trans (hq j hj), kp.trans hp, kd.trans hd⟩

theorem sameButQp_putQp (n : Nat) (s : State) (q : Qp) : sameButQp n s (s.putQp n q) := ⟨fun _ hk => s.qp_putQp_ne q hk, rfl, rfl⟩

theorem sameCore.sameButQp {s u : State} (h : sameCore s u) (n : Nat) : sameButQp n s u := ⟨fun k _ => State.qp_congr h.roce k, h.pods, h.disp⟩

/-! A queue pair flushed (R54, R57). -/

theorem sameCore_posted (q : Qp) (n k : Nat) (s : State) : sameCore s (posted q n k s).2 := by
  induction n generalizing k s with
  | zero => exact sameCore.refl _
  | succ n ih => exact (sameCore_memRead ..).trans (ih _ _)

/-- What was posted to a queue pair and not taken adds to what it holds, and its count taken moves on. -/
theorem flushPosted_spec {n : Nat} {s : State} {q : Qp} (h : s.qp n = some q) : ∃ k l,
    (flushPosted n s).qp n = some { q with taken := k, held := q.held ++ l } ∧ sameButQp n s (flushPosted n s) := by
  have hself : some q = some { q with taken := q.taken, held := q.held ++ [] } := by rw [List.append_nil]
  unfold flushPosted
  rw [h]
  dsimp only
  split_ifs
  · exact ⟨q.taken, [], h.trans hself, fun _ _ => rfl, rfl, rfl⟩
  · have hr := sameCore_memRead q.ctx q.prodAddr 4 false s
    split
    · rename_i e s' hm
      rw [hm] at hr
      exact ⟨q.taken, [], (State.qp_congr hr.roce n).trans (h.trans hself), hr.sameButQp n⟩
    · rename_i b s' hm
      rw [hm] at hr
      have hp := hr.trans (sameCore_posted q (min ((le b + 2 ^ 32 - q.taken) % 2 ^ 32) q.sqEntries) q.taken s')
      split_ifs
      · exact ⟨q.taken, [], (State.qp_congr hp.roce n).trans (h.trans hself), hp.sameButQp n⟩
      · refine ⟨_, _, (State.qp_congr (sameCore_writeDropped ..).roce n).trans (State.qp_putQp_self ..), ?_⟩
        exact ((hp.sameButQp n).trans (sameButQp_putQp ..)).trans ((sameCore_writeDropped ..).sameButQp n)

/-- The completions with which a queue pair's outstanding requests are flushed. -/
def Qp.flushed (q : Qp) : List WorkDone := q.outstanding.flatMap (fun w => w.done 0 stState 0x0F05)

/-- A queue pair that enters ERROR holds the completions of its outstanding requests, and after them of those posted. -/
theorem qpError_spec {n : Nat} {s : State} {q : Qp} (h : s.qp n = some q) : ∃ k l,
    (qpError n s).qp n = some { q with state := .error, outstanding := [], taken := k, held := q.held ++ q.flushed ++ l } ∧
      (q.state ≠ .rts → l = []) ∧ sameButQp n s (qpError n s) := by
  have hput : (s.putQp n { q with state := .error, outstanding := [], held := q.held ++ q.flushed }).qp n =
      some { q with state := .error, outstanding := [], held := q.held ++ q.flushed } := State.qp_putQp_self ..
  unfold qpError
  rw [h]
  dsimp only
  split_ifs with hr
  · obtain ⟨k, l, hq, hs⟩ := flushPosted_spec hput
    exact ⟨k, l, hq, fun hn => absurd hr hn, (sameButQp_putQp ..).trans hs⟩
  · exact ⟨q.taken, [], hput.trans (by rw [List.append_nil]), fun _ => rfl, sameButQp_putQp ..⟩

/-! What the Host Port sends and buffers leaves the rest of the state (R46). -/

/-- A state is as another but for the Host Port and what is sent. -/
def sameButHost (s u : State) : Prop := { u with host := s.host, sent := s.sent } = s

theorem sameButHost.refl (s : State) : sameButHost s s := rfl

theorem sameButHost.trans {s u v : State} (h : sameButHost s u) (k : sameButHost u v) : sameButHost s v := by
  unfold sameButHost at *
  rw [← k] at h
  exact h

theorem sameButHost.roce {s u : State} (h : sameButHost s u) : u.roce = s.roce := congrArg (fun v => v.roce) (show _ = s from h)
theorem sameButHost.pods {s u : State} (h : sameButHost s u) : u.pods = s.pods := congrArg (fun v => v.pods) (show _ = s from h)
theorem sameButHost.disp {s u : State} (h : sameButHost s u) : u.disp = s.disp := congrArg (fun v => v.disp) (show _ = s from h)
theorem sameButHost.mem {s u : State} (h : sameButHost s u) : u.mem = s.mem := congrArg (fun v => v.mem) (show _ = s from h)

theorem sameButHost.sameButQp {s u : State} (h : sameButHost s u) (n : Nat) : sameButQp n s u :=
  ⟨fun k _ => State.qp_congr h.roce k, h.pods, h.disp⟩

theorem sameButHost_sendPfc (s : State) (p : Nat) (b : Bool) : sameButHost s (s.sendPfc p b) := by cases b <;> rfl

theorem sameButHost_flowOne (s : State) (p : Nat) : sameButHost s (s.flowOne p) := by
  unfold State.flowOne
  split_ifs
  · exact sameButHost.refl _
  · exact sameButHost_sendPfc ..
  · exact sameButHost_sendPfc ..
  · exact sameButHost.refl _

theorem sameButHost_flowControl (s : State) : sameButHost s s.flowControl :=
  foldl_invariant (P := sameButHost s) (fun _ p h => h.trans (sameButHost_flowOne _ p)) _ s (sameButHost.refl s)

/-- A state whose Host Port alone differs. -/
theorem sameButHost_host (s : State) (h : HostPort) : sameButHost s { s with host := h } := rfl

theorem sameButHost_unbufferRoce (s : State) (p k n : Nat) : sameButHost s (s.unbufferRoce p k n) := by
  unfold State.unbufferRoce
  exact (sameButHost_host s _).trans (sameButHost_flowControl _)

/-- A stopped request that leaves its queue leaves the queue pairs. -/
theorem unstop_keeps (r : RoceReq) (s : State) : (unstop r s).roce.qps = s.roce.qps ∧ (unstop r s).roce.mrs = s.roce.mrs ∧
    (unstop r s).pods = s.pods ∧ (unstop r s).disp = s.disp := by
  have h := sameButHost_unbufferRoce { s with roce := { s.roce with stopped := s.roce.stopped.erase r } } r.prio
    (s.framesOf r.prio (s.roce.stopped.takeWhile (fun x => x != r))) (s.reqFrames r)
  exact ⟨congrArg (fun x => x.qps) h.roce, congrArg (fun x => x.mrs) h.roce, h.pods, h.disp⟩

/-- The state in which the stopped requests of a queue pair have left. -/
def unstopAll (n : Nat) (s : State) : State := (s.roce.stopped.filter (fun r => r.qpn == n)).foldl (fun a r => unstop r a) s

theorem unstopAll_keeps (n : Nat) (s : State) : (unstopAll n s).roce.qps = s.roce.qps ∧ (unstopAll n s).pods = s.pods ∧
    (unstopAll n s).disp = s.disp :=
  ⟨foldl_keeps (p := fun a : State => a.roce.qps) (fun a r => (unstop_keeps r a).1) _ s,
    foldl_keeps (p := State.pods) (fun a r => (unstop_keeps r a).2.2.1) _ s, foldl_keeps (p := State.disp) (fun a r => (unstop_keeps r a).2.2.2) _ s⟩

/-- A queue pair that is destroyed is in ERROR, marked and unbound, and holds the completions of its outstanding requests. -/
theorem qpGo_spec {n : Nat} {s : State} {q : Qp} (h : s.qp n = some q) : ∃ k l,
    (qpGo n s).qp n = some { q with state := .error, outstanding := [], taken := k, held := q.held ++ q.flushed ++ l, destroying := true, ingress := none } ∧
      (q.state ≠ .rts → l = []) ∧ sameButQp n s (qpGo n s) := by
  obtain ⟨hqps, hpods, hdisp⟩ := unstopAll_keeps n s
  have hqp : ∀ k, (unstopAll n s).qp k = s.qp k := fun k => congrArg (fun t => Tbl.find t k) hqps
  obtain ⟨k, l, hq, hl, hs⟩ := qpError_spec ((hqp n).trans h)
  have hgo : qpGo n s = (qpError n (unstopAll n s)).putQp n _ := State.modQp_some (fun q => { q with destroying := true, ingress := none }) hq
  rw [hgo]
  refine ⟨k, l, State.qp_putQp_self .., hl, ?_⟩
  exact sameButQp.trans (u := unstopAll n s) ⟨fun k _ => hqp k, hpods, hdisp⟩ (hs.trans (sameButQp_putQp ..))

/-! The source address of a queue pair (R54). -/

/-- The element with the least key is in the list, and no key lies below it. -/
theorem minBy_spec {α : Type} (key : α → Nat) (l : List α) {y : α} (hy : y ∈ l) : ∃ z, minBy key l = some z ∧ z ∈ l ∧ key z ≤ key y := by
  induction l generalizing y with
  | nil => cases hy
  | cons x t ih =>
    unfold minBy
    cases t with
    | nil =>
      obtain rfl : y = x := by simpa using hy
      exact ⟨y, rfl, hy, le_rfl⟩
    | cons a t =>
      obtain ⟨m, hm, hmem, hle⟩ := ih (y := a) (by simp)
      rw [hm]
      dsimp only
      have hmin : ∀ y ∈ a :: t, key m ≤ key y := fun y hy => by
        obtain ⟨m', hm', -, h'⟩ := ih hy
        cases hm.symm.trans hm'
        exact h'
      split_ifs with hx
      · refine ⟨x, rfl, by simp, ?_⟩
        rcases List.mem_cons.1 hy with rfl | hy
        · exact le_rfl
        · exact hx.trans (hmin y hy)
      · refine ⟨m, rfl, List.mem_cons_of_mem _ hmem, ?_⟩
        rcases List.mem_cons.1 hy with rfl | hy
        · omega
        · exact hmin y hy

/-- Of the configured addresses whose prefix covers a peer the one with the longest is taken. -/
theorem sourceFor_longest {s : State} {ip : Nat} {y : V6Addr} (hl : isLinkLocal ip = false) (h4 : v4Of ip = none) (hy : y ∈ s.host.v6Addrs)
    (hc : covers 128 y.addr y.plen ip = true) (hp : y.plen ≤ 128) :
    ∃ z, z ∈ s.host.v6Addrs ∧ covers 128 z.addr z.plen ip = true ∧ y.plen ≤ z.plen ∧ s.sourceFor ip = some z.addr := by
  obtain ⟨z, hz, hmem, hle⟩ := minBy_spec (fun x : V6Addr => 128 - x.plen) (s.host.v6Addrs.filter (fun x => covers 128 x.addr x.plen ip))
    (List.mem_filter.2 ⟨hy, hc⟩)
  obtain ⟨hm, hzc⟩ := List.mem_filter.1 hmem
  refine ⟨z, hm, hzc, by omega, ?_⟩
  unfold State.sourceFor
  rw [if_neg (by rw [hl]; decide), h4]
  dsimp only
  rw [hz]

@[simp] theorem seen_roce (f : Frame) (s : State) : (seen f s).roce = s.roce := State.modSession_roce ..
@[simp] theorem seen_mem (f : Frame) (s : State) : (seen f s).mem = s.mem := State.modSession_mem ..
@[simp] theorem seen_pods (f : Frame) (s : State) : (seen f s).pods = s.pods := State.modSession_pods ..
@[simp] theorem seen_disp (f : Frame) (s : State) : (seen f s).disp = s.disp := State.modSession_disp ..

theorem seen_qp (f : Frame) (s : State) (n : Nat) : (seen f s).qp n = s.qp n := State.qp_congr (seen_roce f s) n

theorem sameButQp_seen (f : Frame) (s : State) (n : Nat) : sameButQp n s (seen f s) := ⟨fun k _ => seen_qp f s k, seen_pods f s, seen_disp f s⟩

/-! The commands (R53 to R55, R58). -/

/-- The number that a QP_CREATE chooses less 2, and the state once it is drawn. -/
def qpFresh (s : State) : Nat × State := s.fresh (fun k => (s.roce.qps.find (k + 2)).isSome) (2 ^ 24 - 2) s.roce.qps.length

/-- The number is one that no queue pair has. -/
theorem qpFresh_spec {s : State} (h : s.roce.qps.length < 4096) : (qpFresh s).1 + 2 < 2 ^ 24 ∧ s.qp ((qpFresh s).1 + 2) = none := by
  have hlt : (qpFresh s).1 < 2 ^ 24 - 2 := nextFree_lt _ (by decide) _ _
  have hkeys : ∀ k, k < 2 ^ 24 - 2 → (s.roce.qps.find (k + 2)).isSome = true → k ∈ s.roce.qps.keys.map (· - 2) := fun k _ hk =>
    List.mem_map.2 ⟨k + 2, mem_keys_of_find hk, rfl⟩
  have hfree : (s.roce.qps.find ((qpFresh s).1 + 2)).isSome = false :=
    nextFree_not_taken (fun k => (s.roce.qps.find (k + 2)).isSome) hkeys (by simp only [List.length_map, Tbl.keys]; exact le_rfl) (by omega)
  rw [Option.isSome_eq_false_iff, Option.isNone_iff_eq_none] at hfree
  exact ⟨by omega, hfree⟩

/-- A QP_CREATE that passes its table leaves room for a queue pair. -/
theorem qpCreateFails_passed {f : Frame} {x : Session} {s : State} (h : passes (qpCreateFails f x s) = true) : s.roce.qps.length < 4096 := by
  have hrow := (passes_iff _).1 h (decide (s.roce.qps.length ≥ 4096), err0 stLimit) (by simp [qpCreateFails])
  simpa using hrow

/-- The key that an MR_REGISTER chooses less 1, and the state once it is drawn. -/
def mrFresh (s : State) : Nat × State :=
  s.fresh (fun k => (s.roce.mrs.find (k + 1)).isSome || s.roce.issued.contains (k + 1)) (2 ^ 32 - 1) (s.roce.mrs.length + s.roce.issued.length)

theorem mrFresh_lt (s : State) : (mrFresh s).1 + 1 < 2 ^ 32 := by
  have hlt : (mrFresh s).1 < 2 ^ 32 - 1 := nextFree_lt _ (by decide) _ _
  omega

/-- Where not every key names a region or has been issued lately, the key does neither. -/
theorem mrFresh_spec {s : State} (h : s.roce.mrs.length + s.roce.issued.length < 2 ^ 32 - 1) :
    s.roce.mrs.find ((mrFresh s).1 + 1) = none ∧ s.roce.issued.contains ((mrFresh s).1 + 1) = false := by
  have hkeys : ∀ k, k < 2 ^ 32 - 1 → ((s.roce.mrs.find (k + 1)).isSome || s.roce.issued.contains (k + 1)) = true →
      k ∈ (s.roce.mrs.keys ++ s.roce.issued).map (· - 1) := by
    intro k _ hk
    refine List.mem_map.2 ⟨k + 1, List.mem_append.2 ?_, rfl⟩
    rcases Bool.or_eq_true_iff.1 hk with hk | hk
    · exact .inl (mem_keys_of_find hk)
    · exact .inr (List.contains_iff_mem.1 hk)
  have hfree : ((s.roce.mrs.find ((mrFresh s).1 + 1)).isSome || s.roce.issued.contains ((mrFresh s).1 + 1)) = false :=
    nextFree_not_taken (fun k => (s.roce.mrs.find (k + 1)).isSome || s.roce.issued.contains (k + 1)) hkeys
      (by simp only [List.length_map, List.length_append, Tbl.keys]; exact le_rfl) h
  rw [Bool.or_eq_false_iff, Option.isSome_eq_false_iff, Option.isNone_iff_eq_none] at hfree
  exact hfree

/-- A handler that leaves its accepted command in flight. -/
theorem rcpRun_wait {op : Nat} {f : Frame} {s : State} {x : Session} {hd : Handler} {w : Wait} {v : State} (h : accepted op f s x = true)
    (hh : hd f f.sessionId.toNat (heard s x) (seen f s) = .wait w v) : rcpRun op hd f s = frameInFlight f op w v := by
  rw [rcpRun_accepted hd h]
  unfold rcpExecute
  unfold heard at hh
  rw [hh]

/-- Whether a queue pair that is there holds no completion. -/
theorem holdsNone_of_qp {s : State} {n : Nat} {r : Qp} (h : s.qp n = some r) : ((s.qp n).map (fun q => q.held.isEmpty)).getD true = r.held.isEmpty := by
  rw [h]
  rfl

/-- Settles O10, by what each command's handler does once it has passed its table. -/
theorem queuePairAndRegionCommands : Obligations.QueuePairAndRegionCommands := by
  intro f s x p
  refine ⟨fun ha hp => ?_, fun ha hp q hq => ⟨fun ht => ?_, fun ht => ?_, fun ht => ?_⟩, fun ip => ⟨fun hl => if_pos hl, fun a hl h4 hv => ?_,
    fun y hl h4 hy hc hlen => sourceFor_longest hl h4 hy hc hlen⟩, fun ha hp q hq => ?_, fun ha hp => ?_, fun ha hp => ?_⟩
  · have hroom := qpCreateFails_passed hp
    obtain ⟨hlt, hnew⟩ := qpFresh_spec hroom
    refine ⟨(qpFresh (seen f s)).1 + 2, _, _, congrArg Host.Outcome.next (rcpRun_ok ha (Reply.check_of_passes _ _ hp)), by omega, hlt,
      (seen_qp ..).symm.trans hnew, State.qp_putQp_self .., rfl, rfl, rfl, rfl, rfl, rfl, rfl, rfl, rfl, rfl, rfl, fun k hk => ?_, seen_mem f s,
      seen_disp f s, seen_pods f s⟩
    exact (State.qp_putQp_ne _ _ hk).trans (seen_qp f s k)
  · refine congrArg Host.Outcome.next (rcpRun_ok ha ((Reply.check_of_passes _ _ hp).trans ((if_pos (beq_iff_eq.2 ht)).trans ?_)))
    exact congrArg (Reply.ok []) (State.modQp_some _ ((seen_qp ..).trans hq))
  · refine congrArg Host.Outcome.next (rcpRun_ok ha ((Reply.check_of_passes _ _ hp).trans
      ((if_neg (by simp [p] at ht; simp [ht])).trans ((if_pos (beq_iff_eq.2 ht)).trans ?_))))
    exact congrArg (Reply.ok []) (State.modQp_some _ ((seen_qp ..).trans hq))
  · obtain ⟨k, l, hr, -, hk, hpods, hdisp⟩ := qpError_spec ((seen_qp f s (fld p 0 4)).trans hq)
    refine ⟨_, _, congrArg Host.Outcome.next (rcpRun_ok ha ((Reply.check_of_passes _ _ hp).trans
      ((if_neg (by simp [p] at ht; simp [ht])).trans (if_neg (by simp [p] at ht; simp [ht]))))), hr, rfl, rfl, List.prefix_append _ _,
      fun k hne => (hk k hne).trans (seen_qp ..), hpods.trans (seen_pods ..), hdisp.trans (seen_disp ..)⟩
  · unfold State.sourceFor
    rw [if_neg (by rw [hl]; decide), h4]
    exact if_pos hv
  · obtain ⟨k, l, hr, hl, hs⟩ := qpGo_spec ((seen_qp f s (fld p 0 4)).trans hq)
    obtain ⟨hqps, -, -⟩ := (sameButQp_seen f s (fld p 0 4)).trans hs
    refine ⟨_, _, rfl, hr, rfl, rfl, rfl, List.prefix_append _ _, fun hn ho => ?_, hqps, fun hh => ?_, fun hh => ?_⟩
    · simp only [hl hn, Qp.flushed, ho, List.flatMap_nil, List.append_nil]
    · exact congrArg Host.Outcome.next (rcpRun_ok ha ((Reply.check_of_passes _ _ hp).trans (if_pos (by rw [holdsNone_of_qp hr, hh]; rfl))))
    · exact congrArg Host.Outcome.next (rcpRun_wait ha ((Reply.check_of_passes _ _ hp).trans
        (if_neg (by rw [holdsNone_of_qp hr, List.isEmpty_iff]; exact hh))))
  · refine ⟨(mrFresh (seen f s)).1 + 1, _, congrArg Host.Outcome.next (rcpRun_ok ha (Reply.check_of_passes _ _ hp)), by omega, mrFresh_lt _,
      Tbl.find_put_self _ _ _, fun j hj => ?_, (show (seen f s).roce.qps = s.roce.qps from by rw [seen_roce]), seen_mem f s, fun hroom => ?_⟩
    · exact (Tbl.find_put_ne _ _ hj).trans (congrArg (fun r : Roce => r.mrs.find j) (seen_roce f s))
    · rw [← seen_roce f s] at hroom ⊢
      exact mrFresh_spec hroom
  · refine congrArg Host.Outcome.next (rcpRun_ok ha ((Reply.check_of_passes _ _ hp).trans ?_))
    rw [seen_roce]

end Sys2Proof.Machine

namespace Sys2Proof.Machine
open Sys2Proof

/-! What the Host Port sends of a queue pair leaves everything but the port (R46, R49). -/

theorem sameButHost_roceSend (s : State) (n : Nat) (q : Qp) (k : Nat) (o : RoceOut) : sameButHost s (roceSend s n q k o) := by
  unfold roceSend
  split
  · exact sameButHost.refl _
  · by_cases hl : s.linkUp = true
    · rw [if_pos hl]
      exact (State.hostSend_rest ..).1
    · rw [if_neg hl]
      exact sameButHost.refl _

theorem sameButHost_leaveBuffer (s : State) (prio n : Nat) : sameButHost s (s.leaveBuffer prio n) := sameButHost_unbufferRoce ..

theorem sameButHost_noticeCe (n : Nat) (q : Qp) (ce : Bool) (s : State) : sameButHost s (noticeCe n q ce s) := by
  cases ce
  · exact sameButHost.refl _
  · exact sameButHost_roceSend ..

theorem sameButHost.qp {s u : State} (h : sameButHost s u) (n : Nat) : u.qp n = s.qp n := State.qp_congr h.roce n

/-! Inbound requests (R49, R51). -/

/-- A request that nothing is bound to take is performed as it comes, and its frames leave the buffer. -/
theorem roceInbound_unbound {r : RoceReq} {s : State} {q : Qp} (hq : s.qp r.qpn = some q) (hl : s.linkUp = true) (ha : s.hostActive = true)
    (hs : q.state = .rtr ∨ q.state = .rts) (hi : q.ingress = none) (hp : r.psn = q.rqPsn) (hc : r.ce = false) :
    roceInbound r s = ((performReq r.qpn q r s).2).unbufferRoce r.prio (s.framesOf r.prio s.roce.stopped) (s.reqFrames r) := by
  have hlive : (q.state != .rtr && q.state != .rts) = false := by rcases hs with h | h <;> rw [h] <;> rfl
  have htake : takeReq r.qpn r s = performReq r.qpn q r s := by
    unfold takeReq
    rw [hq]
    exact if_pos hp
  unfold roceInbound
  rw [hl, ha, hq]
  simp only [Bool.not_true, Bool.or_self, Bool.false_eq_true, if_false, hlive, hi, hc, noticeCe, htake]

/-- A WRITE that its key does not grant is answered with an access NAK. -/
theorem performReq_write_denied {n : Nat} {q : Qp} {r : RoceReq} {s : State} (ho : r.op = .write)
    (hg : mrGrants s q.ctx r.rkey r.addr r.length 1 = false) : (performReq n q r s).2 = roceSend s n q 0 (.nakAccess r.psn) := by
  unfold performReq
  rw [ho]
  simp only [hg, Bool.not_false, if_true]

/-- A READ that its key does not grant is answered with an access NAK. -/
theorem performReq_read_denied {n : Nat} {q : Qp} {r : RoceReq} {s : State} (ho : r.op = .read)
    (hg : mrGrants s q.ctx r.rkey r.addr r.length 0 = false) : (performReq n q r s).2 = roceSend s n q 0 (.nakAccess r.psn) := by
  unfold performReq
  rw [ho]
  simp only [hg, Bool.not_false, if_true]

/-- An operation that the responder does not know is answered with an invalid-request NAK. -/
theorem performReq_other {n : Nat} {q : Qp} {r : RoceReq} {s : State} (ho : r.op = .other) :
    (performReq n q r s).2 = roceSend s n q 0 (.nakInvalid r.psn) := by
  unfold performReq
  rw [ho]

/-- A WRITE that its key grants and memory takes is acknowledged. -/
theorem performReq_write {n : Nat} {q : Qp} {r : RoceReq} {s s1 : State} (ho : r.op = .write)
    (hg : mrGrants s q.ctx r.rkey r.addr r.length 1 = true) (hw : Io.exec (memWrite q.ctx r.addr r.data) s = (.ok (), s1)) :
    (performReq n q r s).2 = answerReq n q r 0 (.ack r.psn) s1 := by
  unfold performReq
  rw [ho]
  simp only [hg, Bool.not_true, Bool.false_eq_true, if_false, hw]

/-- A READ that its key grants and memory gives is answered with its data. -/
theorem performReq_read {n : Nat} {q : Qp} {r : RoceReq} {s s1 : State} {d : List Byte} (ho : r.op = .read)
    (hg : mrGrants s q.ctx r.rkey r.addr r.length 0 = true) (hr : Io.exec (memRead q.ctx r.addr r.length) s = (.ok d, s1)) :
    (performReq n q r s).2 = answerReq n q r d.length (.readData r.psn d) s1 := by
  unfold performReq
  rw [ho]
  simp only [hg, Bool.not_true, Bool.false_eq_true, if_false, hr]

/-! Work requests (R56, R57). -/

/-- The oldest outstanding request completes and gives what it holds. -/
theorem qpDone_some {n : Nat} {s : State} {q : Qp} {w : WorkReq} {l : List WorkReq} (h : s.qp n = some q) (ho : q.outstanding = w :: l) :
    qpDone n s = s.putQp n { q with
      outstanding := l, held := q.held ++ w.done w.length stOk 0, retriesLeft := q.retry, rnrLeft := q.rnrRetry } := by
  refine (State.modQp_some _ h).trans ?_
  rw [ho]

/-- A queue pair whose oldest request fails is in ERROR with nothing outstanding, and holds that request's completion after what it held. -/
theorem qpFail_spec {n : Nat} {s : State} {q : Qp} {w : WorkReq} {l : List WorkReq} (h : s.qp n = some q) (ho : q.outstanding = w :: l)
    (b st d : Nat) : ∃ r, (qpFail n b st d s).qp n = some r ∧ r.state = .error ∧ r.outstanding = [] ∧ (q.held ++ w.done b st d) <+: r.held := by
  have hfail : qpFail n b st d s = qpError n (s.putQp n { q with outstanding := l, held := q.held ++ w.done b st d }) := by
    unfold qpFail
    rw [h]
    dsimp only
    rw [ho]
  obtain ⟨k, m, hr, -, -⟩ := qpError_spec (State.qp_putQp_self s n { q with outstanding := l, held := q.held ++ w.done b st d })
  refine ⟨_, (congrArg (fun u : State => u.qp n) hfail).trans hr, rfl, rfl, ?_⟩
  rw [List.append_assoc (q.held ++ w.done b st d)]
  exact List.prefix_append ..

/-- The request that is posted and next in ring order, taken where none is outstanding. -/
theorem sqPoll_takes {n : Nat} {s s1 s2 : State} {q : Qp} {b e : List Byte} (hq : s.qp n = some q) (ha : s.hostActive = true)
    (hs : q.state = .rts) (he : q.sqEntries ≠ 0) (hh : q.held = []) (hd : q.destroying = false) (hp : s.paused q.prio = false)
    (ho : q.outstanding = []) (hb : Io.exec (memRead q.ctx q.prodAddr 4) s = (.ok b, s1)) (hk : le b ≠ q.taken)
    (hr : Io.exec (memRead q.ctx (q.sqAddr + q.taken % q.sqEntries * 64) 64) s1 = (.ok e, s2)) :
    sqPoll n s = (match takeFails q (workReq q.taken q.sqPsn e) (.ok e) s2 with
      | some (st, d) => qpFail n 0 st d
      | none => sendWork n (workReq q.taken q.sqPsn e)) ((s2.putQp n { q with
        taken := (q.taken + 1) % 2 ^ 32, outstanding := [workReq q.taken q.sqPsn e],
        sqPsn := (q.sqPsn + psnCount q.mtu (fld e 0x10 8)) % 2 ^ 24 }).writeDropped q.ctx q.consAddr (leb 4 ((q.taken + 1) % 2 ^ 32))) := by
  unfold sqPoll
  rw [hq]
  simp only [ha, hh, hd, hs, hp, ho, hb, hk, hr, beq_eq_false_iff_ne.2 he, Bool.not_true, List.isEmpty_nil, Bool.or_self, Bool.false_eq_true,
    if_false, reduceCtorEq, bne_self_eq_false, Bool.and_false, List.filter_nil, List.length_nil, Except.toOption, Option.getD_some,
    ge_iff_le, Nat.le_zero_eq, OfNat.ofNat_ne_zero, decide_false, List.nil_append]
  split <;> rename_i h <;> simp only [h] <;> rfl

/-- A response to a queue pair in RTS is taken by its oldest request, once its frames have left the buffer and a congestion notice is sent. -/
theorem roceResponse_takes {n : Nat} {s : State} {q : Qp} {w : WorkReq} {l : List WorkReq} (hq : s.qp n = some q) (ha : s.hostActive = true)
    (hl : s.linkUp = true) (hs : q.state = .rts) (ho : q.outstanding = w :: l) (r : RoceResp) (ce : Bool) (prio : Nat) :
    roceResponse n r ce prio s = takeRoceResp n q w r (noticeCe n q ce (s.leaveBuffer prio (respFrames (some q) r))) := by
  have hleft : (s.leaveBuffer prio (respFrames (some q) r)).qp n = some q := ((sameButHost_leaveBuffer ..).qp n).trans hq
  unfold roceResponse
  rw [hl, ha, hq]
  simp only [hleft, hs, ho, Bool.not_true, Bool.or_self, Bool.false_eq_true, if_false, bne_self_eq_false]

/-- The data of a READ that memory takes completes it. -/
theorem takeRoceResp_read {n : Nat} {q : Qp} {w : WorkReq} {s s2 : State} {d : List Byte} (hop : w.opcode = 2) (hd : d.length = w.length)
    (hw : Io.exec (memWrite q.ctx w.localAddr d) s = (.ok (), s2)) : takeRoceResp n q w (.readData d) s = qpDone n s2 := by
  unfold takeRoceResp
  dsimp only
  rw [if_pos ⟨hop, hd⟩, hw]

/-- An acknowledgment timeout sends the oldest request of a queue pair in RTS again. -/
theorem roceAckTimeout_resends {n : Nat} {s : State} {q : Qp} {w : WorkReq} {l : List WorkReq} (hq : s.qp n = some q)
    (ha : s.hostActive = true) (hs : q.state = .rts) (ho : q.outstanding = w :: l) : roceAckTimeout n s = resend n q w s := by
  unfold roceAckTimeout
  rw [hq]
  simp only [ha, hs, ho, Bool.not_true, bne_self_eq_false, Bool.or_self, Bool.false_eq_true, if_false]

/-! Items of queue pairs that enter their flows (R48, R57, R181). -/

@[simp] theorem Flow.settle_gen (f : Flow) : f.settle.gen = f.gen := by
  unfold Flow.settle
  dsimp only
  split_ifs <;> rfl

@[simp] theorem Flow.push_gen (f : Flow) (i : Item) : (f.push i).gen = f.gen := Flow.settle_gen _

/-- A flow put where one of its generation was is the flow there. -/
theorem State.flow_putFlow_self {s : State} {fid : Nat} {f g : Flow} (h : s.flow fid = some f) (hg : g.gen = f.gen) :
    (s.putFlow fid g).flow fid = some g := by
  unfold State.flow at h ⊢
  unfold State.putFlow
  by_cases hk : fidKind fid = 0
  · rw [if_pos hk] at h
    rw [if_pos hk, if_pos hk]
    dsimp only
    rw [Tbl.find_put_self]
    split at h
    · cases h
    · split_ifs at h with hgen
      cases h
      exact if_pos (hg.trans hgen)
  · rw [if_neg hk] at h
    rw [if_neg hk, if_neg hk]
    split_ifs at h with hn
    · rw [if_pos hn]
      dsimp only
      rw [Tbl.find_put_self]
      rfl

theorem State.putFlow_roce (s : State) (fid : Nat) (f : Flow) : (s.putFlow fid f).roce = s.roce := by
  unfold State.putFlow
  split_ifs <;> rfl

/-- An item offered to a flow with room enters at its tail. -/
theorem State.offer_room {s : State} {fid : Nat} {f : Flow} (hf : s.flow fid = some f) (hr : f.full = false)
    (hc : ((s.mem.contexts.find f.ctx).map Ctx.destroying).getD false = false) (body : List Byte) (k i st p c : Nat) :
    s.offer fid body k i st p c = (.entered, s.putFlow fid (f.push ⟨padTo 40 body, k, i, fid, f.nextSeq, st, p, c, 0, s.ctl.now⟩)) := by
  unfold State.offer
  rw [hf]
  simp only [hc, hr, Bool.false_eq_true, if_false]

theorem State.hostActive_up {s : State} (h : s.hostActive = true) : s.up islHost = true := by
  unfold State.hostActive at h
  simp only [Bool.and_eq_true] at h
  exact h.1.1

/-- A queue pair that is not being destroyed stays as it is when its items settle. -/
theorem qpSettle_stays {n : Nat} {s : State} {q : Qp} (h : s.qp n = some q) (hd : q.destroying = false) : qpSettle n s = s := by
  unfold qpSettle
  rw [h]
  simp only [hd, Bool.false_and, Bool.false_eq_true, if_false]

/-- A held completion enters its flow once that has room. -/
theorem qpCompletionEnter_enters {n : Nat} {s : State} {q : Qp} {d : WorkDone} {l : List WorkDone} {f : Flow} (hq : s.qp n = some q)
    (ha : s.hostActive = true) (hh : q.held = d :: l) (hf : s.flow q.complFlow = some f) (hr : f.full = false) (hd : q.destroying = false)
    (hc : ((s.mem.contexts.find f.ctx).map Ctx.destroying).getD false = false) :
    qpCompletionEnter n s = (s.putFlow q.complFlow (f.push
      ⟨padTo 40 (d.body n), 8, n % 2 ^ 16, q.complFlow, f.nextSeq, 0, 0, 0, 0, s.ctl.now⟩)).putQp n { q with held := l } := by
  unfold qpCompletionEnter
  rw [hq]
  simp only [State.hostActive_up ha, Bool.not_true, Bool.false_eq_true, if_false, hh, State.offer_room hf hr hc]
  exact qpSettle_stays (State.qp_putQp_self ..) hd

/-- The 40 bytes of a SEND enter a flow with room as one item. -/
theorem sendItems_one {n fid k : Nat} {b : List Byte} {s : State} {f : Flow} (hb : b.length = 40) (hf : s.flow fid = some f)
    (hr : f.full = false) (hc : ((s.mem.contexts.find f.ctx).map Ctx.destroying).getD false = false) :
    sendItems n fid (k + 2) b s = ([], s.putFlow fid (f.push ⟨padTo 40 b, 0, n % 2 ^ 16, fid, f.nextSeq, 0, 0, 0, 0, s.ctl.now⟩)) := by
  have hne : b.isEmpty = false := by cases b <;> [cases hb; rfl]
  have htake : b.take 40 = b := List.take_of_length_le hb.le
  have hdrop : b.drop 40 = [] := List.drop_of_length_le hb.le
  simp only [sendItems, hne, htake, hdrop, State.offer_room hf hr hc, Bool.false_eq_true, if_false, List.isEmpty_nil, if_true]

/-- A stopped SEND of one item, first on its priority and of the number expected, enters its flow with room, is acknowledged and leaves. -/
theorem ingressResume_one {n fid p : Nat} {s : State} {q : Qp} {r : RoceReq} {f : Flow} (hq : s.qp n = some q) (ha : s.hostActive = true)
    (hn : s.roce.stopped.find? (fun y => y.qpn == n) = some r) (hp : s.roce.stopped.find? (fun y => y.prio == r.prio) = some r)
    (hk : r.psn = q.rqPsn) (ho : r.op = .send) (hl : r.length = 40) (hd : r.data.length = 40) (hi : q.ingress = some (fid, p))
    (hf : s.flow fid = some f) (hr : f.full = false) (hc : ((s.mem.contexts.find f.ctx).map Ctx.destroying).getD false = false) :
    ingressResume n s = unstop r (answerReq n q r 0 (.ack r.psn)
      (s.putFlow fid (f.push ⟨padTo 40 r.data, 0, n % 2 ^ 16, fid, f.nextSeq, 0, 0, 0, 0, s.ctl.now⟩))) := by
  have hperform : takeReq n r s = performReq n q r s := by
    unfold takeReq
    rw [hq]
    exact if_pos hk
  have hsize : ¬(r.length % 40 ≠ 0 ∨ r.length < 40 ∨ r.length > 64 * 40) := by omega
  have htake : performReq n q r s = (none, answerReq n q r 0 (.ack r.psn)
      (s.putFlow fid (f.push ⟨padTo 40 r.data, 0, n % 2 ^ 16, fid, f.nextSeq, 0, 0, 0, 0, s.ctl.now⟩))) := by
    unfold performReq
    rw [ho]
    simp only [hi, if_neg hsize, sendItems_one hd hf hr hc, List.isEmpty_nil, if_true]
  unfold ingressResume
  rw [hn]
  simp only [ha, hp, hperform, htake, Bool.not_true, bne_self_eq_false, Bool.or_self, Bool.false_eq_true, if_false]

/-- What a stopped request's leaving does to the stopped requests. -/
theorem unstop_stopped (r : RoceReq) (s : State) : (unstop r s).roce.stopped = s.roce.stopped.erase r :=
  congrArg Roce.stopped (sameButHost_unbufferRoce { s with roce := { s.roce with stopped := s.roce.stopped.erase r } } ..).roce

/-- An answered request leaves the Dispatcher and the stopped requests, and moves its queue pair's number on. -/
theorem answerReq_spec (n : Nat) (q : Qp) (r : RoceReq) (len : Nat) (o : RoceOut) (s : State) :
    (answerReq n q r len o s).qp n = some { q with rqPsn := (q.rqPsn + psnCount q.mtu r.length) % 2 ^ 24, nakSent := false } ∧
      (answerReq n q r len o s).disp = s.disp ∧ (answerReq n q r len o s).roce.stopped = s.roce.stopped := by
  have h : sameButHost _ (answerReq n q r len o s) := sameButHost_roceSend ..
  exact ⟨(h.qp n).trans (State.qp_putQp_self ..), h.disp, (congrArg Roce.stopped h.roce).trans rfl⟩

theorem State.flow_congr {s u : State} (h : u.disp = s.disp) (fid : Nat) : u.flow fid = s.flow fid := by
  unfold State.flow
  rw [h]

/-- Settles O11, by what each event of the responder and of a send queue does. -/
theorem roceRequestsAndWork : Obligations.RoceRequestsAndWork := by
  refine ⟨fun r s q hq hl ha hs hi hp hc => ?_, fun n s q hq ha => ⟨fun prio hl => ?_, ?_, fun w l hs ho => ⟨fun ce prio hl => ?_, fun hn => ?_,
    fun hz => ?_⟩, fun d l f hh hf hr hd hc => congrArg Host.Outcome.next (qpCompletionEnter_enters hq ha hh hf hr hd hc), ?_⟩⟩
  · have hin := roceInbound_unbound hq hl ha hs hi hp hc
    have hnak : ∀ o, sameButHost s ((roceSend s r.qpn q 0 o).unbufferRoce r.prio (s.framesOf r.prio s.roce.stopped) (s.reqFrames r)) := fun o =>
      (sameButHost_roceSend ..).trans (sameButHost_unbufferRoce ..)
    refine ⟨fun s1 ho hg hw => ?_, fun d s1 ho hg hr => ?_, fun hno => ?_, fun ho => ?_⟩
    · exact congrArg Host.Outcome.next (hin.trans (congrArg (State.unbufferRoce · _ _ _) (performReq_write ho hg hw)))
    · exact congrArg Host.Outcome.next (hin.trans (congrArg (State.unbufferRoce · _ _ _) (performReq_read ho hg hr)))
    · have hden : (performReq r.qpn q r s).2 = roceSend s r.qpn q 0 (.nakAccess r.psn) := by
        rcases hno with ⟨ho, hg⟩ | ⟨ho, hg⟩
        · exact performReq_write_denied ho hg
        · exact performReq_read_denied ho hg
      exact ⟨_, congrArg Host.Outcome.next (hin.trans (congrArg (State.unbufferRoce · _ _ _) hden)), rfl, (hnak _).mem, (hnak _).roce⟩
    · exact ⟨_, congrArg Host.Outcome.next (hin.trans (congrArg (State.unbufferRoce · _ _ _) (performReq_other ho))), rfl, (hnak _).mem,
        (hnak _).roce⟩
  · have hleft : (s.leaveBuffer prio 1).qp n = some q := ((sameButHost_leaveBuffer ..).qp n).trans hq
    refine congrArg Host.Outcome.next ((if_pos (by rw [hl, ha]; rfl)).trans (State.modQp_some _ hleft))
  · intro hs he hh hd hp ho b e s1 s2 hb hk hr w v hw hv
    have htake := sqPoll_takes hq ha hs he hh hd hp ho hb hk hr
    subst hw hv
    refine ⟨fun hbad => if_pos hbad, fun hn => congrArg Host.Outcome.next ?_, fun st d hf => congrArg Host.Outcome.next ?_⟩
    · rw [htake, hn]
    · rw [htake, hf]
  · have htake : ∀ a : RoceResp, roceResponse n a ce prio s = _ := fun a => roceResponse_takes hq ha hl hs ho a ce prio
    have hqp : ∀ k, (noticeCe n q ce (s.leaveBuffer prio k)).qp n = some q := fun k =>
      (((sameButHost_leaveBuffer s prio k).trans (sameButHost_noticeCe ..)).qp n).trans hq
    refine ⟨fun hop => ?_, fun d s2 hop hd hw => ?_, fun y hy => ?_, fun hr => ?_, fun h7 hr => ?_, fun h7 hr => ?_⟩
    · exact congrArg Host.Outcome.next ((htake .ack).trans ((if_neg hop).trans (qpDone_some (hqp 1) ho)))
    · have hcore := sameCore_memWrite q.ctx w.localAddr d false (noticeCe n q ce (s.leaveBuffer prio (psnCount q.mtu d.length)))
      rw [hw] at hcore
      exact congrArg Host.Outcome.next ((htake (.readData d)).trans ((takeRoceResp_read hop hd hw).trans
        (qpDone_some ((State.qp_congr hcore.roce n).trans (hqp _)) ho)))
    · obtain ⟨r, hf, he, hnone, hd⟩ := qpFail_spec (hqp 1) ho 0 stHw y.2
      have hgo : takeRoceResp n q w y.1 (noticeCe n q ce (s.leaveBuffer prio 1)) = qpFail n 0 stHw y.2 (noticeCe n q ce (s.leaveBuffer prio 1)) ∧
          respFrames (some q) y.1 = 1 := by
        rcases hy with _ | ⟨_, _ | ⟨_, _ | ⟨_, hy⟩⟩⟩ <;> [exact ⟨rfl, rfl⟩; exact ⟨rfl, rfl⟩; exact ⟨rfl, rfl⟩; cases hy]
      obtain ⟨hgo, hone⟩ := hgo
      have hrun := htake y.1
      rw [hone] at hrun
      exact ⟨_, r, congrArg Host.Outcome.next (hrun.trans hgo), hf, he, hnone, hd⟩
    · exact congrArg Host.Outcome.next ((htake .nakSequence).trans (if_neg hr))
    · exact congrArg Host.Outcome.next ((htake .rnr).trans ((if_neg h7).trans (if_neg hr)))
    · obtain ⟨r, hf, he, -, hd⟩ := qpFail_spec (hqp 1) ho 0 stHw 0x0F04
      exact ⟨_, r, congrArg Host.Outcome.next ((htake .rnr).trans ((if_neg h7).trans (if_pos hr))), hf, he, hd⟩
  · exact congrArg Host.Outcome.next ((roceAckTimeout_resends hq ha hs ho).trans (if_neg hn))
  · obtain ⟨r, hf, he, -, hd⟩ := qpFail_spec hq ho 0 stHw 0x0F04
    exact ⟨_, r, congrArg Host.Outcome.next ((roceAckTimeout_resends hq ha hs ho).trans (if_pos hz)), hf, he, hd⟩
  · intro r hn hp hk ho hl hd fid p f hi hf hr hc
    have hone := ingressResume_one hq ha hn hp hk ho hl hd hi hf hr hc
    obtain ⟨hqps, -, -, hdisp⟩ := unstop_keeps r (answerReq n q r 0 (.ack r.psn)
      (s.putFlow fid (f.push ⟨padTo 40 r.data, 0, n % 2 ^ 16, fid, f.nextSeq, 0, 0, 0, 0, s.ctl.now⟩)))
    obtain ⟨haq, had, has⟩ := answerReq_spec n q r 0 (.ack r.psn)
      (s.putFlow fid (f.push ⟨padTo 40 r.data, 0, n % 2 ^ 16, fid, f.nextSeq, 0, 0, 0, 0, s.ctl.now⟩))
    refine ⟨_, _, congrArg Host.Outcome.next hone, (congrArg (fun t => Tbl.find t n) hqps).trans haq, ?_, ?_, ?_⟩
    · rw [unstop_stopped, has, State.putFlow_roce]
    · rw [hl]
    · exact (State.flow_congr (hdisp.trans had) fid).trans (State.flow_putFlow_self hf (Flow.push_gen ..))

end Sys2Proof.Machine

namespace Sys2Proof.Machine
open Sys2Proof

/-! Asynchronous instructions that issue (R126, R130). -/

theorem mem_freeTags {th : Thread} {k : Nat} : k ∈ th.freeTags ↔ k < 8 ∧ nth th.tags .free k = .free := by
  unfold Thread.freeTags
  rw [List.mem_filter, List.mem_range, beq_iff_eq]

/-- With a tag free, the tag that a draw chooses is a free one. -/
theorem nextFree_freeTag {th : Thread} (h : th.freeTags ≠ []) (v : Nat) : nextFree (fun k => !th.freeTags.contains k) 8 8 v ∈ th.freeTags := by
  obtain ⟨k, hk⟩ := List.exists_mem_of_ne_nil _ h
  have hbusy : ∀ k, k < 8 → (!th.freeTags.contains k) = true → k ∈ (List.range 8).filter (fun k => !th.freeTags.contains k) := fun k hk hb =>
    List.mem_filter.2 ⟨List.mem_range.2 hk, hb⟩
  have hroom : ((List.range 8).filter (fun k => !th.freeTags.contains k)).length < 8 :=
    List.length_filter_lt_length_iff_exists.2 ⟨k, List.mem_range.2 (mem_freeTags.1 hk).1, by simp [hk]⟩
  have hfree : (!th.freeTags.contains (nextFree (fun k => !th.freeTags.contains k) 8 8 v)) = false :=
    nextFree_not_taken (fun k => !th.freeTags.contains k) hbusy (Nat.le_of_lt_succ hroom) (by decide)
  simpa using hfree

/-- An asynchronous operation that can issue takes a free tag and does its effect in the state in which that is taken. -/
theorem asyncIssue_ready {t record : Nat} {s v : State} (h : asyncReady t record s v) (w : Insn) (kind : Nat) (go : Issuer → State → State) :
    ∃ k, k < 8 ∧ nth (s.thread t).tags .free k = .free ∧
      asyncIssue t w record kind s go = .next (go (.pod t k record (s.thread t).epoch) (withTag t (insD w) k kind v)) := by
  obtain ⟨hal, hfr, htag, hst, hdr⟩ := h
  obtain ⟨hk, hfree⟩ := mem_freeTags.1 (nextFree_freeTag htag v.draw.1)
  refine ⟨_, hk, hfree, ?_⟩
  have hne : (s.thread t).freeTags.isEmpty = false := by rwa [← Bool.not_eq_true, List.isEmpty_iff]
  unfold asyncIssue withStores
  simp only [hal, hfr, hst, hdr, hne, ne_eq, not_true_eq_false, Bool.false_eq_true, if_false]
  rfl

/-- A row that issues with an effect after which its thread goes on. -/
theorem issue_next {r : Row} {t : Nat} {w : Insn} {s u : State} (h : issues r t w s = true) (hr : r.run t w (fetched t s) = .next u) :
    r.issue t w s = ended r t w (nextPc w (s.thread t).pc) s u := by
  rw [issue_issues h]
  unfold Row.perform
  rw [hr, issued_thread h]
  rfl

/-! Resumes (R83 to R85, R130). -/

/-- A handler that leaves its accepted command in flight and goes on. -/
theorem rcpRun_waitThen {op : Nat} {f : Frame} {s : State} {x : Session} {hd : Handler} {w : Wait} {v : State} {after : State → State}
    (h : accepted op f s x = true) (hh : hd f f.sessionId.toNat (heard s x) (seen f s) = .waitThen w v after) :
    rcpRun op hd f s = after (frameInFlight f op w v) := by
  rw [rcpRun_accepted hd h]
  unfold rcpExecute
  unfold heard at hh
  rw [hh]

/-- A RESUME that meets no row goes into flight and resumes or abandons its operation. -/
theorem resumeCmd_goes {f : Frame} {sid : Nat} {x : Session} {s : State} {y : Susp} (hl : f.payload.length = 32)
    (hp : passes (allResumeFails s x.ctx (.rcp sid f.requestId.toNat) f.payload) = true) (hy : s.units.susp.find (rsHandle f.payload) = some y) :
    resumeCmd f sid x s = .waitThen (.resume (rsHandle f.payload)) s (resumeGo (.rcp sid f.requestId.toNat) x.ctx f.payload y) := by
  unfold resumeCmd badLength
  simp only [hl, bne_self_eq_false, Bool.false_eq_true, if_false, (Option.isNone_iff_eq_none.1 hp : firstFail _ = none), hy]

/-- A handle that is not 0 is gone once it is dropped. -/
theorem State.dropSusp_find {s : State} {h : Nat} (hh : h ≠ 0) : (s.dropSusp h).units.susp.find h = none := by
  unfold State.dropSusp
  rw [if_neg hh]
  exact Tbl.find_del_self _ _

/-! Commands in flight (R78). -/

/-- The command that is found under a number has that number. -/
theorem State.command_rid {s : State} {sid rid : Nat} {x : Session} {c : InFlight} (h : s.command sid rid = some (x, c)) : c.rid = rid := by
  unfold State.command at h
  split at h
  · rename_i y hy
    obtain ⟨d, hd, hxc⟩ := Option.map_eq_some_iff.1 h
    cases hxc
    exact beq_iff_eq.1 (List.find?_some (p := fun c : InFlight => c.rid == rid) hd)
  · obtain ⟨o, ho, hxc⟩ := Option.map_eq_some_iff.1 h
    cases hxc
    have hsel := List.find?_some (p := fun o : Orphan => o.sid == sid && o.cmd.rid == rid) ho
    exact beq_iff_eq.1 (Bool.and_eq_true_iff.1 hsel).2

/-- A command in flight of an open session is found under its number. -/
theorem State.command_open {s : State} {sid rid : Nat} {x : Session} {c : InFlight} (hx : s.session sid = some x)
    (hc : x.inFlight.find? (fun c => c.rid == rid) = some c) : s.command sid rid = some (x, c) := by
  unfold State.command
  rw [hx]
  dsimp only
  rw [hc]
  rfl

/-- A command of an open session that ends leaves flight, and its completion enters the cache. -/
theorem State.finish_open {s : State} {sid rid : Nat} {x : Session} {c : InFlight} (hx : s.session sid = some x)
    (hc : x.inFlight.find? (fun c => c.rid == rid) = some c) (hf : s.canFinish = true) (st : Nat) (p : List Byte) :
    (s.finish sid rid st p).session sid = some (Session.cachePut { x with inFlight := x.inFlight.filter (fun d => d.rid != rid) }
      (x.completion sid rid c.opcode st p)) := by
  unfold State.finish
  rw [hx]
  dsimp only
  rw [hf, hc]
  exact complete_cached _ _ _ _ _ _ _ (State.session_modSession_self _ hx)

/-- A command of a session that has ended ends without a completion. -/
theorem State.finish_orphan {s : State} {sid : Nat} (hx : s.session sid = none) (hf : s.canFinish = true) (rid st : Nat) (p : List Byte) :
    s.finish sid rid st p = { s with rcp := { s.rcp with
      orphans := s.rcp.orphans.filter (fun o => !(o.sid == sid && o.cmd.rid == rid)) } } := by
  unfold State.finish
  rw [hx]
  dsimp only
  rw [hf]
  rfl

/-- While firmware runs, the end of a command in flight is looked at. -/
theorem commandCompletion_looks {s : State} {sid rid : Nat} {x : Session} {c : InFlight} (hf : s.fwReady = true)
    (hc : s.command sid rid = some (x, c)) : commandCompletion sid rid s = completionOf x sid c s := by
  unfold commandCompletion
  rw [hf, hc]
  rfl

/-- A mapping dropped leaves the Dispatcher. -/
theorem State.dropMap_disp (s : State) (ctx va : Nat) : (s.dropMap ctx va).disp = s.disp := by
  unfold State.dropMap
  split
  · rfl
  · dsimp only
    split <;> exact State.modCtx_disp ..

theorem State.unmapRange_disp (s : State) (ctx va len : Nat) : (s.unmapRange ctx va len).disp = s.disp := by
  unfold State.unmapRange
  split
  · rfl
  · exact foldl_keeps (p := State.disp) (fun a v => State.dropMap_disp a ctx v) _ s

/-- The flows of a context that has ended are gone. -/
theorem contextEnd_flows (ctx : Nat) (s : State) : (contextEnd ctx s).disp.flows.vals.all (fun y => y.ctx != ctx) = true := by
  have hd : (contextEnd ctx s).disp = { s.disp with flows := s.disp.flows.keep (fun _ f => f.ctx != ctx) } := State.unmapRange_disp ..
  rw [hd, List.all_eq_true]
  intro y hy
  obtain ⟨e, he, rfl⟩ := List.mem_map.1 hy
  exact (List.mem_filter.1 he).2

/-- A running command that no other that p selects started before is the first of them. -/
theorem State.firstOf_of {s : State} {c : InFlight} {p : Nat → Wait → Bool} (h : ∀ d ∈ s.running, p d.1 d.2.wait = true → c.order ≤ d.2.order) :
    s.firstOf c p = true := by
  unfold State.firstOf
  rw [List.all_eq_true]
  intro d hd
  cases hp : p d.1 d.2.wait with
  | false => rfl
  | true => simpa using h d hd hp

/-- A thread's turn and its fetch leave the images. -/
theorem fetched_images (t : Nat) (s : State) : (fetched t s).pods.images = s.pods.images := by
  rw [(fetched_sameCore t s).pods]
  show (s.sortBeat (podOf t)).pods.images = s.pods.images
  unfold State.sortBeat
  split <;> rfl

theorem ctxOf_issued {r : Row} {t : Nat} {w : Insn} {s : State} (h : issues r t w s = true) : (fetched t s).ctxOf t = s.ctxOf t := by
  unfold State.ctxOf
  rw [issued_thread h, fetched_images]

/-- Settles O31, by what a resume and the end of a command in flight do. -/
theorem resumesAndCompletions : Obligations.ResumesAndCompletions := by
  refine ⟨?_, ?_, ?_, fun iss c a s u b hrd => ⟨fun hn => ?_, fun y hy => ⟨fun hp => ?_, fun e he => ?_⟩⟩, fun sid rid s =>
    ⟨fun hno => ?_, fun x c hx hc => ⟨State.command_open hx hc, fun hf st p => State.finish_open hx hc hf st p⟩,
    fun hx hf st p => State.finish_orphan hx hf rid st p, fun x c hc hf => ?_⟩⟩
  · intro f s x y b u h iss v ha hl hp hy
    have hrun : exec (.resume f) s = .next (resumeGo iss x.ctx b y v) :=
      congrArg Host.Outcome.next (rcpRun_waitThen ha (resumeCmd_goes (x := heard s x) hl hp hy))
    refine ⟨fun hab => ⟨hrun.trans (congrArg Host.Outcome.next (if_pos hab)), fun hh => State.dropSusp_find hh⟩, fun hab => ?_⟩
    exact hrun.trans (congrArg Host.Outcome.next (if_neg (by rw [hab]; decide)))
  · intro iss a n e s hal
    refine ⟨fun j => ?_, fun j => ?_, fun j => ?_⟩
    · have hgo : jobResume (.table e j) iss a n s = s.setTable e _ := if_neg (not_not.2 hal)
      rw [hgo]
      exact congrArg Engine.queue (Tbl.at_upd_self ..)
    · have hgo : jobResume (.column e j) iss a n s = s.setCol e _ := if_neg (not_not.2 hal)
      rw [hgo]
      exact congrArg Engine.queue (Tbl.at_upd_self ..)
    · have hgo : jobResume (.join e j) iss a n s = s.setJoin e _ := if_neg (not_not.2 hal)
      rw [hgo]
      exact congrArg Engine.queue (Tbl.at_upd_self ..)
  · intro t w s v c a r hr hi
    have hthread := issued_thread hi
    obtain ⟨k, hk, hfree, hgo⟩ := asyncIssue_ready hr w (resumeKind (fetched t s) t c a) (fun iss u => resumeIssue iss c a u)
    rw [hthread] at hfree hgo
    refine ⟨k, hk, hfree, congrArg Host.Outcome.next (issue_next hi ?_)⟩
    refine Eq.trans ?_ hgo
    unfold rowResume
    dsimp only
    rw [hthread, ctxOf_issued hi]
  · refine ⟨u.draw.1 % 65536, Nat.mod_lt _ (by decide), ?_⟩
    unfold resumeIssue
    rw [hrd]
    dsimp only
    rw [hn]
  · unfold resumeIssue
    rw [hrd]
    dsimp only
    rw [hy]
    dsimp only
    rw [(Option.isNone_iff_eq_none.1 hp : firstFail _ = none)]
  · unfold resumeIssue
    rw [hrd]
    dsimp only
    rw [hy]
    dsimp only
    rw [he]
  · refine congrArg Host.Outcome.next ?_
    unfold commandCompletion
    rcases hno with hno | hno <;> rw [hno]
    · rfl
    · exact ite_self _
  · have hrid := State.command_rid hc
    have hlook : exec (.commandCompletion sid rid) s = .next (completionOf x sid c s) :=
      congrArg Host.Outcome.next (commandCompletion_looks hf hc)
    rw [hlook]
    unfold completionOf
    refine ⟨fun ctx va len hw => ?_, fun ctx hw => ?_, fun ctx g hw => ?_, fun g hw => ?_⟩ <;> rw [hw, hrid] <;> dsimp only
    · exact ⟨fun h => by rw [if_pos h], fun h => by rw [if_neg (by rw [h]; decide)]⟩
    · exact ⟨fun h => by rw [if_pos h], fun h => ⟨by rw [if_neg (by rw [h]; decide)], Tbl.find_del_self _ _, contextEnd_flows ctx s⟩⟩
    · refine ⟨fun h => by rw [h]; rfl, fun h hfirst => ?_⟩
      rw [h, State.firstOf_of]
      · rfl
      · intro d hd hp
        refine hfirst d hd ?_
        split at hp
        · rename_i k g heq
          exact ⟨g, by rw [heq, beq_iff_eq.1 hp]⟩
        · cases hp
    · refine ⟨fun h => by rw [h]; rfl, fun h hfirst => ?_⟩
      rw [h, State.firstOf_of]
      · rfl
      · intro d hd hp
        obtain ⟨hsid, hp⟩ := Bool.and_eq_true_iff.1 hp
        refine hfirst d hd (beq_iff_eq.1 hsid) ?_
        split at hp
        · rename_i g heq
          exact ⟨g, heq⟩
        · cases hp

end Sys2Proof.Machine

namespace Sys2Proof.Machine
open Sys2Proof

/-! A slab that fails and yet changes memory (R390), in a state whose memory lists a byte that reads 0 and so has not the canonical form `Mem.wf`. -/

/-- A tensor of one element of one byte at an address. -/
def oneByte (base : Nat) : List Byte := [1, 0, 1, 0] ++ zeros 4 ++ leb 8 base ++ zeros 48 ++ leb 4 1

/-- An operation of session 1 in context 1 that copies the byte at 0x40000 to address 0, where the context maps nothing. -/
def strayJob : ProjJob where
  head := JobHead.first (.rcp 1 1) 1 0 0
  acc := false
  addr := 0x10000
  desc := zeros 128
  src := oneByte 0x40000
  dst := oneByte 0
  slab := 0
  first := 0
  base := 0
  limit := none
  accAt := 0
  accLen := 0

/-- A context that maps one page of the Join store at 0x40000. -/
def storeCtx : Ctx := { Ctx.init false 0 with
  maps := [⟨0x40000, 0x1000, .store, 0, true, true, false, false, [⟨0x1000, joinStoreBase⟩], false⟩] }

/-- A machine whose Projection Engine 0 runs that operation, its output watched, and whose memory holds nothing but a listed 0 at the operation's source. -/
def strayRun : State := { listening with
  ctl := { listening.ctl with fabricOn := true }
  mem := { listening.mem with contexts := [(1, storeCtx)], bytes := [(joinStoreBase, 0)], watch := [strayJob.watch] }
  units := { listening.units with proj := [(0, ⟨[], some (.job strayJob)⟩)] } }

set_option maxRecDepth 20000 in
/-- The engine works, and the slab fits. -/
theorem strayRun_ready : strayRun.works (unitProj 0) = true ∧ slabFits strayJob strayJob.slab = true := by decide

set_option maxRecDepth 20000 in
/-- The slab fails for its destination, and its read of the source has taken the listed 0 out of memory. -/
theorem strayRun_fails : (slabRun 0 strayJob strayRun).1.toOption.isNone = true ∧ (slabRun 0 strayJob strayRun).2.mem.bytes = [] := by decide

/-- Refutes O27: a slab that fails need not leave memory's bytes as they were. The read of a source byte, while an output is watched, writes the byte read back
where it was; where memory lists that byte with the value 0, the entry goes. The counterexample needs such a listing: the statement has no premise
`Mem.wf`. -/
theorem not_unitJobsRunAndEnd : ¬ Obligations.UnitJobsRunAndEnd := by
  intro h
  obtain ⟨hunits, -⟩ := h
  obtain ⟨-, -, hslab, -⟩ := hunits 0 strayRun
  obtain ⟨hworks, hfits⟩ := strayRun_ready
  obtain ⟨hfail, hbytes⟩ := strayRun_fails
  obtain ⟨-, -, herr⟩ := hslab strayJob rfl hworks
  rcases hrun : slabRun 0 strayJob strayRun with ⟨er | j, s1⟩
  · obtain ⟨hkeep, -⟩ := herr er s1 hfits hrun
    rw [hrun] at hbytes
    rw [show s1.mem.bytes = [] from hbytes] at hkeep
    cases hkeep
  · rw [hrun] at hfail
    cases hfail

end Sys2Proof.Machine

namespace Sys2Proof.Machine
open Sys2Proof

/-! Which row takes a word: the rows look at its major opcode and its function alone (R95, R101). -/

/-- The words of a Gazetteer search of a kind; kind 0 takes the reserved functions too. -/
def searchWords (kind m f : Nat) : Bool := m == 0x3C && (f == kind || (kind == 0 && f ≥ 4))

/-- The words of each Pod row by major opcode and function, in the order of `Obligations.EveryWordHasOneRow`. -/
def rowWords : List (Nat → Nat → Bool) :=
  [fun m _ => m == 0x01 || (majorOf m).isNone, fun m _ => 0x02 ≤ m && m ≤ 0x05, fun m _ => m == 0x06, fun m _ => m == 0x07, fun m _ => m == 0x08,
    fun m _ => m == 0x09, fun m _ => m == 0x0A, fun m _ => m == 0x0B, fun m _ => m == 0x10, fun m _ => m == 0x11, fun m _ => m == 0x12,
    fun m _ => m == 0x13, fun m _ => m == 0x14, fun m _ => m == 0x15, fun m _ => m == 0x16, fun m _ => m == 0x18, fun m _ => m == 0x30,
    fun m f => m == 0x32 && (f / 4 == 0 || f / 4 == 3), fun m f => m == 0x32 && f / 4 == 1, fun m f => m == 0x32 && f / 4 == 2,
    fun m _ => 0x20 ≤ m && m ≤ 0x23, fun m _ => 0x24 ≤ m && m ≤ 0x27, fun m _ => m == 0x28, fun m _ => m == 0x29, fun m _ => m == 0x2A,
    fun m _ => m == 0x2B, fun m _ => m == 0x31, fun m f => m == 0x34 && (f == 0 || f ≥ 8), fun m f => m == 0x34 && f == 1,
    fun m f => m == 0x34 && f == 2, fun m f => m == 0x34 && f == 3, fun m f => m == 0x34 && f == 4, fun m f => m == 0x34 && f == 5,
    fun m f => m == 0x34 && f == 6, fun m f => m == 0x34 && f == 7, fun m f => m == 0x38 && (f == 0 || f ≥ 5), fun m f => m == 0x38 && f == 1,
    fun m f => m == 0x38 && f == 2, fun m f => m == 0x38 && f == 3, fun m f => m == 0x38 && f == 4, fun m f => m == 0x3F && f == 4,
    fun m f => m == 0x3F && f ≥ 5, fun m f => m == 0x3E && f != 1, fun m f => m == 0x3E && f == 1, searchWords 0, searchWords 1, searchWords 2,
    fun m f => m == 0x3C && f == 3, fun m f => m == 0x3D && (f == 0 || f ≥ 3),
    fun m f => m == 0x3D && f == 1, fun m f => m == 0x3D && f == 2, fun m f => m == 0x3F && f == 0, fun m f => m == 0x3F && f == 1,
    fun m f => m == 0x3F && f == 3, fun m f => m == 0x3F && f == 2]

/-- Every major opcode and function has one row. -/
theorem rowWords_one : ∀ m : Fin 64, ∀ f : Fin 16, rowWords.countP (fun q => q m f) = 1 := by decide +kernel

theorem bits_lt (v hi lo : Nat) : bits v hi lo < 2 ^ (hi + 1 - lo) := Nat.mod_lt _ (Nat.two_pow_pos _)

theorem rowWords_insMajor (w : Insn) : rowWords.countP (fun q => q (insMajor w) (insF w)) = 1 :=
  rowWords_one ⟨insMajor w, bits_lt _ _ _⟩ ⟨insF w, bits_lt _ _ _⟩

/-- Rows that take the words of a table's entries are as many as the entries that hold. -/
theorem filter_mine_length {rows : List Row} {qs : List (Nat → Nat → Bool)} {w : Insn}
    (h : List.Forall₂ (fun (r : Row) q => r.mine w = q (insMajor w) (insF w)) rows qs) :
    (rows.filter (fun r => r.mine w)).length = qs.countP (fun q => q (insMajor w) (insF w)) := by
  induction h with
  | nil => rfl
  | cons h _ ih => simp only [List.filter_cons, List.countP_cons, ← h, ← ih]; split <;> rfl

/-- Settles O60: the rows' words are those of `rowWords`, which has one entry for each of the 64 majors and 16 functions. -/
theorem everyWordHasOneRow : Obligations.EveryWordHasOneRow := by
  intro w
  refine ⟨?_, fun h => ?_, fun h => ?_⟩
  · rw [filter_mine_length (qs := rowWords), rowWords_insMajor]
    unfold rowWords
    repeat' refine .cons rfl ?_
    exact .nil
  · refine ⟨?_, ?_⟩
    · simp [rowSalu, h]
    · simp [xOk, h]
  · simp only [insMajor, h]
    decide
end Sys2Proof.Machine

namespace Sys2Proof.Machine
open Sys2Proof

/-! What a row's effect comes to once it issues (R92, R94, R131). -/

/-- A row that issues with a jump as its effect. -/
theorem issue_goto {r : Row} {t : Nat} {w : Insn} {s u : State} {pc : Nat} (h : issues r t w s = true)
    (hr : r.run t w (fetched t s) = .goto pc u) : r.issue t w s = ended r t w pc s u := by
  rw [issue_issues h]
  unfold Row.perform
  rw [hr, issued_thread h]
  rfl

/-- A row that issues and leaves its thread at the instruction. -/
theorem issue_stay {r : Row} {t : Nat} {w : Insn} {s u : State} (h : issues r t w s = true) (hr : r.run t w (fetched t s) = .stay u) :
    r.issue t w s = u := by
  rw [issue_issues h]
  unfold Row.perform
  rw [hr]

/-- A row that issues with a fault as its effect. -/
theorem issue_fault {r : Row} {t : Nat} {w : Insn} {s u : State} {e : Err} {va : Nat} (h : issues r t w s = true)
    (hr : r.run t w (fetched t s) = .fault e va u) : r.issue t w s = u.fault t (s.thread t).pc va e := by
  rw [issue_issues h]
  unfold Row.perform
  rw [hr, issued_thread h]

/-- A change of a thread counts for the thread as it is alone. -/
theorem State.modThread_congr {s : State} {t : Nat} {f g : Thread → Thread} (h : f (s.thread t) = g (s.thread t)) : s.modThread t f = s.modThread t g := by
  unfold State.modThread
  rw [h]

/-- Two changes that agree on the thread as it is retire to the same state. -/
theorem retired_congr {r : Row} {t : Nat} {w : Insn} {pc : Nat} {s : State} {f g : Thread → Thread} (h : issues r t w s = true)
    (hfg : f (s.thread t) = g (s.thread t)) : retired r t w pc s f = retired r t w pc s g := by
  unfold retired
  rw [State.modThread_congr (f := f) (g := g) (by rw [issued_thread h, hfg])]

/-- A row that only changes its thread, its effect given for the thread as it is. -/
theorem issue_onThread_at {r : Row} {f : Thread → Insn → Thread} {t : Nat} {w : Insn} {s : State} (g : Thread → Thread) (hf : r.run = onThread f)
    (h : issues r t w s = true) (hg : f (s.thread t) w = g (s.thread t)) : r.issue t w s = retiredNext r t w s g := by
  rw [issue_onThread hf h]
  exact retired_congr h hg

/-- The row of a word that issues takes the word, and no encoding of it is reserved. -/
theorem issues_mine {r : Row} {t : Nat} {w : Insn} {s : State} (h : issues r t w s = true) : r.mine w = true ∧ xOk w = true ∧ r.ok w = true := by
  unfold issues at h
  simp only [Bool.and_eq_true] at h
  obtain ⟨⟨⟨⟨⟨_, hm⟩, hx⟩, ho⟩, _⟩, _⟩ := h
  exact ⟨hm, hx, ho⟩

/-! Scalar operands (R96, R102, R103). -/

theorem toInt_ofNat_signed {n v : Nat} (h : v < 2 ^ n) : (BitVec.ofNat n v).toInt = signed n v := by
  rw [BitVec.toInt_eq_toNat_cond, BitVec.toNat_ofNat, Nat.mod_eq_of_lt h]
  rfl

theorem w64i_immI (w : Insn) : w64i (immI w) = if insX w then w.ext.signExtend 64 else (BitVec.ofNat 15 (insImm w)).signExtend 64 := by
  unfold immI
  split
  · rfl
  · rw [← toInt_ofNat_signed (n := 15) (v := insImm w) (bits_lt ..)]
    rfl

/-- The lower half kept under an upper half is the two halves joined. -/
theorem lih_append (x : Word64) (e : Word) : (x.setWidth 32).setWidth 64 ||| e.setWidth 64 <<< 32 = (e ++ x.setWidth 32 : BitVec 64) := by
  refine BitVec.eq_of_getLsbD_eq fun i hi => ?_
  rw [BitVec.getLsbD_append]
  by_cases h : i < 32 <;> simp [h, hi]

/-- A shift in 32 bits takes its amount from the low five bits. -/
theorem toNat_setWidth_mod (b : Word64) : (b.setWidth 32).toNat % 32 = b.toNat % 32 := by
  rw [BitVec.toNat_setWidth]
  omega

theorem setWidth_sub (a b : Word64) : (a - b).setWidth 32 = a.setWidth 32 - b.setWidth 32 := by
  refine BitVec.eq_of_toNat_eq ?_
  simp only [BitVec.toNat_setWidth, BitVec.toNat_sub]
  omega

/-- SALU with its second operand named. -/
theorem saluRun_eq (th : Thread) (w : Insn) {b : Word64} (hb : b = saluB w th) : saluRun th w = th.ws (insD w)
    (if insT w = 0 then saluOp (insF w) (th.rs (insA w)) b
      else (saluOp (insF w) ((th.rs (insA w)).setWidth 32) (b.setWidth 32)).signExtend 64) := by
  rw [hb]
  rfl

/-- Settles O15: each row's effect is its thread's change, read off the tables of R102 to R105. -/
theorem scalarInstructionsComplete : Obligations.ScalarInstructionsComplete := by
  refine ⟨fun t w s => ⟨fun h b hb => ?_, fun h b hb => ?_, fun h => ?_, fun h => ?_, fun h => ?_⟩, fun t w s => ⟨fun h => ?_, ?_, fun h => ?_, fun h => ?_⟩,
    fun th v => ⟨rfl, rfl⟩⟩
  · refine ⟨_, congrArg _ (issue_onThread_at (fun y => y.ws (insD w) _) rfl h (saluRun_eq _ w hb)), fun hT => ?_, fun hT => ?_⟩
    · rw [if_pos hT]
      refine ⟨?_, ?_, ?_, ?_, ?_, ?_, ?_, ?_, ?_, ?_, ?_, ?_, ?_, ?_, ?_, ?_⟩ <;> intro hF <;> rw [hF] <;> rfl
    · rw [if_neg (by omega)]
      refine ⟨?_, ?_, ?_, ?_⟩ <;> intro hF <;> rw [hF]
      · exact congrArg _ (BitVec.setWidth_add _ _ (by decide)).symm
      · exact congrArg _ (setWidth_sub _ _).symm
      · show ((_ : Word) <<< ((b.setWidth 32).toNat % 32)).signExtend 64 = _
        rw [toNat_setWidth_mod]
      · exact congrArg _ (BitVec.setWidth_mul _ _ (by decide)).symm
  · refine ⟨_, congrArg _ (issue_onThread_at (fun y => y.ws (insD w) _) rfl h rfl), ?_, ?_, ?_, ?_⟩ <;>
      intro hm <;> rw [hb, ← w64i_immI, hm] <;> rfl
  · have hs : (BitVec.ofNat 64 (bits (insImm w) 5 0)).toNat % 64 = bits (insImm w) 5 0 := by
      have := bits_lt (insImm w) 5 0
      rw [BitVec.toNat_ofNat]
      omega
    refine ⟨_, congrArg _ (issue_onThread_at (fun y => y.ws (insD w) _) rfl h rfl), ?_, ?_, ?_⟩ <;> intro hk <;> rw [hk]
    · exact congrArg (_ <<< ·) hs
    · exact congrArg (_ >>> ·) hs
    · exact congrArg (BitVec.sshiftRight _) hs
  · refine congrArg _ (issue_onThread_at _ rfl h ?_)
    unfold lihRun
    rw [lih_append]
  · exact congrArg _ (issue_onThread_at _ rfl h rfl)
  · refine congrArg Host.Outcome.next ?_
    by_cases hb : brTaken w (s.thread t) = true
    · rw [if_pos hb, issue_goto h (if_pos (by rwa [issued_thread h])), issued_thread h]
      rfl
    · rw [if_neg hb, issue_next h (if_neg (by rwa [issued_thread h]))]
      rfl
  · rintro a b rfl rfl
    refine ⟨?_, ?_, ?_, ?_, ?_, ?_, ?_, ?_⟩ <;> intro hc <;> unfold brTaken <;> rw [hc] <;> rfl
  · refine congrArg Host.Outcome.next ((issue_goto h rfl).trans ?_)
    rw [issued_thread h]
    exact retired_congr h rfl
  · refine congrArg Host.Outcome.next ((issue_goto h rfl).trans ?_)
    rw [issued_thread h, w64i_immI]
    exact retired_congr h rfl

end Sys2Proof.Machine

namespace Sys2Proof.Machine
open Sys2Proof

/-! The Pod of a thread that issues, and its words by their tables. -/

/-- A Pod read after it has been changed. -/
@[simp] theorem State.pod_modPod_self (s : State) (p : Nat) (f : Pod → Pod) : (s.modPod p f).pod p = f (s.pod p) := Tbl.at_upd_self _ _ _ _

@[simp] theorem State.pod_modThread (s : State) (t p : Nat) (f : Thread → Thread) : (s.modThread t f).pod p = s.pod p := rfl
@[simp] theorem State.thread_modPod (s : State) (p t : Nat) (f : Pod → Pod) : (s.modPod p f).thread t = s.thread t := rfl

theorem sameCore.pod {s u : State} (h : sameCore s u) (p : Nat) : u.pod p = s.pod p := congrArg (fun x : Pods => x.pods.at Pod.init p) h.pods

/-- A turn changes of its Pod the turn and what is left of the sort network's beats. -/
theorem State.pod_turned (s : State) (t : Nat) : ∃ n, (s.turned t).pod (podOf t) = { s.pod (podOf t) with turn := t % 16, sortBeats := n } := by
  have hb : ∃ n, (s.sortBeat (podOf t)).pod (podOf t) = { s.pod (podOf t) with sortBeats := n } := by
    unfold State.sortBeat
    split
    · exact ⟨_, rfl⟩
    · exact ⟨0, State.pod_modPod_self s (podOf t) (fun x => { x with sortBeats := 0 })⟩
    · exact ⟨_, State.pod_modPod_self ..⟩
  obtain ⟨n, hn⟩ := hb
  exact ⟨n, (State.pod_modPod_self ..).trans (by rw [hn])⟩

theorem fetched_pod (t : Nat) (s : State) : ∃ n, (fetched t s).pod (podOf t) = { s.pod (podOf t) with turn := t % 16, sortBeats := n } := by
  rw [(fetched_sameCore t s).pod]
  exact s.pod_turned t

/-- A thread's turn and its fetch leave its Pod's generator. -/
theorem fetched_podGen (t : Nat) (s : State) : (fetched t s).podGen (podOf t) = s.podGen (podOf t) := by
  obtain ⟨n, hn⟩ := fetched_pod t s
  unfold State.podGen
  rw [hn]

/-! Vectors by their elements (R98, R99). -/

theorem Thread.rv_wv_ne (th : Thread) {d k : Nat} (v : List Word) (h : k ≠ d) : (th.wv d v).rv k = th.rv k := by
  unfold Thread.rv Thread.wv nth
  dsimp only
  rw [List.getD_eq_getElem?_getD, List.getElem?_set_ne (Ne.symm h), ← List.getD_eq_getElem?_getD]

theorem mkVec_congr {f g : Nat → Word} (h : ∀ i, i < 64 → f i = g i) : mkVec f = mkVec g :=
  List.map_congr_left fun i hi => h i (List.mem_range.1 hi)

theorem nth_map_range {α : Type} (f : Nat → α) (d : α) {n i : Nat} (h : i < n) : nth ((List.range n).map f) d i = f i := by
  unfold nth
  rw [List.getD_eq_getElem?_getD]
  simp [h]

theorem nth_map {l : List Nat} (f : Nat → Word) (i : Nat) : nth (l.map f) 0 i = if i < l.length then f (nth l 0 i) else 0 := by
  unfold nth
  simp only [List.getD_eq_getElem?_getD, List.getElem?_map]
  split
  · next h => simp [h]
  · next h => simp [h]

/-- What VINT gives an element that its mask leaves, or that it changes. -/
def vintElem (w : Insn) (th : Thread) (i : Nat) : Word :=
  if insF w = 15 then (if th.on (insM w) i then elem (th.rv (insA w)) i else bOperand w th i)
  else if th.on (insM w) i then vintOp (insF w) (elem (th.rv (insA w)) i) (bOperand w th i) else elem (th.rv (insD w)) i

theorem vintRun_eq (th : Thread) (w : Insn) : vintRun th w = th.wv (insD w) (mkVec (vintElem w th)) := by
  unfold vintRun vintElem
  dsimp only
  split <;> rfl

/-- The format and the size of an element where VFLT allows its type. -/
theorem vfltElem_eq {t f n : Nat} {fm : Fmt} (ht : 1 ≤ t ∧ t ≤ 3) (h1 : t = 1 → n = 32 ∧ fm = fp32) (h2 : t = 2 → n = 16 ∧ fm = bf16)
    (h3 : t = 3 → n = 16 ∧ fm = fp16) (a b d : Word) :
    vfltElem t f a b d = (packElem n ((List.range (32 / n)).map (fun j => (vfltOp fm f (subElem n a j) (subElem n b j) (subElem n d j)).val)),
      allFlags ((List.range (32 / n)).map (fun j => vfltOp fm f (subElem n a j) (subElem n b j) (subElem n d j)))) := by
  have hn : n = elemBits t ∧ fm = elemFmt t := by
    obtain ⟨hl, hu⟩ := ht
    interval_cases t
    · exact h1 rfl
    · exact h2 rfl
    · exact h3 rfl
  rw [hn.1, hn.2]
  unfold vfltElem
  dsimp only
  rw [List.map_map]
  rfl

/-! Compares (R111). -/

theorem bit_eq_testBit (v i : Nat) : bit v i = v.testBit i := by
  rw [Nat.testBit_eq_decide_div_mod_eq]
  rfl

/-- Adding a power of two sets a bit that is clear and leaves those above it. -/
theorem testBit_two_pow_add_of_clear {v i : Nat} (h : v.testBit i = false) (j : Nat) : (2 ^ i + v).testBit j = (v.testBit j || decide (i = j)) := by
  rcases Nat.lt_trichotomy j i with hj | rfl | hj
  · rw [Nat.testBit_two_pow_add_gt hj, decide_eq_false (by omega), Bool.or_false]
  · rw [Nat.testBit_two_pow_add_eq, h]
    simp
  · obtain ⟨k, rfl⟩ := Nat.exists_eq_add_of_lt hj
    have hdiv : (2 ^ i + v) / 2 ^ (i + 1) = v / 2 ^ (i + 1) := by
      have hmod : v / 2 ^ i % 2 = 0 := by simpa [Nat.testBit_eq_decide_div_mod_eq] using h
      rw [Nat.pow_succ, ← Nat.div_div_eq_div_mul, ← Nat.div_div_eq_div_mul, Nat.add_div_left _ (Nat.two_pow_pos i)]
      omega
    have hk : i + k + 1 = k + (i + 1) := by omega
    rw [decide_eq_false (by omega), Bool.or_false, hk, ← Nat.testBit_div_two_pow, ← Nat.testBit_div_two_pow, hdiv]

theorem testBit_setBit (v i j : Nat) : (setBit v i).testBit j = (v.testBit j || decide (i = j)) := by
  unfold setBit
  rw [bit_eq_testBit]
  cases h : v.testBit i with
  | false => rw [if_neg (by decide), Nat.add_comm, testBit_two_pow_add_of_clear h]
  | true =>
    rw [if_pos rfl]
    by_cases hj : i = j
    · subst hj
      simp [h]
    · simp [hj]

/-- A fold that sets bits sets those of its list that it is to set. -/
theorem testBit_foldl_setBit {β : Type} (l : List (Nat × Bool × β)) (v i : Nat) :
    (l.foldl (fun a r => if r.2.1 then setBit a r.1 else a) v).testBit i = (v.testBit i || l.any (fun r => r.1 == i && r.2.1)) := by
  induction l generalizing v with
  | nil => simp
  | cons r l ih =>
    rw [List.foldl_cons, ih, List.any_cons]
    cases r.2.1
    · simp
    · rw [if_pos rfl, testBit_setBit, Bool.or_assoc]
      simp [beq_eq_decide]

theorem mem_active {th : Thread} {m i : Nat} : i ∈ th.active m ↔ i < 64 ∧ th.on m i = true := by
  unfold Thread.active
  rw [List.mem_filter, List.mem_range]

/-- What VCMP writes: the compare where an element is active, and 0 elsewhere. -/
theorem vcmp_bit (th : Thread) (m : Nat) (f : Nat → Bool × Nat) {i : Nat} (hi : i < 64) :
    (BitVec.ofNat 64 (((th.active m).map (fun i => (i, f i))).foldl (fun a r => if r.2.1 then setBit a r.1 else a) 0)).getLsbD i =
      (th.on m i && (f i).1) := by
  rw [BitVec.getLsbD_ofNat, testBit_foldl_setBit, Nat.zero_testBit, Bool.false_or, List.any_map, decide_eq_true hi, Bool.true_and]
  rw [Bool.eq_iff_iff, List.any_eq_true]
  simp only [Function.comp, Bool.and_eq_true, beq_iff_eq, mem_active]
  exact ⟨fun ⟨x, ⟨_, hx⟩, hxi, hf⟩ => by subst hxi; exact ⟨hx, hf⟩, fun ⟨hx, hf⟩ => ⟨i, ⟨hi, hx⟩, rfl, hf⟩⟩

/-- The flags of a list of which each element raises one flag or none. -/
theorem foldl_or_flags {α : Type} (l : List α) (p : α → Bool) (n a : Nat) :
    l.foldl (fun x y => x ||| if p y then n else 0) a = a ||| if l.any p then n else 0 := by
  induction l generalizing a with
  | nil => simp
  | cons y l ih =>
    rw [List.foldl_cons, ih, List.any_cons, Nat.or_assoc]
    cases p y <;> cases l.any p <;> simp

/-! Counts (R113). -/

theorem popcountTo_eq (n v : Nat) : popcountTo n v = (List.range n).countP v.testBit := by
  induction n generalizing v with
  | zero => rfl
  | succ n ih =>
    rw [List.range_succ_eq_map, List.countP_cons, List.countP_map, popcountTo, ih, Nat.add_comm]
    congr 1
    · congr 1
      funext i
      simp [Nat.testBit_succ]
    · rw [Nat.testBit_zero]
      have := Nat.mod_two_eq_zero_or_one v
      rcases this with h | h <;> simp [h]

/-! VCVT's values in order (R157). -/

/-- A fold that carries a generator and collects flags, by the state of the generator at each place of its list. -/
theorem foldl_withGen {α : Type} {l : List Nat} {next : Word → Word} {val : Word → Nat → FRes} {put : α → Nat → Nat → α} {gen : Nat → Word}
    {y : Nat → FRes} (hg : ∀ k, gen (k + 1) = next (gen k)) (hy : ∀ k, y k = val (gen (k + 1)) (nth l 0 k)) (v : α) (f n : Nat) (hn : n ≤ l.length) :
    (l.take n).foldl (fun (st : α × Nat × Word) q =>
      (put st.1 q (val (next st.2.2) q).val, st.2.1 ||| (val (next st.2.2) q).fl, next st.2.2)) (v, f, gen 0) =
    ((List.range n).foldl (fun v k => put v (nth l 0 k) (y k).val) v, (List.range n).foldl (fun f k => f ||| (y k).fl) f, gen n) := by
  induction n with
  | zero => rfl
  | succ n ih =>
    have hq : nth l 0 n = l[n] := by
      unfold nth
      rw [List.getD_eq_getElem]
    rw [List.take_succ_eq_append_getElem (by omega), List.foldl_append, ih (by omega), List.range_succ, List.foldl_append, List.foldl_append]
    simp only [List.foldl_cons, List.foldl_nil, hy, hg, hq]

/-- The generator's state before the k-th of the values that VCVT converts. -/
def genAfter (stoch : Bool) (g : Word) : Nat → Word
  | 0 => g
  | k + 1 => if stoch then genStep (genAfter stoch g k) else genAfter stoch g k

/-- One value that VCVT converts, from what the generator has come to and the value's number. -/
def vcvtValue (w : Insn) (th : Thread) (stoch : Bool) (g : Word) (q : Nat) : FRes :=
  cvtValue (cvtFmt (insF w)) (cvtFmt (insT w)) (if stoch then .stoch (g.toNat % 2 ^ 16) else .near) (bit (insB w) 1)
    (cvtGet (cvtFmt (insF w)) (th.rv (insA w)) (if (cvtFmt (insF w)).count = 1 then q else 64 * (insB w / 4) + q))

/-! VRED (R112). -/

theorem vredInt_eq {f : Nat} {op : Word → Word → Word} (hf : f ≤ 2) (h0 : f = 0 → op = (· + ·)) (h1 : f = 1 → op = fun r y => if y.slt r then y else r)
    (h2 : f = 2 → op = fun r y => if r.slt y then y else r) (x : Word) (l : List Word) : vredInt f x l = l.foldl op x := by
  interval_cases f
  · rw [h0 rfl]; rfl
  · rw [h1 rfl]; rfl
  · rw [h2 rfl]; rfl

theorem vredFp_eq {f : Nat} {op : FRes → Word → FRes} (hf : f ≤ 2)
    (h0 : f = 0 → op = fun r y => ⟨(fp32.add r.val y.toNat).val, r.fl ||| (fp32.add r.val y.toNat).fl⟩)
    (h1 : f = 1 → op = fun r y => ⟨fp32.minmax false r.val y.toNat, r.fl⟩) (h2 : f = 2 → op = fun r y => ⟨fp32.minmax true r.val y.toNat, r.fl⟩)
    {r : FRes} {x : Nat} {l : List Word} (hr : r = l.foldl op ⟨x, 0⟩) :
    vredFp f x (l.map BitVec.toNat) = ⟨if fp32.isNan r.val then fp32.nan else r.val, r.fl⟩ := by
  have hfold : vredFp f x (l.map BitVec.toNat) = if fp32.isNan r.val then ⟨fp32.nan, r.fl⟩ else r := by
    subst hr
    unfold vredFp
    dsimp only
    rw [List.foldl_map]
    interval_cases f
    · rw [h0 rfl]; rfl
    · rw [h1 rfl]; rfl
    · rw [h2 rfl]; rfl
  rw [hfold]
  split <;> rfl

/-! VHASH (R119). -/

/-- A second masked write goes by the elements that the first found in its own register. -/
theorem Thread.masked_masked (th : Thread) (m d : Nat) (f g : Nat → Word) : (th.masked m d f).masked m (d + 1) g =
    (th.wv d (mkVec (fun i => if th.on m i then f i else elem (th.rv d) i))).wv (d + 1)
      (mkVec (fun i => if th.on m i then g i else elem (th.rv (d + 1)) i)) := by
  have hrv : (th.masked m d f).rv (d + 1) = th.rv (d + 1) := Thread.rv_wv_ne _ _ (by omega)
  rw [Thread.masked, hrv]
  rfl

/-- VCVT's values, put in place in order. -/
theorem vcvtRun_eq {t : Nat} {w : Insn} {s : State} {stoch : Bool} (hs : stoch = (bit (insB w) 0 && cvtMayRound (cvtFmt (insF w)) (cvtFmt (insT w))))
    {gen : Nat → Word} {y : Nat → FRes} (h0 : gen 0 = s.podGen (podOf t)) (hg : ∀ k, gen (k + 1) = if stoch then genStep (gen k) else gen k)
    (hy : ∀ k, y k = vcvtValue w (s.thread t) stoch (gen (k + 1)) (nth ((s.thread t).active (insM w)) 0 k)) :
    vcvtRun t w s = .next ((if stoch then s.modPod (podOf t) (fun p => { p with gen := some (gen ((s.thread t).active (insM w)).length) }) else s).modThread t
      (fun z => (z.wv (insD w) ((List.range ((s.thread t).active (insM w)).length).foldl (fun v k => cvtPut (cvtFmt (insT w)) v
        (if (cvtFmt (insT w)).count = 1 then nth ((s.thread t).active (insM w)) 0 k else 64 * (insB w / 4) + nth ((s.thread t).active (insM w)) 0 k)
          (y k).val) ((s.thread t).rv (insD w)))).raise ((List.range ((s.thread t).active (insM w)).length).foldl (fun f k => f ||| (y k).fl) 0))) := by
  have hstoch : (insB w % 2 == 1 && cvtMayRound (cvtFmt (insF w)) (cvtFmt (insT w))) = stoch := by
    rw [hs]
    simp [bit]
  have hfold := foldl_withGen (l := (s.thread t).active (insM w)) (next := fun g => if stoch then genStep g else g) (val := vcvtValue w (s.thread t) stoch)
    (put := fun v q x => cvtPut (cvtFmt (insT w)) v (if (cvtFmt (insT w)).count = 1 then q else 64 * (insB w / 4) + q) x) hg hy
    ((s.thread t).rv (insD w)) 0 _ (le_refl _)
  rw [List.take_length, h0] at hfold
  unfold vcvtRun
  dsimp only
  rw [hstoch]
  unfold vcvtValue at hfold
  rw [hfold]

/-- VPERM's function on a thread, for an encoding that is not reserved. -/
theorem vpermRun_eq {w : Insn} {th : Thread} (ho : rowVperm.ok w = true) {g : Thread → Thread}
    (h0 : insF w = 0 → g = fun y => y.masked (insM w) (insD w) (fun i => elem (th.rv (insA w)) ((elem (th.rv (insB w)) i).toNat % 64)))
    (h1 : insF w = 1 → g = fun y => y.ws (insD w) ((elem (th.rv (insA w)) ((th.rs (insB w)).toNat % 64)).setWidth 64))
    (h2 : insF w = 2 → g = fun y => y.wv (insD w) ((th.rv (insD w)).set ((th.rs (insB w)).toNat % 64) ((th.rs (insA w)).setWidth 32)))
    (h3 : insF w = 3 → g = fun y => y.masked (insM w) (insD w) (fun i =>
      if i + (th.rs (insB w)).toNat ≤ 63 then elem (th.rv (insA w)) (i + (th.rs (insB w)).toNat) else 0))
    (h4 : insF w = 4 → g = fun y => y.masked (insM w) (insD w) (fun i => BitVec.ofNat 32 i))
    (h5 : insF w = 5 → g = fun y => y.wv (insD w) (mkVec (fun i =>
      if i < (th.active (insM w)).length then elem (th.rv (insA w)) (nth (th.active (insM w)) 0 i) else 0)))
    (h6 : insF w = 6 → g = fun y => y.masked (insM w) (insD w) (fun _ => (th.rs (insA w)).setWidth 32)) : vpermRun th w = g th := by
  unfold rowVperm at ho
  unfold vpermRun
  dsimp only at ho ⊢
  generalize insF w = f at *
  match f with
  | 0 => rw [h0 rfl]; rfl
  | 1 => rw [h1 rfl]; rfl
  | 2 => rw [h2 rfl]; rfl
  | 3 => rw [h3 rfl]; rfl
  | 4 => rw [h4 rfl]; rfl
  | 5 => rw [h5 rfl]; exact congrArg (th.wv (insD w)) (mkVec_congr fun i _ => nth_map _ i)
  | 6 => rw [h6 rfl]; rfl
  | n + 7 => simp at ho

/-- MASK's function on a thread, for an encoding that is not reserved. -/
theorem maskRun_eq {w : Insn} {th : Thread} (ho : rowMask.ok w = true) {g : Thread → Thread}
    (h0 : insF w = 0 → g = fun y => y.wm (insD w) (th.rm (insA w) &&& th.rm (insB w)))
    (h1 : insF w = 1 → g = fun y => y.wm (insD w) (th.rm (insA w) ||| th.rm (insB w)))
    (h2 : insF w = 2 → g = fun y => y.wm (insD w) (th.rm (insA w) ^^^ th.rm (insB w)))
    (h3 : insF w = 3 → g = fun y => y.wm (insD w) (th.rm (insA w) &&& ~~~ th.rm (insB w)))
    (h4 : insF w = 4 → g = fun y => y.wm (insD w) (~~~ th.rm (insA w)))
    (h5 : insF w = 5 → g = fun y => y.ws (insD w) (BitVec.ofNat 64 ((List.range 64).countP (th.rm (insA w)).getLsbD)))
    (h6 : insF w = 6 → g = fun y => y.ws (insD w) (BitVec.ofNat 64 (((List.range 64).find? (th.rm (insA w)).getLsbD).getD 64)))
    (h7 : insF w = 7 → g = fun y => y.ws (insD w) (th.rm (insA w))) (h8 : insF w = 8 → g = fun y => y.wm (insD w) (th.rs (insA w))) :
    maskRun th w = g th := by
  unfold rowMask at ho
  unfold maskRun
  dsimp only at ho ⊢
  generalize insF w = f at *
  match f with
  | 0 => rw [h0 rfl]; rfl
  | 1 => rw [h1 rfl]; rfl
  | 2 => rw [h2 rfl]; rfl
  | 3 => rw [h3 rfl]; rfl
  | 4 => rw [h4 rfl]; rfl
  | 5 => rw [h5 rfl, popcountTo_eq]; rfl
  | 6 => rw [h6 rfl]; rfl
  | 7 => rw [h7 rfl]; rfl
  | 8 => rw [h8 rfl]; rfl
  | n + 9 => simp at ho

/-- The flags that VCMP raises: NV where an ordered compare meets a NaN. -/
theorem vcmp_flags {f : Nat} (hf : f ≤ 9) (a b : Nat → Word) (l : List Nat) :
    (l.map (fun i => (i, vcmpOp f (a i) (b i)))).foldl (fun x r => x ||| r.2.2) 0 =
      if (f == 7 || f == 8) && l.any (fun i => fp32.unord (a i).toNat (b i).toNat) then flNV else 0 := by
  have hop : ∀ i, (vcmpOp f (a i) (b i)).2 = if (f == 7 || f == 8) && fp32.unord (a i).toNat (b i).toNat then flNV else 0 := fun i => by
    interval_cases f <;> rfl
  rw [List.foldl_map]
  simp only [hop]
  rw [foldl_or_flags, Nat.zero_or]
  cases h : f == 7 || f == 8 <;> simp

/-- VHASH of a word whose results take two registers. -/
theorem vhashRun_pair {w : Insn} {th : Thread} (hF : insF w ≠ 0) {h : Nat → Word64}
    (hh : h = fun i => hashFn (insF w) (leb 4 (elem (th.rv (insA w)) i).toNat ++ if insT w = 0 then [] else leb 4 (elem (th.rv (insA w + 1)) i).toNat)
      (th.rs (insB w)) (if insF w = 3 then th.rs (insB w + 1) else 0)) :
    vhashRun th w = (th.masked (insM w) (insD w) (fun i => (h i).setWidth 32)).masked (insM w) (insD w + 1) (fun i => (h i >>> 32).setWidth 32) := by
  rw [Thread.masked_masked]
  unfold vhashRun
  dsimp only
  subst hh
  rw [if_neg hF]
  refine congrArg₂ (fun x y => (th.wv (insD w) x).wv (insD w + 1) y) (mkVec_congr fun i hi => ?_) (mkVec_congr fun i hi => ?_) <;>
    by_cases hon : th.on (insM w) i = true
  · rw [if_pos hon, if_pos hon, nth_map_range _ _ hi, if_pos hon]
  · rw [if_neg hon, if_neg hon]
  · rw [if_pos hon, if_pos hon, nth_map_range _ _ hi, if_pos hon]
  · rw [if_neg hon, if_neg hon]

/-- VRED where no element is active. -/
theorem vredRun_none {w : Insn} {th : Thread} (hT : insT w ≤ 1) (ha : th.active (insM w) = []) :
    vredRun th w = th.ws (insD w) (if insT w = 1 ∧ insF w ≠ 0 then BitVec.ofNat 64 fp32.nan else 0) := by
  unfold vredRun
  simp only [ha, List.map_nil]
  by_cases h0 : insT w = 0
  · rw [if_pos h0, if_neg (by omega)]
  · rw [if_neg h0]
    by_cases hF : insF w = 0
    · rw [if_pos hF, if_neg (by omega)]
    · rw [if_neg hF, if_pos (by omega)]

/-- VRED of INT32 elements. -/
theorem vredRun_int {w : Insn} {th : Thread} {x : Word} {l : List Word} (hT : insT w = 0)
    (hl : (th.active (insM w)).map (elem (th.rv (insA w))) = x :: l) : vredRun th w = th.ws (insD w) ((vredInt (insF w) x l).signExtend 64) := by
  unfold vredRun
  simp only [hl, if_pos hT]

/-- VRED of FP32 elements. -/
theorem vredRun_fp {w : Insn} {th : Thread} {x : Word} {l : List Word} (hT : insT w = 1)
    (hl : (th.active (insM w)).map (elem (th.rv (insA w))) = x :: l) : vredRun th w =
      (th.ws (insD w) (BitVec.ofNat 64 (vredFp (insF w) x.toNat (l.map BitVec.toNat)).val)).raise (vredFp (insF w) x.toNat (l.map BitVec.toNat)).fl := by
  unfold vredRun
  simp only [hl, if_neg (show ¬insT w = 0 by omega)]

theorem rowVred_ok {w : Insn} (h : rowVred.ok w = true) : insF w ≤ 2 ∧ insT w ≤ 1 := by
  simp only [rowVred, Bool.and_eq_true, decide_eq_true_eq] at h
  tauto

/-- Settles O16: each row's effect is its thread's change, read off the tables of R106 to R113 and R119; VCVT also steps its Pod's generator. -/
theorem vectorInstructionsComplete : Obligations.VectorInstructionsComplete := by
  intro t w s
  refine ⟨fun h => ?_, fun h n fm h1 h2 h3 => ?_, fun h => ?_, fun h => ?_, fun h g h0 h1 h2 h3 h4 h5 h6 => ?_, fun h => ?_, fun h => ⟨?_, ?_, ?_⟩,
    fun h g h0 h1 h2 h3 h4 h5 h6 h7 h8 => ?_, fun h k hk => ⟨?_, ?_⟩, rfl, fun v => rfl⟩
  · refine ⟨vintElem w (s.thread t), congrArg Host.Outcome.next (issue_onThread_at _ rfl h (vintRun_eq _ w)), fun i hF => ?_, fun i hF hi => ?_,
      fun i hi => ?_⟩
    · exact if_pos hF
    · exact (if_neg hF).trans (if_neg (by rw [hi]; decide))
    · have hne : insF w ≠ 15 → vintElem w (s.thread t) i = vintOp (insF w) (elem ((s.thread t).rv (insA w)) i) (bOperand w (s.thread t) i) := fun hF =>
        (if_neg hF).trans (if_pos hi)
      refine ⟨?_, ?_, ?_, ?_, ?_, ?_, ?_, ?_, ?_, ?_, ?_, ?_, ?_, ?_, ?_⟩ <;> intro hF <;> rw [hne (by omega), hF] <;> rfl
  · obtain ⟨_, _, ho⟩ := issues_mine h
    have ht : 1 ≤ insT w ∧ insT w ≤ 3 := by
      simp only [rowVflt, Bool.and_eq_true, decide_eq_true_eq] at ho
      tauto
    refine ⟨fun i j => vfltOp fm (insF w) (subElem n (elem ((s.thread t).rv (insA w)) i) j) (subElem n (bOperand w (s.thread t) i) j)
      (subElem n (elem ((s.thread t).rv (insD w)) i) j), congrArg Host.Outcome.next (issue_onThread_at _ rfl h ?_), ?_⟩
    · unfold vfltRun
      simp only [vfltElem_eq ht h1 h2 h3]
    · rintro i j x y z rfl rfl rfl
      refine ⟨?_, ?_, ?_, ?_, ?_, ?_, ?_, ?_, ?_, ?_⟩ <;> intro hF <;> rw [hF] <;> rfl
  · refine ⟨_, congrArg Host.Outcome.next (issue_onThread_at (fun y => y.maskedFl (insM w) (insD w) _) rfl h rfl), ?_, ?_⟩
    · rintro i n h4 h7 hT v rfl
      have hn : n = elemBits (insT w) := by
        rcases hT with hT | hT
        · rw [h4 hT, hT]; rfl
        · rw [h7 hT, hT]; rfl
      rw [hn]
      exact if_pos hT
    · rintro i n fm h2 h3 h5 h6 hn4 hn7 x rfl
      obtain ⟨_, _, ho⟩ := issues_mine h
      have hT : insT w = 2 ∨ insT w = 3 ∨ insT w = 5 ∨ insT w = 6 := by
        have hlt : insT w < 8 := bits_lt ..
        simp only [rowVdot, Bool.and_eq_true, decide_eq_true_eq] at ho
        omega
      have hn : n = elemBits (insT w) ∧ fm = elemFmt (insT w) := by
        rcases hT with hT | hT | hT | hT
        · rw [hT]; exact h2 hT
        · rw [hT]; exact h3 hT
        · rw [hT]; exact h5 hT
        · rw [hT]; exact h6 hT
      rw [hn.1, hn.2]
      exact if_neg (by omega)
  · obtain ⟨stoch, hs⟩ : ∃ b, b = (bit (insB w) 0 && cvtMayRound (cvtFmt (insF w)) (cvtFmt (insT w))) := ⟨_, rfl⟩
    refine ⟨genAfter stoch (s.podGen (podOf t)), fun k => vcvtValue w (s.thread t) stoch (genAfter stoch (s.podGen (podOf t)) (k + 1))
      (nth ((s.thread t).active (insM w)) 0 k), rfl, fun k => by rw [← hs]; rfl, fun k => by rw [← hs]; rfl, ?_⟩
    rw [← hs]
    refine congrArg Host.Outcome.next ((issue_next h (vcvtRun_eq (gen := genAfter stoch (s.podGen (podOf t))) hs (fetched_podGen t s).symm (fun k => rfl) (fun k => rfl))).trans ?_)
    rw [issued_thread h]
  · exact congrArg Host.Outcome.next (issue_onThread_at _ rfl h (vpermRun_eq (issues_mine h).2.2 h0 h1 h2 h3 h4 h5 h6))
  · obtain ⟨_, _, ho⟩ := issues_mine h
    have hf : insF w ≤ 9 := by
      simp only [rowVcmp, Bool.and_eq_true, decide_eq_true_eq] at ho
      tauto
    refine ⟨_, congrArg Host.Outcome.next (issue_onThread_at _ rfl h (congrArg (Thread.raise _) (vcmp_flags hf _ _ _))), fun i hi hoff => ?_, fun i hi hon => ?_⟩
    · rw [vcmp_bit _ _ _ hi, hoff]
      rfl
    · rw [vcmp_bit _ _ _ hi, hon, Bool.true_and]
      refine ⟨?_, ?_, ?_, ?_, ?_, ?_, ?_, ?_, ?_, ?_⟩ <;> intro hF <;> rw [hF] <;> rfl
  · exact fun ha => congrArg Host.Outcome.next (issue_onThread_at _ rfl h (vredRun_none (rowVred_ok (issues_mine h).2.2).2 ha))
  · intro x l hl hT op h0 h1 h2
    refine congrArg Host.Outcome.next (issue_onThread_at _ rfl h ((vredRun_int hT hl).trans ?_))
    rw [vredInt_eq (rowVred_ok (issues_mine h).2.2).1 h0 h1 h2]
  · intro x l hl hT op h0 h1 h2 r hr
    refine congrArg Host.Outcome.next (issue_onThread_at _ rfl h ((vredRun_fp hT hl).trans ?_))
    rw [vredFp_eq (rowVred_ok (issues_mine h).2.2).1 h0 h1 h2 hr]
  · exact congrArg Host.Outcome.next (issue_onThread_at _ rfl h (maskRun_eq (issues_mine h).2.2 h0 h1 h2 h3 h4 h5 h6 h7 h8))
  · intro hF
    refine congrArg Host.Outcome.next (issue_onThread_at _ rfl h ?_)
    subst hk
    exact if_pos hF
  · exact fun hF => congrArg Host.Outcome.next (issue_onThread_at _ rfl h (vhashRun_pair hF hk))

end Sys2Proof.Machine

namespace Sys2Proof.Machine
open Sys2Proof

/-! Where a Pod's instruction stops before its effect (R92, R94, R100, R131, R528). -/

/-- An injection that fires is spent. -/
theorem State.armed_fireInjected (s : State) (k n d : Nat) : (s.fireInjected k n d).armed k n = none := by
  have h : ((s.disarm k n).detector (detId k n)).armed = none := by
    unfold State.disarm State.detector State.modDetector
    rw [Tbl.at_upd_self]
  unfold State.armed State.fireInjected
  rw [State.detector_fire_self]
  exact h

theorem State.thread_fireInjected (s : State) (k n d t : Nat) : (s.fireInjected k n d).thread t = s.thread t := by
  unfold State.thread
  rw [State.fireInjected_pods]

/-- A thread that does not run, or whose Pod is inactive, is not its Pod's choice. -/
theorem State.not_chosen {s : State} {t : Nat} (h : (s.thread t).st ≠ .running ∨ s.active (podOf t) = false) : s.chosen t = false := by
  unfold State.chosen
  rcases h with h | h
  · rw [decide_eq_false h]
    rfl
  · rw [h]
    simp

/-- The thread that its Pod chooses is as it was before its turn and its fetch. -/
theorem chosen_thread {t : Nat} {s : State} (h : s.chosen t = true) : (fetched t s).thread t = s.thread t :=
  fetched_thread (by rw [chosen_running h]; exact TState.noConfusion)

/-- A thread that its Pod does not choose does nothing. -/
theorem issue_not_chosen {t : Nat} {s : State} (r : Row) (w : Insn) (h : s.chosen t = false) : r.issue t w s = s := by
  unfold Row.issue
  rw [h]
  rfl

/-- The fault of a fetch names the PC or the address of the extension word. -/
theorem podFetch_error {t va : Nat} {e : Err} {s : State} (h : (podFetch s t).1 = .error (va, e)) :
    e.detail = 2 ∧ (va = (s.thread t).pc ∨ va = ((s.thread t).pc + 4) % 2 ^ 64) := by
  unfold podFetch at h
  dsimp only at h
  split_ifs at h
  · cases h
    exact ⟨rfl, .inl rfl⟩
  · split at h
    · cases h
      exact ⟨rfl, .inl rfl⟩
    · split_ifs at h
      split at h
      · cases h
        exact ⟨rfl, .inr rfl⟩
      · cases h

/-- A fetch that is refused faults its thread. -/
theorem issue_fetch_refused {t va : Nat} {e : Err} {s : State} (r : Row) (w : Insn) (hc : s.chosen t = true)
    (h : (podFetch (s.turned t) t).1 = .error (va, e)) : r.issue t w s = (fetched t s).fault t (s.thread t).pc va e := by
  unfold Row.issue fetched
  rcases hf : podFetch (s.turned t) t with ⟨q, u⟩
  rw [hf] at h
  dsimp only at h ⊢
  rw [hc, h]
  rfl

/-- A word that is not the row's changes nothing. -/
theorem issue_other_word {r : Row} {t : Nat} {w v : Insn} {s : State} (hc : s.chosen t = true) (h : (podFetch (s.turned t) t).1 = .ok v)
    (hv : v.word ≠ w.word ∨ (hasExt w.word.toNat = true ∧ v.ext ≠ w.ext) ∨ r.mine w = false) : r.issue t w s = s := by
  unfold Row.issue
  rcases hf : podFetch (s.turned t) t with ⟨q, u⟩
  rw [hf] at h
  dsimp only at h ⊢
  rw [hc, h, if_neg (by decide)]
  exact if_pos (by simpa using hv)

/-- A word of the row that its thread has fetched goes on to decoding. -/
theorem issue_fetches {r : Row} {t : Nat} {w : Insn} {s : State} (h : (fetches t w s && r.mine w) = true) : s.chosen t = true ∧
    r.issue t w s = if !(xOk w && r.ok w) then (fetched t s).fault t (s.thread t).pc 0 (fErr stArg 1)
      else match (if (r.reads w).isEmpty then none else (fetched t s).armed 6 (podOf t)) with
        | some _ => ((fetched t s).fireInjected 6 (podOf t) 0).fault t (s.thread t).pc 0 ⟨stHw, 8, 0xFFFF, detId 6 (podOf t)⟩
        | none => if (s.thread t).awaits (r.reads w) then (fetched t s).block t .result else r.perform t w (fetched t s) := by
  rw [Bool.and_eq_true] at h
  obtain ⟨hf, hm⟩ := h
  unfold fetches at hf
  rw [Bool.and_eq_true] at hf
  obtain ⟨hc, hw⟩ := hf
  refine ⟨hc, ?_⟩
  unfold Row.issue fetched
  rcases hq : podFetch (s.turned t) t with ⟨q, u⟩
  rw [hq] at hw
  cases q with
  | error e => cases hw
  | ok v =>
    have hvw : v = w := by simpa using hw
    subst hvw
    dsimp only
    rw [hc, if_neg (by decide)]
    exact if_neg (by simp [hm])

/-- A reserved encoding faults. -/
theorem issue_reserved {r : Row} {t : Nat} {w : Insn} {s : State} (h : (fetches t w s && r.mine w) = true) (ho : (xOk w && r.ok w) = false) :
    r.issue t w s = (fetched t s).fault t (s.thread t).pc 0 ⟨stArg, 1, 0xFFFF, 0⟩ := by
  rw [(issue_fetches h).2, ho]
  rfl

/-- An armed parity error of the register file faults the thread that reads a register. -/
theorem issue_parity {r : Row} {t : Nat} {w : Insn} {s : State} (h : (fetches t w s && r.mine w) = true) (ho : (xOk w && r.ok w) = true)
    (hr : r.reads w ≠ []) (ha : ((fetched t s).armed 6 (podOf t)).isSome = true) :
    r.issue t w s = ((fetched t s).fireInjected 6 (podOf t) 0).fault t (s.thread t).pc 0 ⟨stHw, 8, 0xFFFF, detId 6 (podOf t)⟩ := by
  obtain ⟨i, hi⟩ := Option.isSome_iff_exists.1 ha
  rw [(issue_fetches h).2, ho, hi, if_neg (by decide), if_neg (by rwa [List.isEmpty_iff])]

/-- A register that awaits a result blocks its reader. -/
theorem issue_awaits {r : Row} {t : Nat} {w : Insn} {s : State} (h : (fetches t w s && r.mine w) = true) (ho : (xOk w && r.ok w) = true)
    (ha : ((fetched t s).armed 6 (podOf t)).isNone = true) (hw : (s.thread t).awaits (r.reads w) = true) :
    r.issue t w s = (fetched t s).block t .result := by
  rw [(issue_fetches h).2, ho, Option.isNone_iff_eq_none.1 ha, ite_self, if_neg (by decide)]
  exact if_pos hw

/-- Settles O59: every command of the list runs the issue of its row, which stops as the lemmas above say. -/
theorem podInstructionsStopAndWait : Obligations.PodInstructionsStopAndWait := by
  intro t w s p hp
  have hexec : exec p.1 s = .next (p.2.issue t w s) := by
    revert p
    repeat' refine List.forall_mem_cons.2 ⟨rfl, ?_⟩
    exact List.forall_mem_nil _
  rw [hexec]
  refine ⟨State.not_chosen, fun hc => ?_, fun va e hc he => ⟨?_, ?_⟩, fun v hc hv hne => ?_, fun hgo ho => ?_, fun hgo ho hr ha => ?_, fun hgo ho ha hw => ?_⟩
  · rw [issue_not_chosen _ _ hc]
  · rw [issue_fetch_refused _ _ hc he]
  · rw [← State.thread_turned s (t := t) (by rw [chosen_running hc]; exact TState.noConfusion)]
    exact podFetch_error he
  · rw [issue_other_word hc hv hne]
  · rw [issue_reserved hgo ho]
  · refine ⟨_, congrArg Host.Outcome.next (issue_parity hgo ho hr ha), State.armed_fireInjected .., ?_⟩
    rw [State.thread_fireInjected, chosen_thread (issue_fetches hgo).1]
  · refine ⟨_, congrArg Host.Outcome.next (issue_awaits hgo ho ha hw), ?_⟩
    unfold State.block
    rw [State.thread_modThread_self, chosen_thread (issue_fetches hgo).1]

end Sys2Proof.Machine

namespace Sys2Proof.Machine
open Sys2Proof

/-! Lengths of what the sort network gives (R297 to R300). -/

theorem insertBy_length {α : Type} (le : α → α → Bool) (x : α) (l : List α) : (insertBy le x l).length = l.length + 1 := by
  induction l with
  | nil => rfl
  | cons y t ih =>
    unfold insertBy
    split
    · rfl
    · rw [List.length_cons, ih, List.length_cons]

theorem sortBy_length {α : Type} (le : α → α → Bool) (l : List α) : (sortBy le l).length = l.length := by
  induction l with
  | nil => rfl
  | cons x t ih => rw [List.length_cons, ← ih]; exact insertBy_length le x _

theorem netSort_length (kt : KeyType) (desc : Bool) (l : List (Word × Word)) : (netSort kt desc l).length = l.length := sortBy_length ..

theorem Thread.active_length_le (th : Thread) (m : Nat) : (th.active m).length ≤ 64 :=
  (List.length_filter_le _ _).trans (by rw [List.length_range])

theorem Thread.pairsOn_length_le (th : Thread) (r m : Nat) : (th.pairsOn r m).length ≤ 64 := by
  unfold Thread.pairsOn
  rw [List.length_map]
  exact th.active_length_le m

theorem Thread.pairs_length (th : Thread) (r : Nat) : (th.pairs r).length = 64 := by
  unfold Thread.pairs
  rw [List.length_map, List.length_range]

theorem State.undefPairs_length (s : State) (n : Nat) : (s.undefPairs n).1.length = n := by
  unfold State.undefPairs
  rw [List.length_map, List.length_range]

/-- VTOPK keeps as many pairs as its destination holds. -/
theorem netTopk_length {kt : KeyType} {desc : Bool} {d a b : List (Word × Word)} (hd : d.length = 64) (h : netTopk kt desc d a = some b) : b.length = 64 := by
  unfold netTopk at h
  dsimp only at h
  split_ifs at h
  cases h
  have hsplit := List.length_eq_length_filter_add (l := d) (topkValid kt)
  simp only [List.length_append, List.length_take, netSort_length]
  omega

/-! What SORT comes to where the network is free, and where it is busy (R302). -/

/-- The state in which the sort network of a Pod is taken for n beats and 2k free values are drawn. -/
def State.sorting (s : State) (p n k : Nat) : State := { s.modPod p (fun x => { x with sortBeats := n }) with free := s.free + 2 * k }

theorem onNetwork_free {t n : Nat} {s : State} (go : State → State) (h : (s.pod (podOf t)).sortBeats = 0) :
    onNetwork t n s go = .next (go (s.modPod (podOf t) (fun x => { x with sortBeats := n }))) := if_pos h

theorem onNetwork_busy {t n : Nat} {s : State} (go : State → State) (h : (s.pod (podOf t)).sortBeats ≠ 0) :
    onNetwork t n s go = .stay (s.modThread t (fun th => { th with st := .blocked .sort })) := if_neg h

theorem vsortRun_free {t : Nat} {w : Insn} {s : State} (h : (s.pod (podOf t)).sortBeats = 0) {on : List (Word × Word)}
    (hon : on = netSort (sortKey w) (insF w % 2 == 1) ((s.thread t).pairsOn (insA w) (insM w))) : ∃ l : List (Word × Word), on.length + l.length = 64 ∧
      vsortRun t w s = .next ((s.sorting (podOf t) 16 l.length).modThread t (fun y =>
        (y.wv (insD w) ((on ++ l).map Prod.fst)).wv (insD w + 1) ((on ++ l).map Prod.snd))) := by
  have hle : on.length ≤ 64 := by
    rw [hon, netSort_length]
    exact Thread.pairsOn_length_le ..
  refine ⟨(s.undefPairs (64 - on.length)).1, ?_, ?_⟩
  · rw [State.undefPairs_length]
    omega
  · unfold vsortRun
    rw [onNetwork_free _ h, ← hon, State.undefPairs_length]
    rfl

theorem vmergeRun_free {t : Nat} {w : Insn} {s : State} (h : (s.pod (podOf t)).sortBeats = 0) {a b on : List (Word × Word)}
    (ha : a = (s.thread t).pairsOn (insA w) (insM w)) (hb : b = (s.thread t).pairsOn (insB w) (insM w ^^^ 1))
    (hon : on = if netSort (sortKey w) (insF w % 2 == 1) a = a ∧ netSort (sortKey w) (insF w % 2 == 1) b = b
      then netSort (sortKey w) (insF w % 2 == 1) (a ++ b) else []) : ∃ l : List (Word × Word), on.length + l.length = 128 ∧
      vmergeRun t w s = .next ((s.sorting (podOf t) 16 l.length).modThread t (fun y =>
        (((y.wv (insD w) (((on ++ l).take 64).map Prod.fst)).wv (insD w + 1) (((on ++ l).take 64).map Prod.snd)).wv (insD w + 2)
          (((on ++ l).drop 64).map Prod.fst)).wv (insD w + 3) (((on ++ l).drop 64).map Prod.snd))) := by
  have hle : on.length ≤ 128 := by
    have h1 := Thread.pairsOn_length_le (s.thread t) (insA w) (insM w)
    have h2 := Thread.pairsOn_length_le (s.thread t) (insB w) (insM w ^^^ 1)
    rw [← ha] at h1
    rw [← hb] at h2
    rw [hon]
    split
    · rw [netSort_length, List.length_append]
      omega
    · exact Nat.zero_le _
  have hon' : on = if netSorted (sortKey w) (insF w % 2 == 1) a && netSorted (sortKey w) (insF w % 2 == 1) b
      then netSort (sortKey w) (insF w % 2 == 1) (a ++ b) else [] := by
    rw [hon]
    unfold netSorted
    simp only [Bool.and_eq_true, beq_iff_eq]
  refine ⟨(s.undefPairs (128 - on.length)).1, ?_, ?_⟩
  · rw [State.undefPairs_length]
    omega
  · unfold vmergeRun
    rw [onNetwork_free _ h, ← ha, ← hb, ← hon', State.undefPairs_length]
    rfl

theorem vtopkRun_free {t : Nat} {w : Insn} {s : State} (h : (s.pod (podOf t)).sortBeats = 0) {r : Option (List (Word × Word))}
    (hr : r = netTopk (sortKey w) (insF w % 2 == 1) ((s.thread t).pairs (insD w)) ((s.thread t).pairsOn (insA w) (insM w))) :
    ∃ l : List (Word × Word), l.length = 64 ∧ (∀ b, r = some b → l = b) ∧
      vtopkRun t w s = .next ((s.sorting (podOf t) 8 (if r.isSome then 0 else 64)).modThread t (fun y =>
        (y.wv (insD w) (l.map Prod.fst)).wv (insD w + 1) (l.map Prod.snd))) := by
  unfold vtopkRun
  rw [onNetwork_free _ h, ← hr]
  cases r with
  | some l => exact ⟨l, netTopk_length (Thread.pairs_length ..) hr.symm, fun b hb => Option.some.inj hb, rfl⟩
  | none => exact ⟨_, State.undefPairs_length .., nofun, rfl⟩

/-- Each SORT waits for a network that is busy. -/
theorem sortRun_busy {t : Nat} (w : Insn) {s : State} (h : (s.pod (podOf t)).sortBeats ≠ 0) {run : Nat → Insn → State → Issue}
    (hr : run = vsortRun ∨ run = vmergeRun ∨ run = vtopkRun) : run t w s = .stay (s.modThread t (fun th => { th with st := .blocked .sort })) := by
  rcases hr with rfl | rfl | rfl
  · unfold vsortRun
    exact onNetwork_busy _ h
  · unfold vmergeRun
    exact onNetwork_busy _ h
  · unfold vtopkRun
    exact onNetwork_busy _ h

/-- Settles O17, by what the network gives where it is free; where it is busy every SORT waits. -/
theorem sortInstructionsComplete : Obligations.SortInstructionsComplete := by
  intro t w s
  refine ⟨fun hfree => ⟨fun h on hon => ?_, fun h a b on ha hb hon => ?_, fun h r hr => ?_⟩, fun hbusy c hc => ?_⟩
  · obtain ⟨l, hl, hrun⟩ := vsortRun_free hfree (hon.trans (by rw [issued_thread h]))
    exact ⟨l, hl, congrArg Host.Outcome.next (issue_next h hrun)⟩
  · obtain ⟨l, hl, hrun⟩ := vmergeRun_free hfree (ha.trans (by rw [issued_thread h])) (hb.trans (by rw [issued_thread h])) hon
    exact ⟨l, hl, congrArg Host.Outcome.next (issue_next h hrun)⟩
  · obtain ⟨l, hl, hb, hrun⟩ := vtopkRun_free hfree (hr.trans (by rw [issued_thread h]))
    exact ⟨l, hl, hb, congrArg Host.Outcome.next (issue_next h hrun)⟩
  · rcases hc with ⟨rfl, h⟩ | ⟨rfl, h⟩ | ⟨rfl, h⟩
    · exact congrArg Host.Outcome.next (issue_stay h (sortRun_busy w hbusy (.inl rfl)))
    · exact congrArg Host.Outcome.next (issue_stay h (sortRun_busy w hbusy (.inr (.inl rfl))))
    · exact congrArg Host.Outcome.next (issue_stay h (sortRun_busy w hbusy (.inr (.inr rfl))))

end Sys2Proof.Machine

namespace Sys2Proof.Machine
open Sys2Proof

/-! What an access that only reads leaves of memory: what the ATU answers, the bytes, the operations watched, and Freeze (R211 to R218). -/

/-- The mappings of each context, the bytes of memory, the operations watched and what is frozen. -/
def State.kept (s : State) : Tbl (List Mapping) × Tbl Byte × List Watch × Frz := (s.mem.contexts.mapV Ctx.maps, s.mem.bytes, s.mem.watch, s.dbg.frz)

@[simp] theorem State.fire_frz (s : State) (k n d : Nat) (j : Bool) : (s.fire k n d j).dbg.frz = s.dbg.frz := by
  unfold State.fire
  dsimp only
  split <;> split <;> simp [State.modDetector] <;> split <;> rfl

@[simp] theorem State.kept_fire (s : State) (k n d : Nat) (j : Bool) : (s.fire k n d j).kept = s.kept := by simp [State.kept]

@[simp] theorem State.kept_fireInjected (s : State) (k n d : Nat) : (s.fireInjected k n d).kept = s.kept := State.kept_fire ..

theorem State.kept_fireAs (s : State) (j : Bool) (k n d : Nat) : (s.fireAs j k n d).kept = s.kept := by
  unfold State.fireAs
  split <;> simp

@[simp] theorem State.kept_modChannel (s : State) (c : Nat) (f : Channel → Channel) : (s.modChannel c f).kept = s.kept := rfl

/-- A context changed but for its mappings. -/
theorem State.kept_modCtx (s : State) (c : Nat) {f : Ctx → Ctx} (hf : ∀ x, (f x).maps = x.maps) : (s.modCtx c f).kept = s.kept := by
  unfold State.modCtx
  split
  · rfl
  · next x hx =>
    have h : (s.mem.contexts.put c (f x)).mapV Ctx.maps = s.mem.contexts.mapV Ctx.maps := Tbl.put_map _ _ _ _ _ hx (by rw [hf])
    unfold State.kept
    rw [h]

@[simp] theorem State.kept_countRefused (s : State) (c st : Nat) : (s.countRefused c st).kept = s.kept := State.kept_modCtx _ _ fun _ => rfl

theorem kept_linkMeet (s : State) (ch : Nat) : (linkMeet s ch).1.kept = s.kept := by
  unfold linkMeet
  split <;> simp

theorem kept_eccRead (s : State) (ch blk : Nat) : (eccRead s ch blk).1.kept = s.kept := by
  unfold eccRead
  split
  · rfl
  · rw [State.kept_fireAs]; rfl
  · rw [State.kept_fireAs]; rfl

theorem kept_lpddrBlock (s : State) (pa : Nat) (ecc reads full : Bool) : (lpddrBlock s pa ecc reads full).1.kept = s.kept := by
  have h : (linkMeet (s.countAccess (channelOf pa) full) (channelOf pa)).1.kept = s.kept := kept_linkMeet ..
  unfold lpddrBlock
  dsimp only
  split
  · rfl
  · split
    · exact h
    · split
      · exact h
      · split
        · exact h
        · split
          · exact h
          · exact (kept_eccRead ..).trans h

theorem kept_storeWords (s : State) (pa len : Nat) : (storeWords s pa len).1.kept = s.kept := by
  unfold storeWords
  dsimp only
  split_ifs <;> simp

theorem kept_pieceAccess (s : State) (pa len : Nat) (ecc write reads : Bool) : (pieceAccess s pa len ecc write reads).1.kept = s.kept := by
  unfold pieceAccess
  split_ifs
  · exact kept_lpddrBlock ..
  · exact kept_storeWords ..
  · rfl

theorem kept_translate (s : State) (ctx va len : Nat) (n : Need) (old : Bool) : ((translate ctx va len n old).exec s).2.kept = s.kept := by
  unfold translate Io.exec
  dsimp only
  split
  · rfl
  · exact State.kept_countRefused ..

theorem kept_touchAll (ctx : Nat) (n : Need) (write reads : Bool) (l : List (Nat × Nat × Bool)) (s : State) :
    ((touchAll ctx n write reads l).exec s).2.kept = s.kept := by
  induction l generalizing s with
  | nil => rfl
  | cons p t ih =>
    obtain ⟨pa, len, ecc⟩ := p
    have hp := kept_pieceAccess s pa len ecc write reads
    unfold touchAll Io.exec
    dsimp only
    split
    · rename_i s' h; rw [h] at hp; exact (ih s').trans hp
    · rename_i s' e h; rw [h] at hp; exact (State.kept_countRefused ..).trans hp

/-- One operation after another, by what the first comes to. -/
theorem Io.exec_bind {α β : Type} (m : Io α) (k : α → Io β) (s : State) : (m >>= k).exec s = match m.exec s with
    | (.ok a, u) => (k a).exec u
    | (.error e, u) => (.error e, u) := by
  show (ExceptT.bind m k) s = _
  unfold ExceptT.bind ExceptT.mk Io.exec
  show (StateT.bind m _) s = _
  unfold StateT.bind
  rcases h : m s with ⟨r, u⟩
  cases r <;> simp [bind] <;> rfl

/-- A read leaves what the ATU answers, the bytes, the operations watched and Freeze. -/
theorem kept_memReadN (n : Need) (ctx va len : Nat) (old : Bool) (s : State) : ((memReadN n ctx va len old).exec s).2.kept = s.kept := by
  unfold memReadN
  have ht := kept_translate s ctx va len n old
  rw [Io.exec_bind]
  rcases h : (translate ctx va len n old).exec s with ⟨q, u⟩
  rw [h] at ht
  cases q with
  | error e => exact ht
  | ok ps =>
    dsimp only
    have hw := kept_touchAll ctx n false true ps u
    rw [Io.exec_bind]
    rcases h2 : (touchAll ctx n false true ps).exec u with ⟨q, v⟩
    rw [h2] at hw
    cases q <;> exact hw.trans ht

theorem kept_podFetch (s : State) (t : Nat) : (podFetch s t).2.kept = s.kept := by
  unfold podFetch
  dsimp only
  split_ifs
  · rfl
  · have h := kept_memReadN .x (s.ctxOf t) (s.thread t).pc 4 false s
    rcases e : (memReadN .x (s.ctxOf t) (s.thread t).pc 4).exec s with ⟨q, u⟩
    rw [e] at h
    cases q with
    | error e => exact h
    | ok b =>
      dsimp only
      split_ifs
      · have k := kept_memReadN .x (u.ctxOf t) (((s.thread t).pc + 4) % 2 ^ 64) 4 false u
        rcases e2 : (memReadN .x (u.ctxOf t) (((s.thread t).pc + 4) % 2 ^ 64) 4).exec u with ⟨q, v⟩
        rw [e2] at k
        cases q <;> exact k.trans h
      · exact h

theorem State.kept_turned (s : State) (t : Nat) : (s.turned t).kept = s.kept := by
  show (s.sortBeat (podOf t)).kept = s.kept
  unfold State.sortBeat
  split <;> rfl

/-- A turn and a fetch leave what the ATU answers, the bytes, the operations watched and Freeze. -/
theorem fetched_kept (t : Nat) (s : State) : (fetched t s).kept = s.kept := (kept_podFetch ..).trans (s.kept_turned t)

theorem State.watch_of_kept {s u : State} (h : u.kept = s.kept) : u.mem.watch = s.mem.watch := congrArg (fun k => k.2.2.1) h
theorem State.bytes_of_kept {s u : State} (h : u.kept = s.kept) : u.mem.bytes = s.mem.bytes := congrArg (fun k => k.2.1) h
theorem State.frz_of_kept {s u : State} (h : u.kept = s.kept) : u.dbg.frz = s.dbg.frz := congrArg (fun k => k.2.2.2) h

/-- What the ATU answers goes by the mappings alone. -/
theorem atu_congr {s u : State} (h : u.mem.contexts.mapV Ctx.maps = s.mem.contexts.mapV Ctx.maps) (ctx va : Nat) (n : Need) (old : Bool) :
    atu u ctx va n old = atu s ctx va n old := by
  have hf : (u.mem.contexts.find ctx).map Ctx.maps = (s.mem.contexts.find ctx).map Ctx.maps := by
    rw [← Tbl.find_mapV, ← Tbl.find_mapV, h]
  unfold atu Ctx.mapAt
  split
  · rfl
  · rcases hs : s.mem.contexts.find ctx with _ | c <;> rcases hu : u.mem.contexts.find ctx with _ | d <;> rw [hs, hu] at hf
    · cases hf
    · cases hf
    · dsimp only
      rw [Option.some.inj hf]

theorem atu_of_kept {s u : State} (h : u.kept = s.kept) (ctx va : Nat) (n : Need) (old : Bool) : atu u ctx va n old = atu s ctx va n old :=
  atu_congr (congrArg Prod.fst h) ..

theorem State.frozen_congr {s u : State} (h : u.dbg.frz = s.dbg.frz) (p : Nat) : u.frozen p = s.frozen p := by
  unfold State.frozen
  rw [h]

theorem State.memFrozen_congr {s u : State} (h : u.dbg.frz = s.dbg.frz) : u.memFrozen = s.memFrozen := by
  unfold State.memFrozen
  simp only [State.frozen_congr h]

end Sys2Proof.Machine

namespace Sys2Proof.Machine
open Sys2Proof

/-! The checks of an access and the slot it takes (R93, R116, R131), in a state and after a fetch. -/

theorem allowed_cons (ctx : Nat) (n : Need) (size va : Nat) (l : List Nat) (s : State) :
    allowed ctx n size (va :: l) s = true ↔ (∃ p, atu s ctx va n = .ok p) ∧ va % size = 0 ∧ allowed ctx n size l s = true := by
  unfold allowed
  rw [List.all_cons, Bool.and_eq_true, Bool.and_eq_true, beq_iff_eq, and_assoc]
  cases atu s ctx va n <;> simp

theorem checkElems_allowed {ctx : Nat} {n : Need} {size : Nat} {l : List Nat} {s : State} (h : allowed ctx n size l s = true) (rest : List Nat) :
    checkElems ctx n size (l ++ rest) s = checkElems ctx n size rest s := by
  induction l with
  | nil => rfl
  | cons va l ih =>
    obtain ⟨⟨p, hp⟩, hal, hl⟩ := (allowed_cons ..).1 h
    rw [List.cons_append, checkElems, hp]
    exact (if_neg (by simpa using hal)).trans (ih hl)

/-- An access whose checks all pass goes on. -/
theorem checked_allowed {t : Nat} {n : Need} {size : Nat} {l : List Nat} {s : State} (h : allowed (s.ctxOf t) n size l s = true) (go : State → Issue) :
    checked t n size l s go = go s := by
  have hc : checkElems (s.ctxOf t) n size l s = (none, s) := by
    have := checkElems_allowed h []
    rwa [List.append_nil] at this
  unfold checked
  rw [hc]

/-- The first address that the ATU refuses faults, counted in its context. -/
theorem checked_refused {t : Nat} {n : Need} {size va e : Nat} {l1 l2 : List Nat} {s : State} (h : allowed (s.ctxOf t) n size l1 s = true)
    (he : atu s (s.ctxOf t) va n = .error e) (go : State → Issue) :
    checked t n size (l1 ++ va :: l2) s go = .fault ⟨e, n.detail, 0xFFFF, 0⟩ va (s.countRefused (s.ctxOf t) e) := by
  unfold checked
  rw [checkElems_allowed h, checkElems, he]
  rfl

/-- The first address that is not aligned faults. -/
theorem checked_misaligned {t : Nat} {n : Need} {size va : Nat} {p : Nat × Bool} {l1 l2 : List Nat} {s : State}
    (h : allowed (s.ctxOf t) n size l1 s = true) (hp : atu s (s.ctxOf t) va n = .ok p) (ha : va % size ≠ 0) (go : State → Issue) :
    checked t n size (l1 ++ va :: l2) s go = .fault ⟨stAlign, 5, 0xFFFF, 0⟩ va s := by
  have hc : checkElems (s.ctxOf t) n size (va :: l2) s = (some (va, fErr stAlign 5), s) := by
    rw [checkElems, hp]
    exact if_pos ha
  unfold checked
  rw [checkElems_allowed h, hc]
  rfl

theorem allowed_of_kept {s u : State} (h : u.kept = s.kept) (ctx : Nat) (n : Need) (size : Nat) (l : List Nat) :
    allowed ctx n size l u = allowed ctx n size l s := by
  unfold allowed
  simp only [atu_of_kept h]

theorem Thread.wake_slots (th : Thread) : th.wake.slots = th.slots := by
  unfold Thread.wake
  split
  · split <;> rfl
  all_goals rfl

theorem Thread.wakeSort_slots (th : Thread) : th.wakeSort.slots = th.slots := by
  unfold Thread.wakeSort
  split
  · exact th.wake_slots
  · rfl

/-- A turn and a fetch leave every thread's load slots. -/
theorem fetched_slots (t k : Nat) (s : State) : ((fetched t s).thread k).slots = (s.thread k).slots := by
  have hp : (fetched t s).thread k = (s.turned t).thread k := congrArg (fun p : Pods => p.threads.at Thread.init k) (fetched_sameCore t s).pods
  rw [hp]
  show ((s.sortBeat (podOf t)).thread k).slots = _
  unfold State.sortBeat
  split
  · rfl
  · rw [State.thread_sortFree]
    split
    · exact Thread.wakeSort_slots _
    · rfl
  · rfl

/-- A turn and a fetch leave the tracker's entries. -/
theorem fetched_trackerUsed (t p : Nat) (s : State) : (fetched t s).trackerUsed p = s.trackerUsed p := by
  unfold State.trackerUsed
  simp only [fetched_slots]

/-- With a slot and tracker entries free an operation takes the lowest slot. -/
theorem takeSlot_room {t n : Nat} {s : State} (op : SlotOp) (h : roomFor t n s = true) : takeSlot t n op s = .next (s.modThread t (Thread.loaded op n)) := by
  unfold roomFor at h
  rw [Bool.and_eq_true, decide_eq_true_eq] at h
  obtain ⟨k, hk⟩ := Option.isSome_iff_exists.1 h.1
  unfold takeSlot
  dsimp only
  rw [hk]
  dsimp only
  rw [if_neg (by omega)]
  refine congrArg Issue.next (State.modThread_congr ?_)
  unfold Thread.loaded
  rw [hk]
  rfl

theorem takeSlot_noSlot {t : Nat} {s : State} (n : Nat) (op : SlotOp) (h : (s.thread t).freeSlot = none) :
    takeSlot t n op s = .stay (s.block t .loadSlot) := by
  unfold takeSlot
  dsimp only
  rw [h]

theorem takeSlot_noEntry {t n : Nat} {s : State} (op : SlotOp) (h : (s.thread t).freeSlot.isSome = true) (hn : 128 < s.trackerUsed (podOf t) + n) :
    takeSlot t n op s = .stay (s.block t .tracker) := by
  obtain ⟨k, hk⟩ := Option.isSome_iff_exists.1 h
  unfold takeSlot
  dsimp only
  rw [hk]
  exact if_pos hn

section
variable {r : Row} {t : Nat} {w : Insn} {s : State} (h : issues r t w s = true)
include h

theorem issued_roomFor (n : Nat) : roomFor t n (fetched t s) = roomFor t n s := by
  unfold roomFor
  rw [issued_thread h, fetched_trackerUsed]

theorem issued_allowed (n : Need) (size : Nat) (l : List Nat) :
    allowed ((fetched t s).ctxOf t) n size l (fetched t s) = allowed (s.ctxOf t) n size l s := by
  rw [ctxOf_issued h, allowed_of_kept (fetched_kept t s)]

/-- A checked instruction that issues with every address granted and aligned comes to what its checks lead to. -/
theorem issue_checked {n : Need} {size : Nat} {l : List Nat} {go : State → Issue} {u : State} (hr : r.run t w (fetched t s) = checked t n size l (fetched t s) go)
    (ha : allowed (s.ctxOf t) n size l s = true) (hg : go (fetched t s) = .next u) : r.issue t w s = ended r t w (nextPc w (s.thread t).pc) s u :=
  issue_next h (hr.trans ((checked_allowed (by rw [issued_allowed h, ha]) go).trans hg))

/-- An instruction that takes a slot for what it reads. -/
theorem issue_takesSlot {n : Need} {size k : Nat} {l : List Nat} {op : SlotOp}
    (hr : r.run t w (fetched t s) = checked t n size l (fetched t s) (takeSlot t k op)) (ha : allowed (s.ctxOf t) n size l s = true)
    (hroom : roomFor t k s = true) : r.issue t w s = retiredNext r t w s (Thread.loaded op k) :=
  issue_checked h hr ha (takeSlot_room op (by rw [issued_roomFor h, hroom]))

/-- A checked instruction stops at the first address refused or not aligned. -/
theorem issue_check_fails {n : Need} {size va : Nat} {l1 l2 : List Nat} {go : State → Issue}
    (hr : r.run t w (fetched t s) = checked t n size (l1 ++ va :: l2) (fetched t s) go) (ha : allowed (s.ctxOf t) n size l1 s = true) :
    (∀ e, atu s (s.ctxOf t) va n = .error e →
      r.issue t w s = ((fetched t s).countRefused (s.ctxOf t) e).fault t (s.thread t).pc va ⟨e, n.detail, 0xFFFF, 0⟩) ∧
    (∀ p, atu s (s.ctxOf t) va n = .ok p → va % size ≠ 0 → r.issue t w s = (fetched t s).fault t (s.thread t).pc va ⟨stAlign, 5, 0xFFFF, 0⟩) := by
  have hatu : atu (fetched t s) ((fetched t s).ctxOf t) va n = atu s (s.ctxOf t) va n := by
    rw [ctxOf_issued h, atu_of_kept (fetched_kept t s)]
  have ha' : allowed ((fetched t s).ctxOf t) n size l1 (fetched t s) = true := by rw [issued_allowed h, ha]
  refine ⟨fun e he => ?_, fun p hp hal => ?_⟩
  · have := issue_fault h (hr.trans (checked_refused ha' (hatu.trans he) go))
    rwa [ctxOf_issued h] at this
  · exact issue_fault h (hr.trans (checked_misaligned ha' (hatu.trans hp) hal go))

/-- A checked instruction that needs a slot waits for one, or for the tracker. -/
theorem issue_slot_waits {n : Need} {size k : Nat} {l : List Nat} {op : SlotOp}
    (hr : r.run t w (fetched t s) = checked t n size l (fetched t s) (takeSlot t k op)) (ha : allowed (s.ctxOf t) n size l s = true) :
    ((s.thread t).freeSlot = none → r.issue t w s = (fetched t s).block t .loadSlot) ∧
    ((s.thread t).freeSlot.isSome = true → 128 < s.trackerUsed (podOf t) + k → r.issue t w s = (fetched t s).block t .tracker) := by
  have hrun := hr.trans (checked_allowed (by rw [issued_allowed h, ha]) _)
  refine ⟨fun hs => ?_, fun hs hk => ?_⟩
  · exact issue_stay h (hrun.trans (takeSlot_noSlot k op (by rw [issued_thread h, hs])))
  · exact issue_stay h (hrun.trans (takeSlot_noEntry op (by rw [issued_thread h, hs]) (by rw [fetched_trackerUsed]; exact hk)))

end

/-! What each memory row runs, by its thread as it was before the fetch (R114 to R117, R120). -/

theorem issued_ld {t : Nat} {w : Insn} {s : State} (h : issues rowLd t w s = true) : rowLd.run t w (fetched t s) =
    checked t .r (ldSize w) [ldAddr (s.thread t) w] (fetched t s) (takeSlot t 1 (.scalar (insD w) (ldSize w) (ldAddr (s.thread t) w))) := by
  rw [← issued_thread h]
  rfl

/-- What ST and VST do past their checks. -/
def storing (t : Nat) (pieces : Thread → List (Nat × List Byte)) (s : State) : Issue := .next (s.modThread t (fun y => y.addStore (pieces y)))

theorem issued_st {t : Nat} {w : Insn} {s : State} (h : issues rowSt t w s = true) : rowSt.run t w (fetched t s) =
    checked t .w (ldSize w) [ldAddr (s.thread t) w] (fetched t s)
      (storing t (fun y => [(ldAddr (s.thread t) w, leb (ldSize w) (y.rs (insD w)).toNat)])) := by
  rw [← issued_thread h]
  rfl

theorem issued_vld {t : Nat} {w : Insn} {s : State} (h : issues rowVld t w s = true) {l : List Nat}
    (hl : l = ((s.thread t).active (insM w)).map (vldAddr (s.thread t) w)) : rowVld.run t w (fetched t s) =
      checked t .r 4 l (fetched t s) (takeSlot t (distinctBlocks l) (.vector (insD w)
        (((s.thread t).active (insM w)).map (fun i => (i, vldAddr (s.thread t) w i))))) := by
  have he : l = (((s.thread t).active (insM w)).map (fun i => (i, vldAddr (s.thread t) w i))).map Prod.snd := by
    rw [hl, List.map_map]
    rfl
  rw [he, ← issued_thread h]
  rfl

theorem issued_vst {t : Nat} {w : Insn} {s : State} (h : issues rowVst t w s = true) {l : List Nat}
    (hl : l = ((s.thread t).active (insM w)).map (vldAddr (s.thread t) w)) : rowVst.run t w (fetched t s) =
      checked t .w 4 l (fetched t s) (storing t (fun _ => ((s.thread t).active (insM w)).map (fun i =>
        (vldAddr (s.thread t) w i, leb 4 (elem ((s.thread t).rv (insD w)) i).toNat)))) := by
  have he : l = (((s.thread t).active (insM w)).map (fun i =>
      (vldAddr (s.thread t) w i, leb 4 (elem ((s.thread t).rv (insD w)) i).toNat))).map Prod.fst := by
    rw [hl, List.map_map]
    rfl
  rw [he, ← issued_thread h]
  rfl

/-- The size of a scalar atomic's operand. -/
def atomSize (w : Insn) : Nat := if insT w = 0 then 8 else 4

theorem issued_atom {t : Nat} {w : Insn} {s : State} (h : issues rowAtom t w s = true) (hF : insF w ≤ 5) : rowAtom.run t w (fetched t s) =
    checked t .rw (atomSize w) [((s.thread t).rs (insA w)).toNat] (fetched t s) (takeSlot t 1 (.atomic (insF w) (insD w) (atomSize w)
      ((s.thread t).rs (insA w)).toNat ((s.thread t).rs (insB w)).toNat ((s.thread t).rs (insD w)).toNat)) := by
  rw [← issued_thread h]
  exact if_pos hF

/-- The address of each active element of a vector atomic. -/
def scatterAddr (th : Thread) (w : Insn) (i : Nat) : Nat := (th.rs (insA w) + (elem (th.rv (insB w)) i).setWidth 64).toNat

theorem issued_vatom {t : Nat} {w : Insn} {s : State} (h : issues rowAtom t w s = true) (hF : 5 < insF w) {l : List Nat}
    (hl : l = ((s.thread t).active (insM w)).map (scatterAddr (s.thread t) w)) : rowAtom.run t w (fetched t s) =
      checked t .rw 4 l (fetched t s) (takeSlot t (distinctBlocks l) (.vatomic (insF w == 7)
        (((s.thread t).active (insM w)).map (fun i => (scatterAddr (s.thread t) w i, (elem ((s.thread t).rv (insD w)) i).toNat))))) := by
  have he : l = (((s.thread t).active (insM w)).map (fun i => (scatterAddr (s.thread t) w i, (elem ((s.thread t).rv (insD w)) i).toNat))).map Prod.fst := by
    rw [hl, List.map_map]
    rfl
  rw [he, ← issued_thread h]
  exact if_neg (by omega)

theorem hashGroup_length (a n : Nat) : (hashGroup a n 0).length = min 8 (blocks64 a n).length := List.length_take

theorem issued_hashs {t : Nat} {w : Insn} {s : State} (h : issues rowHashs t w s = true) {n : Nat} (hn : n = ((s.thread t).rs (insB w)).toNat)
    (hle : n ≤ 65536) : rowHashs.run t w (fetched t s) =
      checked t .r 1 ((blocks64 ((s.thread t).rs (insA w)).toNat n).map Prod.fst) (fetched t s)
        (takeSlot t (min 8 (blocks64 ((s.thread t).rs (insA w)).toNat n).length) (.hashs (insF w) (insD w) ((s.thread t).rs (insA w)).toNat n
          ((s.thread t).rs (insD w)).toNat (if insF w = 3 then ((s.thread t).rs (insD w + 1)).toNat else 0) [])) := by
  subst hn
  rw [← hashGroup_length, ← issued_thread h]
  rw [← issued_thread h] at hle
  exact if_neg (by omega)

/-- FENCE goes on once no slot is taken and its stores have reached memory. -/
theorem withStores_drained {t : Nat} {s u : State} (go : State → Issue) (hf : s.memFrozen = false)
    (hw : (s.thread t).stores.any (s.thread t).storeWaits = false) (hd : s.drainStores t = (none, u)) : withStores t s go = go u := by
  unfold withStores
  dsimp only
  rw [hf, hw, hd]
  rfl

theorem Thread.storeWaits_of_unoccupied {th : Thread} (h : th.occupied = []) (l : List StoreOp) : l.any th.storeWaits = false := by
  rw [List.any_eq_false]
  intro st _
  unfold Thread.storeWaits
  rw [h]
  exact Bool.false_ne_true

/-- The rows of memory instructions check their addresses first; those but the stores then take a slot. -/
def checksThen (i : Instr) (r : Row) (t : Fin 8192) (w : Insn) (s : State) (n : Need) (size k : Nat) (l : List Nat) : Prop :=
  exec i s = .next (r.issue t w s) ∧ ∃ go : State → Issue, r.run t w (fetched t s) = checked t n size l (fetched t s) go ∧
    (i ≠ .st t w → i ≠ .vst t w → ∃ op, go = takeSlot t k op)

/-- Settles O18: each row checks its addresses, and then takes a slot, adds a store or waits. -/
theorem podMemoryInstructionsComplete : Obligations.PodMemoryInstructionsComplete := by
  intro t w s
  refine ⟨fun x n hx hn => ?_, fun l hl => ?_, fun i => ?_, fun h hF n hn ha hr => ?_,
    fun h hF l hl ha hr => ?_, fun h ho hf u hd => ?_, fun h n hn hle ha hr => ?_, fun h hn => ?_, fun i r n size k l hi h => ?_⟩
  · subst hx hn
    refine ⟨fun h ha hr => ?_, fun h ha => ?_⟩
    · exact congrArg Host.Outcome.next (issue_takesSlot h (issued_ld h) ha hr)
    · exact congrArg Host.Outcome.next ((issue_checked h (issued_st h) ha rfl).trans (retired_congr h rfl))
  · subst hl
    have hsnd : (((s.thread t).active (insM w)).map (fun i => (i, vldAddr (s.thread t) w i))).map Prod.snd =
        ((s.thread t).active (insM w)).map (vldAddr (s.thread t) w) := by
      rw [List.map_map]
      rfl
    refine ⟨fun h ha hr => ?_, fun h ha => ?_⟩
    · exact congrArg Host.Outcome.next (issue_takesSlot h (issued_vld h hsnd) ha hr)
    · refine congrArg Host.Outcome.next ((issue_checked h (issued_vst h hsnd) ha rfl).trans (retired_congr h ?_))
      rw [List.map_map]
      rfl
  · unfold vldAddr
    dsimp only
    split
    · next hF => rw [if_pos hF]
    · next hF => rw [if_neg (by omega), if_pos hF]
    · next hF => rw [if_neg (by omega), if_neg (by omega), if_pos hF]
    · next h0 h1 h2 => rw [if_neg h0, if_neg h1, if_neg h2]
  · subst hn
    exact congrArg Host.Outcome.next (issue_takesSlot h (issued_atom h hF) ha hr)
  · subst hl
    have hfst : (((s.thread t).active (insM w)).map (fun i => (scatterAddr (s.thread t) w i, (elem ((s.thread t).rv (insD w)) i).toNat))).map Prod.fst =
        ((s.thread t).active (insM w)).map (scatterAddr (s.thread t) w) := by
      rw [List.map_map]
      rfl
    exact congrArg Host.Outcome.next (issue_takesSlot h (issued_vatom h hF hfst) ha hr)
  · have hth := issued_thread h
    refine congrArg Host.Outcome.next (issue_next h ?_)
    show (if ((fetched t s).thread t).occupied.isEmpty then withStores t (fetched t s) Issue.next else _) = _
    rw [hth, ho]
    refine withStores_drained _ ?_ ?_ hd
    · rw [State.memFrozen_congr (State.frz_of_kept (fetched_kept t s)), hf]
    · rw [hth]
      exact Thread.storeWaits_of_unoccupied ho _
  · subst hn
    exact congrArg Host.Outcome.next (issue_takesSlot h (issued_hashs h rfl hle) ha hr)
  · refine congrArg Host.Outcome.next (issue_fault h ?_)
    rw [← issued_thread h] at hn
    exact if_pos hn
  · have key : checksThen i r t w s n size k l := by
      rcases hi with ⟨rfl, rfl, rfl, rfl, rfl, rfl⟩ | ⟨rfl, rfl, rfl, rfl, rfl, rfl⟩ | ⟨rfl, rfl, rfl, rfl, rfl, rfl⟩ | ⟨rfl, rfl, rfl, rfl, rfl, rfl⟩ |
        ⟨rfl, rfl, rfl, hF, rfl, rfl, rfl⟩ | ⟨rfl, rfl, rfl, hF, rfl, rfl, rfl⟩ | ⟨rfl, rfl, rfl, hle, rfl, rfl, rfl⟩
      · exact ⟨rfl, _, issued_ld h, fun _ _ => ⟨_, rfl⟩⟩
      · exact ⟨rfl, _, issued_st h, fun hst _ => absurd rfl hst⟩
      · exact ⟨rfl, _, issued_vld h rfl, fun _ _ => ⟨_, rfl⟩⟩
      · exact ⟨rfl, _, issued_vst h rfl, fun _ hvst => absurd rfl hvst⟩
      · exact ⟨rfl, _, issued_atom h hF, fun _ _ => ⟨_, rfl⟩⟩
      · exact ⟨rfl, _, issued_vatom h hF rfl, fun _ _ => ⟨_, rfl⟩⟩
      · exact ⟨rfl, _, (issued_hashs h rfl hle).trans (by rw [List.length_map]), fun _ _ => ⟨_, rfl⟩⟩
    obtain ⟨hex, go, hrun, hgo⟩ := key
    rw [hex]
    refine ⟨fun va e l1 l2 hl ha he => ?_, fun va p l1 l2 hl ha hp hal => ?_, fun hst hvst ha => ?_⟩
    · subst hl
      rw [(issue_check_fails h hrun ha).1 e he]
    · subst hl
      rw [(issue_check_fails h hrun ha).2 p hp hal]
    · obtain ⟨op, rfl⟩ := hgo hst hvst
      obtain ⟨h1, h2⟩ := issue_slot_waits h hrun ha
      exact ⟨fun hs => congrArg _ (h1 hs), fun hs hk => congrArg _ (h2 hs hk)⟩

end Sys2Proof.Machine

namespace Sys2Proof.Machine
open Sys2Proof

/-! Accesses within one block of 64 bytes (R116, R117, R211). -/

/-- A range within a block is one piece. -/
theorem blocks64_within {va len : Nat} (h0 : 0 < len) (h : va % 64 + len ≤ 64) : blocks64 va len = [(va, len)] := by
  have hmin : min len (64 - va % 64) = len := by omega
  unfold blocks64
  rw [blocks, if_neg (by omega)]
  dsimp only
  rw [hmin, blocks, if_pos (by omega)]

theorem translate_within {ctx va len pa : Nat} {n : Need} {old ecc : Bool} {s : State} (h0 : 0 < len) (h : va % 64 + len ≤ 64)
    (ha : atu s ctx va n old = .ok (pa, ecc)) : (translate ctx va len n old).exec s = (.ok [(pa, len, ecc)], s) := by
  unfold translate Io.exec
  rw [blocks64_within h0 h]
  simp [ha, Except.map, bind, Except.bind, pure, Except.pure]

theorem Mem.read_congr {m k : Mem} (h : m.bytes = k.bytes) (pa n : Nat) : m.read pa n = k.read pa n := by
  induction n generalizing pa with
  | zero => rfl
  | succ n ih => rw [Mem.read, Mem.read, ih, Mem.byte, Mem.byte, h]

theorem Mem.byte_congr {m k : Mem} (h : m.bytes = k.bytes) (pa : Nat) : m.byte pa = k.byte pa := by
  unfold Mem.byte
  rw [h]

/-- A list of bytes written at an address where the bytes are as another state has them: what is read there and elsewhere afterwards. -/
theorem Mem.write_spec {m k : Mem} (hm : m.bytes = k.bytes) (hk : k.wf = true) (pa : Nat) (b : List Byte) :
    (m.write pa b).read pa b.length = b ∧ ∀ q, q < pa ∨ pa + b.length ≤ q → (m.write pa b).byte q = k.byte q := by
  have hw : m.wf = true := Mem.wf_congr hm hk
  exact ⟨m.read_write pa b hw, fun q hq => (m.byte_write_other pa q b hw hq).trans (Mem.byte_congr hm q)⟩

/-- A read-modify-write within a block that succeeds answers the old bytes and leaves what f makes of them. -/
theorem memModify_within {ctx va len pa : Nat} {f : List Byte → List Byte} {old ecc : Bool} {s s' : State} {b : List Byte} (h0 : 0 < len)
    (h : va % 64 + len ≤ 64) (hf : ∀ x, (f x).length = len) (ha : atu s ctx va .rw old = .ok (pa, ecc)) (hw : s.mem.watch = []) (hwf : s.mem.wf = true)
    (hr : (memModify ctx va len f old).exec s = (.ok b, s')) :
    b = s.mem.read pa len ∧ s'.mem.read pa len = f b ∧ ∀ q, q < pa ∨ pa + len ≤ q → s'.mem.byte q = s.mem.byte q := by
  unfold memModify at hr
  rw [Io.exec_bind, translate_within h0 h ha] at hr
  dsimp only at hr
  rw [Io.exec_bind] at hr
  have hk := kept_touchAll ctx .r true true [(pa, len, ecc)] s
  rcases ht : (touchAll ctx .r true true [(pa, len, ecc)]).exec s with ⟨q, u⟩
  rw [ht] at hk hr
  have hbytes := State.bytes_of_kept hk
  have hwatch : u.mem.watch = [] := (State.watch_of_kept hk).trans hw
  cases q with
  | error e => cases hr
  | ok x =>
    have hview : viewPieces old [(pa, len, ecc)] u = (u.mem.read pa len, u) := by
      rw [viewPieces, State.view_unwatched _ _ _ _ hwatch]
      exact Prod.ext (List.append_nil _) rfl
    have hres : ((Except.ok b, s') : Except Err (List Byte) × State) = (Except.ok (u.mem.read pa len), u.store old pa ((f (u.mem.read pa len)).take len)) := by
      rw [← hr]
      show (Except.ok (viewPieces old [(pa, len, ecc)] u).1, storePieces old [(pa, len, ecc)] (f (viewPieces old [(pa, len, ecc)] u).1)
        (viewPieces old [(pa, len, ecc)] u).2) = _
      rw [hview]
      rfl
    rw [List.take_of_length_le (by rw [hf]), State.store_unwatched _ _ _ _ hwatch] at hres
    obtain ⟨hb, hs'⟩ := Prod.ext_iff.1 hres
    obtain rfl : b = u.mem.read pa len := Except.ok.inj hb
    subst hs'
    have hspec := Mem.write_spec hbytes hwf pa (f (u.mem.read pa len))
    rw [hf] at hspec
    exact ⟨Mem.read_congr hbytes _ _, hspec⟩

/-- A write within a block that succeeds leaves its bytes there, and every other byte. -/
theorem memWrite_within {ctx va pa : Nat} {bs : List Byte} {old ecc : Bool} {s s' : State} {x : Unit} (h0 : bs ≠ [])
    (h : va % 64 + bs.length ≤ 64) (ha : atu s ctx va .w old = .ok (pa, ecc)) (hw : s.mem.watch = []) (hwf : s.mem.wf = true)
    (hr : (memWrite ctx va bs old).exec s = (.ok x, s')) :
    s'.mem.read pa bs.length = bs ∧ ∀ q, q < pa ∨ pa + bs.length ≤ q → s'.mem.byte q = s.mem.byte q := by
  unfold memWrite at hr
  rw [Io.exec_bind, translate_within (List.length_pos_iff.2 h0) h ha] at hr
  dsimp only at hr
  unfold memWrite.go at hr
  rw [Io.exec_bind] at hr
  have hk := kept_touchAll ctx .w true false [(pa, bs.length, ecc)] s
  rcases ht : (touchAll ctx .w true false [(pa, bs.length, ecc)]).exec s with ⟨q, u⟩
  rw [ht] at hk hr
  cases q with
  | error e => cases hr
  | ok y =>
    have hs' : s' = { u with mem := u.mem.write pa bs } := by
      rw [← State.store_unwatched u old pa bs ((State.watch_of_kept hk).trans hw)]
      have hst : storePieces old [(pa, bs.length, ecc)] bs u = u.store old pa bs := by
        rw [storePieces, storePieces, List.take_of_length_le (le_refl _)]
      rw [← hst]
      exact (Prod.ext_iff.1 hr).2.symm
    rw [hs']
    exact Mem.write_spec (State.bytes_of_kept hk) hwf pa bs

end Sys2Proof.Machine

namespace Sys2Proof.Machine
open Sys2Proof

/-! Reads of a list of addresses (R93, R115). -/

/-- What one address of a list of reads comes to: its bytes, and the blocks asked for so far. -/
def readPlace (ctx : Nat) (thr : Bool) (va len : Nat) (seen : List Nat) (s : State) : Except Err (List Byte × List Nat) × State :=
  match atu s ctx va .r true with
  | .error e => (Except.error (⟨e, 3, 0xFFFF, 0⟩ : Err), s.countRefused ctx e)
  | .ok (pa, ecc) =>
    if pa < lpddrEnd ∧ seen.contains (pa / 64) then (Except.ok ((s.view thr pa len).1, seen), (s.view thr pa len).2)
    else match pieceAccess s pa len ecc false true with
      | (s', none) => (Except.ok ((s'.view thr pa len).1, pa / 64 :: seen), (s'.view thr pa len).2)
      | (s', some e) => (Except.error { e with detail := 3 }, s'.countRefused ctx e.status)

theorem readList_cons (ctx : Nat) (thr : Bool) (va len : Nat) (t : List (Nat × Nat)) (seen : List Nat) (s : State) :
    readList ctx thr ((va, len) :: t) seen s = match readPlace ctx thr va len seen s with
      | (.error e, s') => (.error (va, e), s')
      | (.ok (b, seen'), s') => match readList ctx thr t seen' s' with
        | (.error e, s2) => (.error e, s2)
        | (.ok bs, s2) => (.ok (b :: bs), s2) := by
  rw [readList]
  rfl

/-- One read that succeeds with no operation watched gives the bytes of memory and leaves them. -/
theorem readPlace_ok {ctx va len : Nat} {thr : Bool} {seen seen' : List Nat} {b : List Byte} {s s' : State} (hw : s.mem.watch = [])
    (h : readPlace ctx thr va len seen s = (.ok (b, seen'), s')) :
    s'.kept = s.kept ∧ ∀ pa ecc, atu s ctx va .r true = .ok (pa, ecc) → b = s.mem.read pa len := by
  unfold readPlace at h
  split at h
  · cases h
  · next pa ecc ha =>
    split_ifs at h
    · rw [State.view_unwatched _ _ _ _ hw] at h
      cases h
      exact ⟨rfl, fun pa' ecc' ha' => by rw [ha] at ha'; cases ha'; rfl⟩
    · have hk := kept_pieceAccess s pa len ecc false true
      rcases hp : pieceAccess s pa len ecc false true with ⟨u, _ | e⟩
      · rw [hp] at h hk
        dsimp only at h hk
        rw [State.view_unwatched _ _ _ _ ((State.watch_of_kept hk).trans hw)] at h
        cases h
        exact ⟨hk, fun pa' ecc' ha' => by rw [ha] at ha'; cases ha'; exact Mem.read_congr (State.bytes_of_kept hk) _ _⟩
      · rw [hp] at h
        cases h

/-- Reads that succeed with no operation watched give the bytes of memory, each in its place, and leave them. -/
theorem readList_ok {ctx : Nat} {thr : Bool} {l : List (Nat × Nat)} {seen : List Nat} {bs : List (List Byte)} {s s' : State} (hw : s.mem.watch = [])
    (h : readList ctx thr l seen s = (.ok bs, s')) : s'.kept = s.kept ∧
      ∀ (j : Nat) (e : Nat × Nat) pa ecc, l[j]? = some e → atu s ctx e.1 .r true = .ok (pa, ecc) → bs[j]? = some (s.mem.read pa e.2) := by
  induction l generalizing seen bs s with
  | nil =>
    cases h
    exact ⟨rfl, fun j e pa ecc he => by cases he⟩
  | cons x t ih =>
    obtain ⟨va, len⟩ := x
    rw [readList_cons] at h
    rcases h1 : readPlace ctx thr va len seen s with ⟨e | ⟨b, seen1⟩, u⟩
    · rw [h1] at h
      cases h
    · rw [h1] at h
      dsimp only at h
      obtain ⟨hk, hb⟩ := readPlace_ok hw h1
      rcases h2 : readList ctx thr t seen1 u with ⟨e | bs2, v⟩
      · rw [h2] at h
        cases h
      · rw [h2] at h
        cases h
        obtain ⟨hk2, hbs⟩ := ih ((State.watch_of_kept hk).trans hw) h2
        refine ⟨hk2.trans hk, fun j e pa ecc he ha => ?_⟩
        cases j with
        | zero =>
          cases he
          rw [hb pa ecc ha]
          rfl
        | succ j =>
          rw [← Mem.read_congr (State.bytes_of_kept hk)]
          exact hbs j e pa ecc he ((atu_of_kept hk ..).trans ha)

theorem readList_length {ctx : Nat} {thr : Bool} {l : List (Nat × Nat)} {seen : List Nat} {bs : List (List Byte)} {s s' : State}
    (h : readList ctx thr l seen s = (.ok bs, s')) : bs.length = l.length := by
  induction l generalizing seen bs s with
  | nil =>
    cases h
    rfl
  | cons x t ih =>
    obtain ⟨va, len⟩ := x
    rw [readList_cons] at h
    rcases h1 : readPlace ctx thr va len seen s with ⟨e | ⟨b, seen1⟩, u⟩
    · rw [h1] at h
      cases h
    · rw [h1] at h
      dsimp only at h
      rcases h2 : readList ctx thr t seen1 u with ⟨e | bs2, v⟩
      · rw [h2] at h
        cases h
      · rw [h2] at h
        cases h
        rw [List.length_cons, List.length_cons, ih h2]

/-! Completion of a load and of a store whose memory is in order (R93, R118, R132). -/

theorem State.meet_clean (s : State) (ctx va : Nat) : s.meet ctx va .clean = (none, s) := by
  unfold State.meet
  split <;> rfl

theorem storeEvent_clean (ctx : Nat) (st : StoreOp) (s : State) : storeEvent ctx st .clean s = (none, s) := by
  unfold storeEvent
  split
  · rfl
  · simp only [State.meet_clean]

theorem loadComplete_idle {t k : Nat} {s : State} (h : s.active (podOf t) = false ∨ (s.thread t).st = .blocked .faulted ∨
    nth (s.thread t).slots none k = none) (ev : MemEvent) : loadComplete t k ev s = s := by
  unfold loadComplete
  dsimp only
  split_ifs with hc
  · rfl
  · rw [not_or] at hc
    rcases h with h | h | h
    · exact absurd (by rw [h]; rfl) hc.1
    · exact absurd h hc.2
    · rw [h]

theorem storeComplete_idle {t k : Nat} {s : State} (h : s.active (podOf t) = false ∨ (s.thread t).st = .blocked .faulted ∨
    (s.thread t).stores[k]? = none) (ev : MemEvent) : storeComplete t k ev s = s := by
  unfold storeComplete
  dsimp only
  split_ifs with hc
  · rfl
  · rw [not_or] at hc
    rcases h with h | h | h
    · exact absurd (by rw [h]; rfl) hc.1
    · exact absurd h hc.2
    · rw [h]

/-- A ready slot comes to what its operation lands as. -/
theorem loadComplete_lands {t k : Nat} {s s1 : State} {x : Slot} (ha : s.active (podOf t) = true) (hst : (s.thread t).st ≠ .blocked .faulted)
    (hx : nth (s.thread t).slots none k = some x) (hr : (s.thread t).slotReady x = true)
    (hh : ∀ r ∈ x.op.ranges, s.heldRange (s.ctxOf t) r.1 r.2 = false) (hg : x.op.group ≤ x.tracker)
    (hd : s.drainStores t ((s.thread t).storesBefore x) = (none, s1)) : loadComplete t k .clean s = match x.op.land (s.ctxOf t) s1 with
      | .failed va e s3 => s3.fault t x.pc va e
      | .more o s3 =>
        (takeGroup t k (s3.modThread t (fun th => { th with slots := th.slots.set k (some { x with op := o, tracker := 0 }) }))).wakePod (podOf t)
      | .done f s3 => (s3.modThread t (fun th => Thread.wakeLoad { f th with slots := th.slots.set k none })).wakePod (podOf t) := by
  have hheld : x.op.ranges.any (fun r => s.heldRange (s.ctxOf t) r.1 r.2) = false := by
    rw [List.any_eq_false]
    exact fun r hm => by rw [hh r hm]; exact Bool.false_ne_true
  have hmeet : (if x.op.ranges.isEmpty then ((none, s1) : Option Err × State) else s1.meet (s.ctxOf t) x.op.addr .clean) = (none, s1) := by
    rw [State.meet_clean, ite_self]
  unfold loadComplete
  dsimp only
  rw [if_neg (by simp [ha, hst]), hx]
  dsimp only
  rw [hr, hheld, if_neg (by decide), if_neg (by omega), hd]
  dsimp only
  rw [hmeet] <;> rfl

/-- A store that waits for nothing reaches memory and is outstanding no more. -/
theorem storeComplete_lands {t k : Nat} {s s1 : State} {st : StoreOp} (ha : s.active (podOf t) = true) (hst : (s.thread t).st ≠ .blocked .faulted)
    (hx : (s.thread t).stores[k]? = some st) (hw : (s.thread t).storeWaits st = false)
    (ho : ((s.thread t).stores.take k).any (fun y => overlap y.ranges st.ranges) = false)
    (hh : ∀ r ∈ st.ranges, s.heldRange (s.ctxOf t) r.1 r.2 = false) (hr : st.run (s.ctxOf t) s = (none, s1)) :
    storeComplete t k .clean s = s1.modThread t (fun y => Thread.wakeLoad { y with stores := y.stores.eraseIdx k }) := by
  have hheld : st.ranges.any (fun r => s.heldRange (s.ctxOf t) r.1 r.2) = false := by
    rw [List.any_eq_false]
    exact fun r hm => by rw [hh r hm]; exact Bool.false_ne_true
  unfold storeComplete
  dsimp only
  rw [if_neg (by simp [ha, hst]), hx]
  dsimp only
  rw [hw, ho, hheld, if_neg (by decide), storeEvent_clean]
  dsimp only
  rw [hr]

/-- A store of one piece within a block is that write. -/
theorem storeOp_run_within {st : StoreOp} {c a : Nat} {b : List Byte} {s s1 : State} (hp : st.pieces = [(a, b)]) (hb : b ≠ []) (h : a % 64 + b.length ≤ 64)
    (hr : st.run c s = (none, s1)) : ∃ x, (memWrite c a b true).exec s = (.ok x, s1) := by
  have hcut : cutPieces (joinPieces st.pieces) = [(a, b)] := by
    rw [hp]
    unfold cutPieces joinPieces joinPieces
    simp only [List.flatMap_cons, List.flatMap_nil, List.append_nil]
    rw [blocks64_within (List.length_pos_iff.2 hb) h]
    simp [sub]
  unfold StoreOp.run at hr
  rw [hcut, storeTry] at hr
  rcases hm : (memWrite c a b true).exec s with ⟨e | x, u⟩
  · rw [hm] at hr
    cases hr
  · rw [hm] at hr
    cases hr
    exact ⟨x, rfl⟩

/-- Words of a vector atomic one after another: the first that succeeds leaves the rest to land. -/
theorem land_vatomic_cons {c va x : Nat} {fl : Bool} {es : List (Nat × Nat)} {s s1 s' : State} {b : List Byte} {g : Thread → Thread}
    (hm : (memModify c va 4 (fun b => leb 4 (atomNew (if fl then 3 else 0) 4 (le b) x 0)) true).exec s = (.ok b, s1))
    (hl : (SlotOp.vatomic fl es).land c s1 = .done g s') : (SlotOp.vatomic fl ((va, x) :: es)).land c s = .done id s' := by
  have hcons : vatomicTry c fl ((va, x) :: es) s = vatomicTry c fl es s1 := by
    rw [vatomicTry, hm]
  unfold SlotOp.land at hl ⊢
  dsimp only at hl ⊢
  rw [hcons]
  rcases ht : vatomicTry c fl es s1 with ⟨_ | ⟨v, e⟩, u⟩
  · rw [ht] at hl
    cases hl
    rfl
  · rw [ht] at hl
    cases hl

/-- Settles O19, by what each operation lands as and by the accesses within one block. -/
theorem loadsAndStoresReachMemory : Obligations.LoadsAndStoresReachMemory := by
  refine ⟨fun t k s => ⟨fun x s1 s2 ha hst hx hr hh hg hd => ⟨fun g hl => ?_, fun o hl => ?_⟩, fun h ev => ?_⟩, fun c d a n s s' bs h => ?_,
    fun c d es s s' bs h => ?_, fun c f d n a x m s s' b h => ?_, fun c va x fl es s s1 s' b g => ⟨rfl, fun hm hl => ?_⟩,
    fun c f d n a k0 k1 p s s' bs h => ?_, fun n x old m hn ho => ⟨by rw [atomNew, Nat.add_mod_mod], by rw [atomNew], fun h => by rw [atomNew, if_pos h], fun h => by rw [atomNew, if_neg h],
      by rw [atomNew], by rw [atomNew], by rw [atomNew] <;> decide⟩, fun t k s => ⟨fun st s1 ha hst hx hw ho hh hr => ?_, fun h ev => ?_⟩⟩
  · refine congrArg Host.Outcome.next ((loadComplete_lands ha hst hx hr hh hg hd).trans ?_)
    rw [hl]
  · refine congrArg Host.Outcome.next ((loadComplete_lands ha hst hx hr hh hg hd).trans ?_)
    rw [hl]
  · exact congrArg Host.Outcome.next (loadComplete_idle h ev)
  · refine ⟨_, ?_, fun y => rfl, fun pa ecc ha hw => ?_⟩
    · unfold SlotOp.land
      dsimp only
      rw [h]
    · obtain ⟨hk, hb⟩ := readList_ok hw h
      refine ⟨?_, State.bytes_of_kept hk⟩
      have hlen : bs.length = 1 := readList_length h
      obtain ⟨b, rfl⟩ := List.length_eq_one_iff.1 hlen
      rw [Option.some.inj (hb 0 (a, n) pa ecc rfl ha)]
  · refine ⟨_, ?_, fun y => rfl, fun hw => ?_⟩
    · unfold SlotOp.land
      dsimp only
      rw [h]
    · obtain ⟨hk, hb⟩ := readList_ok hw h
      refine ⟨State.bytes_of_kept hk, fun j e pa ecc he ha => hb j (e.2, 4) pa ecc ?_ ha⟩
      rw [List.getElem?_map, he]
      rfl
  · refine ⟨⟨fun y => (if f = 2 then y.lockAfter a (le b == m % 2 ^ (8 * n)) else y).ws d (BitVec.ofNat 64 (le b)), ?_, fun y hf => ?_, fun y hf => ?_⟩,
      fun pa ecc h0 h8 hal hdiv ha hw hwf => ?_⟩
    · unfold SlotOp.land
      dsimp only
      rw [h]
    · exact congrArg (fun z : Thread => z.ws d _) (if_neg hf)
    · exact congrArg (fun z : Thread => z.ws d _) (if_pos hf)
    · refine memModify_within (f := fun b => leb n (atomNew f n (le b) x m)) h0 ?_ (fun _ => leb_length ..) ha hw hwf h
      interval_cases n <;> omega
  · exact land_vatomic_cons hm hl
  · refine ⟨fun hlt => ?_, fun hle => ⟨_, ?_, fun y => rfl⟩⟩
    · unfold SlotOp.land hashGroup
      dsimp only
      rw [h]
      exact if_pos hlt
    · unfold SlotOp.land hashGroup
      dsimp only
      rw [h]
      exact if_neg (by omega)
  · refine ⟨congrArg Host.Outcome.next (storeComplete_lands ha hst hx hw ho hh hr), fun a b pa ecc hp hb hlen hwf hwa hatu => ?_⟩
    obtain ⟨x, hm⟩ := storeOp_run_within hp hb hlen hr
    exact memWrite_within hb hlen hatu hwa hwf hm
  · exact congrArg Host.Outcome.next (storeComplete_idle h ev)

end Sys2Proof.Machine

namespace Sys2Proof.Machine
open Sys2Proof

/-! What a turn and a fetch leave of the threads and of a Pod's accumulator file (R122, R302). -/

/-- A turn and a fetch change no thread but one that waits for the sort network, which they can wake. -/
theorem fetched_thread_cases (t k : Nat) (s : State) : (fetched t s).thread k = s.thread k ∨
    ((s.thread k).st = .blocked .sort ∧ (fetched t s).thread k = { s.thread k with st := .running }) := by
  by_cases hs : (s.thread k).st = .blocked .sort
  · have hp : (fetched t s).thread k = (s.turned t).thread k := congrArg (fun p : Pods => p.threads.at Thread.init k) (fetched_sameCore t s).pods
    rw [hp, show (s.turned t).thread k = (s.sortBeat (podOf t)).thread k from rfl]
    unfold State.sortBeat
    split
    · exact .inl rfl
    · rw [State.thread_sortFree]
      split_ifs
      · right
        refine ⟨hs, ?_⟩
        unfold Thread.wakeSort Thread.wake
        rw [if_pos hs, hs]
        rfl
      · exact .inl rfl
    · exact .inl rfl
  · exact .inl (fetched_thread hs)

/-- A turn and a fetch leave what no waiting thread's state decides. -/
theorem fetched_thread_congr {α : Type} (f : Thread → α) (t k : Nat) (s : State)
    (hf : (s.thread k).st = .blocked .sort → f { s.thread k with st := .running } = f (s.thread k)) : f ((fetched t s).thread k) = f (s.thread k) := by
  rcases fetched_thread_cases t k s with h | ⟨hs, h⟩
  · rw [h]
  · rw [h, hf hs]

theorem fetched_accHeld (t p : Nat) (s : State) : (fetched t s).accHeld p = s.accHeld p := by
  unfold State.accHeld
  exact List.filterMap_congr fun k _ => fetched_thread_congr Thread.acc t _ s fun _ => rfl

theorem fetched_acc (t : Nat) (s : State) : ((fetched t s).pod (podOf t)).acc = (s.pod (podOf t)).acc := by
  obtain ⟨n, hn⟩ := fetched_pod t s
  rw [hn]

theorem fetched_accWaiting (t : Nat) (s : State) : (fetched t s).accWaiting (podOf t) = s.accWaiting (podOf t) := by
  obtain ⟨n, hn⟩ := fetched_pod t s
  unfold State.accWaiting
  rw [hn]
  refine List.filter_congr fun k _ => fetched_thread_congr (fun th => match th.st with
    | .blocked (.acc _ _) => true
    | _ => false) t k s fun hs => ?_
  rw [hs]

/-! Accumulator instructions (R122, R123). -/

theorem accTouch_unwatched {t : Nat} {ws : List Nat} {s : State} (h : s.mem.watch = []) : accTouch t ws s = s := by
  unfold accTouch
  rw [h]
  rfl

theorem accWritten_unwatched {t : Nat} {ws : List Nat} {s : State} (h : s.mem.watch = []) : accWritten t ws s = s := by
  unfold accWritten
  rw [accTouch_unwatched h]
  dsimp only
  rw [h, List.map_nil, List.foldl_nil, ← h]

/-- The words of elements that lie in the allocation. -/
theorem accWords_some {th : Thread} {off base n : Nat} {l : List Nat} (ha : th.acc = some (base, n)) (ho : off % 64 = 0) (hl : ∀ i ∈ l, off + i < n) :
    accWords th off l = some (l.map fun i => (base + off + i, i)) := by
  unfold accWords
  rw [if_neg (by omega), ha]
  split_ifs with h1
  · rw [List.isEmpty_iff.1 h1]
    rfl
  · exact if_pos (List.all_eq_true.2 fun i hi => decide_eq_true (hl i hi))

/-- No words for an offset out of line, no allocation, or an element past it. -/
theorem accWords_none {th : Thread} {off : Nat} {l : List Nat}
    (h : off % 64 ≠ 0 ∨ ∃ i ∈ l, th.acc = none ∨ ∃ b n, th.acc = some (b, n) ∧ n ≤ off + i) : accWords th off l = none := by
  unfold accWords
  split_ifs with ho he
  · rfl
  · rcases h with h | ⟨i, hi, _⟩
    · exact absurd h ho
    · rw [List.isEmpty_iff.1 he] at hi
      exact absurd hi List.not_mem_nil
  · rcases h with h | ⟨i, hi, ha | ⟨b, n, ha, hn⟩⟩
    · exact absurd h ho
    · rw [ha]
    · rw [ha]
      refine if_neg fun hall => ?_
      have := of_decide_eq_true (List.all_eq_true.1 hall i hi)
      omega

section
variable {t : Nat} {w : Insn} {s : State}

/-- A vector form on words of the allocation combines each of them with its element. -/
theorem accVec_issues {f base n : Nat} {g : Nat → Word → FRes} (hw : s.mem.watch = []) (ha : (s.thread t).acc = some (base, n))
    (ho : ((s.thread t).rs (insB w)).toNat % 64 = 0) (hl : ∀ i ∈ (s.thread t).active (insM w), ((s.thread t).rs (insB w)).toNat + i < n)
    (h : issues (rowAccVec f) t w s = true)
    (hg : ∀ i a, (if insF w = 6 then ⟨(elem ((s.thread t).rv (insA w)) i).toNat, 0⟩ else accCombine (insF w) (insT w) a (elem ((s.thread t).rv (insA w)) i)) = g i a) :
    (rowAccVec f).issue t w s = (accApplied t base ((s.thread t).rs (insB w)).toNat ((s.thread t).active (insM w)) g (fetched t s)).modThread t
      (fun y => { y.overwrite [] (s.thread t).nextOrder with pc := nextPc w (s.thread t).pc }) := by
  refine issue_next h ?_
  show accVecRun t w (fetched t s) = _
  unfold accVecRun
  rw [issued_thread h]
  have hw' : (fetched t s).mem.watch = [] := (State.watch_of_kept (fetched_kept t s)).trans hw
  dsimp only
  rw [accWords_some ha ho hl]
  dsimp only
  rw [accTouch_unwatched hw', accWritten_unwatched (by exact hw')]
  simp only [List.map_map, Function.comp_def, hg]
  simp only [accApplied, List.map_map, Function.comp_def]

theorem accVec_function {f : Nat} (h : issues (rowAccVec f) t w s = true) : insF w = f := by
  have hm : isAcc f w = true := (issues_mine h).1
  unfold isAcc at hm
  simpa using (Bool.and_eq_true_iff.1 hm).2

theorem accVec_faults {f : Nat} (h : issues (rowAccVec f) t w s = true) (hn : accWords (s.thread t) ((s.thread t).rs (insB w)).toNat
    ((s.thread t).active (insM w)) = none) : (rowAccVec f).issue t w s = (fetched t s).fault t (s.thread t).pc 0 ⟨stRange, 6, 0xFFFF, 0⟩ := by
  refine issue_fault h ?_
  show accVecRun t w (fetched t s) = _
  unfold accVecRun
  rw [issued_thread h]
  dsimp only
  rw [hn]
  rfl

theorem vaccrd_issues {base n : Nat} (hw : s.mem.watch = []) (ha : (s.thread t).acc = some (base, n))
    (ho : ((s.thread t).rs (insB w)).toNat % 64 = 0) (hl : ∀ i ∈ (s.thread t).active (insM w), ((s.thread t).rs (insB w)).toNat + i < n)
    (h : issues rowVaccrd t w s = true) : rowVaccrd.issue t w s = retiredNext rowVaccrd t w s (fun y => y.wv (insD w)
      (((s.thread t).active (insM w)).foldl (fun v i => v.set i ((s.pod (podOf t)).accWord (base + ((s.thread t).rs (insB w)).toNat + i))) (y.rv (insD w)))) := by
  refine issue_next h ?_
  show vaccrdRun t w (fetched t s) = _
  unfold vaccrdRun Pod.accWord
  rw [issued_thread h]
  dsimp only
  rw [accWords_some ha ho hl]
  dsimp only
  rw [accTouch_unwatched ((State.watch_of_kept (fetched_kept t s)).trans hw), fetched_acc]
  simp only [List.foldl_map]

theorem vaccrd_faults (h : issues rowVaccrd t w s = true) (hn : accWords (s.thread t) ((s.thread t).rs (insB w)).toNat
    ((s.thread t).active (insM w)) = none) : rowVaccrd.issue t w s = (fetched t s).fault t (s.thread t).pc 0 ⟨stRange, 6, 0xFFFF, 0⟩ := by
  refine issue_fault h ?_
  show vaccrdRun t w (fetched t s) = _
  unfold vaccrdRun
  rw [issued_thread h]
  dsimp only
  rw [hn]
  rfl

theorem acca_grants {base : Nat} (h : issues rowAcca t w s = true) (ha : (s.thread t).acc = none)
    (hn : ((s.thread t).rs (insA w)).toNat % 64 = 0 ∧ 64 ≤ ((s.thread t).rs (insA w)).toNat ∧ ((s.thread t).rs (insA w)).toNat ≤ 4096)
    (hq : s.accWaiting (podOf t) = []) (hf : accFind (s.accHeld (podOf t)) ((s.thread t).rs (insA w)).toNat = some base) :
    rowAcca.run t w (fetched t s) = .next (accGrant t ((s.thread t).rs (insA w)).toNat (insD w) base (fetched t s)) := by
  obtain ⟨h0, h1, h2⟩ := hn
  show accaRun t w (fetched t s) = _
  unfold accaRun
  rw [issued_thread h]
  dsimp only
  rw [if_neg (by simp [ha, h0]; omega), fetched_accWaiting, fetched_accHeld, hq, hf]
  rfl

theorem acca_waits (h : issues rowAcca t w s = true) (ha : (s.thread t).acc = none)
    (hn : ((s.thread t).rs (insA w)).toNat % 64 = 0 ∧ 64 ≤ ((s.thread t).rs (insA w)).toNat ∧ ((s.thread t).rs (insA w)).toNat ≤ 4096)
    (hq : s.accWaiting (podOf t) ≠ [] ∨ accFind (s.accHeld (podOf t)) ((s.thread t).rs (insA w)).toNat = none) :
    rowAcca.run t w (fetched t s) = .stay (((fetched t s).block t (.acc ((s.thread t).rs (insA w)).toNat (insD w))).modPod (podOf t)
      (fun q => { q with accQueue := s.accWaiting (podOf t) ++ [t] })) := by
  obtain ⟨h0, h1, h2⟩ := hn
  show accaRun t w (fetched t s) = _
  unfold accaRun
  rw [issued_thread h]
  dsimp only
  rw [if_neg (by simp [ha, h0]; omega), fetched_accWaiting, fetched_accHeld]
  rcases hq with hq | hq
  · rw [List.isEmpty_eq_false_iff.2 hq]
  · rw [hq]
    cases (s.accWaiting (podOf t)).isEmpty <;> rfl

theorem acca_faults (h : issues rowAcca t w s = true)
    (hn : (s.thread t).acc ≠ none ∨ ((s.thread t).rs (insA w)).toNat % 64 ≠ 0 ∨ ((s.thread t).rs (insA w)).toNat < 64 ∨ 4096 < ((s.thread t).rs (insA w)).toNat) :
    rowAcca.run t w (fetched t s) = .fault (fErr stRange 6) 0 (fetched t s) := by
  show accaRun t w (fetched t s) = _
  unfold accaRun
  rw [issued_thread h]
  refine if_pos ?_
  simpa [Option.isSome_iff_ne_none, or_assoc] using hn

end

theorem vaccz_out {t : Nat} {w : Insn} {s : State} (h : issues rowVaccz t w s = true)
    (hn : ((s.thread t).rs (insB w)).toNat % 64 ≠ 0 ∨ (0 < ((s.thread t).rs (insA w)).toNat ∧ ((s.thread t).acc = none ∨
      ∃ b l, (s.thread t).acc = some (b, l) ∧ l < ((s.thread t).rs (insB w)).toNat + ((s.thread t).rs (insA w)).toNat))) :
    rowVaccz.run t w (fetched t s) = .fault (fErr stRange 6) 0 (fetched t s) := by
  show vacczRun t w (fetched t s) = _
  unfold vacczRun
  rw [issued_thread h]
  dsimp only
  split_ifs with h1 h2
  · rfl
  · omega
  · rcases hn with hn | ⟨_, ha | ⟨b, l, ha, hl⟩⟩
    · exact absurd hn h1
    · rw [ha]
    · rw [ha]
      exact if_neg (by omega)

theorem vaccz_of_zero {t : Nat} {w : Insn} {s : State} (h : issues rowVaccz t w s = true) (ho : ((s.thread t).rs (insB w)).toNat % 64 = 0)
    (h0 : ((s.thread t).rs (insA w)).toNat = 0) : rowVaccz.run t w (fetched t s) = .next (fetched t s) := by
  show vacczRun t w (fetched t s) = _
  unfold vacczRun
  rw [issued_thread h]
  exact (if_neg (by omega)).trans (if_pos h0)

theorem vaccz_zeroes {t base len : Nat} {w : Insn} {s : State} (h : issues rowVaccz t w s = true) (hw : s.mem.watch = [])
    (ha : (s.thread t).acc = some (base, len)) (ho : ((s.thread t).rs (insB w)).toNat % 64 = 0)
    (hl : ((s.thread t).rs (insB w)).toNat + ((s.thread t).rs (insA w)).toNat ≤ len) (h0 : 0 < ((s.thread t).rs (insA w)).toNat) :
    rowVaccz.run t w (fetched t s) = .next ((fetched t s).modPod (podOf t) (fun q => { q with acc := q.acc.keep (fun i _ =>
      !(base + ((s.thread t).rs (insB w)).toNat ≤ i && i < base + ((s.thread t).rs (insB w)).toNat + ((s.thread t).rs (insA w)).toNat)) })) := by
  show vacczRun t w (fetched t s) = _
  unfold vacczRun
  rw [issued_thread h]
  dsimp only
  rw [if_neg (by omega), if_neg (by omega), ha]
  dsimp only
  rw [if_pos hl, accWritten_unwatched (by exact (State.watch_of_kept (fetched_kept t s)).trans hw)]

/-- The run found is the first of the free ones. -/
theorem accFind_spec {l : List (Nat × Nat)} {n b : Nat} (h : accFind l n = some b) : b % 64 = 0 ∧
    (b + n ≤ 4096 ∧ ∀ x ∈ l, b + n ≤ x.1 ∨ x.1 + x.2 ≤ b) ∧ ∀ c, c % 64 = 0 → c < b → ¬ (c + n ≤ 4096 ∧ ∀ x ∈ l, c + n ≤ x.1 ∨ x.1 + x.2 ≤ c) := by
  unfold accFind at h
  obtain ⟨l₁, g, l₂, hr, hg, hb⟩ := List.findSome?_eq_some_iff.1 h
  have hlen : l₁.length < 64 := by
    have := congrArg List.length hr
    simp at this
    omega
  have hget : ∀ j, j < 64 → (l₁ ++ g :: l₂)[j]? = some j := fun j hj => by
    rw [← hr, List.getElem?_range hj]
  have hgl : g = l₁.length := by
    have := hget l₁.length hlen
    rw [List.getElem?_append_right (le_refl _), Nat.sub_self] at this
    exact Option.some.inj this
  dsimp only at hg
  split_ifs at hg with hfree
  cases hg
  obtain ⟨hn, hall⟩ := hfree
  refine ⟨by omega, ⟨hn, fun x hx => ?_⟩, fun c hc hlt hfree => ?_⟩
  · simpa using List.all_eq_true.1 hall x hx
  · obtain ⟨hcn, hfree⟩ := hfree
    have hm : c / 64 ∈ l₁ := by
      have hj : c / 64 < l₁.length := by omega
      have := hget (c / 64) (by omega)
      rw [List.getElem?_append_left hj] at this
      exact List.mem_of_getElem? this
    have hc64 : 64 * (c / 64) = c := by omega
    have := hb _ hm
    rw [hc64, if_pos ⟨hcn, List.all_eq_true.2 fun x hx => by simpa using hfree x hx⟩] at this
    cases this

/-- Settles O20, by what each accumulator instruction does once it issues and by the run that accFind gives. -/
theorem accumulatorInstructionsComplete : Obligations.AccumulatorInstructionsComplete := by
  refine ⟨fun t w s => ⟨fun h _ => ⟨fun ha h0 h1 h2 => ⟨fun base hq hf => ?_, fun hq => ?_⟩, fun hn => ?_⟩, fun h => ?_,
    fun base n hw ha ho hl => ⟨fun h hT => ?_, fun h hT => ?_, fun h => ?_, fun h => ?_, fun h => ?_, fun h => ?_⟩, fun hn c r hc h => ?_,
    fun hn h => ?_, fun ho h0 h => ?_, fun base n hw h ha ho hl h0 => ?_⟩, fun p s t n d base rest ha hq hst hf => ?_, fun a x => ⟨rfl, rfl, rfl, rfl⟩,
    fun l n b h => accFind_spec h⟩
  · exact congrArg Host.Outcome.next (issue_next h (acca_grants h ha ⟨h0, h1, h2⟩ hq hf))
  · exact congrArg Host.Outcome.next (issue_stay h (acca_waits h ha ⟨h0, h1, h2⟩ hq))
  · exact congrArg Host.Outcome.next (issue_fault h (acca_faults h hn))
  · exact congrArg Host.Outcome.next (issue_next h rfl)
  · refine congrArg Host.Outcome.next (accVec_issues hw ha ho hl h fun i a => ?_)
    rw [accVec_function h, if_neg (by decide), accCombine, if_pos hT, if_pos rfl]
  · refine congrArg Host.Outcome.next (accVec_issues hw ha ho hl h fun i a => ?_)
    rw [accVec_function h, if_neg (by decide), accCombine, if_neg hT, if_pos rfl]
  · refine congrArg Host.Outcome.next (accVec_issues hw ha ho hl h fun i a => ?_)
    rw [accVec_function h, if_neg (by decide)]
  · refine congrArg Host.Outcome.next (accVec_issues hw ha ho hl h fun i a => ?_)
    rw [accVec_function h, if_neg (by decide)]
  · refine congrArg Host.Outcome.next (accVec_issues hw ha ho hl h fun i a => ?_)
    rw [accVec_function h, if_pos rfl]
  · exact congrArg Host.Outcome.next (vaccrd_issues hw ha ho hl h)
  · have hnone := accWords_none hn
    rcases hc with ⟨rfl, rfl⟩ | ⟨rfl, rfl⟩ | ⟨rfl, rfl⟩ | ⟨rfl, rfl⟩ | ⟨rfl, rfl⟩
    · exact congrArg Host.Outcome.next (accVec_faults h hnone)
    · exact congrArg Host.Outcome.next (accVec_faults h hnone)
    · exact congrArg Host.Outcome.next (accVec_faults h hnone)
    · exact congrArg Host.Outcome.next (accVec_faults h hnone)
    · exact congrArg Host.Outcome.next (vaccrd_faults h hnone)
  · exact congrArg Host.Outcome.next (issue_fault h (vaccz_out h hn))
  · exact congrArg Host.Outcome.next (issue_next h (vaccz_of_zero h ho h0))
  · exact congrArg Host.Outcome.next (issue_next h (vaccz_zeroes h hw ha ho hl h0))
  · refine congrArg Host.Outcome.next ?_
    unfold accAllocGrant
    rw [ha, hq, if_neg (by decide)]
    dsimp only
    rw [hst]
    dsimp only
    rw [hf]

end Sys2Proof.Machine

namespace Sys2Proof.Machine
open Sys2Proof

/-! ASK and ASKNB once they issue (R124, R172). -/

theorem issued_slotFlow {r : Row} {t : Nat} {w : Insn} {s : State} (h : issues r t w s = true) (k : Nat) : (fetched t s).slotFlow t k = s.slotFlow t k := by
  unfold State.slotFlow State.flowSlots
  rw [issued_thread h, fetched_images]

theorem mem_setSlots {set k : Nat} : k ∈ setSlots set ↔ k < 64 ∧ set.testBit k = true := by
  unfold setSlots
  rw [List.mem_filter, List.mem_range, bit_eq_testBit]

theorem foldl_fixed_of_mem {α β : Type} {g : α → β → α} {a : α} {l : List β} (h : ∀ x ∈ l, g a x = a) : l.foldl g a = a := by
  induction l with
  | nil => rfl
  | cons x t ih =>
    rw [List.foldl_cons, h x List.mem_cons_self]
    exact ih fun y hy => h y (List.mem_cons_of_mem x hy)

/-- What an ASK meets before it looks for an item: one held, an empty set that it would wait on, or a slot not bound (R124). -/
def askRefused (block : Bool) (t set : Nat) (s : State) : Prop :=
  (s.thread t).item ≠ none ∨ (block = true ∧ set = 0) ∨ ∃ k, k < 64 ∧ set.testBit k = true ∧ s.slotFlow t k = none

theorem askRun_refused {block : Bool} {t : Nat} {w : Insn} {s : State} (h : askRefused block t ((s.thread t).rs (insA w)).toNat s) :
    askRun block t w s = .fault (fErr stState 7) 0 s := by
  unfold askRun
  refine if_pos ?_
  rcases h with h | ⟨rfl, h⟩ | ⟨k, hk, hb, hn⟩
  · rw [Option.isSome_iff_ne_none.2 h, Bool.true_or, Bool.true_or]
  · rw [h, Bool.true_and, beq_self_eq_true, Bool.or_true, Bool.true_or]
  · rw [List.any_eq_true.2 ⟨k, mem_setSlots.2 ⟨hk, hb⟩, Option.isNone_iff_eq_none.2 hn⟩, Bool.or_true]

section
variable {block : Bool} {t : Nat} {w : Insn} {s : State}

/-- Past the gate with no parity error armed, an ASK looks for the best bid. -/
theorem askRun_accepted (hi : (s.thread t).item = none) (hset : block = true → ((s.thread t).rs (insA w)).toNat ≠ 0)
    (hb : ∀ k, k < 64 → ((s.thread t).rs (insA w)).toNat.testBit k = true → ∃ f, s.slotFlow t k = some f)
    (hg : askGate t s = none) (hp : ∀ b ∈ bids s t ((s.thread t).rs (insA w)).toNat, s.parityArmed b.fid = false) :
    askRun block t w s = match bestBid (s.thread t).lastSlot (bids s t ((s.thread t).rs (insA w)).toNat) with
      | some b => .next (s.handOut t b.fid b.slot (insD w))
      | none =>
        if block then .stay ((register t ((s.thread t).rs (insA w)).toNat s).modThread t (fun th => { th with st := .asking ((s.thread t).rs (insA w)).toNat (insD w) }))
        else .next (s.modThread t (fun th => th.wv (insD w) ((th.rv (insD w)).set 16 0xFFFF_FFFF))) := by
  have hbound : (setSlots ((s.thread t).rs (insA w)).toNat).any (fun k => (s.slotFlow t k).isNone) = false := by
    rw [List.any_eq_false]
    intro k hk
    obtain ⟨hlt, hbit⟩ := mem_setSlots.1 hk
    obtain ⟨f, hf⟩ := hb k hlt hbit
    rw [hf]
    exact Bool.false_ne_true
  have hempty : (block && ((s.thread t).rs (insA w)).toNat == 0) = false := by
    cases block with
    | false => rfl
    | true => rw [Bool.true_and, beq_eq_false_iff_ne]; exact hset rfl
  have hfold : (bids s t ((s.thread t).rs (insA w)).toNat).foldl (fun (a : State) b => if a.parityArmed b.fid then a.dropItem b.fid 0 true else a) s = s :=
    foldl_fixed_of_mem fun b hb => by rw [hp b hb, if_neg (by decide)]
  unfold askRun
  dsimp only
  rw [hi, hempty, hbound, if_neg (by decide), hg]
  dsimp only
  rw [hfold] <;> rfl

theorem askRun_takes {b : Bid} (hi : (s.thread t).item = none) (hset : block = true → ((s.thread t).rs (insA w)).toNat ≠ 0)
    (hb : ∀ k, k < 64 → ((s.thread t).rs (insA w)).toNat.testBit k = true → ∃ f, s.slotFlow t k = some f)
    (hg : askGate t s = none) (hp : ∀ b ∈ bids s t ((s.thread t).rs (insA w)).toNat, s.parityArmed b.fid = false)
    (hbest : bestBid (s.thread t).lastSlot (bids s t ((s.thread t).rs (insA w)).toNat) = some b) :
    askRun block t w s = .next (s.handOut t b.fid b.slot (insD w)) := by
  rw [askRun_accepted hi hset hb hg hp, hbest]

theorem askRun_finds_none (hi : (s.thread t).item = none) (hset : block = true → ((s.thread t).rs (insA w)).toNat ≠ 0)
    (hb : ∀ k, k < 64 → ((s.thread t).rs (insA w)).toNat.testBit k = true → ∃ f, s.slotFlow t k = some f)
    (hg : askGate t s = none) (hbids : bids s t ((s.thread t).rs (insA w)).toNat = []) : askRun block t w s =
      if block then .stay ((register t ((s.thread t).rs (insA w)).toNat s).modThread t (fun th => { th with st := .asking ((s.thread t).rs (insA w)).toNat (insD w) }))
      else .next (s.modThread t (fun th => th.wv (insD w) ((th.rv (insD w)).set 16 0xFFFF_FFFF))) := by
  rw [askRun_accepted hi hset hb hg (by rw [hbids]; exact fun b hb => absurd hb List.not_mem_nil), hbids]
  rfl

end

section
variable {r : Row} {t : Nat} {w : Insn} {s : State} (h : issues r t w s = true)
include h

theorem issued_ask_refused {block : Bool} (hr : r.run = askRun block) (hn : askRefused block t ((s.thread t).rs (insA w)).toNat s) :
    r.issue t w s = (fetched t s).fault t (s.thread t).pc 0 ⟨stState, 7, 0xFFFF, 0⟩ := by
  refine issue_fault h ((congrFun₃ hr t w _).trans (askRun_refused ?_))
  unfold askRefused at hn ⊢
  simpa only [issued_thread h, issued_slotFlow h] using hn

variable (hi : (s.thread t).item = none) (hb : ∀ k, k < 64 → ((s.thread t).rs (insA w)).toNat.testBit k = true → ∃ f, s.slotFlow t k = some f)
  (hg : askGate t (fetched t s) = none)
include hi hb hg

theorem issued_ask_takes {block : Bool} {b : Bid} (hset : block = true → ((s.thread t).rs (insA w)).toNat ≠ 0)
    (hp : ∀ b ∈ bids (fetched t s) t ((s.thread t).rs (insA w)).toNat, (fetched t s).parityArmed b.fid = false)
    (hbest : bestBid (s.thread t).lastSlot (bids (fetched t s) t ((s.thread t).rs (insA w)).toNat) = some b) :
    askRun block t w (fetched t s) = .next ((fetched t s).handOut t b.fid b.slot (insD w)) := by
  have ht := issued_thread h
  exact askRun_takes (by rw [ht, hi]) (by rw [ht]; exact hset) (by simpa only [ht, issued_slotFlow h] using hb) hg (by rw [ht]; exact hp) (by rw [ht, hbest])

theorem issued_ask_finds_none {block : Bool} (hset : block = true → ((s.thread t).rs (insA w)).toNat ≠ 0)
    (hbids : bids (fetched t s) t ((s.thread t).rs (insA w)).toNat = []) : askRun block t w (fetched t s) =
      if block then .stay ((register t ((s.thread t).rs (insA w)).toNat (fetched t s)).modThread t (fun th =>
        { th with st := .asking ((s.thread t).rs (insA w)).toNat (insD w) }))
      else .next ((fetched t s).modThread t (fun th => th.wv (insD w) ((th.rv (insD w)).set 16 0xFFFF_FFFF))) := by
  have ht := issued_thread h
  have := askRun_finds_none (block := block) (w := w) (s := fetched t s) (t := t) (by rw [ht, hi]) (by rw [ht]; exact hset)
    (by simpa only [ht, issued_slotFlow h] using hb) hg (by rw [ht]; exact hbids)
  rwa [ht] at this

end

/-! DONE and POST once they issue (R124, R125, R166). -/

/-- A row that waits for its thread's stores, once they have reached memory. -/
theorem issued_withStores {r : Row} {t : Nat} {w : Insn} {s v : State} (h : issues r t w s = true) (go : State → Issue) (hf : s.memFrozen = false)
    (ha : (s.thread t).stores.any (s.thread t).storeWaits = false) (hd : (fetched t s).drainStores t = (none, v)) :
    withStores t (fetched t s) go = go v :=
  withStores_drained go ((State.memFrozen_congr (State.frz_of_kept (fetched_kept t s))).trans hf) (by rw [issued_thread h, ha]) hd

/-- A row that waits for its thread's stores, while a store waits for a load. -/
theorem issued_withStores_blocks {r : Row} {t : Nat} {w : Insn} {s : State} (h : issues r t w s = true) (go : State → Issue) (hf : s.memFrozen = false)
    (ha : (s.thread t).stores.any (s.thread t).storeWaits = true) : withStores t (fetched t s) go = .stay ((fetched t s).block t .loadSlot) := by
  unfold withStores
  dsimp only
  rw [State.memFrozen_congr (State.frz_of_kept (fetched_kept t s)), hf, issued_thread h, ha]
  rfl

section
variable {t : Nat} {w : Insn} {s : State} (h : issues rowDone t w s = true)
include h

theorem issued_done_without_item (hi : (s.thread t).item = none) : rowDone.run t w (fetched t s) = .fault (fErr stState 7) 0 (fetched t s) := by
  show doneRun t w (fetched t s) = _
  unfold doneRun
  rw [issued_thread h]
  exact if_pos (Option.isNone_iff_eq_none.2 hi)

variable (hi : (s.thread t).item ≠ none)
include hi

theorem issued_done_busy (hb : (s.thread t).busyTag = true) :
    rowDone.run t w (fetched t s) = .stay ((fetched t s).block t (.done (((s.thread t).rs (insA w)).toNat % 2 ^ 16))) := by
  show doneRun t w (fetched t s) = _
  unfold doneRun
  rw [issued_thread h]
  exact (if_neg (by simpa using hi)).trans (if_pos hb)

theorem issued_done_idle (hb : (s.thread t).busyTag = false) : rowDone.run t w (fetched t s) =
    withStores t (fetched t s) (fun s' => .next (finishDone t (((s.thread t).rs (insA w)).toNat % 2 ^ 16) s')) := by
  show doneRun t w (fetched t s) = _
  unfold doneRun
  rw [issued_thread h]
  exact (if_neg (by simpa using hi)).trans (if_neg (by simp [hb]))

end

theorem issued_post_unbound {r : Row} {t : Nat} {w : Insn} {s : State} {block : Bool} (h : issues r t w s = true) (hr : r.run = postRun block)
    (hs : s.slotFlow t ((s.thread t).rs (insA w)).toNat = none) : r.run t w (fetched t s) = .fault (fErr stState 7) 0 (fetched t s) := by
  rw [hr]
  unfold postRun
  rw [issued_thread h]
  dsimp only
  rw [issued_slotFlow h, hs]

/-- A POST to a bound slot, its thread's stores in memory, offers its item to the flow. -/
theorem issued_post_offers {r : Row} {t fid : Nat} {w : Insn} {s v : State} {block : Bool} (h : issues r t w s = true) (hr : r.run = postRun block)
    (hs : s.slotFlow t ((s.thread t).rs (insA w)).toNat = some fid) (hf : s.memFrozen = false)
    (ha : (s.thread t).stores.any (s.thread t).storeWaits = false) (hd : (fetched t s).drainStores t = (none, v)) :
    r.run t w (fetched t s) = match v.offer fid (postBody ((s.thread t).rv (insB w))) 5 t 0 0 0 with
      | (.full, s') => if block then .stay (s'.block t (.post fid (postBody ((s.thread t).rv (insB w))))) else .next (s'.modThread t (fun th => th.ws (insD w) 1))
      | (_, s') => .next (if block then s' else s'.modThread t (fun th => th.ws (insD w) 0)) := by
  rw [hr]
  unfold postRun
  rw [issued_thread h]
  dsimp only
  rw [issued_slotFlow h, hs]
  dsimp only
  exact issued_withStores h _ hf ha hd

theorem State.offer_gone {s : State} {fid : Nat} (hf : s.flow fid = none) (body : List Byte) (k i st p c : Nat) :
    s.offer fid body k i st p c = (.gone, s) := by
  unfold State.offer
  rw [hf]

theorem State.offer_full {s : State} {fid : Nat} {f : Flow} (hf : s.flow fid = some f) (hr : f.full = true)
    (hc : ((s.mem.contexts.find f.ctx).map Ctx.destroying).getD false = false) (body : List Byte) (k i st p c : Nat) :
    s.offer fid body k i st p c = (.full, s) := by
  unfold State.offer
  rw [hf]
  dsimp only
  rw [hc, hr, if_neg (by decide), if_pos rfl]

theorem Flow.full_eq_true {f : Flow} (h : f.capacity ≤ f.ready.length) : f.full = true := decide_eq_true h
theorem Flow.full_eq_false {f : Flow} (h : f.ready.length < f.capacity) : f.full = false := decide_eq_false (by omega)

/-! WAITU and WAITANY once they issue (R126, R130). -/

section
variable {t : Nat} {w : Insn} {s : State}

theorem issued_waitu (h : issues rowWaitu t w s = true) (hk : ((s.thread t).rs (insA w)).toNat < 8) : rowWaitu.run t w (fetched t s) =
    match nth (s.thread t).tags .free ((s.thread t).rs (insA w)).toNat with
      | .free => .fault (fErr stState 7) 0 (fetched t s)
      | .busy _ => .stay ((fetched t s).block t (.tag ((s.thread t).rs (insA w)).toNat))
      | .done p => .next ((fetched t s).modThread t (fun th => { th.ws (insD w) (BitVec.ofNat 64 p) with
          tags := th.tags.set ((s.thread t).rs (insA w)).toNat .free })) := by
  show waituRun t w (fetched t s) = _
  unfold waituRun
  rw [issued_thread h]
  exact if_neg (by omega)

theorem issued_waitu_faults (h : issues rowWaitu t w s = true) (hk : 8 ≤ ((s.thread t).rs (insA w)).toNat ∨
    nth (s.thread t).tags .free ((s.thread t).rs (insA w)).toNat = .free) : rowWaitu.run t w (fetched t s) = .fault (fErr stState 7) 0 (fetched t s) := by
  by_cases hlt : ((s.thread t).rs (insA w)).toNat < 8
  · rw [issued_waitu h hlt, hk.resolve_left (by omega)]
  · show waituRun t w (fetched t s) = _
    unfold waituRun
    rw [issued_thread h]
    exact if_pos (by omega)

theorem issued_waitany (h : issues rowWaitany t w s = true) : rowWaitany.run t w (fetched t s) = match (s.thread t).firstDone with
    | some (k, p) => .next ((fetched t s).modThread t (fun th => th.collectAny k p (insD w)))
    | none => if (s.thread t).busyTag then .stay ((fetched t s).block t (.anyTag (insD w))) else .fault (fErr stState 7) 0 (fetched t s) := by
  show waitanyRun t w (fetched t s) = _
  unfold waitanyRun
  rw [issued_thread h] <;> rfl

end

/-- The first completed tag is the lowest-numbered one. -/
theorem Thread.firstDone_eq {th : Thread} {k x : Nat} (hk : k < 8) (hd : nth th.tags .free k = .done x) (hl : ∀ j z, j < k → nth th.tags .free j ≠ .done z) :
    th.firstDone = some (k, x) := by
  unfold Thread.firstDone
  refine List.findSome?_eq_some_iff.2 ⟨List.range k, k, List.range' (k + 1) (7 - k), ?_, ?_, fun j hj => ?_⟩
  · interval_cases k <;> rfl
  · rw [hd]
  · have hne := fun z => hl j z (List.mem_range.1 hj)
    split
    · next p hp => exact absurd hp (hne p)
    · rfl

/-! The steps that end a wait (R125, R172, R179). -/

theorem doneRetire_retires {t st : Nat} {s v : State} (hst : (s.thread t).st = .blocked (.done st)) (hw : s.works (podOf t) = true)
    (hb : (s.thread t).busyTag = false) (ha : (s.thread t).stores.any (s.thread t).storeWaits = false) (hd : s.drainStores t = (none, v)) :
    doneRetire t s = (finishDone t st v).modThread t (fun y => { y with st := .running, pc := y.pc + 4 }) := by
  unfold doneRetire
  dsimp only
  rw [hst]
  dsimp only
  rw [hw, hb, ha, hd]
  rfl

theorem postResume_offers {t fid : Nat} {body : List Byte} {s : State} (hst : (s.thread t).st = .blocked (.post fid body)) (ha : s.active (podOf t) = true) :
    postResume t s = match s.offer fid body 5 t 0 0 0 with
      | (.full, _) => s
      | (_, s') => s'.modThread t (fun th => { th with st := .running, pc := th.pc + 4 }) := by
  unfold postResume
  rw [hst]
  exact if_neg (by simp [ha])

theorem askOffer_hands_out {t fid set d k : Nat} {s : State} {f : Flow} {l : List Nat} (hf : s.flow fid = some f) (hl : f.waiters = t :: l)
    (hh : f.head.isSome = true) (hu : s.active (unitSlice f.slice) = true) (ha : s.active (podOf t) = true) (hp : s.parityArmed fid = false)
    (hst : (s.thread t).st = .asking set d) (hk : (setSlots set).filter (fun j => s.slotFlow t j == some fid) = [k]) :
    askOffer t fid s = (s.handOut t fid k d).modThread t (fun y => { y.overwrite [rV d] y.nextOrder with pc := y.pc + 4 }) := by
  unfold askOffer
  rw [hf]
  dsimp only
  rw [if_neg (by simp [hl, hu, ha, Option.isSome_iff_ne_none.1 hh]), hp, if_neg (by decide), hst]
  dsimp only
  rw [hk]
  rfl

/-- Settles O21, by what each instruction of the Dispatcher does once it issues. -/
theorem dispatcherInstructionsComplete : Obligations.DispatcherInstructionsComplete := by
  refine ⟨fun t w s => ⟨fun hi hb hg hp => ⟨fun b hbest => ⟨fun h hF hset => ?_, fun h => ?_⟩, fun hbids => ⟨fun h hF hset => ?_, fun h => ?_⟩⟩,
    fun h hF hn => ?_, fun h hn => ?_, fun h => ⟨fun hi => ?_, fun hi hb => ?_, fun hi hb hf ha => ?_, fun v hi hb hf ha hd => ?_⟩, fun hs => ⟨fun h => ?_, fun h => ?_⟩,
    fun fid v hs hf ha hd hv => ⟨fun h => ?_, fun h => ?_⟩, fun fid f v hs hf ha hd hv hc body i hbody hitem => ?_,
    fun h => ⟨fun x hk hx => ?_, fun b hk hx => ?_, fun hk => ?_⟩, fun h => ⟨fun k x hk hx hl => ?_, fun hn hb => ?_, fun hn hb => ?_⟩⟩,
    fun t s => ⟨fun st v hst hw hb ha hd => ?_, fun fid body f hst ha hv hc => ⟨fun hr => ?_, fun hr => ?_⟩⟩,
    fun t fid s f l set d k hf hl hh hu ha hp hst hk => ?_⟩
  · exact congrArg Host.Outcome.next (issue_next h (issued_ask_takes h hi hb hg (fun _ => hset) hp hbest))
  · exact congrArg Host.Outcome.next (issue_next h (issued_ask_takes h hi hb hg (fun hf => absurd hf Bool.false_ne_true) hp hbest))
  · exact congrArg Host.Outcome.next (issue_stay h (issued_ask_finds_none h hi hb hg (fun _ => hset) hbids))
  · exact congrArg Host.Outcome.next (issue_next h (issued_ask_finds_none h hi hb hg (fun hf => absurd hf Bool.false_ne_true) hbids))
  · exact congrArg Host.Outcome.next (issued_ask_refused h (block := true) rfl (hn.imp_right (Or.imp_left fun hz => ⟨rfl, hz⟩)))
  · exact congrArg Host.Outcome.next (issued_ask_refused h (block := false) rfl (hn.imp_right .inr))
  · exact congrArg Host.Outcome.next (issue_fault h (issued_done_without_item h hi))
  · exact congrArg Host.Outcome.next (issue_stay h (issued_done_busy h hi hb))
  · exact congrArg Host.Outcome.next (issue_stay h ((issued_done_idle h hi hb).trans (issued_withStores_blocks h _ hf ha)))
  · exact congrArg Host.Outcome.next (issue_next h ((issued_done_idle h hi hb).trans (issued_withStores h _ hf ha hd)))
  · exact congrArg Host.Outcome.next (issue_fault h (issued_post_unbound h (block := true) rfl hs))
  · exact congrArg Host.Outcome.next (issue_fault h (issued_post_unbound h (block := false) rfl hs))
  · refine congrArg Host.Outcome.next (issue_next h ((issued_post_offers h (block := true) rfl hs hf ha hd).trans ?_))
    rw [State.offer_gone hv]
    rfl
  · refine congrArg Host.Outcome.next (issue_next h ((issued_post_offers h (block := false) rfl hs hf ha hd).trans ?_))
    rw [State.offer_gone hv]
    rfl
  · subst hbody hitem
    refine ⟨fun hr => ⟨fun h => ?_, fun h => ?_⟩, fun hr => ⟨fun h => ?_, fun h => ?_⟩⟩
    · refine congrArg Host.Outcome.next (issue_next h ((issued_post_offers h (block := true) rfl hs hf ha hd).trans ?_))
      rw [State.offer_room hv (Flow.full_eq_false hr) hc]
      rfl
    · refine congrArg Host.Outcome.next (issue_next h ((issued_post_offers h (block := false) rfl hs hf ha hd).trans ?_))
      rw [State.offer_room hv (Flow.full_eq_false hr) hc]
      rfl
    · refine congrArg Host.Outcome.next (issue_stay h ((issued_post_offers h (block := true) rfl hs hf ha hd).trans ?_))
      rw [State.offer_full hv (Flow.full_eq_true hr) hc]
      rfl
    · refine congrArg Host.Outcome.next (issue_next h ((issued_post_offers h (block := false) rfl hs hf ha hd).trans ?_))
      rw [State.offer_full hv (Flow.full_eq_true hr) hc]
      rfl
  · refine congrArg Host.Outcome.next (issue_next h ((issued_waitu h hk).trans ?_))
    rw [hx]
  · refine congrArg Host.Outcome.next (issue_stay h ((issued_waitu h hk).trans ?_))
    rw [hx]
  · exact congrArg Host.Outcome.next (issue_fault h (issued_waitu_faults h hk))
  · refine congrArg Host.Outcome.next (issue_next h ((issued_waitany h).trans ?_))
    rw [Thread.firstDone_eq hk hx hl]
    rfl
  · refine congrArg Host.Outcome.next (issue_stay h ((issued_waitany h).trans ?_))
    rw [hn, hb]
    rfl
  · refine congrArg Host.Outcome.next (issue_fault h ((issued_waitany h).trans ?_))
    rw [hn, hb]
    rfl
  · exact congrArg Host.Outcome.next (doneRetire_retires hst hw hb ha hd)
  · refine congrArg Host.Outcome.next ((postResume_offers hst ha).trans ?_)
    rw [State.offer_room hv (Flow.full_eq_false hr) hc]
  · refine congrArg Host.Outcome.next ((postResume_offers hst ha).trans ?_)
    rw [State.offer_full hv (Flow.full_eq_true hr) hc]
  · exact congrArg Host.Outcome.next (askOffer_hands_out hf hl hh hu ha hp hst hk)

end Sys2Proof.Machine

namespace Sys2Proof.Machine
open Sys2Proof

/-! What a turn and a fetch leave of the other units. -/

theorem State.turned_pods_only (s : State) (t : Nat) : ∃ p, s.turned t = { s with pods := p } := by
  unfold State.turned State.sortBeat
  split <;> exact ⟨_, rfl⟩

theorem fetched_gaz (t : Nat) (s : State) : (fetched t s).gaz = s.gaz := by
  obtain ⟨_, _, _, _, _, _, _, _, hg, _⟩ := fetched_sameCore t s
  obtain ⟨p, hp⟩ := s.turned_pods_only t
  rw [hg, hp]

theorem fetched_ctl (t : Nat) (s : State) : (fetched t s).ctl = s.ctl := by
  obtain ⟨_, hc, _⟩ := fetched_sameCore t s
  obtain ⟨p, hp⟩ := s.turned_pods_only t
  rw [hc, hp]

theorem fetched_disp (t : Nat) (s : State) : (fetched t s).disp = s.disp := by
  obtain ⟨p, hp⟩ := s.turned_pods_only t
  rw [(fetched_sameCore t s).disp, hp]

theorem fetched_units (t : Nat) (s : State) : (fetched t s).units = s.units := by
  obtain ⟨_, _, _, _, _, _, _, hu, _⟩ := fetched_sameCore t s
  obtain ⟨p, hp⟩ := s.turned_pods_only t
  rw [hu, hp]

theorem fetched_active (t u : Nat) (s : State) : (fetched t s).active u = s.active u := by
  unfold State.active
  rw [fetched_ctl, State.frozen_congr (State.frz_of_kept (fetched_kept t s))]

/-! Banks (R353, R358). -/

theorem State.gazBank_of_gaz {s u : State} (h : u.gaz = s.gaz) (b : Nat) : u.gazBank b = s.gazBank b := by
  unfold State.gazBank
  rw [h]

theorem State.gazSet_of_gaz {s u : State} (h : u.gaz = s.gaz) (id : Nat) : u.gazSet id = s.gazSet id := by
  unfold State.gazSet
  rw [h]

@[simp] theorem State.gazBank_modBank_self (s : State) (b : Nat) (f : GazBank → GazBank) : (s.modBank b f).gazBank b = f (s.gazBank b) :=
  Tbl.at_upd_self _ _ _ _

@[simp] theorem State.gazBank_modThread (s : State) (t b : Nat) (f : Thread → Thread) : (s.modThread t f).gazBank b = s.gazBank b := rfl
@[simp] theorem State.gazSet_modBank (s : State) (b id : Nat) (f : GazBank → GazBank) : (s.modBank b f).gazSet id = s.gazSet id := rfl
@[simp] theorem State.gazSet_modThread (s : State) (t id : Nat) (f : Thread → Thread) : (s.modThread t f).gazSet id = s.gazSet id := rfl
@[simp] theorem State.thread_modBank (s : State) (b t : Nat) (f : GazBank → GazBank) : (s.modBank b f).thread t = s.thread t := rfl

/-- A change of a bank counts for the bank as it is alone. -/
theorem State.modBank_congr {s : State} {b : Nat} {f g : GazBank → GazBank} (h : f (s.gazBank b) = g (s.gazBank b)) : s.modBank b f = s.modBank b g := by
  unfold State.modBank
  rw [h]

/-- What admission reads of a bank and the limits. -/
def sameGate (b : Nat) (s u : State) : Prop :=
  (u.gazBank b).state = (s.gazBank b).state ∧ (u.gazBank b).admitted = (s.gazBank b).admitted ∧ u.active (unitGaz b) = s.active (unitGaz b) ∧
    u.ctl.straps = s.ctl.straps ∧ u.gaz.level = s.gaz.level ∧ u.gaz.windowLimit = s.gaz.windowLimit ∧ u.gaz.activations = s.gaz.activations

section
variable {b : Nat} {s u : State} (h : sameGate b s u)
include h

theorem sameGate.serves : bankServes u b = bankServes s b := by
  obtain ⟨hs, _, ha, _⟩ := h
  unfold bankServes
  rw [hs, ha]

theorem sameGate.therm : thermHolds u b = thermHolds s b := by
  obtain ⟨_, ha, _, hs, hl, _⟩ := h
  unfold thermHolds throttleLimit
  rw [ha, hs, hl]

theorem sameGate.power : powerHolds u = powerHolds s := by
  obtain ⟨_, _, _, _, _, hw, hac⟩ := h
  unfold powerHolds
  rw [hw, hac]

end

/-! Admission of a search that waits alone (R353, R365, R366). -/

theorem advanceAll_unwritten {b : Nat} {s : State} (h : (s.gazBank b).writers = []) : advanceAll b s = s := by
  unfold advanceAll
  rw [h]
  rfl

/-- A search admitted at a bank that nobody writes: its number is the bank's next, and the array stays. -/
theorem admitSearch_unwritten {g : GazSet} {s : State} (h : (s.gazBank g.bank).writers = []) (kind key ctl : Nat) :
    (admitSearch g kind key ctl s).1 = searchResult kind (searchSet (s.gazBank g.bank) g key ctl).2 ((s.gazBank g.bank).seq + 1) ∧
    ∃ a y, (admitSearch g kind key ctl s).2 = { s.modBank g.bank y with gaz := { (s.modBank g.bank y).gaz with activations := a } } ∧
      (y (s.gazBank g.bank)).seq = (s.gazBank g.bank).seq + 1 ∧ (y (s.gazBank g.bank)).arr = (s.gazBank g.bank).arr ∧
      (y (s.gazBank g.bank)).waiting = (s.gazBank g.bank).waiting := by
  unfold admitSearch
  rw [advanceAll_unwritten h]
  exact ⟨rfl, _, fun k => { k with seq := k.seq + 1, segAct := sat32 k.segAct (searchSet (s.gazBank g.bank) g key ctl).1, admitted := k.admitted + 1 },
    rfl, rfl, rfl, rfl⟩

/-- A search of a thread at the head of a bank. -/
theorem admitHead_pod {b t k ep kind d e key ctl : Nat} {s : State} {l : List GazWait} {x : Slot} (hw : (s.gazBank b).waiting = .pod t k ep :: l)
    (hx : nth (s.thread t).slots none k = some x) (hop : x.op = .gaz kind d e key ctl none) (hep : (s.thread t).epoch = ep) :
    admitHead b s = admitAt b (.pod t k ep) kind key ctl (s.modBank b fun y => { y with waiting := l }) s
      ((s.modBank b fun y => { y with waiting := l }).fault t x.pc 0 (fErr stState 7)) (fun r s1 => s1.modThread t (fun th =>
        { th with slots := th.slots.set k (some { x with op := .gaz kind d e key ctl (some r) }) })) := by
  unfold admitHead
  rw [hw]
  dsimp only
  rw [hx]
  dsimp only
  rw [hop]
  dsimp only
  rw [if_neg (by simp [hep])]

/-- A search that a bank does not serve or that a limit holds stays at its head. -/
theorem admitAt_held {b kind key ctl : Nat} {w : GazWait} {rest s gone : State} {give : List Nat → State → State} {g : GazSet}
    (hg : s.gazSet (ctl % 2 ^ 32) = some g) (hb : g.bank = b) (h : bankServes s b = false ∨ thermHolds s b = true ∨ powerHolds s = true) :
    ∃ z, admitAt b w kind key ctl rest s gone give = (false, z) ∧ (z.gazBank b).waiting = (s.gazBank b).waiting ∧
      (z.gazBank b).seq = (s.gazBank b).seq ∧ z.gaz.sets = s.gaz.sets ∧ z.pods = s.pods := by
  cases hs : bankServes s b with
  | false =>
    refine ⟨s, ?_, rfl, rfl, rfl, rfl⟩
    unfold admitAt
    rw [hs]
    rfl
  | true =>
    have hheld : (thermHolds s b || powerHolds s) = true := by simpa [hs] using h
    refine ⟨(limitsHold b s).2, ?_, ?_⟩
    · unfold admitAt
      rw [hs, if_neg (by decide), hg]
      dsimp only
      rw [if_neg (by simpa using hb)]
      exact if_pos hheld
    · unfold limitsHold
      dsimp only
      rw [hheld, if_pos rfl, State.gazBank_modBank_self]
      exact ⟨rfl, rfl, rfl, rfl⟩

/-- A search that nothing holds is admitted. -/
theorem admitAt_free {b kind key ctl : Nat} {w : GazWait} {rest s gone : State} {give : List Nat → State → State} {g : GazSet}
    (hg : s.gazSet (ctl % 2 ^ 32) = some g) (hb : g.bank = b) (hs : bankServes s b = true) (ht : thermHolds s b = false) (hp : powerHolds s = false) :
    admitAt b w kind key ctl rest s gone give = (true, give (admitSearch g kind key ctl rest).1 (admitSearch g kind key ctl rest).2) := by
  unfold admitAt
  rw [hs, if_neg (by decide), hg]
  dsimp only
  rw [if_neg (by simpa using hb)]
  exact if_neg (by simp [limitsHold, ht, hp])

theorem drainBank_idle {b n : Nat} {s : State} (h : (s.gazBank b).waiting = []) : drainBank b n s = s := by
  cases n with
  | zero => rfl
  | succ n =>
    unfold drainBank admitHead
    rw [h]

/-- The only search that waits at a bank is admitted where nothing holds it. -/
theorem drainBank_admits {b n t k kind d e key ctl : Nat} {s : State} {x : Slot} {g : GazSet} (hw : (s.gazBank b).waiting = [.pod t k (s.thread t).epoch])
    (hx : nth (s.thread t).slots none k = some x) (hop : x.op = .gaz kind d e key ctl none) (hg : s.gazSet (ctl % 2 ^ 32) = some g) (hb : g.bank = b)
    (hwr : (s.gazBank b).writers = []) (hs : bankServes s b = true) (ht : thermHolds s b = false) (hp : powerHolds s = false) :
    ∃ z : State, drainBank b (n + 1) s = z.modThread t (fun th => { th with slots := th.slots.set k (some { x with
        op := .gaz kind d e key ctl (some (searchResult kind (searchSet (s.gazBank b) g key ctl).2 ((s.gazBank b).seq + 1))) }) }) ∧
      z.pods = s.pods ∧ z.disp = s.disp ∧ (z.gazBank b).seq = (s.gazBank b).seq + 1 ∧ (z.gazBank b).arr = (s.gazBank b).arr ∧ z.gaz.sets = s.gaz.sets := by
  subst hb
  have hrest : ((s.modBank g.bank fun y => { y with waiting := [] }).gazBank g.bank) = { s.gazBank g.bank with waiting := [] } := State.gazBank_modBank_self ..
  obtain ⟨hres, a, y, hst, hseq, harr, hwait⟩ := admitSearch_unwritten (s := s.modBank g.bank fun y => { y with waiting := [] })
    (by rw [hrest]; exact hwr) kind key ctl
  rw [hrest] at hres hseq harr hwait
  refine ⟨(admitSearch g kind key ctl (s.modBank g.bank fun y => { y with waiting := [] })).2, ?_, ?_⟩
  · rw [drainBank, admitHead_pod hw hx hop rfl, admitAt_free hg rfl hs ht hp, hres]
    refine drainBank_idle ?_
    rw [State.gazBank_modThread, hst]
    show (((s.modBank g.bank fun y => { y with waiting := [] }).modBank g.bank y).gazBank g.bank).waiting = []
    rw [State.gazBank_modBank_self, hrest, hwait]
  · rw [hst]
    refine ⟨rfl, rfl, ?_, ?_, rfl⟩
    · show (((s.modBank g.bank fun y => { y with waiting := [] }).modBank g.bank y).gazBank g.bank).seq = _
      rw [State.gazBank_modBank_self, hrest, hseq]
    · show (((s.modBank g.bank fun y => { y with waiting := [] }).modBank g.bank y).gazBank g.bank).arr = _
      rw [State.gazBank_modBank_self, hrest, harr]

/-- The only search that waits at a bank stays where the bank does not serve or a limit holds it. -/
theorem drainBank_holds {b n t k kind d e key ctl : Nat} {s : State} {x : Slot} {g : GazSet} (hw : (s.gazBank b).waiting = [.pod t k (s.thread t).epoch])
    (hx : nth (s.thread t).slots none k = some x) (hop : x.op = .gaz kind d e key ctl none) (hg : s.gazSet (ctl % 2 ^ 32) = some g) (hb : g.bank = b)
    (h : bankServes s b = false ∨ thermHolds s b = true ∨ powerHolds s = true) :
    ∃ z, drainBank b (n + 1) s = z ∧ z.pods = s.pods ∧ (z.gazBank b).waiting = (s.gazBank b).waiting ∧ (z.gazBank b).seq = (s.gazBank b).seq ∧
      z.gaz.sets = s.gaz.sets := by
  obtain ⟨z, hz, hwait, hseq, hsets, hpods⟩ := admitAt_held (w := .pod t k (s.thread t).epoch) (kind := kind) (key := key)
    (rest := s.modBank b fun y => { y with waiting := [] }) (gone := (s.modBank b fun y => { y with waiting := [] }).fault t x.pc 0 (fErr stState 7))
    (give := fun r s1 => s1.modThread t (fun th => { th with slots := th.slots.set k (some { x with op := .gaz kind d e key ctl (some r) }) })) hg hb h
  refine ⟨z, ?_, hpods, hwait, hseq, hsets⟩
  rw [drainBank, admitHead_pod hw hx hop rfl, hz]

/-! A search that issues (R127, R352). -/

/-- A thread with a search in a load slot. -/
def Thread.searching (kind k d key ctl : Nat) (th : Thread) : Thread :=
  let th := if bit ctl 40 then th.overwrite [rS (d + 1)] th.nextOrder else th
  { th with
    slots := th.slots.set k (some ⟨.gaz kind d (if bit ctl 40 then d + 1 else 0) key ctl none, 0, th.nextOrder, th.pc⟩)
    nextOrder := th.nextOrder + 1 }

theorem gazSearch_arrives {kind t k : Nat} {w : Insn} {s : State} {g : GazSet}
    (hf : searchFault s (s.ctxOf t) kind ((s.thread t).rs (insB w)).toNat (insD w) = none)
    (hg : s.gazSet (((s.thread t).rs (insB w)).toNat % 2 ^ 32) = some g) (hk : (s.thread t).freeSlot = some k) :
    gazSearch kind t w s = .next (drainBank g.bank ((s.gazBank g.bank).waiting.length + 2)
      ((s.modThread t (Thread.searching kind k (insD w) (gazKey (s.thread t) (insA w)) ((s.thread t).rs (insB w)).toNat)).modBank g.bank
        (fun x => { x with waiting := x.waiting ++ [.pod t k (s.thread t).epoch] }))) := by
  unfold gazSearch
  dsimp only
  rw [hf, hk, hg]
  rfl

theorem nth_overwrite_slots (th : Thread) (rs : List Nat) (n k : Nat) : nth (th.overwrite rs n).slots none k =
    (nth th.slots none k).map (fun x => if x.order < n then { x with op := rs.foldl SlotOp.kill x.op } else x) := by
  unfold Thread.overwrite nth
  simp only [List.getD_eq_getElem?_getD, List.getElem?_map]
  cases th.slots[k]? <;> rfl

theorem Thread.length_slots_overwrite (th : Thread) (rs : List Nat) (n : Nat) : (th.overwrite rs n).slots.length = th.slots.length := List.length_map _

theorem Thread.freeSlot_lt {th : Thread} {k : Nat} (h : th.freeSlot = some k) : k < 8 := by
  unfold Thread.freeSlot firstIdx at h
  exact List.mem_range.1 (List.mem_of_find?_eq_some h)

/-- The slot that a search takes. -/
def searchSlot (kind d key ctl : Nat) (th : Thread) (res : Option (List Nat)) : Slot :=
  ⟨.gaz kind d (if bit ctl 40 then d + 1 else 0) key ctl res, 0, th.nextOrder, th.pc⟩

theorem Thread.searching_spec {kind k d key ctl : Nat} {th : Thread} (hk : k < th.slots.length) :
    nth (th.searching kind k d key ctl).slots none k = some (searchSlot kind d key ctl th none) ∧
      (th.searching kind k d key ctl).slots.length = th.slots.length ∧ (th.searching kind k d key ctl).epoch = th.epoch ∧
      (th.searching kind k d key ctl).s = th.s ∧ (th.searching kind k d key ctl).v = th.v := by
  unfold Thread.searching searchSlot
  dsimp only
  split_ifs
  · exact ⟨nth_set_self _ _ ((Thread.length_slots_overwrite ..).symm ▸ hk), by rw [List.length_set, Thread.length_slots_overwrite], rfl, rfl, rfl⟩
  · exact ⟨nth_set_self _ _ hk, List.length_set .., rfl, rfl, rfl⟩

theorem searchFault_of_gaz {s u : State} (h : u.gaz = s.gaz) (ctx kind ctl d : Nat) : searchFault u ctx kind ctl d = searchFault s ctx kind ctl d := by
  unfold searchFault
  rw [State.gazSet_of_gaz h]

/-- A thread that has gone on keeps the slot that its instruction took. -/
theorem ended_slot {r : Row} {t pc k : Nat} {w : Insn} {s v : State} {x : Slot} (hx : nth (v.thread t).slots none k = some x)
    (ho : x.order = (s.thread t).nextOrder) : nth ((ended r t w pc s v).thread t).slots none k = some x := by
  unfold ended
  rw [State.thread_modThread_self]
  show nth ((v.thread t).overwrite _ _).slots none k = _
  rw [nth_overwrite_slots, hx, Option.map_some, if_neg (by omega)]

section
variable {kind t k : Nat} {w : Insn} {s : State} {g : GazSet}

/-- The state in which a search has arrived at its bank. -/
def searchArrived (kind t k : Nat) (w : Insn) (s : State) (b : Nat) : State :=
  ((fetched t s).modThread t (Thread.searching kind k (insD w) (gazKey (s.thread t) (insA w)) ((s.thread t).rs (insB w)).toNat)).modBank b
    (fun x => { x with waiting := [.pod t k (s.thread t).epoch] })

variable (h : issues (rowSearch kind) t w s = true) (hf : searchFault s (s.ctxOf t) kind ((s.thread t).rs (insB w)).toNat (insD w) = none)
  (hg : s.gazSet (((s.thread t).rs (insB w)).toNat % 2 ^ 32) = some g) (hk : (s.thread t).freeSlot = some k) (hw : (s.gazBank g.bank).waiting = [])
include h hf hg hk hw

theorem issue_search : (rowSearch kind).issue t w s =
    ended (rowSearch kind) t w (nextPc w (s.thread t).pc) s (drainBank g.bank 2 (searchArrived kind t k w s g.bank)) := by
  have ht := issued_thread h
  have hgz := fetched_gaz t s
  refine issue_next h ((gazSearch_arrives (k := k) (g := g) ?_ ?_ ?_).trans ?_)
  · rw [ht, ctxOf_issued h, searchFault_of_gaz hgz, hf]
  · rw [ht, State.gazSet_of_gaz hgz, hg]
  · rw [ht, hk]
  · unfold searchArrived
    rw [State.gazBank_of_gaz hgz, hw, ht, State.modBank_congr (g := fun x => { x with waiting := [.pod t k (s.thread t).epoch] })
      (by rw [State.gazBank_modThread, State.gazBank_of_gaz hgz, hw]; rfl)]
    rfl

end

theorem searchArrived_gate (kind t k : Nat) (w : Insn) (s : State) (b : Nat) : sameGate b s (searchArrived kind t k w s b) := by
  have hgz := fetched_gaz t s
  unfold searchArrived
  refine ⟨?_, ?_, ?_, ?_, ?_, ?_, ?_⟩
  · rw [State.gazBank_modBank_self, State.gazBank_modThread, State.gazBank_of_gaz hgz]
  · rw [State.gazBank_modBank_self, State.gazBank_modThread, State.gazBank_of_gaz hgz]
  · exact fetched_active t _ s
  · exact congrArg Ctl.straps (fetched_ctl t s)
  · exact (congrArg Gaz.level hgz :)
  · exact (congrArg Gaz.windowLimit hgz :)
  · exact (congrArg Gaz.activations hgz :)

/-- What a search that has arrived has left of its bank and of its thread. -/
theorem searchArrived_spec {r : Row} {kind t k b : Nat} {w : Insn} {s : State} (h : issues r t w s = true) :
    (searchArrived kind t k w s b).gazBank b = { s.gazBank b with waiting := [.pod t k (s.thread t).epoch] } ∧
      (searchArrived kind t k w s b).gaz.sets = s.gaz.sets ∧ (searchArrived kind t k w s b).disp = s.disp ∧
      (searchArrived kind t k w s b).thread t = (s.thread t).searching kind k (insD w) (gazKey (s.thread t) (insA w)) ((s.thread t).rs (insB w)).toNat := by
  have hgz := fetched_gaz t s
  unfold searchArrived
  refine ⟨?_, (congrArg Gaz.sets hgz :), fetched_disp t s, ?_⟩
  · rw [State.gazBank_modBank_self, State.gazBank_modThread, State.gazBank_of_gaz hgz]
  · rw [State.thread_modBank, State.thread_modThread_self, issued_thread h]

/-! GUPD (R357 to R359). -/

/-- An asynchronous row whose operation can issue. -/
theorem issue_async {r : Row} {t record kind : Nat} {i : Instr} {w : Insn} {s v : State} {go : Issuer → State → State} (hx : exec i s = .next (r.issue t w s))
    (hr : r.run t w (fetched t s) = asyncIssue t w record kind (fetched t s) go) (hw : r.writes w = [rS (insD w)]) (h : issues r t w s = true)
    (ha : asyncReady t record (fetched t s) v) : issuesAs i t w record kind s v go := by
  obtain ⟨k, hk, hfree, hgo⟩ := asyncIssue_ready ha w kind go
  rw [issued_thread h] at hfree hgo
  refine ⟨k, hk, hfree, hx.trans (congrArg Host.Outcome.next ((issue_next h (hr.trans hgo)).trans ?_))⟩
  unfold ended wentOn
  rw [hw]

/-- An operation whose descriptor is read, meets no injection and passes its checks goes on. -/
theorem State.withDesc_read {iss : Issuer} {ctx addr n kind : Nat} {s u : State} {b : List Byte} (h : (memRead ctx addr n).exec s = (.ok b, u))
    (go : List Byte → State → State) : s.withDesc iss ctx addr n kind go = go b u := by
  unfold State.withDesc
  rw [h]

theorem State.checkJob_passes {s : State} {kind : Nat} {fails : List (Bool × Err)} (ha : s.armed 0x0F kind = none) (hp : passes fails = true)
    (iss : Issuer) (ctx argDetail : Nat) (refused : Option Err) (go : State → State) : s.checkJob iss ctx kind argDetail refused fails go = go s := by
  unfold State.checkJob
  rw [ha]
  dsimp only
  rw [Option.isNone_iff_eq_none.1 hp]

theorem gupdIssue_joins {iss : Issuer} {c a : Nat} {z u : State} {b : List Byte} {g : GazSet} (hr : (memRead c a 32).exec z = (.ok b, u))
    (ha : u.armed 0x0F 7 = none) (hp : passes (gupdFails u c a b) = true) (hg : u.gazSet (fld b 0 4) = some g) :
    gupdIssue iss c a z = u.modBank g.bank (fun y => { y with
      writers := y.writers ++ [⟨fld b 0 4, fld b 4 4, fld b 8 4, 0, .gupd iss c (fld b 0x10 8) (bit (fld b 0xC 4) 0)⟩] }) := by
  unfold gupdIssue
  rw [State.withDesc_read hr, State.checkOp, State.checkJob_passes ha hp, hg]

theorem Tbl.put_put {α : Type} (t : Tbl α) (a : Nat) (x y : α) : (t.put a x).put a y = t.put a y := by
  induction t with
  | nil => exact if_pos rfl
  | cons e t ih =>
    obtain ⟨k, v⟩ := e
    by_cases h1 : k = a
    · simp [Tbl.put, h1]
    · by_cases h2 : a < k
      · simp [Tbl.put, h1, h2]
      · simp [Tbl.put, h1, h2, ih]

theorem Tbl.del_put {α : Type} (t : Tbl α) (a : Nat) (x : α) : (t.put a x).del a = t.del a := by
  induction t with
  | nil => simp [Tbl.put, Tbl.del]
  | cons e t ih =>
    obtain ⟨k, v⟩ := e
    unfold Tbl.del at ih ⊢
    unfold Tbl.put
    split_ifs with h1
    · simp [h1]
    · simp
    · rw [List.filter_cons, List.filter_cons, ih]

/-- A value listed and then set again is as if set once. -/
theorem Tbl.upd_upd {α : Type} [DecidableEq α] (t : Tbl α) (d : α) (a : Nat) {x : α} (y : α) (h : x ≠ d) : (t.upd d a x).upd d a y = t.upd d a y := by
  unfold Tbl.upd
  rw [if_neg h]
  split_ifs
  · exact Tbl.del_put ..
  · exact Tbl.put_put ..

/-- A bank changed twice is changed by both, where the first change does not leave it as after reset. -/
theorem State.modBank_modBank {s : State} {b : Nat} {f g : GazBank → GazBank} (h : f (s.gazBank b) ≠ GazBank.init) :
    (s.modBank b f).modBank b g = s.modBank b (g ∘ f) := by
  have hu : (s.gaz.banks.upd GazBank.init b (f (s.gazBank b))).upd GazBank.init b (g (f (s.gazBank b))) = s.gaz.banks.upd GazBank.init b (g (f (s.gazBank b))) :=
    Tbl.upd_upd _ _ _ _ h
  rw [State.modBank, State.gazBank_modBank_self]
  unfold State.modBank
  rw [hu]
  rfl

theorem GazBank.writeEntry_ne_init (k : GazBank) (e r : Nat) : k.writeEntry e r ≠ GazBank.init := by
  intro h
  have hw : sat32 k.writes 1 = 0 := congrArg GazBank.writes h
  unfold sat32 at hw
  omega

/-- The only writer of a bank clears its i-th entry from here. -/
def cleared (b base : Nat) (w : GazWriter) (s : State) (i : Nat) : State :=
  s.modBank b (fun y => { y.writeEntry (base + w.first + w.done + i) 0 with writers := [{ w with done := w.done + i + 1 }] })

theorem cleared_succ (b base : Nat) (w : GazWriter) : cleared b base { w with done := w.done + 1 } = fun s i => cleared b base w s (i + 1) := by
  funext s i
  unfold cleared
  rw [show base + w.first + (w.done + 1) + i = base + w.first + w.done + (i + 1) by omega, show w.done + 1 + i + 1 = w.done + (i + 1) + 1 by omega]

/-- A writer that invalidates clears its next entry. -/
theorem advanceWriter_succ {b n : Nat} {s : State} {w : GazWriter} {g : GazSet} {iss : Issuer} {c a : Nat} (hw : (s.gazBank b).writers = [w])
    (hs : w.src = .gupd iss c a true) (hg : s.gazSet w.set = some g) (hn : w.done < w.count) :
    advanceWriter b 0 (n + 1) s = advanceWriter b 0 n (cleared b g.base w s 0) := by
  have hnext : writerNext w s = (.ok 0, s) := by
    unfold writerNext
    rw [hs]
    rfl
  rw [advanceWriter, hw]
  dsimp only [List.getElem?_cons_zero]
  rw [if_neg (by omega), hg]
  dsimp only
  rw [hnext]
  dsimp only
  rw [State.modWriter, State.modBank_modBank (f := fun k => k.writeEntry (g.base + w.first + w.done) 0) (GazBank.writeEntry_ne_init _ _ _)]
  refine congrArg _ (State.modBank_congr ?_)
  show ({ (s.gazBank b).writeEntry (g.base + w.first + w.done) 0 with writers := modNth (s.gazBank b).writers 0 fun w => { w with done := w.done + 1 } } : GazBank) = _
  rw [hw]
  rfl

/-- A writer that invalidates clears as many entries as it is moved on by. -/
theorem advanceWriter_clears {b n : Nat} {s : State} {w : GazWriter} {g : GazSet} {iss : Issuer} {c a : Nat} (hw : (s.gazBank b).writers = [w])
    (hs : w.src = .gupd iss c a true) (hg : s.gazSet w.set = some g) (hn : w.done + n ≤ w.count) :
    advanceWriter b 0 n s = (List.range n).foldl (cleared b g.base w) s ∧
      ((advanceWriter b 0 n s).gazBank b).writers = [{ w with done := w.done + n }] := by
  induction n generalizing s w with
  | zero => exact ⟨rfl, hw⟩
  | succ n ih =>
    have hw' : ((cleared b g.base w s 0).gazBank b).writers = [{ w with done := w.done + 1 }] := by
      unfold cleared
      rw [State.gazBank_modBank_self]
    obtain ⟨hf, hd⟩ := ih (w := { w with done := w.done + 1 }) hw' hs hg (by simp only; omega)
    rw [advanceWriter_succ hw hs hg (by omega)]
    refine ⟨?_, ?_⟩
    · rw [hf, List.range_succ_eq_map, List.foldl_cons, List.foldl_map, cleared_succ]
    · rw [hd]
      rw [show w.done + 1 + n = w.done + (n + 1) by omega]

theorem finishWriter_clears {b : Nat} {s : State} {w : GazWriter} {g : GazSet} {iss : Issuer} {c a : Nat} (hw : (s.gazBank b).writers = [w])
    (hs : w.src = .gupd iss c a true) (hg : s.gazSet w.set = some g) (hn : w.done < w.count) : finishWriter b 0 s =
      (((List.range (w.count - w.done)).foldl (cleared b g.base w) s).modBank b (fun y => { y with writers := [] })).endOp iss c
        { status := stOk, kind := 7, consumed := 0, produced := w.count } := by
  obtain ⟨hf, hd⟩ := advanceWriter_clears (n := w.count - w.done) hw hs hg (by omega)
  unfold finishWriter
  rw [hw]
  dsimp only [List.getElem?_cons_zero]
  rw [hd]
  dsimp only [List.getElem?_cons_zero]
  have hcount : w.done + (w.count - w.done) = w.count := by omega
  rw [if_pos ⟨rfl, by omega⟩, hcount]
  unfold endWriter
  dsimp only
  rw [hs, State.modBank_congr (g := fun y => { y with writers := [] }) (by rw [hd]; rfl), hf]
  rfl

theorem gupdEnd_finishes {t k b : Nat} {s : State} {w : GazWriter} {e c : Nat} (hb : b < 8)
    (hj : ∀ j, j < b → ∀ y ∈ (s.gazBank j).writers, y.isOf t k = false) (hw : (s.gazBank b).writers = [w]) (hs : w.src = .gupd (.pod t k 0 e) c 0 true)
    (hserve : bankServes s b = true) (hm : s.memFrozen = false) : gupdEnd t k s = finishWriter b 0 s := by
  have hfind : (List.range 8).findSome? (fun b => ((s.gazBank b).writers.findIdx? (fun w => w.isOf t k)).map (fun i => (b, i))) = some (b, 0) := by
    refine List.findSome?_eq_some_iff.2 ⟨List.range b, b, List.range' (b + 1) (7 - b), ?_, ?_, fun j hlt => ?_⟩
    · interval_cases b <;> rfl
    · have his : w.isOf t k = true := by
        unfold GazWriter.isOf
        rw [hs]
        simp
      rw [hw, List.findIdx?_cons, his]
      rfl
    · rw [List.findIdx?_eq_none_iff.2 (hj j (List.mem_range.1 hlt))]
      rfl
  unfold gupdEnd
  rw [hfind]
  exact if_pos (by rw [hserve, hm]; rfl)

/-! Results (R349 to R351). -/

theorem minBy_id_of_least {l : List Nat} {g : Nat} (hg : g ∈ l) (hl : ∀ h ∈ l, g ≤ h) : minBy id l = some g := by
  obtain ⟨z, hz, hm, hle⟩ := minBy_spec id l hg
  have hgz := hl z hm
  have hzg : z ≤ g := hle
  rw [hz, le_antisymm hzg hgz]

theorem bucketize_of_least {l : List Nat} {g : Nat} (hg : g ∈ l) (hl : ∀ h ∈ l, g ≤ h) : bucketize l =
    g + 64 + (if l.all (· == g) then 0 else 128) + 256 * min (l.filter (· == g)).length 255 + 2 ^ 16 * l.length := by
  unfold bucketize
  rw [minBy_id_of_least hg hl]
  have hany : l.any (· != g) = !l.all (· == g) := by
    rw [List.not_all_eq_any_not]
    rfl
  dsimp only
  rw [hany]
  cases l.all (· == g) <;> rfl

theorem searchResult_histogram {hits : List Nat} {g : Nat} (seq : Nat) (h : g < 64) :
    (searchResult 1 hits seq)[g]? = some (min 255 (hits.filter (· == g)).length) := by
  unfold searchResult
  rw [if_pos rfl, List.getElem?_map, List.getElem?_range h]
  rfl

/-! What a search has left once its thread has gone on (R353). -/

section
variable {kind t k : Nat} {w : Insn} {s : State} {g : GazSet} (h : issues (rowSearch kind) t w s = true)
  (hl : (s.thread t).slots.length = 8) (hk : (s.thread t).freeSlot = some k) (hg : s.gazSet (((s.thread t).rs (insB w)).toNat % 2 ^ 32) = some g)
include h hl hk hg

/-- The slot of a search, the result of which is at most still to come. -/
def searchTook (kind t : Nat) (w : Insn) (s : State) (res : Option (List Nat)) : Slot :=
  searchSlot kind (insD w) (gazKey (s.thread t) (insA w)) ((s.thread t).rs (insB w)).toNat (s.thread t) res

theorem searchArrived_waits : ((searchArrived kind t k w s g.bank).gazBank g.bank).waiting = [.pod t k ((searchArrived kind t k w s g.bank).thread t).epoch] ∧
    nth ((searchArrived kind t k w s g.bank).thread t).slots none k = some (searchTook kind t w s none) ∧
    ((searchArrived kind t k w s g.bank).thread t).s = (s.thread t).s ∧ ((searchArrived kind t k w s g.bank).thread t).v = (s.thread t).v ∧
    (searchArrived kind t k w s g.bank).gazSet (((s.thread t).rs (insB w)).toNat % 2 ^ 32) = some g ∧
    ((searchArrived kind t k w s g.bank).thread t).slots.length = 8 := by
  obtain ⟨hbank, hsets, hdisp, hth⟩ := searchArrived_spec (kind := kind) (b := g.bank) (k := k) h
  obtain ⟨hslot, hlen, hep, hs, hv⟩ := Thread.searching_spec (kind := kind) (d := insD w) (key := gazKey (s.thread t) (insA w))
    (ctl := ((s.thread t).rs (insB w)).toNat) (hl.symm ▸ Thread.freeSlot_lt hk)
  rw [hbank, hth]
  refine ⟨by rw [hep], hslot, hs, hv, ?_, hlen.trans hl⟩
  rw [← hg]
  unfold State.gazSet
  rw [hsets]

variable (hf : searchFault s (s.ctxOf t) kind ((s.thread t).rs (insB w)).toNat (insD w) = none) (hw : (s.gazBank g.bank).waiting = [])
include hf hw

/-- A search that nothing holds has its result in its slot, and its number is the bank's next. -/
theorem issue_search_admitted (hs : bankServes s g.bank = true) (hwr : (s.gazBank g.bank).writers = []) (ht : thermHolds s g.bank = false)
    (hp : powerHolds s = false) : ∃ u, (rowSearch kind).issue t w s = u ∧
      nth (u.thread t).slots none k = some (searchTook kind t w s (some (searchResult kind
        (searchSet (s.gazBank g.bank) g (gazKey (s.thread t) (insA w)) ((s.thread t).rs (insB w)).toNat).2 ((s.gazBank g.bank).seq + 1)))) ∧
      (u.thread t).pc = nextPc w (s.thread t).pc ∧ (u.thread t).s = (s.thread t).s ∧ (u.thread t).v = (s.thread t).v ∧
      (u.gazBank g.bank).seq = (s.gazBank g.bank).seq + 1 ∧ (u.gazBank g.bank).arr = (s.gazBank g.bank).arr ∧ u.gaz.sets = s.gaz.sets ∧ u.disp = s.disp := by
  obtain ⟨hwait, hslot, hS, hV, hset, hlen⟩ := searchArrived_waits h hl hk hg
  obtain ⟨hbank, hsets, hdisp, _⟩ := searchArrived_spec (kind := kind) (b := g.bank) (k := k) h
  have hgate := searchArrived_gate kind t k w s g.bank
  obtain ⟨z, hz, hpods, hzd, hseq, harr, hzs⟩ := drainBank_admits (n := 1) hwait hslot rfl hset rfl (by rw [hbank]; exact hwr) (hgate.serves.trans hs)
    (hgate.therm.trans ht) (hgate.power.trans hp)
  have hth : z.thread t = (searchArrived kind t k w s g.bank).thread t := congrArg (fun p : Pods => p.threads.at Thread.init t) hpods
  rw [hbank] at hz hseq harr
  refine ⟨_, (issue_search h hf hg hk hw).trans (congrArg (ended _ _ _ _ _) hz), ended_slot ?_ rfl, ?_, ?_, ?_, hseq, harr, hzs.trans hsets, hzd.trans hdisp⟩
  · rw [State.thread_modThread_self, hth]
    exact nth_set_self _ _ (hlen.symm ▸ Thread.freeSlot_lt hk)
  · unfold ended
    rw [State.thread_modThread_self]
  · unfold ended
    rw [State.thread_modThread_self, State.thread_modThread_self, hth]
    exact hS
  · unfold ended
    rw [State.thread_modThread_self, State.thread_modThread_self, hth]
    exact hV

/-- A search that its bank does not serve or that a limit holds waits there. -/
theorem issue_search_held (hheld : bankServes s g.bank = false ∨ thermHolds s g.bank = true ∨ powerHolds s = true) :
    ∃ u, (rowSearch kind).issue t w s = u ∧ nth (u.thread t).slots none k = some (searchTook kind t w s none) ∧
      (u.thread t).pc = nextPc w (s.thread t).pc ∧ (u.thread t).s = (s.thread t).s ∧ (u.gazBank g.bank).waiting = [.pod t k (s.thread t).epoch] ∧
      (u.gazBank g.bank).seq = (s.gazBank g.bank).seq ∧ u.gaz.sets = s.gaz.sets := by
  obtain ⟨hwait, hslot, hS, _, hset, _⟩ := searchArrived_waits h hl hk hg
  obtain ⟨hbank, hsets, _⟩ := searchArrived_spec (kind := kind) (b := g.bank) (k := k) h
  have hgate := searchArrived_gate kind t k w s g.bank
  rw [← hgate.serves, ← hgate.therm, ← hgate.power] at hheld
  obtain ⟨z, hz, hpods, hzw, hseq, hzs⟩ := drainBank_holds (n := 1) hwait hslot rfl hset rfl hheld
  have hth : z.thread t = (searchArrived kind t k w s g.bank).thread t :=
    congrArg (fun p : Pods => p.threads.at Thread.init t) hpods
  rw [hbank] at hzw hseq
  refine ⟨_, (issue_search h hf hg hk hw).trans (congrArg (ended _ _ _ _ _) hz), ended_slot (by rw [hth, hslot]) rfl, ?_, ?_, hzw, hseq, hzs.trans hsets⟩
  · unfold ended
    rw [State.thread_modThread_self]
  · unfold ended
    rw [State.thread_modThread_self, hth]
    exact hS

end

/-- A search that meets a fault, or no free slot. -/
theorem issued_search_faults {kind t : Nat} {w : Insn} {s : State} {e : Err} (h : issues (rowSearch kind) t w s = true)
    (hf : searchFault s (s.ctxOf t) kind ((s.thread t).rs (insB w)).toNat (insD w) = some e) :
    (rowSearch kind).run t w (fetched t s) = .fault e 0 (fetched t s) := by
  show gazSearch kind t w (fetched t s) = _
  unfold gazSearch
  rw [issued_thread h, ctxOf_issued h]
  dsimp only
  rw [searchFault_of_gaz (fetched_gaz t s), hf]

theorem issued_search_without_slot {kind t : Nat} {w : Insn} {s : State} (h : issues (rowSearch kind) t w s = true)
    (hf : searchFault s (s.ctxOf t) kind ((s.thread t).rs (insB w)).toNat (insD w) = none) (hk : (s.thread t).freeSlot = none) :
    (rowSearch kind).run t w (fetched t s) = .stay ((fetched t s).block t .loadSlot) := by
  show gazSearch kind t w (fetched t s) = _
  unfold gazSearch
  rw [issued_thread h, ctxOf_issued h]
  dsimp only
  rw [searchFault_of_gaz (fetched_gaz t s), hf, hk]

theorem exec_search {kind : Nat} {t : Fin 8192} {w : Insn} {i : Instr} (s : State)
    (hi : (kind = 0 ∧ i = Instr.gsrchT t w) ∨ (kind = 1 ∧ i = Instr.gsrchG t w) ∨ (kind = 2 ∧ i = Instr.gbkt t w)) :
    exec i s = .next ((rowSearch kind).issue t w s) := by
  rcases hi with ⟨rfl, rfl⟩ | ⟨rfl, rfl⟩ | ⟨rfl, rfl⟩
  · rfl
  · rfl
  · rfl

/-- Settles O22, by what a search that has arrived at its bank meets there, by the entries that a writer alone clears, and by the results of searches. -/
theorem gazetteerInstructionsComplete : Obligations.GazetteerInstructionsComplete := by
  refine ⟨fun t w s => ⟨fun kind i hi h _ => ⟨fun g n hf hg hk hl _ hs hw hwr ht hp => ?_, fun g n hf hg hk hl _ hw hheld => ?_, fun e hf => ?_, fun hf hk => ?_⟩,
    fun v record a h hrec ha hr => ?_⟩, fun iss c a z u b g hr ha hp hg => gupdIssue_joins hr ha hp hg, fun t k s b w g e c hb hj hw hsrc hg hs hm hd => ?_,
    fun k e r => ⟨Tbl.at_upd_self _ _ _ _, Tbl.at_upd_self _ _ _ _, Tbl.at_upd_self _ _ _ _⟩, fun kind d e key ctl c r s => ?_,
    fun hits seq => ⟨rfl, fun g hg => searchResult_histogram seq hg, fun g hg hl => ?_, rfl⟩⟩
  · obtain ⟨u, hu, hspec⟩ := issue_search_admitted h hl hk hg hf hw hs hwr ht hp
    obtain ⟨hslot, hrest⟩ := hspec
    exact ⟨u, _, (exec_search s hi).trans (congrArg Host.Outcome.next hu), rfl, hslot, hrest⟩
  · obtain ⟨u, hu, hspec⟩ := issue_search_held h hl hk hg hf hw hheld
    exact ⟨u, (exec_search s hi).trans (congrArg Host.Outcome.next hu), hspec⟩
  · exact (exec_search s hi).trans (congrArg Host.Outcome.next (issue_fault h (issued_search_faults h hf)))
  · exact (exec_search s hi).trans (congrArg Host.Outcome.next (issue_stay h (issued_search_without_slot h hf hk)))
  · subst hrec ha
    refine issue_async (r := rowGupd) rfl ?_ rfl h hr
    rw [← issued_thread h, ← ctxOf_issued h]
    rfl
  · exact ⟨_, rfl, (gupdEnd_finishes hb hj hw hsrc hs hm).trans (finishWriter_clears hw hsrc hg hd)⟩
  · by_cases hk : kind = 1
    · exact ⟨_, if_pos hk, fun _ => rfl, fun hn => absurd hk hn⟩
    · exact ⟨_, if_neg hk, fun h => absurd h hk, fun _ => rfl⟩
  · show [bucketize hits, seq] = _
    rw [bucketize_of_least hg hl]

end Sys2Proof.Machine

namespace Sys2Proof.Machine
open Sys2Proof

/-! What the stores of a thread that reach memory leave (R116, R118). -/

theorem drainStores_core (s : State) (t : Nat) : ∃ z, sameCore s z ∧ (s.drainStores t).2 = z.modThread t (fun th =>
    { th with stores := th.stores.filter (fun st => !decide (st.order < 2 ^ 64)) }) := by
  refine ⟨_, ?_, rfl⟩
  refine foldl_invariant (P := fun a : Option (Nat × Nat × Err) × State => sameCore s a.2) (fun a st ha => ?_) _ _ (sameCore.refl s)
  have hr := sameCore_storeOp_run st (s.ctxOf t) a.2
  rcases hq : st.run (s.ctxOf t) a.2 with ⟨_ | ⟨va, e⟩, u⟩
  · rw [hq] at hr
    exact ha.trans hr
  · rw [hq] at hr
    exact ha.trans hr

theorem sameCore.thread {s u : State} (h : sameCore s u) (t : Nat) : u.thread t = s.thread t :=
  congrArg (fun p : Pods => p.threads.at Thread.init t) h.pods

theorem sameCore.gaz {s u : State} (h : sameCore s u) : u.gaz = s.gaz := by
  obtain ⟨_, _, _, _, _, _, _, _, hg, _⟩ := h
  exact hg

theorem sameCore.units {s u : State} (h : sameCore s u) : u.units = s.units := by
  obtain ⟨_, _, _, _, _, _, _, hu, _⟩ := h
  exact hu

/-- A state in which an instruction of a thread goes on once its stores have reached memory: nothing of the thread but its stores has changed, nor the
Dispatcher or the Gazetteer. -/
def stored (t : Nat) (s u : State) : Prop := (∃ l, u.thread t = { s.thread t with stores := l }) ∧ u.disp = s.disp ∧ u.gaz = s.gaz

theorem stored.core {t : Nat} {s u v : State} (h : stored t s u) (hc : sameCore u v) : stored t s v := by
  obtain ⟨⟨l, hl⟩, hd, hg⟩ := h
  exact ⟨⟨l, (hc.thread t).trans hl⟩, hc.disp.trans hd, hc.gaz.trans hg⟩

theorem issued_stored {r : Row} {t : Nat} {w : Insn} {s v : State} (h : issues r t w s = true) (hd : (fetched t s).drainStores t = (none, v)) :
    stored t s v := by
  obtain ⟨z, hz, hv⟩ := drainStores_core (fetched t s) t
  rw [hd] at hv
  dsimp only at hv
  subst hv
  refine ⟨⟨(s.thread t).stores.filter (fun st => !decide (st.order < 2 ^ 64)), ?_⟩, hz.disp.trans (fetched_disp t s), hz.gaz.trans (fetched_gaz t s)⟩
  rw [State.thread_modThread_self, hz.thread, issued_thread h]

/-! Regions (R276, R280). -/

theorem sameCore_joinRegion (t h : Nat) (n : Need) (s : State) : sameCore s (joinRegion t h n s).2 := by
  unfold joinRegion
  dsimp only
  split_ifs
  · exact sameCore.refl s
  · exact sameCore.refl s
  · split
    · exact sameCore_countRefused ..
    · next pages _ =>
      split_ifs
      · exact sameCore.refl s
      · have hm := sameCore_memRead (s.ctxOf t) (handleVa h) (4096 * pages.length) false s
        rcases hr : (memRead (s.ctxOf t) (handleVa h) (4096 * pages.length)).exec s with ⟨e | b, u⟩
        · rw [hr] at hm
          exact hm
        · rw [hr] at hm
          exact hm

/-- The read of a region leaves which units are active. -/
theorem active_joinRegion (t h : Nat) (n : Need) (s : State) (u : Nat) : (joinRegion t h n s).2.active u = s.active u := by
  have hctl : (joinRegion t h n s).2.ctl = s.ctl := by
    obtain ⟨_, hc, _⟩ := sameCore_joinRegion t h n s
    exact hc
  have hfrz : (joinRegion t h n s).2.dbg.frz = s.dbg.frz := by
    unfold joinRegion
    dsimp only
    split_ifs
    · rfl
    · rfl
    · split
      · exact State.frz_of_kept (State.kept_countRefused ..)
      · next pages _ =>
        split_ifs
        · rfl
        · have hm := State.frz_of_kept (kept_memReadN .r (s.ctxOf t) (handleVa h) (4096 * pages.length) false s)
          rcases hr : (memRead (s.ctxOf t) (handleVa h) (4096 * pages.length)).exec s with ⟨e | b, u⟩
          · rw [memRead] at hr
            rw [hr] at hm
            exact hm
          · rw [memRead] at hr
            rw [hr] at hm
            exact hm
  unfold State.active
  rw [hctl, State.frozen_congr hfrz]

section
variable {t h : Nat} {n : Need} {s : State}

theorem joinRegion_reserved (hb : bit h 63 = true) : joinRegion t h n s = (.error (fErr stArg 1), s) := if_pos hb

theorem joinRegion_misaligned (hb : bit h 63 = false) (ha : handleVa h % 4096 ≠ 0) : joinRegion t h n s = (.error (fErr stAlign 5), s) :=
  (if_neg (by simp [hb])).trans (if_pos ha)

theorem joinRegion_refused {e : Err} (hb : bit h 63 = false) (ha : handleVa h % 4096 = 0) (hr : regionPages s (s.ctxOf t) h n = .error e) :
    joinRegion t h n s = (.error e, s.countRefused (s.ctxOf t) e.status) := by
  unfold joinRegion
  rw [hb, if_neg (by decide), if_neg (by omega), hr]

theorem joinRegion_claimed {p : List Nat} (hb : bit h 63 = false) (ha : handleVa h % 4096 = 0) (hr : regionPages s (s.ctxOf t) h n = .ok p)
    (hc : ∃ a ∈ p, a ∈ s.joinClaims) : joinRegion t h n s = (.error (fErr stState 7), s) := by
  obtain ⟨a, hap, hac⟩ := hc
  unfold joinRegion
  rw [hb, if_neg (by decide), if_neg (by omega), hr]
  exact if_pos (List.any_eq_true.2 ⟨a, hap, List.contains_iff_mem.2 hac⟩)

end

section
variable {r : Row} {t n : Nat} {w : Insn} {s v v1 : State} {need : Need} {hd : Nat} (h : issues r t w s = true) (hk : (s.thread t).freeSlot = some n)
  (hf : s.memFrozen = false) (ha : (s.thread t).stores.any (s.thread t).storeWaits = false) (hv : (fetched t s).drainStores t = (none, v))
include h hk hf ha hv

theorem issued_region {pages : List Nat} (hj : joinRegion t hd need v = (.ok pages, v1)) (hp : pages.all (fun p => v1.active (unitJoin (sliceOf p))) = true) :
    stored t s v1 ∧ ∀ go : List Nat → State → Issue, withRegion t hd need (fetched t s) go = go pages v1 := by
  have hc := sameCore_joinRegion t hd need v
  have hact := active_joinRegion t hd need v
  rw [hj] at hc hact
  dsimp only at hact
  simp only [hact] at hp
  refine ⟨(issued_stored h hv).core hc, fun go => ?_⟩
  unfold withRegion
  rw [issued_thread h, hk, if_neg (by simp), issued_withStores h _ hf ha hv, hj]
  exact if_pos hp

theorem issued_region_fails {e : Err} (hj : joinRegion t hd need v = (.error e, v1)) (go : List Nat → State → Issue) :
    withRegion t hd need (fetched t s) go = .fault e (handleVa hd) v1 := by
  unfold withRegion
  rw [issued_thread h, hk, if_neg (by simp), issued_withStores h _ hf ha hv, hj]

end

/-! Results in a load slot (R128). -/

/-- A thread whose JOIN instruction has gone on: its result in load slot n, its registers, the Dispatcher and the Gazetteer as they were. -/
def joinTook (t n : Nat) (w : Insn) (s u : State) (d0 d1 : Nat) (l : List (Nat × Nat × Nat)) : Prop :=
  nth (u.thread t).slots none n = some ⟨.join d0 d1 l, 0, (s.thread t).nextOrder, (s.thread t).pc⟩ ∧ (u.thread t).pc = nextPc w (s.thread t).pc ∧
    (u.thread t).s = (s.thread t).s ∧ (u.thread t).v = (s.thread t).v ∧ (u.thread t).m = (s.thread t).m ∧ u.disp = s.disp ∧ u.gaz = s.gaz

/-- A state like one in which the thread's stores have reached memory but for its cursor takes a slot. -/
theorem takeJoinSlot_ended {r : Row} {t n d0 d1 : Nat} {w : Insn} {s z : State} {l : List (Nat × Nat × Nat)} {c : Option Cursor} {st : List StoreOp}
    (hz : z.thread t = { s.thread t with stores := st, cursor := c }) (hd : z.disp = s.disp) (hg : z.gaz = s.gaz)
    (hk : (s.thread t).freeSlot = some n) (hl : (s.thread t).slots.length = 8) : ∃ x, takeJoinSlot t d0 d1 l z = .next x ∧
      joinTook t n w s (ended r t w (nextPc w (s.thread t).pc) s x) d0 d1 l ∧ (ended r t w (nextPc w (s.thread t).pc) s x).units = z.units ∧
      (ended r t w (nextPc w (s.thread t).pc) s x).mem = z.mem ∧ ((ended r t w (nextPc w (s.thread t).pc) s x).thread t).cursor = c := by
  have hfree : (z.thread t).freeSlot = some n := by
    rw [hz]
    exact hk
  refine ⟨z.modThread t (fun th => { th with slots := th.slots.set n (some ⟨.join d0 d1 l, 0, th.nextOrder, th.pc⟩), nextOrder := th.nextOrder + 1 }), ?_,
    ⟨ended_slot ?_ rfl, ?_, ?_, ?_, ?_, hd, hg⟩, rfl, rfl, ?_⟩
  · unfold takeJoinSlot
    dsimp only
    rw [hfree]
  · rw [State.thread_modThread_self, hz]
    exact nth_set_self _ _ (hl.symm ▸ Thread.freeSlot_lt hk)
  · unfold ended
    rw [State.thread_modThread_self]
  all_goals
    unfold ended
    rw [State.thread_modThread_self, State.thread_modThread_self, hz]
    rfl

/-! Tables (R276, R277). -/

/-- Inserts that all find room. -/
theorem insertAll_room {limit : Nat} {l : List (Nat × Nat × Nat)} {es : List (Nat × Nat)} {s : State} (h : es.length + l.length ≤ limit) :
    insertAll limit l es s = (es ++ l.map Prod.snd, l.map (fun x => (x.1, 0)), s) := by
  induction l generalizing es with
  | nil => simp [insertAll]
  | cons x t ih =>
    obtain ⟨i, k, p⟩ := x
    rw [List.length_cons] at h
    have hroom : ¬ es.length ≥ limit := by omega
    rw [insertAll]
    simp only [hroom, decide_false, Bool.not_false, Bool.true_or, if_true, if_false]
    rw [ih (by rw [List.length_append, List.length_singleton]; omega), List.append_assoc]
    rfl

/-- A table put in the place of a region's is the one found there. -/
theorem putTable_spec (s : State) (pages : List Nat) (es : Option (List (Nat × Nat))) : (putTable s pages es).pods = s.pods ∧
    (putTable s pages es).disp = s.disp ∧ (putTable s pages es).gaz = s.gaz ∧
    ∀ l, es = some l → ((putTable s pages es).units.joins.find? (fun x => x.pages == pages)).map JoinTable.entries = some l := by
  refine ⟨rfl, rfl, rfl, fun l hl => ?_⟩
  subst hl
  unfold putTable
  dsimp only
  rw [List.find?_append, List.find?_eq_none.2 fun x hx => by simpa using (List.mem_filter.1 hx).2]
  simp

/-- What a JPROBE of a region that nothing fixes finds for the elements of a list. -/
def freeProbe (l : List Nat) (a : List (Nat × List Nat) × State) : List (Nat × List Nat) × State :=
  l.foldl (fun (a : List (Nat × List Nat) × State) i => (a.1 ++ [(i, (freeMatches a.2).1)], (freeMatches a.2).2)) a

theorem freeProbe_spec (l : List Nat) (a : List (Nat × List Nat) × State) :
    (freeProbe l a).1.map Prod.fst = a.1.map Prod.fst ++ l ∧ ∃ n, (freeProbe l a).2 = { a.2 with free := n } := by
  induction l generalizing a with
  | nil => exact ⟨by simp [freeProbe], _, rfl⟩
  | cons i t ih =>
    obtain ⟨h1, n, h2⟩ := ih (a.1 ++ [(i, (freeMatches a.2).1)], (freeMatches a.2).2)
    exact ⟨h1.trans (by simp), n, h2⟩

/-- The keys and payloads of a JINS in element order. -/
def joinKeys (w : Insn) (th : Thread) : List (Nat × Nat × Nat) :=
  (th.active (insM w)).map (fun i => (i, pairKey th (insA w) i, (elem (th.rv (insA w + 2)) i).toNat))

/-! JINS, JPROBE and JNEXT on their regions (R128, R277, R278). -/

section
variable {t n : Nat} {w : Insn} {s v v1 : State} {pages : List Nat} (hk : (s.thread t).freeSlot = some n) (hl : (s.thread t).slots.length = 8)
  (hf : s.memFrozen = false) (ha : (s.thread t).stores.any (s.thread t).storeWaits = false) (hv : (fetched t s).drainStores t = (none, v))
  (hp : pages.all (fun p => v1.active (unitJoin (sliceOf p))) = true)
include hk hl hf ha hv hp

theorem jins_inserts (h : issues rowJins t w s = true) (hj : joinRegion t ((s.thread t).rs (insB w)).toNat .rw v = (.ok pages, v1))
    {es : List (Nat × Nat)} (hes : tableOf v1 pages = some es) (hroom : es.length + ((s.thread t).active (insM w)).length ≤ 224 * pages.length) :
    ∃ u, rowJins.issue t w s = u ∧ joinTook t n w s u (insD w) 16 (((s.thread t).active (insM w)).map (fun i => (i, 0, 0))) ∧
      (u.units.joins.find? (fun x => x.pages == pages)).map JoinTable.entries = some (es ++ ((s.thread t).active (insM w)).map (fun i =>
        (pairKey (s.thread t) (insA w) i, (elem ((s.thread t).rv (insA w + 2)) i).toNat))) := by
  obtain ⟨⟨⟨st, hst⟩, hd, hg⟩, hgo⟩ := issued_region h hk hf ha hv hj hp
  obtain ⟨hpods, hpd, hpg, hfind⟩ := putTable_spec v1 pages (some (es ++ ((s.thread t).active (insM w)).map (fun i =>
    (pairKey (s.thread t) (insA w) i, (elem ((s.thread t).rv (insA w + 2)) i).toNat))))
  obtain ⟨x, hx, htook, hunits, _⟩ := takeJoinSlot_ended (r := rowJins) (w := w) (d0 := insD w) (d1 := 16)
    (l := ((s.thread t).active (insM w)).map (fun i => (i, 0, 0)))
    ((congrArg (fun p : Pods => p.threads.at Thread.init t) hpods).trans hst) (hpd.trans hd) (hpg.trans hg) hk hl
  refine ⟨_, issue_next h (?_ : _ = Issue.next x), htook, ?_⟩
  · show jinsRun t w (fetched t s) = _
    unfold jinsRun State.joinHandle
    rw [issued_thread h, hgo]
    dsimp only
    rw [hst, hes]
    show takeJoinSlot t (insD w) 16 ((insertAll (224 * pages.length) (joinKeys w (s.thread t)) es v1).2.1.map (fun x => (x.1, x.2, 0)))
      (putTable (insertAll (224 * pages.length) (joinKeys w (s.thread t)) es v1).2.2 pages (some (insertAll (224 * pages.length) (joinKeys w (s.thread t)) es v1).1)) = _
    rw [insertAll_room (by rwa [joinKeys, List.length_map]), ← hx]
    simp only [joinKeys, List.map_map, Function.comp_def]
  · rw [hunits]
    exact hfind _ rfl

theorem jins_free (h : issues rowJins t w s = true) (hj : joinRegion t ((s.thread t).rs (insB w)).toNat .rw v = (.ok pages, v1))
    (hes : tableOf v1 pages = none) : ∃ u l, rowJins.issue t w s = u ∧ l.map Prod.fst = (s.thread t).active (insM w) ∧ joinTook t n w s u (insD w) 16 l := by
  obtain ⟨⟨⟨st, hst⟩, hd, hg⟩, hgo⟩ := issued_region h hk hf ha hv hj hp
  have hlen := List.length_map (as := List.range ((s.thread t).active (insM w)).length) (fun i => BitVec.ofNat 8 (Config.freeNat (v1.free + i)))
  obtain ⟨x, hx, htook, _⟩ := takeJoinSlot_ended (r := rowJins) (w := w) (d0 := insD w) (d1 := 16)
    (z := putTable (v1.drawBytes ((s.thread t).active (insM w)).length).2 pages none)
    (l := (((s.thread t).active (insM w)).zip (v1.drawBytes ((s.thread t).active (insM w)).length).1).map (fun x => (x.1, x.2.toNat % 2, 0))) hst hd hg hk hl
  refine ⟨_, _, issue_next h (?_ : _ = Issue.next x), ?_, htook⟩
  · show jinsRun t w (fetched t s) = _
    unfold jinsRun State.joinHandle
    rw [issued_thread h, hgo]
    dsimp only
    rw [hst, hes]
    exact hx
  · rw [List.map_map]
    refine List.map_fst_zip ?_
    rw [State.drawBytes, hlen, List.length_range]

theorem jprobe_finds (h : issues rowJprobe t w s = true) (hj : joinRegion t ((s.thread t).rs (insB w)).toNat .r v = (.ok pages, v1))
    {es : List (Nat × Nat)} (hes : tableOf v1 pages = some es) : ∃ u, rowJprobe.issue t w s = u ∧
      joinTook t n w s u (insD w) (insD w + 1) (((s.thread t).active (insM w)).map (fun i => (i, (matchesOf es (pairKey (s.thread t) (insA w) i)).headD 0xFFFFFFFF,
        min (matchesOf es (pairKey (s.thread t) (insA w) i)).length 0xFFFFFFFF))) ∧
      (u.thread t).cursor = some ⟨((s.thread t).rs (insB w)).toNat, ((s.thread t).active (insM w)).map (fun i =>
        (i, (matchesOf es (pairKey (s.thread t) (insA w) i)).drop 1))⟩ ∧ u.mem = v1.mem := by
  obtain ⟨⟨⟨st, hst⟩, hd, hg⟩, hgo⟩ := issued_region h hk hf ha hv hj hp
  obtain ⟨x, hx, htook, _, hmem, hcur⟩ := takeJoinSlot_ended (r := rowJprobe) (w := w) (d0 := insD w) (d1 := insD w + 1)
    (z := v1.modThread t (fun th => { th with cursor := some ⟨(th.rs (insB w)).toNat, ((s.thread t).active (insM w)).map (fun i =>
        (i, (matchesOf es (pairKey (s.thread t) (insA w) i)).drop 1))⟩ }))
    (l := ((s.thread t).active (insM w)).map (fun i => (i, firstMatch (matchesOf es (pairKey (s.thread t) (insA w) i)),
        min (matchesOf es (pairKey (s.thread t) (insA w) i)).length 0xFFFFFFFF)))
    (by rw [State.thread_modThread_self, hst]) hd hg hk hl
  refine ⟨_, issue_next h (?_ : _ = Issue.next x), htook, hcur, hmem⟩
  show jprobeRun t w (fetched t s) = _
  unfold jprobeRun State.joinHandle
  rw [issued_thread h, hgo]
  dsimp only
  rw [hst, hes, ← hx]
  simp only [List.map_map, Function.comp_def]
  rfl

theorem jprobe_free (h : issues rowJprobe t w s = true) (hj : joinRegion t ((s.thread t).rs (insB w)).toNat .r v = (.ok pages, v1))
    (hes : tableOf v1 pages = none) : ∃ u l, rowJprobe.issue t w s = u ∧ l.map Prod.fst = (s.thread t).active (insM w) ∧
      joinTook t n w s u (insD w) (insD w + 1) l := by
  obtain ⟨⟨⟨st, hst⟩, hd, hg⟩, hgo⟩ := issued_region h hk hf ha hv hj hp
  obtain ⟨hfst, m, hm⟩ := freeProbe_spec ((s.thread t).active (insM w)) ([], v1)
  obtain ⟨x, hx, htook, _⟩ := takeJoinSlot_ended (r := rowJprobe) (w := w) (d0 := insD w) (d1 := insD w + 1)
    (z := (freeProbe ((s.thread t).active (insM w)) ([], v1)).2.modThread t (fun th => { th with
      cursor := some ⟨(th.rs (insB w)).toNat, (freeProbe ((s.thread t).active (insM w)) ([], v1)).1.map (fun x => (x.1, x.2.drop 1))⟩ }))
    (l := (freeProbe ((s.thread t).active (insM w)) ([], v1)).1.map (fun x => (x.1, firstMatch x.2, min x.2.length 0xFFFFFFFF)))
    (c := some ⟨((s.thread t).rs (insB w)).toNat, (freeProbe ((s.thread t).active (insM w)) ([], v1)).1.map (fun x => (x.1, x.2.drop 1))⟩)
    (st := st) (by rw [State.thread_modThread_self, hm, show ({ v1 with free := m } : State).thread t = _ from hst]; rfl)
    (by rw [hm]; exact hd) (by rw [hm]; exact hg) hk hl
  refine ⟨_, _, issue_next h (?_ : _ = Issue.next x), ?_, htook⟩
  · show jprobeRun t w (fetched t s) = _
    unfold jprobeRun State.joinHandle
    rw [issued_thread h, hgo]
    dsimp only
    rw [hst, hes]
    exact hx
  · rw [List.map_map]
    exact hfst

theorem jnext_delivers (h : issues rowJnext t w s = true) {c : Cursor} {left : Nat → List Nat} (hc : (s.thread t).cursor = some c)
    (hj : joinRegion t c.table .r v = (.ok pages, v1)) (hleft : ∀ i, i < 64 → left i = ((c.remaining.find? (fun x => x.1 == i)).map Prod.snd).getD []) :
    ∃ u, rowJnext.issue t w s = u ∧ joinTook t n w s u (insD w) (insD w + 1) (((s.thread t).active (insM w)).map (fun i =>
        (i, (left i).headD 0xFFFFFFFF, (left i).length - 1))) ∧
      (u.thread t).cursor = some { c with remaining := c.remaining.map (fun x => if ((s.thread t).active (insM w)).contains x.1 then (x.1, x.2.drop 1) else x) } ∧
      u.mem = v1.mem := by
  obtain ⟨⟨⟨st, hst⟩, hd, hg⟩, hgo⟩ := issued_region h hk hf ha hv hj hp
  obtain ⟨x, hx, htook, _, hmem, hcur⟩ := takeJoinSlot_ended (r := rowJnext) (w := w) (d0 := insD w) (d1 := insD w + 1)
    (z := v1.modThread t (fun th => { th with cursor := some { c with
      remaining := c.remaining.map (fun x => if ((s.thread t).active (insM w)).contains x.1 then (x.1, x.2.drop 1) else x) } }))
    (l := ((s.thread t).active (insM w)).map (fun i => (i, firstMatch (left i), (left i).length - 1)))
    (by rw [State.thread_modThread_self, hst]) hd hg hk hl
  refine ⟨_, issue_next h (?_ : _ = Issue.next x), htook, hcur, hmem⟩
  have hmap : ((s.thread t).active (insM w)).map (fun i => (i, firstMatch (left i), (left i).length - 1)) =
      ((s.thread t).active (insM w)).map (fun i => (i, firstMatch (((c.remaining.find? (fun x => x.1 == i)).map Prod.snd).getD []),
        (((c.remaining.find? (fun x => x.1 == i)).map Prod.snd).getD []).length - 1)) :=
    List.map_congr_left fun i hi => by rw [hleft i (mem_active.1 hi).1]
  show jnextRun t w (fetched t s) = _
  unfold jnextRun
  rw [issued_thread h, hc]
  dsimp only
  rw [hgo, ← hx, hmap, hst]
  rfl

end

theorem issued_jnext_without_cursor {t : Nat} {w : Insn} {s : State} (h : issues rowJnext t w s = true) (hc : (s.thread t).cursor = none) :
    rowJnext.run t w (fetched t s) = .fault (fErr stState 7) 0 (fetched t s) := by
  show jnextRun t w (fetched t s) = _
  unfold jnextRun
  rw [issued_thread h, hc]

/-- Settles O24, by what each JOIN instruction puts in its slot once its region has passed its checks. -/
theorem joinInstructionsComplete : Obligations.JoinInstructionsComplete := by
  refine fun t w s v v1 n pages => ⟨fun hk hl hf ha hv => ⟨fun hp => ⟨fun h _ hj => ⟨fun es hes hroom => ?_, fun hes => ?_⟩,
      fun h hj => ⟨fun es hes => ?_, fun hes => ?_⟩, fun h c left hc hj hleft => ?_⟩, fun e => ⟨fun h _ hj => ?_, fun h hj => ?_, fun h c hc hj => ?_⟩⟩,
    fun g need => ⟨joinRegion_reserved, joinRegion_misaligned, fun hb ha => ⟨fun e hr => joinRegion_refused hb ha hr, fun p hr hc => joinRegion_claimed hb ha hr hc⟩⟩,
    fun h hc => congrArg Host.Outcome.next (issue_fault h (issued_jnext_without_cursor h hc)), fun es k => rfl⟩
  · obtain ⟨u, hu, hspec⟩ := jins_inserts hk hl hf ha hv hp h hj hes hroom
    exact ⟨u, congrArg Host.Outcome.next hu, hspec⟩
  · obtain ⟨u, l, hu, hspec⟩ := jins_free hk hl hf ha hv hp h hj hes
    exact ⟨u, l, congrArg Host.Outcome.next hu, hspec⟩
  · obtain ⟨u, hu, hspec⟩ := jprobe_finds hk hl hf ha hv hp h hj hes
    exact ⟨u, congrArg Host.Outcome.next hu, hspec⟩
  · obtain ⟨u, l, hu, hspec⟩ := jprobe_free hk hl hf ha hv hp h hj hes
    exact ⟨u, l, congrArg Host.Outcome.next hu, hspec⟩
  · obtain ⟨u, hu, hspec⟩ := jnext_delivers hk hl hf ha hv hp h hc hj hleft
    exact ⟨u, congrArg Host.Outcome.next hu, hspec⟩
  · refine congrArg Host.Outcome.next (issue_fault h ?_)
    show jinsRun t w (fetched t s) = _
    unfold jinsRun State.joinHandle
    rw [issued_thread h]
    exact issued_region_fails h hk hf ha hv hj _
  · refine congrArg Host.Outcome.next (issue_fault h ?_)
    show jprobeRun t w (fetched t s) = _
    unfold jprobeRun State.joinHandle
    rw [issued_thread h]
    exact issued_region_fails h hk hf ha hv hj _
  · refine congrArg Host.Outcome.next (issue_fault h ?_)
    show jnextRun t w (fetched t s) = _
    unfold jnextRun
    rw [issued_thread h, hc]
    exact issued_region_fails h hk hf ha hv hj _

end Sys2Proof.Machine

namespace Sys2Proof.Machine
open Sys2Proof

/-! Engines and checks (R126, R212, R610). -/

/-- An engine e of n is the one that a field names, or for 0xFF one of the least load. -/
def engineNamed (n field e : Nat) (load : Nat → Nat) : Prop := (field ≠ 0xFF → e = field) ∧ (field = 0xFF → e < n ∧ ∀ k, k < n → load e ≤ load k)

theorem pickEngine_named {n : Nat} (hn : 0 < n) (load : Nat → Nat) (field : Nat) : engineNamed n field (pickEngine n load field) load := by
  refine ⟨fun h => if_neg h, fun h => ?_⟩
  obtain ⟨z, hz, hm, _⟩ := minBy_spec load (List.range n) (List.mem_range.2 hn)
  have hpick : pickEngine n load field = z := by
    unfold pickEngine
    rw [if_pos h, hz]
    rfl
  rw [hpick]
  refine ⟨List.mem_range.1 hm, fun k hk => ?_⟩
  obtain ⟨y, hy, _, hle⟩ := minBy_spec load (List.range n) (List.mem_range.2 hk)
  rw [hz] at hy
  cases hy
  exact hle

theorem State.checkJob_rejects {s : State} {kind : Nat} {fails : List (Bool × Err)} {e : Err} (ha : s.armed 0x0F kind = none)
    (hp : firstFail fails = some e) (iss : Issuer) (ctx argDetail : Nat) (refused : Option Err) (go : State → State) :
    s.checkJob iss ctx kind argDetail refused fails go = s.rejectOp iss ctx kind refused e := by
  unfold State.checkJob
  rw [ha]
  dsimp only
  rw [hp]

/-! The instructions (R130). -/

theorem fetched_fab (t : Nat) (s : State) : (fetched t s).fab = s.fab := by
  obtain ⟨_, _, _, _, _, _, _, _, _, _, hf, _⟩ := fetched_sameCore t s
  obtain ⟨p, hp⟩ := s.turned_pods_only t
  rw [hf, hp]

/-- A JOB of a kind that is its row's own and whose operation can issue. -/
theorem issuesAs_job {t kind k : Nat} {w : Insn} {s v : State} {i : Instr} {mine : Nat → Bool} {go : Issuer → Nat → Nat → State → State}
    (hx : exec i s = .next (issueJob mine kind go t w s)) (hk : jobKind s t w = some k) (hm : mine k = true) (h : issues (rowJob kind go) t w s = true)
    (ha : asyncReady t ((s.thread t).rs (insB w)).toNat (fetched t s) v) :
    issuesAs i t w ((s.thread t).rs (insB w)).toNat kind s v (fun iss u => go iss (s.ctxOf t) ((s.thread t).rs (insA w)).toNat u) := by
  refine issue_async (r := rowJob kind go) (hx.trans (congrArg Host.Outcome.next ?_)) ?_ rfl h ha
  · unfold issueJob
    rw [hk]
    exact if_pos hm
  · rw [← issued_thread h, ← ctxOf_issued h]
    rfl

theorem issuesAs_fabric {t : Fin 8192} {w : Insn} {s v : State} (h : issues rowFabric t w s = true) (hk : jobKind s t w = some 8)
    (hr : s.fab.reqs.length < 16384) (ha : asyncReady t ((s.thread t).rs (insB w)).toNat (fetched t s) v) :
    issuesAs (.fabricOperation t w) t w ((s.thread t).rs (insB w)).toNat 8 s v (fun iss u => remoteIssue iss (s.ctxOf t) ((s.thread t).rs (insA w)).toNat u) := by
  refine issue_async (r := rowFabric) (congrArg Host.Outcome.next (if_pos (by rw [hk]; rfl))) ?_ rfl h ha
  show (if (fetched t s).fab.reqs.length ≥ 16384 then _ else (rowJob 8 remoteIssue).run t w (fetched t s)) = _
  rw [fetched_fab, if_neg (by omega), ← issued_thread h, ← ctxOf_issued h]
  rfl

theorem issuesAs_proj {t : Nat} {acc : Bool} {w : Insn} {s v : State} {i : Instr} (hx : exec i s = .next ((rowProj acc).issue t w s))
    (h : issues (rowProj acc) t w s = true) (ha : asyncReady t ((s.thread t).rs (insB w)).toNat (fetched t s) v) :
    issuesAs i t w ((s.thread t).rs (insB w)).toNat 4 s v (fun iss u => projIssue acc iss (s.ctxOf t) ((s.thread t).rs (insA w)).toNat u) := by
  refine issue_async (r := rowProj acc) hx ?_ rfl h ha
  rw [← issued_thread h, ← ctxOf_issued h]
  rfl

/-! What an operation does with a descriptor that it has read (R238, R274, R282, R405, R463). -/

section
variable {iss : Issuer} {c a : Nat} {s u : State} {d : List Byte}

theorem State.peek_read {n : Nat} (h : (memRead c a n).exec s = (.ok d, u)) : s.peek c a n = some d := by
  unfold State.peek
  rw [h]

theorem codecStart_of_kind (h : (memRead c a 2).exec s = (.ok d, u)) (hk : isJobKind (le d) = true) : codecStart iss c a s = codecIssue iss c a s := by
  unfold codecStart
  rw [State.peek_read h]
  exact if_pos hk

theorem codecStart_reserved (h : (memRead c a 2).exec s = (.ok d, u)) (hk : isJobKind (le d) = false) :
    codecStart iss c a s = s.failOp iss c 0 0 0 ⟨stArg, 1, 0, 0⟩ := by
  unfold codecStart
  rw [State.peek_read h]
  exact if_neg (by simp [hk])

theorem codecEnqueue_room {e : Nat} {w : LaneWork} (hq : (s.codecQueue e).length < 1024) (hw : s.codecWaiters e = []) :
    codecEnqueue e w s = s.setCodecQ e (s.codecQueue e ++ [w]) := if_pos ⟨hq, by rw [hw]; rfl⟩

theorem codecEnqueue_full {e t k r ep : Nat} {j : CodecJob} (h : 1024 ≤ (s.codecQueue e).length ∨ s.codecWaiters e ≠ []) (hi : j.head.iss = .pod t k r ep) :
    codecEnqueue e (.job j) s = (s.setCodecWait e (s.codecWaiters e ++ [.job j])).block t (.codec e) := by
  unfold codecEnqueue
  rw [if_neg (by rw [not_and_or]; exact h.imp (by omega) (fun hw he => hw (List.isEmpty_iff.1 he)))]
  dsimp only [LaneWork.job?, Option.map_some]
  rw [hi]

end

/-- Settles O25, by the issue of each row's operation and by what its descriptor, once read, meets. -/
theorem unitOperationsIssue : Obligations.UnitOperationsIssue := by
  refine ⟨fun t w s v => fun ha => ⟨fun h hk => issuesAs_job rfl hk rfl h ha, fun h hk => issuesAs_job rfl hk rfl h ha, fun h hk => issuesAs_job rfl hk rfl h ha,
      fun h hk => issuesAs_job rfl hk rfl h ha, fun h hk => ?_, fun h hk hr => issuesAs_fabric h hk hr ha, fun h => issuesAs_proj rfl h ha,
      fun h => issuesAs_proj rfl h ha⟩,
    fun iss c a s u d => ⟨codecStart_of_kind, codecStart_reserved, fun hr hf => ⟨fun hp => ?_, fun er he => ?_⟩, fun hr hf => ⟨fun hp => ?_, fun er he => ?_⟩,
      fun hr hf => ⟨fun hp => ?_, fun er he => ?_⟩, fun hr hf => ⟨fun j hp hj => ?_, fun er he => ?_⟩, fun hr hf => ⟨fun hp o ho => ?_, fun er he => ?_⟩⟩,
    fun acc iss c a s u d x y hr hf => ⟨fun hp => ?_, fun er he => ?_⟩⟩
  · obtain ⟨k, hk, hres⟩ := hk
    exact issuesAs_job rfl hk (by simp [hres]) h ha
  · unfold tableIssue
    rw [State.withDesc_read hr, State.checkOp, State.checkJob_passes hf hp]
    exact ⟨_, pickEngine_named (n := 16) (by decide) (fun e => (u.tableEng e).load) (fld d 3 1), rfl⟩
  · unfold tableIssue
    rw [State.withDesc_read hr, State.checkOp, State.checkJob_rejects hf he]
  · unfold colIssue
    rw [State.withDesc_read hr, State.checkJob_passes hf hp]
    exact ⟨_, _, pickEngine_named (n := 32) (by decide) (fun e => (u.colEng e).load) (fld d 2 1), rfl, rfl, rfl, rfl, rfl, rfl⟩
  · unfold colIssue
    rw [State.withDesc_read hr, State.checkJob_rejects hf he]
  · unfold joinIssue
    rw [State.withDesc_read hr, State.checkJob_passes hf hp]
    exact ⟨_, _, rfl, rfl, rfl, rfl, fun p l hl => by rw [hl]; rfl⟩
  · unfold joinIssue
    rw [State.withDesc_read hr, State.checkJob_rejects hf he]
  · subst hj
    refine ⟨_, pickEngine_named (n := 16) (by decide) (fun e => (u.codecQueue e).length + (u.codecWaiters e).length) (fld d 3 1), fun hq hw => ?_, fun hfull t k r ep hi => ?_⟩
    · unfold codecIssue
      rw [State.withDesc_read hr, State.checkOp, State.checkJob_passes hf hp]
      exact codecEnqueue_room hq hw
    · unfold codecIssue
      rw [State.withDesc_read hr, State.checkOp, State.checkJob_passes hf hp]
      exact codecEnqueue_full hfull hi
  · unfold codecIssue
    rw [State.withDesc_read hr, State.checkOp, State.checkJob_rejects hf he]
  · subst ho
    unfold remoteIssue
    rw [State.withDesc_read hr, State.checkOp, State.checkJob_passes hf hp]
  · unfold remoteIssue
    rw [State.withDesc_read hr, State.checkOp, State.checkJob_rejects hf he]
  · unfold projIssue
    rw [hr]
    dsimp only
    rw [State.checkOp, State.checkJob_passes hf hp]
    exact ⟨_, _, pickEngine_named (n := 16) (by decide) (fun e => (u.projEng e).load) (fld d 2 1), rfl, rfl, rfl, rfl, rfl, rfl, rfl, rfl, rfl⟩
  · unfold projIssue
    rw [hr]
    dsimp only
    rw [State.checkOp, State.checkJob_rejects hf he]

end Sys2Proof.Machine

namespace Sys2Proof.Machine
open Sys2Proof

/-! What IMAGE_LOAD leaves of the images and of the count of free values (R135, R137). -/

/-- Two tests of what is taken that agree below m choose the same number below m. -/
theorem nextFree_congr {p q : Nat → Bool} {m : Nat} (hm : 0 < m) (h : ∀ k, k < m → p k = q k) (n v : Nat) : nextFree p m n v = nextFree q m n v := by
  induction n generalizing v with
  | zero => rfl
  | succ n ih =>
    unfold nextFree
    rw [h _ (Nat.mod_lt v hm), ih]

theorem Mem.write_watch (m : Mem) (pa : Nat) (b : List Byte) : (m.write pa b).watch = m.watch := by
  induction b generalizing m pa with
  | nil => rfl
  | cons x t ih => exact (ih ..).trans rfl

theorem storePieces_free {s : State} (hw : s.mem.watch = []) (thr : Bool) (ps : List (Nat × Nat × Bool)) (bs : List Byte) :
    (storePieces thr ps bs s).free = s.free := by
  induction ps generalizing s bs with
  | nil => rfl
  | cons p t ih =>
    obtain ⟨pa, len, e⟩ := p
    have hstore := State.store_unwatched s thr pa (bs.take len) hw
    show (storePieces thr t (bs.drop len) (s.store thr pa (bs.take len))).free = s.free
    rw [hstore, ih ((Mem.write_watch ..).trans hw)]

theorem State.zeroAll_watch (s : State) (es : List Extent) : (s.zeroAll es).mem.watch = s.mem.watch :=
  foldl_keeps (p := Mem.watch) (g := fun m (e : Extent) => m.zero e.pa e.len) (fun _ _ => rfl) es s.mem

theorem State.chooseVa_state (s : State) (ctx len : Nat) : (s.chooseVa ctx len).2 = s.draw.2 := by
  unfold State.chooseVa
  split <;> rfl

theorem State.modCtx_watch (s : State) (ctx : Nat) (f : Ctx → Ctx) : (s.modCtx ctx f).mem.watch = s.mem.watch := by
  unfold State.modCtx
  split <;> rfl

/-- A copy mapped draws one free value. -/
theorem mapCopy_free {s : State} (hw : s.mem.watch = []) (ctx : Nat) (bs : List Byte) (x : Bool) : (mapCopy ctx bs x s).2.free = s.free + 1 := by
  unfold mapCopy
  dsimp only
  rw [storePieces_free (by rw [State.modCtx_watch, State.chooseVa_state]; exact (State.zeroAll_watch ..).trans hw), State.modCtx_free, State.chooseVa_state]
  rfl

theorem storePieces_pods (thr : Bool) (ps : List (Nat × Nat × Bool)) (bs : List Byte) (s : State) : (storePieces thr ps bs s).pods = s.pods := by
  obtain ⟨-, -, -, -, -, hpods, -⟩ := sameCore_storePieces thr ps bs s
  exact hpods

theorem mapCopy_pods (ctx : Nat) (bs : List Byte) (x : Bool) (s : State) : (mapCopy ctx bs x s).2.pods = s.pods := by
  unfold mapCopy
  dsimp only
  rw [storePieces_pods, State.modCtx_pods, State.chooseVa_state]
  rfl

theorem State.dropMap_pods (s : State) (ctx va : Nat) : (s.dropMap ctx va).pods = s.pods := by
  unfold State.dropMap
  split
  · rfl
  · dsimp only
    split <;> exact State.modCtx_pods ..

theorem State.finishAll_pods (s : State) (w : Wait) (st : Nat) (b : List Byte) : (s.finishAll w st b).pods = s.pods :=
  foldl_keeps (p := State.pods) (g := fun a (c : Nat × Nat) => a.finish c.1 c.2 st b) (fun a c => a.finish_pods c.1 c.2 st b) _ s

/-- An image that is to stop and that no thread is bound to ends. -/
theorem imageSettle_images {h : Nat} {s : State} {im : Image} (hf : s.pods.images.find h = some im) (hs : im.stop.isSome = true)
    (hb : s.boundTo h = []) : (imageSettle h s).pods.images = s.pods.images.del h := by
  have hend : (imageEnd h s).pods.images = s.pods.images.del h := by
    unfold imageEnd
    rw [hf]
    dsimp only
    split <;> simp only [State.dropMap_pods]
  unfold imageSettle
  rw [hf]
  dsimp only
  rw [hs, hb]
  exact (congrArg Pods.images (State.finishAll_pods ..)).trans hend

/-- On a machine without threads an image that is to give its threads away ends at once. -/
theorem replaceThreads_images {old new : Nat} {s : State} {im : Image} (hf : s.pods.images.find old = some im) (hs : im.stop.isSome = true)
    (ht : s.pods.threads = []) : (replaceThreads old new s).pods.images = s.pods.images.del old := by
  have hbound : s.boundTo old = [] := by
    unfold State.boundTo
    rw [ht]
    rfl
  unfold replaceThreads
  rw [hbound]
  exact imageSettle_images hf hs hbound

/-- The handle that IMAGE_LOAD chooses for an image without data. -/
def loadHandle (s : State) : Nat :=
  nextFree (fun k => k == 0 || (s.pods.images.find k).isSome) (2 ^ 64) (s.pods.images.length + 2) (Config.freeNat (s.free + 1))

/-- The Pods with an image at a handle. -/
def Pods.withImage (h : Nat) (im : Image) (q : Pods) : Pods := { q with images := q.images.put h im }

/-- A table of images whose entry h, and those that would have given their threads to it, give them to h. -/
def redirectedTo (h : Nat) (t : Tbl Image) : Tbl Image :=
  t.map (fun e => (e.1, if e.1 = h ∨ e.2.stop = some (some h) then { e.2 with stop := some (some h) } else e.2))

theorem redirectImage_images (h : Nat) (s : State) : (redirectImage h h s).pods.images = redirectedTo h s.pods.images := rfl

theorem redirectedTo_finds (t : Tbl Image) (h : Nat) (im : Image) :
    (redirectedTo h (t.put h im)).find h = some { im with stop := some (some h) } := by
  have hmap := Tbl.find_mapKey (fun k i => if k = h ∨ i.stop = some (some h) then { i with stop := some (some h) } else i) (t.put h im) h
  refine hmap.trans ?_
  rw [Tbl.find_put_self]
  exact congrArg some (if_pos (Or.inl rfl))

/-- An image put at a handle that then gives its threads to itself is gone where there are none. -/
theorem replaceThreads_own {s u : State} {h : Nat} {im : Image} (hu : u.pods = s.pods.withImage h im)
    (hth : s.pods.threads = []) : (replaceThreads h h (redirectImage h h u)).pods.images = (redirectedTo h (s.pods.images.put h im)).del h := by
  have himg : (redirectImage h h u).pods.images = redirectedTo h (s.pods.images.put h im) :=
    (redirectImage_images h u).trans (congrArg (redirectedTo h) (congrArg Pods.images hu))
  have hthr : (redirectImage h h u).pods.threads = [] := (congrArg Pods.threads hu).trans hth
  rw [replaceThreads_images ((congrArg (fun t => Tbl.find t h) himg).trans (redirectedTo_finds ..)) rfl hthr, himg]

/-- An image that replaces one of its own handle, on a machine without threads, ends with it. -/
theorem loadGo_own_handle {s : State} {ctx : Nat} {p img : List Byte} {oi : Image} (hw : s.mem.watch = []) (hr : ilReplace p = true)
    (hd : hdDataLen img = 0) (ht : ilThreads p = []) (hth : s.pods.threads = [])
    (hl : loadedImage s ctx (fld img 8 8) = some (loadHandle s, oi)) :
    ∃ b v im, loadGo ctx p img s = .ok b v ∧
      v.pods.images = (redirectedTo (loadHandle s) (s.pods.images.put (loadHandle s) im)).del (loadHandle s) := by
  have hfree := mapCopy_free hw ctx (sub img (hdCode img) (hdCodeLen img)) true
  have hpods := mapCopy_pods ctx (sub img (hdCode img) (hdCodeLen img)) true s
  unfold loadGo
  simp only [hd, hr, ht, hl, ↓reduceIte, List.foldl_nil]
  generalize mapCopy ctx (sub img (hdCode img) (hdCodeLen img)) true s = c at hfree hpods
  have hfresh : c.2.fresh (fun k => k == 0 || (s.pods.images.find k).isSome) (2 ^ 64) (s.pods.images.length + 1) = (loadHandle s, c.2.draw.2) := by
    unfold State.fresh State.draw loadHandle
    rw [hfree]
  rw [hfresh]
  exact ⟨_, _, _, rfl, replaceThreads_own (congrArg (Pods.withImage (loadHandle s) _) hpods) hth⟩

theorem doneOk_pods (op : Nat) (f : Frame) (p : List Byte) (s : State) : (doneOk op f p s).pods = s.pods := State.complete_pods ..

/-- An IMAGE_LOAD that meets no row of its two tables goes on with the bytes read. -/
theorem imageLoad_passes {f : Frame} {sid : Nat} {x : Session} {s s1 : State} {img : List Byte} (ha : passes (loadFailsA s x.ctx f.payload) = true)
    (hr : Io.exec (memRead x.ctx (fld f.payload 0 8) (fld f.payload 8 8)) s = (.ok img, s1))
    (hb : passes (loadFailsB s1 x.ctx f.payload img) = true) : imageLoad f sid x s = loadGo x.ctx f.payload img s1 := by
  unfold imageLoad
  dsimp only
  rw [Option.isNone_iff_eq_none.1 ha, hr]
  dsimp only
  rw [Option.isNone_iff_eq_none.1 hb]

/-! A machine whose table of images does not rise (R137): the image at the handle that the next load chooses stands behind the
key 2^64, where a look-up does not reach it. -/

/-- The first handle from the fourth free value upward that is not 0, within four tries: the read of the image draws two values and its address
one. -/
def hiddenHandle : Nat := nextFree (fun k => k == 0) (2 ^ 64) 4 (Config.freeNat 3)

/-- An image of context 0, of identity 7 and version 0. -/
def hiddenImage : Image := ⟨0, 7, 0, false, false, [], 0x20000, 0x1000, 0, 0, 0, 0, 0, 0, 0, [], none, 1⟩

/-- A program of one word, of identity 7 and version 1 (R136). -/
def newerImage : List Byte := leb 4 0x4D494F50 ++ leb 2 1 ++ leb 2 0 ++ leb 8 7 ++ leb 4 1 ++ leb 4 0 ++ leb 4 64 ++ leb 4 4 ++ leb 4 64 ++ leb 4 0 ++
  leb 8 0 ++ leb 4 64 ++ leb 4 0 ++ leb 8 0 ++ zeros 4

/-- A context that maps one page, readable, at 0x10000. -/
def imageCtx : Ctx := { Ctx.init false 0 with maps := [⟨0x10000, 0x1000, .alloc, 0, true, true, false, false, [⟨0x1000, 0x20000⟩], false⟩] }

/-- A machine whose channels are all ACTIVE and whose memory holds that program, with such a table. -/
def hiddenSt : State := { listening with
  mem := { listening.mem.write 0x20100 newerImage with
    contexts := [(0, imageCtx)]
    memGib := 64
    density := 32
    channels := (List.range 128).map (fun c => (c, { Channel.init with state := .active })) }
  pods := ⟨[], [], [(2 ^ 64, { hiddenImage with id := 1 }), (hiddenHandle, hiddenImage)]⟩ }

/-- A request to load that program in the place of the image of its identity. -/
def replaceImage : Frame := ⟨1, 0, 1, 1, 0, 0, 0, leb 8 0x10100 ++ leb 8 68 ++ leb 8 5 ++ leb 8 0 ++ leb 4 0 ++ leb 2 0 ++ leb 2 1 ++ zeros 64 ++
  List.replicate 256 0xFF, [], .host, 0xFFFF0A000002, 5000⟩

def replaceRead : Except Err (List Byte) × State := Io.exec (memRead 0 0x10100 68) (seen replaceImage hiddenSt)

/-- A look-up below a table's first key finds nothing. -/
theorem Tbl.find_below {α : Type} {k a : Nat} (h : a < k) (x : α) (t : Tbl α) : Tbl.find ((k, x) :: t) a = none := by
  unfold Tbl.find
  rw [if_neg (by omega), if_pos h]

set_option maxRecDepth 20000 in
theorem replaceImage_accepted : accepted 0x0400 replaceImage hiddenSt subscriber = true ∧ ilReplace replaceImage.payload = true ∧
    ilThreads replaceImage.payload = [] ∧ hdDataLen newerImage = 0 := by decide

set_option maxRecDepth 20000 in
theorem replaceImage_passesA : passes (loadFailsA (seen replaceImage hiddenSt) 0 replaceImage.payload) = true := by decide

set_option maxRecDepth 20000 in
theorem replaceRead_bytes : replaceRead.1.toOption = some newerImage ∧ replaceRead.2.free = 2 ∧ replaceRead.2.mem.watch = [] := by decide

set_option maxRecDepth 20000 in
/-- The image read meets none of its rows. -/
theorem replaceImage_passesB : passes (loadFailsB replaceRead.2 0 replaceImage.payload newerImage) = true := by
  rw [passes_iff]
  unfold loadFailsB
  simp only [List.forall_mem_cons]
  refine ⟨?_, ?_, ?_, ?_, ?_, ?_, ?_, ?_, ?_, ?_, ?_, ?_, ?_, ?_, ?_, by simp⟩
  all_goals decide

theorem replaceRead_ok : Io.exec (memRead 0 (fld replaceImage.payload 0 8) (fld replaceImage.payload 8 8)) (seen replaceImage hiddenSt) =
    (.ok newerImage, replaceRead.2) := by
  have haddr : fld replaceImage.payload 0 8 = 0x10100 ∧ fld replaceImage.payload 8 8 = 68 := by decide
  obtain ⟨hva, hlen⟩ := haddr
  obtain ⟨hbytes, -⟩ := replaceRead_bytes
  rw [hva, hlen]
  show replaceRead = _
  rcases hr : replaceRead with ⟨e | img, s⟩
  · rw [hr] at hbytes
    cases hbytes
  · rw [hr] at hbytes
    cases hbytes
    rfl

theorem replaceRead_pods : replaceRead.2.pods = hiddenSt.pods := by
  obtain ⟨-, -, -, -, -, hpods, -⟩ := sameCore_memRead 0 0x10100 68 false (seen replaceImage hiddenSt)
  exact hpods.trans (seen_pods ..)

/-- The load chooses the handle of the hidden image. -/
theorem loadHandle_hidden : loadHandle replaceRead.2 = hiddenHandle := by
  obtain ⟨-, hfree, -⟩ := replaceRead_bytes
  unfold loadHandle hiddenHandle
  rw [hfree, replaceRead_pods]
  refine nextFree_congr (Nat.two_pow_pos 64) (fun k hk => ?_) 4 _
  have hnone : hiddenSt.pods.images.find k = none := Tbl.find_below hk ..
  rw [hnone]
  exact Bool.or_false _

theorem loadedImage_hidden : loadedImage replaceRead.2 0 (fld newerImage 8 8) = some (loadHandle replaceRead.2, hiddenImage) := by
  unfold loadedImage
  rw [replaceRead_pods, loadHandle_hidden]
  have hid : fld newerImage 8 8 = 7 := by decide
  rw [hid]
  rfl

/-- In the table of a hidden image, an image put at its handle that then gives its threads to itself and ends leaves no image below the first key. -/
theorem redirectedTo_lost {n h k : Nat} (hn : h < n) (hk : k < n) (a b im : Image) :
    Tbl.find ((redirectedTo h (Tbl.put [(n, a), (h, b)] h im)).del h) k = none := by
  have hput : Tbl.put [(n, a), (h, b)] h im = [(h, im), (n, a), (h, b)] := by
    unfold Tbl.put
    rw [if_neg (by omega), if_pos hn]
  have hne : (n != h) = true := by
    rw [bne_iff_ne]
    omega
  rw [hput]
  simp only [redirectedTo, List.map_cons, List.map_nil, Tbl.del, List.filter_cons, List.filter_nil, bne_self_eq_false, hne, Bool.false_eq_true, ↓reduceIte]
  exact Tbl.find_below hk ..

/-- Refutes O32: an IMAGE_LOAD with REPLACE need not leave the image it loads. Where the table of images does not rise, a look-up misses the image
that is replaced, so that the load may choose its handle; the new image then gives its threads to itself and ends at once. The
counterexample needs such a table: the clause has no premise that it is sorted. -/
theorem not_imagesLegendsAndContexts : ¬ Obligations.ImagesLegendsAndContexts := by
  intro h
  obtain ⟨-, -, hload, -⟩ := h replaceImage hiddenSt subscriber
  obtain ⟨haccepted, hreplace, hthreads, hdata⟩ := replaceImage_accepted
  obtain ⟨-, -, hwatch⟩ := replaceRead_bytes
  obtain ⟨n, im, v, hexec, hhandle, -, -, -, -, -, -, -, -, -, -, -, hfind, -⟩ :=
    hload newerImage replaceRead.2 haccepted replaceImage_passesA replaceRead_ok replaceImage_passesB
  obtain ⟨-, hn, -⟩ := hhandle (by decide)
  obtain ⟨b, w, new, hgo, himages⟩ := loadGo_own_handle hwatch hreplace hdata hthreads (congrArg Pods.threads replaceRead_pods) loadedImage_hidden
  have hrun := rcpRun_ok haccepted ((imageLoad_passes (x := heard hiddenSt subscriber) replaceImage_passesA replaceRead_ok replaceImage_passesB).trans hgo)
  have hdone : doneOk 0x0400 replaceImage _ v = doneOk 0x0400 replaceImage b w := Host.Outcome.next.inj (hexec.symm.trans (congrArg Host.Outcome.next hrun))
  have hpods : v.pods = w.pods := (doneOk_pods ..).symm.trans ((congrArg State.pods hdone).trans (doneOk_pods ..))
  have hlost : w.pods.images.find n = none := by
    rw [himages, replaceRead_pods, loadHandle_hidden]
    exact redirectedTo_lost (nextFree_lt _ (Nat.two_pow_pos 64) ..) hn ..
  rw [hpods, hlost] at hfind
  cases hfind

end Sys2Proof.Machine

namespace Sys2Proof.Machine
open Sys2Proof

/-! What a reset leaves of the Dispatcher and the Pods (R192, R554). -/

theorem disp_assertReset (l : Level) (s : State) : (assertReset l s).disp = State.reset.disp := by
  cases l <;> rfl

theorem pods_assertReset (l : Level) (s : State) : (assertReset l s).pods = State.reset.pods := by
  cases l <;> rfl

/-- Settles O58: every level puts the Dispatcher and the Pods to their reset values, which hold no flow, no graph and no thread that waits. -/
theorem resetDestroysFlows : Obligations.ResetDestroysFlows := by
  intro l s v
  have hdisp : v.disp = State.reset.disp := disp_assertReset l s
  have hpods : v.pods = State.reset.pods := pods_assertReset l s
  refine ⟨hdisp, hpods, ?_, ?_, fun t => ?_, ?_, fun n => ?_⟩
  · rw [hdisp]; rfl
  · rw [hdisp]; rfl
  · unfold State.thread
    rw [hpods]
    rfl
  · rw [hdisp]; rfl
  · rw [hdisp]; rfl

end Sys2Proof.Machine

namespace Sys2Proof.Machine
open Sys2Proof

/-! A flow is made (R163, R168, R169). -/

/-- The slice that a FLOW_CREATE puts its flow on. -/
def State.sliceAsked (s : State) (p : List Byte) : Nat := if fld p 3 1 = 0xFF then s.freeSlice else fld p 3 1

/-- The first index of a slice that no flow has. -/
def State.freeFlow (s : State) (sl : Nat) : Nat :=
  (firstIdx (fun i => (s.disp.flows.find (2048 * sl + i)).isNone) 2048).getD 0 + 2048 * sl

/-- The flow that the payload of a FLOW_CREATE asks for. -/
def flowAsked (gen ctx sl : Nat) (p : List Byte) : Flow := { graphFlowInit 0 with
  gen := gen, ctx := ctx, ordered := fld p 0 1 == 1, cls := fld p 1 1, complKind := fld p 2 1, complFlow := fld p 8 4, slice := sl, capacity := fld p 4 4
  starveUs := fld p 0xC 4, ringAddr := fld p 0x10 8, ringEntries := fld p 0x18 4, consAddr := fld p 0x20 8 }

/-- The state with a flow at an index, whose generation has moved on. -/
def State.makeFlow (s : State) (idx : Nat) (fl : Flow) : State := { s with disp := { s.disp with
  flows := s.disp.flows.put idx fl, gens := s.disp.gens.put idx ((s.disp.gens.at 0 idx + 1) % 4096) } }

theorem State.freeFlow_spec {s : State} {sl : Nat} (h : ∃ i, i < 2048 ∧ s.disp.flows.find (2048 * sl + i) = none) :
    2048 * sl ≤ s.freeFlow sl ∧ s.freeFlow sl < 2048 * sl + 2048 ∧ s.disp.flows.find (s.freeFlow sl) = none := by
  obtain ⟨i, hi, hnone⟩ := h
  obtain ⟨k, hk, hlt, hfree⟩ := firstIdx_of_exists (p := fun i => (s.disp.flows.find (2048 * sl + i)).isNone) ⟨i, hi, by rw [hnone]; rfl⟩
  have hidx : s.freeFlow sl = 2048 * sl + k := by
    unfold State.freeFlow
    rw [hk, Option.getD_some, Nat.add_comm]
  rw [hidx]
  exact ⟨by omega, by omega, Option.isNone_iff_eq_none.1 hfree⟩

/-- A FLOW_CREATE that passes its table makes the flow asked for at the free index of its slice. -/
theorem flowCreate_makes {f : Frame} {x : Session} {s : State} (sid : Nat) (hp : passes (flowCreateFails s x.ctx f.payload) = true) {sl idx : Nat}
    (hsl : sl = s.sliceAsked f.payload) (hidx : idx = s.freeFlow sl) :
    flowCreate f sid x s = .ok (leb 4 (mkFid (s.disp.gens.at 0 idx) idx) ++ zeros 4)
      (s.makeFlow idx (flowAsked (s.disp.gens.at 0 idx) x.ctx sl f.payload)) := by
  subst hidx hsl
  unfold flowCreate
  dsimp only
  rw [Option.isNone_iff_eq_none.1 hp]
  rfl

theorem seen_sliceAsked (f : Frame) (s : State) (p : List Byte) : (seen f s).sliceAsked p = s.sliceAsked p := by
  unfold State.sliceAsked State.freeSlice State.sliceFlows
  rw [seen_disp]

theorem seen_flow (f : Frame) (s : State) (fid : Nat) : (seen f s).flow fid = s.flow fid := State.flow_congr (seen_disp f s) fid

/-! A binding that ends (R180). -/

theorem frameInFlight_roce (f : Frame) (op : Nat) (w : Wait) (s : State) : (frameInFlight f op w s).roce = s.roce := State.modSession_roce ..

theorem frameInFlight_disp (f : Frame) (op : Nat) (w : Wait) (s : State) : (frameInFlight f op w s).disp = s.disp := State.modSession_disp ..

/-- The binding of a queue pair with a stopped SEND does not end yet. -/
theorem unbindSettle_waits {n : Nat} {s : State} {q : Qp} (hq : s.qp n = some q) (h : s.roce.stopped.any (fun r => r.qpn == n) = true) :
    unbindSettle n s = s := by
  unfold unbindSettle
  rw [hq]
  obtain ⟨r, hr, hn⟩ := List.any_eq_true.1 h
  refine if_neg fun hall => ?_
  have hne := List.all_eq_true.1 hall r hr
  rw [bne, hn] at hne
  cases hne

/-- The binding of a queue pair without one ends. -/
theorem unbindSettle_ends {n : Nat} {s : State} {q : Qp} (hq : s.qp n = some q) (h : s.roce.stopped.any (fun r => r.qpn == n) = false) :
    unbindSettle n s = (s.putQp n { q with ingress := none }).finishAll (.unbind n) stOk [] := by
  unfold unbindSettle
  rw [hq]
  have hall : s.roce.stopped.all (fun r => r.qpn != n) = true := by
    rw [List.all_eq_not_any_not]
    simpa only [bne, Bool.not_not, Bool.not_eq_true'] using h
  dsimp only
  rw [if_pos hall, State.modQp_some _ hq]

/-! A flow's block is read (R188). -/

/-- A row of fields none of which is at fault does not fail. -/
theorem fieldErr_none {st d : Nat} {l : List (Bool × Nat)} (h : ∀ c ∈ l, c.1 = false) : (fieldErr st d l).1 = false := by
  unfold fieldErr
  have hnil : l.filter Prod.fst = [] := List.filter_eq_nil_iff.2 fun c hc => by rw [h c hc]; decide
  rw [hnil]
  rfl

/-- A row with a field at fault fails. -/
theorem fieldErr_some {st d : Nat} {l : List (Bool × Nat)} {c : Bool × Nat} (hc : c ∈ l) (h : c.1 = true) : (fieldErr st d l).1 = true := by
  unfold fieldErr
  obtain ⟨z, hz, -, -⟩ := minBy_spec Prod.snd (l.filter Prod.fst) (List.mem_filter.2 ⟨hc, h⟩)
  rw [hz]

/-- A flow of a session's own context is not foreign to it. -/
theorem flowForeign_own {s : State} {ctx fid : Nat} {y : Flow} (hy : s.flow fid = some y) (hc : fidKind fid = 0 → y.ctx = ctx) :
    flowForeign s ctx fid = false := by
  unfold flowForeign
  rw [hy]
  by_cases hk : fidKind fid = 0
  · simp [hc hk]
  · simp [hk]

/-- A FLOW_STATS whose fields are in order, of a flow that its session may see, answers the flow's block. -/
theorem flowStats_answers {f : Frame} {x : Session} {s : State} {y : Flow} (sid : Nat) (hl : f.payload.length = 8)
    (hk : fidKind (fld f.payload 0 4) ≤ 1) (hc : fld f.payload 4 4 ≤ 1) (hpriv : fidKind (fld f.payload 0 4) = 1 → x.priv = true)
    (hy : s.flow (fld f.payload 0 4) = some y) (hctx : fidKind (fld f.payload 0 4) ≠ 1 → y.ctx = x.ctx) :
    flowStats f sid x s = .ok y.stats (if bit (fld f.payload 4 4) 0 then
      s.putFlow (fld f.payload 0 4) { y with maxDepth := y.ready.length, hist := List.replicate 16 0 } else s) := by
  unfold flowStats
  dsimp only
  rw [hy, Option.getD_some]
  refine Reply.check_of_passes _ _ ((passes_iff _).2 (List.forall_mem_cons.2 ⟨?_, List.forall_mem_cons.2 ⟨?_, List.forall_mem_cons.2 ⟨?_,
    List.forall_mem_cons.2 ⟨rfl, by simp⟩⟩⟩⟩))
  · simp [badLength, hl]
  · exact fieldErr_none (by simp; omega)
  · show (if fidKind (fld f.payload 0 4) = 1 then !x.priv else flowForeign s x.ctx (fld f.payload 0 4)) = false
    split_ifs with h1
    · rw [hpriv h1]
      rfl
    · exact flowForeign_own hy fun _ => hctx h1

/-- Settles O12, by what each command's handler does once it has passed its table. -/
theorem flowCommandsAndStatistics : Obligations.FlowCommandsAndStatistics := by
  intro f s x p
  refine ⟨fun ha hp sl hsl hfree => ?_, fun ha hp => ?_, fun ha hp q hq => ?_, fun ha hl hk hc hpriv y hy hctx => ?_⟩
  · have hslice : sl = (seen f s).sliceAsked p := hsl.trans (seen_sliceAsked f s p).symm
    rw [← seen_disp f s] at hfree
    obtain ⟨hlo, hhi, hnone⟩ := State.freeFlow_spec hfree
    have hmake := flowCreate_makes (x := heard s x) f.sessionId.toNat hp hslice rfl
    rw [← seen_disp f s]
    refine ⟨_, _, _, congrArg Host.Outcome.next (rcpRun_ok ha hmake), hlo, hhi, hnone, Tbl.find_put_self .., rfl, rfl, rfl, rfl, rfl, rfl, rfl, rfl,
      rfl, rfl, rfl, rfl, rfl, rfl, rfl, Tbl.find_put_self .., fun k hk => Tbl.find_put_ne _ _ hk, rfl⟩
  · refine congrArg Host.Outcome.next (rcpRun_ok ha ((Reply.check_of_passes _ _ hp).trans ?_))
    rw [← seen_disp f s]
    rfl
  · have hseen : (seen f s).qp (fld p 4 4) = some q := (seen_qp ..).trans hq
    have hflight : (frameInFlight f 0x0302 (.unbind (fld p 4 4)) (seen f s)).qp (fld p 4 4) = some q :=
      (State.qp_congr (frameInFlight_roce ..) _).trans hseen
    have hstopped : (frameInFlight f 0x0302 (.unbind (fld p 4 4)) (seen f s)).roce.stopped = s.roce.stopped := by
      rw [frameInFlight_roce, seen_roce]
    have hunbind : fld p 9 1 = 1 → exec (.flowBindIngress f) s =
        .next (unbindSettle (fld p 4 4) (frameInFlight f 0x0302 (.unbind (fld p 4 4)) (seen f s))) := fun hun =>
      congrArg Host.Outcome.next (rcpRun_waitThen ha ((Reply.check_of_passes _ _ hp).trans (if_pos (by show bit (fld p 9 1) 0 = true; rw [hun]; rfl))))
    refine ⟨fun hun => ?_, fun hun hst => ?_, fun hun hst => ?_⟩
    · refine congrArg Host.Outcome.next (rcpRun_ok ha ((Reply.check_of_passes _ _ hp).trans
        ((if_neg (by show ¬ bit (fld p 9 1) 0 = true; rw [hun]; decide)).trans ?_)))
      exact congrArg (Reply.ok []) (State.modQp_some _ hseen)
    · rw [hunbind hun, unbindSettle_waits hflight (by rw [hstopped]; exact hst)]
    · rw [hunbind hun, unbindSettle_ends hflight (by rw [hstopped]; exact hst)]
  · have hanswer := flowStats_answers (x := heard s x) f.sessionId.toNat hl hk hc hpriv ((seen_flow f s _).trans hy) hctx
    refine congrArg Host.Outcome.next ((rcpRun_ok ha hanswer).trans (congrArg (doneOk 0x0304 f y.stats) ?_))
    have hbit : bit (fld p 4 4) 0 = true ↔ fld p 4 4 = 1 := by
      rcases Nat.le_one_iff_eq_zero_or_eq_one.1 hc with h | h <;> rw [h] <;> decide
    simp only [hbit, p]

end Sys2Proof.Machine

namespace Sys2Proof.Machine
open Sys2Proof

/-! GRAPH_SUBMIT and its cancel (R183 to R187). -/

/-- A GRAPH_SUBMIT that passes its table names one of the 16 graph queues. -/
theorem graphFails_passed {s : State} {p : List Byte} (h : passes (graphFails s p) = true) : fld p 0 1 < 16 := by
  by_contra hq
  have hrow := (passes_iff _).1 h (fieldErr stRange 0 [(decide (fld p 0 1 > 15), 0), (!bit (fld p 1 1) 1 && (fld p 4 4 < 1 || fld p 4 4 > 2 ^ 20), 4),
    (!bit (fld p 1 1) 1 && decide (fld p 0x18 4 > 2 ^ 22), 0x18)]) (List.mem_append_right _ List.mem_cons_self)
  rw [fieldErr_some List.mem_cons_self (decide_eq_true (by omega))] at hrow
  cases hrow

/-- The FLOW_ID of a graph queue (R163). -/
theorem graphQueue_fid : ∀ q < 16, fidKind (0x1000_0000 + q) = 1 ∧ fidGen (0x1000_0000 + q) = 0 ∧ fidIndex (0x1000_0000 + q) = q := by decide

theorem graphQueue_flow (s : State) {q : Nat} (h : q < 16) :
    s.flow (0x1000_0000 + q) = some ((s.disp.graphFlows.find q).getD (graphFlowInit q)) := by
  obtain ⟨hkind, hgen, hidx⟩ := graphQueue_fid q h
  unfold State.flow
  rw [hkind, hgen, hidx, if_neg (by decide), if_pos ⟨rfl, rfl, h⟩]

theorem State.modFlow_some {s : State} {fid : Nat} {f : Flow} (g : Flow → Flow) (h : s.flow fid = some f) : s.modFlow fid g = s.putFlow fid (g f) := by
  unfold State.modFlow
  rw [h]

theorem State.putFlow_graphs (s : State) (fid : Nat) (f : Flow) : (s.putFlow fid f).disp.graphs = s.disp.graphs := by
  unfold State.putFlow
  split_ifs <;> rfl

theorem State.finishAll_disp (s : State) (w : Wait) (st : Nat) (p : List Byte) : (s.finishAll w st p).disp = s.disp :=
  foldl_keeps (p := State.disp) (g := fun a (c : Nat × Nat) => a.finish c.1 c.2 st p) (fun a c => a.finish_disp c.1 c.2 st p) _ s

/-- A graph that has ended leaves its queue, and the Dispatcher stays otherwise. -/
theorem graphEnd_ended {q : Nat} {s : State} {g : Graph} (hg : s.disp.graphs.find q = some g) (he : g.ended = true) :
    (graphEnd q s).disp = { s.disp with graphs := s.disp.graphs.del q } := by
  unfold graphEnd
  rw [hg]
  dsimp only
  rw [if_pos he, State.finishAll_disp, State.finishAll_disp]

/-- A graph that has not ended goes on. -/
theorem graphEnd_goesOn {q : Nat} {s : State} {g : Graph} (hg : s.disp.graphs.find q = some g) (he : g.ended = false) : graphEnd q s = s := by
  unfold graphEnd
  rw [hg]
  dsimp only
  rw [if_neg (by rw [he]; decide)]

theorem graphEnd_flow (q : Nat) (s : State) (fid : Nat) : (graphEnd q s).flow fid = s.flow fid := by
  cases hg : s.disp.graphs.find q with
  | none =>
    unfold graphEnd
    rw [hg]
  | some g =>
    cases he : g.ended with
    | false => rw [graphEnd_goesOn hg he]
    | true =>
      unfold State.flow
      rw [graphEnd_ended hg he]

/-- A node of a graph that is cancelled. -/
def Node.cancel (n : Node) : Node := if n.state == .ready || n.state == .waiting then { n with state := .skipped } else n

/-- A graph cancelled: every node that is ready or waiting is skipped. -/
def Graph.cancel (g : Graph) : Graph := { g with cancelled := true, nodes := g.nodes.map Node.cancel }

/-- A queue without its nodes' items. -/
def Flow.dropNodes (f : Flow) : Flow := { f with
  ready := f.ready.filter (fun i => i.srcKind != 7), released := f.released + f.ready.countP (fun i => i.srcKind == 7) }

theorem Flow.dropNodes_ready {f : Flow} {i : Item} (h : i ∈ f.dropNodes.ready) : i.srcKind ≠ 7 := bne_iff_ne.1 (List.mem_filter.1 h).2

/-- A cancelled node is held, retired or skipped. -/
theorem Node.cancel_state (n : Node) :
    (n.cancel.state == .held || n.cancel.state == .done || n.cancel.state == .failed || n.cancel.state == .skipped) = true := by
  unfold Node.cancel
  cases h : n.state <;> simp [h]

/-- It has ended but where it is held. -/
theorem Node.cancel_ended (n : Node) :
    (n.cancel.state == .done || n.cancel.state == .failed || n.cancel.state == .skipped) = !(n.state == .held) := by
  unfold Node.cancel
  cases h : n.state <;> simp [h]

/-- A cancelled graph has ended where no node is held. -/
theorem Graph.cancel_ended (g : Graph) : g.cancel.ended = !g.nodes.any (fun n => n.state == .held) := by
  unfold Graph.ended Graph.cancel
  rw [List.all_map, List.any_eq_not_all_not, Bool.not_not]
  exact congrArg (List.all g.nodes) (funext Node.cancel_ended)

/-- The state in which a running graph of a queue has been cancelled. -/
def State.cancelGraph (s : State) (q : Nat) (g : Graph) : State := (s.putGraph q g.cancel).modFlow (0x1000_0000 + q) Flow.dropNodes

theorem graphCancelGo_cancels {q : Nat} {s : State} {g : Graph} (h : s.disp.graphs.find q = some g) :
    graphCancelGo q s = graphEnd q (s.cancelGraph q g) := by
  unfold graphCancelGo
  rw [h]
  rfl

theorem State.cancelGraph_eq (s : State) {q : Nat} (g : Graph) (hq : q < 16) : ∃ f : Flow, f.gen = f.dropNodes.gen ∧
    (s.putGraph q g.cancel).flow (0x1000_0000 + q) = some f ∧ s.cancelGraph q g = (s.putGraph q g.cancel).putFlow (0x1000_0000 + q) f.dropNodes :=
  ⟨_, rfl, graphQueue_flow _ hq, State.modFlow_some _ (graphQueue_flow _ hq)⟩

theorem State.cancelGraph_graph (s : State) {q : Nat} (g : Graph) (hq : q < 16) : (s.cancelGraph q g).disp.graphs.find q = some g.cancel := by
  obtain ⟨f, -, -, heq⟩ := s.cancelGraph_eq g hq
  rw [heq, State.putFlow_graphs]
  exact Tbl.find_put_self ..

theorem State.cancelGraph_ready (s : State) {q : Nat} (g : Graph) (hq : q < 16) {y : Flow} (hy : (s.cancelGraph q g).flow (0x1000_0000 + q) = some y) :
    ∀ i ∈ y.ready, i.srcKind ≠ 7 := by
  obtain ⟨f, hgen, hf, heq⟩ := s.cancelGraph_eq g hq
  rw [heq, State.flow_putFlow_self hf hgen.symm] at hy
  cases hy
  exact fun i => Flow.dropNodes_ready

/-- A GRAPH_SUBMIT that passes its table and whose arrays are read goes into flight with the graph that they describe. -/
theorem graphSubmit_goes {f : Frame} {x : Session} {s s1 s2 : State} {a b : List Byte} (sid : Nat)
    (hp : passes (graphFails s f.payload) = true) (hc : bit (fld f.payload 1 1) 1 = false)
    (ha : Io.exec (memRead 0 (fld f.payload 8 8) (64 * fld f.payload 4 4)) s = (.ok a, s1))
    (hb : Io.exec (memRead 0 (fld f.payload 0x10 8) (4 * fld f.payload 0x18 4)) s1 = (.ok b, s2)) :
    graphSubmit f sid x s = .waitThen (.graph (fld f.payload 0 1))
      (s2.putGraph (fld f.payload 0 1) (graphOf (bit (fld f.payload 1 1) 0) (fld f.payload 4 4) a b)) (graphStart (fld f.payload 0 1) (fld f.payload 4 4)) := by
  unfold graphSubmit
  dsimp only
  rw [Option.isNone_iff_eq_none.1 hp]
  dsimp only
  rw [hc, if_neg (by decide), ha]
  dsimp only
  rw [hb]

/-- One with CANCEL goes into flight and cancels. -/
theorem graphSubmit_cancels {f : Frame} {x : Session} {s : State} (sid : Nat) (hp : passes (graphFails s f.payload) = true)
    (hc : bit (fld f.payload 1 1) 1 = true) :
    graphSubmit f sid x s = .waitThen (.graphCancel (fld f.payload 0 1)) s (graphCancelGo (fld f.payload 0 1)) := by
  unfold graphSubmit
  dsimp only
  rw [Option.isNone_iff_eq_none.1 hp]
  dsimp only
  rw [if_pos hc]

/-- Settles O13, by what GRAPH_SUBMIT does once it has passed its table and by the nodes of a cancelled graph. -/
theorem graphsStartAndCancel : Obligations.GraphsStartAndCancel := by
  intro f s x p q n ha hp
  refine ⟨fun hc a b s1 s2 hra hrb => ?_, fun hc g hg _ => ?_⟩
  · exact congrArg Host.Outcome.next ((if_pos hc).trans (rcpRun_waitThen ha (graphSubmit_goes (x := heard s x) _ hp hc hra hrb)))
  · have hq : q < 16 := graphFails_passed hp
    have hgraph : (frameInFlight f 0x0303 (.graphCancel q) (seen f s)).disp.graphs.find q = some g := by
      rw [frameInFlight_disp, seen_disp]
      exact hg
    have hrun : exec (.graphCancel f) s = .next (graphEnd q ((frameInFlight f 0x0303 (.graphCancel q) (seen f s)).cancelGraph q g)) :=
      congrArg Host.Outcome.next ((if_pos hc).trans ((rcpRun_waitThen ha (graphSubmit_cancels (x := heard s x) _ hp hc)).trans
        (graphCancelGo_cancels hgraph)))
    have hput := State.cancelGraph_graph (frameInFlight f 0x0303 (.graphCancel q) (seen f s)) g hq
    refine ⟨_, hrun, fun y hy => State.cancelGraph_ready _ g hq ((graphEnd_flow ..).symm.trans hy), fun hheld => ?_, fun hheld => ?_⟩
    · rw [graphEnd_goesOn hput (by rw [Graph.cancel_ended, hheld]; rfl)]
      refine ⟨g.cancel, hput, rfl, List.all_eq_true.2 fun m hm => ?_⟩
      obtain ⟨k, -, rfl⟩ := List.mem_map.1 hm
      exact k.cancel_state
    · rw [graphEnd_ended hput (by rw [Graph.cancel_ended, hheld]; rfl)]
      exact Tbl.find_del_self ..

end Sys2Proof.Machine

namespace Sys2Proof.Machine
open Sys2Proof

/-! A descriptor lost where its completion can be released at once (R175, R177, R193): the record written changes memory. -/

/-- A work item of 40 zero bytes, the first of flow 0. -/
def lostItem : Item := ⟨zeros 40, 0, 0, 0, 0, 0, 0, 0, 0, 0⟩

/-- An ordered flow of context 0 that holds it, its completions going to a ring of 16 records at 0x10000. -/
def ringFlow : Flow := { graphFlowInit 0 with
  ordered := true, capacity := 64, complKind := 1, ringAddr := 0x10000, ringEntries := 16, consAddr := 0x11000
  ready := [lostItem], nextSeq := 1, entered := 1, maxDepth := 1 }

/-- A context whose addresses from 0x10000 on lie at 0x20000 of memory. -/
def ringCtx : Ctx := { Ctx.init false 0 with maps := [⟨0x10000, 0x10000, .alloc, 0, true, true, false, false, [⟨0x10000, 0x20000⟩], false⟩] }

/-- The fabric runs, every island is released, and that flow is the only one. -/
def ringSt : State := { State.reset with
  ctl := { State.reset.ctl with fabricOn := true, islandUp := BitVec.allOnes 47 }
  mem := { State.reset.mem with contexts := [(0, ringCtx)], memGib := 64, density := 32 }
  disp := { State.reset.disp with flows := [(0, ringFlow)] } }

set_option maxRecDepth 20000 in
/-- The STATUS of the ring's first record is E_HW once the item's descriptor has been lost, and no byte of it is set before. -/
theorem ringSt_record : (ringSt.mem.read 0x20010 2, (descParity 0 0 ringSt).mem.read 0x20010 2) = (zeros 2, leb 2 stHw) := by decide

/-- Refutes O14: a descriptor's parity error need not leave memory as it was. In an ordered flow whose oldest item is lost, the completion in its place
is next in turn and is released at once; with a completion ring its record is written, where the statement asks that memory stay. -/
theorem not_dispatcherSlicesByThemselves : ¬ Obligations.DispatcherSlicesByThemselves := by
  intro h
  obtain ⟨hslice, -⟩ := h
  obtain ⟨-, -, -, hparity⟩ := hslice 0 ringSt ringFlow rfl (by decide)
  obtain ⟨t, hexec, -, hmem, -⟩ := hparity 0 lostItem rfl rfl
  obtain ⟨hbefore, hafter⟩ := Prod.mk.inj ringSt_record
  have ht : descParity 0 0 ringSt = t := Host.Outcome.next.inj hexec
  rw [ht, hmem, hbefore] at hafter
  exact absurd hafter (by decide)

end Sys2Proof.Machine

namespace Sys2Proof.Machine
open Sys2Proof

/-!
DEFINITION. What it means that an operation keeps memory in its canonical form (O54): for a state, for what issue, a reply and a slot leave, for an
operation on memory, for a handler and for a row.
-/

/-- The memory of a state is in its canonical form. -/
def Canon (s : State) : Prop := s.mem.wf = true

/-- Every state that an instruction's issue leaves has canonical memory. -/
def Issue.AllCanon : Issue → Prop
  | .next s => Canon s
  | .goto _ s => Canon s
  | .stay s => Canon s
  | .fault _ _ s => Canon s

/-- Every state that a command's reply leaves has canonical memory, what follows the completion included. -/
def Reply.AllCanon : Reply → Prop
  | .ok _ s => Canon s
  | .okThen _ s after => Canon s ∧ ∀ a, Canon a → Canon (after a)
  | .err _ s => Canon s
  | .raw _ _ s => Canon s
  | .wait _ s => Canon s
  | .waitThen _ s after => Canon s ∧ ∀ a, Canon a → Canon (after a)

/-- The state that a slot's operation leaves has canonical memory. -/
def Landed.AllCanon : Landed → Prop
  | .done _ s => Canon s
  | .more _ s => Canon s
  | .failed _ _ s => Canon s

/-- The next state of an outcome has canonical memory. -/
def OutCanon : Host.Outcome State Fault Refusal → Prop
  | .next s => Canon s
  | .fault _ => True
  | .refused _ => True

/-- An operation that keeps memory canonical, whether it succeeds or fails. -/
def Io.Keeps {α : Type} (m : Io α) : Prop := ∀ s, Canon s → Canon (m.exec s).2

/-- A handler whose replies keep memory canonical. -/
def Handler.Canonical (g : Handler) : Prop := ∀ (f : Frame) (n : Nat) (x : Session) (s : State), Canon s → (g f n x s).AllCanon

/-- A row whose effect keeps memory canonical. -/
def Row.Canonical (r : Row) : Prop := ∀ (t : Nat) (w : Insn) (s : State), Canon s → (r.run t w s).AllCanon

/-! What a state that is put together from another's parts keeps. -/

section
variable
  {pending : List Instr} {ctl : Ctl} {clk : Clk} {fw : Fw} {host : HostPort} {roce : Roce} {rcp : Rcp} {svc : Svc} {pods : Pods}
  {disp : Disp} {units : Units} {gaz : Gaz} {emb : Emb} {fab : Fab} {frames : Frames} {dbg : Dbg} {pins : Pins} {free : Nat}
  {sent : List Sent}
  {contexts : Tbl Ctx} {channels : Tbl Channel} {density : Nat} {memGib : Nat} {reserved : List Extent} {checks : Tbl (List Nat)}
  {badBlocks : Tbl Bool} {badWords : List Nat} {lost : Tbl Nat} {retrains : Tbl Retrain} {moves : Nat} {watch : List Watch} {m : Mem}
  {s : State}

/-- A change of anything but memory. -/
theorem Canon.fields (h : Canon s) :
    Canon ⟨pending, ctl, clk, fw, host, roce, rcp, svc, s.mem, pods, disp, units, gaz, emb, fab, frames, dbg, pins, free, sent⟩ := h

/-- A change whose bytes are those of a canonical memory. -/
theorem Canon.ofMem (h : m.wf = true) :
    Canon ⟨pending, ctl, clk, fw, host, roce, rcp, svc,
      ⟨m.bytes, contexts, channels, density, memGib, reserved, checks, badBlocks, badWords, lost, retrains, moves, watch⟩,
      pods, disp, units, gaz, emb, fab, frames, dbg, pins, free, sent⟩ := h

/-- A change of memory's fields other than its bytes. -/
theorem Canon.memFields (h : Canon s) :
    Canon ⟨pending, ctl, clk, fw, host, roce, rcp, svc,
      ⟨s.mem.bytes, contexts, channels, density, memGib, reserved, checks, badBlocks, badWords, lost, retrains, moves, watch⟩,
      pods, disp, units, gaz, emb, fab, frames, dbg, pins, free, sent⟩ := .ofMem h

/-- Bytes written. -/
theorem Canon.written {pa : Nat} {bs : List Byte} (h : Canon s) :
    Canon ⟨pending, ctl, clk, fw, host, roce, rcp, svc, s.mem.write pa bs, pods, disp, units, gaz, emb, fab, frames, dbg, pins, free, sent⟩ :=
  Mem.wf_write _ _ _ h

/-- A range zeroed. -/
theorem Canon.zeroed {pa len : Nat} (h : Canon s) :
    Canon ⟨pending, ctl, clk, fw, host, roce, rcp, svc, s.mem.zero pa len, pods, disp, units, gaz, emb, fab, frames, dbg, pins, free, sent⟩ :=
  Mem.wf_zero _ _ _ h

end

/-! The state of a pair, a fold, an operation on memory, a choice. -/

section
variable {α β : Type} {s u : State}

theorem Canon.of_fst {x : State × α} {a : α} (e : x = (u, a)) (h : Canon x.1) : Canon u := by subst e; exact h
theorem Canon.of_snd {x : α × State} {a : α} (e : x = (a, u)) (h : Canon x.2) : Canon u := by subst e; exact h
theorem Canon.of_snd_snd {x : α × β × State} {a : α} {b : β} (e : x = (a, b, u)) (h : Canon x.2.2) : Canon u := by subst e; exact h

/-- A fold whose steps keep a property keeps it. -/
theorem foldl_inv {γ : Type} {P : β → Prop} {g : β → γ → β} {l : List γ} {b : β} (hg : ∀ a x, P a → P (g a x)) (h : P b) :
    P (l.foldl g b) := by
  induction l generalizing b with
  | nil => exact h
  | cons x t ih => exact ih (hg b x h)

theorem Canon.foldl {γ : Type} {g : State → γ → State} {l : List γ} (hg : ∀ a x, Canon a → Canon (g a x)) (h : Canon s) :
    Canon (l.foldl g s) :=
  foldl_inv hg h

/-- The state an optional one gives, or another. -/
theorem Canon.getD {o : Option State} (ho : ∀ u, o = some u → Canon u) (h : Canon s) : Canon (o.getD s) := by
  cases o with
  | none => exact h
  | some u => exact ho u rfl

theorem Canon.io {m : Io α} (hm : m.Keeps) (h : Canon s) : Canon (m.exec s).2 := hm s h

theorem Io.Keeps.pure {a : α} : (pure a : Io α).Keeps := fun _ h => h
theorem Io.Keeps.throw {e : Err} : (throw e : Io α).Keeps := fun _ h => h

theorem Io.Keeps.bind {m : Io α} {k : α → Io β} (hm : m.Keeps) (hk : ∀ a, (k a).Keeps) : (m >>= k).Keeps := by
  intro s h
  have hu := hm s h
  rw [Io.exec_bind]
  rcases e : m.exec s with ⟨q, u⟩
  rw [e] at hu
  cases q with
  | error _ => exact hu
  | ok a => exact hk a u hu

theorem Io.Keeps.ite {c : Prop} [Decidable c] {m k : Io α} (hm : m.Keeps) (hk : k.Keeps) : (if c then m else k).Keeps := by
  split
  · exact hm
  · exact hk

theorem Io.Keeps.mapM {f : α → Io β} (hf : ∀ a, (f a).Keeps) (l : List α) : (l.mapM f).Keeps := by
  induction l with
  | nil => exact .pure
  | cons a t ih =>
    rw [List.mapM_cons]
    exact .bind (hf a) fun _ => .bind ih fun _ => .pure

theorem Issue.AllCanon.of_next {i : Issue} (e : i = .next u) (h : i.AllCanon) : Canon u := by subst e; exact h
theorem Issue.AllCanon.of_goto {i : Issue} {pc : Nat} (e : i = .goto pc u) (h : i.AllCanon) : Canon u := by subst e; exact h
theorem Issue.AllCanon.of_stay {i : Issue} (e : i = .stay u) (h : i.AllCanon) : Canon u := by subst e; exact h
theorem Issue.AllCanon.of_fault {i : Issue} {x : Err} {a : Nat} (e : i = .fault x a u) (h : i.AllCanon) : Canon u := by subst e; exact h
theorem Landed.AllCanon.of_done {i : Landed} {f : Thread → Thread} (e : i = .done f u) (h : i.AllCanon) : Canon u := by subst e; exact h
theorem Landed.AllCanon.of_more {i : Landed} {o : SlotOp} (e : i = .more o u) (h : i.AllCanon) : Canon u := by subst e; exact h
theorem Landed.AllCanon.of_failed {i : Landed} {a : Nat} {x : Err} (e : i = .failed a x u) (h : i.AllCanon) : Canon u := by subst e; exact h
theorem Row.Canonical.run {r : Row} {t : Nat} {w : Insn} (hr : r.Canonical) (h : Canon s) : (r.run t w s).AllCanon := hr t w s h

theorem Canon.ite {c : Prop} [Decidable c] (h : Canon s) (k : Canon u) : Canon (if c then s else u) := by
  split
  · exact h
  · exact k
end

end Sys2Proof.Machine

namespace Sys2Proof.Machine
open Sys2Proof

/-!
CLAIMS. One rule per function of the model that gives a state: it keeps memory canonical. The rules stand in the order of the model's text, and
each cites the rules of the functions that its function calls; the bytes of memory change only where Mem.write and Mem.zero are called and at resets.
-/

/-! Initial values of entries that a table does not list. -/

theorem Canon.setThread {s : State} {t : Nat} {x : Thread} (h : Canon s) : Canon (s.setThread t x) := h

theorem Canon.modThread {s : State} {t : Nat} {f : Thread → Thread} (h : Canon s) : Canon (s.modThread t f) := .setThread h

theorem Canon.modPod {s : State} {p : Nat} {f : Pod → Pod} (h : Canon s) : Canon (s.modPod p f) := h

theorem Canon.modChannel {s : State} {c : Nat} {f : Channel → Channel} (h : Canon s) : Canon (s.modChannel c f) := h

theorem Canon.modCtx {s : State} {c : Nat} {f : Ctx → Ctx} (h : Canon s) : Canon (s.modCtx c f) := by
  unfold State.modCtx
  split <;> exact h

theorem Canon.countFault {s : State} {c : Nat} {f : CtxFaults → CtxFaults} (h : Canon s) : Canon (s.countFault c f) := .modCtx h

theorem Canon.countRefused {s : State} {c status : Nat} (h : Canon s) : Canon (s.countRefused c status) := .countFault h

/-! Free values and what is sent. -/

theorem Canon.draw {s : State} (h : Canon s) : Canon s.draw.2 := h

theorem Canon.drawBytes {s : State} {n : Nat} (h : Canon s) : Canon (s.drawBytes n).2 := h

theorem Canon.fresh {s : State} {taken : Nat → Bool} {m n : Nat} (h : Canon s) : Canon (s.fresh taken m n).2 := .draw h

theorem Canon.send {s : State} {x : Sent} (h : Canon s) : Canon (s.send x) := h

/-! What the Host Port sends (R41, R44). Addresses are 128-bit numbers, an IPv4 address in its IPv4-mapped form. -/

theorem Canon.countTx {s : State} {n : Nat} (h : Canon s) : Canon (s.countTx n) := h

theorem Canon.hostSend {s : State} {prio size : Nat} {x : Sent} (h : Canon s) : Canon (s.hostSend prio size x) :=
  .ite h (.send (.countTx h))

theorem Canon.drainTx {s : State} (h : Canon s) : Canon s.drainTx := .foldl (fun _ _ ha => .hostSend ha) h

theorem Canon.sendRcp {s : State} {p : Path} {ip port : Nat} {o : RcpOut} (h : Canon s) : Canon (s.sendRcp p ip port o) := by
  unfold State.sendRcp
  split
  · split
    · exact .hostSend h
    · exact .send h
  · exact h

/-! Sessions. -/

theorem Canon.modSession {s : State} {sid : Nat} {f : Session → Session} (h : Canon s) : Canon (s.modSession sid f) := by
  unfold State.modSession
  split <;> exact h

theorem Canon.complete {s : State} {sid rid op : Nat} {path : Path} {ip port status : Nat} {payload : List Byte} (h : Canon s) :
    Canon (s.complete sid rid op path ip port status payload) := by
  unfold State.complete
  split
  · exact h
  · exact .ite (.fields (.modSession h)) (.sendRcp (.modSession h))

theorem Canon.finish {s : State} {sid rid status : Nat} {payload : List Byte} (h : Canon s) : Canon (s.finish sid rid status payload) := by
  unfold State.finish
  split
  · exact .ite h h
  · split
    · exact h
    · split
      · exact h
      · exact .complete (.modSession h)

theorem Canon.finishAll {s : State} {w : Wait} {status : Nat} {payload : List Byte} (h : Canon s) : Canon (s.finishAll w status payload) :=
  .foldl (fun _ _ ha => .finish ha) h

theorem Canon.failAll {s : State} {w : Wait} {e : Err} (h : Canon s) : Canon (s.failAll w e) := .finishAll h

/-! Events (R86, R87). -/

theorem Canon.eventTo {s : State} {sid cls code : Nat} {data : List Byte} (h : Canon s) : Canon (s.eventTo sid cls code data) := by
  unfold State.eventTo
  split
  · exact h
  · exact .ite (.ite (.sendRcp (.modSession (.ite h h))) (.modSession (.ite h h))) h

theorem Canon.event {s : State} {p : Session → Bool} {cls code : Nat} {data : List Byte} (h : Canon s) : Canon (s.event p cls code data) :=
  .foldl (fun _ _ ha => .eventTo ha) h

theorem Canon.flushEvents {s : State} (h : Canon s) : Canon s.flushEvents :=
  .foldl (fun _ _ ha => .modSession (.foldl (fun _ _ ha1 => .sendRcp ha1) ha)) h

/-! Detectors (R524 to R528). -/

theorem Canon.modDetector {s : State} {id : Nat} {f : Detector → Detector} (h : Canon s) : Canon (s.modDetector id f) := h

theorem Canon.fire {s : State} {kind inst detail : Nat} {inj : Bool} (h : Canon s) : Canon (s.fire kind inst detail inj) :=
  .ite (.event (.modDetector (.ite h h))) (.modDetector (.ite h h))

theorem Canon.disarm {s : State} {kind inst : Nat} (h : Canon s) : Canon (s.disarm kind inst) := .modDetector h

theorem Canon.fireInjected {s : State} {kind inst detail : Nat} (h : Canon s) : Canon (s.fireInjected kind inst detail) := .fire (.disarm h)

theorem Canon.relinked {s : State} {t : Nat} (h : Canon s) : Canon (s.relinked t) := .ite (.finishAll h) h

/-! Errors in memory (R20, R215 to R218, R227). -/

theorem Canon.countAccess {s : State} {ch : Nat} {full : Bool} (h : Canon s) : Canon (s.countAccess ch full) := .modChannel (.draw h)

theorem Canon.linkMeet {s : State} {ch : Nat} (h : Canon s) : Canon (linkMeet s ch).1 := by
  unfold Machine.linkMeet
  split
  · exact h
  · exact .fireInjected (.modChannel h)

theorem Canon.fireAs {s : State} {inj : Bool} {kind inst detail : Nat} (h : Canon s) : Canon (s.fireAs inj kind inst detail) :=
  .ite (.fireInjected h) (.fire h)

theorem Canon.eccRead {s : State} {ch blk : Nat} (h : Canon s) : Canon (eccRead s ch blk).1 := by
  unfold Machine.eccRead
  split
  · exact h
  · exact .fireAs (.memFields (.modChannel h))
  · exact .fireAs (.memFields (.modChannel h))

theorem Canon.lpddrBlock {s : State} {pa : Nat} {ecc reads full : Bool} (h : Canon s) : Canon (lpddrBlock s pa ecc reads full).1 := by
  unfold Machine.lpddrBlock
  dsimp only
  split
  · exact h
  · split
    · exact .linkMeet (.countAccess h)
    · split
      · exact .linkMeet (.countAccess h)
      · split
        · exact .memFields (.linkMeet (.countAccess h))
        · split
          · exact .linkMeet (.countAccess h)
          · exact .eccRead (.linkMeet (.countAccess h))

theorem Canon.storeWords {s : State} {pa len : Nat} (h : Canon s) : Canon (storeWords s pa len).1 := by
  unfold Machine.storeWords
  dsimp only
  split
  · split
    · exact .fireInjected h
    · split
      · exact .fire h
      · exact h
  · split
    · exact .fireInjected h
    · split
      · exact .fire h
      · exact h

theorem Canon.pieceAccess {s : State} {pa len : Nat} {ecc write reads : Bool} (h : Canon s) :
    Canon (pieceAccess s pa len ecc write reads).1 := by
  unfold Machine.pieceAccess
  split
  · exact .lpddrBlock h
  · split
    · exact .storeWords h
    · exact h

/-! Bytes that an access shares with an operation in progress (R5, R325, R388). -/

theorem Canon.store {s : State} {thr : Bool} {pa : Nat} {bs : List Byte} (h : Canon s) : Canon (s.store thr pa bs) :=
  State.wf_store _ _ _ _ h

theorem Canon.view {s : State} {thr : Bool} {pa len : Nat} (h : Canon s) : Canon (s.view thr pa len).2 := State.wf_view _ _ _ _ h

/-! Reads and writes by a requester in a context. -/

theorem Io.Keeps.translate {ctx va len : Nat} {n : Need} {old : Bool} : (translate ctx va len n old).Keeps :=
  fun s h => Mem.wf_congr (State.bytes_of_kept (kept_translate s ctx va len n old)) h

theorem Io.Keeps.touchAll {ctx : Nat} {n : Need} {write reads : Bool} {l : List (Nat × Nat × Bool)} :
    (touchAll ctx n write reads l).Keeps :=
  fun s h => Mem.wf_congr (State.bytes_of_kept (kept_touchAll ctx n write reads l s)) h

theorem Canon.viewPieces {thr : Bool} {ps : List (Nat × Nat × Bool)} {s : State} (h : Canon s) : Canon (viewPieces thr ps s).2 :=
  State.wf_viewPieces _ _ _ h

theorem Canon.storePieces {thr : Bool} {ps : List (Nat × Nat × Bool)} {bs : List Byte} {s : State} (h : Canon s) :
    Canon (storePieces thr ps bs s) := State.wf_storePieces _ _ _ _ h

theorem Io.Keeps.memReadN {n : Need} {ctx va len : Nat} {old : Bool} : (memReadN n ctx va len old).Keeps :=
  fun s h => Mem.wf_congr (State.bytes_of_kept (kept_memReadN n ctx va len old s)) h

theorem Io.Keeps.memRead {ctx va len : Nat} {old : Bool} : (memRead ctx va len old).Keeps := .memReadN

theorem Io.Keeps.memWrite_go {ctx : Nat} {old : Bool} {ps : List (Nat × Nat × Bool)} {b : List Byte} : (memWrite.go ctx old ps b).Keeps := by
  induction ps generalizing b with
  | nil => exact .pure
  | cons p t ih =>
    unfold memWrite.go
    exact .bind .touchAll fun _ => .bind (fun s h => Canon.storePieces h) fun _ => ih

theorem Io.Keeps.memWrite {ctx va : Nat} {bs : List Byte} {old : Bool} : (memWrite ctx va bs old).Keeps :=
  .bind .translate fun _ => .memWrite_go

theorem Io.Keeps.memModify {ctx va len : Nat} {f : List Byte → List Byte} {old : Bool} : (memModify ctx va len f old).Keeps :=
  .bind .translate fun _ => .bind .touchAll fun _ _ h => Canon.storePieces (.viewPieces h)

theorem Canon.writeDropped {s : State} {ctx va : Nat} {bs : List Byte} (h : Canon s) : Canon (s.writeDropped ctx va bs) := .io .memWrite h

/-! The free pool (R202, R206). -/

theorem Canon.charge {s : State} {ctx n : Nat} (h : Canon s) : Canon (s.charge ctx n) := .modCtx h

theorem Canon.uncharge {s : State} {ctx n : Nat} (h : Canon s) : Canon (s.uncharge ctx n) := .modCtx h

theorem Canon.dropMap {s : State} {ctx va : Nat} (h : Canon s) : Canon (s.dropMap ctx va) := by
  unfold State.dropMap
  split
  · exact h
  · split
    · exact .modCtx h
    · exact .memFields (.modCtx h)

theorem Canon.chooseVa {s : State} {ctx len : Nat} (h : Canon s) : Canon (s.chooseVa ctx len).2 := by
  unfold State.chooseVa
  split <;> exact .draw h

/-! Naming (R163). -/

theorem Canon.putFlow {s : State} {fid : Nat} {f : Flow} (h : Canon s) : Canon (s.putFlow fid f) := .ite h h

theorem Canon.modFlow {s : State} {fid : Nat} {g : Flow → Flow} (h : Canon s) : Canon (s.modFlow fid g) := by
  unfold State.modFlow
  split
  · exact h
  · exact .putFlow h

/-! Entering (R166, R171, R179). -/

theorem Canon.offer {s : State} {fid : Nat} {body : List Byte} {srcKind srcId status fpflags cflags : Nat} (h : Canon s) :
    Canon (s.offer fid body srcKind srcId status fpflags cflags).2 := by
  unfold State.offer
  split
  · exact h
  · split
    · exact h
    · split
      · exact h
      · exact .putFlow h

/-! Release (R175 to R178). -/

theorem Canon.readCons {s : State} {f : Flow} (h : Canon s) : Canon (readCons s f).2 := by
  unfold Machine.readCons
  split <;> (rename_i e; exact .of_snd e (.io .memRead h))

theorem Canon.releaseOne {s u : State} {fid : Nat} {f : Flow} {x : Held} (e : releaseOne s fid f x = some u) (h : Canon s) : Canon u := by
  unfold Machine.releaseOne at e
  dsimp only at e
  split at e
  · rw [← Option.some.inj e]; exact .putFlow h
  · split at e
    · rw [Option.ite_none_right_eq_some] at e
      rw [← Option.some.inj e.2]
      exact .putFlow (.io .memWrite (.readCons h))
    · split at e
      · cases e
      · rename_i ho
        rw [← Option.some.inj e]
        exact .putFlow (.of_snd ho (.offer h))

theorem Canon.releaseLoop {fid n : Nat} {s : State} (h : Canon s) : Canon (releaseLoop fid n s) := by
  induction n generalizing s with
  | zero => exact h
  | succ _ ih =>
    unfold Machine.releaseLoop
    split
    · exact h
    · split
      · exact h
      · split
        · exact h
        · rename_i e2
          exact ih (.modFlow (.releaseOne e2 h))

theorem Canon.release {s : State} {fid : Nat} (h : Canon s) : Canon (s.release fid) := by
  unfold State.release
  split
  · exact h
  · exact .releaseLoop h

/-! Graph queues (R186, R187). -/

theorem Canon.putGraph {s : State} {q : Nat} {g : Graph} (h : Canon s) : Canon (s.putGraph q g) := h

theorem Canon.graphReady {q i : Nat} {s : State} (h : Canon s) : Canon (graphReady q i s) := by
  unfold Machine.graphReady
  split
  · exact h
  · exact .modFlow (.putGraph h)

theorem Canon.graphDecr {q : Nat} {s : State} {i : Nat} (h : Canon s) : Canon (graphDecr q s i) := by
  unfold Machine.graphDecr
  split
  · exact h
  · exact .ite (.graphReady (.putGraph h)) (.putGraph h)

theorem Canon.graphEnd {q : Nat} {s : State} (h : Canon s) : Canon (graphEnd q s) := by
  unfold Machine.graphEnd
  split
  · exact h
  · exact .ite (.finishAll (.finishAll h)) h

theorem Canon.graphRetire {q i status : Nat} {s : State} (h : Canon s) : Canon (graphRetire q i status s) := by
  unfold Machine.graphRetire
  split
  · exact h
  · exact .graphEnd (.ite (.foldl (fun _ _ ha => .graphDecr ha) (.putGraph h)) (.putGraph h))

/-! Retirement (R125, R175). -/

theorem Canon.dropHeld {s : State} {t : Nat} (h : Canon s) : Canon (s.dropHeld t) := .ite (.modPod (.modThread h)) (.modThread h)

theorem Canon.giveItem {s : State} {t : Nat} {i : Item} (h : Canon s) : Canon (s.giveItem t i) := .modThread (.ite (.modPod h) h)

theorem Canon.retire {s : State} {t status : Nat} {faulted : Bool} (h : Canon s) : Canon (s.retire t status faulted) := by
  unfold State.retire
  dsimp only
  split
  · exact h
  · exact .ite (.dropHeld h) (.ite (.ite (.graphRetire (.modFlow (.dropHeld h))) (.modFlow (.dropHeld h))) (.release (.modFlow (.dropHeld
      h))))

/-! Descriptor parity (R193, R525). -/

theorem Canon.discardItem {s : State} {fid k : Nat} (h : Canon s) : Canon (s.discardItem fid k) := by
  unfold State.discardItem
  split
  · exact h
  · split
    · exact .ite (.ite (.graphRetire (.putFlow h)) (.putFlow h)) (.ite (.release (.putFlow h)) (.putFlow h))
    · split
      · exact h
      · exact .ite (.release (.putFlow h)) (.ite (.graphRetire (.putFlow h)) (.putFlow h))

theorem Canon.dropItem {s : State} {fid k : Nat} {inj : Bool} (h : Canon s) : Canon (s.dropItem fid k inj) := by
  unfold State.dropItem
  split
  · exact h
  · exact .ite h (.discardItem (.ite (.fireInjected h) (.fire h)))

/-! Handing out (R172). -/

theorem Canon.unwait {s : State} {t : Nat} (h : Canon s) : Canon (s.unwait t) := h

theorem Canon.handOut {s : State} {t fid k d : Nat} (h : Canon s) : Canon (s.handOut t fid k d) := by
  unfold State.handOut
  split
  · exact h
  · split
    · exact h
    · exact .modThread (.giveItem (.fields (.unwait (.putFlow h))))

/-! Starting (R134). -/

theorem Canon.start {s : State} {t h1 : Nat} (h : Canon s) : Canon (s.start t h1) := by
  unfold State.start
  split
  · exact h
  · exact .modThread h

theorem Canon.unbind {s : State} {t : Nat} (h : Canon s) : Canon (s.unbind t) := .modThread h

/-! What an access meets in memory (R215 to R218). -/

theorem Canon.meet {s : State} {ctx va : Nat} {ev : MemEvent} (h : Canon s) : Canon (s.meet ctx va ev).2 := by
  unfold State.meet
  dsimp only
  split
  · exact h
  · split
    · exact h
    · split <;> exact h
    · split
      · exact h
      · split
        · exact .written h
        · exact h
    · split <;> exact h
    · split
      · exact .fire (.modChannel h)
      · exact h
    · split
      · exact .countRefused (.fire (.modChannel h))
      · exact h

theorem Canon.readList {ctx : Nat} {thr : Bool} {l : List (Nat × Nat)} {l1 : List Nat} {s : State} (h : Canon s) :
    Canon (readList ctx thr l l1 s).2 := by
  induction l generalizing l1 s with
  | nil => exact h
  | cons _ _ ih =>
    unfold Machine.readList
    dsimp only
    split
    · rename_i e
      refine .of_snd e ?_
      split
      · exact .countRefused h
      · split
        · exact .view h
        · split
          · rename_i e2
            exact .view (.of_fst e2 (.pieceAccess h))
          · rename_i e2
            exact .countRefused (.of_fst e2 (.pieceAccess h))
    · rename_i e
      split
      · rename_i e1
        refine .of_snd e1 (ih (.of_snd e ?_))
        split
        · exact .countRefused h
        · split
          · exact .view h
          · split
            · rename_i e3
              exact .view (.of_fst e3 (.pieceAccess h))
            · rename_i e3
              exact .countRefused (.of_fst e3 (.pieceAccess h))
      · rename_i e1
        refine .of_snd e1 (ih (.of_snd e ?_))
        split
        · exact .countRefused h
        · split
          · exact .view h
          · split
            · rename_i e3
              exact .view (.of_fst e3 (.pieceAccess h))
            · rename_i e3
              exact .countRefused (.of_fst e3 (.pieceAccess h))

/-! Outstanding stores (R116, R118). -/

theorem Canon.storeTry {ctx : Nat} {l : List (Nat × List Byte)} {s : State} (h : Canon s) : Canon (storeTry ctx l s).2 := by
  induction l generalizing s with
  | nil => exact h
  | cons _ _ ih =>
    unfold Machine.storeTry
    split
    · rename_i e
      exact ih (.of_snd e (.io .memWrite h))
    · rename_i e
      exact .of_snd e (.io .memWrite h)

theorem Canon.scramble {s : State} {ctx va n : Nat} (h : Canon s) : Canon (s.scramble ctx va n) := by
  unfold State.scramble
  refine .foldl (fun _ _ ha => ?_) (.drawBytes h)
  split
  · exact ha
  · exact .written ha

theorem Canon.pokeElem {ctx va len : Nat} {f : List Byte → List Byte} {s : State} (h : Canon s) : Canon (pokeElem ctx va len f s) := by
  unfold Machine.pokeElem
  split
  · exact h
  · exact .store (.view h)

theorem Canon.partialElems {ctx bad : Nat} {els : List (Nat × Nat × (List Byte → List Byte))} {s : State} (h : Canon s) :
    Canon (partialElems ctx bad els s) := .foldl (fun _ _ ha => .ite ha (.ite (.pokeElem (.draw ha)) (.draw ha))) h

theorem Canon.run {st : StoreOp} {ctx : Nat} {s : State} (h : Canon s) : Canon (st.run ctx s).2 := by
  unfold StoreOp.run
  split
  · rename_i e
    exact .of_snd e (.storeTry h)
  · exact .partialElems h

theorem Canon.drainStores {s : State} {t : Nat} {below : optParam Nat (2 ^ 64)} (h : Canon s) : Canon (s.drainStores t below).2 := by
  unfold State.drainStores
  refine .modThread (foldl_inv (P := fun a : Option (Nat × Nat × Err) × State => Canon a.2) (fun _ _ hk => ?_) h)
  split <;> (rename_i e; exact .of_snd e (.run hk))

/-! Blocking (R91). -/

theorem Canon.wake {s : State} {t : Nat} (h : Canon s) : Canon (s.wake t) := .modThread h

theorem Canon.block {s : State} {t : Nat} {b : Block} (h : Canon s) : Canon (s.block t b) := .modThread h

/-! Steps 3 to 6 of a fault (R132). -/

theorem Canon.wakePod {s : State} {p : Nat} (h : Canon s) : Canon (s.wakePod p) := .foldl (fun _ _ ha => .modThread ha) h

theorem Canon.quiesce {s : State} {t : Nat} (h : Canon s) : Canon (s.quiesce t) := .wakePod (.modThread (.unwait (.drainStores h)))

theorem Canon.restart {s : State} {t : Nat} (h : Canon s) : Canon (s.restart t) := by
  have hq : Canon (s.quiesce t) := .quiesce h
  unfold State.restart
  dsimp only
  generalize s.quiesce t = u at hq ⊢
  split
  · exact hq
  · exact .start hq

theorem Canon.quarantineThread {t : Nat} {s : State} (h : Canon s) : Canon (quarantineThread t s) := .modThread (.quiesce h)

theorem Canon.stopEnd {s : State} {t : Nat} (h : Canon s) : Canon (s.stopEnd t) := .ite (.quarantineThread h) (.restart h)

/-! Tags and the end of unit operations (R126). -/

theorem Canon.tagDone {s : State} {t k epoch packed : Nat} (h : Canon s) : Canon (s.tagDone t k epoch packed) :=
  .ite (.ite (.stopEnd (.modThread h)) (.modThread h)) h

theorem Canon.endOp {s : State} {iss : Issuer} {ctx : Nat} {e : OpEnd} (h : Canon s) : Canon (s.endOp iss ctx e) := by
  unfold State.endOp
  dsimp only
  split
  · exact .finish (.ite (.countRefused h) h)
  · exact .ite (.ite (.countRefused h) h) (.tagDone (.ite (.ite (.countRefused h) h) (.writeDropped (.ite (.countRefused h) h))))

theorem Canon.failOp {s : State} {iss : Issuer} {ctx kind consumed produced : Nat} {e : Err} (h : Canon s) :
    Canon (s.failOp iss ctx kind consumed produced e) := .endOp h

/-! Faults (R132, R133). -/

theorem Canon.faultRecord {s : State} {t pc addr : Nat} {e : Err} (h : Canon s) : Canon (faultRecord s t pc addr e) := by
  unfold Machine.faultRecord
  split
  · exact h
  · split
    · exact h
    · exact .ite (.countFault h) (.writeDropped (.countFault h))

theorem Canon.stop {s : State} {t status : Nat} (h : Canon s) : Canon (s.stop t status) :=
  .ite (.block (.unwait (.retire h))) (.stopEnd (.retire h))

theorem Canon.fault {s : State} {t pc addr : Nat} {e : Err} (h : Canon s) : Canon (s.fault t pc addr e) := .stop (.faultRecord h)

/-! Fetch (R100, R131). -/

theorem Canon.podFetch {s : State} {t : Nat} (h : Canon s) : Canon (podFetch s t).2 := by
  unfold Machine.podFetch
  dsimp only
  split
  · exact h
  · split
    · rename_i e
      exact .of_snd e (.io .memReadN h)
    · rename_i e
      split
      · split <;> (rename_i e2; exact .of_snd e2 (.io .memReadN (.of_snd e (.io .memReadN h))))
      · exact .of_snd e (.io .memReadN h)

/-! The Pod's choice (R92). -/

theorem Canon.sortFree {s : State} {p : Nat} (h : Canon s) : Canon (s.sortFree p) := .fields (.modPod h)

theorem Canon.sortBeat {s : State} {p : Nat} (h : Canon s) : Canon (s.sortBeat p) := by
  unfold State.sortBeat
  split
  · exact h
  · exact .sortFree h
  · exact .modPod h

theorem Canon.turned {s : State} {t : Nat} (h : Canon s) : Canon (s.turned t) := .modPod (.sortBeat h)

/-! Issue. -/

theorem Canon.perform {r : Row} {t : Nat} {w : Insn} {s : State} (hr : r.Canonical) (h : Canon s) : Canon (r.perform t w s) := by
  unfold Row.perform
  split
  · rename_i e
    exact .modThread (Issue.AllCanon.of_next e (Row.Canonical.run hr h))
  · rename_i e
    exact .modThread (Issue.AllCanon.of_goto e (Row.Canonical.run hr h))
  · rename_i e
    exact Issue.AllCanon.of_stay e (Row.Canonical.run hr h)
  · rename_i e
    exact .fault (Issue.AllCanon.of_fault e (Row.Canonical.run hr h))

theorem Canon.issue {r : Row} {t : Nat} {w : Insn} {s : State} (hr : r.Canonical) (h : Canon s) : Canon (r.issue t w s) := by
  have hf {q : Except (Nat × Err) Insn} {u : State} (e : Machine.podFetch (s.turned t) t = (q, u)) : Canon u := .of_snd e (.podFetch
    (.turned h))
  unfold Row.issue
  dsimp only
  split
  · exact h
  · split
    · rename_i e
      exact .fault (hf e)
    · rename_i e
      have hu := hf e
      split
      · exact h
      · split
        · exact .fault hu
        · split
          · exact .fault (.fireInjected hu)
          · exact .ite (.block hu) (.perform hr hu)

theorem Canon.onThread {f : Thread → Insn → Thread} {t : Nat} {w : Insn} {s : State} (h : Canon s) : (onThread f t w s).AllCanon :=
  .modThread h

/-! Scalar instructions: SALU, the immediate forms, SFP, branches and jumps (R102 to R105). -/

theorem Canon.rowSalu : rowSalu.Canonical := by
  intro t w s h
  dsimp only [Machine.rowSalu]
  exact Canon.onThread h

theorem Canon.rowAddi : rowAddi.Canonical := by
  intro t w s h
  dsimp only [Machine.rowAddi]
  exact Canon.onThread h

theorem Canon.rowShi : rowShi.Canonical := by
  intro t w s h
  dsimp only [Machine.rowShi]
  exact Canon.onThread h

theorem Canon.rowLih : rowLih.Canonical := by
  intro t w s h
  dsimp only [Machine.rowLih]
  exact Canon.onThread h

/-! SFP (R104, R149, R154). -/

theorem Canon.rowSfp : rowSfp.Canonical := by
  intro t w s h
  dsimp only [Machine.rowSfp]
  exact Canon.onThread h

/-! Branches and jumps (R100, R105). -/

theorem Canon.rowBr : rowBr.Canonical := by
  intro t w s h
  dsimp only [Machine.rowBr]
  split <;> exact h

theorem Canon.rowJal : rowJal.Canonical := by
  intro t w s h
  dsimp only [Machine.rowJal]
  exact .modThread h

theorem Canon.rowJalr : rowJalr.Canonical := by
  intro t w s h
  dsimp only [Machine.rowJalr]
  exact .modThread h

/-! The rows. -/

theorem Canon.execSalu {t : Fin 8192} {w : Insn} {s : State} (h : Canon s) : OutCanon (execSalu t w s) := .issue Canon.rowSalu h

theorem Canon.execAddi {t : Fin 8192} {w : Insn} {s : State} (h : Canon s) : OutCanon (execAddi t w s) := .issue Canon.rowAddi h

theorem Canon.execShi {t : Fin 8192} {w : Insn} {s : State} (h : Canon s) : OutCanon (execShi t w s) := .issue Canon.rowShi h

theorem Canon.execLih {t : Fin 8192} {w : Insn} {s : State} (h : Canon s) : OutCanon (execLih t w s) := .issue Canon.rowLih h

theorem Canon.execSfp {t : Fin 8192} {w : Insn} {s : State} (h : Canon s) : OutCanon (execSfp t w s) := .issue Canon.rowSfp h

theorem Canon.execBr {t : Fin 8192} {w : Insn} {s : State} (h : Canon s) : OutCanon (execBr t w s) := .issue Canon.rowBr h

theorem Canon.execJal {t : Fin 8192} {w : Insn} {s : State} (h : Canon s) : OutCanon (execJal t w s) := .issue Canon.rowJal h

theorem Canon.execJalr {t : Fin 8192} {w : Insn} {s : State} (h : Canon s) : OutCanon (execJalr t w s) := .issue Canon.rowJalr h

/-! Checks before an access (R116, R131). -/

theorem Canon.checkElems {ctx : Nat} {n : Need} {size : Nat} {l : List Nat} {s : State} (h : Canon s) :
    Canon (checkElems ctx n size l s).2 := by
  induction l with
  | nil => exact h
  | cons _ _ ih =>
    unfold Machine.checkElems
    split
    · exact .countRefused h
    · split
      · exact h
      · exact ih

theorem Canon.checked {t : Nat} {n : Need} {size : Nat} {addrs : List Nat} {s : State} {go : State → Issue} (h : Canon s)
    (hgo : ∀ (a : State), Canon a → (go a).AllCanon) : (checked t n size addrs s go).AllCanon := by
  unfold Machine.checked
  split
  · rename_i e
    exact .of_snd e (.checkElems h)
  · rename_i e
    exact hgo _ (.of_snd e (.checkElems h))

/-! Slots and the tracker (R93). -/

theorem Canon.takeSlot {t n : Nat} {op : SlotOp} {s : State} (h : Canon s) : (takeSlot t n op s).AllCanon := by
  unfold Machine.takeSlot
  dsimp only
  split
  · exact .block h
  · split
    · exact .block h
    · exact .modThread h

theorem Canon.withStores {t : Nat} {s : State} {go : State → Issue} (h : Canon s) (hgo : ∀ (a : State), Canon a → (go a).AllCanon) :
    (withStores t s go).AllCanon := by
  unfold Machine.withStores
  dsimp only
  split
  · exact h
  · split
    · exact .block h
    · split
      · rename_i e
        exact .fault (.of_snd e (.drainStores h))
      · rename_i e
        exact hgo _ (.of_snd e (.drainStores h))

/-! Scalar loads and stores (R114). -/

theorem Canon.rowLd : rowLd.Canonical := by
  intro t w s h
  dsimp only [Machine.rowLd]
  exact Canon.checked h (fun _ ha => Canon.takeSlot ha)

theorem Canon.rowSt : rowSt.Canonical := by
  intro t w s h
  dsimp only [Machine.rowSt]
  exact Canon.checked h (fun _ ha => .modThread ha)

/-! Vector loads and stores (R115). -/

theorem Canon.rowVld : rowVld.Canonical := by
  intro t w s h
  dsimp only [Machine.rowVld]
  exact Canon.checked h (fun _ ha => Canon.takeSlot ha)

theorem Canon.rowVst : rowVst.Canonical := by
  intro t w s h
  dsimp only [Machine.rowVst]
  exact Canon.checked h (fun _ ha => .modThread ha)

/-! Atomics (R117). -/

theorem Canon.rowAtom : rowAtom.Canonical := by
  intro t w s h
  dsimp only [Machine.rowAtom]
  split <;> exact Canon.checked h (fun _ ha => Canon.takeSlot ha)

/-! FENCE (R118). -/

theorem Canon.rowFence : rowFence.Canonical := by
  intro t w s h
  dsimp only [Machine.rowFence]
  split
  · exact Canon.withStores h (fun _ ha => ha)
  · exact .block h

/-! HASHS (R120). -/

theorem Canon.rowHashs : rowHashs.Canonical := by
  intro t w s h
  dsimp only [Machine.rowHashs]
  split
  · exact h
  · exact Canon.checked h (fun _ ha => Canon.takeSlot ha)

/-! Completion of loads (R93, R94, R118). -/

theorem Canon.vatomicTry {ctx : Nat} {float : Bool} {l : List (Nat × Nat)} {s : State} (h : Canon s) : Canon (vatomicTry ctx float l s).2 := by
  induction l generalizing s with
  | nil => exact h
  | cons _ _ ih =>
    unfold Machine.vatomicTry
    split
    · rename_i e
      exact ih (.of_snd e (.io .memModify h))
    · rename_i e
      exact .of_snd e (.io .memModify h)

theorem Canon.land {o : SlotOp} {ctx : Nat} {s : State} (h : Canon s) : (o.land ctx s).AllCanon := by
  unfold SlotOp.land
  dsimp only
  split
  · split <;> (rename_i e; exact .of_snd e (.readList h))
  · split <;> (rename_i e; exact .of_snd e (.readList h))
  · split <;> (rename_i e; exact .of_snd e (.io .memModify h))
  · split
    · rename_i e
      exact .of_snd e (.vatomicTry h)
    · exact .partialElems h
  · split
    · rename_i e
      split <;> exact .of_snd e (.readList h)
    · rename_i e
      exact .of_snd e (.readList h)
  · split <;> exact h
  · exact h

theorem Canon.takeGroup {t k : Nat} {s : State} (h : Canon s) : Canon (takeGroup t k s) := by
  unfold Machine.takeGroup
  split
  · exact h
  · exact .ite h (.modThread h)

theorem Canon.loadComplete {t k : Nat} {ev : MemEvent} {s : State} (h : Canon s) : Canon (loadComplete t k ev s) := by
  unfold Machine.loadComplete
  dsimp only
  split
  · exact h
  · split
    · exact h
    · split
      · exact h
      · split
        · exact .takeGroup h
        · split
          · rename_i e1
            exact .fault (.of_snd e1 (.drainStores h))
          · rename_i e1
            split
            · rename_i e2
              refine .fault (.of_snd e2 ?_)
              split
              · exact .of_snd e1 (.drainStores h)
              · exact .meet (.of_snd e1 (.drainStores h))
            · rename_i e2
              split
              · rename_i e3
                refine .fault (Landed.AllCanon.of_failed e3 (Canon.land (.of_snd e2 ?_)))
                split
                · exact .of_snd e1 (.drainStores h)
                · exact .meet (.of_snd e1 (.drainStores h))
              · rename_i e3
                refine .wakePod (.takeGroup (.modThread (Landed.AllCanon.of_more e3 (Canon.land (.of_snd e2 ?_)))))
                split
                · exact .of_snd e1 (.drainStores h)
                · exact .meet (.of_snd e1 (.drainStores h))
              · rename_i e3
                refine .wakePod (.modThread (Landed.AllCanon.of_done e3 (Canon.land (.of_snd e2 ?_))))
                split
                · exact .of_snd e1 (.drainStores h)
                · exact .meet (.of_snd e1 (.drainStores h))

theorem Canon.storeEvent {ctx : Nat} {st : StoreOp} {ev : MemEvent} {s : State} (h : Canon s) : Canon (storeEvent ctx st ev s).2 := by
  unfold Machine.storeEvent
  split
  · exact h
  · split
    · split
      · exact h
      · exact .countRefused (.fire h)
    · split <;> (rename_i e1; exact .of_snd e1 (.meet h))

theorem Canon.storeComplete {t k : Nat} {ev : MemEvent} {s : State} (h : Canon s) : Canon (storeComplete t k ev s) := by
  unfold Machine.storeComplete
  dsimp only
  split
  · exact h
  · split
    · exact h
    · split
      · exact h
      · split
        · refine .modThread ?_
          split
          · rename_i e2
            exact .partialElems (.of_snd e2 (.storeEvent h))
          · rename_i e2
            exact .run (.of_snd e2 (.storeEvent h))
        · refine .fault (.modThread ?_)
          split
          · rename_i e2
            exact .partialElems (.of_snd e2 (.storeEvent h))
          · rename_i e2
            exact .run (.of_snd e2 (.storeEvent h))

/-! The rows. -/

theorem Canon.execLd {t : Fin 8192} {w : Insn} {s : State} (h : Canon s) : OutCanon (execLd t w s) := .issue Canon.rowLd h

theorem Canon.execSt {t : Fin 8192} {w : Insn} {s : State} (h : Canon s) : OutCanon (execSt t w s) := .issue Canon.rowSt h

theorem Canon.execVld {t : Fin 8192} {w : Insn} {s : State} (h : Canon s) : OutCanon (execVld t w s) := .issue Canon.rowVld h

theorem Canon.execVst {t : Fin 8192} {w : Insn} {s : State} (h : Canon s) : OutCanon (execVst t w s) := .issue Canon.rowVst h

theorem Canon.execAtom {t : Fin 8192} {w : Insn} {s : State} (h : Canon s) : OutCanon (execAtom t w s) := .issue Canon.rowAtom h

theorem Canon.execFence {t : Fin 8192} {w : Insn} {s : State} (h : Canon s) : OutCanon (execFence t w s) := .issue Canon.rowFence h

theorem Canon.execHashs {t : Fin 8192} {w : Insn} {s : State} (h : Canon s) : OutCanon (execHashs t w s) := .issue Canon.rowHashs h

theorem Canon.execLoadComplete {t : Fin 8192} {slot : Fin 8} {ev : MemEvent} {s : State} (h : Canon s) :
    OutCanon (execLoadComplete t slot ev s) := .loadComplete h

theorem Canon.execStoreComplete {t : Fin 8192} {k : Nat} {ev : MemEvent} {s : State} (h : Canon s) :
    OutCanon (execStoreComplete t k ev s) := .storeComplete h

/-! How a received RCP frame is checked and answered: steps 5 to 16 of R64, request IDs and the replay cache (R76 to R78), the command catalogue (R88). -/

theorem Canon.frameAnswer {f : Frame} {op status : Nat} {payload : List Byte} {s : State} (h : Canon s) :
    Canon (frameAnswer f op status payload s) := .sendRcp h

theorem Canon.frameAnswerIn {f : Frame} {x : Session} {op : Nat} {e : Err} {s : State} (h : Canon s) : Canon (frameAnswerIn f x op e s) :=
  .sendRcp h

theorem Canon.frameComplete {f : Frame} {op status : Nat} {payload : List Byte} {s : State} (h : Canon s) :
    Canon (frameComplete f op status payload s) := .complete h

theorem Canon.frameInFlight {f : Frame} {op : Nat} {w : Wait} {s : State} (h : Canon s) : Canon (frameInFlight f op w s) :=
  .fields (.modSession h)

theorem Canon.rcpExecute {op : Nat} {g : Handler} {f : Frame} {x : Session} {s : State} (hg : g.Canonical) (h : Canon s) :
    Canon (rcpExecute op g f x s) := by
  have hr := hg f f.sessionId.toNat x s h
  unfold Machine.rcpExecute
  split <;> rename_i e <;> rw [e] at hr
  · exact .frameComplete hr
  · exact hr.2 _ (.frameComplete hr.1)
  · exact .frameComplete hr
  · exact .frameComplete hr
  · exact .frameInFlight hr
  · exact hr.2 _ (.frameInFlight hr.1)

theorem Canon.rcpReplay {op : Nat} {h1 : Handler} {f : Frame} {x : Session} {s : State} (hh1 : h1.Canonical) (h : Canon s) :
    Canon (rcpReplay op h1 f x s) := by
  unfold Machine.rcpReplay
  split
  · exact .sendRcp h
  · split
    · exact h
    · split
      · exact .frameAnswerIn h
      · split
        · exact .frameComplete h
        · exact .ite (.frameInFlight h) (.rcpExecute hh1 h)

theorem Canon.rcpSession {op : Nat} {h1 : Handler} {f : Frame} {s : State} (hh1 : h1.Canonical) (h : Canon s) :
    Canon (rcpSession op h1 f s) := by
  unfold Machine.rcpSession
  split
  · exact .frameAnswer h
  · exact .ite h (.ite (.frameAnswerIn h) (.ite (.frameAnswerIn h) (.rcpReplay hh1 (.modSession h))))

theorem Canon.rcpGate {op : Nat} {f : Frame} {s : State} {run : State → State} (h : Canon s)
    (hrun : ∀ (a : State), Canon a → Canon (run a)) : Canon (rcpGate op f s run) := by
  unfold Machine.rcpGate
  split
  · split
    · exact hrun _ h
    · exact hrun _ h
    · exact h
    · exact h
    · exact h
    · exact h
  · exact h

theorem Canon.rcpRun {op : Nat} {h1 : Handler} {f : Frame} {s : State} (hh1 : h1.Canonical) (h : Canon s) : Canon (rcpRun op h1 f s) :=
  .rcpGate h (fun _ ha => .rcpSession hh1 ha)

theorem Canon.rcpAction {op off act : Nat} {h1 : Handler} {f : Frame} {s : State} (hh1 : h1.Canonical) (h : Canon s) :
    Canon (rcpAction op off act h1 f s) := .ite (.rcpRun hh1 h) h

theorem Canon.check {fails : List (Bool × Err)} {s : State} {go : Reply} (h : Canon s) (hgo : go.AllCanon) :
    (Reply.check fails s go).AllCanon := by
  unfold Reply.check
  split
  · exact h
  · exact hgo

/-! Issue (R126, R130). -/

theorem Canon.asyncIssue {t : Nat} {w : Insn} {record kind : Nat} {s : State} {go : Issuer → State → State} (h : Canon s)
    (hgo : ∀ (a : Issuer) (b : State), Canon b → Canon (go a b)) : (asyncIssue t w record kind s go).AllCanon := by
  unfold Machine.asyncIssue
  dsimp only
  split
  · exact h
  · split
    · exact .block h
    · exact Canon.withStores h (fun _ ha => hgo _ _ (.modThread (.draw ha)))

/-! Descriptors. -/

theorem Canon.rejectOp {s : State} {iss : Issuer} {ctx kind : Nat} {refused : Option Err} {e : Err} (h : Canon s) :
    Canon (s.rejectOp iss ctx kind refused e) := .failOp (.fire (.ite (.countRefused h) h))

theorem Canon.checkJob {s : State} {iss : Issuer} {ctx kind argDetail : Nat} {refused : Option Err} {fails : List (Bool × Err)}
    {go : State → State} (h : Canon s) (hgo : ∀ (a : State), Canon a → Canon (go a)) :
    Canon (s.checkJob iss ctx kind argDetail refused fails go) := by
  unfold State.checkJob
  split
  · exact .failOp (.fireInjected h)
  · split
    · exact .rejectOp h
    · exact hgo _ h

theorem Canon.checkOp {s : State} {iss : Issuer} {ctx kind argDetail : Nat} {fails : List (Bool × Err)} {go : State → State} (h : Canon s)
    (hgo : ∀ (a : State), Canon a → Canon (go a)) : Canon (s.checkOp iss ctx kind argDetail fails go) := .checkJob h hgo

theorem Canon.withDesc {s : State} {iss : Issuer} {ctx addr n kind : Nat} {go : List Byte → State → State} (h : Canon s)
    (hgo : ∀ (a : List Byte) (b : State), Canon b → Canon (go a b)) : Canon (s.withDesc iss ctx addr n kind go) := by
  unfold State.withDesc
  split
  · rename_i e
    exact hgo _ _ (.of_snd e (.io .memRead h))
  · rename_i e
    exact .failOp (.of_snd e (.io .memRead h))

theorem Canon.emit {s : State} {fid : Nat} {body : List Byte} {srcKind srcId : Nat} (h : Canon s) :
    Canon (s.emit fid body srcKind srcId).2 := by
  unfold State.emit
  split <;> (rename_i e; exact .of_snd e (.offer h))

/-! Engines. -/

theorem Canon.setTable {s : State} {e : Nat} {x : Engine TableJob} (h : Canon s) : Canon (s.setTable e x) := h

theorem Canon.setCol {s : State} {e : Nat} {x : Engine ColJob} (h : Canon s) : Canon (s.setCol e x) := h

/-! Suspension and end (R81 to R84). -/

theorem Canon.dropSusp {s : State} {h1 : Nat} (h : Canon s) : Canon (s.dropSusp h1) := .ite h h

theorem Canon.endJob {s : State} {h1 : JobHead} {kind : Nat} {e : Err} (h : Canon s) : Canon (s.endJob h1 kind e) := .failOp (.dropSusp h)

theorem Canon.takeHandle {s : State} {h1 : JobHead} {job : UnitJob} (h : Canon s) : Canon (s.takeHandle h1 job).2 := by
  unfold State.takeHandle
  split
  · exact h
  · split
    · exact h
    · exact .fields (.fresh h)

theorem Canon.parkJob {s : State} {h1 : JobHead} {kind stateAddr : Nat} {job : UnitJob} (h : Canon s) :
    Canon (s.parkJob h1 kind stateAddr job) := .endOp h

theorem Canon.suspendJob {s : State} {h1 : JobHead} {kind stateAddr : Nat} {mk : JobHead → UnitJob} (h : Canon s) :
    Canon (s.suspendJob h1 kind stateAddr mk) := by
  unfold State.suspendJob
  split
  · rename_i e
    exact .endJob (.of_snd e (.takeHandle h))
  · rename_i e
    exact .parkJob (.of_snd e (.takeHandle h))

theorem Canon.saveArea {s : State} {ctx addr n : Nat} (h : Canon s) : Canon (s.saveArea ctx addr n).2 := by
  unfold State.saveArea
  dsimp only
  split <;> (rename_i e; exact .of_snd e (.io .memWrite (.drawBytes h)))

theorem Canon.areaIntact {s : State} {ctx addr : Nat} {saved : List Byte} (h : Canon s) : Canon (s.areaIntact ctx addr saved).2 := by
  unfold State.areaIntact
  split <;> (rename_i e; exact .of_snd e (.io .memRead h))

/-! Operations whose output is undefined where another access meets it (R5). -/

theorem Canon.watchOp {s : State} {w : Watch} (h : Canon s) : Canon (s.watchOp w) := h

theorem Canon.unwatch {s : State} {o : OutputOf} (h : Canon s) : Canon (s.unwatch o) := h

theorem Canon.modWatch {s : State} {o : OutputOf} {f : Watch → Watch} (h : Canon s) : Canon (s.modWatch o f) := h

theorem Canon.ownWrite {s : State} {o : OutputOf} {ctx va : Nat} {bs : List Byte} (h : Canon s) : Canon (s.ownWrite o ctx va bs).2 := by
  unfold State.ownWrite
  split
  · exact .io .memWrite h
  · exact .foldl (fun _ _ ha => .scramble ha) (.memFields (.io .memWrite (.unwatch h)))

theorem Canon.writeSome {s : State} {o : OutputOf} {ctx va : Nat} {bs : List Byte} (h : Canon s) : Canon (s.writeSome o ctx va bs).2.2 := by
  unfold State.writeSome
  refine foldl_inv (P := fun a : Nat × Option Err × State => Canon a.2.2) (fun _ _ hk => ?_) h
  split
  · exact hk
  · split <;> (rename_i e1; exact .of_snd e1 (.ownWrite hk))

theorem Canon.readSome {s : State} {ctx va n : Nat} (h : Canon s) : Canon (s.readSome ctx va n).2.2 := by
  unfold State.readSome
  refine foldl_inv (P := fun a : List Byte × Option Err × State => Canon a.2.2) (fun _ _ hk => ?_) h
  split
  · exact hk
  · split <;> (rename_i e1; exact .of_snd e1 (.io .memRead hk))

/-! UNIT JOB (R130). -/

theorem Canon.rowJob {kind : Nat} {go : Issuer → Nat → Nat → State → State}
    (hgo : ∀ (a : Issuer) (b c : Nat) (d : State), Canon d → Canon (go a b c d)) : (rowJob kind go).Canonical := by
  intro t w s h
  dsimp only [Machine.rowJob]
  exact Canon.asyncIssue h (fun _ _ hb => hgo _ _ _ _ hb)

theorem Canon.issueJob {mine : Nat → Bool} {kind : Nat} {go : Issuer → Nat → Nat → State → State} {t : Nat} {w : Insn} {s : State}
    (hgo : ∀ (a : Issuer) (b c : Nat) (d : State), Canon d → Canon (go a b c d)) (h : Canon s) : Canon (issueJob mine kind go t w s) :=
  .ite (.issue (Canon.rowJob hgo) h) h

/-! Reading a batch (R272, R274, R291). -/

theorem Io.Keeps.bufRead {ctx va n : Nat} : (bufRead ctx va n).Keeps := by
  intro s h
  unfold Io.exec Machine.bufRead
  split
  · exact h
  · split <;> rename_i e <;> exact .of_snd e (.io .memRead h)

theorem Io.Keeps.readCol {ctx rows : Nat} {e rec : List Byte} : (Machine.readCol ctx rows e rec).Keeps := by
  unfold Machine.readCol
  extract_lets t afterValid
  have hv (vb : List Byte) : (afterValid vb).Keeps := by
    unfold afterValid
    extract_lets valid mask afterOffs
    have ho (offs : List Nat) : (afterOffs offs).Keeps := by
      unfold afterOffs
      extract_lets last cut checked
      have hc (u : PUnit) : (checked u).Keeps := .ite (.bind .bufRead fun _ => .pure)
        (.bind .bufRead fun _ => .ite (.bind .bufRead fun _ => .pure) (.bind .pure fun _ => .pure))
      exact .ite (.bind .throw hc) (hc ())
    exact .ite (.bind .bufRead fun _ => .pure) (.ite (.bind .pure ho) (.bind .bufRead fun _ => .bind .pure ho))
  exact .ite (.bind .bufRead hv) (.bind .pure hv)

theorem Io.Keeps.readBatch {ctx addr : Nat} {leg : List Byte} : (readBatch ctx addr leg).Keeps :=
  .bind .memRead fun _ => .bind (.mapM (fun _ => .readCol) _) fun _ => .pure

/-! Banks and sets. -/

theorem Canon.modBank {s : State} {b : Nat} {f : GazBank → GazBank} (h : Canon s) : Canon (s.modBank b f) := h

/-! Entry writes (R358). -/

theorem Canon.writerNext {w : GazWriter} {s : State} (h : Canon s) : Canon (writerNext w s).2 := by
  unfold Machine.writerNext
  split
  · exact h
  · split
    · exact h
    · split <;> (rename_i e1; exact .of_snd e1 (.io .memRead h))

theorem Canon.modWriter {s : State} {b i : Nat} {f : GazWriter → GazWriter} (h : Canon s) : Canon (s.modWriter b i f) := .modBank h

theorem Canon.endWriter {b i : Nat} {w : GazWriter} {e : Err} {s : State} (h : Canon s) : Canon (endWriter b i w e s) := by
  unfold Machine.endWriter
  split
  · exact .failOp (.modBank h)
  · exact .ite (.finish (.modBank h)) (.finish (.modBank h))

theorem Canon.advanceWriter {b i n : Nat} {s : State} (h : Canon s) : Canon (advanceWriter b i n s) := by
  induction n generalizing s with
  | zero => exact h
  | succ _ ih =>
    unfold Machine.advanceWriter
    split
    · exact h
    · split
      · exact h
      · split
        · exact h
        · split
          · rename_i e2
            exact .endWriter (.of_snd e2 (.writerNext h))
          · rename_i e2
            exact ih (.modWriter (.modBank (.of_snd e2 (.writerNext h))))

theorem Canon.advanceAll {b : Nat} {s : State} (h : Canon s) : Canon (advanceAll b s) := .foldl (fun _ _ ha => .advanceWriter (.draw ha)) h

/-! Admission (R353, R365, R366). -/

theorem Canon.admitSearch {g : GazSet} {kind key ctl : Nat} {s : State} (h : Canon s) : Canon (admitSearch g kind key ctl s).2 :=
  .fields (.modBank (.advanceAll h))

theorem Canon.limitsHold {b : Nat} {s : State} (h : Canon s) : Canon (limitsHold b s).2 := .ite (.modBank h) h

theorem Canon.admitAt {b : Nat} {w : GazWait} {kind key ctl : Nat} {rest s gone : State} {give : List Nat → State → State}
    (hrest : Canon rest) (hs : Canon s) (hgone : Canon gone) (hgive : ∀ (a : List Nat) (b : State), Canon b → Canon (give a b)) :
    Canon (admitAt b w kind key ctl rest s gone give).2 := by
  unfold Machine.admitAt
  dsimp only
  split
  · exact hs
  · split
    · exact hgone
    · split
      · exact .modBank hrest
      · split
        · exact .limitsHold hs
        · exact hgive _ _ (.admitSearch hrest)

theorem Canon.admitHead {b : Nat} {s : State} (h : Canon s) : Canon (admitHead b s).2 := by
  unfold Machine.admitHead
  dsimp only
  split
  · exact h
  · split
    · split
      · exact .modBank h
      · exact .admitAt (.modBank h) h (.modBank h) (fun _ _ hb => .setCol hb)
    · split
      · exact .modBank h
      · split
        · split
          · exact .modBank h
          · exact .admitAt (.modBank h) h (.fault (.modBank h)) (fun _ _ hb => .modThread hb)
        · exact .modBank h

theorem Canon.drainBank {b n : Nat} {s : State} (h : Canon s) : Canon (drainBank b n s) := by
  induction n generalizing s with
  | zero => exact h
  | succ _ ih =>
    unfold Machine.drainBank
    split
    · rename_i e
      exact ih (.of_snd e (.admitHead h))
    · rename_i e
      exact .of_snd e (.admitHead h)

theorem Canon.drainBanks {s : State} (h : Canon s) : Canon (drainBanks s) := .foldl (fun _ _ ha => .drainBank ha) h

/-! The GAZ instruction (R127, R352). -/

theorem Canon.gazSearch {kind t : Nat} {w : Insn} {s : State} (h : Canon s) : (gazSearch kind t w s).AllCanon := by
  unfold Machine.gazSearch
  dsimp only
  split
  · exact h
  · split
    · exact .block h
    · exact .drainBank (.modBank (.modThread h))

theorem Canon.rowSearch {kind : Nat} : (rowSearch kind).Canonical := by
  intro t w s h
  dsimp only [Machine.rowSearch]
  exact Canon.gazSearch h

/-! GUPD (R357 to R359). -/

theorem Canon.gupdIssue {iss : Issuer} {ctx addr : Nat} {s : State} (h : Canon s) : Canon (gupdIssue iss ctx addr s) := by
  unfold Machine.gupdIssue
  refine .withDesc h (fun _ _ hb => .checkOp hb (fun _ ha1 => ?_))
  split
  · exact ha1
  · exact .modBank ha1

theorem Canon.rowGupd : rowGupd.Canonical := by
  intro t w s h
  dsimp only [Machine.rowGupd]
  exact Canon.asyncIssue h (fun _ _ hb => .gupdIssue hb)

theorem Canon.finishWriter {b i : Nat} {s : State} (h : Canon s) : Canon (finishWriter b i s) := by
  unfold Machine.finishWriter
  dsimp only
  split
  · exact h
  · split
    · exact .advanceWriter h
    · exact .ite (.endWriter (.advanceWriter h)) (.advanceWriter h)

theorem Canon.gupdEnd {t k : Nat} {s : State} (h : Canon s) : Canon (gupdEnd t k s) := by
  unfold Machine.gupdEnd
  split
  · exact h
  · exact .ite (.finishWriter h) h

/-! GAZ_LOAD (R354 to R356). -/

theorem Canon.dropSet {idx : Nat} {s : State} (h : Canon s) : Canon (dropSet idx s) := by
  unfold Machine.dropSet
  split
  · exact h
  · exact .fields (.modBank h)

theorem Canon.gazLoadRun {p : List Byte} {sid rid ctx : Nat} {s : State} (h : Canon s) : (gazLoadRun p sid rid ctx s).AllCanon := by
  unfold Machine.gazLoadRun
  dsimp only
  split
  · split
    · exact h
    · exact .fields (.modBank (.fresh h))
  · split
    · rename_i e2
      exact .modBank (.of_snd e2 (.io .memRead h))
    · rename_i e1
      exact .of_snd e1 (.io .memRead h)
    · rename_i e2
      exact .of_snd e2 (.io .memRead h)
  · split
    · rename_i e2
      exact .modBank (.of_snd e2 (.io .memRead h))
    · rename_i e1
      exact .of_snd e1 (.io .memRead h)
    · rename_i e2
      exact .of_snd e2 (.io .memRead h)
  · exact .dropSet h

theorem Canon.gazLoad {x : Frame} {n : Nat} {x1 : Session} {s : State} (h : Canon s) : (gazLoad x n x1 s).AllCanon := by
  unfold Machine.gazLoad
  split
  · exact h
  · split
    · exact .ite (.countRefused h) h
    · exact Canon.gazLoadRun h

/-! Shadows and scrubbing (R360 to R363). -/

theorem Canon.reportEntry {b e how : Nat} {s : State} (h : Canon s) : Canon (reportEntry b e how s) :=
  .event (.ite (.fireInjected h) (.fire h))

theorem Canon.settleEntry {b e : Nat} {s : State} (h : Canon s) : Canon (settleEntry b e s) :=
  .ite (.ite (.modBank h) (.ite (.modBank h) h)) (.modBank (.reportEntry h))

theorem Canon.settlePair {b g : Nat} {s : State} (h : Canon s) : Canon (settlePair b g s) := .modBank h

theorem Canon.upsetEntry {b e : Nat} {l : List (Fin 3 × Fin 384)} {s : State} (h : Canon s) : Canon (upsetEntry b e l s) :=
  .foldl (fun _ _ ha => .modBank ha) h

theorem Canon.settleOne {b e : Nat} {s : State} (h : Canon s) : Canon (settleOne b e s) := .ite (.settleEntry h) (.settlePair h)

theorem Canon.scrubCompare {b e : Nat} {l : List (Fin 3 × Fin 384)} {s : State} (h : Canon s) : Canon (scrubCompare b e l s) :=
  .ite h (.modBank (.ite (.settleOne (.ite (.upsetEntry h) h)) (.modBank (.ite (.upsetEntry h) h))))

theorem Canon.settleLate {s : State} (h : Canon s) : Canon (settleLate s) :=
  .foldl (fun _ _ ha => .modBank (.foldl (fun _ _ ha1 => .settleOne ha1) ha)) h

/-! Limits (R365, R366). -/

theorem Canon.throttleWindow {s : State} (h : Canon s) : Canon (throttleWindow s) := .ite (.drainBanks (.ite (.fire h) h)) h

theorem Canon.powerWindow {s : State} (h : Canon s) : Canon (powerWindow s) := .ite (.drainBanks h) h

/-! Bank service (R370 to R372). -/

theorem Canon.planMoves {b : Nat} {l : List (Nat × GazSet)} {s u : State} (e : planMoves b l s = some u) (h : Canon s) : Canon u := by
  induction l generalizing s with
  | nil => cases e; exact h
  | cons p t ih =>
    unfold Machine.planMoves at e
    dsimp only at e
    split at e
    · cases e
    · exact ih e h

theorem Canon.moveSet {old new : GazSet} {s : State} (h : Canon s) : Canon (moveSet old new s) := .modBank h

theorem Canon.settleBank {b n : Nat} {s : State} (h : Canon s) : Canon (settleBank b n s) := by
  unfold Machine.settleBank
  exact .modBank (.foldl (fun _ _ ha => .settlePair ha) (.foldl (fun _ _ ha => .settleEntry ha) h))

theorem Canon.evacuate {b : Nat} {s u : State} (e : evacuate b s = some u) (h : Canon s) : Canon u := by
  unfold Machine.evacuate at e
  dsimp only at e
  split at e
  · cases e
  · rename_i hp
    cases e
    refine .modBank (.foldl (fun _ _ ha => ?_) (.foldl (fun _ _ ha => ?_) (.planMoves hp (.settleBank h))))
    · split
      · exact ha
      · exact .modBank ha
    · split
      · exact ha
      · exact .moveSet ha

theorem Canon.gazService {x : Frame} {n : Nat} {x1 : Session} {s : State} (h : Canon s) : (gazService x n x1 s).AllCanon := by
  unfold Machine.gazService
  refine Canon.check h ?_
  split
  · exact .modBank h
  · exact .getD (fun _ e1 => .evacuate e1 h) h
  · exact .modBank h
  · exact .modBank h

theorem Canon.gazSettle {sid rid b : Nat} {s : State} (h : Canon s) : Canon (gazSettle sid rid b s) := by
  unfold Machine.gazSettle
  split
  · exact .ite (.finishWriter h) h
  · split
    · exact h
    · split
      · exact .drainBanks (.finish (.modBank (.settleBank h)))
      · exact .drainBanks (.finish (.modBank h))
      · exact .ite (.drainBanks (.finish (.modBank (.modBank (.draw h))))) (.finish (.modBank (.modBank (.draw h))))
      · exact h

theorem Canon.gazSettleAny {sid rid b : Nat} {s : State} (h : Canon s) : Canon (gazSettleAny sid rid b s) := by
  unfold Machine.gazSettleAny
  split <;> exact .gazSettle h

theorem Canon.gazDropCtx {ctx : Nat} {s : State} (h : Canon s) : Canon (gazDropCtx ctx s) := .foldl (fun _ _ ha => .dropSet ha) h

/-! The rows. -/

theorem Canon.execGsrchT {t : Fin 8192} {w : Insn} {s : State} (h : Canon s) : OutCanon (execGsrchT t w s) := .issue Canon.rowSearch h

theorem Canon.execGsrchG {t : Fin 8192} {w : Insn} {s : State} (h : Canon s) : OutCanon (execGsrchG t w s) := .issue Canon.rowSearch h

theorem Canon.execGbkt {t : Fin 8192} {w : Insn} {s : State} (h : Canon s) : OutCanon (execGbkt t w s) := .issue Canon.rowSearch h

theorem Canon.execGupd {t : Fin 8192} {w : Insn} {s : State} (h : Canon s) : OutCanon (execGupd t w s) := .issue Canon.rowGupd h

theorem Canon.execGupdEnd {t : Fin 8192} {tag : Fin 8} {s : State} (h : Canon s) : OutCanon (execGupdEnd t tag s) := .gupdEnd h

theorem Canon.execGazCreate {f : Frame} {s : State} (h : Canon s) : OutCanon (execGazCreate f s) :=
  .rcpAction (fun _ _ _ _ hs1 => Canon.gazLoad hs1) h

theorem Canon.execGazWrite {f : Frame} {s : State} (h : Canon s) : OutCanon (execGazWrite f s) :=
  .rcpAction (fun _ _ _ _ hs1 => Canon.gazLoad hs1) h

theorem Canon.execGazSegtags {f : Frame} {s : State} (h : Canon s) : OutCanon (execGazSegtags f s) :=
  .rcpAction (fun _ _ _ _ hs1 => Canon.gazLoad hs1) h

theorem Canon.execGazDestroy {f : Frame} {s : State} (h : Canon s) : OutCanon (execGazDestroy f s) :=
  .rcpAction (fun _ _ _ _ hs1 => Canon.gazLoad hs1) h

theorem Canon.execGazScrubCompare {b : Fin 8} {k : Nat} {upset : List (Fin 3 × Fin 384)} {s : State} (h : Canon s) :
    OutCanon (execGazScrubCompare b k upset s) := .scrubCompare h

theorem Canon.execGazThrottleWindow {s : State} (h : Canon s) : OutCanon (execGazThrottleWindow s) := .throttleWindow h

theorem Canon.execGazPowerWindow {s : State} (h : Canon s) : OutCanon (execGazPowerWindow s) := .powerWindow h

theorem Canon.execGazReload {f : Frame} {s : State} (h : Canon s) : OutCanon (execGazReload f s) :=
  .rcpAction (fun _ _ _ _ hs1 => Canon.gazService hs1) h

theorem Canon.execGazEvacuate {f : Frame} {s : State} (h : Canon s) : OutCanon (execGazEvacuate f s) :=
  .rcpAction (fun _ _ _ _ hs1 => Canon.gazService hs1) h

theorem Canon.execGazRestore {f : Frame} {s : State} (h : Canon s) : OutCanon (execGazRestore f s) :=
  .rcpAction (fun _ _ _ _ hs1 => Canon.gazService hs1) h

theorem Canon.execGazScrubPeriod {f : Frame} {s : State} (h : Canon s) : OutCanon (execGazScrubPeriod f s) :=
  .rcpAction (fun _ _ _ _ hs1 => Canon.gazService hs1) h

/-! Checks (R273, R274), shared with join jobs where they are the same. -/

theorem Canon.colIssue {iss : Issuer} {ctx addr : Nat} {s : State} (h : Canon s) : Canon (colIssue iss ctx addr s) :=
  .withDesc h (fun _ _ hb => .checkJob hb (fun _ ha1 => .setCol ha1))

/-! End and suspension (R290 to R292). -/

theorem Canon.colEnd {j : ColJob} {er : Err} {failRow : Nat} {s : State} (h : Canon s) : Canon (colEnd j er failRow s) :=
  .endJob (.writeDropped h)

theorem Canon.colSuspend {e : Nat} {j : ColJob} {s : State} (h : Canon s) : Canon (colSuspend e j s) := by
  unfold Machine.colSuspend
  split
  · rename_i e1
    exact .colEnd (.of_snd e1 (.takeHandle h))
  · rename_i e1
    split
    · rename_i e2
      exact .colEnd (.of_snd e2 (.saveArea (.of_snd e1 (.takeHandle h))))
    · rename_i e2
      exact .parkJob (.of_snd e2 (.saveArea (.of_snd e1 (.takeHandle h))))

/-! The run (R272). -/

theorem Canon.askGaz {e key ctl : Nat} {j : ColJob} {s : State} (h : Canon s) : Canon (askGaz e key ctl j s).2 :=
  .drainBank (.modBank (.setCol h))

theorem Canon.evalStep {e k : Nat} {j : ColJob} {cols : List (List Byte)} {a : RowEval} (ha : Canon a.s) :
    Canon (evalStep e j cols a k).s := by
  unfold Machine.evalStep
  extract_lets st c searches g 
  have hg : Canon g.2 := by
    unfold g
    split
    · exact ha
    · split
      · exact ha
      · exact .askGaz ha
  split
  · exact ha
  · split <;> exact hg

theorem Canon.evalRow {e : Nat} {j : ColJob} {cols : List (List Byte)} {row : List Cell} {s : State} (h : Canon s) :
    Canon (evalRow e j cols row s).s := foldl_inv (P := fun a : RowEval => Canon a.s) (fun _ _ hk => .evalStep hk) h

theorem Canon.putBatch {leg : List Byte} {ctx addr : Nat} {i : BatchInfo} {rows : List (List Cell)} {legend flow thread : Nat} {s : State}
    (h : Canon s) : Canon (putBatch leg ctx addr i rows legend flow thread s).2 := by
  unfold Machine.putBatch
  dsimp only
  split
  · rename_i e
    exact .of_snd e (.io .memWrite h)
  · rename_i e
    split
    · exact .of_snd e (.io .memWrite h)
    · exact .emit (.of_snd e (.io .memWrite h))

theorem Canon.colClose {j : ColJob} {b : Building} {s : State} (h : Canon s) : Canon (colClose j b s).2 := by
  unfold Machine.colClose
  dsimp only
  split <;> (rename_i e; exact .of_snd e (.putBatch h))

theorem Canon.colRows {e : Nat} {cols : List (List Byte)} {firstRow n : Nat} {l : List (List Cell)} {x : ColJob} {x1 : Building}
    {s : State} (h : Canon s) : Canon (colRows e cols firstRow n l x x1 s).2.2 := by
  induction n generalizing l x x1 s with
  | zero => exact h
  | succ _ ih =>
    unfold Machine.colRows
    dsimp only
    split
    · split
      · exact h
      · split <;> (rename_i e1; exact .of_snd e1 (.colClose h))
    · split
      · exact .evalRow h
      · split
        · exact ih (.evalRow h)
        · split
          · exact .evalRow h
          · split
            · exact ih (.evalRow h)
            · split
              · exact .evalRow h
              · split
                · rename_i e1
                  exact .of_snd e1 (.colClose (.evalRow h))
                · rename_i e1
                  split
                  · exact .of_snd e1 (.colClose (.evalRow h))
                  · exact ih (.of_snd e1 (.colClose (.evalRow h)))

theorem Io.Keeps.colArrays {j : ColJob} : (Machine.colArrays j).Keeps := by
  unfold Machine.colArrays
  extract_lets k
  have hk (st : List Byte) : (k st).Keeps := .bind .memRead fun _ => .bind (.mapM (fun _ => .ite .memRead .pure) _) fun _ => .pure
  exact .ite (.bind .pure hk) (.bind .memRead hk)

theorem Canon.colStart {e : Nat} {s : State} (h : Canon s) : Canon (colStart e s) := by
  unfold Machine.colStart
  dsimp only
  split
  · split
    · exact h
    · split
      · split
        · rename_i e4
          exact .colEnd (.of_snd e4 (.io .colArrays (.setCol h)))
        · rename_i e4
          exact .setCol (.of_snd e4 (.io .colArrays (.setCol h)))
      · split
        · rename_i e3
          exact .colEnd (.of_snd e3 (.areaIntact (.setCol h)))
        · rename_i e3
          exact .setCol (.of_snd e3 (.areaIntact (.setCol h)))
        · rename_i e3
          exact .colEnd (.of_snd e3 (.areaIntact (.setCol h)))
  · exact h

theorem Canon.colRun {e : Nat} {j : ColJob} {s : State} (h : Canon s) : Canon (colRun e j s) := by
  unfold Machine.colRun
  split
  · rename_i e1
    exact .colEnd (.setCol (.of_snd e1 (.io .readBatch h)))
  · rename_i e1
    split
    · rename_i e2
      exact .colEnd (.setCol (.of_snd_snd e2 (.colRows (.of_snd e1 (.io .readBatch h)))))
    · rename_i e2
      exact .colSuspend (.setCol (.of_snd_snd e2 (.colRows (.of_snd e1 (.io .readBatch h)))))
    · rename_i e2
      exact .setCol (.of_snd_snd e2 (.colRows (.of_snd e1 (.io .readBatch h))))
    · rename_i e2
      exact .of_snd_snd e2 (.colRows (.of_snd e1 (.io .readBatch h)))
    · rename_i e2
      exact .colEnd (.setCol (.scramble (.of_snd_snd e2 (.colRows (.of_snd e1 (.io .readBatch h))))))

theorem Canon.colJobEnd {e : Nat} {s : State} (h : Canon s) : Canon (colJobEnd e s) := by
  unfold Machine.colJobEnd
  split
  · exact h
  · split
    · exact h
    · split
      · exact .colRun h
      · exact .ite (.colRun (.emit h)) h

theorem Canon.colResume {e : Nat} {j : ColJob} {iss : Issuer} {outAddr outLen : Nat} {s : State} (h : Canon s) :
    Canon (colResume e j iss outAddr outLen s) := .ite (.colEnd h) (.setCol h)

/-! The rows. -/

theorem Canon.execColumnJob {t : Fin 8192} {w : Insn} {s : State} (h : Canon s) : OutCanon (execColumnJob t w s) :=
  .issueJob (fun _ _ _ _ ha_3 => .colIssue ha_3) h

theorem Canon.execColumnJobStart {sl : Fin 32} {s : State} (h : Canon s) : OutCanon (execColumnJobStart sl s) := .colStart h

theorem Canon.execColumnJobEnd {sl : Fin 32} {s : State} (h : Canon s) : OutCanon (execColumnJobEnd sl s) := .colJobEnd h

/-! Engines. -/

theorem Canon.setProj {s : State} {e : Nat} {x : Engine ProjWork} (h : Canon s) : Canon (s.setProj e x) := h

theorem Canon.queueProj {s : State} {e : Nat} {w : ProjWork} (h : Canon s) : Canon (s.queueProj e w) := .setProj h

theorem Canon.modProjCtr {s : State} {e : Nat} {f : ProjCtr → ProjCtr} (h : Canon s) : Canon (s.modProjCtr e f) := h

theorem Io.Keeps.projDescs {ctx addr : Nat} : (projDescs ctx addr).Keeps :=
  .bind .memRead fun _ => .bind .memRead fun _ => .bind .memRead fun _ => .pure

theorem Canon.projIssue {acc : Bool} {iss : Issuer} {ctx addr : Nat} {s : State} (h : Canon s) : Canon (projIssue acc iss ctx addr s) := by
  unfold Machine.projIssue
  split
  · rename_i e
    exact .failOp (.of_snd e (.io .projDescs h))
  · rename_i e
    exact .checkOp (.of_snd e (.io .projDescs h)) (fun _ ha => .queueProj (.watchOp ha))

theorem Canon.projRest {j : ProjJob} {s : State} (h : Canon s) : Canon (projRest j s) := .ite (.modWatch h) (.unwatch h)

theorem Canon.projFinish {e : Nat} {j : ProjJob} {er : Err} {s : State} (h : Canon s) : Canon (projFinish e j er s) :=
  .endJob (.modProjCtr (.projRest h))

theorem Canon.projBegin {e : Nat} {j : ProjJob} {s : State} (h : Canon s) : Canon (projBegin e j s) := by
  unfold Machine.projBegin
  split
  · exact .setProj h
  · split
    · rename_i e1
      exact .projFinish (.of_snd e1 (.io .projDescs h))
    · rename_i e1
      split
      · exact .projFinish (.of_snd e1 (.io .projDescs h))
      · exact .setProj (.modWatch (.of_snd e1 (.io .projDescs h)))

/-! One slab (R382 to R384, R390). -/

theorem Canon.accWordsRead {j : ProjJob} {offs : List Nat} {s : State} (h : Canon s) : Canon (accWordsRead j offs s).2 := by
  unfold Machine.accWordsRead
  refine foldl_inv (P := fun a : List Word × State => Canon a.2) (fun _ _ hk => ?_) h
  split
  · exact hk
  · exact .draw hk

theorem Canon.slabValues {j : ProjJob} {srcs : List (List Nat)} {s : State} (h : Canon s) : Canon (slabValues j srcs s).2 := by
  unfold Machine.slabValues
  dsimp only
  split
  · exact .accWordsRead h
  · split <;> (rename_i e; exact .of_snd e (.readList h))

theorem Canon.freePieces {s : State} {shared : Nat → Bool} {taken : List Nat} {ps : List (Nat × List Byte)} (h : Canon s) :
    Canon (freePieces s shared taken ps).2 := by
  unfold Machine.freePieces
  dsimp only
  refine foldl_inv (P := fun a : List (Nat × List Byte) × State => Canon a.2) (fun _ _ hk => foldl_inv (P := fun a1 : List Byte × State =>
    Canon a1.2) (fun _ _ hk1 => ?_) hk) h
  split
  · exact .draw hk1
  · exact hk1

theorem Canon.writeAll {o : OutputOf} {ctx : Nat} {l : List (Nat × List Byte)} {s : State} (h : Canon s) : Canon (writeAll o ctx l s).2 := by
  induction l generalizing s with
  | nil => exact h
  | cons _ _ ih =>
    unfold Machine.writeAll
    split
    · rename_i e
      exact ih (.of_snd e (.ownWrite h))
    · rename_i e
      exact .of_snd e (.ownWrite h)

theorem Canon.writeSlab {o : OutputOf} {ctx : Nat} {ps : List (Nat × List Byte)} {s : State} (h : Canon s) :
    Canon (writeSlab o ctx ps s).2 := by
  unfold Machine.writeSlab
  split
  · exact .countRefused h
  · split
    · exact h
    · rename_i e1
      exact .of_snd e1 (.writeAll h)

theorem Canon.accFed {j : ProjJob} {n : Nat} {s : State} (h : Canon s) : Canon (accFed j n s) := by
  unfold Machine.accFed
  split
  · exact h
  · exact .modWatch (.foldl (fun _ _ ha => .scramble ha) h)

theorem Canon.slabRun {e : Nat} {j : ProjJob} {s : State} (h : Canon s) : Canon (Machine.slabRun e j s).2 := by
  unfold Machine.slabRun
  extract_lets k groups elems srcs taken net head
  clear_value net taken
  split
  · rename_i e1
    exact .of_snd e1 (.slabValues h)
  · rename_i e1
    extract_lets pieces r
    have hr : Canon r.2 := .freePieces (.of_snd e1 (.slabValues h))
    clear_value r pieces
    split
    · rename_i e2
      exact .of_snd e2 (.writeSlab hr)
    · rename_i e2
      have hu := Canon.of_snd e2 (.writeSlab hr)
      exact Canon.modProjCtr (.ite (.accFed hu) hu)

theorem Canon.jobSlab {e : Nat} {j : ProjJob} {s : State} (h : Canon s) : Canon (jobSlab e j s) := by
  unfold Machine.jobSlab
  split
  · exact .suspendJob (.modProjCtr (.modProjCtr (.projRest (.setProj h))))
  · split
    · rename_i e1
      exact .projFinish (.setProj (.of_snd e1 (.slabRun h)))
    · rename_i e1
      exact .ite (.projFinish (.setProj (.of_snd e1 (.slabRun h)))) (.setProj (.of_snd e1 (.slabRun h)))

/-! Resume (R391). -/

theorem Canon.projResume {e : Nat} {j : ProjJob} {iss : Issuer} {outAddr outLen : Nat} {s : State} (h : Canon s) :
    Canon (projResume e j iss outAddr outLen s) := .queueProj (.watchOp h)

/-! The rows. -/

theorem Canon.rowProj {acc : Bool} : (rowProj acc).Canonical := by
  intro t w s h
  dsimp only [Machine.rowProj]
  exact Canon.asyncIssue h (fun _ _ hb => .projIssue hb)

theorem Canon.execProj {t : Fin 8192} {w : Insn} {s : State} (h : Canon s) : OutCanon (execProj t w s) := .issue Canon.rowProj h

theorem Canon.execAccst {t : Fin 8192} {w : Insn} {s : State} (h : Canon s) : OutCanon (execAccst t w s) := .issue Canon.rowProj h

/-! Sessions. -/

theorem Canon.modFs {s : State} {id : Nat} {f : FSession → FSession} (h : Canon s) : Canon (s.modFs id f) := by
  unfold State.modFs
  split <;> exact h

theorem Canon.modAsm {s : State} {id : Nat} {f : Assembler → Assembler} (h : Canon s) : Canon (s.modAsm id f) := .modFs h

/-! A session that closes (R419). -/

theorem Canon.settleFrames {s : State} {id : Nat} (h : Canon s) : Canon (s.settleFrames id) := by
  unfold State.settleFrames
  split
  · exact h
  · split
    · exact h
    · split
      · exact .finishAll h
      · exact .ite (.modAsm h) (.ite h (.finishAll h))

/-! BATCH_EMIT and MANIFEST_RING_POLL. -/

theorem Canon.offerBatch {id : Nat} {s : State} (h : Canon s) : Canon (offerBatch id s) := by
  unfold Machine.offerBatch
  split
  · exact h
  · split
    · exact h
    · split
      · exact h
      · exact .ite (.settleFrames (.finishAll (.modAsm (.emit h)))) (.emit h)

theorem Canon.batchEmit {id : Nat} {s : State} (h : Canon s) : Canon (batchEmit id s) := by
  unfold Machine.batchEmit
  split
  · exact h
  · split
    · exact h
    · exact .ite h (.ite (.offerBatch h) (.ite (.offerBatch (.modAsm (.writeDropped h))) h))

theorem Canon.manifestPoll {id : Nat} {s : State} (h : Canon s) : Canon (manifestPoll id s) := by
  unfold Machine.manifestPoll
  split
  · exact h
  · split
    · exact h
    · split
      · split
        · rename_i e3
          exact .of_snd e3 (.io .memRead h)
        · rename_i e3
          exact .modAsm (.of_snd e3 (.io .memRead h))
      · exact h

/-! BATCH_CONFIG (R434, R435). -/

theorem Canon.batchConfig {x : Frame} {n : Nat} {x1 : Session} {s : State} (h : Canon s) : (batchConfig x n x1 s).AllCanon := by
  unfold Machine.batchConfig
  dsimp only
  split
  · exact .ite (.countRefused h) h
  · split
    · exact .modFs h
    · split
      · exact h
      · split
        · exact h
        · split
          · exact .modAsm h
          · exact h
    · exact .modFs h

theorem Canon.execBatchEmit {id : Nat} {s : State} (h : Canon s) : OutCanon (execBatchEmit id s) := .batchEmit h

theorem Canon.execManifestRingPoll {id : Nat} {s : State} (h : Canon s) : OutCanon (execManifestRingPoll id s) := .manifestPoll h

theorem Canon.execBatchAttach {f : Frame} {s : State} (h : Canon s) : OutCanon (execBatchAttach f s) :=
  .rcpAction (fun _ _ _ _ hs1 => Canon.batchConfig hs1) h

theorem Canon.execBatchFlush {f : Frame} {s : State} (h : Canon s) : OutCanon (execBatchFlush f s) :=
  .rcpAction (fun _ _ _ _ hs1 => Canon.batchConfig hs1) h

theorem Canon.execBatchDetach {f : Frame} {s : State} (h : Canon s) : OutCanon (execBatchDetach f s) :=
  .rcpAction (fun _ _ _ _ hs1 => Canon.batchConfig hs1) h

/-! Ports. -/

theorem Canon.modFport {s : State} {p : Nat} {f : FPort → FPort} (h : Canon s) : Canon (s.modFport p f) := h

theorem Canon.fabEvent {s : State} {code grat port serial : Nat} (h : Canon s) : Canon (s.fabEvent code grat port serial) := .event h

/-! Frames (R446, R447, R464). -/

theorem Canon.sendLink {s : State} {p kind vc seq ack : Nat} {body : List Byte} {bad : Bool} (h : Canon s) :
    Canon (s.sendLink p kind vc seq ack body bad) := .modFport (.send h)

/-! Sending (R449, R452). -/

theorem Canon.giveBack {s : State} {arr vc : Nat} {f : TFrame} (h : Canon s) : Canon (s.giveBack arr vc f) := .ite (.modFport h) h

theorem Canon.leaves {s : State} {arr : Nat} {f : TFrame} (h : Canon s) : Canon (s.leaves arr f) := by
  unfold State.leaves
  split <;> exact h

theorem Canon.transmit {s : State} {p vc arr : Nat} {f : TFrame} (h : Canon s) : Canon (s.transmit p vc arr f) :=
  .leaves (.giveBack (.modFport (.sendLink (.ite (.disarm h) h))))

theorem Canon.replayPort {s : State} {p : Nat} (h : Canon s) : Canon (s.replayPort p) := .modFport (.foldl (fun _ _ ha => .sendLink ha) h)

theorem Canon.pumpPort {s : State} {p : Nat} (h : Canon s) : Canon (s.pumpPort p) := by
  unfold State.pumpPort
  dsimp only
  split
  · exact h
  · refine .modFport (foldl_inv (P := fun a : State × List (Nat × Nat × TFrame) × List Nat => Canon a.1) (fun _ _ hk => ?_) (.ite
      (.replayPort h) h))
    split
    · exact hk
    · exact .transmit hk

theorem Canon.pushPort {s : State} {p vc arr : Nat} {f : TFrame} (h : Canon s) : Canon (s.pushPort p vc arr f) := .pumpPort (.modFport h)

/-! Routing (R457 to R459). -/

theorem Canon.deltaRecords {s : State} {f : TFrame} (h : Canon s) : Canon (deltaRecords s f).2 := by
  unfold Machine.deltaRecords
  split
  · exact h
  · exact .draw h

theorem Canon.lossReport {s : State} {port detail : Nat} {f : TFrame} (h : Canon s) : Canon (lossReport s port detail f).2 := by
  unfold Machine.lossReport
  split
  · exact h
  · split
    · exact .deltaRecords h
    · split
      · exact h
      · split <;> exact h

theorem Canon.countDiscard {s : State} {p : Nat} (h : Canon s) : Canon (s.countDiscard p) := .ite (.modFport h) h

theorem Canon.tryRoute {s u : State} {arr vc : Nat} {f : TFrame} (e : tryRoute s arr vc f = some u) (h : Canon s) : Canon u := by
  unfold Machine.tryRoute at e
  split at e
  · split at e <;> (cases e; exact h)
  · split at e <;> cases e
    exact .pushPort h

theorem Canon.report {s : State} {port detail : Nat} {f : TFrame} (h : Canon s) : Canon (s.report port detail f) := by
  unfold State.report
  split
  · rename_i e
    exact .of_snd e (.lossReport h)
  · rename_i e
    exact .getD (fun _ e1 => .tryRoute e1 (.of_snd e (.lossReport h))) (.countDiscard (.of_snd e (.lossReport h)))

theorem Canon.fabSend {s : State} {vc : Nat} {f : TFrame} (h : Canon s) : Canon (s.fabSend vc f) :=
  .getD (fun _ e => .tryRoute e h) (.report h)

theorem Canon.fabForward {s : State} {p vc : Nat} {f : TFrame} (h : Canon s) : Canon (s.fabForward p vc f) :=
  .ite (.giveBack h) (.ite (.giveBack (.countDiscard h)) (.ite (.ite (.giveBack h) (.getD (fun _ e => .tryRoute e h) h)) (.ite (.giveBack
    (.countDiscard (.report h))) (.getD (fun _ e => .tryRoute e h) (.giveBack (.countDiscard (.report h)))))))

theorem Canon.drainRx {s : State} {p : Nat} (h : Canon s) : Canon (s.drainRx p) :=
  .ite (.foldl (fun _ _ ha => .fabForward ha) (.modFport h)) h

/-! A failed link (R450, R461). -/

theorem Canon.failPort {s : State} {p : Nat} (h : Canon s) : Canon (s.failPort p) :=
  .ite (.fabEvent (.foldl (fun _ _ ha => .ite ha (.countDiscard (.report ha))) (.foldl (fun _ _ ha => .ite ha (.getD (fun _ e => .tryRoute
    e ha) (.giveBack (.countDiscard (.report ha))))) (.modFport h)))) (.ite (.fabEvent (.modFport (.modFport h))) (.modFport h))

/-! Receiving (R445 to R449). -/

theorem Canon.nakPort {s : State} {p : Nat} (h : Canon s) : Canon (s.nakPort p) := .ite (.modFport (.sendLink h)) h

theorem Canon.discardLink {s : State} {p : Nat} {report : Bool} (h : Canon s) : Canon (s.discardLink p report) :=
  .nakPort (.ite (.fire (.modFport h)) (.modFport h))

theorem Canon.ackPort {s : State} {p : Nat} {b : List Byte} (h : Canon s) : Canon (s.ackPort p b) := .modFport h

theorem Canon.fabDataReceive {p : Nat} {f : LinkFrame} {s : State} (h : Canon s) : Canon (fabDataReceive p f s) := by
  unfold Machine.fabDataReceive
  split
  · exact h
  · split
    · exact .discardLink h
    · exact .ite h (.ite (.pumpPort (.ackPort h)) (.ite (.pumpPort (.nakPort (.ackPort h))) (.pumpPort (.ite (.fabForward (.modFport
        (.ackPort h))) (.modFport (.modFport (.ackPort h)))))))

theorem Canon.nakReceive {p : Nat} {f : LinkFrame} {s : State} (h : Canon s) : Canon (nakReceive p f s) := by
  unfold Machine.nakReceive
  split
  · exact h
  · split
    · exact .discardLink h
    · exact .ite h (.ite (.pumpPort (.ackPort h)) (.ite (.failPort (.ackPort h)) (.pumpPort (.modFport (.ackPort h)))))

/-! Bringing a link up (R444, R448). -/

theorem Canon.sendInit {s : State} {p : Nat} (h : Canon s) : Canon (s.sendInit p) := .sendLink h

theorem Canon.fabLinkTraining {p : Nat} {s : State} (h : Canon s) : Canon (fabLinkTraining p s) := by
  unfold Machine.fabLinkTraining
  split
  · exact h
  · exact h
  · exact .ite (.sendInit (.modFport h)) h

theorem Canon.initSend {p : Nat} {s : State} (h : Canon s) : Canon (initSend p s) := .ite (.sendInit h) h

theorem Canon.initRetry {p : Nat} {s : State} (h : Canon s) : Canon (initRetry p s) := .ite (.sendInit (.modFport h)) h

theorem Canon.initReceive {p : Nat} {f : LinkFrame} {s : State} (h : Canon s) : Canon (initReceive p f s) := by
  unfold Machine.initReceive
  dsimp only
  split
  · exact h
  · split
    · exact .discardLink h
    · exact .ite h (.ite (.modFport h) (.ite (.relinked (.fabEvent (.fields (.modFport (.modFport h))))) (.fabEvent (.modFport h))))

theorem Canon.idleSend {p : Nat} {s : State} (h : Canon s) : Canon (idleSend p s) := .ite (.sendLink h) h

theorem Canon.linkSilence {p : Nat} {s : State} (h : Canon s) : Canon (linkSilence p s) := .ite (.failPort h) h

theorem Canon.fabLinkFail {p : Nat} {s : State} (h : Canon s) : Canon (fabLinkFail p s) := by
  unfold Machine.fabLinkFail
  split
  · exact .failPort h
  · exact .failPort h
  · exact h

/-! The rows. -/

theorem Canon.execFabricLinkTraining {p : Fin 12} {s : State} (h : Canon s) : OutCanon (execFabricLinkTraining p s) := .fabLinkTraining h

theorem Canon.execInitSend {p : Fin 12} {s : State} (h : Canon s) : OutCanon (execInitSend p s) := .initSend h

theorem Canon.execInitReceive {p : Fin 12} {f : LinkFrame} {s : State} (h : Canon s) : OutCanon (execInitReceive p f s) := .initReceive h

theorem Canon.execInitRetry {p : Fin 12} {s : State} (h : Canon s) : OutCanon (execInitRetry p s) := .initRetry h

theorem Canon.execFabricDataReceive {p : Fin 12} {f : LinkFrame} {s : State} (h : Canon s) : OutCanon (execFabricDataReceive p f s) :=
  .fabDataReceive h

theorem Canon.execNakReceive {p : Fin 12} {f : LinkFrame} {s : State} (h : Canon s) : OutCanon (execNakReceive p f s) := .nakReceive h

theorem Canon.execIdleSend {p : Fin 12} {s : State} (h : Canon s) : OutCanon (execIdleSend p s) := .idleSend h

theorem Canon.execLinkSilenceTimeout {p : Fin 12} {s : State} (h : Canon s) : OutCanon (execLinkSilenceTimeout p s) := .linkSilence h

theorem Canon.execFabricLinkFail {p : Fin 12} {s : State} (h : Canon s) : OutCanon (execFabricLinkFail p s) := .fabLinkFail h

/-! CONTEXT_CREATE (R203). -/

theorem Canon.contextCreate {x : Frame} {n : Nat} {x1 : Session} {s : State} (h : Canon s) : (contextCreate x n x1 s).AllCanon :=
  Canon.check h h

/-! MAP (R205 to R207). -/

theorem Canon.withChecks {s : State} {t : Tbl (List Nat)} (h : Canon s) : Canon (s.withChecks t) := h

theorem Canon.zeroAll {s : State} {es : List Extent} (h : Canon s) : Canon (s.zeroAll es) :=
  foldl_inv (P := fun m : Mem => m.wf = true) (fun _ _ hm => Mem.wf_zero _ _ _ hm) h

theorem Canon.mapNow {x : Frame} {n : Nat} {x1 : Session} {s : State} (h : Canon s) : (mapNow x n x1 s).AllCanon := by
  unfold Machine.mapNow
  dsimp only
  refine Canon.check h ?_
  split
  · exact h
  · split
    · exact h
    · exact .modCtx (.withChecks (.zeroAll h))

/-! UNMAP (R208). -/

theorem Canon.unmapRange {s : State} {ctx va len : Nat} (h : Canon s) : Canon (s.unmapRange ctx va len) := by
  unfold State.unmapRange
  split
  · exact h
  · exact .foldl (fun _ _ ha => .dropMap ha) h

theorem Canon.unmapNow {x : Frame} {n : Nat} {x1 : Session} {s : State} (h : Canon s) : (unmapNow x n x1 s).AllCanon := by
  unfold Machine.unmapNow
  refine Canon.check h ?_
  split
  · exact .modCtx h
  · exact .unmapRange h

theorem Canon.inTurn {off : Nat} {h1 : Handler} {x : Frame} {n : Nat} {x1 : Session} {s : State} (hh1 : h1.Canonical) (h : Canon s) :
    (inTurn off h1 x n x1 s).AllCanon := by
  unfold Machine.inTurn
  split
  · exact h
  · exact hh1 _ _ _ _ h

theorem Canon.mapCmd {x : Frame} {n : Nat} {x1 : Session} {s : State} (h : Canon s) : (mapCmd x n x1 s).AllCanon :=
  Canon.inTurn (fun _ _ _ _ hs1 => Canon.mapNow hs1) h

theorem Canon.unmapCmd {x : Frame} {n : Nat} {x1 : Session} {s : State} (h : Canon s) : (unmapCmd x n x1 s).AllCanon :=
  Canon.inTurn (fun _ _ _ _ hs1 => Canon.unmapNow hs1) h

/-! Moving granules (R221, R222). -/

theorem Canon.moveGranule {s : State} {src dst : Nat} (h : Canon s) : Canon (s.moveGranule src dst) := by
  unfold State.moveGranule
  extract_lets m fix m1 bad bads checks s1
  have h1 : m1.wf = true := Mem.wf_zero _ _ _ (Mem.wf_write _ _ _ (Mem.wf_zero _ _ _ h))
  clear_value m1 bads checks
  have hs : Canon s1 := .ofMem h1
  exact .modChannel (.modChannel hs)

theorem Canon.trackMoved {s : State} {src dst n : Nat} (h : Canon s) : Canon (s.trackMoved src dst n) := h

theorem Canon.setChannel {s : State} {ch : Nat} {st : ChState} (h : Canon s) : Canon (s.setChannel ch st) := .modChannel h

theorem Canon.endRetrain {s : State} {ch : Nat} (h : Canon s) : Canon (s.endRetrain ch) := h

theorem Canon.retrainSettle {ch : Nat} {s : State} (h : Canon s) : Canon (retrainSettle ch s) := by
  unfold Machine.retrainSettle
  split
  · exact h
  · split
    · exact .ite (.ite (.finishAll (.endRetrain (.setChannel h))) (.setChannel h)) h
    · exact .ite (.finishAll (.endRetrain (.setChannel h))) h
    · exact h

theorem Canon.retrainChannel {x : Frame} {n : Nat} {x1 : Session} {s : State} (h : Canon s) : (retrainChannel x n x1 s).AllCanon := by
  unfold Machine.retrainChannel
  refine Canon.check h ?_
  split
  · exact .setChannel h
  · split
    · split
      · exact .endRetrain (.setChannel h)
      · exact .setChannel h
    · exact .setChannel h

theorem Canon.granuleCopyDone {ch : Nat} {s : State} (h : Canon s) : Canon (granuleCopyDone ch s) := by
  unfold Machine.granuleCopyDone
  split
  · exact h
  · split
    · exact h
    · split
      · split
        · exact .retrainSettle h
        · exact .retrainSettle (.memFields (.modChannel (.trackMoved (.moveGranule h))))
      · split
        · exact .retrainSettle h
        · exact .retrainSettle (.memFields (.trackMoved (.moveGranule h)))
      · exact h

theorem Canon.channelTrainingDone {ch : Nat} {r : Training} {s : State} (h : Canon s) : Canon (channelTrainingDone ch r s) := by
  unfold Machine.channelTrainingDone
  split
  · exact h
  · split
    · exact .retrainSettle (.setChannel h)
    · exact .failAll (.endRetrain (.setChannel h))
    · exact .failAll (.endRetrain (.setChannel h))

/-! The rows. -/

theorem Canon.execContextCreate {f : Frame} {s : State} (h : Canon s) : OutCanon (execContextCreate f s) :=
  .rcpRun (fun _ _ _ _ hs1 => Canon.contextCreate hs1) h

theorem Canon.execMap {f : Frame} {s : State} (h : Canon s) : OutCanon (execMap f s) := .rcpRun (fun _ _ _ _ hs1 => Canon.mapCmd hs1) h

theorem Canon.execUnmap {f : Frame} {s : State} (h : Canon s) : OutCanon (execUnmap f s) :=
  .rcpRun (fun _ _ _ _ hs1 => Canon.unmapCmd hs1) h

theorem Canon.execRetrainChannel {f : Frame} {s : State} (h : Canon s) : OutCanon (execRetrainChannel f s) :=
  .rcpAction (fun _ _ _ _ hs1 => Canon.retrainChannel hs1) h

theorem Canon.execChannelDrain {f : Frame} {s : State} (h : Canon s) : OutCanon (execChannelDrain f s) :=
  .rcpAction (fun _ _ _ _ hs1 => Canon.retrainChannel hs1) h

theorem Canon.execChannelRetrainRestore {f : Frame} {s : State} (h : Canon s) : OutCanon (execChannelRetrainRestore f s) :=
  .rcpAction (fun _ _ _ _ hs1 => Canon.retrainChannel hs1) h

theorem Canon.execGranuleCopyDone {ch : Fin 128} {s : State} (h : Canon s) : OutCanon (execGranuleCopyDone ch s) := .granuleCopyDone h

theorem Canon.execChannelTrainingDone {ch : Fin 128} {r : Training} {s : State} (h : Canon s) : OutCanon (execChannelTrainingDone ch r s) :=
  .channelTrainingDone h

theorem Canon.execPerBankRefresh {_mc : Fin 32} {s : State} (h : Canon s) : OutCanon (execPerBankRefresh _mc s) := h

theorem Canon.execZqCalibration {_mc : Fin 32} {s : State} (h : Canon s) : OutCanon (execZqCalibration _mc s) := h

theorem Canon.execDqsTracking {_ch : Fin 128} {s : State} (h : Canon s) : OutCanon (execDqsTracking _ch s) := h

/-! Tables. -/

theorem Canon.modEmb {s : State} {h1 : Nat} {f : EmbTable → EmbTable} (h : Canon s) : Canon (s.modEmb h1 f) := by
  unfold State.modEmb
  split <;> exact h

theorem Canon.modEmbCtr {s : State} {h1 : Nat} {f : EmbCtr → EmbCtr} (h : Canon s) : Canon (s.modEmbCtr h1 f) := .modEmb h

theorem Canon.modEmbUnit {s : State} {u : Nat} {f : EmbUnitCtr → EmbUnitCtr} (h : Canon s) : Canon (s.modEmbUnit u f) := h

/-! Storage (R315, R335, R336). -/

theorem Canon.mapStorage {s : State} {ctx len : Nat} {ecc : Bool} {u : Nat × State} (e : mapStorage s ctx len ecc = some u) (h : Canon s) :
    Canon u.2 := by
  have hm : @Machine.mapStorage = @Machine.mapStorage := rfl
  conv_rhs at hm => delta Machine.mapStorage
  rw [hm] at e
  beta_reduce at e
  generalize s.allocate 0xFF (2 ^ 21) len ecc = q at e
  generalize s.mem.contexts.find ctx = c at e
  rcases q with _ | es
  · cases e
  rcases c with _ | c
  · cases e
  obtain rfl := Option.some.inj e
  exact .modCtx (.withChecks (.zeroAll (.draw h)))

theorem Canon.embReap {s : State} {h1 : Nat} (h : Canon s) : Canon (s.embReap h1) := by
  unfold State.embReap
  split
  · exact h
  · exact .ite (.fields (.uncharge (.modEmb (.foldl (fun _ _ ha => .dropMap ha) h)))) (.modEmb (.foldl (fun _ _ ha => .dropMap ha) h))

theorem Canon.embPin {s : State} {h1 v : Nat} (h : Canon s) : Canon (s.embPin h1 v) := .modEmb h

theorem Canon.embUnpin {s : State} {h1 v : Nat} (h : Canon s) : Canon (s.embUnpin h1 v) := .embReap (.modEmb h)

/-! Row updates (R330, R331). -/

theorem Canon.applyUpdate {u : Nat} {x : RowUpdate} {ev : MemEvent} {s : State} (h : Canon s) : Canon (applyUpdate u x ev s) := by
  unfold Machine.applyUpdate
  dsimp only
  split
  · exact h
  · split
    · rename_i e1
      exact .modEmbCtr (.of_snd e1 (.meet h))
    · rename_i e1
      split
      · rename_i e2
        exact .modEmbCtr (.of_snd e2 (.io .memRead (.of_snd e1 (.meet h))))
      · rename_i e2
        split
        · exact .modEmbCtr (.of_snd e2 (.io .memRead (.of_snd e1 (.meet h))))
        · split
          · rename_i e3
            exact .modEmbCtr (.of_snd e3 (.io .memWrite (.ite (.fields (.of_snd e2 (.io .memRead (.of_snd e1 (.meet h))))) (.of_snd e2 (.io
              .memRead (.of_snd e1 (.meet h)))))))
          · rename_i e3
            exact .modEmbUnit (.modEmbCtr (.of_snd e3 (.io .memWrite (.ite (.fields (.of_snd e2 (.io .memRead (.of_snd e1 (.meet h)))))
              (.of_snd e2 (.io .memRead (.of_snd e1 (.meet h))))))))

/-! Coalescing buffers (R329, R332, R333, R342). -/

theorem Canon.setEmbUpdates {s : State} {u : Nat} {l : List RowUpdate} (h : Canon s) : Canon (s.setEmbUpdates u l) := h

theorem Canon.queueUpdate {h1 : Nat} {e : EmbEntry} {hyper : List Byte} {closing : Bool} {s : State} (h : Canon s) :
    Canon (queueUpdate h1 e hyper closing s) := by
  unfold Machine.queueUpdate
  split
  · exact h
  · exact .setEmbUpdates h

theorem Canon.readHyper {t : EmbTable} {s : State} (h : Canon s) : Canon (readHyper t s).2 := by
  unfold Machine.readHyper
  split <;> (rename_i e; exact .of_snd e (.io .memRead h))

theorem Canon.loseEntries {h1 : Nat} {p : EmbEntry → Bool} {s : State} (h : Canon s) : Canon (loseEntries h1 p s) := .modEmb h

theorem Canon.splitEntry {h1 u : Nat} {s : State} (h : Canon s) : Canon (splitEntry h1 u s) := by
  unfold Machine.splitEntry
  dsimp only
  split
  · exact h
  · split
    · exact h
    · split
      · rename_i e2
        exact .queueUpdate (.of_snd e2 (.readHyper (.modEmbUnit (.modEmb h))))
      · rename_i e2
        exact .modEmbCtr (.of_snd e2 (.readHyper (.modEmbUnit (.modEmb h))))

theorem Canon.placeDelta {h1 part step row : Nat} {vals : List Nat} {s : State} (h : Canon s) :
    Canon (placeDelta h1 part step row vals s) := by
  unfold Machine.placeDelta
  split
  · exact h
  · refine .modEmbUnit (.modEmb ?_)
    split
    · exact .ite (.modEmb (.loseEntries (.fireInjected h))) (.modEmb (.ite (.splitEntry (.loseEntries (.fireInjected h))) (.loseEntries
        (.fireInjected h))))
    · exact .ite (.modEmb h) (.modEmb (.ite (.splitEntry h) h))

/-! Steps (R328, R329, R341). -/

theorem Canon.freshTag {s : State} (h : Canon s) : Canon s.freshTag.2 := .fresh h

theorem Canon.sendStep {h1 op dest step : Nat} {payload : List Byte} {s : State} (h : Canon s) :
    Canon (sendStep h1 op dest step payload s) := by
  unfold Machine.sendStep
  split
  · exact h
  · exact .fabSend (.fields (.freshTag h))

theorem Canon.takeToken {h1 part step n : Nat} {s : State} (h : Canon s) : Canon (takeToken h1 part step n s) := .modEmb h

theorem Canon.takeNotice {h1 part step : Nat} {s : State} (h : Canon s) : Canon (takeNotice h1 part step s) := .modEmb h

theorem Canon.wakeStep {h1 : Nat} {s : State} (h : Canon s) : Canon (wakeStep h1 s) := .foldl (fun _ _ ha => .modThread ha) h

theorem Canon.embStepClose {h1 : Nat} {s : State} (h : Canon s) : Canon (embStepClose h1 s) := by
  unfold Machine.embStepClose
  split
  · exact h
  · exact .ite h (.wakeStep (.modEmb (.foldl (fun _ _ ha => .ite (.takeToken ha) (.sendStep ha)) h)))

theorem Canon.homeAdvance {h1 : Nat} {s : State} (h : Canon s) : Canon (homeAdvance h1 s) := by
  unfold Machine.homeAdvance
  split
  · exact h
  · exact .foldl (fun _ _ ha => .ite (.takeNotice ha) (.sendStep ha)) (.modEmb h)

theorem Canon.closeFeed {h1 : Nat} {hy : List Byte} {s : State} (h : Canon s) : Canon (closeFeed h1 hy s) := by
  unfold Machine.closeFeed
  split
  · exact h
  · exact .foldl (fun _ _ ha => .ite (.queueUpdate (.modEmb ha)) ha) h

theorem Canon.closeOn {h1 : Nat} {s : State} (h : Canon s) : Canon (closeOn h1 s) := by
  unfold Machine.closeOn
  split
  · exact h
  · split
    · exact h
    · exact .ite (.closeFeed h) (.homeAdvance (.closeFeed h))

theorem Canon.closeAll {s : State} (h : Canon s) : Canon s.closeAll := .foldl (fun _ _ ha => .closeOn ha) h

theorem Canon.homeStepClose {h1 : Nat} {s : State} (h : Canon s) : Canon (homeStepClose h1 s) := by
  unfold Machine.homeStepClose
  dsimp only
  split
  · exact h
  · split
    · exact h
    · split
      · rename_i e1
        refine .homeAdvance (.modEmb (.of_snd e1 (.readHyper (.foldl (fun _ _ ha => ?_) (.modEmb h)))))
        split
        · exact .loseEntries (.fireInjected ha)
        · exact ha
      · rename_i e1
        refine .closeOn (.modEmb (.of_snd e1 (.readHyper (.foldl (fun _ _ ha => ?_) (.modEmb h)))))
        split
        · exact .loseEntries (.fireInjected ha)
        · exact ha

theorem Canon.nmuDone {u : Nat} {ev : MemEvent} {s : State} (h : Canon s) : Canon (nmuDone u ev s) := by
  unfold Machine.nmuDone
  split
  · exact h
  · exact .ite h (.closeAll (.applyUpdate (.setEmbUpdates h)))

/-! Lost parts and units (R341, R343). -/

theorem Canon.lostRecords {s : State} {f : TFrame} (h : Canon s) : Canon (lostRecords s f).2 := by
  unfold Machine.lostRecords
  split
  · exact .deltaRecords h
  · exact h

theorem Canon.embDiscard {f : TFrame} {s : State} (h : Canon s) : Canon (embDiscard f s) := by
  unfold Machine.embDiscard
  split
  · exact h
  · exact .modEmbCtr (.lostRecords h)

theorem Canon.embUnqueue {g p : Nat} {s : State} (h : Canon s) : Canon (embUnqueue g p s) :=
  .ite h (.foldl (fun _ _ ha => .embDiscard ha) (.modFport h))

theorem Canon.embPartLost {g : Nat} {s : State} (h : Canon s) : Canon (embPartLost g s) :=
  .foldl (fun _ _ ha => .modEmb ha) (.foldl (fun _ _ ha => .embUnqueue ha) h)

theorem Canon.embResend {f : TFrame} {s : State} (h : Canon s) : Canon (embResend f s) := .ite (.embDiscard h) (.fabSend h)

theorem Canon.embUnitLost {u : Nat} {s : State} (h : Canon s) : Canon (embUnitLost u s) :=
  .closeAll (.foldl (fun _ _ ha => .loseEntries ha) h)

theorem Canon.bufferParity {u k : Nat} {s : State} (h : Canon s) : Canon (bufferParity u k s) := by
  unfold Machine.bufferParity
  dsimp only
  split
  · exact h
  · exact .closeAll (.loseEntries (.fire h))

/-! The rows. -/

theorem Canon.execEmbStepClose {tbl : Nat} {s : State} (h : Canon s) : OutCanon (execEmbStepClose tbl s) := .embStepClose h

theorem Canon.execEmbHomeStepClose {tbl : Nat} {s : State} (h : Canon s) : OutCanon (execEmbHomeStepClose tbl s) := .homeStepClose h

theorem Canon.execNmuRowWriteDone {u : Fin 32} {ev : MemEvent} {s : State} (h : Canon s) : OutCanon (execNmuRowWriteDone u ev s) :=
  .nmuDone h

theorem Canon.execCoalesceBufferParity {u : Fin 32} {k : Nat} {s : State} (h : Canon s) : OutCanon (execCoalesceBufferParity u k s) :=
  .bufferParity h

/-! The binding of threads to images and its ends: the end of an image (R137, R138), a thread that becomes QUARANTINED (R504), and what a thread meets at its next ASK. -/

theorem Canon.imageEnd {h1 : Nat} {s : State} (h : Canon s) : Canon (imageEnd h1 s) := by
  unfold Machine.imageEnd
  split
  · exact h
  · exact .fields (.ite (.dropMap h) (.dropMap (.dropMap h)))

theorem Canon.imageSettle {h1 : Nat} {s : State} (h : Canon s) : Canon (imageSettle h1 s) := by
  unfold Machine.imageSettle
  split
  · exact h
  · exact .ite (.finishAll (.imageEnd h)) h

theorem Canon.podSettle {p : Nat} {s : State} (h : Canon s) : Canon (podSettle p s) := .ite (.finishAll (.modPod h)) h

theorem Canon.moveThread {t new : Nat} {s : State} (h : Canon s) : Canon (moveThread t new s) := by
  unfold Machine.moveThread
  dsimp only
  split
  · exact .start (.quiesce h)
  · exact .imageSettle (.start (.quiesce h))

theorem Canon.unbindThread {t : Nat} {s : State} (h : Canon s) : Canon (unbindThread t s) := by
  unfold Machine.unbindThread
  dsimp only
  split
  · exact .unbind (.quiesce h)
  · exact .imageSettle (.unbind (.quiesce h))

theorem Canon.takeThread {t new : Nat} {s : State} (h : Canon s) : Canon (takeThread t new s) := .ite (.moveThread h) (.unbindThread h)

theorem Canon.askGate {t : Nat} {s u : State} (e : askGate t s = some u) (h : Canon s) : Canon u := by
  unfold Machine.askGate at e
  split at e
  · cases e; exact .podSettle (.quarantineThread h)
  · split at e
    · cases e
    · split at e
      · cases e
      · split at e <;> cases e
        · exact .takeThread h
        · exact .unbindThread h

/-! VINT (R106). -/

theorem Canon.rowVint : rowVint.Canonical := by
  intro t w s h
  dsimp only [Machine.rowVint]
  exact Canon.onThread h

/-! VFLT (R107). -/

theorem Canon.rowVflt : rowVflt.Canonical := by
  intro t w s h
  dsimp only [Machine.rowVflt]
  exact Canon.onThread h

/-! VDOT (R108, R152). -/

theorem Canon.rowVdot : rowVdot.Canonical := by
  intro t w s h
  dsimp only [Machine.rowVdot]
  exact Canon.onThread h

/-! VCVT (R109, R154 to R157). -/

theorem Canon.vcvtRun {t : Nat} {w : Insn} {s : State} (h : Canon s) : (vcvtRun t w s).AllCanon := .modThread (.ite (.modPod h) h)

theorem Canon.rowVcvt : rowVcvt.Canonical := by
  intro t w s h
  dsimp only [Machine.rowVcvt]
  exact Canon.vcvtRun h

/-! VPERM (R110). -/

theorem Canon.rowVperm : rowVperm.Canonical := by
  intro t w s h
  dsimp only [Machine.rowVperm]
  exact Canon.onThread h

/-! VCMP (R111). -/

theorem Canon.rowVcmp : rowVcmp.Canonical := by
  intro t w s h
  dsimp only [Machine.rowVcmp]
  exact Canon.onThread h

/-! VRED (R112). -/

theorem Canon.rowVred : rowVred.Canonical := by
  intro t w s h
  dsimp only [Machine.rowVred]
  exact Canon.onThread h

/-! MASK (R113). -/

theorem Canon.rowMask : rowMask.Canonical := by
  intro t w s h
  dsimp only [Machine.rowMask]
  exact Canon.onThread h

/-! VHASH (R119). -/

theorem Canon.rowVhash : rowVhash.Canonical := by
  intro t w s h
  dsimp only [Machine.rowVhash]
  exact Canon.onThread h

/-! SORT (R121, R297 to R301). -/

theorem Canon.undefPairs {s : State} {n : Nat} (h : Canon s) : Canon (s.undefPairs n).2 := h

theorem Canon.onNetwork {t n : Nat} {s : State} {go : State → State} (h : Canon s) (hgo : ∀ (a : State), Canon a → Canon (go a)) :
    (onNetwork t n s go).AllCanon := by
  unfold Machine.onNetwork
  split
  · exact hgo _ (.modPod h)
  · exact .modThread h

theorem Canon.vsortRun {t : Nat} {w : Insn} {s : State} (h : Canon s) : (vsortRun t w s).AllCanon :=
  Canon.onNetwork h (fun _ ha => .modThread (.undefPairs ha))

theorem Canon.rowVsort : rowVsort.Canonical := by
  intro t w s h
  dsimp only [Machine.rowVsort]
  exact Canon.vsortRun h

theorem Canon.vmergeRun {t : Nat} {w : Insn} {s : State} (h : Canon s) : (vmergeRun t w s).AllCanon :=
  Canon.onNetwork h (fun _ ha => .modThread (.undefPairs ha))

theorem Canon.rowVmerge : rowVmerge.Canonical := by
  intro t w s h
  dsimp only [Machine.rowVmerge]
  exact Canon.vmergeRun h

theorem Canon.vtopkRun {t : Nat} {w : Insn} {s : State} (h : Canon s) : (vtopkRun t w s).AllCanon := by
  unfold Machine.vtopkRun
  refine Canon.onNetwork h (fun _ ha => ?_)
  split
  · exact .modThread ha
  · exact .modThread (.undefPairs ha)

theorem Canon.rowVtopk : rowVtopk.Canonical := by
  intro t w s h
  dsimp only [Machine.rowVtopk]
  exact Canon.vtopkRun h

/-! The rows. -/

theorem Canon.execVint {t : Fin 8192} {w : Insn} {s : State} (h : Canon s) : OutCanon (execVint t w s) := .issue Canon.rowVint h

theorem Canon.execVflt {t : Fin 8192} {w : Insn} {s : State} (h : Canon s) : OutCanon (execVflt t w s) := .issue Canon.rowVflt h

theorem Canon.execVdot {t : Fin 8192} {w : Insn} {s : State} (h : Canon s) : OutCanon (execVdot t w s) := .issue Canon.rowVdot h

theorem Canon.execVcvt {t : Fin 8192} {w : Insn} {s : State} (h : Canon s) : OutCanon (execVcvt t w s) := .issue Canon.rowVcvt h

theorem Canon.execVperm {t : Fin 8192} {w : Insn} {s : State} (h : Canon s) : OutCanon (execVperm t w s) := .issue Canon.rowVperm h

theorem Canon.execVcmp {t : Fin 8192} {w : Insn} {s : State} (h : Canon s) : OutCanon (execVcmp t w s) := .issue Canon.rowVcmp h

theorem Canon.execVred {t : Fin 8192} {w : Insn} {s : State} (h : Canon s) : OutCanon (execVred t w s) := .issue Canon.rowVred h

theorem Canon.execMask {t : Fin 8192} {w : Insn} {s : State} (h : Canon s) : OutCanon (execMask t w s) := .issue Canon.rowMask h

theorem Canon.execVhash {t : Fin 8192} {w : Insn} {s : State} (h : Canon s) : OutCanon (execVhash t w s) := .issue Canon.rowVhash h

theorem Canon.execVsort {t : Fin 8192} {w : Insn} {s : State} (h : Canon s) : OutCanon (execVsort t w s) := .issue Canon.rowVsort h

theorem Canon.execVmerge {t : Fin 8192} {w : Insn} {s : State} (h : Canon s) : OutCanon (execVmerge t w s) := .issue Canon.rowVmerge h

theorem Canon.execVtopk {t : Fin 8192} {w : Insn} {s : State} (h : Canon s) : OutCanon (execVtopk t w s) := .issue Canon.rowVtopk h

/-! ACC (R122, R123). -/

theorem Canon.drawWords {p : Nat} {ws : List Nat} {s : State} (h : Canon s) : Canon (drawWords p ws s) :=
  .foldl (fun _ _ ha => .modPod (.draw ha)) h

theorem Canon.accTouch {t : Nat} {ws : List Nat} {s : State} (h : Canon s) : Canon (accTouch t ws s) := .ite h (.drawWords h)

theorem Canon.accWritten {t : Nat} {ws : List Nat} {s : State} (h : Canon s) : Canon (accWritten t ws s) :=
  .foldl (fun _ _ ha => .ite (.foldl (fun _ _ ha1 => .scramble ha1) ha) ha) (.memFields (.accTouch h))

theorem Canon.accGrant {t n d base : Nat} {s : State} (h : Canon s) : Canon (accGrant t n d base s) := .modThread (.modPod h)

theorem Canon.accaRun {t : Nat} {w : Insn} {s : State} (h : Canon s) : (accaRun t w s).AllCanon := by
  unfold Machine.accaRun
  dsimp only
  split
  · exact h
  · split
    · exact .accGrant h
    · exact .modPod (.block h)

theorem Canon.rowAcca : rowAcca.Canonical := by
  intro t w s h
  dsimp only [Machine.rowAcca]
  exact Canon.accaRun h

theorem Canon.rowAccf : rowAccf.Canonical := by
  intro t w s h
  dsimp only [Machine.rowAccf]
  exact .modThread h

theorem Canon.accVecRun {t : Nat} {w : Insn} {s : State} (h : Canon s) : (accVecRun t w s).AllCanon := by
  unfold Machine.accVecRun
  dsimp only
  split
  · exact h
  · exact .modThread (.accWritten (.modPod (.accTouch h)))

theorem Canon.rowAccVec {f : Nat} : (rowAccVec f).Canonical := by
  intro t w s h
  dsimp only [Machine.rowAccVec]
  exact Canon.accVecRun h

theorem Canon.vaccrdRun {t : Nat} {w : Insn} {s : State} (h : Canon s) : (vaccrdRun t w s).AllCanon := by
  unfold Machine.vaccrdRun
  dsimp only
  split
  · exact h
  · exact .modThread (.accTouch h)

theorem Canon.rowVaccrd : rowVaccrd.Canonical := by
  intro t w s h
  dsimp only [Machine.rowVaccrd]
  exact Canon.vaccrdRun h

theorem Canon.vacczRun {t : Nat} {w : Insn} {s : State} (h : Canon s) : (vacczRun t w s).AllCanon := by
  unfold Machine.vacczRun
  dsimp only
  split
  · exact h
  · split
    · exact h
    · split
      · exact h
      · split
        · exact .accWritten (.modPod h)
        · exact h

theorem Canon.rowVaccz : rowVaccz.Canonical := by
  intro t w s h
  dsimp only [Machine.rowVaccz]
  exact Canon.vacczRun h

theorem Canon.accAllocGrant {p : Nat} {s : State} (h : Canon s) : Canon (accAllocGrant p s) := by
  unfold Machine.accAllocGrant
  split
  · exact h
  · split
    · exact h
    · split
      · split
        · exact h
        · exact .modThread (.modPod (.accGrant h))
      · exact h

/-! ASK and ASKNB (R124, R172). -/

theorem Canon.register {t set : Nat} {s : State} (h : Canon s) : Canon (register t set s) := by
  unfold Machine.register
  refine .foldl (fun _ _ ha => ?_) h
  split
  · exact ha
  · exact .modFlow ha

theorem Canon.askRun {block : Bool} {t : Nat} {w : Insn} {s : State} (h : Canon s) : (askRun block t w s).AllCanon := by
  unfold Machine.askRun
  dsimp only
  split
  · exact h
  · split
    · rename_i e
      exact .askGate e h
    · split
      · exact .handOut (.foldl (fun _ _ ha => .ite (.dropItem ha) ha) h)
      · split
        · exact .modThread (.register (.foldl (fun _ _ ha => .ite (.dropItem ha) ha) h))
        · exact .modThread (.foldl (fun _ _ ha => .ite (.dropItem ha) ha) h)

theorem Canon.rowAsk : rowAsk.Canonical := by
  intro t w s h
  dsimp only [Machine.rowAsk]
  exact Canon.askRun h

theorem Canon.rowAsknb : rowAsknb.Canonical := by
  intro t w s h
  dsimp only [Machine.rowAsknb]
  exact Canon.askRun h

theorem Canon.askOffer {t fid : Nat} {s : State} (h : Canon s) : Canon (askOffer t fid s) := by
  unfold Machine.askOffer
  split
  · exact h
  · split
    · exact h
    · split
      · exact .dropItem h
      · split
        · split
          · exact h
          · exact .modThread (.handOut h)
        · exact h

/-! DONE (R125). -/

theorem Canon.finishDone {t status : Nat} {s : State} (h : Canon s) : Canon (finishDone t status s) := .modThread (.retire h)

theorem Canon.doneRun {t : Nat} {w : Insn} {s : State} (h : Canon s) : (doneRun t w s).AllCanon := by
  unfold Machine.doneRun
  dsimp only
  split
  · exact h
  · split
    · exact .block h
    · exact Canon.withStores h (fun _ ha => .finishDone ha)

theorem Canon.rowDone : rowDone.Canonical := by
  intro t w s h
  dsimp only [Machine.rowDone]
  exact Canon.doneRun h

theorem Canon.doneRetire {t : Nat} {s : State} (h : Canon s) : Canon (doneRetire t s) := by
  unfold Machine.doneRetire
  dsimp only
  split
  · split
    · exact h
    · split
      · rename_i e1
        exact .fault (.of_snd e1 (.drainStores h))
      · rename_i e1
        exact .modThread (.finishDone (.of_snd e1 (.drainStores h)))
  · exact h

/-! POST and POSTNB (R124, R166). -/

theorem Canon.postRun {block : Bool} {t : Nat} {w : Insn} {s : State} (h : Canon s) : (postRun block t w s).AllCanon := by
  unfold Machine.postRun
  dsimp only
  split
  · exact h
  · refine Canon.withStores h (fun _ ha => ?_)
    split
    · rename_i e1
      split
      · exact .block (.of_snd e1 (.offer ha))
      · exact .modThread (.of_snd e1 (.offer ha))
    · rename_i e1
      exact .ite (.of_snd e1 (.offer ha)) (.modThread (.of_snd e1 (.offer ha)))

theorem Canon.rowPost : rowPost.Canonical := by
  intro t w s h
  dsimp only [Machine.rowPost]
  exact Canon.postRun h

theorem Canon.rowPostnb : rowPostnb.Canonical := by
  intro t w s h
  dsimp only [Machine.rowPostnb]
  exact Canon.postRun h

theorem Canon.postResume {t : Nat} {s : State} (h : Canon s) : Canon (postResume t s) := by
  unfold Machine.postResume
  split
  · split
    · exact h
    · split
      · exact h
      · rename_i e1
        exact .modThread (.of_snd e1 (.offer h))
  · exact h

/-! WAITU and WAITANY (R126, R130). -/

theorem Canon.waituRun {t : Nat} {w : Insn} {s : State} (h : Canon s) : (waituRun t w s).AllCanon := by
  unfold Machine.waituRun
  dsimp only
  split
  · exact h
  · split
    · exact h
    · exact .block h
    · exact .modThread h

theorem Canon.rowWaitu : rowWaitu.Canonical := by
  intro t w s h
  dsimp only [Machine.rowWaitu]
  exact Canon.waituRun h

theorem Canon.waitanyRun {t : Nat} {w : Insn} {s : State} (h : Canon s) : (waitanyRun t w s).AllCanon := by
  unfold Machine.waitanyRun
  dsimp only
  split
  · exact .modThread h
  · split
    · exact .block h
    · exact h

theorem Canon.rowWaitany : rowWaitany.Canonical := by
  intro t w s h
  dsimp only [Machine.rowWaitany]
  exact Canon.waitanyRun h

/-! The rows. -/

theorem Canon.execAcca {t : Fin 8192} {w : Insn} {s : State} (h : Canon s) : OutCanon (execAcca t w s) := .issue Canon.rowAcca h

theorem Canon.execAccAllocGrant {pod : Fin 512} {s : State} (h : Canon s) : OutCanon (execAccAllocGrant pod s) := .accAllocGrant h

theorem Canon.execAccf {t : Fin 8192} {w : Insn} {s : State} (h : Canon s) : OutCanon (execAccf t w s) := .issue Canon.rowAccf h

theorem Canon.execVaccadd {t : Fin 8192} {w : Insn} {s : State} (h : Canon s) : OutCanon (execVaccadd t w s) := .issue Canon.rowAccVec h

theorem Canon.execVaccmax {t : Fin 8192} {w : Insn} {s : State} (h : Canon s) : OutCanon (execVaccmax t w s) := .issue Canon.rowAccVec h

theorem Canon.execVaccmin {t : Fin 8192} {w : Insn} {s : State} (h : Canon s) : OutCanon (execVaccmin t w s) := .issue Canon.rowAccVec h

theorem Canon.execVaccrd {t : Fin 8192} {w : Insn} {s : State} (h : Canon s) : OutCanon (execVaccrd t w s) := .issue Canon.rowVaccrd h

theorem Canon.execVaccwr {t : Fin 8192} {w : Insn} {s : State} (h : Canon s) : OutCanon (execVaccwr t w s) := .issue Canon.rowAccVec h

theorem Canon.execVaccz {t : Fin 8192} {w : Insn} {s : State} (h : Canon s) : OutCanon (execVaccz t w s) := .issue Canon.rowVaccz h

theorem Canon.execAsk {t : Fin 8192} {w : Insn} {s : State} (h : Canon s) : OutCanon (execAsk t w s) := .issue Canon.rowAsk h

theorem Canon.execAsknb {t : Fin 8192} {w : Insn} {s : State} (h : Canon s) : OutCanon (execAsknb t w s) := .issue Canon.rowAsknb h

theorem Canon.execAskOffer {t : Fin 8192} {flow : Nat} {s : State} (h : Canon s) : OutCanon (execAskOffer t flow s) := .askOffer h

theorem Canon.execDone {t : Fin 8192} {w : Insn} {s : State} (h : Canon s) : OutCanon (execDone t w s) := .issue Canon.rowDone h

theorem Canon.execDoneRetire {t : Fin 8192} {s : State} (h : Canon s) : OutCanon (execDoneRetire t s) := .doneRetire h

theorem Canon.execPost {t : Fin 8192} {w : Insn} {s : State} (h : Canon s) : OutCanon (execPost t w s) := .issue Canon.rowPost h

theorem Canon.execPostResume {t : Fin 8192} {s : State} (h : Canon s) : OutCanon (execPostResume t s) := .postResume h

theorem Canon.execPostnb {t : Fin 8192} {w : Insn} {s : State} (h : Canon s) : OutCanon (execPostnb t w s) := .issue Canon.rowPostnb h

theorem Canon.execWaitu {t : Fin 8192} {w : Insn} {s : State} (h : Canon s) : OutCanon (execWaitu t w s) := .issue Canon.rowWaitu h

theorem Canon.execWaitany {t : Fin 8192} {w : Insn} {s : State} (h : Canon s) : OutCanon (execWaitany t w s) := .issue Canon.rowWaitany h

/-! The control blocks' bags (R323). -/

theorem Io.Keeps.readWeights {ctx addr : Nat} : (readWeights ctx addr).Keeps := .bind .memRead fun _ => .pure

/-! EMBG (R322, R323, R326). -/

theorem Canon.undoGather {g : Gather} {s : State} (h : Canon s) : Canon (undoGather g s) := by
  unfold Machine.undoGather
  split
  · exact h
  · exact .ite (.ite (.drawWords h) h) (.foldl (fun _ _ ha => .scramble ha) h)

theorem Canon.endGather {gid : Nat} {s : State} (h : Canon s) : Canon (endGather gid s) := by
  unfold Machine.endGather
  split
  · exact h
  · exact .ite h (.failOp (.embUnpin (.fields (.ite (.undoGather h) h))))

/-! The coalescer (R324). -/

theorem Canon.setRowReads {s : State} {u : Nat} {l : List RowRead} (h : Canon s) : Canon (s.setRowReads u l) := h

theorem Canon.startReads {u : Nat} {s : State} (h : Canon s) : Canon (startReads u s) := .modEmbUnit (.setRowReads h)

theorem Canon.requestRow {h1 v row gid i : Nat} {s : State} (h : Canon s) : Canon (requestRow h1 v row gid i s) := by
  unfold Machine.requestRow
  split
  · exact h
  · exact .ite (.modEmbUnit (.modEmbCtr (.setRowReads h))) (.startReads (.setRowReads h))

theorem Canon.deliverRow {g : Gather} {t : EmbTable} {i : Nat} {b : List Byte} {s : State} (h : Canon s) : Canon (deliverRow g t i b s).2 := by
  unfold Machine.deliverRow
  dsimp only
  split
  · split
    · exact h
    · exact .drawWords (.modPod h)
  · split <;> (rename_i e; exact .of_snd e (.ownWrite h))

theorem Canon.settleRow {h1 : Nat} {res : Except Err (List Byte)} {s : State} {a : Nat × Nat} (h : Canon s) :
    Canon (settleRow h1 res s a) := by
  unfold Machine.settleRow
  split
  · split
    · exact .endGather h
    · exact .endGather (.fields (.modEmbCtr (.deliverRow h)))
  · exact h

theorem Canon.rowReadDone {u k : Nat} {ev : MemEvent} {s : State} (h : Canon s) : Canon (rowReadDone u k ev s) := by
  unfold Machine.rowReadDone
  split
  · exact h
  · split
    · exact h
    · split
      · exact h
      · refine .startReads (.foldl (fun _ _ ha => .settleRow ha) ?_)
        split
        · rename_i e2
          exact .of_snd e2 (.meet (.setRowReads h))
        · rename_i e2
          split <;> (rename_i e3; exact .of_snd e3 (.io .memRead (.of_snd e2 (.meet (.setRowReads h)))))

theorem Canon.embgIssue {iss : Issuer} {ctx addr a : Nat} {active : List Nat} {s : State} (h : Canon s) :
    Canon (embgIssue iss ctx addr a active s) := by
  unfold Machine.embgIssue
  dsimp only
  split
  · rename_i e
    exact .failOp (.of_snd e (.io .memRead h))
  · rename_i e
    split
    · exact .failOp (.of_snd e (.io .memRead h))
    · exact .of_snd e (.io .memRead h)
    · split
      · rename_i e3
        refine .failOp (.undoGather (.of_snd e3 (.io ?_ (.of_snd e (.io .memRead h)))))
        split
        · exact .readWeights
        · exact .pure
      · rename_i e3
        refine .endGather (.foldl (fun _ _ ha1 => ?_) (.watchOp (.embPin (.fields (.of_snd e3 (.io ?_ (.of_snd e (.io .memRead h))))))))
        · split
          · exact .requestRow (.modEmbCtr ha1)
          · exact .ite (.requestRow ha1) (.requestRow (.modEmbCtr ha1))
        · split
          · exact .readWeights
          · exact .pure

/-! EMBU (R327, R328). -/

theorem Io.Keeps.gradient {ctx n i : Nat} {d : List Byte} {active weights : List Nat} : (gradient ctx d n active weights i).Keeps :=
  .bind .memRead fun _ => .pure

theorem Canon.settleEmbus {l l1 : List Embu} {s : State} (h : Canon s) : Canon (settleEmbus l l1 s).2 := by
  induction l1 generalizing l s with
  | nil => exact h
  | cons _ _ ih =>
    unfold Machine.settleEmbus
    dsimp only
    split
    · exact ih h
    · split
      · exact ih (.ite h (.failOp h))
      · split
        · exact ih (.ite h (.failOp h))
        · exact ih (.modEmb (.ite h (.failOp h)))

theorem Canon.settleEmb {s : State} (h : Canon s) : Canon s.settleEmb := .fields (.settleEmbus h)

theorem Canon.sendDelta {h1 part row : Nat} {vals : List Nat} {s : State} (h : Canon s) : Canon (sendDelta h1 part row vals s) := by
  unfold Machine.sendDelta
  split
  · exact h
  · exact .ite (.modEmbCtr h) (.fabSend (.modEmb h))

theorem Canon.embuElement {h1 : Nat} {t : EmbTable} {null : Bool} {raw : Nat} {vals : List Nat} {a : List Delta × State} (ha : Canon a.2) :
    Canon (embuElement h1 t null raw vals a).2 := by
  unfold Machine.embuElement
  split
  · split
    · exact ha
    · exact .sendDelta ha
  · split
    · exact .modEmbCtr ha
    · exact .modEmbCtr (.modEmbCtr ha)

theorem Canon.embuIssue {iss : Issuer} {ctx addr a : Nat} {active : List Nat} {s : State} (h : Canon s) :
    Canon (Machine.embuIssue iss ctx addr a active s) := by
  have hg (d : List Byte) (t : EmbTable) : Io.Keeps (do
      let ws ← if bit (fld d 0xA 2) 1 then Machine.readWeights ctx (fld d 0x28 8) else pure []
      active.mapM (Machine.gradient ctx d t.d active ws)) :=
    .ite (.bind .readWeights fun _ => .mapM (fun _ => .gradient) _) (.bind .pure fun _ => .mapM (fun _ => .gradient) _)
  unfold Machine.embuIssue
  split
  · rename_i e
    exact .failOp (.of_snd e (.io .memRead h))
  · rename_i e
    have hu : Canon _ := .of_snd e (.io .memRead h)
    dsimp only
    split
    · exact .failOp hu
    · exact hu
    · split
      · rename_i e1
        exact .failOp (.of_snd e1 (.io (hg _ _) hu))
      · rename_i e1
        exact .settleEmb (foldl_inv (P := fun x : List Delta × State => Canon x.2) (fun _ _ hx => .embuElement hx) (.of_snd e1 (.io (hg _
          _) hu)))

theorem Canon.rowEmb {update : Bool} : (rowEmb update).Canonical := by
  intro t w s h
  dsimp only [Machine.rowEmb]
  split
  · exact .block h
  · exact Canon.asyncIssue h (fun _ _ hb => .ite (.embuIssue hb) (.embgIssue hb))

/-! What arrives (R329, R470). -/

theorem Canon.takeArrival {s : State} {p vc : Nat} {f : TFrame} (h : Canon s) : Canon (s.takeArrival p vc f) :=
  .ite (.giveBack (.modFport h)) h

theorem Canon.embDropped {n : Nat} {s : State} (h : Canon s) : Canon (embDropped n s) := .modEmbUnit (.draw h)

theorem Canon.deltaReceive {k : Nat} {s : State} (h : Canon s) : Canon (deltaReceive k s) := by
  unfold Machine.deltaReceive
  dsimp only
  split
  · split
    · exact h
    · split
      · exact .embDropped (.deltaRecords (.takeArrival h))
      · exact .ite (.closeAll (.foldl (fun _ _ ha => .placeDelta ha) (.takeArrival h))) h
  · split
    · exact h
    · split
      · exact .ite h (.closeAll (.settleEmb (.fields (.placeDelta (.modEmb h)))))
      · exact .settleEmb h

theorem Canon.embArrival {k op : Nat} {go : Nat → EmbTable → TFrame → State → State} {s : State}
    (hgo : ∀ (a : Nat) (b : EmbTable) (c : TFrame) (d : State), Canon d → Canon (go a b c d)) (h : Canon s) :
    Canon (embArrival k op go s) := by
  unfold Machine.embArrival
  split
  · exact h
  · split
    · exact .ite (.embDropped (.takeArrival h)) (.takeArrival h)
    · exact hgo _ _ _ _ (.takeArrival h)

theorem Canon.tokenReceive {k : Nat} {s : State} (h : Canon s) : Canon (tokenReceive k s) :=
  .embArrival (fun _ _ _ _ ha_3 => .ite ha_3 (.takeToken ha_3)) h

theorem Canon.noticeReceive {k : Nat} {s : State} (h : Canon s) : Canon (noticeReceive k s) :=
  .embArrival (fun _ _ _ _ ha_3 => .ite ha_3 (.takeNotice ha_3)) h

theorem Canon.lostReceive {k : Nat} {s : State} (h : Canon s) : Canon (lostReceive k s) := .embArrival (fun _ _ _ _ ha_3 => .modEmb ha_3) h

/-! The rows. -/

theorem Canon.execEmbg {t : Fin 8192} {w : Insn} {s : State} (h : Canon s) : OutCanon (execEmbg t w s) := .issue Canon.rowEmb h

theorem Canon.execEmbu {t : Fin 8192} {w : Insn} {s : State} (h : Canon s) : OutCanon (execEmbu t w s) := .issue Canon.rowEmb h

theorem Canon.execEmbRowReadDone {u : Fin 32} {k : Nat} {ev : MemEvent} {s : State} (h : Canon s) :
    OutCanon (execEmbRowReadDone u k ev s) := .rowReadDone h

theorem Canon.execEmbDeltaReceive {k : Nat} {s : State} (h : Canon s) : OutCanon (execEmbDeltaReceive k s) := .deltaReceive h

theorem Canon.execEmbTokenReceive {k : Nat} {s : State} (h : Canon s) : OutCanon (execEmbTokenReceive k s) := .tokenReceive h

theorem Canon.execEmbNoticeReceive {k : Nat} {s : State} (h : Canon s) : OutCanon (execEmbNoticeReceive k s) := .noticeReceive h

theorem Canon.execEmbLostReceive {k : Nat} {s : State} (h : Canon s) : OutCanon (execEmbLostReceive k s) := .lostReceive h

/-! The course of an operation. -/

theorem Canon.remoteUndo {s : State} {o : RemoteOp} (h : Canon s) : Canon (remoteUndo s o) :=
  .ite (.scramble h) (.ite (.foldl (fun _ _ ha => .scramble ha) h) h)

theorem Canon.wakeRemote {s : State} (h : Canon s) : Canon (wakeRemote s) := .foldl (fun _ _ ha => .wake ha) h

theorem Canon.remoteEnd {k : Nat} {e : Err} {s : State} (h : Canon s) : Canon (remoteEnd k e s) := by
  unfold Machine.remoteEnd
  split
  · exact h
  · exact .wakeRemote (.failOp (.fields (.ite h (.remoteUndo h))))

theorem Canon.remoteSettle {k : Nat} {s : State} (h : Canon s) : Canon (remoteSettle k s) := by
  unfold Machine.remoteSettle
  split
  · exact h
  · split
    · exact h
    · split <;> exact .remoteEnd h

theorem Canon.modRemote {k : Nat} {f : RemoteOp → RemoteOp} {s : State} (h : Canon s) : Canon (modRemote k f s) := by
  unfold Machine.modRemote
  split <;> exact h

theorem Canon.remoteFail {k i : Nat} {e : Err} {s : State} (h : Canon s) : Canon (remoteFail k i e s) := .modRemote h

theorem Canon.sendOne {k : Nat} {s : State} (h : Canon s) : Canon (sendOne k s) := by
  unfold Machine.sendOne
  dsimp only
  split
  · exact h
  · split
    · exact h
    · split
      · rename_i e2
        refine .remoteFail (.modRemote (.of_snd e2 (.io ?_ (.modRemote h))))
        split
        · exact .memRead
        · exact .pure
      · rename_i e2
        refine .fabSend (.fields (.freshTag (.of_snd e2 (.io ?_ (.modRemote h)))))
        split
        · exact .memRead
        · exact .pure

theorem Canon.sendLoop {k n : Nat} {s : State} (h : Canon s) : Canon (sendLoop k n s) := by
  induction n generalizing s with
  | zero => exact h
  | succ _ ih =>
    unfold Machine.sendLoop
    split
    · exact h
    · exact .ite (ih (.sendOne h)) h

theorem Canon.pumpOps {s : State} (h : Canon s) : Canon (pumpOps s) := .foldl (fun _ _ ha => .remoteSettle (.sendLoop ha)) h

theorem Canon.remoteIssue {iss : Issuer} {ctx addr : Nat} {s : State} (h : Canon s) : Canon (remoteIssue iss ctx addr s) :=
  .withDesc h (fun _ _ hb => .checkOp hb (fun _ ha1 => .pumpOps ha1))

theorem Canon.rowFabric : rowFabric.Canonical := by
  intro t w s h
  dsimp only [Machine.rowFabric]
  split
  · exact .block h
  · exact Row.Canonical.run (Canon.rowJob (fun _ _ _ _ ha_3 => .remoteIssue ha_3)) h

/-! At the target (R465). -/

theorem Canon.respond {f : TFrame} {op aux : Nat} {payload : List Byte} {s : State} (h : Canon s) : Canon (respond f op aux payload s) :=
  .fabSend h

theorem Canon.refuse {f : TFrame} {e : Err} {s : State} (h : Canon s) : Canon (refuse f e s) := .respond h

theorem Canon.serve {p op : Nat} {go : TFrame → State → State} {s : State} (hgo : ∀ (a : TFrame) (b : State), Canon b → Canon (go a b))
    (h : Canon s) : Canon (serve p op go s) := by
  unfold Machine.serve
  split
  · exact h
  · exact .ite (.refuse (.takeArrival h)) (hgo _ _ (.takeArrival h))

theorem Canon.remoteWrite {p : Nat} {s : State} (h : Canon s) : Canon (remoteWrite p s) := by
  unfold Machine.remoteWrite
  refine .serve (fun _ _ hb => ?_) h
  split
  · rename_i e
    exact .refuse (.of_snd e (.io .memWrite hb))
  · rename_i e
    exact .respond (.of_snd e (.io .memWrite hb))

theorem Canon.readReq {p : Nat} {s : State} (h : Canon s) : Canon (readReq p s) := by
  unfold Machine.readReq
  refine .serve (fun _ _ hb => ?_) h
  split
  · rename_i e
    exact .refuse (.of_snd e (.io .memRead hb))
  · rename_i e
    exact .respond (.of_snd e (.io .memRead hb))

theorem Canon.atomicReq {p : Nat} {s : State} (h : Canon s) : Canon (atomicReq p s) := by
  unfold Machine.atomicReq
  dsimp only
  refine .serve (fun _ _ hb => ?_) h
  split
  · rename_i e
    exact .refuse (.of_snd e (.io .memModify hb))
  · rename_i e
    exact .respond (.of_snd e (.io .memModify hb))

theorem Canon.enterItems {fid src : Nat} {b : List Byte} {n n1 : Nat} {s : State} (h : Canon s) : Canon (enterItems fid src b n n1 s).2.2 := by
  induction n generalizing n1 s with
  | zero => exact h
  | succ _ ih =>
    unfold Machine.enterItems
    split
    · rename_i e
      exact ih (.of_snd e (.offer h))
    · rename_i e
      exact .of_snd e (.offer h)
    · rename_i e
      exact .of_snd e (.offer h)

theorem Canon.sendReceive {p : Nat} {s : State} (h : Canon s) : Canon (sendReceive p s) := by
  unfold Machine.sendReceive
  split
  · exact h
  · exact .ite (.refuse (.takeArrival h)) (.ite (.respond (.takeArrival (.enterItems h))) (.ite (.modFport (.enterItems h)) (.fields
      (.enterItems h))))

/-! At the issuer (R466 to R468). -/

theorem Canon.takeResponse {r : RemoteReq} {f : TFrame} {s : State} (h : Canon s) : Canon (takeResponse r f s) := by
  unfold Machine.takeResponse
  dsimp only
  split
  · exact h
  · split
    · exact .remoteFail h
    · split
      · rename_i e2
        exact .modRemote (.of_snd e2 (.io .memWrite h))
      · rename_i e2
        exact .remoteFail (.of_snd e2 (.io .memWrite h))
    · split
      · exact .modRemote h
      · split
        · rename_i e2
          exact .modRemote (.of_snd e2 (.io .memWrite h))
        · rename_i e2
          exact .remoteFail (.of_snd e2 (.io .memWrite h))
    · exact .modRemote h

theorem Canon.responseReceive {p : Nat} {s : State} (h : Canon s) : Canon (responseReceive p s) := by
  unfold Machine.responseReceive
  dsimp only
  split
  · exact h
  · split
    · exact .pumpOps (.wakeRemote (.remoteSettle (.takeResponse (.fields (.takeArrival h)))))
    · exact .ite (.embResend (.takeArrival h)) (.takeArrival h)
    · exact .takeArrival h

theorem Canon.requestTimeout {tag : Nat} {s : State} (h : Canon s) : Canon (requestTimeout tag s) := by
  unfold Machine.requestTimeout
  split
  · exact h
  · exact .ite (.pumpOps (.remoteEnd h)) h

/-! The rows. -/

theorem Canon.execFabricOperation {t : Fin 8192} {w : Insn} {s : State} (h : Canon s) : OutCanon (execFabricOperation t w s) :=
  .ite (.issue Canon.rowFabric h) h

theorem Canon.execRemoteWriteReceive {p : Fin 13} {s : State} (h : Canon s) : OutCanon (execRemoteWriteReceive p s) := .remoteWrite h

theorem Canon.execReadReqReceive {p : Fin 13} {s : State} (h : Canon s) : OutCanon (execReadReqReceive p s) := .readReq h

theorem Canon.execAtomicReceive {p : Fin 13} {s : State} (h : Canon s) : OutCanon (execAtomicReceive p s) := .atomicReq h

theorem Canon.execSendReceive {p : Fin 13} {s : State} (h : Canon s) : OutCanon (execSendReceive p s) := .sendReceive h

theorem Canon.execRemoteResponseReceive {p : Fin 13} {s : State} (h : Canon s) : OutCanon (execRemoteResponseReceive p s) :=
  .responseReceive h

theorem Canon.execRemoteRequestTimeout {req : Nat} {s : State} (h : Canon s) : OutCanon (execRemoteRequestTimeout req s) :=
  .requestTimeout h

/-! Messages (R454). -/

theorem Canon.sendDisc {s : State} {p : Nat} {b : List Byte} (h : Canon s) : Canon (s.sendDisc p b) := .pushPort h

theorem Canon.floodDisc {s : State} {but : List Nat} {b : List Byte} (h : Canon s) : Canon (s.floodDisc but b) :=
  .foldl (fun _ _ ha => .sendDisc ha) h

theorem Canon.nextMsg {s : State} {p msg : Nat} {u : List Byte × State} (e : s.nextMsg p msg = some u) (h : Canon s) : Canon u.2 := by
  unfold State.nextMsg at e
  dsimp only at e
  split at e
  · cases e
  · split at e
    · cases e
    · split at e <;> cases e
      exact h

theorem Canon.modDisc {s : State} {f : Discovery → Discovery} (h : Canon s) : Canon (s.modDisc f) := h

/-! Steps 1 and 2 of R455. -/

theorem Canon.endRediscover {s : State} {parts : Nat} (h : Canon s) : Canon (s.endRediscover parts) := .finishAll h

theorem Canon.discTrigger {s : State} (h : Canon s) : Canon (discTrigger s) := .ite (.pumpOps (.endRediscover h)) (.pumpOps (.floodDisc h))

theorem Canon.discSettle {s : State} (h : Canon s) : Canon (discSettle s) := by
  unfold Machine.discSettle
  split
  · exact h
  · exact .ite (.discTrigger h) h

theorem Canon.discStart {p : Nat} {s : State} (h : Canon s) : Canon (discStart p s) := by
  unfold Machine.discStart
  split
  · exact h
  · rename_i e
    exact .ite (.pumpOps (.floodDisc (.fields (.nextMsg e h)))) (.nextMsg e h)

/-! Step 7 of R455, and R471. -/

theorem Canon.endLost {s : State} (h : Canon s) : Canon (endLost s) := .foldl (fun _ _ ha => .remoteEnd ha) h

theorem Canon.reportParts {lost joined : List Nat} {s : State} (h : Canon s) : Canon (reportParts lost joined s) := by
  unfold Machine.reportParts
  refine .foldl (fun _ _ ha => ?_) (.foldl (fun _ _ ha => .fabEvent (.embPartLost ha)) h)
  split
  · exact .fabEvent ha
  · exact .fabEvent (.draw ha)

theorem Canon.discCommit {s : State} (h : Canon s) : Canon (discCommit s) := by
  unfold Machine.discCommit
  split
  · exact h
  · exact .pumpOps (.endRediscover (.endLost (.reportParts (.ite (.fabEvent (.fabEvent (.fields (.ite h (.draw h))))) (.fabEvent (.fields
      (.ite h (.draw h))))))))

/-! Steps 3 to 7 of R455. -/

theorem Canon.rootFinish {s : State} (h : Canon s) : Canon (rootFinish s) := by
  unfold Machine.rootFinish
  split
  · exact h
  · exact .ite (.discCommit (.floodDisc h)) h

theorem Canon.rootCompute {s : State} (h : Canon s) : Canon (rootCompute s) := by
  unfold Machine.rootCompute
  split
  · exact h
  · exact .ite (.rootFinish (.foldl (fun _ _ ha => .foldl (fun _ _ ha1 => .sendDisc ha1) ha) (.modDisc h))) h

theorem Canon.discReportTimer {s : State} (h : Canon s) : Canon (discReportTimer s) := by
  unfold Machine.discReportTimer
  split
  · exact h
  · split
    · split
      · exact .sendDisc (.modDisc h)
      · exact .rootCompute (.modDisc h)
    · exact h

theorem Canon.ofEpoch {s : State} {b : List Byte} {go : Discovery → State → State} (h : Canon s)
    (hgo : ∀ (a : Discovery) (b : State), Canon b → Canon (go a b)) : Canon (s.ofEpoch b go) := by
  unfold State.ofEpoch
  split
  · exact h
  · exact .ite (hgo _ _ h) h

theorem Canon.discReport {p : Nat} {s : State} (h : Canon s) : Canon (discReport p s) := by
  unfold Machine.discReport
  split
  · exact h
  · rename_i e
    refine .ofEpoch (.nextMsg e h) (fun _ _ hb => ?_)
    split
    · exact .sendDisc (.modDisc hb)
    · exact .rootCompute (.modDisc hb)

theorem Canon.discTable {p : Nat} {s : State} (h : Canon s) : Canon (discTable p s) := by
  unfold Machine.discTable
  dsimp only
  split
  · exact h
  · rename_i e
    refine .ofEpoch (.nextMsg e h) (fun _ _ hb => ?_)
    split
    · split
      · split
        · exact .sendDisc (.modDisc (.modDisc (.ite hb hb)))
        · exact .modDisc (.ite hb hb)
      · exact .modDisc (.ite hb hb)
    · split
      · exact .sendDisc (.ite hb hb)
      · exact .ite hb hb

theorem Canon.discTableAck {p : Nat} {s : State} (h : Canon s) : Canon (discTableAck p s) := by
  unfold Machine.discTableAck
  split
  · exact h
  · rename_i e
    refine .ofEpoch (.nextMsg e h) (fun _ _ hb => ?_)
    split
    · exact .sendDisc hb
    · exact .rootFinish (.modDisc hb)

theorem Canon.discCommitReceive {p : Nat} {s : State} (h : Canon s) : Canon (discCommitReceive p s) := by
  unfold Machine.discCommitReceive
  split
  · exact h
  · rename_i e
    exact .ofEpoch (.nextMsg e h) (fun _ _ hb => .discCommit (.floodDisc hb))

/-! FABRIC_STATUS and FABRIC_REDISCOVER (R473, R474). -/

theorem Canon.fabricStatus {x : Frame} {n : Nat} {x1 : Session} {s : State} (h : Canon s) : (fabricStatus x n x1 s).AllCanon := by
  unfold Machine.fabricStatus
  split <;> exact h

theorem Canon.fabricRediscover {x : Frame} {n : Nat} {x1 : Session} {s : State} (h : Canon s) : (fabricRediscover x n x1 s).AllCanon := by
  unfold Machine.fabricRediscover
  split
  · exact h
  · split
    · exact h
    · split
      · exact h
      · exact .ite h (.discTrigger h)

/-! The rows. -/

theorem Canon.execDiscoverySettleTimer {s : State} (h : Canon s) : OutCanon (execDiscoverySettleTimer s) := .discSettle h

theorem Canon.execDiscoveryStartReceive {p : Fin 12} {s : State} (h : Canon s) : OutCanon (execDiscoveryStartReceive p s) := .discStart h

theorem Canon.execDiscoveryReportTimer {s : State} (h : Canon s) : OutCanon (execDiscoveryReportTimer s) := .discReportTimer h

theorem Canon.execDiscoveryReportReceive {p : Fin 12} {s : State} (h : Canon s) : OutCanon (execDiscoveryReportReceive p s) := .discReport h

theorem Canon.execDiscoveryTableReceive {p : Fin 12} {s : State} (h : Canon s) : OutCanon (execDiscoveryTableReceive p s) := .discTable h

theorem Canon.execDiscoveryTableAckReceive {p : Fin 12} {s : State} (h : Canon s) : OutCanon (execDiscoveryTableAckReceive p s) :=
  .discTableAck h

theorem Canon.execDiscoveryCommitReceive {p : Fin 12} {s : State} (h : Canon s) : OutCanon (execDiscoveryCommitReceive p s) :=
  .discCommitReceive h

theorem Canon.execFabricStatus {f : Frame} {s : State} (h : Canon s) : OutCanon (execFabricStatus f s) :=
  .rcpRun (fun _ _ _ _ hs1 => Canon.fabricStatus hs1) h

theorem Canon.execFabricRediscover {f : Frame} {s : State} (h : Canon s) : OutCanon (execFabricRediscover f s) :=
  .rcpRun (fun _ _ _ _ hs1 => Canon.fabricRediscover hs1) h

/-! The booted flash, the security configuration record, the certificate store, the identity key and the measurement registers (R483, R489 to R497). -/

theorem Canon.modFlash {s : State} {f : Flash → Flash} (h : Canon s) : Canon (s.modFlash f) := .ite h h

theorem Canon.writeSec {s : State} {hosts signers : List (List Byte)} (h : Canon s) : Canon (s.writeSec hosts signers) := .modFlash h

theorem Canon.signIdentity {s : State} {msg : List Byte} (h : Canon s) : Canon (s.signIdentity msg).2 := .draw h

theorem Canon.extend {s : State} {k : Nat} {d : List Byte} (h : Canon s) : Canon (s.extend k d) := h

/-! IMAGE_LOAD (R135, R136). -/

theorem Canon.mapCopy {ctx : Nat} {bs : List Byte} {x : Bool} {s : State} (h : Canon s) : Canon (mapCopy ctx bs x s).2 :=
  .storePieces (.modCtx (.chooseVa (.zeroAll h)))

theorem Canon.replaceThreads {old new : Nat} {s : State} (h : Canon s) : Canon (replaceThreads old new s) := by
  unfold Machine.replaceThreads
  refine .imageSettle (.foldl (fun _ _ ha => ?_) h)
  split
  · exact .moveThread ha
  · exact ha

theorem Canon.redirectImage {old new : Nat} {s : State} (h : Canon s) : Canon (redirectImage old new s) := h

theorem Canon.loadGo {ctx : Nat} {p img : List Byte} {s : State} (h : Canon s) : (loadGo ctx p img s).AllCanon := by
  unfold Machine.loadGo
  extract_lets c d old hh dg im src src' s1 s2 s3
  have hc : Canon c.2 := .mapCopy h
  have hd : Canon d.2 := by
    unfold d
    split
    · exact hc
    · exact .mapCopy hc
  have h1 : Canon s1 := .extend (.fields (.fresh hd))
  have h2 : Canon s2 := .foldl (fun _ _ ha => .start ha) h1
  show Canon s3
  unfold s3
  cases old with
  | none => exact h2
  | some o => exact .replaceThreads (.redirectImage h2)

theorem Canon.imageLoad {x : Frame} {n : Nat} {x1 : Session} {s : State} (h : Canon s) : (imageLoad x n x1 s).AllCanon := by
  unfold Machine.imageLoad
  dsimp only
  split
  · exact .ite (.countRefused h) h
  · split
    · rename_i e1
      exact .of_snd e1 (.io .memRead h)
    · rename_i e1
      split
      · exact .of_snd e1 (.io .memRead h)
      · exact Canon.loadGo (.of_snd e1 (.io .memRead h))

/-! IMAGE_UNLOAD (R138). -/

theorem Canon.unbindImage {h1 : Nat} {drain : Bool} {s : State} (h : Canon s) : Canon (unbindImage h1 drain s) :=
  .imageSettle (.foldl (fun _ _ ha => .ite (.unbindThread ha) ha) h)

theorem Canon.stopImage {h1 : Nat} {s : State} (h : Canon s) : Canon (stopImage h1 s) := by
  unfold Machine.stopImage
  split <;> exact h

theorem Canon.imageUnload {x : Frame} {n : Nat} {x1 : Session} {s : State} (h : Canon s) : (imageUnload x n x1 s).AllCanon := by
  unfold Machine.imageUnload
  refine Canon.check h ?_
  split
  · exact ⟨.stopImage h, fun _ ha => .unbindImage ha⟩
  · exact .unbindImage (.stopImage h)

theorem Canon.execImageLoad {f : Frame} {s : State} (h : Canon s) : OutCanon (execImageLoad f s) :=
  .rcpRun (fun _ _ _ _ hs1 => Canon.imageLoad hs1) h

theorem Canon.execImageUnload {f : Frame} {s : State} (h : Canon s) : OutCanon (execImageUnload f s) :=
  .rcpRun (fun _ _ _ _ hs1 => Canon.imageUnload hs1) h

/-! The job's parts. -/

theorem Canon.modCodecCtr {s : State} {e : Nat} {f : CodecCtr → CodecCtr} (h : Canon s) : Canon (s.modCodecCtr e f) := h

/-! Queues and lanes. -/

theorem Canon.setCodecQ {s : State} {e : Nat} {l : List LaneWork} (h : Canon s) : Canon (s.setCodecQ e l) := h

theorem Canon.setCodecWait {s : State} {e : Nat} {l : List LaneWork} (h : Canon s) : Canon (s.setCodecWait e l) := h

theorem Canon.setLane {s : State} {e l : Nat} {w : Option LaneWork} (h : Canon s) : Canon (s.setLane e l w) := h

theorem Canon.codecEnqueue {e : Nat} {w : LaneWork} {s : State} (h : Canon s) : Canon (codecEnqueue e w s) := by
  unfold Machine.codecEnqueue
  split
  · exact .setCodecQ h
  · split
    · exact .block (.setCodecWait h)
    · exact .setCodecWait h

theorem Canon.codecPlace {e : Nat} {s : State} (h : Canon s) : Canon (codecPlace e s) := by
  unfold Machine.codecPlace
  split
  · exact h
  · split
    · exact h
    · split
      · exact .modThread (.setCodecQ (.setCodecWait h))
      · exact .setCodecQ (.setCodecWait h)

theorem Canon.codecLaneStart {e l : Nat} {s : State} (h : Canon s) : Canon (codecLaneStart e l s) := by
  unfold Machine.codecLaneStart
  split
  · exact h
  · exact .ite (.setLane (.setCodecQ h)) h

/-! Issue (R404, R405). -/

theorem Canon.codecIssue {iss : Issuer} {ctx addr : Nat} {s : State} (h : Canon s) : Canon (codecIssue iss ctx addr s) :=
  .withDesc h (fun _ _ hb => .checkOp hb (fun _ ha1 => .codecEnqueue (.watchOp ha1)))

theorem Canon.reservedJob {iss : Issuer} {ctx : Nat} {s : State} (h : Canon s) : Canon (reservedJob iss ctx s) := .failOp h

theorem Canon.codecStart {iss : Issuer} {ctx a : Nat} {s : State} (h : Canon s) : Canon (codecStart iss ctx a s) := by
  unfold Machine.codecStart
  split
  · exact .codecIssue h
  · exact .ite (.codecIssue h) (.reservedJob h)

theorem Canon.codecJob {t : Nat} {w : Insn} {s : State} (h : Canon s) : Canon (codecJob t w s) :=
  .issueJob (fun _ _ _ _ ha_3 => .codecStart ha_3) h

/-! A lane at work (R407, R409). -/

theorem Canon.codecSaveEnd {j : CodecJob} {detail failOff : Nat} {s : State} (h : Canon s) : Canon (codecSaveEnd j detail failOff s) :=
  .ownWrite (.drawBytes h)

theorem Canon.codecSaveAll {j : CodecJob} {s : State} (h : Canon s) : Canon (codecSaveAll j s).2 := by
  unfold Machine.codecSaveAll
  dsimp only
  split <;> (rename_i e; exact .of_snd e (.ownWrite (.drawBytes (.drawBytes h))))

theorem Canon.codecCheckCtx {j : CodecJob} {s : State} (h : Canon s) : Canon (codecCheckCtx j s).2 := by
  unfold Machine.codecCheckCtx
  split <;> (rename_i e; exact .of_snd e (.io .memRead h))

theorem Canon.codecClose {e l : Nat} {j : CodecJob} {end_ : Nat × Nat × Nat × Nat} {s : State} (h : Canon s) :
    Canon (codecClose e l j end_ s) := by
  unfold Machine.codecClose
  dsimp only
  split
  · exact .ite (.setLane h) (.ite (.parkJob (.unwatch (.setLane h))) (.ite (.endJob (.unwatch (.setLane h))) (.endJob (.unwatch (.setLane
      h)))))
  · exact .ite (.setLane (.emit h)) (.ite (.parkJob (.unwatch (.setLane (.emit h)))) (.ite (.endJob (.unwatch (.setLane (.emit h))))
      (.endJob (.unwatch (.setLane (.emit h))))))

theorem Canon.discard {j : CodecJob} {s : State} (h : Canon s) : Canon (j.discard s) := .ite (.foldl (fun _ _ ha => .scramble ha) h) h

theorem Canon.codecEnd {e l : Nat} {j : CodecJob} {er : Err} {failOff : Nat} {s : State} (h : Canon s) :
    Canon (Machine.codecEnd e l j er failOff s) := by
  unfold Machine.codecEnd
  extract_lets s1
  have h1 : Canon s1 := .modCodecCtr (.codecSaveEnd h)
  exact .codecClose (.ite (.discard h1) h1)

theorem Canon.codecSuspend {e l : Nat} {j : CodecJob} {s : State} (h : Canon s) : Canon (codecSuspend e l j s) := by
  unfold Machine.codecSuspend
  dsimp only
  split
  · rename_i e1
    exact .codecEnd (.of_snd e1 (.takeHandle h))
  · rename_i e1
    split
    · rename_i e2
      exact .codecEnd (.of_snd e2 (.codecSaveAll (.of_snd e1 (.takeHandle h))))
    · rename_i e2
      exact .codecClose (.modCodecCtr (.of_snd e2 (.codecSaveAll (.of_snd e1 (.takeHandle h)))))

theorem Canon.codecRead {j : CodecJob} {s : State} (h : Canon s) : Canon (codecRead j s).2.2 := .readSome h

theorem Canon.codecRun {e l : Nat} {j : CodecJob} {s : State} (h : Canon s) : Canon (codecRun e l j s) := by
  unfold Machine.codecRun
  dsimp only
  split
  · rename_i e1
    refine .codecEnd (.of_snd e1 ?_)
    split
    · exact .codecCheckCtx h
    · exact h
  · rename_i e1
    split
    · refine .codecEnd (.scramble (.modCodecCtr (.writeSome (.codecRead (.of_snd e1 ?_)))))
      split
      · exact .codecCheckCtx h
      · exact h
    · refine .codecSuspend (.modCodecCtr (.writeSome (.codecRead (.of_snd e1 ?_))))
      split
      · exact .codecCheckCtx h
      · exact h
    · split
      · refine .codecEnd (.modCodecCtr (.writeSome (.codecRead (.of_snd e1 ?_))))
        split
        · exact .codecCheckCtx h
        · exact h
      · refine .codecEnd (.modCodecCtr (.writeSome (.codecRead (.of_snd e1 ?_))))
        split
        · exact .codecCheckCtx h
        · exact h
      · refine .codecEnd (.modCodecCtr (.writeSome (.codecRead (.of_snd e1 ?_))))
        split
        · exact .codecCheckCtx h
        · exact h

theorem Canon.gdsRun {e l : Nat} {g : GdsDecode} {s : State} (h : Canon s) : Canon (gdsRun e l g s) := by
  unfold Machine.gdsRun
  dsimp only
  split
  · exact .modCodecCtr (.setLane h)
  · exact .setTable (.modCodecCtr (.setLane h))

theorem Canon.codecJobEnd {e l : Nat} {s : State} (h : Canon s) : Canon (codecJobEnd e l s) := by
  unfold Machine.codecJobEnd
  split
  · exact h
  · split
    · exact h
    · split
      · exact .gdsRun h
      · split
        · exact .codecClose h
        · exact .codecRun h

/-! Resume and abandon (R411). -/

theorem Canon.codecResume {e : Nat} {j : CodecJob} {iss : Issuer} {outAddr outLen : Nat} {s : State} (h : Canon s) :
    Canon (codecResume e j iss outAddr outLen s) := .codecEnqueue (.watchOp h)

theorem Canon.codecAbandon {e : Nat} {j : CodecJob} {iss : Issuer} {s : State} (h : Canon s) : Canon (codecAbandon e j iss s) := by
  unfold Machine.codecAbandon
  split
  · exact .ite (.endJob (.modCodecCtr (.codecSaveEnd (.discard h)))) (.codecEnqueue (.modCodecCtr (.codecSaveEnd (.discard h))))
  · exact .ite (.endJob (.emit (.modCodecCtr (.codecSaveEnd (.discard h))))) (.codecEnqueue (.emit (.modCodecCtr (.codecSaveEnd (.discard
      h)))))

/-! The rows. -/

theorem Canon.execCodecJob {t : Fin 8192} {w : Insn} {s : State} (h : Canon s) : OutCanon (execCodecJob t w s) := .codecJob h

theorem Canon.execCodecQueuePlace {e : Fin 16} {s : State} (h : Canon s) : OutCanon (execCodecQueuePlace e s) := .codecPlace h

theorem Canon.execCodecLaneStart {e : Fin 16} {l : Fin 8} {s : State} (h : Canon s) : OutCanon (execCodecLaneStart e l s) :=
  .codecLaneStart h

theorem Canon.execCodecJobEnd {e : Fin 16} {l : Fin 8} {s : State} (h : Canon s) : OutCanon (execCodecJobEnd e l s) := .codecJobEnd h

/-! Fields (R419, R421, R424). -/

theorem Canon.putSample {s : State} {id k : Nat} {y : Sample} (h : Canon s) : Canon (s.putSample id k y) := .modFs h

/-! Opening and closing a session (R419, R420). -/

theorem Canon.frameOpen {x : Frame} {n : Nat} {x1 : Session} {s : State} (h : Canon s) : (frameOpen x n x1 s).AllCanon := by
  unfold Machine.frameOpen
  dsimp only
  split
  · exact .ite (.countRefused h) h
  · split
    · rename_i e1
      exact .of_snd e1 (.io .memRead h)
    · rename_i e1
      exact .fields (.fresh (.of_snd e1 (.io .memRead h)))

theorem Canon.frameClose {x : Frame} {n : Nat} {x1 : Session} {s : State} (h : Canon s) : (frameClose x n x1 s).AllCanon := by
  unfold Machine.frameClose
  refine Canon.check h ?_
  split
  · exact ⟨.modFs h, fun _ ha => .settleFrames ha⟩
  · exact ⟨h, fun _ ha => .finishAll ha⟩

theorem Canon.frameSession {x : Frame} {n : Nat} {x1 : Session} {s : State} (h : Canon s) : (frameSession x n x1 s).AllCanon := by
  unfold Machine.frameSession
  split
  · exact Canon.frameClose h
  · exact Canon.frameOpen h

/-! Taking descriptors (R423, R431, R437). -/

theorem Canon.startSample {id : Nat} {x : FSession} {d : List Byte} {s : State} (h : Canon s) : Canon (startSample id x d s) :=
  .modFs (.draw h)

theorem Canon.takeSamples {id n : Nat} {s : State} (h : Canon s) : Canon (takeSamples id n s) := by
  induction n generalizing s with
  | zero => exact h
  | succ _ ih =>
    unfold Machine.takeSamples
    split
    · exact h
    · split
      · exact h
      · split
        · rename_i e1
          exact .of_snd e1 (.io .memRead h)
        · rename_i e1
          exact .ite (.of_snd e1 (.io .memRead h)) (ih (.writeDropped (.modFs (.startSample (.of_snd e1 (.io .memRead h))))))

theorem Canon.ringPoll {id : Nat} {s : State} (h : Canon s) : Canon (ringPoll id s) := by
  unfold Machine.ringPoll
  split
  · exact h
  · split
    · exact h
    · split
      · exact .takeSamples h
      · split
        · rename_i e1
          exact .of_snd e1 (.io .memRead h)
        · rename_i e1
          exact .takeSamples (.modFs (.of_snd e1 (.io .memRead h)))

/-! Stores (R426, R427). -/

theorem Canon.takeStores {s : State} {id ctx n : Nat} (h : Canon s) : Canon (s.takeStores id ctx n) := .charge (.modFs h)

theorem Canon.freeStores {s : State} {id ctx n : Nat} (h : Canon s) : Canon (s.freeStores id ctx n) := .uncharge (.modFs h)

theorem Canon.storeGrant {id k : Nat} {s : State} (h : Canon s) : Canon (storeGrant id k s) := by
  unfold Machine.storeGrant
  split
  · exact h
  · exact .ite (.putSample (.takeStores h)) h

/-! Counters (R442). -/

theorem Canon.modFi {s : State} {e : Nat} {f : FiCtr → FiCtr} (h : Canon s) : Canon (s.modFi e f) := h

/-! Decoding (R425, R426, R428, R429). -/

theorem Canon.readTo {x : FSession} {n : Nat} {y : Sample} {s : State} (h : Canon s) : Canon (readTo x n y s).2 := by
  unfold Machine.readTo
  dsimp only
  split <;> exact .readSome h

theorem Canon.newSequence {id : Nat} {x : FSession} {h1 : VideoHeader} {y : Sample} {s : State} (h : Canon s) :
    Canon (newSequence id x h1 y s).2 := by
  unfold Machine.newSequence
  dsimp only
  split
  · exact h
  · split
    · exact h
    · split
      · exact .freeStores h
      · split
        · exact .takeStores (.freeStores h)
        · exact .ite (.modFi (.fields (.freeStores h))) (.fields (.freeStores h))

theorem Canon.decodePicture {x : FSession} {v : VideoHeader} {p : CodedPicture} {left : Nat} {y : Sample} {s : State} (h : Canon s) :
    Canon (decodePicture x v p left y s).2.2 := by
  unfold Machine.decodePicture
  extract_lets u0 u r y1 s1
  have h1 : Canon s1 := .modFi h
  split
  · exact h
  · split
    · exact h
    · split <;> exact h1

theorem Canon.decodeTurn {id n left : Nat} {x : FSession} {y : Sample} {s : State} (h : Canon s) :
    Canon (Machine.decodeTurn id n left x y s).2 := by
  induction n generalizing left x y s with
  | zero => exact h
  | succ _ ih =>
    unfold Machine.decodeTurn
    split
    · exact h
    · split
      · extract_lets r
        have hr : Canon r.2 := .readTo h
        split
        · exact hr
        · split <;> exact hr
      · extract_lets r z u
        have hu : Canon u := by
          unfold u r
          split
          · exact .readTo h
          · exact h
        clear_value z u
        split
        · exact hu
        · split
          · split
            · exact hu
            · split
              · exact ih hu
              · exact ih (.newSequence hu)
          · split
            · exact ih hu
            · split
              · exact hu
              · exact hu
              · exact ih (.decodePicture hu)
          · split <;> exact hu
          · exact hu
          · exact hu
          · exact hu

/-! Output (R422, R390). -/

theorem Canon.drawElems {l : List (Option Nat)} {s : State} (h : Canon s) : Canon (drawElems l s).2 := by
  induction l generalizing s with
  | nil => exact h
  | cons x t ih => cases x <;> exact ih h

theorem Canon.sampleSlab {id n : Nat} {x : FSession} {y : Sample} {s : State} (h : Canon s) : Canon (Machine.sampleSlab id n x y s).2 := by
  unfold Machine.sampleSlab
  extract_lets k base groups elems vals pieces taken r
  have hr : Canon r.2 := .freePieces (.drawElems h)
  clear_value r
  split
  · rename_i e
    exact .of_snd e (.writeSlab hr)
  · rename_i e
    exact .modProjCtr (.of_snd e (.writeSlab hr))

theorem Canon.suspendSample {id k : Nat} {x : FSession} {y : Sample} {s : State} (h : Canon s) : Canon (suspendSample id k x y s).2 := by
  unfold Machine.suspendSample
  dsimp only
  split
  · rename_i e
    exact .of_snd e (.takeHandle h)
  · rename_i e
    refine .unwatch ?_
    split
    · exact .ite (.modProjCtr (.fields (.of_snd e (.takeHandle h)))) (.writeDropped (.modProjCtr (.fields (.of_snd e (.takeHandle h)))))
    · exact .endOp (.ite (.modProjCtr (.fields (.of_snd e (.takeHandle h)))) (.writeDropped (.modProjCtr (.fields (.of_snd e (.takeHandle
        h))))))

theorem Canon.settleSample {id k : Nat} {x : FSession} {y : Sample} {s : State} (h : Canon s) : Canon (settleSample id k x y s) :=
  .ite (.putSample h) (.ite (.queueProj (.putSample (.ite h (.watchOp h)))) (.putSample h))

theorem Canon.frameTurn {id k : Nat} {s : State} (h : Canon s) : Canon (frameTurn id k s) := by
  unfold Machine.frameTurn
  split
  · exact h
  · exact .ite h (.settleSample (.decodeTurn h))

/-! The Projection Engines' rows (R381, R387, R422). -/

theorem Canon.projStart {e : Nat} {s : State} (h : Canon s) : Canon (projStart e s) := by
  unfold Machine.projStart
  dsimp only
  split
  · split
    · exact h
    · split
      · exact .projBegin (.setProj h)
      · exact .setProj h
  · exact h

theorem Canon.sampleTurn {e id k : Nat} {s : State} (h : Canon s) : Canon (sampleTurn e id k s) := by
  unfold Machine.sampleTurn
  split
  · exact .setProj h
  · exact .ite (.putSample (.setProj h)) (.ite (.putSample (.suspendSample (.setProj h))) (.ite (.putSample (.sampleSlab h)) (.settleSample
      (.setProj (.sampleSlab h)))))

theorem Canon.projSlab {e : Nat} {s : State} (h : Canon s) : Canon (projSlab e s) := by
  unfold Machine.projSlab
  split
  · exact h
  · split
    · exact h
    · split
      · exact .jobSlab h
      · exact .sampleTurn h

/-! The end of a sample (R430 to R433). -/

theorem Canon.releaseSample {id k : Nat} {s : State} (h : Canon s) : Canon (releaseSample id k s) := by
  unfold Machine.releaseSample
  dsimp only
  split
  · exact h
  · split
    · exact .settleFrames (.modFs h)
    · split
      · exact .ite h (.modFi (.putSample h))
      · split
        · exact .ite (.settleFrames (.modFs (.fields (.modAsm h)))) (.ite h (.modFi (.putSample h)))
        · exact .ite (.settleFrames (.modFs (.fields (.emit h)))) (.ite (.emit h) (.modFi (.putSample (.emit h))))

theorem Canon.sampleEnd {id k : Nat} {s : State} (h : Canon s) : Canon (sampleEnd id k s) := by
  unfold Machine.sampleEnd
  split
  · exact h
  · split
    · exact h
    · split
      · exact h
      · refine .releaseSample (.putSample (.fields (.modProjCtr (.modFi ?_))))
        split
        · exact .unwatch (.dropSusp (.freeStores (.ite (.ite (.countRefused h) h) (.writeDropped (.ite (.countRefused h) h)))))
        · exact .endOp (.unwatch (.dropSusp (.freeStores (.ite (.ite (.countRefused h) h) (.writeDropped (.ite (.countRefused h) h))))))

theorem Canon.itemRelease {id k : Nat} {s : State} (h : Canon s) : Canon (itemRelease id k s) := by
  unfold Machine.itemRelease
  split
  · exact h
  · exact .ite (.releaseSample h) h

/-! Resume, reset and lock loss (R433, R443). -/

theorem Canon.sampleResume {id k : Nat} {iss : Issuer} {outAddr outLen : Nat} {s : State} (h : Canon s) :
    Canon (sampleResume id k iss outAddr outLen s) := by
  unfold Machine.sampleResume
  split
  · exact h
  · exact .settleSample h

theorem Canon.sampleAbandon {id k : Nat} {s : State} (h : Canon s) : Canon (sampleAbandon id k s) := by
  unfold Machine.sampleAbandon
  split
  · exact h
  · exact .putSample h

theorem Canon.stopSamples {p : Sample → Bool} {e : Err} {s : State} (h : Canon s) : Canon (stopSamples p e s) :=
  .fields (.foldl (fun _ _ ha => .dropSusp ha) h)

theorem Canon.frameEngineReset {e : Nat} {s : State} (h : Canon s) : Canon (frameEngineReset e s) := .stopSamples h

theorem Canon.frameStoresLost {mc : Nat} {s : State} (h : Canon s) : Canon (frameStoresLost mc s) := .stopSamples h

/-! The rows. -/

theorem Canon.execFrameSessionOpen {f : Frame} {s : State} (h : Canon s) : OutCanon (execFrameSessionOpen f s) :=
  .rcpAction (fun _ _ _ _ hs1 => Canon.frameOpen hs1) h

theorem Canon.execFrameSessionClose {f : Frame} {s : State} (h : Canon s) : OutCanon (execFrameSessionClose f s) :=
  .rcpAction (fun _ _ _ _ hs1 => Canon.frameClose hs1) h

theorem Canon.execFrameRingPoll {id : Nat} {s : State} (h : Canon s) : OutCanon (execFrameRingPoll id s) := .ringPoll h

theorem Canon.execFrameStoreGrant {id k : Nat} {s : State} (h : Canon s) : OutCanon (execFrameStoreGrant id k s) := .storeGrant h

theorem Canon.execFrameDecodeTurn {id k : Nat} {s : State} (h : Canon s) : OutCanon (execFrameDecodeTurn id k s) := .frameTurn h

theorem Canon.execProjOpStart {e : Fin 16} {s : State} (h : Canon s) : OutCanon (execProjOpStart e s) := .projStart h

theorem Canon.execProjSlabDone {e : Fin 16} {s : State} (h : Canon s) : OutCanon (execProjSlabDone e s) := .projSlab h

theorem Canon.execSampleEnd {id k : Nat} {s : State} (h : Canon s) : OutCanon (execSampleEnd id k s) := .sampleEnd h

theorem Canon.execSampleItemRelease {id k : Nat} {s : State} (h : Canon s) : OutCanon (execSampleItemRelease id k s) := .itemRelease h

/-! Jobs. -/

theorem Canon.tableIssue {iss : Issuer} {ctx addr : Nat} {s : State} (h : Canon s) : Canon (tableIssue iss ctx addr s) :=
  .withDesc h (fun _ _ hb => .checkOp hb (fun _ ha1 => .setTable ha1))

/-! Values (R244, R245). -/

theorem Canon.parquetUnit {j : TableJob} {s : State} (h : Canon s) : Canon (parquetUnit j s).2 := by
  unfold Machine.parquetUnit
  split <;> rename_i e <;>
    exact .of_snd e (.io (.bind .memRead fun _ => .mapM (fun _ => .bind .memRead fun _ => .pure) _) h)

/-! What comes next. -/

/-- A unit that depends on a condition. -/
theorem Canon.unitIte {c : Prop} [Decidable c] {a b : IntakeNext × TableJob × State} (ha : Canon a.2.2) (hb : Canon b.2.2) :
    Canon (if c then a else b).2.2 := by
  split
  · exact ha
  · exact hb

theorem Canon.arrowNext {e n : Nat} {j : TableJob} {s : State} (h : Canon s) : Canon (Machine.arrowNext e n j s).2.2 := by
  have hm {ctx va len : Nat} {s u : State} {x} (h : Canon s) (e : (Machine.memRead ctx va len).exec s = (x, u)) : Canon u := .of_snd e (.io
    .memRead h)
  induction n generalizing j s with
  | zero => exact h
  | succ n ih =>
    unfold Machine.arrowNext
    extract_lets fail left
    refine .unitIte (.unitIte h h) (.unitIte h ?_)
    rcases e1 : (Machine.memRead j.head.ctx (j.inAddr + j.pos) 8).exec s with ⟨er | b, u⟩ 
    · exact hm h e1
    have hu := hm h e1
    refine .unitIte h (.unitIte (.unitIte h hu) (.unitIte h (.unitIte h (.unitIte h ?_))))
    generalize fld b 4 4 = len
    rcases e2 : (Machine.memRead j.head.ctx (j.inAddr + j.pos + 8) len).exec u with ⟨er | b, v⟩
    · exact hm hu e2
    have hv := hm hu e2
    dsimp -zeta only
    rcases Config.arrowMessage b with _ | m
    · exact h
    refine .unitIte h (.unitIte h ?_)
    rcases m.header with ⟨be, fs⟩ | _ | ⟨rows, nodes, bufs, vc⟩ | _
    · dsimp only
      split
      · exact hv
      · exact ih hv
    · exact h
    · rcases j.fields with _ | fs
      · exact h
      · refine .unitIte (ih hv) ?_
        rcases e3 : (Machine.memRead j.head.ctx (j.inAddr + j.pos + 8 + len) m.bodyLength).exec v with ⟨er | body, w⟩
        · exact hm hv e3
        have hw := hm hv e3
        dsimp only
        split
        · exact .unitIte (ih hw) hw
        · exact hw
    · exact h

theorem Canon.intakeNext {e : Nat} {j : TableJob} {s : State} (h : Canon s) : Canon (intakeNext e j s).2.2 := by
  unfold Machine.intakeNext
  split
  · split
    · exact h
    · split <;> (rename_i e2; exact .of_snd e2 (.parquetUnit h))
  · exact .arrowNext h

/-! Events. -/

theorem Canon.tableStart {e : Nat} {s : State} (h : Canon s) : Canon (tableStart e s) := by
  unfold Machine.tableStart
  dsimp only
  split
  · split
    · exact h
    · split
      · exact .setTable h
      · split
        · rename_i e3
          exact .endJob (.of_snd e3 (.areaIntact (.setTable h)))
        · rename_i e3
          exact .setTable (.of_snd e3 (.areaIntact (.setTable h)))
        · rename_i e3
          exact .endJob (.writeDropped (.of_snd e3 (.areaIntact (.setTable h))))
  · exact h

theorem Canon.tableFail {e : Nat} {j : TableJob} {f : IntakeFail} {n : Nat} {s : State} (h : Canon s) : Canon (tableFail e j f n s) :=
  .endJob (.setTable (.writeDropped (.scramble h)))

theorem Canon.tableSuspend {e : Nat} {j : TableJob} {s : State} (h : Canon s) : Canon (tableSuspend e j s) := by
  unfold Machine.tableSuspend
  dsimp only
  split
  · rename_i e1
    exact .endJob (.of_snd e1 (.saveArea (.setTable h)))
  · rename_i e1
    exact .suspendJob (.of_snd e1 (.saveArea (.setTable h)))

theorem Canon.tableWrite {e : Nat} {j : TableJob} {b : IntakeBatch} {s : State} (h : Canon s) : Canon (Machine.tableWrite e j b s) := by
  unfold Machine.tableWrite
  extract_lets g addr info img body head
  clear_value img body addr
  split
  · rename_i s1 e1
    have hu : Canon s1 := .of_snd e1 (.io .memWrite h)
    exact Canon.endJob (.setTable (.scramble hu))
  · rename_i s1 e1
    have hu : Canon s1 := .of_snd e1 (.io .memWrite h)
    extract_lets r j1
    have hr : Canon r.2 := by
      unfold r
      split
      · exact hu
      · exact .emit hu
    clear_value r
    exact .setTable hr

theorem Canon.sendDecodes {e : Nat} {j : TableJob} {frames : List GdsDecode} {bufs : List (Option (Option (List Byte)))} {s : State}
    (h : Canon s) : Canon (sendDecodes e j frames bufs s) := .foldl (fun _ _ ha => .codecEnqueue (.draw ha)) (.setTable h)

theorem Canon.intakeOutput {e : Nat} {s : State} (h : Canon s) : Canon (intakeOutput e s) := by
  unfold Machine.intakeOutput
  dsimp only
  split
  · exact h
  · split
    · exact h
    · split
      · rename_i e2
        exact .sendDecodes (.of_snd_snd e2 (.intakeNext h))
      · rename_i e2
        split
        · exact .tableSuspend (.of_snd_snd e2 (.intakeNext h))
        · split
          · exact h
          · exact .tableWrite (.of_snd_snd e2 (.intakeNext h))
      · exact h

theorem Canon.tableEnd {e : Nat} {s : State} (h : Canon s) : Canon (tableEnd e s) := by
  unfold Machine.tableEnd
  dsimp only
  split
  · exact h
  · split
    · exact h
    · split
      · rename_i e2
        exact .sendDecodes (.of_snd_snd e2 (.intakeNext h))
      · exact h
      · rename_i e2
        exact .endJob (.setTable (.of_snd_snd e2 (.intakeNext h)))
      · rename_i e2
        exact .tableFail (.of_snd_snd e2 (.intakeNext h))
      · rename_i e2
        exact .endJob (.setTable (.of_snd_snd e2 (.intakeNext h)))
      · rename_i e2
        split
        · exact h
        · exact .tableFail (.of_snd_snd e2 (.intakeNext h))

theorem Canon.intakeResume {e : Nat} {s : State} (h : Canon s) : Canon (intakeResume e s) := by
  unfold Machine.intakeResume
  dsimp only
  split
  · exact h
  · split
    · exact h
    · exact .ite h (.ite (.setTable (.emit h)) h)

theorem Canon.tableResume {e : Nat} {j : TableJob} {iss : Issuer} {outAddr outLen : Nat} {s : State} (h : Canon s) :
    Canon (tableResume e j iss outAddr outLen s) := .ite (.endJob h) (.setTable h)

/-! The rows. -/

theorem Canon.execTableIntakeJob {t : Fin 8192} {w : Insn} {s : State} (h : Canon s) : OutCanon (execTableIntakeJob t w s) :=
  .issueJob (fun _ _ _ _ ha_3 => .tableIssue ha_3) h

theorem Canon.execTableIntakeStart {e : Fin 16} {s : State} (h : Canon s) : OutCanon (execTableIntakeStart e s) := .tableStart h

theorem Canon.execIntakeBatchOutput {e : Fin 16} {s : State} (h : Canon s) : OutCanon (execIntakeBatchOutput e s) := .intakeOutput h

theorem Canon.execIntakeOutputResume {e : Fin 16} {s : State} (h : Canon s) : OutCanon (execIntakeOutputResume e s) := .intakeResume h

theorem Canon.execTableIntakeEnd {e : Fin 16} {s : State} (h : Canon s) : OutCanon (execTableIntakeEnd e s) := .tableEnd h

/-! Regions (R276). -/

theorem Canon.writePages {s : State} {pages : List Nat} {b : List Byte} (h : Canon s) : Canon (writePages s pages b) :=
  foldl_inv (P := fun m : Mem => m.wf = true) (fun _ _ hm => Mem.wf_write _ _ _ hm) h

theorem Canon.zeroPages {s : State} {pages : List Nat} (h : Canon s) : Canon (zeroPages s pages) :=
  foldl_inv (P := fun m : Mem => m.wf = true) (fun _ _ hm => Mem.wf_zero _ _ _ hm) h

theorem Canon.stirPages {s : State} {pages : List Nat} (h : Canon s) : Canon (stirPages s pages).2 := .writePages (.drawBytes h)

/-! Tables (R277, R278). -/

theorem Canon.putTable {s : State} {pages : List Nat} {entries : Option (List (Nat × Nat))} (h : Canon s) :
    Canon (putTable s pages entries) := .fields (.stirPages h)

theorem Canon.insertAll {limit : Nat} {l : List (Nat × Nat × Nat)} {l1 : List (Nat × Nat)} {s : State} (h : Canon s) :
    Canon (insertAll limit l l1 s).2.2 := by
  induction l generalizing l1 s with
  | nil => exact h
  | cons _ _ ih =>
    unfold Machine.insertAll
    exact ih (.ite (.draw h) h)

/-! The instruction (R128, R280). -/

theorem Canon.joinRegion {t h1 : Nat} {n : Need} {s : State} (h : Canon s) : Canon (joinRegion t h1 n s).2 := by
  unfold Machine.joinRegion
  dsimp only
  split
  · exact h
  · split
    · exact h
    · split
      · exact .countRefused h
      · split
        · exact h
        · split <;> (rename_i e1; exact .of_snd e1 (.io .memRead h))

theorem Canon.takeJoinSlot {t d0 d1 : Nat} {elems : List (Nat × Nat × Nat)} {s : State} (h : Canon s) :
    (takeJoinSlot t d0 d1 elems s).AllCanon := by
  unfold Machine.takeJoinSlot
  dsimp only
  split
  · exact .block h
  · exact .modThread h

theorem Canon.withRegion {t h1 : Nat} {n : Need} {s : State} {go : List Nat → State → Issue} (h : Canon s)
    (hgo : ∀ (a : List Nat) (b : State), Canon b → (go a b).AllCanon) : (withRegion t h1 n s go).AllCanon := by
  unfold Machine.withRegion
  split
  · exact .block h
  · refine Canon.withStores h (fun _ ha => ?_)
    split
    · rename_i e
      exact .of_snd e (.joinRegion ha)
    · rename_i e
      split
      · exact hgo _ _ (.of_snd e (.joinRegion ha))
      · exact ha

theorem Canon.jinsRun {t : Nat} {w : Insn} {s : State} (h : Canon s) : (jinsRun t w s).AllCanon := by
  unfold Machine.jinsRun
  refine Canon.withRegion h (fun _ _ hb => ?_)
  split
  · exact Canon.takeJoinSlot (.putTable (.insertAll hb))
  · exact Canon.takeJoinSlot (.putTable (.drawBytes hb))

theorem Canon.freeMatches {s : State} (h : Canon s) : Canon (freeMatches s).2 := h

theorem Canon.jprobeRun {t : Nat} {w : Insn} {s : State} (h : Canon s) : (jprobeRun t w s).AllCanon := by
  unfold Machine.jprobeRun
  refine Canon.withRegion h (fun _ _ hb => Canon.takeJoinSlot (.modThread ?_))
  split
  · exact hb
  · exact foldl_inv (P := fun a1 : List (Nat × List Nat) × State => Canon a1.2) (fun _ _ hk => .freeMatches hk) hb

theorem Canon.jnextRun {t : Nat} {w : Insn} {s : State} (h : Canon s) : (jnextRun t w s).AllCanon := by
  unfold Machine.jnextRun
  split
  · exact h
  · exact Canon.withRegion h (fun _ _ hb => Canon.takeJoinSlot (.modThread hb))

theorem Canon.rowJins : rowJins.Canonical := by
  intro t w s h
  dsimp only [Machine.rowJins]
  exact Canon.jinsRun h

theorem Canon.rowJprobe : rowJprobe.Canonical := by
  intro t w s h
  dsimp only [Machine.rowJprobe]
  exact Canon.jprobeRun h

theorem Canon.rowJnext : rowJnext.Canonical := by
  intro t w s h
  dsimp only [Machine.rowJnext]
  exact Canon.jnextRun h

/-! The rows. -/

theorem Canon.execJins {t : Fin 8192} {w : Insn} {s : State} (h : Canon s) : OutCanon (execJins t w s) := .issue Canon.rowJins h

theorem Canon.execJprobe {t : Fin 8192} {w : Insn} {s : State} (h : Canon s) : OutCanon (execJprobe t w s) := .issue Canon.rowJprobe h

theorem Canon.execJnext {t : Fin 8192} {w : Insn} {s : State} (h : Canon s) : OutCanon (execJnext t w s) := .issue Canon.rowJnext h

/-! Join jobs (R281 to R292). -/

theorem Canon.setJoin {s : State} {e : Nat} {x : Engine JoinJob} (h : Canon s) : Canon (s.setJoin e x) := h

/-! Checks (R274, R276, R282). -/

theorem Canon.joinIssue {iss : Issuer} {ctx addr : Nat} {s : State} (h : Canon s) : Canon (joinIssue iss ctx addr s) :=
  .withDesc h (fun _ _ hb => .checkJob hb (fun _ ha1 => .setJoin ha1))

/-! End and suspension (R285, R290 to R292). -/

theorem Canon.joinEnd {j : JoinJob} {er : Err} {s : State} (h : Canon s) : Canon (joinEnd j er s) := .endJob (.writeDropped (.zeroPages h))

theorem Canon.joinSuspend {e : Nat} {j : JoinJob} {s : State} (h : Canon s) : Canon (joinSuspend e j s) := by
  unfold Machine.joinSuspend
  split
  · rename_i e1
    exact .joinEnd (.of_snd e1 (.takeHandle h))
  · rename_i e1
    split
    · rename_i e2
      exact .joinEnd (.of_snd e2 (.saveArea (.of_snd e1 (.takeHandle h))))
    · rename_i e2
      exact .parkJob (.of_snd e2 (.saveArea (.of_snd e1 (.takeHandle h))))

/-! The run. -/

theorem Canon.joinStart {e : Nat} {s : State} (h : Canon s) : Canon (joinStart e s) := by
  unfold Machine.joinStart
  dsimp only
  split
  · split
    · exact h
    · split
      · split
        · rename_i e4
          exact .joinEnd (.of_snd e4 (.io .memRead (.setJoin h)))
        · rename_i e4 _
          exact .joinEnd (.countRefused (.of_snd e4 (.io .memRead (.setJoin h))))
        · rename_i e4 _
          exact .ite (.joinEnd (.of_snd e4 (.io .memRead (.setJoin h)))) (.setJoin (.stirPages (.of_snd e4 (.io .memRead (.setJoin h)))))
      · split
        · rename_i e3
          exact .joinEnd (.of_snd e3 (.areaIntact (.setJoin h)))
        · rename_i e3
          exact .setJoin (.of_snd e3 (.areaIntact (.setJoin h)))
        · rename_i e3
          exact .joinEnd (.of_snd e3 (.areaIntact (.setJoin h)))
  · exact h

theorem Io.Keeps.sideRows {ctx list n : Nat} {leg : List Byte} : (sideRows ctx list n leg).Keeps :=
  .bind .memRead fun _ => .bind (.mapM (fun _ => .readBatch) _) fun _ => .pure

theorem Canon.joinClose {j : JoinJob} {rows : List (List Cell)} {s : State} (h : Canon s) : Canon (joinClose j rows s).2 := by
  unfold Machine.joinClose
  dsimp only
  split <;> (rename_i e; exact .of_snd e (.putBatch h))

theorem Canon.joinRows {rowOf : Option Nat × Nat → List Cell} {last : Option Err} {n : Nat} {l : List JoinOut} {x : JoinJob}
    {l1 : List (List Cell)} {s : State} (h : Canon s) : Canon (Machine.joinRows rowOf last n l x l1 s).2.2 := by
  induction n generalizing l x l1 s with
  | zero => exact h
  | succ _ ih =>
    unfold Machine.joinRows
    extract_lets step
    split
    · split
      · exact h
      · split
        · exact h
        · split <;> (rename_i e; exact .of_snd e (.joinClose h))
    · exact ih h
    · extract_lets out b1
      split
      · exact h
      · split
        · exact ih h
        · split
          · exact h
          · split
            · rename_i e
              exact .of_snd e (.joinClose h)
            · rename_i e
              have hu := Canon.of_snd e (.joinClose h)
              split
              · exact hu
              · exact ih hu

theorem Canon.joinInputs {j : JoinJob} {s : State} (h : Canon s) : Canon (Machine.joinInputs j s).2 := by
  have hr {k : List (List Cell) → List (List Cell) → Io (List (List Cell) × List (List Cell))} (hk : ∀ b p, (k b p).Keeps) : Io.Keeps (do
      let b ← Machine.sideRows j.head.ctx (fld j.desc 0x10 8) (fld j.desc 0x18 4) j.bLeg
      let p ← if jjAction j.desc = 2 then pure [] else Machine.sideRows j.head.ctx (fld j.desc 0x28 8) (fld j.desc 0x1C 4) j.pLeg
      k b p) := .bind .sideRows fun _ => .ite (.bind .pure fun _ => hk _ _) (.bind .sideRows fun _ => hk _ _)
  unfold Machine.joinInputs
  dsimp only
  split
  · rename_i e
    exact .of_snd e (.io (hr fun _ _ => .pure) h)
  · rename_i e
    have hu : Canon _ := .of_snd e (.io (hr fun _ _ => .pure) h)
    split
    · exact hu
    · split <;> rename_i e1 <;> exact .of_snd e1 (.saveArea hu)

theorem Canon.joinRun {e : Nat} {j : JoinJob} {s : State} (h : Canon s) : Canon (joinRun e j s) := by
  unfold Machine.joinRun
  dsimp only
  split
  · rename_i e1
    exact .joinEnd (.setJoin (.of_snd e1 (.joinInputs h)))
  · rename_i e1
    split
    · rename_i e2
      exact .joinEnd (.setJoin (.of_snd_snd e2 (.joinRows (.of_snd e1 (.joinInputs h)))))
    · rename_i e2
      exact .of_snd_snd e2 (.joinRows (.of_snd e1 (.joinInputs h)))
    · rename_i e2
      exact .joinSuspend (.setJoin (.of_snd_snd e2 (.joinRows (.of_snd e1 (.joinInputs h)))))
    · rename_i e2
      exact .setJoin (.of_snd_snd e2 (.joinRows (.of_snd e1 (.joinInputs h))))
    · rename_i e2
      exact .joinEnd (.setJoin (.scramble (.of_snd_snd e2 (.joinRows (.of_snd e1 (.joinInputs h))))))

theorem Canon.joinJobEnd {e : Nat} {s : State} (h : Canon s) : Canon (joinJobEnd e s) := by
  unfold Machine.joinJobEnd
  split
  · exact h
  · split
    · exact h
    · split
      · exact .joinRun h
      · exact .ite (.joinRun (.emit h)) h

theorem Canon.joinResume {e : Nat} {j : JoinJob} {iss : Issuer} {outAddr outLen : Nat} {s : State} (h : Canon s) :
    Canon (joinResume e j iss outAddr outLen s) := .ite (.joinEnd h) (.setJoin h)

/-! The rows. -/

theorem Canon.execJoinJob {t : Fin 8192} {w : Insn} {s : State} (h : Canon s) : OutCanon (execJoinJob t w s) :=
  .issueJob (fun _ _ _ _ ha_3 => .joinIssue ha_3) h

theorem Canon.execJoinJobStart {sl : Fin 32} {s : State} (h : Canon s) : OutCanon (execJoinJobStart sl s) := .joinStart h

theorem Canon.execJoinJobEnd {sl : Fin 32} {s : State} (h : Canon s) : OutCanon (execJoinJobEnd sl s) := .joinJobEnd h

/-! RESUME and UNIT F = 3: suspended operations resumed and abandoned (R83 to R85, R130). -/

theorem Canon.jobResume {job : UnitJob} {iss : Issuer} {outAddr outLen : Nat} {s : State} (h : Canon s) :
    Canon (jobResume job iss outAddr outLen s) := by
  unfold Machine.jobResume
  split
  · exact .codecResume h
  · exact .joinResume h
  · exact .colResume h
  · exact .projResume h
  · exact .tableResume h
  · exact .sampleResume h

theorem Canon.jobAbandon {job : UnitJob} {iss : Issuer} {ctx : Nat} {s : State} (h : Canon s) : Canon (jobAbandon job iss ctx s) := by
  unfold Machine.jobAbandon
  split
  · exact .codecAbandon h
  · exact .joinEnd h
  · exact .colEnd h
  · exact .endJob h
  · exact .endJob h
  · exact .failOp (.sampleAbandon h)

theorem Canon.resumeGo {iss : Issuer} {ctx : Nat} {b : List Byte} {x : Susp} {s : State} (h : Canon s) : Canon (resumeGo iss ctx b x s) :=
  .ite (.jobAbandon (.dropSusp h)) (.jobResume h)

theorem Canon.resumeCmd {x : Frame} {n : Nat} {x1 : Session} {s : State} (h : Canon s) : (resumeCmd x n x1 s).AllCanon := by
  unfold Machine.resumeCmd
  dsimp only
  split
  · exact h
  · split
    · exact h
    · split
      · exact h
      · exact ⟨h, fun _ ha => .resumeGo ha⟩

theorem Canon.resumeIssue {iss : Issuer} {ctx addr : Nat} {s : State} (h : Canon s) : Canon (resumeIssue iss ctx addr s) := by
  unfold Machine.resumeIssue
  split
  · rename_i e
    exact .failOp (.draw (.of_snd e (.io .memRead h)))
  · rename_i e
    split
    · exact .failOp (.draw (.of_snd e (.io .memRead h)))
    · split
      · exact .failOp (.of_snd e (.io .memRead h))
      · exact .resumeGo (.of_snd e (.io .memRead h))

theorem Canon.rowResume : rowResume.Canonical := by
  intro t w s h
  dsimp only [Machine.rowResume]
  exact Canon.asyncIssue h (fun _ _ hb => .resumeIssue hb)

theorem Canon.execResume {f : Frame} {s : State} (h : Canon s) : OutCanon (execResume f s) :=
  .rcpRun (fun _ _ _ _ hs1 => Canon.resumeCmd hs1) h

theorem Canon.execUnitResume {t : Fin 8192} {w : Insn} {s : State} (h : Canon s) : OutCanon (execUnitResume t w s) :=
  .issue Canon.rowResume h

/-! The Host Port's link, the frames it receives, priority flow control and its configuration (R38 to R48, R604, R605). -/

theorem Canon.modHp {s : State} {f : HpCounters → HpCounters} (h : Canon s) : Canon (s.modHp f) := h

/-! The link (R38, R39, R557). -/

theorem Canon.linkDown {s : State} (h : Canon s) : Canon (linkDown s) := .ite (.event (.drawBytes (.draw (.modHp h)))) h

theorem Canon.hostLinkTraining {peer : BitVec 3} {s : State} (h : Canon s) : Canon (hostLinkTraining peer s) := by
  unfold Machine.hostLinkTraining
  split
  · split
    · exact h
    · exact .relinked h
  · exact h

/-! Frames (R40 to R42). -/

theorem Canon.sendPfc {s : State} {p : Nat} {xoff : Bool} (h : Canon s) : Canon (s.sendPfc p xoff) := .send (.countTx (.ite (.modHp h) h))

theorem Canon.flowOne {s : State} {p : Nat} (h : Canon s) : Canon (s.flowOne p) := .ite h (.ite (.sendPfc h) (.ite (.sendPfc h) h))

theorem Canon.flowControl {s : State} (h : Canon s) : Canon s.flowControl := .foldl (fun _ _ ha => .flowOne ha) h

theorem Canon.buffer {s : State} {f : RxFrame} (h : Canon s) : Canon (s.buffer f) := .ite (.modHp h) (.flowControl h)

theorem Canon.unbuffer {s : State} {k : RxKind} (h : Canon s) : Canon (s.unbuffer k) := by
  unfold State.unbuffer
  split
  · exact h
  · exact .flowControl h

theorem Canon.unbufferRoce {s : State} {p k n : Nat} (h : Canon s) : Canon (s.unbufferRoce p k n) := .flowControl h

theorem Canon.answer {s : State} {kind dst prio size : Nat} {data : List Byte} (h : Canon s) : Canon (s.answer kind dst prio size data) := by
  unfold State.answer
  split
  · exact h
  · exact .hostSend h

theorem Canon.otherIp {s : State} (h : Canon s) : Canon s.otherIp := .modHp h

theorem Canon.udpReceive {s : State} {prio size src : Nat} {u : List Byte} (h : Canon s) : Canon (udpReceive s prio size src u) :=
  .ite (.buffer h) (.ite (.buffer h) (.otherIp h))

theorem Canon.v4Receive {s : State} {pcp : Option Nat} {size : Nat} {b : List Byte} (h : Canon s) : Canon (v4Receive s pcp size b) :=
  .ite (.modHp h) (.ite (.otherIp h) (.ite (.udpReceive h) (.ite (.answer h) (.otherIp h))))

theorem Canon.v6Receive {s : State} {pcp : Option Nat} {size : Nat} {b : List Byte} (h : Canon s) : Canon (v6Receive s pcp size b) := by
  unfold Machine.v6Receive
  split
  · exact .modHp h
  · exact .ite (.otherIp h) (.ite (.udpReceive h) (.ite (.answer h) (.ite (.answer h) (.otherIp h))))

theorem Canon.etherReceive {s : State} {size : Nat} {b : List Byte} (h : Canon s) : Canon (etherReceive s size b) :=
  .ite (.v4Receive h) (.ite (.v6Receive h) (.ite (.answer h) h))

theorem Canon.hostFrameReceive {bytes : List Byte} {s : State} (h : Canon s) : Canon (hostFrameReceive bytes s) :=
  .ite h (.ite (.ite (.fireInjected (.modHp (.modHp h))) (.fire (.modHp (.modHp h)))) (.ite (.modHp (.modHp h)) (.ite (.modHp (.modHp h))
    (.etherReceive (.modHp h)))))

theorem Canon.pfcPauseReceive {p : Fin 8} {pause : Bool} {s : State} (h : Canon s) : Canon (pfcPauseReceive p pause s) :=
  .ite (.drainTx h) h

/-! SET_PORT_CONFIG (R43). -/

theorem Canon.setPortConfig {x : Frame} {n : Nat} {x1 : Session} {s : State} (h : Canon s) : (setPortConfig x n x1 s).AllCanon :=
  Canon.check h ⟨h, fun _ ha => .ite (.flowControl (.drainTx ha)) (.linkDown (.flowControl (.drainTx ha)))⟩

/-! SET_NET_CONFIG (R44). -/

theorem Canon.setNetConfig {x : Frame} {n : Nat} {x1 : Session} {s : State} (h : Canon s) : (setNetConfig x n x1 s).AllCanon := by
  unfold Machine.setNetConfig
  refine Canon.check h ?_
  split
  · exact h
  · exact ⟨h, fun _ ha => ha⟩

/-! The rows. -/

theorem Canon.execHostLinkTraining {peer : BitVec 3} {s : State} (h : Canon s) : OutCanon (execHostLinkTraining peer s) :=
  .hostLinkTraining h

theorem Canon.execHostLinkDown {s : State} (h : Canon s) : OutCanon (execHostLinkDown s) := .linkDown h

theorem Canon.execHostFrameReceive {bytes : List Byte} {s : State} (h : Canon s) : OutCanon (execHostFrameReceive bytes s) :=
  .hostFrameReceive h

theorem Canon.execPfcPauseReceive {p : Fin 8} {pause : Bool} {s : State} (h : Canon s) : OutCanon (execPfcPauseReceive p pause s) :=
  .pfcPauseReceive h

theorem Canon.execSetPortConfig {f : Frame} {s : State} (h : Canon s) : OutCanon (execSetPortConfig f s) :=
  .rcpRun (fun _ _ _ _ hs1 => Canon.setPortConfig hs1) h

theorem Canon.execSetNetConfig {f : Frame} {s : State} (h : Canon s) : OutCanon (execSetNetConfig f s) :=
  .rcpRun (fun _ _ _ _ hs1 => Canon.setNetConfig hs1) h

/-! RoCEv2: queue pairs, work requests, memory regions, the responder, and ingress queues (R49 to R59, R180, R181). -/

theorem Canon.putQp {s : State} {n : Nat} {q : Qp} (h : Canon s) : Canon (s.putQp n q) := h

theorem Canon.modQp {s : State} {n : Nat} {f : Qp → Qp} (h : Canon s) : Canon (s.modQp n f) := by
  unfold State.modQp
  split
  · exact h
  · exact .putQp h

theorem Canon.roceSend {s : State} {n : Nat} {q : Qp} {len : Nat} {o : RoceOut} (h : Canon s) : Canon (roceSend s n q len o) := by
  unfold Machine.roceSend
  split
  · exact h
  · exact .ite (.hostSend h) h

/-! Work completions (R57). -/

theorem Canon.qpSettle {n : Nat} {s : State} (h : Canon s) : Canon (qpSettle n s) := by
  unfold Machine.qpSettle
  split
  · exact h
  · exact .ite (.finishAll h) h

theorem Canon.qpCompletionEnter {n : Nat} {s : State} (h : Canon s) : Canon (qpCompletionEnter n s) := by
  unfold Machine.qpCompletionEnter
  split
  · exact h
  · split
    · exact h
    · split
      · exact h
      · split
        · exact h
        · rename_i e2
          exact .qpSettle (.putQp (.of_snd e2 (.offer h)))

theorem Canon.posted {q : Qp} {n n1 : Nat} {s : State} (h : Canon s) : Canon (posted q n n1 s).2 := by
  induction n generalizing n1 s with
  | zero => exact h
  | succ _ ih =>
    unfold Machine.posted
    exact ih (.io .memRead h)

theorem Canon.flushPosted {n : Nat} {s : State} (h : Canon s) : Canon (flushPosted n s) := by
  unfold Machine.flushPosted
  split
  · exact h
  · split
    · exact h
    · split
      · rename_i e1
        exact .of_snd e1 (.io .memRead h)
      · rename_i e1
        exact .ite (.posted (.of_snd e1 (.io .memRead h))) (.writeDropped (.putQp (.posted (.of_snd e1 (.io .memRead h)))))

theorem Canon.qpError {n : Nat} {s : State} (h : Canon s) : Canon (qpError n s) := by
  unfold Machine.qpError
  split
  · exact h
  · exact .ite (.flushPosted (.putQp h)) (.putQp h)

theorem Canon.qpFail {n nbytes status detail : Nat} {s : State} (h : Canon s) : Canon (qpFail n nbytes status detail s) := by
  unfold Machine.qpFail
  split
  · exact h
  · split
    · exact h
    · exact .qpError (.putQp h)

theorem Canon.qpDone {n : Nat} {s : State} (h : Canon s) : Canon (qpDone n s) := .modQp h

/-! Sending work requests (R56). -/

theorem Canon.workSource {q : Qp} {w : WorkReq} {s : State} (h : Canon s) : Canon (workSource q w s).2 := by
  unfold Machine.workSource
  split
  · exact h
  · exact .io .memRead h

theorem Canon.sendWork {n : Nat} {w : WorkReq} {s : State} (h : Canon s) : Canon (sendWork n w s) := by
  unfold Machine.sendWork
  split
  · exact h
  · split
    · rename_i e1
      exact .qpFail (.of_snd e1 (.workSource h))
    · rename_i e1
      exact .roceSend (.of_snd e1 (.workSource h))

theorem Canon.sqPoll {n : Nat} {s : State} (h : Canon s) : Canon (sqPoll n s) := by
  unfold Machine.sqPoll
  dsimp only
  split
  · exact h
  · split
    · exact h
    · split
      · exact .flushPosted h
      · split
        · exact h
        · split
          · rename_i e1
            exact .of_snd e1 (.io .memRead h)
          · rename_i e1
            split
            · exact .of_snd e1 (.io .memRead h)
            · split
              · exact .of_snd e1 (.io .memRead h)
              · split
                · exact .qpFail (.writeDropped (.putQp (.io .memRead (.of_snd e1 (.io .memRead h)))))
                · exact .sendWork (.writeDropped (.putQp (.io .memRead (.of_snd e1 (.io .memRead h)))))

theorem Canon.resend {n : Nat} {q : Qp} {w : WorkReq} {s : State} (h : Canon s) : Canon (resend n q w s) :=
  .ite (.qpFail h) (.sendWork (.putQp h))

theorem Canon.takeRoceResp {n : Nat} {q : Qp} {w : WorkReq} {r : RoceResp} {s : State} (h : Canon s) : Canon (takeRoceResp n q w r s) := by
  unfold Machine.takeRoceResp
  split
  · exact .ite h (.qpDone h)
  · split
    · split
      · rename_i e
        exact .qpDone (.of_snd e (.io .memWrite h))
      · rename_i e
        exact .qpFail (.of_snd e (.io .memWrite h))
    · exact h
  · exact .qpFail h
  · exact .qpFail h
  · exact .qpFail h
  · exact .resend h
  · exact .ite (.sendWork h) (.ite (.qpFail h) (.sendWork (.putQp h)))

theorem Canon.leaveBuffer {s : State} {prio n : Nat} (h : Canon s) : Canon (s.leaveBuffer prio n) := .unbufferRoce h

theorem Canon.noticeCe {n : Nat} {q : Qp} {ce : Bool} {s : State} (h : Canon s) : Canon (noticeCe n q ce s) := .ite (.roceSend h) h

theorem Canon.roceResponse {n : Nat} {r : RoceResp} {ce : Bool} {prio : Nat} {s : State} (h : Canon s) :
    Canon (roceResponse n r ce prio s) := by
  unfold Machine.roceResponse
  dsimp only
  split
  · exact h
  · split
    · exact .leaveBuffer h
    · split
      · exact .noticeCe (.leaveBuffer h)
      · split
        · exact .noticeCe (.leaveBuffer h)
        · exact .takeRoceResp (.noticeCe (.leaveBuffer h))

theorem Canon.roceAckTimeout {n : Nat} {s : State} (h : Canon s) : Canon (roceAckTimeout n s) := by
  unfold Machine.roceAckTimeout
  split
  · exact h
  · split
    · exact h
    · split
      · exact h
      · exact .resend h

theorem Canon.roceCnp {n prio : Nat} {s : State} (h : Canon s) : Canon (roceCnp n prio s) := .ite (.modQp (.leaveBuffer h)) h

/-! The responder (R49, R51). -/

theorem Canon.pokeByte {ctx va : Nat} {b : Byte} {s : State} (h : Canon s) : Canon (scramble.pokeByte ctx va b s) := by
  unfold scramble.pokeByte
  split
  · exact h
  · exact Mem.wf_write _ _ _ h

theorem Canon.scrambleRange {ctx va len : Nat} {s : State} (h : Canon s) : Canon (Machine.scramble ctx va len s) :=
  .foldl (fun _ _ ha => .pokeByte ha) (.drawBytes h)

theorem Canon.sendItems {n fid n1 : Nat} {l : List Byte} {s : State} (h : Canon s) : Canon (sendItems n fid n1 l s).2 := by
  induction n1 generalizing l s with
  | zero => exact h
  | succ _ ih =>
    unfold Machine.sendItems
    split
    · exact h
    · split
      · exact h
      · rename_i e
        exact ih (.of_snd e (.offer h))

theorem Canon.unstop {r : RoceReq} {s : State} (h : Canon s) : Canon (unstop r s) := .unbufferRoce h

theorem Canon.answerReq {n : Nat} {q : Qp} {r : RoceReq} {len : Nat} {o : RoceOut} {s : State} (h : Canon s) :
    Canon (answerReq n q r len o s) := .roceSend (.putQp h)

theorem Canon.performReq {n : Nat} {q : Qp} {r : RoceReq} {s : State} (h : Canon s) : Canon (performReq n q r s).2 := by
  unfold Machine.performReq
  dsimp only
  split
  · exact .roceSend h
  · split
    · exact .roceSend h
    · split
      · rename_i e1
        exact .answerReq (.of_snd e1 (.io .memWrite h))
      · rename_i e1
        exact .roceSend (.ite (.scrambleRange (.of_snd e1 (.io .memWrite h))) (.of_snd e1 (.io .memWrite h)))
  · split
    · exact .roceSend h
    · split
      · rename_i e1
        exact .answerReq (.of_snd e1 (.io .memWrite h))
      · rename_i e1
        exact .roceSend (.ite (.scrambleRange (.of_snd e1 (.io .memWrite h))) (.of_snd e1 (.io .memWrite h)))
  · split
    · exact .roceSend h
    · split
      · rename_i e1
        exact .answerReq (.of_snd e1 (.io .memRead h))
      · rename_i e1
        exact .roceSend (.of_snd e1 (.io .memRead h))
  · split
    · exact .roceSend h
    · split
      · exact .roceSend h
      · split
        · exact .answerReq (.sendItems h)
        · exact .sendItems h
  · split
    · exact .roceSend h
    · split
      · exact .roceSend h
      · split
        · exact .answerReq (.sendItems h)
        · exact .sendItems h

theorem Canon.takeReq {n : Nat} {r : RoceReq} {s : State} (h : Canon s) : Canon (takeReq n r s).2 := by
  unfold Machine.takeReq
  split
  · exact h
  · split
    · exact .performReq h
    · split
      · split
        · split
          · exact .roceSend h
          · split <;> (rename_i e2; exact .roceSend (.of_snd e2 (.io .memRead h)))
        · exact .roceSend h
      · split
        · exact h
        · exact .roceSend (.putQp h)

theorem Canon.roceInbound {r : RoceReq} {s : State} (h : Canon s) : Canon (roceInbound r s) := by
  unfold Machine.roceInbound
  dsimp only
  split
  · exact h
  · split
    · exact .unbufferRoce h
    · split
      · exact .unbufferRoce h
      · split
        · exact .unbufferRoce (.takeReq (.noticeCe h))
        · split
          · exact .modHp (.unbufferRoce (.noticeCe h))
          · split
            · exact .fields (.noticeCe h)
            · split
              · rename_i e2
                exact .unbufferRoce (.of_snd e2 (.takeReq (.noticeCe h)))
              · rename_i e2
                exact .fields (.of_snd e2 (.takeReq (.noticeCe h)))

theorem Canon.ingressResume {n : Nat} {s : State} (h : Canon s) : Canon (ingressResume n s) := by
  unfold Machine.ingressResume
  split
  · exact h
  · split
    · exact h
    · split
      · rename_i e1
        exact .unstop (.of_snd e1 (.takeReq h))
      · rename_i e1
        exact .fields (.of_snd e1 (.takeReq h))

/-! Commands (R53 to R59). -/

theorem Canon.qpCreate {x : Frame} {n : Nat} {x1 : Session} {s : State} (h : Canon s) : (qpCreate x n x1 s).AllCanon :=
  Canon.check h (.putQp (.fresh h))

theorem Canon.qpModify {x : Frame} {n : Nat} {x1 : Session} {s : State} (h : Canon s) : (qpModify x n x1 s).AllCanon := by
  unfold Machine.qpModify
  refine Canon.check h ?_
  split
  · exact .modQp h
  · split
    · exact .modQp h
    · exact .qpError h

theorem Canon.qpGo {n : Nat} {s : State} (h : Canon s) : Canon (qpGo n s) := .modQp (.qpError (.foldl (fun _ _ ha => .unstop ha) h))

theorem Canon.qpDestroy {x : Frame} {n : Nat} {x1 : Session} {s : State} (h : Canon s) : (qpDestroy x n x1 s).AllCanon := by
  unfold Machine.qpDestroy
  dsimp only
  refine Canon.check h ?_
  split
  · exact .fields (.qpGo h)
  · exact .qpGo h

theorem Canon.mrRegister {x : Frame} {n : Nat} {x1 : Session} {s : State} (h : Canon s) : (mrRegister x n x1 s).AllCanon :=
  Canon.check h (.fields (.fresh h))

theorem Canon.mrDeregister {x : Frame} {n : Nat} {x1 : Session} {s : State} (h : Canon s) : (mrDeregister x n x1 s).AllCanon :=
  Canon.check h h

/-! The rows. -/

theorem Canon.execIngressQueueResume {qpn : Nat} {s : State} (h : Canon s) : OutCanon (execIngressQueueResume qpn s) := .ingressResume h

theorem Canon.execRoceInboundRequest {q : RoceReq} {s : State} (h : Canon s) : OutCanon (execRoceInboundRequest q s) := .roceInbound h

theorem Canon.execRoceCnpReceive {c : RoceCnp} {s : State} (h : Canon s) : OutCanon (execRoceCnpReceive c s) := .roceCnp h

theorem Canon.execSqPoll {qpn : Nat} {s : State} (h : Canon s) : OutCanon (execSqPoll qpn s) := .sqPoll h

theorem Canon.execRoceResponseReceive {qpn : Nat} {r : RoceReply} {s : State} (h : Canon s) : OutCanon (execRoceResponseReceive qpn r s) :=
  .roceResponse h

theorem Canon.execRoceAckTimeout {qpn : Nat} {s : State} (h : Canon s) : OutCanon (execRoceAckTimeout qpn s) := .roceAckTimeout h

theorem Canon.execQpCompletionEnter {qpn : Nat} {s : State} (h : Canon s) : OutCanon (execQpCompletionEnter qpn s) := .qpCompletionEnter h

theorem Canon.execQpCreate {f : Frame} {s : State} (h : Canon s) : OutCanon (execQpCreate f s) :=
  .rcpRun (fun _ _ _ _ hs1 => Canon.qpCreate hs1) h

theorem Canon.execQpModify {f : Frame} {s : State} (h : Canon s) : OutCanon (execQpModify f s) :=
  .rcpRun (fun _ _ _ _ hs1 => Canon.qpModify hs1) h

theorem Canon.execQpDestroy {f : Frame} {s : State} (h : Canon s) : OutCanon (execQpDestroy f s) :=
  .rcpRun (fun _ _ _ _ hs1 => Canon.qpDestroy hs1) h

theorem Canon.execMrRegister {f : Frame} {s : State} (h : Canon s) : OutCanon (execMrRegister f s) :=
  .rcpRun (fun _ _ _ _ hs1 => Canon.mrRegister hs1) h

theorem Canon.execMrDeregister {f : Frame} {s : State} (h : Canon s) : OutCanon (execMrDeregister f s) :=
  .rcpRun (fun _ _ _ _ hs1 => Canon.mrDeregister hs1) h

/-! FLOW_CREATE (R168, R169). -/

theorem Canon.flowCreate {x : Frame} {n : Nat} {x1 : Session} {s : State} (h : Canon s) : (flowCreate x n x1 s).AllCanon := by
  unfold Machine.flowCreate
  dsimp only
  split
  · exact .ite (.countRefused h) h
  · exact h

/-! FLOW_DESTROY (R170). -/

theorem Canon.dropFlow {s : State} {idx : Nat} (h : Canon s) : Canon (s.dropFlow idx) := h

theorem Canon.flowDestroy {x : Frame} {n : Nat} {x1 : Session} {s : State} (h : Canon s) : (flowDestroy x n x1 s).AllCanon :=
  Canon.check h (.dropFlow h)

/-! FLOW_BIND_INGRESS (R180). -/

theorem Canon.unbindSettle {n : Nat} {s : State} (h : Canon s) : Canon (unbindSettle n s) := by
  unfold Machine.unbindSettle
  split
  · exact .finishAll h
  · exact .ite (.finishAll (.modQp h)) h

theorem Canon.bindIngress {x : Frame} {n : Nat} {x1 : Session} {s : State} (h : Canon s) : (bindIngress x n x1 s).AllCanon := by
  unfold Machine.bindIngress
  refine Canon.check h ?_
  split
  · exact ⟨h, fun _ ha => .unbindSettle ha⟩
  · exact .modQp h

/-! GRAPH_SUBMIT (R183 to R187). -/

theorem Canon.graphStart {q n : Nat} {s : State} (h : Canon s) : Canon (graphStart q n s) := by
  unfold Machine.graphStart
  refine .foldl (fun _ _ ha => ?_) h
  split
  · exact ha
  · exact .ite (.graphReady ha) ha

theorem Canon.graphCancelGo {q : Nat} {s : State} (h : Canon s) : Canon (graphCancelGo q s) := by
  unfold Machine.graphCancelGo
  split
  · exact h
  · exact .graphEnd (.modFlow (.putGraph h))

theorem Canon.graphSubmit {x : Frame} {n : Nat} {x1 : Session} {s : State} (h : Canon s) : (graphSubmit x n x1 s).AllCanon := by
  unfold Machine.graphSubmit
  dsimp only
  split
  · exact .ite (.countRefused h) h
  · split
    · exact ⟨h, fun _ ha => .graphCancelGo ha⟩
    · split
      · rename_i e1
        exact .of_snd e1 (.io .memRead h)
      · rename_i e1
        split
        · rename_i e2
          exact .of_snd e2 (.io .memRead (.of_snd e1 (.io .memRead h)))
        · rename_i e2
          exact ⟨.putGraph (.of_snd e2 (.io .memRead (.of_snd e1 (.io .memRead h)))), fun _ ha => .graphStart ha⟩

/-! FLOW_STATS (R188). -/

theorem Canon.flowStats {x : Frame} {n : Nat} {x1 : Session} {s : State} (h : Canon s) : (flowStats x n x1 s).AllCanon :=
  Canon.check h (.ite (.putFlow h) h)

/-! What the slices do by themselves. -/

theorem Canon.sliceFlow {s : State} {fid : Nat} {go : Flow → State → State} (h : Canon s)
    (hgo : ∀ (a : Flow) (b : State), Canon b → Canon (go a b)) : Canon (s.sliceFlow fid go) := by
  unfold State.sliceFlow
  split
  · exact h
  · exact .ite (hgo _ _ h) h

theorem Canon.starve {fid : Nat} {s : State} (h : Canon s) : Canon (starve fid s) := by
  unfold Machine.starve
  refine .sliceFlow h (fun _ _ hb => ?_)
  split
  · exact hb
  · exact .ite (.putFlow hb) hb

theorem Canon.releaseResume {fid : Nat} {s : State} (h : Canon s) : Canon (releaseResume fid s) :=
  .sliceFlow h (fun _ _ hb => .ite (.release hb) hb)

theorem Canon.ringRelease {fid : Nat} {s : State} (h : Canon s) : Canon (ringRelease fid s) :=
  .sliceFlow h (fun _ _ hb => .ite (.release hb) hb)

theorem Canon.descParity {fid k : Nat} {s : State} (h : Canon s) : Canon (descParity fid k s) := .sliceFlow h (fun _ _ hb => .dropItem hb)

theorem Canon.podBusy {p : Nat} {s : State} (h : Canon s) : Canon (podBusy p s) := .ite (.modPod h) h

/-! The rows. -/

theorem Canon.graphRow {cancel : Bool} {f : Frame} {s : State} (h : Canon s) : Canon (graphRow cancel f s) :=
  .ite (.rcpRun (fun _ _ _ _ hs1 => Canon.graphSubmit hs1) h) h

theorem Canon.execFlowCreate {f : Frame} {s : State} (h : Canon s) : OutCanon (execFlowCreate f s) :=
  .rcpRun (fun _ _ _ _ hs1 => Canon.flowCreate hs1) h

theorem Canon.execFlowDestroy {f : Frame} {s : State} (h : Canon s) : OutCanon (execFlowDestroy f s) :=
  .rcpRun (fun _ _ _ _ hs1 => Canon.flowDestroy hs1) h

theorem Canon.execFlowBindIngress {f : Frame} {s : State} (h : Canon s) : OutCanon (execFlowBindIngress f s) :=
  .rcpRun (fun _ _ _ _ hs1 => Canon.bindIngress hs1) h

theorem Canon.execGraphSubmit {f : Frame} {s : State} (h : Canon s) : OutCanon (execGraphSubmit f s) := .graphRow h

theorem Canon.execGraphCancel {f : Frame} {s : State} (h : Canon s) : OutCanon (execGraphCancel f s) := .graphRow h

theorem Canon.execFlowStats {f : Frame} {s : State} (h : Canon s) : OutCanon (execFlowStats f s) :=
  .rcpRun (fun _ _ _ _ hs1 => Canon.flowStats hs1) h

theorem Canon.execStarvePromotion {flow : Nat} {s : State} (h : Canon s) : OutCanon (execStarvePromotion flow s) := .starve h

theorem Canon.execCompletionReleaseResume {flow : Nat} {s : State} (h : Canon s) : OutCanon (execCompletionReleaseResume flow s) :=
  .releaseResume h

theorem Canon.execComplRingPoll {flow : Nat} {s : State} (h : Canon s) : OutCanon (execComplRingPoll flow s) := .ringRelease h

theorem Canon.execDescriptorParityError {flow k : Nat} {s : State} (h : Canon s) : OutCanon (execDescriptorParityError flow k s) :=
  .descParity h

theorem Canon.execPodBusyWindow {cluster : Fin 32} {pod : Fin 16} {s : State} (h : Canon s) : OutCanon (execPodBusyWindow cluster pod s) :=
  .podBusy h

/-! What each level clears (R554, R607). -/

theorem Mem.wf_coreReset {m : Mem} (h : m.wf = true) : m.coreReset.wf = true := by
  rw [Mem.wf_iff] at h ⊢
  exact ⟨Tbl.sorted_keep m.bytes (fun a _ => decide (a < lpddrEnd)) h.1, fun e he => h.2 e (List.mem_of_mem_filter he)⟩

theorem Canon.coreClear {s : State} (h : Canon s) : Canon (coreClear s) := Mem.wf_coreReset h

theorem Canon.systemClear {s : State} : Canon (systemClear s) := rfl

theorem Canon.powerClear {s : State} : Canon (powerClear s) := .fields .systemClear

theorem Canon.assertReset {l : Level} {s : State} (h : Canon s) : Canon (assertReset l s) := by
  unfold Machine.assertReset
  refine .fields ?_
  split
  · exact .coreClear h
  · exact .systemClear
  · exact .powerClear

/-! Release (R559 to R562). -/

theorem Canon.sampleStraps {straps : BitVec 4} {s : State} (h : Canon s) : Canon (sampleStraps straps s) := h

theorem Canon.enableFabric {s : State} (h : Canon s) : Canon (enableFabric s) := .foldl (fun _ _ ha => .pumpPort (.drainRx ha)) h

/-! Power (R552, R568). -/

theorem Canon.railGood {r : Nat} {s : State} (h : Canon s) : Canon (railGood r s) := h

theorem Canon.railBelow {r : Nat} {s : State} (h : Canon s) : Canon (railBelow r s) := .ite (.assertReset h) h

theorem Canon.porRelease {straps : BitVec 4} {s : State} (h : Canon s) : Canon (porRelease straps s) :=
  .ite (.enableFabric (.sampleStraps h)) h

/-! RESET_N (R552, R555, R560). -/

theorem Canon.pinCore {s : State} (h : Canon s) : Canon (pinCore s) := .ite (.assertReset h) h

theorem Canon.pinSystem {s : State} (h : Canon s) : Canon (pinSystem s) := .ite (.assertReset h) h

theorem Canon.pinRelease {straps : BitVec 4} {s : State} (h : Canon s) : Canon (pinRelease straps s) := by
  unfold Machine.pinRelease
  split
  · exact h
  · split
    · exact h
    · exact .enableFabric h
    · exact .enableFabric (.sampleStraps h)

/-! The RESET command (R553). -/

theorem Canon.resetCmd {x : Frame} {n : Nat} {x1 : Session} {s : State} (h : Canon s) : (resetCmd x n x1 s).AllCanon :=
  Canon.check h ⟨h, fun _ ha => ha⟩

theorem Canon.driveStart {s : State} (h : Canon s) : Canon (driveStart s) := .ite h h

theorem Canon.driveEnd {s : State} (h : Canon s) : Canon (driveEnd s) := by
  unfold Machine.driveEnd
  split
  · exact .ite h h
  · exact h

/-! Loss of lock (R20, R227, R516, R557). -/

theorem Canon.granulesLost {n ctx count : Nat} {p : Session → Bool} {s : State} (h : Canon s) : Canon (granulesLost n ctx count p s) :=
  .event h

theorem Canon.loseOverflow {fid n : Nat} {s : State} (h : Canon s) : Canon (loseOverflow fid n s) :=
  .foldl (fun _ _ ha => .ite ha (.ite (.discardItem (.draw ha)) (.draw ha))) h

theorem Canon.loseTraverse {s : State} (h : Canon s) : Canon (loseTraverse s) := .ite h (.fields (.draw h))

theorem Canon.mcLost {n : Nat} {s : State} (h : Canon s) : Canon (Machine.mcLost n s) := by
  unfold Machine.mcLost
  extract_lets used all mem s1 s2 s3 s4 svc s5 s6 s7
  have h1 : Canon s1 := h
  clear_value s1 used all
  have h2 : Canon s2 := .foldl (fun a k ha => by
    extract_lets ch b
    have hb : Canon b := .ite ha (.modChannel (.setChannel ha))
    clear_value b
    exact .ite (.failAll (.endRetrain hb)) hb) h1
  clear_value s2
  have h3 : Canon s3 := .granulesLost h2
  clear_value s3
  have h4 : Canon s4 := .foldl (fun _ _ ha => .ite ha (.granulesLost ha)) h3
  have h5 : Canon s5 := .fields h4
  clear_value s5
  have h6 : Canon s6 := .foldl (fun _ _ ha => .loseOverflow ha) h5
  clear_value s6
  have h7 : Canon s7 := .foldl (fun _ _ ha => .loseOverflow ha) h6
  exact .loseTraverse (.frameStoresLost (.embUnitLost h7))

theorem Canon.islandEffect {i : Nat} {s : State} (h : Canon s) : Canon (islandEffect i s) :=
  .ite (.fields (.linkDown h)) (.ite (.failPort h) (.ite (.mcLost h) (.ite h h)))

theorem Canon.islandLost {i : Nat} {rec inj : Bool} {s : State} (h : Canon s) : Canon (islandLost i rec inj s) :=
  .ite (.islandEffect (.ite (.fireInjected h) (.fire h))) h

theorem Canon.lockLoss {i : Nat} {s : State} (h : Canon s) : Canon (lockLoss i s) := .islandLost h

theorem Canon.refclkStop {s : State} (h : Canon s) : Canon (refclkStop s) := .ite (.foldl (fun _ _ ha => .islandLost ha) h) h

theorem Canon.refclkReturn {s : State} (h : Canon s) : Canon (refclkReturn s) := .ite h (.ite h (.assertReset h))

/-! Lock and the release of islands (R559). -/

theorem Canon.pllLocked {i : Nat} {s : State} (h : Canon s) : Canon (pllLocked i s) := .ite h h

theorem Canon.retrainLost {s : State} (h : Canon s) : Canon (retrainLost s) := .foldl (fun _ _ ha => .ite (.setChannel ha) ha) h

theorem Canon.islandStart {i : Nat} {s : State} (h : Canon s) : Canon (islandStart i s) :=
  .ite (.ite h h) (.ite h (.ite (.ite (.retrainLost h) h) (.ite h h)))

theorem Canon.islandRelease {i : Nat} {s : State} (h : Canon s) : Canon (islandRelease i s) := .ite (.islandStart h) h

/-! The 10 ns tick. -/

theorem Canon.tick {s : State} (h : Canon s) : Canon (tick s) := .fields (.foldl (fun _ _ ha => .sortFree ha) h)

/-! The rows. -/

theorem Canon.execIslandLockLoss {i : Fin 47} {s : State} (h : Canon s) : OutCanon (execIslandLockLoss i s) := .lockLoss h

theorem Canon.execIslandRelease {i : Fin 47} {s : State} (h : Canon s) : OutCanon (execIslandRelease i s) := .islandRelease h

theorem Canon.execPllLocked {i : Fin 47} {s : State} (h : Canon s) : OutCanon (execPllLocked i s) := .pllLocked h

theorem Canon.execRailGood {r : Fin 6} {s : State} (h : Canon s) : OutCanon (execRailGood r s) := .railGood h

theorem Canon.execRailBelowThreshold {r : Fin 6} {s : State} (h : Canon s) : OutCanon (execRailBelowThreshold r s) := .railBelow h

theorem Canon.execPorRelease {straps : BitVec 4} {s : State} (h : Canon s) : OutCanon (execPorRelease straps s) := .porRelease h

theorem Canon.execResetNCoreThreshold {s : State} (h : Canon s) : OutCanon (execResetNCoreThreshold s) := .pinCore h

theorem Canon.execResetNSystemThreshold {s : State} (h : Canon s) : OutCanon (execResetNSystemThreshold s) := .pinSystem h

theorem Canon.execResetNRelease {straps : BitVec 4} {s : State} (h : Canon s) : OutCanon (execResetNRelease straps s) := .pinRelease h

theorem Canon.execResetCore {f : Frame} {s : State} (h : Canon s) : OutCanon (execResetCore f s) :=
  .rcpAction (fun _ _ _ _ hs1 => Canon.resetCmd hs1) h

theorem Canon.execResetSystem {f : Frame} {s : State} (h : Canon s) : OutCanon (execResetSystem f s) :=
  .rcpAction (fun _ _ _ _ hs1 => Canon.resetCmd hs1) h

theorem Canon.execResetDriveStart {s : State} (h : Canon s) : OutCanon (execResetDriveStart s) := .driveStart h

theorem Canon.execResetDriveEnd {s : State} (h : Canon s) : OutCanon (execResetDriveEnd s) := .driveEnd h

theorem Canon.execRefclkStop {s : State} (h : Canon s) : OutCanon (execRefclkStop s) := .refclkStop h

theorem Canon.execRefclkReturn {s : State} (h : Canon s) : OutCanon (execRefclkReturn s) := .refclkReturn h

/-! Streaming operations dropped. -/

theorem Canon.dropJobs {mine : JobHead → Bool} {s : State} (h : Canon s) : Canon (dropJobs mine s) := .foldl (fun _ _ ha => .setLane ha) h

/-! Abandonment (R504). -/

theorem Canon.abandonOps {t epoch : Nat} {s : State} (h : Canon s) : Canon (abandonOps t epoch s) :=
  .wakeRemote (.foldl (fun _ _ ha => .scramble ha) (.memFields (.dropJobs h)))

theorem Canon.quarantineNow {p status : Nat} {s : State} (h : Canon s) : Canon (quarantineNow p status s) :=
  .foldl (fun _ _ ha => .ite ha (.stop ha)) (.modPod h)

/-! The handshake stall watchdog (R508, R510). -/

theorem Canon.selfQuarantine {p : Nat} {s : State} (h : Canon s) : Canon (selfQuarantine p s) :=
  .ite h (.event (.podSettle (.quarantineNow h)))

theorem Canon.selfReset {e : Nat} {s : State} (h : Canon s) : Canon (selfReset e s) := .fields (.draw (.frameEngineReset h))

theorem Canon.selfService {u : Nat} {s : State} (h : Canon s) : Canon (selfService u s) := .ite (.selfQuarantine h) (.ite (.selfReset h) h)

theorem Canon.serveStalls {s : State} (h : Canon s) : Canon (serveStalls s) := .foldl (fun _ _ ha => .selfService ha) h

/-! Ownership of shared resources (R518 to R522). -/

theorem Canon.disown {s : State} {r : Nat} (h : Canon s) : Canon (s.disown r) := .ite (.fields (.ite h h)) (.ite h h)

theorem Canon.releaseAll {s : State} {sid : Nat} (h : Canon s) : Canon (s.releaseAll sid) := .foldl (fun _ _ ha => .disown ha) h

/-! The end of a session (R52, R72). -/

theorem Canon.endSession {sid : Nat} {s : State} (h : Canon s) : Canon (endSession sid s) :=
  .fields (.releaseAll (.foldl (fun _ _ ha => .qpSettle (.qpGo ha)) h))

theorem Canon.alertSettle {s : State} (h : Canon s) : Canon (alertSettle s) := .ite h h

/-! HELLO (R65 to R67). -/

theorem Canon.hello {f : Frame} {s : State} (h : Canon s) : Canon (hello f s) := by
  unfold Machine.hello
  dsimp only
  split
  · exact .frameAnswer h
  · split
    · exact .frameAnswer h
    · exact .ite (.frameAnswer h) (.frameAnswer h)

/-! OPEN_SESSION (R68 to R71, R493 to R495). -/

theorem Canon.openAnswer {f : Frame} {o : RcpOut} {s : State} (h : Canon s) : Canon (openAnswer f o s) := .sendRcp h

theorem Canon.openRun {f : Frame} {s : State} (h : Canon s) : Canon (openRun f s) :=
  .ite (.openAnswer (.fields (.fresh h))) (.openAnswer (.fields (.ite (.writeSec (.signIdentity (.draw (.fresh h)))) (.signIdentity (.draw
    (.fresh h))))))

theorem Canon.openSession {f : Frame} {s : State} (h : Canon s) : Canon (openSession f s) := by
  unfold Machine.openSession
  split
  · exact .frameAnswer h
  · split
    · exact .sendRcp h
    · split
      · exact .sendRcp h
      · split
        · exact .openAnswer h
        · split
          · exact .openAnswer h
          · exact .openRun h

theorem Canon.openAny {f : Frame} {s : State} (h : Canon s) : Canon (openAny f s) :=
  .ite (.openSession h) (.rcpSession (fun _ _ _ _ hs1 => hs1) h)

theorem Canon.openExpiry {ip port rid : Nat} {s : State} (h : Canon s) : Canon (openExpiry ip port rid s) := h

/-! CLOSE_SESSION, KEEPALIVE, the idle timer (R72, R75). -/

theorem Canon.closeSession {x : Frame} {n : Nat} {x1 : Session} {s : State} (h : Canon s) : (closeSession x n x1 s).AllCanon :=
  Canon.check h ⟨h, fun _ ha => .endSession ha⟩

theorem Canon.keepalive {x : Frame} {n : Nat} {x1 : Session} {s : State} (h : Canon s) : (keepalive x n x1 s).AllCanon := Canon.check h h

theorem Canon.idleTimeout {sid : Nat} {s : State} (h : Canon s) : Canon (idleTimeout sid s) := by
  unfold Machine.idleTimeout
  split
  · exact h
  · exact .ite (.alertSettle (.endSession h)) h

/-! Events (R86, R87). -/

theorem Canon.subscribe {x : Frame} {n : Nat} {x1 : Session} {s : State} (h : Canon s) : (subscribe x n x1 s).AllCanon :=
  Canon.check h (.modSession h)

theorem Canon.getEvents {x : Frame} {n : Nat} {x1 : Session} {s : State} (h : Canon s) : (getEvents x n x1 s).AllCanon := by
  unfold Machine.getEvents
  refine Canon.check h ?_
  split
  · exact .draw h
  · exact .alertSettle (.modSession h)

/-! The rows. -/

theorem Canon.execHello {f : Frame} {s : State} (h : Canon s) : OutCanon (execHello f s) := .rcpGate h (fun _ ha => .hello ha)

theorem Canon.execOpenSession {f : Frame} {s : State} (h : Canon s) : OutCanon (execOpenSession f s) := .rcpGate h (fun _ ha => .openAny ha)

theorem Canon.execOpenSessionMemoryExpiry {ip port rid : Nat} {s : State} (h : Canon s) :
    OutCanon (execOpenSessionMemoryExpiry ip port rid s) := .openExpiry h

theorem Canon.execCloseSession {f : Frame} {s : State} (h : Canon s) : OutCanon (execCloseSession f s) :=
  .rcpRun (fun _ _ _ _ hs1 => Canon.closeSession hs1) h

theorem Canon.execKeepalive {f : Frame} {s : State} (h : Canon s) : OutCanon (execKeepalive f s) :=
  .rcpRun (fun _ _ _ _ hs1 => Canon.keepalive hs1) h

theorem Canon.execSessionIdleTimeout {sid : Nat} {s : State} (h : Canon s) : OutCanon (execSessionIdleTimeout sid s) := .idleTimeout h

theorem Canon.execSubscribe {f : Frame} {s : State} (h : Canon s) : OutCanon (execSubscribe f s) :=
  .rcpRun (fun _ _ _ _ hs1 => Canon.subscribe hs1) h

theorem Canon.execGetEvents {f : Frame} {s : State} (h : Canon s) : OutCanon (execGetEvents f s) :=
  .rcpRun (fun _ _ _ _ hs1 => Canon.getEvents hs1) h

/-! Speed monitors and the loop (R21 to R28). -/

theorem Canon.speedMon {c : Nat} {count : BitVec 20} {s : State} (h : Canon s) : Canon (speedMon c count s) := .ite h h

theorem Canon.requestVcore {v : Nat} {s : State} (h : Canon s) : Canon (requestVcore v s) := .ite h (.send h)

theorem Canon.setFans {s : State} (h : Canon s) : Canon (setFans s) := h

theorem Canon.loopIteration {vread : BitVec 12} {iread : BitVec 16} {failed : Bool} {s : State} (h : Canon s) :
    Canon (loopIteration vread iread failed s) := .ite h (.setFans (.ite h (.requestVcore h)))

theorem Canon.setSpeedTarget {x : Frame} {n : Nat} {x1 : Session} {s : State} (h : Canon s) : (setSpeedTarget x n x1 s).AllCanon :=
  Canon.check h h

theorem Canon.getSpeed {x : Frame} {n : Nat} {x1 : Session} {s : State} (h : Canon s) : (getSpeed x n x1 s).AllCanon := Canon.check h h

/-! The configuration record (R34). -/

theorem Canon.getConfig {x : Frame} {n : Nat} {x1 : Session} {s : State} (h : Canon s) : (getConfig x n x1 s).AllCanon := Canon.check h h

/-! Recalibration (R512, R513). -/

theorem Canon.drawTrims {s : State} (h : Canon s) : Canon (drawTrims s).2.2 := h

theorem Canon.recalibrated {trims : List (BitVec 6)} {s : State} (h : Canon s) : Canon (recalibrated trims s) := h

theorem Canon.recalTimer {trims : List (BitVec 6)} {s : State} (h : Canon s) : Canon (recalTimer trims s) := .ite (.recalibrated h) h

/-! Rails (R568). -/

theorem Canon.railWindow {r : Nat} {mv : BitVec 12} {s : State} (h : Canon s) : Canon (railWindow r mv s) :=
  .ite h (.ite (.fire (.fields (.ite (.disarm h) h))) (.fields (.ite (.disarm h) h)))

/-! Temperature (R572 to R574). -/

theorem Canon.hotClaims {s : State} (h : Canon s) : Canon (hotClaims s) := h

theorem Canon.coolClaims {s : State} (h : Canon s) : Canon (coolClaims s) := h

theorem Canon.thermEvent {code : Nat} {s : State} (h : Canon s) : Canon (thermEvent code s) := .event h

theorem Canon.thermFire {detail : Nat} {inj : Bool} {s : State} (h : Canon s) : Canon (thermFire detail inj s) := .fire h

theorem Canon.alertStep {inj : Bool} {s : State} (h : Canon s) : Canon (alertStep inj s) := .ite (.thermFire (.thermEvent h)) (.ite h h)

theorem Canon.throttleStep {inj : Bool} {s : State} (h : Canon s) : Canon (throttleStep inj s) :=
  .ite (.thermFire (.thermEvent h)) (.ite (.thermEvent h) h)

theorem Canon.hotStep {inj : Bool} {s : State} (h : Canon s) : Canon (hotStep inj s) :=
  .ite (.thermFire (.thermEvent (.hotClaims h))) (.ite (.thermEvent (.coolClaims h)) h)

theorem Canon.thermalWindow {temps : List (BitVec 8)} {s : State} (h : Canon s) : Canon (thermalWindow temps s) :=
  .ite h (.ite (.fire (.fields (.hotStep (.throttleStep (.alertStep (.fields (.foldl (fun _ _ ha => .disarm ha) h))))))) (.hotStep
    (.throttleStep (.alertStep (.fields (.foldl (fun _ _ ha => .disarm ha) h))))))

theorem Canon.getThermal {x : Frame} {n : Nat} {x1 : Session} {s : State} (h : Canon s) : (getThermal x n x1 s).AllCanon := Canon.check h h

theorem Canon.tachWindow {edges : List (BitVec 16)} {s : State} (h : Canon s) : Canon (tachWindow edges s) := .ite h h

/-! The rows. -/

theorem Canon.execSpeedMonWindow {c : Fin 32} {count : BitVec 20} {s : State} (h : Canon s) : OutCanon (execSpeedMonWindow c count s) :=
  .speedMon h

theorem Canon.execAvsLoopIteration {vread : BitVec 12} {iread : BitVec 16} {failed : Bool} {s : State} (h : Canon s) :
    OutCanon (execAvsLoopIteration vread iread failed s) := .loopIteration h

theorem Canon.execSetSpeedTarget {f : Frame} {s : State} (h : Canon s) : OutCanon (execSetSpeedTarget f s) :=
  .rcpRun (fun _ _ _ _ hs1 => Canon.setSpeedTarget hs1) h

theorem Canon.execGetSpeed {f : Frame} {s : State} (h : Canon s) : OutCanon (execGetSpeed f s) :=
  .rcpRun (fun _ _ _ _ hs1 => Canon.getSpeed hs1) h

theorem Canon.execGetConfig {f : Frame} {s : State} (h : Canon s) : OutCanon (execGetConfig f s) :=
  .rcpRun (fun _ _ _ _ hs1 => Canon.getConfig hs1) h

theorem Canon.execAvsRecalTimer {trims : List (BitVec 6)} {s : State} (h : Canon s) : OutCanon (execAvsRecalTimer trims s) := .recalTimer h

theorem Canon.execRailMonitorWindow {r : Fin 6} {mv : BitVec 12} {s : State} (h : Canon s) : OutCanon (execRailMonitorWindow r mv s) :=
  .railWindow h

theorem Canon.execThermalSensorWindow {temps : List (BitVec 8)} {s : State} (h : Canon s) : OutCanon (execThermalSensorWindow temps s) :=
  .thermalWindow h

theorem Canon.execGetThermal {f : Frame} {s : State} (h : Canon s) : OutCanon (execGetThermal f s) :=
  .rcpRun (fun _ _ _ _ hs1 => Canon.getThermal hs1) h

theorem Canon.execTachWindow {edges : List (BitVec 16)} {s : State} (h : Canon s) : OutCanon (execTachWindow edges s) := .tachWindow h

/-! The boot ROM (R484, R564). -/

theorem Canon.jumpTo {img : FwImage} {s : State} (h : Canon s) : Canon (jumpTo img s) := .fields (.extend (.extend h))

theorem Canon.netBoot {detail : Nat} {s : State} (h : Canon s) : Canon (netBoot detail s) := h

theorem tryCandidates_nil (n : Nat) (s : State) : tryCandidates [] n s = netBoot n s := rfl

theorem tryCandidates_error {k n : Nat} {r : SlotRec} {t : List (Nat × SlotRec)} {s : State} {e : Err}
    (h : s.flash.checkSlot s.fw.fuses k = .error e) : tryCandidates ((k, r) :: t) n s = tryCandidates t e.detail s := by
  delta Machine.tryCandidates Machine.tryCandidates._f List.brecOn List.brecOn.go
  dsimp only
  rw [h]

theorem tryCandidates_ok {k n : Nat} {r : SlotRec} {t : List (Nat × SlotRec)} {s : State} {img : FwImage}
    (h : s.flash.checkSlot s.fw.fuses k = .ok img) : tryCandidates ((k, r) :: t) n s =
      jumpTo img (if r.state = 2 then
          ({ s with ctl := { s.ctl with bootDetail := BitVec.ofNat 16 n } }).modFlash (fun f => f.restate k 3)
        else { s with ctl := { s.ctl with bootDetail := BitVec.ofNat 16 n } }) := by
  delta Machine.tryCandidates Machine.tryCandidates._f List.brecOn List.brecOn.go
  dsimp only
  rw [h]

theorem Canon.tryCandidates {l : List (Nat × SlotRec)} {n : Nat} {s : State} (h : Canon s) : Canon (tryCandidates l n s) := by
  induction l generalizing n with
  | nil => rw [tryCandidates_nil]; exact .netBoot h
  | cons p t ih =>
    obtain ⟨k, r⟩ := p
    cases e : s.flash.checkSlot s.fw.fuses k with
    | error er =>
      rw [tryCandidates_error e]
      exact ih
    | ok img =>
      rw [tryCandidates_ok e]
      exact .jumpTo (.ite (.modFlash (.fields h)) (.fields h))

theorem Canon.bootRomStart {s : State} (h : Canon s) : Canon (bootRomStart s) := .ite h (.ite (.netBoot h) (.tryCandidates h))

/-! BOOT_LOAD (R565). -/

theorem Canon.endSessions {s : State} (h : Canon s) : Canon (endSessions s) := .foldl (fun _ _ ha => .endSession ha) h

theorem Canon.bootLoad {x : Frame} {n : Nat} {x1 : Session} {s : State} (h : Canon s) : (bootLoad x n x1 s).AllCanon := by
  unfold Machine.bootLoad
  refine Canon.check h ?_
  split
  · exact h
  · split
    · exact h
    · exact ⟨h, fun _ ha => .jumpTo (.endSessions ha)⟩
  · exact h

/-! Firmware starts (R566). -/

theorem Canon.trainAll {l : List Training} {s : State} (h : Canon s) : Canon (trainAll l s) := by
  unfold Machine.trainAll
  refine .memFields (.foldl (fun _ _ ha => ?_) h)
  split
  · exact .ite (.setChannel ha) ha
  · exact ha
  · exact ha

theorem Canon.reserveMem {s : State} (h : Canon s) : Canon (reserveMem s) := h

theorem Canon.boardClaims {fns : List Nat} {s : State} (h : Canon s) : Canon (boardClaims fns s) := .ite (.hotClaims h) h

theorem Canon.startLoop {s : State} (h : Canon s) : Canon (startLoop s) := .recalibrated (.drawTrims (.send h))

theorem Canon.ready {s : State} (h : Canon s) : Canon (ready s) :=
  .foldl (fun _ _ ha => .pumpPort (.drainRx ha)) (.serveStalls (.retrainLost (.flushEvents h)))

theorem Canon.firmwareStart {training : List Training} {s : State} (h : Canon s) : Canon (firmwareStart training s) :=
  .ite h (.ite (.ready (.reserveMem (.fields (.ite (.startLoop (.boardClaims h)) (.trainAll (.startLoop (.boardClaims h)))))))
    (.discTrigger (.ready (.reserveMem (.fields (.ite (.startLoop (.boardClaims h)) (.trainAll (.startLoop (.boardClaims h)))))))))

/-! The relock path (R558). -/

theorem Canon.dropFirmware {s : State} (h : Canon s) : Canon (dropFirmware s) := .fields (.coreClear (.endSessions h))

theorem Canon.failInFlight {s : State} (h : Canon s) : Canon (failInFlight s) := .foldl (fun _ _ ha => .finish ha) h

theorem Canon.flushOwed {s : State} (h : Canon s) : Canon (flushOwed s) := .foldl (fun _ _ ha => .sendRcp ha) h

theorem Canon.dropHandover {s : State} (h : Canon s) : Canon (dropHandover s) := .ite (.modFlash h) h

theorem Canon.relockPath {s : State} (h : Canon s) : Canon (relockPath s) := by
  unfold Machine.relockPath
  split
  · exact h
  · split
    · exact .netBoot (.fields (.dropFirmware h))
    · exact .ite (.flushOwed (.failInFlight (.ready (.startLoop (.fields (.dropHandover (.extend h))))))) (.fields (.dropHandover (.extend
        h)))

/-! The reservation rebuilt (R360, R516). -/

theorem Canon.rebuilt {s : State} (h : Canon s) : Canon (rebuilt s) :=
  .ite h (.fields (.foldl (fun _ _ ha => .modBank ha) (.foldl (fun _ _ ha => .foldl (fun _ _ ha1 => .settleOne ha1) ha) h)))

/-! The rows. -/

theorem Canon.execBootRomStart {s : State} (h : Canon s) : OutCanon (execBootRomStart s) := .bootRomStart h

theorem Canon.execSurveyorRelockPath {s : State} (h : Canon s) : OutCanon (execSurveyorRelockPath s) := .relockPath h

theorem Canon.execFirmwareStart {training : List Training} {s : State} (h : Canon s) : OutCanon (execFirmwareStart training s) :=
  .firmwareStart h

theorem Canon.execBootLoadWrite {f : Frame} {s : State} (h : Canon s) : OutCanon (execBootLoadWrite f s) :=
  .rcpAction (fun _ _ _ _ hs1 => Canon.bootLoad hs1) h

theorem Canon.execBootLoadRun {f : Frame} {s : State} (h : Canon s) : OutCanon (execBootLoadRun f s) :=
  .rcpAction (fun _ _ _ _ hs1 => Canon.bootLoad hs1) h

theorem Canon.execBootLoadAbort {f : Frame} {s : State} (h : Canon s) : OutCanon (execBootLoadAbort f s) :=
  .rcpAction (fun _ _ _ _ hs1 => Canon.bootLoad hs1) h

theorem Canon.execReservationRebuilt {s : State} (h : Canon s) : OutCanon (execReservationRebuilt s) := .rebuilt h

/-! Traverse (R536 to R539). -/

theorem Canon.modTrv {s : State} {f : Trv → Trv} (h : Canon s) : Canon (s.modTrv f) := h

theorem Canon.debugEvent {code seq reason : Nat} {s : State} (h : Canon s) : Canon (debugEvent code seq reason s) := .event h

theorem Canon.trvStop {reason : Nat} {s : State} (h : Canon s) : Canon (trvStop reason s) := .ite (.debugEvent (.modTrv h)) h

theorem Canon.trvPut {r : TrvRec} {s : State} (h : Canon s) : Canon (trvPut r s) :=
  .ite h (.ite (.trvStop h) (.ite (.ite (.trvStop (.modTrv h)) (.modTrv h)) (.modTrv h)))

theorem Canon.trvGap {core : Nat} {s : State} (h : Canon s) : Canon (trvGap core s) := .ite h (.trvPut (.modTrv h))

theorem Canon.trvRecord {core : Nat} {s : State} (h : Canon s) : Canon (trvRecord core s) := .ite h (.ite (.modTrv h) (.trvPut (.trvGap h)))

theorem Canon.trvStarts {s : State} (h : Canon s) : Canon (trvStarts s) := .foldl (fun _ _ ha => .trvPut (.draw ha)) h

/-! Freeze (R545 to R548). -/

theorem Canon.modFrz {s : State} {f : Frz → Frz} (h : Canon s) : Canon (s.modFrz f) := h

theorem Canon.beginFreeze {stopTrv : Bool} {timeout reason : Nat} {s : State} (h : Canon s) :
    Canon (beginFreeze stopTrv timeout reason s) := .debugEvent (.modFrz h)

theorem Canon.cutDone {s : State} (h : Canon s) : Canon (cutDone s) := .finishAll (.ite (.trvStop (.modFrz h)) (.modFrz h))

theorem Canon.freezeMarker {u : Nat} {s : State} (h : Canon s) : Canon (freezeMarker u s) :=
  .ite (.ite (.cutDone (.modFrz h)) (.modFrz h)) h

theorem Canon.cutTimeout {s : State} (h : Canon s) : Canon (cutTimeout s) := by
  unfold Machine.cutTimeout
  dsimp only
  split
  · split
    · exact .modFrz h
    · refine .failAll ?_
      split
      · exact .modFrz h
      · exact .draw (.modFrz h)
  · exact h

theorem Canon.thawAll {reason : Nat} {s : State} (h : Canon s) : Canon (thawAll reason s) :=
  .drainBanks (.pumpOps (.foldl (fun _ _ ha => .pumpPort (.drainRx ha)) (.debugEvent (.modFrz h))))

theorem Canon.freezeTimeout {s : State} (h : Canon s) : Canon (freezeTimeout s) := .ite (.thawAll h) h

theorem Canon.freezeCmd {x : Frame} {n : Nat} {x1 : Session} {s : State} (h : Canon s) : (freezeCmd x n x1 s).AllCanon := by
  unfold Machine.freezeCmd
  refine Canon.check h ?_
  split
  · exact .beginFreeze h
  · exact .modFrz h
  · exact .modFrz h

theorem Canon.thawCmd {x : Frame} {n : Nat} {x1 : Session} {s : State} (h : Canon s) : (thawCmd x n x1 s).AllCanon :=
  Canon.check h (.thawAll h)

/-! The trigger (R538, R545). -/

theorem Canon.trvTrigger {src : Nat} {s : State} (h : Canon s) : Canon (trvTrigger src s) := by
  unfold Machine.trvTrigger
  dsimp only
  split
  · exact h
  · split
    · exact .ite (.fields (.debugEvent (.trvPut (.modTrv h)))) (.debugEvent (.trvPut (.modTrv h)))
    · exact .ite (.modFrz (.ite (.fields (.debugEvent (.trvPut (.modTrv h)))) (.debugEvent (.trvPut (.modTrv h))))) (.beginFreeze (.modFrz
        (.ite (.fields (.debugEvent (.trvPut (.modTrv h)))) (.debugEvent (.trvPut (.modTrv h))))))

theorem Canon.pulseEnd {s : State} (h : Canon s) : Canon (pulseEnd s) := h

/-! TRAVERSE_CONFIG (R540). -/

theorem Canon.trvStart {p : List Byte} {s : State} (h : Canon s) : Canon (trvStart p s) := .trvStarts (.modTrv h)

theorem Canon.traverse {x : Frame} {n : Nat} {x1 : Session} {s : State} (h : Canon s) : (traverse x n x1 s).AllCanon := by
  unfold Machine.traverse
  refine Canon.check h ?_
  split
  · exact .trvStart h
  · exact .trvStop h
  · exact h
  · exact h

/-! The rows. -/

theorem Canon.execTraverseStart {f : Frame} {s : State} (h : Canon s) : OutCanon (execTraverseStart f s) :=
  .rcpAction (fun _ _ _ _ hs1 => Canon.traverse hs1) h

theorem Canon.execTraverseStop {f : Frame} {s : State} (h : Canon s) : OutCanon (execTraverseStop f s) :=
  .rcpAction (fun _ _ _ _ hs1 => Canon.traverse hs1) h

theorem Canon.execTraverseStatus {f : Frame} {s : State} (h : Canon s) : OutCanon (execTraverseStatus f s) :=
  .rcpAction (fun _ _ _ _ hs1 => Canon.traverse hs1) h

theorem Canon.execTraverseRead {f : Frame} {s : State} (h : Canon s) : OutCanon (execTraverseRead f s) :=
  .rcpAction (fun _ _ _ _ hs1 => Canon.traverse hs1) h

theorem Canon.execTraverseRecord {core : Fin 4} {s : State} (h : Canon s) : OutCanon (execTraverseRecord core s) := .trvRecord h

theorem Canon.execTraverseTrigger {src : Fin 3} {s : State} (h : Canon s) : OutCanon (execTraverseTrigger src s) := .trvTrigger h

theorem Canon.execTriggerPulseEnd {s : State} (h : Canon s) : OutCanon (execTriggerPulseEnd s) := .pulseEnd h

theorem Canon.execFreezeNow {f : Frame} {s : State} (h : Canon s) : OutCanon (execFreezeNow f s) :=
  .rcpAction (fun _ _ _ _ hs1 => Canon.freezeCmd hs1) h

theorem Canon.execFreezeArm {f : Frame} {s : State} (h : Canon s) : OutCanon (execFreezeArm f s) :=
  .rcpAction (fun _ _ _ _ hs1 => Canon.freezeCmd hs1) h

theorem Canon.execFreezeDisarm {f : Frame} {s : State} (h : Canon s) : OutCanon (execFreezeDisarm f s) :=
  .rcpAction (fun _ _ _ _ hs1 => Canon.freezeCmd hs1) h

theorem Canon.execFreezeMarker {u : Nat} {s : State} (h : Canon s) : OutCanon (execFreezeMarker u s) := .freezeMarker h

theorem Canon.execFreezeCutTimeout {s : State} (h : Canon s) : OutCanon (execFreezeCutTimeout s) := .cutTimeout h

theorem Canon.execThaw {f : Frame} {s : State} (h : Canon s) : OutCanon (execThaw f s) := .rcpRun (fun _ _ _ _ hs1 => Canon.thawCmd hs1) h

theorem Canon.execFreezeTimeoutThaw {s : State} (h : Canon s) : OutCanon (execFreezeTimeoutThaw s) := .freezeTimeout h

/-! Pod quarantine (R503 to R508). -/

theorem Canon.quarantineDrain {p : Nat} {s : State} (h : Canon s) : Canon (quarantineDrain p s) :=
  .modPod (.foldl (fun _ _ ha => .quarantineThread ha) h)

theorem Canon.reinstateThread {t : Nat} {s : State} (h : Canon s) : Canon (reinstateThread t s) := by
  unfold Machine.reinstateThread
  split
  · exact .modThread h
  · split
    · exact .takeThread h
    · exact .start h

theorem Canon.podQuarantine {f : Frame} {n : Nat} {x : Session} {s : State} (h : Canon s) : (Machine.podQuarantine f n x s).AllCanon := by
  unfold Machine.podQuarantine
  extract_lets p s1
  have h1 : Canon s1 := .quarantineNow h
  clear_value p s1
  refine Canon.check h ?_
  split
  · split
    · exact ⟨.quarantineDrain h, fun _ ha => .podSettle ha⟩
    · split
      · exact Canon.podSettle h1
      · exact h1
  · exact h
  · exact Canon.modPod (.foldl (fun _ _ ha => .reinstateThread ha) h)

theorem Canon.abandonTimer {p : Nat} {s : State} (h : Canon s) : Canon (abandonTimer p s) :=
  .ite (.ite h (.podSettle (.foldl (fun _ _ ha => .quarantineThread (.abandonOps ha)) h))) h

theorem Canon.selftestEnd {p sid rid : Nat} {s : State} (h : Canon s) : Canon (selftestEnd p sid rid s) :=
  .finish (.modPod (.zeroed (.draw h)))

/-! The handshake stall watchdog (R508, R510, R525). -/

theorem Canon.stallWatchdog {u : Nat} {s : State} (h : Canon s) : Canon (stallWatchdog u s) :=
  .ite (.ite (.selfService (.ite (.fireInjected (.draw h)) (.fire (.draw h)))) (.fields (.ite (.fireInjected (.draw h)) (.fire (.draw
    h))))) h

/-! SERVICE_STATUS (R509 to R515). -/

theorem Canon.fwState {s : State} (h : Canon s) : Canon (fwState s).2 := by
  unfold Machine.fwState
  split
  · exact .draw h
  · exact h

theorem Canon.relinkGo {t : Nat} {s : State} (h : Canon s) : Canon (relinkGo t s) := .ite (.linkDown h) (.failPort h)

theorem Canon.serviceStatus {x : Frame} {n : Nat} {x1 : Session} {s : State} (h : Canon s) : (serviceStatus x n x1 s).AllCanon := by
  unfold Machine.serviceStatus
  refine Canon.check h ?_
  split
  · exact .fwState h
  · exact .fields (.frameEngineReset h)
  · exact ⟨h, fun _ ha => .relinkGo ha⟩
  · exact h

theorem Canon.engineResetEnd {e sid rid : Nat} {s : State} (h : Canon s) : Canon (engineResetEnd e sid rid s) :=
  .ite (.finish (.fields (.draw h))) (.finish (.draw h))

theorem Canon.recalEnd {sid rid : Nat} {s : State} (h : Canon s) : Canon (recalEnd sid rid s) :=
  .ite (.finish (.recalibrated (.drawTrims h))) (.finish (.recalibrated (.drawTrims h)))

theorem Canon.relinkTimeout {s : State} (h : Canon s) : Canon (relinkTimeout s) := .foldl (fun _ _ ha => .failAll ha) h

/-! Shared resources (R518 to R523). -/

theorem Canon.preempt {r cls : Nat} {o : Owner} {s : State} (h : Canon s) : Canon (preempt r cls o s) :=
  .eventTo (.ite (.trvStop (.disown h)) (.disown h))

theorem Canon.claim {x : Frame} {n : Nat} {x1 : Session} {s : State} (h : Canon s) : (claim x n x1 s).AllCanon := by
  unfold Machine.claim
  refine Canon.check h ?_
  split
  · exact h
  · split
    · exact h
    · exact .fields (.preempt h)

theorem Canon.releaseRes {x : Frame} {n : Nat} {x1 : Session} {s : State} (h : Canon s) : (releaseRes x n x1 s).AllCanon :=
  Canon.check h (.disown h)

/-! INJECT (R528, R529). -/

theorem Canon.flipArray {bank e : Nat} {s : State} (h : Canon s) : Canon (flipArray bank e s) := .modBank (.draw h)

theorem Canon.inject {x : Frame} {n : Nat} {x1 : Session} {s : State} (h : Canon s) : (inject x n x1 s).AllCanon := by
  unfold Machine.inject
  refine Canon.check h ?_
  split
  · exact .ite (.flipArray (.modDetector h)) (.modDetector h)
  · exact .modDetector h

/-! The rows. -/

theorem Canon.execHandshakeStallWatchdog {u : Nat} {s : State} (h : Canon s) : OutCanon (execHandshakeStallWatchdog u s) := .stallWatchdog h

theorem Canon.execPodQuarantine {f : Frame} {s : State} (h : Canon s) : OutCanon (execPodQuarantine f s) :=
  .rcpAction (fun _ _ _ _ hs1 => Canon.podQuarantine hs1) h

theorem Canon.execQuarantineAbandonTimer {pod : Fin 512} {s : State} (h : Canon s) : OutCanon (execQuarantineAbandonTimer pod s) :=
  .abandonTimer h

theorem Canon.execPodSelftest {f : Frame} {s : State} (h : Canon s) : OutCanon (execPodSelftest f s) :=
  .rcpAction (fun _ _ _ _ hs1 => Canon.podQuarantine hs1) h

theorem Canon.execPodReinstate {f : Frame} {s : State} (h : Canon s) : OutCanon (execPodReinstate f s) :=
  .rcpAction (fun _ _ _ _ hs1 => Canon.podQuarantine hs1) h

theorem Canon.execServiceQuery {f : Frame} {s : State} (h : Canon s) : OutCanon (execServiceQuery f s) :=
  .rcpAction (fun _ _ _ _ hs1 => Canon.serviceStatus hs1) h

theorem Canon.execEngineReset {f : Frame} {s : State} (h : Canon s) : OutCanon (execEngineReset f s) :=
  .rcpAction (fun _ _ _ _ hs1 => Canon.serviceStatus hs1) h

theorem Canon.execPortRelink {f : Frame} {s : State} (h : Canon s) : OutCanon (execPortRelink f s) :=
  .rcpAction (fun _ _ _ _ hs1 => Canon.serviceStatus hs1) h

theorem Canon.execRelinkTimeout {s : State} (h : Canon s) : OutCanon (execRelinkTimeout s) := .relinkTimeout h

theorem Canon.execAvsRecal {f : Frame} {s : State} (h : Canon s) : OutCanon (execAvsRecal f s) :=
  .rcpAction (fun _ _ _ _ hs1 => Canon.serviceStatus hs1) h

theorem Canon.execClaim {f : Frame} {s : State} (h : Canon s) : OutCanon (execClaim f s) := .rcpRun (fun _ _ _ _ hs1 => Canon.claim hs1) h

theorem Canon.execRelease {f : Frame} {s : State} (h : Canon s) : OutCanon (execRelease f s) :=
  .rcpRun (fun _ _ _ _ hs1 => Canon.releaseRes hs1) h

theorem Canon.execInjectArm {f : Frame} {s : State} (h : Canon s) : OutCanon (execInjectArm f s) :=
  .rcpAction (fun _ _ _ _ hs1 => Canon.inject hs1) h

theorem Canon.execInjectDisarm {f : Frame} {s : State} (h : Canon s) : OutCanon (execInjectDisarm f s) :=
  .rcpAction (fun _ _ _ _ hs1 => Canon.inject hs1) h

/-! CONTEXT_DESTROY (R204): what ends with a context. -/

theorem Canon.dropImages {ctx : Nat} {s : State} (h : Canon s) : Canon (dropImages ctx s) :=
  .foldl (fun _ _ ha => .unbindImage (.stopImage (.foldl (fun _ _ ha1 => .retire ha1) ha))) h

theorem Canon.dropUnits {ctx : Nat} {s : State} (h : Canon s) : Canon (dropUnits ctx s) :=
  .fields (.dropJobs (.foldl (fun _ _ ha => .sampleAbandon ha) h))

theorem Canon.dropEmb {ctx : Nat} {s : State} (h : Canon s) : Canon (dropEmb ctx s) := h

theorem Canon.dropRemote {ctx : Nat} {s : State} (h : Canon s) : Canon (dropRemote ctx s) := h

theorem Canon.dropFrames {ctx : Nat} {s : State} (h : Canon s) : Canon (dropFrames ctx s) :=
  .foldl (fun _ _ ha => .settleFrames (.modFs ha)) h

theorem Canon.contextGo {ctx : Nat} {s : State} (h : Canon s) : Canon (contextGo ctx s) :=
  .dropFrames (.fields (.foldl (fun _ _ ha => .qpSettle (.qpGo ha)) (.dropRemote (.dropEmb (.gazDropCtx (.dropUnits (.modCtx (.dropImages
    (.foldl (fun _ _ ha => .endSession ha) h)))))))))

theorem Canon.contextEnd {ctx : Nat} {s : State} (h : Canon s) : Canon (contextEnd ctx s) := .memFields (.unmapRange h)

theorem Canon.contextDestroy {x : Frame} {n : Nat} {x1 : Session} {s : State} (h : Canon s) : (contextDestroy x n x1 s).AllCanon :=
  Canon.check h ⟨h, fun _ ha => .contextGo ha⟩

theorem Canon.execContextDestroy {f : Frame} {s : State} (h : Canon s) : OutCanon (execContextDestroy f s) :=
  .rcpRun (fun _ _ _ _ hs1 => Canon.contextDestroy hs1) h

/-! EMB_TABLE_CREATE. -/

/-- A reply that is an error, or another's. -/
theorem Reply.AllCanon.err_or {o : Option Err} {r : Reply} {s : State} (h : Canon s) (hr : r.AllCanon) :
    Reply.AllCanon (match o with
      | some e => .err e s
      | none => r) := by
  cases o with
  | none => exact hr
  | some e => exact h

/-- The reply of a table made: its storage mapped, its buffers charged. -/
theorem Reply.AllCanon.tableMade {o : Option (Nat × State)} {s : State} {ctx : Nat} {t : EmbTable} (ho : ∀ p, o = some p → Canon p.2) (h :
    Canon s) :
    Reply.AllCanon (match (generalizing := false) o with
      | none => .err (err0 stLimit) s
      | some (va, s1) =>
        let r := s1.fresh (fun k => k == 0 || (s1.emb.tables.find k).isSome) (2 ^ 64) (s1.emb.tables.length + 1)
        let s2 := { r.2 with emb := { r.2.emb with tables := r.2.emb.tables.put r.1 { t with versions := [(1, ⟨va, 0⟩)] } } }
        .ok (leb 8 r.1 ++ leb 8 va ++ leb 8 (va + t.rows * t.stride) ++ leb 4 t.stride ++ leb 4 1) (s2.charge ctx t.bufBytes)) := by
  rcases o with _ | ⟨va, s1⟩
  · exact h
  · exact Canon.charge (.fields (.fresh (ho _ rfl)))

theorem Canon.embCreate {f : Frame} {n : Nat} {x : Session} {s : State} (h : Canon s) : (Machine.embCreate f n x s).AllCanon := by
  have hk {t : EmbTable} p (e : Machine.mapStorage s x.ctx t.storageLen t.ecc = some p) : Canon p.2 := Canon.mapStorage e h
  unfold Machine.embCreate
  split
  · exact h
  · exact .err_or h (.tableMade hk h)

/-! PARTITION_MAP_SET. -/

theorem Canon.mapSet {x : Frame} {n : Nat} {x1 : Session} {s : State} (h : Canon s) : (mapSet x n x1 s).AllCanon := by
  unfold Machine.mapSet
  dsimp only
  split
  · exact h
  · split
    · exact .ite (.countRefused h) h
    · split
      · rename_i e1
        refine .of_snd e1 (.io ?_ h)
        split
        · exact .pure
        · exact .memRead
      · rename_i e1
        refine .modEmb (.of_snd e1 (.io ?_ h))
        split
        · exact .pure
        · exact .memRead

/-! EMB_TABLE_SWAP. -/

theorem Canon.embSwap {act flags : Nat} {bad : EmbTable → Bool} {go : Nat → EmbTable → State → Reply} {x : Frame} {n : Nat} {x1 : Session}
    {s : State} (hgo : ∀ (a : Nat) (b : EmbTable) (c : State), Canon c → (go a b c).AllCanon) (h : Canon s) :
    (embSwap act flags bad go x n x1 s).AllCanon := by
  unfold Machine.embSwap
  refine Canon.check h ?_
  split
  · exact h
  · exact hgo _ _ _ h

theorem Canon.embPrepare {x : Frame} {n : Nat} {x1 : Session} {s : State} (h : Canon s) : (embPrepare x n x1 s).AllCanon := by
  unfold Machine.embPrepare
  refine Canon.embSwap (fun _ _ _ ha_2 => ?_) h
  split
  · exact ha_2
  · split
    · exact ha_2
    · rename_i e
      exact .modEmb (.mapStorage e ha_2)

theorem Canon.embCommit {x : Frame} {n : Nat} {x1 : Session} {s : State} (h : Canon s) : (embCommit x n x1 s).AllCanon :=
  Canon.embSwap (fun _ _ _ ha_2 => .closeOn (.embReap (.modEmb (.ite (.loseEntries ha_2) ha_2)))) h

theorem Canon.embCancel {x : Frame} {n : Nat} {x1 : Session} {s : State} (h : Canon s) : (embCancel x n x1 s).AllCanon :=
  Canon.embSwap (fun _ _ _ ha_2 => .embReap (.modEmb ha_2)) h

theorem Canon.destroyTable {h1 : Nat} {s : State} (h : Canon s) : Canon (destroyTable h1 s) :=
  .embReap (.wakeStep (.settleEmb (.fields (.modEmb h))))

theorem Canon.embDestroy {x : Frame} {n : Nat} {x1 : Session} {s : State} (h : Canon s) : (embDestroy x n x1 s).AllCanon :=
  Canon.embSwap (fun _ _ _ ha_2 => .destroyTable ha_2) h

theorem Canon.embQuery {x : Frame} {n : Nat} {x1 : Session} {s : State} (h : Canon s) : (embQuery x n x1 s).AllCanon :=
  Canon.embSwap (fun _ _ _ ha_2 => .ite (.modEmbCtr ha_2) ha_2) h

theorem Canon.embSwapCmd {x : Frame} {n : Nat} {x1 : Session} {s : State} (h : Canon s) : (embSwapCmd x n x1 s).AllCanon := by
  unfold Machine.embSwapCmd
  split
  · exact Canon.embPrepare h
  · exact Canon.embCommit h
  · exact Canon.embCancel h
  · exact Canon.embDestroy h
  · exact Canon.embQuery h
  · exact h

/-! The rows. -/

theorem Canon.execEmbTableCreate {f : Frame} {s : State} (h : Canon s) : OutCanon (execEmbTableCreate f s) :=
  .rcpRun (fun _ _ _ _ hs1 => Canon.embCreate hs1) h

theorem Canon.execPartitionMapSet {f : Frame} {s : State} (h : Canon s) : OutCanon (execPartitionMapSet f s) :=
  .rcpRun (fun _ _ _ _ hs1 => Canon.mapSet hs1) h

theorem Canon.execEmbTablePrepare {f : Frame} {s : State} (h : Canon s) : OutCanon (execEmbTablePrepare f s) :=
  .rcpAction (fun _ _ _ _ hs1 => Canon.embPrepare hs1) h

theorem Canon.execEmbTableCommit {f : Frame} {s : State} (h : Canon s) : OutCanon (execEmbTableCommit f s) :=
  .rcpAction (fun _ _ _ _ hs1 => Canon.embCommit hs1) h

theorem Canon.execEmbTableCancel {f : Frame} {s : State} (h : Canon s) : OutCanon (execEmbTableCancel f s) :=
  .rcpAction (fun _ _ _ _ hs1 => Canon.embCancel hs1) h

theorem Canon.execEmbTableDestroy {f : Frame} {s : State} (h : Canon s) : OutCanon (execEmbTableDestroy f s) :=
  .rcpAction (fun _ _ _ _ hs1 => Canon.embDestroy hs1) h

theorem Canon.execEmbTableQuery {f : Frame} {s : State} (h : Canon s) : OutCanon (execEmbTableQuery f s) :=
  .rcpAction (fun _ _ _ _ hs1 => Canon.embQuery hs1) h

/-! LEGEND_CREATE and its DESTROY (R232 to R235). -/

theorem Canon.legendCreate {x : Frame} {n : Nat} {x1 : Session} {s : State} (h : Canon s) : (legendCreate x n x1 s).AllCanon := by
  unfold Machine.legendCreate
  dsimp only
  split
  · exact h
  · split
    · exact .ite (.countRefused h) h
    · split
      · rename_i e1
        exact .of_snd e1 (.io .memRead h)
      · rename_i e1
        exact .charge (.fields (.fresh (.of_snd e1 (.io .memRead h))))

theorem Canon.legendDestroy {x : Frame} {n : Nat} {x1 : Session} {s : State} (h : Canon s) : (legendDestroy x n x1 s).AllCanon :=
  Canon.check h (.uncharge h)

theorem Canon.legendCmd {x : Frame} {n : Nat} {x1 : Session} {s : State} (h : Canon s) : (legendCmd x n x1 s).AllCanon := by
  unfold Machine.legendCmd
  split
  · exact Canon.legendDestroy h
  · exact Canon.legendCreate h

/-! The rows. -/

theorem Canon.execLegendCreate {f : Frame} {s : State} (h : Canon s) : OutCanon (execLegendCreate f s) :=
  .ite h (.rcpRun (fun _ _ _ _ hs1 => Canon.legendCmd hs1) h)

theorem Canon.execLegendDestroy {f : Frame} {s : State} (h : Canon s) : OutCanon (execLegendDestroy f s) :=
  .ite (.rcpRun (fun _ _ _ _ hs1 => Canon.legendCmd hs1) h) h

/-! The latch (R191, R601). -/

theorem Canon.readOne {sid a : Nat} {s : State} (h : Canon s) : Canon (readOne sid a s).2 := by
  unfold Machine.readOne
  dsimp only
  split
  · exact .modSession h
  · split
    · exact h
    · split
      · exact .modSession h
      · exact h

theorem Canon.readMany {sid n n1 : Nat} {s : State} (h : Canon s) : Canon (readMany sid n n1 s).2 := by
  induction n generalizing n1 s with
  | zero => exact h
  | succ _ ih =>
    unfold Machine.readMany
    exact ih (.readOne h)

theorem Canon.readReg {x : Frame} {n : Nat} {x1 : Session} {s : State} (h : Canon s) : (readReg x n x1 s).AllCanon :=
  Canon.check h (.readMany h)

/-! WRITE_REG (R598 to R600). -/

theorem Canon.writeTo {s : State} {a v : Nat} (h : Canon s) : Canon (s.writeTo a v) := by
  have hm : State.writeTo = State.writeTo := rfl
  conv_rhs at hm => delta State.writeTo
  rw [hm]
  beta_reduce
  extract_lets smp setSmp
  split
  iterate 10 exact .fields h
  split
  · exact .modDetector h
  · exact h

theorem Canon.writeReg {x : Frame} {n : Nat} {x1 : Session} {s : State} (h : Canon s) : (writeReg x n x1 s).AllCanon :=
  Canon.check h (.writeTo h)

theorem Canon.regRow {mine : Nat → Bool} {f : Frame} {s : State} (h : Canon s) : Canon (regRow mine f s) :=
  .ite (.rcpRun (fun _ _ _ _ hs1 => Canon.writeReg hs1) h) h

/-! GET_PORT_STATUS (R606). -/

theorem Canon.portStatus {x : Frame} {n : Nat} {x1 : Session} {s : State} (h : Canon s) : (portStatus x n x1 s).AllCanon := Canon.check h h

/-! COUNTERS_READ (R533). -/

theorem Canon.countersRead {x : Frame} {n : Nat} {x1 : Session} {s : State} (h : Canon s) : (countersRead x n x1 s).AllCanon := by
  unfold Machine.countersRead
  refine Canon.check h ?_
  split
  · exact .ite (.countFault h) h
  · exact h

/-! The rows. -/

theorem Canon.execReadReg {f : Frame} {s : State} (h : Canon s) : OutCanon (execReadReg f s) :=
  .rcpRun (fun _ _ _ _ hs1 => Canon.readReg hs1) h

theorem Canon.execWriteReg {f : Frame} {s : State} (h : Canon s) : OutCanon (execWriteReg f s) := .regRow h

theorem Canon.execGazPowerWrite {f : Frame} {s : State} (h : Canon s) : OutCanon (execGazPowerWrite f s) := .regRow h

theorem Canon.execSmpCtlWrite {f : Frame} {s : State} (h : Canon s) : OutCanon (execSmpCtlWrite f s) := .regRow h

theorem Canon.execSmbAddrWrite {f : Frame} {s : State} (h : Canon s) : OutCanon (execSmbAddrWrite f s) := .regRow h

theorem Canon.execGpioOutWrite {f : Frame} {s : State} (h : Canon s) : OutCanon (execGpioOutWrite f s) := .regRow h

theorem Canon.execGetPortStatus {f : Frame} {s : State} (h : Canon s) : OutCanon (execGetPortStatus f s) :=
  .rcpRun (fun _ _ _ _ hs1 => Canon.portStatus hs1) h

theorem Canon.execContextCountersRead {f : Frame} {s : State} (h : Canon s) : OutCanon (execContextCountersRead f s) :=
  .rcpAction (fun _ _ _ _ hs1 => Canon.countersRead hs1) h

theorem Canon.execSnapshotRead {f : Frame} {s : State} (h : Canon s) : OutCanon (execSnapshotRead f s) :=
  .rcpAction (fun _ _ _ _ hs1 => Canon.countersRead hs1) h

/-! WAIT_GRAPH. -/

theorem Canon.putWaitGraph {s : State} {sid : Nat} {g : WaitGraph} (h : Canon s) : Canon (s.putWaitGraph sid g) := h

theorem Canon.waitGraph {x : Frame} {n : Nat} {x1 : Session} {s : State} (h : Canon s) : (waitGraph x n x1 s).AllCanon := by
  unfold Machine.waitGraph
  refine Canon.check h ?_
  split
  · exact h
  · split
    · exact .putWaitGraph h
    · exact h

theorem Canon.secondRead {sid : Nat} {s : State} (h : Canon s) : Canon (secondRead sid s) := by
  unfold Machine.secondRead
  split
  · exact .ite h (.finish (.fields (.putWaitGraph h)))
  · exact h

/-! The sampler (R535). -/

theorem Canon.sampleTake {p : Nat} {s : State} (h : Canon s) : Canon (sampleTake p s) := by
  unfold Machine.sampleTake
  dsimp only
  split
  · exact h
  · split
    · exact h
    · exact .fields (.modPod (.countFault (.io .memWrite h)))

/-! The rows. -/

theorem Canon.execSampleTake {pod : Fin 512} {s : State} (h : Canon s) : OutCanon (execSampleTake pod s) := .sampleTake h

theorem Canon.execWaitGraph {f : Frame} {s : State} (h : Canon s) : OutCanon (execWaitGraph f s) :=
  .rcpRun (fun _ _ _ _ hs1 => Canon.waitGraph hs1) h

theorem Canon.execWaitGraphSecondRead {sid : Nat} {s : State} (h : Canon s) : OutCanon (execWaitGraphSecondRead sid s) := .secondRead h

/-! FW_UPDATE, certificates and attestation (R486 to R499). -/

theorem Canon.fwWrite {x : Frame} {n : Nat} {x1 : Session} {s : State} (h : Canon s) : (fwWrite x n x1 s).AllCanon :=
  Canon.check h (.fields (.modFlash (.ite h (.modFlash h))))

theorem Canon.fwActivate {x : Frame} {n : Nat} {x1 : Session} {s : State} (h : Canon s) : (fwActivate x n x1 s).AllCanon := by
  unfold Machine.fwActivate
  dsimp only
  refine Canon.check h ?_
  split
  · exact .modFlash h
  · exact .fields (.modFlash h)

theorem Canon.fwCommit {x : Frame} {n : Nat} {x1 : Session} {s : State} (h : Canon s) : (fwCommit x n x1 s).AllCanon :=
  Canon.check h (.extend (.fields (.modFlash h)))

theorem Canon.fwAbort {x : Frame} {n : Nat} {x1 : Session} {s : State} (h : Canon s) : (fwAbort x n x1 s).AllCanon :=
  Canon.check h (.modFlash h)

theorem Canon.fwConfig {x : Frame} {n : Nat} {x1 : Session} {s : State} (h : Canon s) : (fwConfig x n x1 s).AllCanon :=
  Canon.check h (.extend (.writeSec h))

/-! Certificates (R490 to R492). -/

theorem Canon.getCerts {x : Frame} {n : Nat} {x1 : Session} {s : State} (h : Canon s) : (getCerts x n x1 s).AllCanon := by
  unfold Machine.getCerts
  refine Canon.check h ?_
  split
  · exact .draw h
  · exact h

theorem Canon.certRotate {x : Frame} {n : Nat} {x1 : Session} {s : State} (h : Canon s) : (certRotate x n x1 s).AllCanon :=
  Canon.check h (.extend (.modFlash h))

/-! Attestation (R498, R499). -/

theorem Canon.attest {x : Frame} {n : Nat} {x1 : Session} {s : State} (h : Canon s) : (attest x n x1 s).AllCanon :=
  Canon.check h (.signIdentity h)

/-! The rows. -/

theorem Canon.execFwUpdateWrite {f : Frame} {s : State} (h : Canon s) : OutCanon (execFwUpdateWrite f s) :=
  .rcpAction (fun _ _ _ _ hs1 => Canon.fwWrite hs1) h

theorem Canon.execFwUpdateActivate {f : Frame} {s : State} (h : Canon s) : OutCanon (execFwUpdateActivate f s) :=
  .rcpAction (fun _ _ _ _ hs1 => Canon.fwActivate hs1) h

theorem Canon.execFwUpdateCommit {f : Frame} {s : State} (h : Canon s) : OutCanon (execFwUpdateCommit f s) :=
  .rcpAction (fun _ _ _ _ hs1 => Canon.fwCommit hs1) h

theorem Canon.execFwUpdateAbort {f : Frame} {s : State} (h : Canon s) : OutCanon (execFwUpdateAbort f s) :=
  .rcpAction (fun _ _ _ _ hs1 => Canon.fwAbort hs1) h

theorem Canon.execFwUpdateConfig {f : Frame} {s : State} (h : Canon s) : OutCanon (execFwUpdateConfig f s) :=
  .rcpAction (fun _ _ _ _ hs1 => Canon.fwConfig hs1) h

theorem Canon.execGetCerts {f : Frame} {s : State} (h : Canon s) : OutCanon (execGetCerts f s) :=
  .rcpRun (fun _ _ _ _ hs1 => Canon.getCerts hs1) h

theorem Canon.execCertRotate {f : Frame} {s : State} (h : Canon s) : OutCanon (execCertRotate f s) :=
  .rcpRun (fun _ _ _ _ hs1 => Canon.certRotate hs1) h

theorem Canon.execAttest {f : Frame} {s : State} (h : Canon s) : OutCanon (execAttest f s) :=
  .rcpRun (fun _ _ _ _ hs1 => Canon.attest hs1) h

/-! Dispatch by opcode (R88). -/

theorem Canon.fwUpdate {x : Frame} {n : Nat} {x1 : Session} {s : State} (h : Canon s) : (fwUpdate x n x1 s).AllCanon := by
  unfold Machine.fwUpdate
  split
  · exact Canon.fwActivate h
  · exact Canon.fwCommit h
  · exact Canon.fwAbort h
  · exact Canon.fwConfig h
  · exact Canon.fwWrite h

theorem handlersA_canonical : ∀ e ∈ handlersA, Handler.Canonical e.2 := by
  unfold handlersA
  simp only [List.forall_mem_cons]
  exact ⟨fun _ _ _ _ => Canon.closeSession, fun _ _ _ _ => Canon.keepalive, fun _ _ _ _ => Canon.subscribe, fun _ _ _ _ => Canon.getEvents,
    fun _ _ _ _ => Canon.resumeCmd, fun _ _ _ _ => Canon.portStatus, fun _ _ _ _ => Canon.setPortConfig, fun _ _ _ _ => Canon.setNetConfig,
    fun _ _ _ _ => Canon.qpCreate, fun _ _ _ _ => Canon.qpModify, fun _ _ _ _ => Canon.qpDestroy, fun _ _ _ _ => Canon.mrRegister,
    fun _ _ _ _ => Canon.mrDeregister, fun _ _ _ _ => Canon.getConfig, fun _ _ _ _ => Canon.readReg, fun _ _ _ _ => Canon.writeReg,
    fun _ _ _ _ => Canon.getSpeed, fun _ _ _ _ => Canon.setSpeedTarget, fun _ _ _ _ => Canon.contextCreate, fun _ _ _ _ =>
      Canon.contextDestroy,
    fun _ _ _ _ => Canon.mapCmd, fun _ _ _ _ => Canon.unmapCmd, fun _ _ _ _ => Canon.retrainChannel, fun _ _ _ _ => Canon.flowCreate,
    fun _ _ _ _ => Canon.flowDestroy, fun _ _ _ _ => Canon.bindIngress, fun _ _ _ _ => Canon.graphSubmit, fun _ _ _ _ => Canon.flowStats,
    fun _ _ _ _ => Canon.imageLoad, fun _ _ _ _ => Canon.imageUnload, List.forall_mem_nil _⟩

theorem handlersB_canonical : ∀ e ∈ handlersB, Handler.Canonical e.2 := by
  unfold handlersB
  simp only [List.forall_mem_cons]
  exact ⟨fun _ _ _ _ => Canon.legendCmd, fun _ _ _ _ => Canon.embCreate, fun _ _ _ _ => Canon.embSwapCmd, fun _ _ _ _ => Canon.mapSet,
    fun _ _ _ _ => Canon.gazLoad, fun _ _ _ _ => Canon.gazService, fun _ _ _ _ => Canon.frameSession, fun _ _ _ _ => Canon.batchConfig,
    fun _ _ _ _ => Canon.fabricStatus, fun _ _ _ _ => Canon.fabricRediscover, fun _ _ _ _ => Canon.attest, fun _ _ _ _ => Canon.getCerts,
    fun _ _ _ _ => Canon.fwUpdate, fun _ _ _ _ => Canon.certRotate, fun _ _ _ _ => Canon.claim, fun _ _ _ _ => Canon.releaseRes,
    fun _ _ _ _ => Canon.serviceStatus, fun _ _ _ _ => Canon.podQuarantine, fun _ _ _ _ => Canon.inject, fun _ _ _ _ => Canon.freezeCmd,
    fun _ _ _ _ => Canon.thawCmd, fun _ _ _ _ => Canon.traverse, fun _ _ _ _ => Canon.waitGraph, fun _ _ _ _ => Canon.countersRead,
    fun _ _ _ _ => Canon.resetCmd, fun _ _ _ _ => Canon.getThermal, fun _ _ _ _ => Canon.bootLoad, List.forall_mem_nil _⟩

theorem Canon.rcpHandler {op n : Nat} {f : Frame} {x : Session} {s : State} (h : Canon s) : (rcpHandler op f n x s).AllCanon := by
  unfold Machine.rcpHandler
  cases e : (handlersA ++ handlersB).find? (fun e => e.1 == op) with
  | none => exact h
  | some p =>
    rcases List.mem_append.1 (List.mem_of_find?_eq_some e) with hp | hp
    · exact handlersA_canonical p hp _ _ _ _ h
    · exact handlersB_canonical p hp _ _ _ _ h

theorem Canon.rcpDispatch {op : Nat} {f : Frame} {s : State} (h : Canon s) : Canon (rcpDispatch op f s) :=
  .ite (.hello h) (.ite (.openAny h) (.rcpSession (fun _ _ _ _ hs1 => Canon.rcpHandler hs1) h))

/-! Reception (R60, R64). -/

theorem Canon.datagram {d : Datagram} {s : State} (h : Canon s) : Canon (datagram d s) :=
  .ite (.modHp h) (.ite (.modHp h) (.ite (.modHp h) (.ite (.modHp h) (.rcpGate h (fun _ ha => .rcpDispatch ha)))))

theorem Canon.frameReceive {d : Datagram} {s : State} (h : Canon s) : Canon (frameReceive d s) := by
  unfold Machine.frameReceive
  dsimp only
  split
  · exact h
  · split
    · refine .datagram ?_
      split
      · exact .unbuffer h
      · exact h
    · split
      · exact .unbuffer h
      · exact h

theorem Canon.takeHeld {h1 : HeldFrame} {s : State} (h : Canon s) : Canon (takeHeld h1 s) := by
  unfold Machine.takeHeld
  split
  · exact .frameReceive h
  · exact .rcpGate h (fun _ ha => .rcpDispatch ha)

/-! The end of commands that take time (R78). -/

theorem Canon.setWait {s : State} {sid rid : Nat} {w : Wait} (h : Canon s) : Canon (s.setWait sid rid w) := .fields (.modSession h)

theorem Canon.runQueued {g : Handler} {f : Frame} {x : Session} {sid rid : Nat} {s : State} (hg : g.Canonical) (h : Canon s) :
    Canon (runQueued g f x sid rid s) := by
  have hr := hg f sid x s h
  unfold Machine.runQueued
  split <;> rename_i e <;> rw [e] at hr
  · exact .finish hr
  · exact hr.2 _ (.finish hr.1)
  · exact .finish hr
  · exact .finish hr
  · exact .setWait hr
  · exact hr.2 _ (.setWait hr.1)

theorem Canon.completionOf {x : Session} {sid : Nat} {c : InFlight} {s : State} (h : Canon s) : Canon (completionOf x sid c s) := by
  unfold Machine.completionOf
  split
  · exact .qpSettle h
  · exact h
  · exact .imageSettle h
  · exact h
  · exact h
  · exact .retrainSettle h
  · exact .ite h (.finish (.unmapRange h))
  · split
    · exact h
    · refine .runQueued (fun _ _ _ _ hs1 => ?_) h
      split
      · exact Canon.mapNow hs1
      · exact Canon.unmapNow hs1
  · exact .ite h (.finish (.contextEnd h))
  · exact .gazSettleAny h
  · exact .settleFrames h
  · exact h
  · exact h
  · exact .podSettle h
  · exact h
  · exact .recalEnd h
  · exact h
  · exact h
  · exact .selftestEnd h
  · exact .engineResetEnd h
  · exact .settleFrames h
  · exact .ite h (.runQueued (fun _ _ _ _ hs1 => Canon.rcpHandler hs1) h)
  · exact .unbindSettle h

theorem Canon.commandCompletion {sid rid : Nat} {s : State} (h : Canon s) : Canon (commandCompletion sid rid s) := by
  unfold Machine.commandCompletion
  split
  · exact h
  · split
    · exact h
    · exact .completionOf h

/-! The end of a handover (R500 to R502). -/

theorem Canon.pauseEnd {s : State} (h : Canon s) : Canon (pauseEnd s) :=
  .foldl (fun _ _ ha => .takeHeld ha) (.serveStalls (.settleLate (.flushOwed (.flushEvents h))))

theorem Canon.handoverReady {s : State} (h : Canon s) : Canon (handoverReady s) := by
  unfold Machine.handoverReady
  split
  · exact .ite h (.pauseEnd (.ite (.trvStarts (.finishAll (.extend h))) (.finishAll (.extend h))))
  · exact h

theorem Canon.handoverTimeout {s : State} (h : Canon s) : Canon (handoverTimeout s) := by
  unfold Machine.handoverTimeout
  split
  · exact .ite h (.pauseEnd (.failAll (.dropHandover h)))
  · exact h

/-! The rows. -/

theorem Canon.execRcpFrameReceive {d : Datagram} {s : State} (h : Canon s) : OutCanon (execRcpFrameReceive d s) := .frameReceive h

theorem Canon.execCommandCompletion {sid rid : Nat} {s : State} (h : Canon s) : OutCanon (execCommandCompletion sid rid s) :=
  .commandCompletion h

theorem Canon.execHandoverReady {s : State} (h : Canon s) : OutCanon (execHandoverReady s) := .handoverReady h

theorem Canon.execHandoverTimeout {s : State} (h : Canon s) : OutCanon (execHandoverTimeout s) := .handoverTimeout h

/-! MCTP. -/

theorem Canon.mctpReceive {b : List Byte} {s : State} (h : Canon s) : Canon (mctpReceive b s) := .ite (.frameReceive h) h

theorem Canon.mctpAnswer {b data : List Byte} {s : State} (h : Canon s) : Canon (mctpAnswer b data s) := .send h

theorem Canon.mctpControl {code : Nat} {go : List Byte → State → List Byte × State} {b : List Byte} {s : State}
    (hgo : ∀ (a : List Byte) (b : State), Canon b → Canon (go a b).2) (h : Canon s) : Canon (mctpControl code go b s) :=
  .ite (.mctpAnswer (hgo _ _ h)) h

theorem Canon.setEid {d : List Byte} {s : State} (h : Canon s) : Canon (setEid d s).2 := by
  unfold Machine.setEid
  dsimp only
  split
  · exact h
  · split <;> exact h

theorem Canon.getEid {l : List Byte} {s : State} (h : Canon s) : Canon (getEid l s).2 := h

theorem Canon.getUuid {l : List Byte} {s : State} (h : Canon s) : Canon (getUuid l s).2 := h

theorem Canon.getVersion {d : List Byte} {s : State} (h : Canon s) : Canon (getVersion d s).2 := by
  unfold Machine.getVersion
  dsimp only
  split <;> exact h

theorem Canon.getTypes {l : List Byte} {s : State} (h : Canon s) : Canon (getTypes l s).2 := h

theorem Canon.getVendor {d : List Byte} {s : State} (h : Canon s) : Canon (getVendor d s).2 := by
  unfold Machine.getVendor
  split <;> exact h

theorem Canon.alertRead {s : State} (h : Canon s) : Canon (alertRead s) := .ite (.send h) h

/-! JTAG (R592). -/

theorem Canon.jtagLoad {i : JtagInstr} {s : State} (h : Canon s) : Canon (jtagLoad i s) := by
  unfold Machine.jtagLoad
  dsimp only
  split
  · exact .send h
  · exact .send (.fields (.draw (.draw h)))
  · exact .send (.fields (.draw (.draw h)))
  · exact .send h
  · exact .send h
  · exact .send h

/-! The rows. -/

theorem Canon.execMctpMessageReceive {bytes : List Byte} {s : State} (h : Canon s) : OutCanon (execMctpMessageReceive bytes s) :=
  .mctpReceive h

theorem Canon.execSetEndpointId {bytes : List Byte} {s : State} (h : Canon s) : OutCanon (execSetEndpointId bytes s) :=
  .mctpControl (fun _ _ hb => .setEid hb) h

theorem Canon.execGetEndpointId {bytes : List Byte} {s : State} (h : Canon s) : OutCanon (execGetEndpointId bytes s) :=
  .mctpControl (fun _ _ hb => .getEid hb) h

theorem Canon.execGetEndpointUuid {bytes : List Byte} {s : State} (h : Canon s) : OutCanon (execGetEndpointUuid bytes s) :=
  .mctpControl (fun _ _ hb => .getUuid hb) h

theorem Canon.execGetMctpVersionSupport {bytes : List Byte} {s : State} (h : Canon s) : OutCanon (execGetMctpVersionSupport bytes s) :=
  .mctpControl (fun _ _ hb => .getVersion hb) h

theorem Canon.execGetMessageTypeSupport {bytes : List Byte} {s : State} (h : Canon s) : OutCanon (execGetMessageTypeSupport bytes s) :=
  .mctpControl (fun _ _ hb => .getTypes hb) h

theorem Canon.execGetVendorDefinedMessageSupport {bytes : List Byte} {s : State} (h : Canon s) :
    OutCanon (execGetVendorDefinedMessageSupport bytes s) := .mctpControl (fun _ _ hb => .getVendor hb) h

theorem Canon.execAlertResponseRead {s : State} (h : Canon s) : OutCanon (execAlertResponseRead s) := .alertRead h

theorem Canon.execJtagBypass {s : State} (h : Canon s) : OutCanon (execJtagBypass s) := .jtagLoad h

theorem Canon.execJtagIdcode {s : State} (h : Canon s) : OutCanon (execJtagIdcode s) := .jtagLoad h

theorem Canon.execJtagSamplePreload {s : State} (h : Canon s) : OutCanon (execJtagSamplePreload s) := .jtagLoad h

theorem Canon.execJtagExtest {s : State} (h : Canon s) : OutCanon (execJtagExtest s) := .jtagLoad h

theorem Canon.execJtagClamp {s : State} (h : Canon s) : OutCanon (execJtagClamp s) := .jtagLoad h

theorem Canon.execJtagHighz {s : State} (h : Canon s) : OutCanon (execJtagHighz s) := .jtagLoad h

/-! exec: the effect of each command on everything but the queue, one arm per constructor of Instr. -/

theorem Canon.exec {i : Instr} {s : State} (h : Canon s) : OutCanon (exec i s) := by
  unfold Machine.exec
  split
  · exact Canon.execSpeedMonWindow h
  · exact Canon.execIslandLockLoss h
  · exact Canon.execIslandRelease h
  · exact Canon.execAvsLoopIteration h
  · exact Canon.execSetSpeedTarget h
  · exact Canon.execGetSpeed h
  · exact Canon.execGetConfig h
  · exact Canon.execHandshakeStallWatchdog h
  · exact Canon.execHostLinkTraining h
  · exact Canon.execHostLinkDown h
  · exact Canon.execHostFrameReceive h
  · exact Canon.execPfcPauseReceive h
  · exact Canon.execIngressQueueResume h
  · exact Canon.execRoceInboundRequest h
  · exact Canon.execRoceCnpReceive h
  · exact Canon.execSqPoll h
  · exact Canon.execRoceResponseReceive h
  · exact Canon.execRoceAckTimeout h
  · exact Canon.execQpCompletionEnter h
  · exact Canon.execSetPortConfig h
  · exact Canon.execSetNetConfig h
  · exact Canon.execQpCreate h
  · exact Canon.execQpModify h
  · exact Canon.execQpDestroy h
  · exact Canon.execMrRegister h
  · exact Canon.execMrDeregister h
  · exact Canon.execRcpFrameReceive h
  · exact Canon.execCommandCompletion h
  · exact Canon.execHello h
  · exact Canon.execOpenSession h
  · exact Canon.execOpenSessionMemoryExpiry h
  · exact Canon.execCloseSession h
  · exact Canon.execKeepalive h
  · exact Canon.execSessionIdleTimeout h
  · exact Canon.execSubscribe h
  · exact Canon.execGetEvents h
  · exact Canon.execResume h
  · exact Canon.execSalu h
  · exact Canon.execAddi h
  · exact Canon.execShi h
  · exact Canon.execLih h
  · exact Canon.execSfp h
  · exact Canon.execBr h
  · exact Canon.execJal h
  · exact Canon.execJalr h
  · exact Canon.execVint h
  · exact Canon.execVflt h
  · exact Canon.execVdot h
  · exact Canon.execVcvt h
  · exact Canon.execVperm h
  · exact Canon.execVcmp h
  · exact Canon.execVred h
  · exact Canon.execMask h
  · exact Canon.execLd h
  · exact Canon.execSt h
  · exact Canon.execVld h
  · exact Canon.execVst h
  · exact Canon.execAtom h
  · exact Canon.execFence h
  · exact Canon.execLoadComplete h
  · exact Canon.execVhash h
  · exact Canon.execHashs h
  · exact Canon.execVsort h
  · exact Canon.execVmerge h
  · exact Canon.execVtopk h
  · exact Canon.execAcca h
  · exact Canon.execAccAllocGrant h
  · exact Canon.execAccf h
  · exact Canon.execVaccadd h
  · exact Canon.execVaccmax h
  · exact Canon.execVaccmin h
  · exact Canon.execVaccrd h
  · exact Canon.execVaccwr h
  · exact Canon.execVaccz h
  · exact Canon.execAsk h
  · exact Canon.execAsknb h
  · exact Canon.execAskOffer h
  · exact Canon.execDone h
  · exact Canon.execDoneRetire h
  · exact Canon.execPost h
  · exact Canon.execPostResume h
  · exact Canon.execPostnb h
  · exact Canon.execGsrchT h
  · exact Canon.execGsrchG h
  · exact Canon.execGbkt h
  · exact Canon.execGupd h
  · exact Canon.execGupdEnd h
  · exact Canon.execJins h
  · exact Canon.execJprobe h
  · exact Canon.execJnext h
  · exact Canon.execEmbg h
  · exact Canon.execEmbu h
  · exact Canon.execProj h
  · exact Canon.execAccst h
  · exact Canon.execTableIntakeJob h
  · exact Canon.execColumnJob h
  · exact Canon.execJoinJob h
  · exact Canon.execCodecJob h
  · exact Canon.execFabricOperation h
  · exact Canon.execUnitResume h
  · exact Canon.execWaitu h
  · exact Canon.execWaitany h
  · exact Canon.execImageLoad h
  · exact Canon.execImageUnload h
  · exact Canon.execFlowCreate h
  · exact Canon.execFlowDestroy h
  · exact Canon.execFlowBindIngress h
  · exact Canon.execGraphSubmit h
  · exact Canon.execGraphCancel h
  · exact Canon.execFlowStats h
  · exact Canon.execStarvePromotion h
  · exact Canon.execCompletionReleaseResume h
  · exact Canon.execComplRingPoll h
  · exact Canon.execDescriptorParityError h
  · exact Canon.execPodBusyWindow h
  · exact Canon.execContextCreate h
  · exact Canon.execContextDestroy h
  · exact Canon.execMap h
  · exact Canon.execUnmap h
  · exact Canon.execRetrainChannel h
  · exact Canon.execChannelDrain h
  · exact Canon.execChannelRetrainRestore h
  · exact Canon.execGranuleCopyDone h
  · exact Canon.execChannelTrainingDone h
  · exact Canon.execPerBankRefresh h
  · exact Canon.execZqCalibration h
  · exact Canon.execDqsTracking h
  · exact Canon.execLegendCreate h
  · exact Canon.execLegendDestroy h
  · exact Canon.execTableIntakeStart h
  · exact Canon.execIntakeBatchOutput h
  · exact Canon.execIntakeOutputResume h
  · exact Canon.execTableIntakeEnd h
  · exact Canon.execColumnJobStart h
  · exact Canon.execColumnJobEnd h
  · exact Canon.execJoinJobStart h
  · exact Canon.execJoinJobEnd h
  · exact Canon.execEmbTableCreate h
  · exact Canon.execPartitionMapSet h
  · exact Canon.execEmbTablePrepare h
  · exact Canon.execEmbTableCommit h
  · exact Canon.execEmbTableCancel h
  · exact Canon.execEmbTableDestroy h
  · exact Canon.execEmbTableQuery h
  · exact Canon.execEmbRowReadDone h
  · exact Canon.execEmbStepClose h
  · exact Canon.execEmbDeltaReceive h
  · exact Canon.execEmbTokenReceive h
  · exact Canon.execEmbNoticeReceive h
  · exact Canon.execEmbLostReceive h
  · exact Canon.execEmbHomeStepClose h
  · exact Canon.execCoalesceBufferParity h
  · exact Canon.execGazCreate h
  · exact Canon.execGazWrite h
  · exact Canon.execGazSegtags h
  · exact Canon.execGazDestroy h
  · exact Canon.execGazScrubCompare h
  · exact Canon.execGazThrottleWindow h
  · exact Canon.execGazPowerWindow h
  · exact Canon.execGazPowerWrite h
  · exact Canon.execGazReload h
  · exact Canon.execGazEvacuate h
  · exact Canon.execGazRestore h
  · exact Canon.execGazScrubPeriod h
  · exact Canon.execProjOpStart h
  · exact Canon.execProjSlabDone h
  · exact Canon.execCodecQueuePlace h
  · exact Canon.execCodecLaneStart h
  · exact Canon.execCodecJobEnd h
  · exact Canon.execFrameSessionOpen h
  · exact Canon.execFrameSessionClose h
  · exact Canon.execFrameRingPoll h
  · exact Canon.execFrameStoreGrant h
  · exact Canon.execFrameDecodeTurn h
  · exact Canon.execSampleEnd h
  · exact Canon.execSampleItemRelease h
  · exact Canon.execBatchEmit h
  · exact Canon.execManifestRingPoll h
  · exact Canon.execBatchAttach h
  · exact Canon.execBatchFlush h
  · exact Canon.execBatchDetach h
  · exact Canon.execFabricLinkTraining h
  · exact Canon.execInitSend h
  · exact Canon.execInitReceive h
  · exact Canon.execInitRetry h
  · exact Canon.execFabricDataReceive h
  · exact Canon.execNakReceive h
  · exact Canon.execIdleSend h
  · exact Canon.execLinkSilenceTimeout h
  · exact Canon.execFabricLinkFail h
  · exact Canon.execDiscoverySettleTimer h
  · exact Canon.execDiscoveryStartReceive h
  · exact Canon.execDiscoveryReportTimer h
  · exact Canon.execDiscoveryReportReceive h
  · exact Canon.execDiscoveryTableReceive h
  · exact Canon.execDiscoveryTableAckReceive h
  · exact Canon.execDiscoveryCommitReceive h
  · exact Canon.execRemoteWriteReceive h
  · exact Canon.execReadReqReceive h
  · exact Canon.execAtomicReceive h
  · exact Canon.execSendReceive h
  · exact Canon.execRemoteResponseReceive h
  · exact Canon.execRemoteRequestTimeout h
  · exact Canon.execFabricStatus h
  · exact Canon.execFabricRediscover h
  · exact Canon.execBootRomStart h
  · exact Canon.execSurveyorRelockPath h
  · exact Canon.execFirmwareStart h
  · exact Canon.execBootLoadWrite h
  · exact Canon.execBootLoadRun h
  · exact Canon.execBootLoadAbort h
  · exact Canon.execFwUpdateWrite h
  · exact Canon.execFwUpdateActivate h
  · exact Canon.execHandoverReady h
  · exact Canon.execHandoverTimeout h
  · exact Canon.execFwUpdateCommit h
  · exact Canon.execFwUpdateAbort h
  · exact Canon.execFwUpdateConfig h
  · exact Canon.execGetCerts h
  · exact Canon.execCertRotate h
  · exact Canon.execAttest h
  · exact Canon.execPodQuarantine h
  · exact Canon.execQuarantineAbandonTimer h
  · exact Canon.execPodSelftest h
  · exact Canon.execPodReinstate h
  · exact Canon.execServiceQuery h
  · exact Canon.execEngineReset h
  · exact Canon.execPortRelink h
  · exact Canon.execRelinkTimeout h
  · exact Canon.execAvsRecal h
  · exact Canon.execAvsRecalTimer h
  · exact Canon.execClaim h
  · exact Canon.execRelease h
  · exact Canon.execInjectArm h
  · exact Canon.execInjectDisarm h
  · exact Canon.execContextCountersRead h
  · exact Canon.execSnapshotRead h
  · exact Canon.execSmpCtlWrite h
  · exact Canon.execSampleTake h
  · exact Canon.execTraverseStart h
  · exact Canon.execTraverseStop h
  · exact Canon.execTraverseStatus h
  · exact Canon.execTraverseRead h
  · exact Canon.execTraverseRecord h
  · exact Canon.execTraverseTrigger h
  · exact Canon.execTriggerPulseEnd h
  · exact Canon.execWaitGraph h
  · exact Canon.execWaitGraphSecondRead h
  · exact Canon.execFreezeNow h
  · exact Canon.execFreezeArm h
  · exact Canon.execFreezeDisarm h
  · exact Canon.execFreezeMarker h
  · exact Canon.execFreezeCutTimeout h
  · exact Canon.execThaw h
  · exact Canon.execFreezeTimeoutThaw h
  · exact Canon.execRailBelowThreshold h
  · exact Canon.execPorRelease h
  · exact Canon.execResetNCoreThreshold h
  · exact Canon.execResetNSystemThreshold h
  · exact Canon.execResetNRelease h
  · exact Canon.execResetCore h
  · exact Canon.execResetSystem h
  · exact Canon.execResetDriveStart h
  · exact Canon.execResetDriveEnd h
  · exact Canon.execRefclkStop h
  · exact Canon.execRefclkReturn h
  · exact Canon.execRailMonitorWindow h
  · exact Canon.execThermalSensorWindow h
  · exact Canon.execGetThermal h
  · exact Canon.execTachWindow h
  · exact Canon.execMctpMessageReceive h
  · exact Canon.execSetEndpointId h
  · exact Canon.execGetEndpointId h
  · exact Canon.execGetEndpointUuid h
  · exact Canon.execGetMctpVersionSupport h
  · exact Canon.execGetMessageTypeSupport h
  · exact Canon.execGetVendorDefinedMessageSupport h
  · exact Canon.execAlertResponseRead h
  · exact Canon.execSmbAddrWrite h
  · exact Canon.execJtagBypass h
  · exact Canon.execJtagIdcode h
  · exact Canon.execJtagSamplePreload h
  · exact Canon.execJtagExtest h
  · exact Canon.execJtagClamp h
  · exact Canon.execJtagHighz h
  · exact Canon.execReadReg h
  · exact Canon.execWriteReg h
  · exact Canon.execGpioOutWrite h
  · exact Canon.execGetPortStatus h
  · exact Canon.execRailGood h
  · exact Canon.execPllLocked h
  · exact Canon.execStoreComplete h
  · exact Canon.execNmuRowWriteDone h
  · exact Canon.execReservationRebuilt h

/-! One step of the block: the command at the front of the queue, or a tick of 10 ns where none waits. -/

theorem Canon.step {s : State} (h : Canon s) : OutCanon (step s) := by
  unfold Machine.step
  split
  · exact .tick h
  · exact Canon.exec h

/-- Settles O54: by the rules above, through every command and every row. -/
theorem memoryStaysCanonical : Obligations.MemoryStaysCanonical := by
  unfold Obligations.MemoryStaysCanonical
  intro s s' h e
  have hs := Canon.step (s := s) h
  rw [e] at hs
  exact hs

end Sys2Proof.Machine

namespace Sys2Proof.Machine
open Sys2Proof

/-!
DEFINITION. What the work that firmware does once it is ready leaves as it was (R558, R566): its events and stalls served, frames on their way,
discovery started, commands and sessions ended.
-/

/-- A state that differs from a base in nothing of the reset controller, the clocks and firmware (a flash update begun or not apart), has
no session that the base has not, and keeps every channel of the base that is in service. -/
def Steady (base s : State) : Prop :=
  s.ctl = base.ctl ∧ s.clk = base.clk ∧ { s.fw with writing := false } = { base.fw with writing := false } ∧
    (∀ e ∈ s.rcp.sessions, e.1 ∈ base.rcp.sessions.keys) ∧ ∀ ch, (base.channel ch).state = .active → (s.channel ch).state = .active

/-- An operation on memory after which a state is steady as before, whether it succeeds or fails. -/
def Io.Steadies {α : Type} (m : Io α) (base : State) : Prop := ∀ s, Steady base s → Steady base (m.exec s).2

theorem Steady.refl (s : State) : Steady s s := ⟨rfl, rfl, rfl, fun _ he => List.mem_map_of_mem he, fun _ h => h⟩

section
variable {base : State} {α β : Type} {s u : State}
  {pending : List Instr} {host : HostPort} {roce : Roce} {opens : List OpenMem} {held : List HeldFrame}
  {owed : List (Path × Nat × Nat × RcpOut)} {orphans : List Orphan} {nextStart : Nat} {svc : Svc} {pods : Pods} {disp : Disp}
  {units : Units} {gaz : Gaz} {emb : Emb} {fab : Fab} {frames : Frames} {dbg : Dbg} {pins : Pins} {free : Nat} {sent : List Sent}
  {bytes : Tbl Byte} {contexts : Tbl Ctx} {density : Nat} {memGib : Nat} {reserved : List Extent} {checks : Tbl (List Nat)}
  {badBlocks : Tbl Bool} {badWords : List Nat} {lost : Tbl Nat} {retrains : Tbl Retrain} {moves : Nat} {watch : List Watch}

/-- A change of anything else. -/
theorem Steady.fields (h : Steady base s) :
    Steady base ⟨pending, s.ctl, s.clk, s.fw, host, roce, ⟨s.rcp.sessions, opens, held, owed, orphans, nextStart⟩, svc,
      ⟨bytes, contexts, s.mem.channels, density, memGib, reserved, checks, badBlocks, badWords, lost, retrains, moves, watch⟩,
      pods, disp, units, gaz, emb, fab, frames, dbg, pins, free, sent⟩ := h

theorem Steady.of_fst {x : State × α} {a : α} (e : x = (u, a)) (h : Steady base x.1) : Steady base u := by subst e; exact h
theorem Steady.of_snd {x : α × State} {a : α} (e : x = (a, u)) (h : Steady base x.2) : Steady base u := by subst e; exact h

theorem Steady.foldl {γ : Type} {g : State → γ → State} {l : List γ} (hg : ∀ a x, Steady base a → Steady base (g a x)) (h : Steady base s) :
    Steady base (l.foldl g s) :=
  foldl_inv hg h

theorem Steady.getD {o : Option State} (ho : ∀ u, o = some u → Steady base u) (h : Steady base s) : Steady base (o.getD s) := by
  cases o with
  | none => exact h
  | some u => exact ho u rfl

theorem Steady.ite {c : Prop} [Decidable c] (h : Steady base s) (k : Steady base u) : Steady base (if c then s else u) := by
  split
  · exact h
  · exact k

theorem Steady.io {m : Io α} (hm : m.Steadies base) (h : Steady base s) : Steady base (m.exec s).2 := hm s h

theorem Io.Steadies.pure {a : α} : (pure a : Io α).Steadies base := fun _ h => h

theorem Io.Steadies.bind {m : Io α} {k : α → Io β} (hm : m.Steadies base) (hk : ∀ a, (k a).Steadies base) : (m >>= k).Steadies base := by
  intro s h
  have hu := hm s h
  rw [Io.exec_bind]
  rcases e : m.exec s with ⟨q, u⟩
  rw [e] at hu
  cases q with
  | error _ => exact hu
  | ok a => exact hk a u hu
end

end Sys2Proof.Machine

namespace Sys2Proof.Machine
open Sys2Proof

/-! CLAIMS. One rule per function of that work, in the order of the model's text: after it a state is steady as before. -/

section
variable {base : State}

/-! Initial values of entries that a table does not list. -/

theorem Steady.setThread {s : State} {t : Nat} {x : Thread} (h : Steady base s) : Steady base (s.setThread t x) := h

theorem Steady.modThread {s : State} {t : Nat} {f : Thread → Thread} (h : Steady base s) : Steady base (s.modThread t f) := .setThread h

theorem Steady.modPod {s : State} {p : Nat} {f : Pod → Pod} (h : Steady base s) : Steady base (s.modPod p f) := h

theorem State.state_modChannel {s : State} {c ch : Nat} {f : Channel → Channel} {st : ChState} (hst : st ≠ .absent)
    (hf : c = ch → (f (s.channel c)).state = st) (h : (s.channel ch).state = st) : ((s.modChannel c f).channel ch).state = st := by
  show ((s.mem.channels.upd Channel.init c (f (s.channel c))).at Channel.init ch).state = st
  by_cases hc : ch = c
  · rw [hc, Tbl.at_upd_self]
    exact hf hc.symm
  · cases e : s.mem.channels.find ch with
    | none =>
      unfold State.channel Tbl.at at h
      rw [e] at h
      exact absurd h.symm hst
    | some x =>
      unfold State.channel Tbl.at at h
      rw [e] at h
      unfold Tbl.at
      rw [Tbl.find_upd_of_found _ _ hc e]
      exact h

theorem Steady.modChannel {s : State} {c : Nat} {f : Channel → Channel} (hf : ∀ x, (f x).state = x.state) (h : Steady base s) :
    Steady base (s.modChannel c f) := by
  obtain ⟨hctl, hclk, hfw, hkeys, hch⟩ := h
  refine ⟨hctl, hclk, hfw, hkeys, fun ch hc => State.state_modChannel (by decide) (fun e => ?_) (hch ch hc)⟩
  rw [hf, e]
  exact hch ch hc

theorem Steady.modCtx {s : State} {c : Nat} {f : Ctx → Ctx} (h : Steady base s) : Steady base (s.modCtx c f) := by
  unfold State.modCtx
  split <;> exact h

theorem Steady.countFault {s : State} {c : Nat} {f : CtxFaults → CtxFaults} (h : Steady base s) : Steady base (s.countFault c f) := .modCtx h

theorem Steady.countRefused {s : State} {c status : Nat} (h : Steady base s) : Steady base (s.countRefused c status) := .countFault h

/-! Free values and what is sent. -/

theorem Steady.draw {s : State} (h : Steady base s) : Steady base s.draw.2 := h

theorem Steady.drawBytes {s : State} {n : Nat} (h : Steady base s) : Steady base (s.drawBytes n).2 := h

theorem Steady.fresh {s : State} {taken : Nat → Bool} {m n : Nat} (h : Steady base s) : Steady base (s.fresh taken m n).2 := .draw h

theorem Steady.send {s : State} {x : Sent} (h : Steady base s) : Steady base (s.send x) := h

/-! What the Host Port sends (R41, R44). Addresses are 128-bit numbers, an IPv4 address in its IPv4-mapped form. -/

theorem Steady.countTx {s : State} {n : Nat} (h : Steady base s) : Steady base (s.countTx n) := h

theorem Steady.hostSend {s : State} {prio size : Nat} {x : Sent} (h : Steady base s) : Steady base (s.hostSend prio size x) :=
  .ite h (.send (.countTx h))

theorem Steady.sendRcp {s : State} {p : Path} {ip port : Nat} {o : RcpOut} (h : Steady base s) : Steady base (s.sendRcp p ip port o) := by
  unfold State.sendRcp
  split
  · split
    · exact .hostSend h
    · exact .send h
  · exact h

/-! Sessions. -/

theorem Steady.modSession {s : State} {sid : Nat} {f : Session → Session} (h : Steady base s) : Steady base (s.modSession sid f) := by
  unfold State.modSession
  split
  · exact h
  · rename_i x e
    obtain ⟨hctl, hclk, hfw, hkeys, hch⟩ := h
    refine ⟨hctl, hclk, hfw, fun y hy => ?_, hch⟩
    rcases Tbl.mem_put hy with rfl | hy
    · exact hkeys (sid, x) (Tbl.find_mem e)
    · exact hkeys y hy

theorem Steady.complete {s : State} {sid rid op : Nat} {path : Path} {ip port status : Nat} {payload : List Byte} (h : Steady base s) :
    Steady base (s.complete sid rid op path ip port status payload) := by
  unfold State.complete
  split
  · exact h
  · exact .ite (.fields (.modSession h)) (.sendRcp (.modSession h))

theorem Steady.finish {s : State} {sid rid status : Nat} {payload : List Byte} (h : Steady base s) :
    Steady base (s.finish sid rid status payload) := by
  unfold State.finish
  split
  · exact .ite h h
  · split
    · exact h
    · split
      · exact h
      · exact .complete (.modSession h)

theorem Steady.finishAll {s : State} {w : Wait} {status : Nat} {payload : List Byte} (h : Steady base s) :
    Steady base (s.finishAll w status payload) :=
  .foldl (fun _ _ ha => .finish ha) h

/-! Events (R86, R87). -/

theorem Steady.eventTo {s : State} {sid cls code : Nat} {data : List Byte} (h : Steady base s) :
    Steady base (s.eventTo sid cls code data) := by
  unfold State.eventTo
  split
  · exact h
  · exact .ite (.ite (.sendRcp (.modSession (.ite h h))) (.modSession (.ite h h))) h

theorem Steady.event {s : State} {p : Session → Bool} {cls code : Nat} {data : List Byte} (h : Steady base s) :
    Steady base (s.event p cls code data) :=
  .foldl (fun _ _ ha => .eventTo ha) h

theorem Steady.flushEvents {s : State} (h : Steady base s) : Steady base s.flushEvents :=
  .foldl (fun _ _ ha => .modSession (.foldl (fun _ _ ha1 => .sendRcp ha1) ha)) h

/-! Detectors (R524 to R528). -/

theorem Steady.modDetector {s : State} {id : Nat} {f : Detector → Detector} (h : Steady base s) : Steady base (s.modDetector id f) := h

theorem Steady.fire {s : State} {kind inst detail : Nat} {inj : Bool} (h : Steady base s) : Steady base (s.fire kind inst detail inj) :=
  .ite (.event (.modDetector (.ite h h))) (.modDetector (.ite h h))

theorem Steady.disarm {s : State} {kind inst : Nat} (h : Steady base s) : Steady base (s.disarm kind inst) := .modDetector h

theorem Steady.fireInjected {s : State} {kind inst detail : Nat} (h : Steady base s) :
    Steady base (s.fireInjected kind inst detail) := .fire (.disarm h)

/-! Errors in memory (R20, R215 to R218, R227). -/

theorem Steady.countAccess {s : State} {ch : Nat} {full : Bool} (h : Steady base s) : Steady base (s.countAccess ch full) :=
  .modChannel (fun _ => rfl) (.draw h)

theorem Steady.linkMeet {s : State} {ch : Nat} (h : Steady base s) : Steady base (linkMeet s ch).1 := by
  unfold Machine.linkMeet
  split
  · exact h
  · exact .fireInjected (.modChannel (fun _ => by split <;> rfl) h)

theorem Steady.fireAs {s : State} {inj : Bool} {kind inst detail : Nat} (h : Steady base s) : Steady base (s.fireAs inj kind inst detail) :=
  .ite (.fireInjected h) (.fire h)

theorem Steady.eccRead {s : State} {ch blk : Nat} (h : Steady base s) : Steady base (eccRead s ch blk).1 := by
  unfold Machine.eccRead
  split
  · exact h
  · exact .fireAs (.fields (.modChannel (fun _ => rfl) h))
  · exact .fireAs (.fields (.modChannel (fun _ => rfl) h))

theorem Steady.lpddrBlock {s : State} {pa : Nat} {ecc reads full : Bool} (h : Steady base s) :
    Steady base (lpddrBlock s pa ecc reads full).1 := by
  unfold Machine.lpddrBlock
  dsimp only
  split
  · exact h
  · split
    · exact .linkMeet (.countAccess h)
    · split
      · exact .linkMeet (.countAccess h)
      · split
        · exact .fields (.linkMeet (.countAccess h))
        · split
          · exact .linkMeet (.countAccess h)
          · exact .eccRead (.linkMeet (.countAccess h))

theorem Steady.storeWords {s : State} {pa len : Nat} (h : Steady base s) : Steady base (storeWords s pa len).1 := by
  unfold Machine.storeWords
  dsimp only
  split
  · split
    · exact .fireInjected h
    · split
      · exact .fire h
      · exact h
  · split
    · exact .fireInjected h
    · split
      · exact .fire h
      · exact h

theorem Steady.pieceAccess {s : State} {pa len : Nat} {ecc write reads : Bool} (h : Steady base s) :
    Steady base (pieceAccess s pa len ecc write reads).1 := by
  unfold Machine.pieceAccess
  split
  · exact .lpddrBlock h
  · split
    · exact .storeWords h
    · exact h

/-! Bytes that an access shares with an operation in progress (R5, R325, R388). -/

theorem Steady.share {s : State} {thr reads : Bool} {pa : Nat} (h : Steady base s) : Steady base (s.share thr reads pa).2 := h

theorem Steady.shareAll {thr reads : Bool} {n : Nat} {l : List Byte} {s : State} (h : Steady base s) :
    Steady base (State.shareAll thr reads n l s).2 := by
  induction l generalizing n s with
  | nil => exact h
  | cons _ _ ih =>
    unfold State.shareAll
    exact ih (.ite (.fields (.draw (.share h))) (.fields (.share h)))

theorem Mem.write_channels (m : Mem) (pa : Nat) (b : List Byte) : (m.write pa b).channels = m.channels := by
  induction b generalizing m pa with
  | nil => rfl
  | cons x t ih => exact ih ..

theorem Steady.written {s : State} {pa : Nat} {bs : List Byte} (h : Steady base s) : Steady base { s with mem := s.mem.write pa bs } := by
  obtain ⟨hctl, hclk, hfw, hkeys, hch⟩ := h
  refine ⟨hctl, hclk, hfw, hkeys, fun ch hc => ?_⟩
  unfold State.channel
  rw [Mem.write_channels]
  exact hch ch hc

theorem Steady.store {s : State} {thr : Bool} {pa : Nat} {bs : List Byte} (h : Steady base s) : Steady base (s.store thr pa bs) := by
  unfold State.store
  exact .ite (.written h) (.shareAll h)

theorem Steady.view {s : State} {thr : Bool} {pa len : Nat} (h : Steady base s) : Steady base (s.view thr pa len).2 := by
  unfold State.view
  split
  · exact h
  · exact .shareAll h

/-! Reads and writes by a requester in a context. -/

theorem Io.Steadies.translate {ctx va len : Nat} {n : Need} {old : Bool} : (translate ctx va len n old).Steadies base := by
  intro s h
  unfold Machine.translate Io.exec
  dsimp only
  split
  · exact h
  · exact .countRefused h

theorem Io.Steadies.touchAll {ctx : Nat} {n : Need} {write reads : Bool} {l : List (Nat × Nat × Bool)} :
    (touchAll ctx n write reads l).Steadies base := by
  induction l with
  | nil => exact .pure
  | cons p t ih =>
    intro s h
    obtain ⟨pa, len, ecc⟩ := p
    unfold Machine.touchAll Io.exec
    dsimp only
    split <;> rename_i e
    · exact ih _ (.of_fst e (.pieceAccess h))
    · exact .countRefused (.of_fst e (.pieceAccess h))

theorem Steady.storePieces {thr : Bool} {l : List (Nat × Nat × Bool)} {l1 : List Byte} {s : State} (h : Steady base s) :
    Steady base (storePieces thr l l1 s) := by
  induction l generalizing l1 s with
  | nil => exact h
  | cons _ _ ih =>
    unfold Machine.storePieces
    exact ih (.store h)

theorem Io.Steadies.memReadN {n : Need} {ctx va len : Nat} {old : Bool} : (memReadN n ctx va len old).Steadies base :=
  .bind .translate fun _ => .bind .touchAll fun _ _ h => h

theorem Io.Steadies.memRead {ctx va len : Nat} {old : Bool} : (memRead ctx va len old).Steadies base := .memReadN

theorem Io.Steadies.memWrite_go {ctx : Nat} {old : Bool} {ps : List (Nat × Nat × Bool)} {b : List Byte} : (memWrite.go ctx old ps b).Steadies base := by
  induction ps generalizing b with
  | nil => exact .pure
  | cons p t ih =>
    unfold memWrite.go
    exact .bind .touchAll fun _ => .bind (fun s h => Steady.storePieces h) fun _ => ih

theorem Io.Steadies.memWrite {ctx va : Nat} {bs : List Byte} {old : Bool} : (memWrite ctx va bs old).Steadies base :=
  .bind .translate fun _ => .memWrite_go

theorem Steady.writeDropped {s : State} {ctx va : Nat} {bs : List Byte} (h : Steady base s) :
    Steady base (s.writeDropped ctx va bs) := .io .memWrite h

/-! Naming (R163). -/

theorem Steady.putFlow {s : State} {fid : Nat} {f : Flow} (h : Steady base s) : Steady base (s.putFlow fid f) := .ite h h

theorem Steady.modFlow {s : State} {fid : Nat} {g : Flow → Flow} (h : Steady base s) : Steady base (s.modFlow fid g) := by
  unfold State.modFlow
  split
  · exact h
  · exact .putFlow h

/-! Entering (R166, R171, R179). -/

theorem Steady.offer {s : State} {fid : Nat} {body : List Byte} {srcKind srcId status fpflags cflags : Nat} (h : Steady base s) :
    Steady base (s.offer fid body srcKind srcId status fpflags cflags).2 := by
  unfold State.offer
  split
  · exact h
  · split
    · exact h
    · split
      · exact h
      · exact .putFlow h

/-! Release (R175 to R178). -/

theorem Steady.readCons {s : State} {f : Flow} (h : Steady base s) : Steady base (readCons s f).2 := by
  unfold Machine.readCons
  split <;> (rename_i e; exact .of_snd e (.io .memRead h))

theorem Steady.releaseOne {s u : State} {fid : Nat} {f : Flow} {x : Held} (e : releaseOne s fid f x = some u) (h : Steady base s) :
    Steady base u := by
  unfold Machine.releaseOne at e
  dsimp only at e
  split at e
  · rw [← Option.some.inj e]; exact .putFlow h
  · split at e
    · rw [Option.ite_none_right_eq_some] at e
      rw [← Option.some.inj e.2]
      exact .putFlow (.io .memWrite (.readCons h))
    · split at e
      · cases e
      · rename_i ho
        rw [← Option.some.inj e]
        exact .putFlow (.of_snd ho (.offer h))

theorem Steady.releaseLoop {fid n : Nat} {s : State} (h : Steady base s) : Steady base (releaseLoop fid n s) := by
  induction n generalizing s with
  | zero => exact h
  | succ _ ih =>
    unfold Machine.releaseLoop
    split
    · exact h
    · split
      · exact h
      · split
        · exact h
        · rename_i e2
          exact ih (.modFlow (.releaseOne e2 h))

theorem Steady.release {s : State} {fid : Nat} (h : Steady base s) : Steady base (s.release fid) := by
  unfold State.release
  split
  · exact h
  · exact .releaseLoop h

/-! Graph queues (R186, R187). -/

theorem Steady.putGraph {s : State} {q : Nat} {g : Graph} (h : Steady base s) : Steady base (s.putGraph q g) := h

theorem Steady.graphReady {q i : Nat} {s : State} (h : Steady base s) : Steady base (graphReady q i s) := by
  unfold Machine.graphReady
  split
  · exact h
  · exact .modFlow (.putGraph h)

theorem Steady.graphDecr {q : Nat} {s : State} {i : Nat} (h : Steady base s) : Steady base (graphDecr q s i) := by
  unfold Machine.graphDecr
  split
  · exact h
  · exact .ite (.graphReady (.putGraph h)) (.putGraph h)

theorem Steady.graphEnd {q : Nat} {s : State} (h : Steady base s) : Steady base (graphEnd q s) := by
  unfold Machine.graphEnd
  split
  · exact h
  · exact .ite (.finishAll (.finishAll h)) h

theorem Steady.graphRetire {q i status : Nat} {s : State} (h : Steady base s) : Steady base (graphRetire q i status s) := by
  unfold Machine.graphRetire
  split
  · exact h
  · exact .graphEnd (.ite (.foldl (fun _ _ ha => .graphDecr ha) (.putGraph h)) (.putGraph h))

/-! Retirement (R125, R175). -/

theorem Steady.dropHeld {s : State} {t : Nat} (h : Steady base s) : Steady base (s.dropHeld t) := .ite (.modPod (.modThread h)) (.modThread h)

theorem Steady.retire {s : State} {t status : Nat} {faulted : Bool} (h : Steady base s) : Steady base (s.retire t status faulted) := by
  unfold State.retire
  dsimp only
  split
  · exact h
  · exact .ite (.dropHeld h) (.ite (.ite (.graphRetire (.modFlow (.dropHeld h))) (.modFlow (.dropHeld h))) (.release (.modFlow (.dropHeld
      h))))

/-! Handing out (R172). -/

theorem Steady.unwait {s : State} {t : Nat} (h : Steady base s) : Steady base (s.unwait t) := h

/-! Starting (R134). -/

theorem Steady.start {s : State} {t h1 : Nat} (h : Steady base s) : Steady base (s.start t h1) := by
  unfold State.start
  split
  · exact h
  · exact .modThread h

/-! Outstanding stores (R116, R118). -/

theorem Steady.storeTry {ctx : Nat} {l : List (Nat × List Byte)} {s : State} (h : Steady base s) : Steady base (storeTry ctx l s).2 := by
  induction l generalizing s with
  | nil => exact h
  | cons _ _ ih =>
    unfold Machine.storeTry
    split
    · rename_i e
      exact ih (.of_snd e (.io .memWrite h))
    · rename_i e
      exact .of_snd e (.io .memWrite h)

theorem Steady.scramble {s : State} {ctx va n : Nat} (h : Steady base s) : Steady base (s.scramble ctx va n) := by
  unfold State.scramble
  refine .foldl (fun _ _ ha => ?_) (.drawBytes h)
  split
  · exact ha
  · exact .written ha

theorem Steady.pokeElem {ctx va len : Nat} {f : List Byte → List Byte} {s : State} (h : Steady base s) :
    Steady base (pokeElem ctx va len f s) := by
  unfold Machine.pokeElem
  split
  · exact h
  · exact .store (.view h)

theorem Steady.partialElems {ctx bad : Nat} {els : List (Nat × Nat × (List Byte → List Byte))} {s : State} (h : Steady base s) :
    Steady base (partialElems ctx bad els s) := .foldl (fun _ _ ha => .ite ha (.ite (.pokeElem (.draw ha)) (.draw ha))) h

theorem Steady.run {st : StoreOp} {ctx : Nat} {s : State} (h : Steady base s) : Steady base (st.run ctx s).2 := by
  unfold StoreOp.run
  split
  · rename_i e
    exact .of_snd e (.storeTry h)
  · rename_i e
    exact .partialElems (.fields (.of_snd e (.storeTry h)))

theorem Steady.drainStores {s : State} {t : Nat} {below : optParam Nat (2 ^ 64)} (h : Steady base s) :
    Steady base (s.drainStores t below).2 := by
  unfold State.drainStores
  refine .modThread (foldl_inv (P := fun a : Option (Nat × Nat × Err) × State => Steady base a.2) (fun _ _ hk => ?_) h)
  split <;> (rename_i e; exact .of_snd e (.run hk))

/-! Blocking (R91). -/

theorem Steady.wake {s : State} {t : Nat} (h : Steady base s) : Steady base (s.wake t) := .modThread h

theorem Steady.block {s : State} {t : Nat} {b : Block} (h : Steady base s) : Steady base (s.block t b) := .modThread h

/-! Steps 3 to 6 of a fault (R132). -/

theorem Steady.wakePod {s : State} {p : Nat} (h : Steady base s) : Steady base (s.wakePod p) := .foldl (fun _ _ ha => .modThread ha) h

theorem Steady.quiesce {s : State} {t : Nat} (h : Steady base s) :
    Steady base (s.quiesce t) := .wakePod (.modThread (.unwait (.drainStores h)))

theorem Steady.restart {s : State} {t : Nat} (h : Steady base s) : Steady base (s.restart t) := by
  have hq : Steady base (s.quiesce t) := .quiesce h
  unfold State.restart
  dsimp only
  generalize s.quiesce t = u at hq ⊢
  split
  · exact hq
  · exact .start hq

theorem Steady.quarantineThread {t : Nat} {s : State} (h : Steady base s) : Steady base (quarantineThread t s) := .modThread (.quiesce h)

theorem Steady.stopEnd {s : State} {t : Nat} (h : Steady base s) : Steady base (s.stopEnd t) := .ite (.quarantineThread h) (.restart h)

/-! Tags and the end of unit operations (R126). -/

theorem Steady.tagDone {s : State} {t k epoch packed : Nat} (h : Steady base s) : Steady base (s.tagDone t k epoch packed) :=
  .ite (.ite (.stopEnd (.modThread h)) (.modThread h)) h

theorem Steady.endOp {s : State} {iss : Issuer} {ctx : Nat} {e : OpEnd} (h : Steady base s) : Steady base (s.endOp iss ctx e) := by
  unfold State.endOp
  dsimp only
  split
  · exact .finish (.ite (.countRefused h) h)
  · exact .ite (.ite (.countRefused h) h) (.tagDone (.ite (.ite (.countRefused h) h) (.writeDropped (.ite (.countRefused h) h))))

theorem Steady.failOp {s : State} {iss : Issuer} {ctx kind consumed produced : Nat} {e : Err} (h : Steady base s) :
    Steady base (s.failOp iss ctx kind consumed produced e) := .endOp h

/-! Faults (R132, R133). -/

theorem Steady.stop {s : State} {t status : Nat} (h : Steady base s) : Steady base (s.stop t status) :=
  .ite (.block (.unwait (.retire h))) (.stopEnd (.retire h))

/-! Suspension and end (R81 to R84). -/

theorem Steady.dropSusp {s : State} {h1 : Nat} (h : Steady base s) : Steady base (s.dropSusp h1) := .ite h h

/-! Ports. -/

theorem Steady.modFport {s : State} {p : Nat} {f : FPort → FPort} (h : Steady base s) : Steady base (s.modFport p f) := h

/-! Frames (R446, R447, R464). -/

theorem Steady.sendLink {s : State} {p kind vc seq ack : Nat} {body : List Byte} {bad : Bool} (h : Steady base s) :
    Steady base (s.sendLink p kind vc seq ack body bad) := .modFport (.send h)

/-! Sending (R449, R452). -/

theorem Steady.giveBack {s : State} {arr vc : Nat} {f : TFrame} (h : Steady base s) : Steady base (s.giveBack arr vc f) := .ite (.modFport h) h

theorem Steady.leaves {s : State} {arr : Nat} {f : TFrame} (h : Steady base s) : Steady base (s.leaves arr f) := by
  unfold State.leaves
  split <;> exact h

theorem Steady.transmit {s : State} {p vc arr : Nat} {f : TFrame} (h : Steady base s) : Steady base (s.transmit p vc arr f) :=
  .leaves (.giveBack (.modFport (.sendLink (.ite (.disarm h) h))))

theorem Steady.replayPort {s : State} {p : Nat} (h : Steady base s) :
    Steady base (s.replayPort p) := .modFport (.foldl (fun _ _ ha => .sendLink ha) h)

theorem Steady.pumpPort {s : State} {p : Nat} (h : Steady base s) : Steady base (s.pumpPort p) := by
  unfold State.pumpPort
  dsimp only
  split
  · exact h
  · refine .modFport (foldl_inv (P := fun a : State × List (Nat × Nat × TFrame) × List Nat => Steady base a.1) (fun _ _ hk => ?_) (.ite
      (.replayPort h) h))
    split
    · exact hk
    · exact .transmit hk

theorem Steady.pushPort {s : State} {p vc arr : Nat} {f : TFrame} (h : Steady base s) :
    Steady base (s.pushPort p vc arr f) := .pumpPort (.modFport h)

/-! Routing (R457 to R459). -/

theorem Steady.deltaRecords {s : State} {f : TFrame} (h : Steady base s) : Steady base (deltaRecords s f).2 := by
  unfold Machine.deltaRecords
  split
  · exact h
  · exact .draw h

theorem Steady.lossReport {s : State} {port detail : Nat} {f : TFrame} (h : Steady base s) : Steady base (lossReport s port detail f).2 := by
  unfold Machine.lossReport
  split
  · exact h
  · split
    · exact .deltaRecords h
    · split
      · exact h
      · split <;> exact h

theorem Steady.countDiscard {s : State} {p : Nat} (h : Steady base s) : Steady base (s.countDiscard p) := .ite (.modFport h) h

theorem Steady.tryRoute {s u : State} {arr vc : Nat} {f : TFrame} (e : tryRoute s arr vc f = some u) (h : Steady base s) : Steady base u := by
  unfold Machine.tryRoute at e
  split at e
  · split at e <;> (cases e; exact h)
  · split at e <;> cases e
    exact .pushPort h

theorem Steady.report {s : State} {port detail : Nat} {f : TFrame} (h : Steady base s) : Steady base (s.report port detail f) := by
  unfold State.report
  split
  · rename_i e
    exact .of_snd e (.lossReport h)
  · rename_i e
    exact .getD (fun _ e1 => .tryRoute e1 (.of_snd e (.lossReport h))) (.countDiscard (.of_snd e (.lossReport h)))

theorem Steady.fabSend {s : State} {vc : Nat} {f : TFrame} (h : Steady base s) : Steady base (s.fabSend vc f) :=
  .getD (fun _ e => .tryRoute e h) (.report h)

theorem Steady.fabForward {s : State} {p vc : Nat} {f : TFrame} (h : Steady base s) : Steady base (s.fabForward p vc f) :=
  .ite (.giveBack h) (.ite (.giveBack (.countDiscard h)) (.ite (.ite (.giveBack h) (.getD (fun _ e => .tryRoute e h) h)) (.ite (.giveBack
    (.countDiscard (.report h))) (.getD (fun _ e => .tryRoute e h) (.giveBack (.countDiscard (.report h)))))))

theorem Steady.drainRx {s : State} {p : Nat} (h : Steady base s) : Steady base (s.drainRx p) :=
  .ite (.foldl (fun _ _ ha => .fabForward ha) (.modFport h)) h

/-! Steps (R328, R329, R341). -/

theorem Steady.freshTag {s : State} (h : Steady base s) : Steady base s.freshTag.2 := .fresh h

/-! The binding of threads to images and its ends: the end of an image (R137, R138), a thread that becomes QUARANTINED (R504), and what it meets at its next ASK. -/

theorem Steady.podSettle {p : Nat} {s : State} (h : Steady base s) : Steady base (podSettle p s) := .ite (.finishAll (.modPod h)) h

/-! The course of an operation. -/

theorem Steady.remoteUndo {s : State} {o : RemoteOp} (h : Steady base s) : Steady base (remoteUndo s o) :=
  .ite (.scramble h) (.ite (.foldl (fun _ _ ha => .scramble ha) h) h)

theorem Steady.wakeRemote {s : State} (h : Steady base s) : Steady base (wakeRemote s) := .foldl (fun _ _ ha => .wake ha) h

theorem Steady.remoteEnd {k : Nat} {e : Err} {s : State} (h : Steady base s) : Steady base (remoteEnd k e s) := by
  unfold Machine.remoteEnd
  split
  · exact h
  · exact .wakeRemote (.failOp (.fields (.ite h (.remoteUndo h))))

theorem Steady.remoteSettle {k : Nat} {s : State} (h : Steady base s) : Steady base (remoteSettle k s) := by
  unfold Machine.remoteSettle
  split
  · exact h
  · split
    · exact h
    · split <;> exact .remoteEnd h

theorem Steady.modRemote {k : Nat} {f : RemoteOp → RemoteOp} {s : State} (h : Steady base s) : Steady base (modRemote k f s) := by
  unfold Machine.modRemote
  split <;> exact h

theorem Steady.remoteFail {k i : Nat} {e : Err} {s : State} (h : Steady base s) : Steady base (remoteFail k i e s) := .modRemote h

theorem Steady.sendOne {k : Nat} {s : State} (h : Steady base s) : Steady base (sendOne k s) := by
  unfold Machine.sendOne
  dsimp only
  split
  · exact h
  · split
    · exact h
    · split
      · rename_i e2
        refine .remoteFail (.modRemote (.of_snd e2 (.io ?_ (.modRemote h))))
        split
        · exact .memRead
        · exact .pure
      · rename_i e2
        refine .fabSend (.fields (.freshTag (.of_snd e2 (.io ?_ (.modRemote h)))))
        split
        · exact .memRead
        · exact .pure

theorem Steady.sendLoop {k n : Nat} {s : State} (h : Steady base s) : Steady base (sendLoop k n s) := by
  induction n generalizing s with
  | zero => exact h
  | succ _ ih =>
    unfold Machine.sendLoop
    split
    · exact h
    · exact .ite (ih (.sendOne h)) h

theorem Steady.pumpOps {s : State} (h : Steady base s) : Steady base (pumpOps s) := .foldl (fun _ _ ha => .remoteSettle (.sendLoop ha)) h

/-! Messages (R454). -/

theorem Steady.sendDisc {s : State} {p : Nat} {b : List Byte} (h : Steady base s) : Steady base (s.sendDisc p b) := .pushPort h

theorem Steady.floodDisc {s : State} {but : List Nat} {b : List Byte} (h : Steady base s) : Steady base (s.floodDisc but b) :=
  .foldl (fun _ _ ha => .sendDisc ha) h

/-! Steps 1 and 2 of R455. -/

theorem Steady.endRediscover {s : State} {parts : Nat} (h : Steady base s) : Steady base (s.endRediscover parts) := .finishAll h

theorem Steady.discTrigger {s : State} (h : Steady base s) :
    Steady base (discTrigger s) := .ite (.pumpOps (.endRediscover h)) (.pumpOps (.floodDisc h))

/-! Resume, reset and lock loss (R433, R443). -/

theorem Steady.stopSamples {p : Sample → Bool} {e : Err} {s : State} (h : Steady base s) : Steady base (stopSamples p e s) :=
  .fields (.foldl (fun _ _ ha => .dropSusp ha) h)

theorem Steady.frameEngineReset {e : Nat} {s : State} (h : Steady base s) : Steady base (frameEngineReset e s) := .stopSamples h

/-! The Host Port's link, the frames it receives, priority flow control and its configuration (R38 to R48, R604, R605). -/

theorem Steady.modHp {s : State} {f : HpCounters → HpCounters} (h : Steady base s) : Steady base (s.modHp f) := h

/-! Frames (R40 to R42). -/

theorem Steady.sendPfc {s : State} {p : Nat} {xoff : Bool} (h : Steady base s) :
    Steady base (s.sendPfc p xoff) := .send (.countTx (.ite (.modHp h) h))

theorem Steady.flowOne {s : State} {p : Nat} (h : Steady base s) :
    Steady base (s.flowOne p) := .ite h (.ite (.sendPfc h) (.ite (.sendPfc h) h))

theorem Steady.flowControl {s : State} (h : Steady base s) : Steady base s.flowControl := .foldl (fun _ _ ha => .flowOne ha) h

theorem Steady.unbufferRoce {s : State} {p k n : Nat} (h : Steady base s) : Steady base (s.unbufferRoce p k n) := .flowControl h

/-! RoCEv2: queue pairs, work requests, memory regions, the responder, and ingress queues (R49 to R59, R180, R181). -/

theorem Steady.putQp {s : State} {n : Nat} {q : Qp} (h : Steady base s) : Steady base (s.putQp n q) := h

theorem Steady.modQp {s : State} {n : Nat} {f : Qp → Qp} (h : Steady base s) : Steady base (s.modQp n f) := by
  unfold State.modQp
  split
  · exact h
  · exact .putQp h

/-! Work completions (R57). -/

theorem Steady.qpSettle {n : Nat} {s : State} (h : Steady base s) : Steady base (qpSettle n s) := by
  unfold Machine.qpSettle
  split
  · exact h
  · exact .ite (.finishAll h) h

theorem Steady.posted {q : Qp} {n n1 : Nat} {s : State} (h : Steady base s) : Steady base (posted q n n1 s).2 := by
  induction n generalizing n1 s with
  | zero => exact h
  | succ _ ih =>
    unfold Machine.posted
    exact ih (.io .memRead h)

theorem Steady.flushPosted {n : Nat} {s : State} (h : Steady base s) : Steady base (flushPosted n s) := by
  unfold Machine.flushPosted
  split
  · exact h
  · split
    · exact h
    · split
      · rename_i e1
        exact .of_snd e1 (.io .memRead h)
      · rename_i e1
        exact .ite (.posted (.of_snd e1 (.io .memRead h))) (.writeDropped (.putQp (.posted (.of_snd e1 (.io .memRead h)))))

theorem Steady.qpError {n : Nat} {s : State} (h : Steady base s) : Steady base (qpError n s) := by
  unfold Machine.qpError
  split
  · exact h
  · exact .ite (.flushPosted (.putQp h)) (.putQp h)

/-! The responder (R49, R51). -/

theorem Steady.unstop {r : RoceReq} {s : State} (h : Steady base s) : Steady base (unstop r s) := .unbufferRoce h

/-! Commands (R53 to R59). -/

theorem Steady.qpGo {n : Nat} {s : State} (h : Steady base s) :
    Steady base (qpGo n s) := .modQp (.qpError (.foldl (fun _ _ ha => .unstop ha) h))

/-! Lock and the release of islands (R559). -/

theorem Steady.retrainLost {s : State} (h : Steady base s) : Steady base (Machine.retrainLost s) := by
  refine .foldl (fun u ch hu => ?_) h
  split
  · rename_i hc
    simp only [Bool.and_eq_true, beq_iff_eq] at hc
    obtain ⟨hctl, hclk, hfw, hkeys, hch⟩ := hu
    refine ⟨hctl, hclk, hfw, hkeys, fun k hk => State.state_modChannel (by decide) (fun e => ?_) (hch k hk)⟩
    have hl := hch k hk
    rw [← e, hc.1.2] at hl
    cases hl
  · exact hu

/-! Abandonment (R504). -/

theorem Steady.quarantineNow {p status : Nat} {s : State} (h : Steady base s) : Steady base (quarantineNow p status s) :=
  .foldl (fun _ _ ha => .ite ha (.stop ha)) (.modPod h)

/-! The handshake stall watchdog (R508, R510). -/

theorem Steady.selfQuarantine {p : Nat} {s : State} (h : Steady base s) : Steady base (selfQuarantine p s) :=
  .ite h (.event (.podSettle (.quarantineNow h)))

theorem Steady.selfReset {e : Nat} {s : State} (h : Steady base s) : Steady base (selfReset e s) := .fields (.draw (.frameEngineReset h))

theorem Steady.selfService {u : Nat} {s : State} (h : Steady base s) :
    Steady base (selfService u s) := .ite (.selfQuarantine h) (.ite (.selfReset h) h)

theorem Steady.serveStalls {s : State} (h : Steady base s) : Steady base (serveStalls s) := .foldl (fun _ _ ha => .selfService ha) h

/-! Ownership of shared resources (R518 to R522). -/

theorem Steady.disown {s : State} {r : Nat} (h : Steady base s) : Steady base (s.disown r) := .ite (.fields (.ite h h)) (.ite h h)

theorem Steady.releaseAll {s : State} {sid : Nat} (h : Steady base s) : Steady base (s.releaseAll sid) := .foldl (fun _ _ ha => .disown ha) h

/-! The end of a session (R52, R72). -/

theorem Steady.endSession {sid : Nat} {s : State} (h : Steady base s) : Steady base (endSession sid s) := by
  have hr {u : State} (hu : Steady base u) : Steady base (u.releaseAll sid) := .releaseAll hu
  obtain ⟨hctl, hclk, hfw, hkeys, hch⟩ := hr (Steady.foldl (l := (s.roce.qps.filter (fun e => e.2.session == sid)).map Prod.fst)
    (fun _ n ha => Steady.qpSettle (n := n) (.qpGo (n := n) ha)) h)
  exact ⟨hctl, hclk, hfw, fun e he => hkeys e (Tbl.mem_del he), hch⟩

/-! The relock path (R558). -/

theorem Steady.failInFlight {s : State} (h : Steady base s) : Steady base (failInFlight s) := .foldl (fun _ _ ha => .finish ha) h

theorem Steady.flushOwed {s : State} (h : Steady base s) : Steady base (flushOwed s) := .foldl (fun _ _ ha => .sendRcp ha) h

end

end Sys2Proof.Machine

namespace Sys2Proof.Machine
open Sys2Proof

/-! The boot ROM (R484, R497, R565): its candidates in turn, what it enters, and what it waits for. -/

/-- A row of one ACTION runs the command where the payload names that ACTION, as an accepted command runs. -/
theorem rcpAction_eq_rcpRun {op off act : Nat} {f : Frame} {s : State} {x : Session} (hd : Handler) (h : acceptedAs op off act f s x = true) :
    rcpAction op off act hd f s = rcpRun op hd f s := by
  rw [rcpAction_accepted hd h, rcpRun_accepted hd (acceptedAs_accepted h)]

@[simp] theorem State.modFlash_ctl (s : State) (f : Flash → Flash) : (s.modFlash f).ctl = s.ctl := by
  unfold State.modFlash
  split <;> rfl

@[simp] theorem State.modFlash_mr (s : State) (f : Flash → Flash) : (s.modFlash f).fw.mr = s.fw.mr := by
  unfold State.modFlash
  split <;> rfl

@[simp] theorem State.modFlash_fuses (s : State) (f : Flash → Flash) : (s.modFlash f).fw.fuses = s.fw.fuses := by
  unfold State.modFlash
  split <;> rfl

@[simp] theorem State.modFlash_handover (s : State) (f : Flash → Flash) : (s.modFlash f).fw.handover = s.fw.handover := by
  unfold State.modFlash
  split <;> rfl

/-- A change of the booted flash is seen at the booted flash. -/
theorem State.flash_modFlash (s : State) (f : Flash → Flash) : (s.modFlash f).flash = f s.flash := by
  unfold State.modFlash State.flash
  split <;> rename_i h
  · exact if_pos h
  · exact if_neg h

theorem nth_modNth_self {α : Type} {l : List α} (d : α) {i : Nat} (f : α → α) (h : i < l.length) : nth (modNth l i f) d i = f (nth l d i) := by
  simp [nth, modNth, h]

theorem nth_modNth_ne {α : Type} (l : List α) (d : α) {i j : Nat} (f : α → α) (h : i ≠ j) : nth (modNth l i f) d j = nth l d j := by
  simp [nth, modNth, h]

/-- Firmware entered: its image runs, its digest and the boot record are measured. -/
theorem jumpTo_mr (img : FwImage) (s : State) (h : s.fw.mr.length = 4) :
    nth (jumpTo img s).fw.mr [] 0 = sha384 (nth s.fw.mr [] 0 ++ img.digest) ∧
      nth (jumpTo img s).fw.mr [] 1 = sha384 (nth s.fw.mr [] 1 ++ sha384 (bootRecord s img)) := by
  have hm : (jumpTo img s).fw.mr = modNth (modNth s.fw.mr 0 (fun m => sha384 (m ++ img.digest))) 1
      (fun m => sha384 (m ++ sha384 (bootRecord s img))) := rfl
  rw [hm]
  constructor
  · rw [nth_modNth_ne _ _ _ (by decide), nth_modNth_self _ _ (by omega)]
  · rw [nth_modNth_self _ _ (by simp [modNth, h]), nth_modNth_ne _ _ _ (by decide)]

/-- Candidates that do not pass are left for the next. -/
theorem tryCandidates_skip {l t : List (Nat × SlotRec)} {s : State} (h : ∀ e ∈ l, ∃ er, s.flash.checkSlot s.fw.fuses e.1 = .error er) (n : Nat) :
    ∃ m, tryCandidates (l ++ t) n s = tryCandidates t m s := by
  induction l generalizing n with
  | nil => exact ⟨n, rfl⟩
  | cons p l ih =>
    obtain ⟨k, r⟩ := p
    obtain ⟨er, he⟩ := h (k, r) List.mem_cons_self
    rw [List.cons_append, tryCandidates_error he]
    exact ih (fun e hm => h e (List.mem_cons_of_mem _ hm)) er.detail

/-- The state in which the boot ROM looks for its image: nothing measured, no error yet. -/
def romState (s : State) : State :=
  { s with
    fw := { s.fw with mr := Fw.reset.mr, extends_ := Fw.reset.extends_ }
    ctl := { s.ctl with resetSinceRom := false, stage := 1, bootDetail := 0 } }

theorem bootRomStart_elsewhere {s : State} (h : s.ctl.surveyor ≠ .atRom ∨ s.relocking = true) : bootRomStart s = s := if_pos h

theorem bootRomStart_waits {s : State} (ha : s.ctl.surveyor = .atRom) (hr : s.relocking = false)
    (h : 2 ≤ s.ctl.straps.toNat % 4 ∨ s.up islLow = false ∨ candidates s.flash = []) : bootRomStart s = netBoot 0 (romState s) := by
  have hn : ¬ (s.ctl.surveyor ≠ .atRom ∨ s.relocking = true) := by simp [ha, hr]
  refine (if_neg hn).trans ?_
  by_cases hc : s.ctl.straps.toNat % 4 ≥ 2 ∨ (!s.up islLow) = true
  · exact if_pos hc
  · refine (if_neg hc).trans ?_
    rcases h with h | h | h
    · exact absurd (.inl h) hc
    · exact absurd (.inr (by rw [h]; rfl)) hc
    · show tryCandidates (candidates s.flash) 0 (romState s) = _
      rw [h, tryCandidates_nil]

theorem bootRomStart_tries {s : State} (ha : s.ctl.surveyor = .atRom) (hr : s.relocking = false) (hs : s.ctl.straps.toNat % 4 < 2)
    (hu : s.up islLow = true) : bootRomStart s = tryCandidates (candidates s.flash) 0 (romState s) := by
  have hn : ¬ (s.ctl.surveyor ≠ .atRom ∨ s.relocking = true) := by simp [ha, hr]
  have hc : ¬ (s.ctl.straps.toNat % 4 ≥ 2 ∨ (!s.up islLow) = true) := by simp [hs, hu]
  exact (if_neg hn).trans (if_neg hc)

/-- The state whose image the boot ROM enters: a PENDING slot marked TRIED. -/
def triedState (k n : Nat) (r : SlotRec) (s : State) : State :=
  if r.state = 2 then ({ s with ctl := { s.ctl with bootDetail := BitVec.ofNat 16 n } }).modFlash (fun f => f.restate k 3)
  else { s with ctl := { s.ctl with bootDetail := BitVec.ofNat 16 n } }

theorem triedState_ctl (k n : Nat) (r : SlotRec) (s : State) :
    (triedState k n r s).ctl = { s.ctl with bootDetail := BitVec.ofNat 16 n } := by
  unfold triedState
  split
  · exact State.modFlash_ctl ..
  · rfl

theorem triedState_mr (k n : Nat) (r : SlotRec) (s : State) : (triedState k n r s).fw.mr = s.fw.mr := by
  unfold triedState
  split
  · exact State.modFlash_mr ..
  · rfl

theorem triedState_fuses (k n : Nat) (r : SlotRec) (s : State) : (triedState k n r s).fw.fuses = s.fw.fuses := by
  unfold triedState
  split
  · exact State.modFlash_fuses ..
  · rfl

theorem triedState_flash (k n : Nat) (r : SlotRec) (s : State) :
    (triedState k n r s).flash = if r.state = 2 then s.flash.restate k 3 else s.flash := by
  unfold triedState
  split
  · exact State.flash_modFlash ..
  · rfl

/-- The boot record depends on straps and fuses alone. -/
theorem bootRecord_congr {s u : State} (hs : u.ctl.straps = s.ctl.straps) (hf : u.fw.fuses = s.fw.fuses) (img : FwImage) :
    bootRecord u img = bootRecord s img := by
  unfold bootRecord
  rw [hs, hf]

/-- The first candidate that passes its checks runs. -/
theorem bootRomStart_enters {s : State} {l t : List (Nat × SlotRec)} {k : Nat} {r : SlotRec} {img : FwImage} (ha : s.ctl.surveyor = .atRom)
    (hr : s.relocking = false) (hs : s.ctl.straps.toNat % 4 < 2) (hu : s.up islLow = true)
    (hl : ∀ e ∈ l, ∃ er, s.flash.checkSlot s.fw.fuses e.1 = .error er) (hc : candidates s.flash = l ++ (k, r) :: t)
    (hk : s.flash.checkSlot s.fw.fuses k = .ok img) : ∃ n, bootRomStart s = jumpTo img (triedState k n r (romState s)) := by
  obtain ⟨n, hn⟩ := tryCandidates_skip (s := romState s) (t := (k, r) :: t) hl 0
  exact ⟨n, by rw [bootRomStart_tries ha hr hs hu, hc, hn, tryCandidates_ok (s := romState s) hk, triedState]⟩

/-- With the last candidate failed the boot ROM waits with its DETAIL. -/
theorem bootRomStart_fails {s : State} {l : List (Nat × SlotRec)} {k : Nat} {r : SlotRec} {er : Err} (ha : s.ctl.surveyor = .atRom)
    (hr : s.relocking = false) (hs : s.ctl.straps.toNat % 4 < 2) (hu : s.up islLow = true)
    (hl : ∀ e ∈ l, ∃ er, s.flash.checkSlot s.fw.fuses e.1 = .error er) (hc : candidates s.flash = l ++ [(k, r)])
    (hk : s.flash.checkSlot s.fw.fuses k = .error er) : bootRomStart s = netBoot er.detail (romState s) := by
  obtain ⟨n, hn⟩ := tryCandidates_skip (s := romState s) (t := [(k, r)]) hl 0
  rw [bootRomStart_tries ha hr hs hu, hc, hn, tryCandidates_error (s := romState s) hk, tryCandidates_nil]

/-! A lock loss of the Surveyor complex (R557, R558). -/

theorem relockPath_elsewhere {s : State} (h : s.ctl.surveyor ≠ .atRom ∨ s.relocking = false) : relockPath s = s :=
  if_pos (h.imp_right fun hr => by rw [hr]; rfl)

/-- The state in which an image that still passes its checks runs again. -/
def relocked (img : FwImage) (s : State) : State :=
  { dropHandover (s.extend 0 img.digest) with
    fw := { (dropHandover (s.extend 0 img.digest)).fw with running := some img }
    rcp := { (dropHandover (s.extend 0 img.digest)).rcp with heldFrames := [] } }

theorem relockPath_error {s : State} {e : Err} (ha : s.ctl.surveyor = .atRom) (hr : s.relocking = true) (he : rereadImage s = .error e) :
    relockPath s = netBoot e.detail { dropFirmware s with ctl := { (dropFirmware s).ctl with slot := 3 } } := by
  unfold relockPath
  rw [if_neg (by simp [ha, hr]), he]

theorem relockPath_ok {s : State} {img : FwImage} (ha : s.ctl.surveyor = .atRom) (hr : s.relocking = true) (hi : rereadImage s = .ok img) :
    relockPath s = if s.ctl.trained then flushOwed (failInFlight (ready (startLoop (relocked img s))))
      else { relocked img s with ctl := { (relocked img s).ctl with surveyor := .starting, stage := 3 } } := by
  unfold relockPath
  rw [if_neg (by simp [ha, hr]), hi]
  rfl

theorem dropHandover_mr (s : State) : (dropHandover s).fw.mr = s.fw.mr := by
  unfold dropHandover
  split
  · exact State.modFlash_mr ..
  · rfl

theorem dropHandover_handover (s : State) : (dropHandover s).fw.handover = none := by
  unfold dropHandover
  split
  · exact State.modFlash_handover ..
  · rename_i h
    exact Option.not_isSome_iff_eq_none.1 h

/-- What a steady state keeps of firmware's registers. -/
theorem Steady.fw_eq {base s : State} (h : Steady base s) :
    s.fw.running = base.fw.running ∧ s.fw.handover = base.fw.handover ∧ s.fw.mr = base.fw.mr := by
  obtain ⟨-, -, hfw, -⟩ := h
  have hrun := congrArg Fw.running hfw
  have hhand := congrArg Fw.handover hfw
  have hmr := congrArg Fw.mr hfw
  exact ⟨hrun, hhand, hmr⟩

/-- Firmware that becomes ready is at stage 4 with its channels trained, and does its work. -/
theorem ready_steady (s : State) : Steady { s with ctl := { s.ctl with surveyor := .ready, stage := 4, trained := true } } (ready s) :=
  .foldl (fun _ _ ha => .pumpPort (.drainRx ha)) (.serveStalls (.retrainLost (.flushEvents (.refl _))))

/-- After a lock loss the image that still passes runs again, measured once more, a handover dropped. -/
theorem relockPath_runs {s : State} {img : FwImage} (ha : s.ctl.surveyor = .atRom) (hr : s.relocking = true) (hi : rereadImage s = .ok img) :
    (relockPath s).fw.running = some img ∧ (relockPath s).fw.handover = none ∧ (relockPath s).fw.mr = (s.extend 0 img.digest).fw.mr ∧
      (relockPath s).ctl.surveyor = if s.ctl.trained then .ready else .starting := by
  have hhand : (relocked img s).fw.handover = none := dropHandover_handover _
  have hmr : (relocked img s).fw.mr = (s.extend 0 img.digest).fw.mr := dropHandover_mr _
  rw [relockPath_ok ha hr hi]
  split
  · have hv := Steady.flushOwed (.failInFlight (ready_steady (startLoop (relocked img s))))
    obtain ⟨hrun, hh, hm⟩ := hv.fw_eq
    exact ⟨hrun, hh.trans hhand, hm.trans hmr, congrArg Ctl.surveyor hv.1⟩
  · exact ⟨rfl, hhand, hmr, rfl⟩

/-! The start of firmware (R198, R564, R566). -/

/-- One channel's training taken. -/
def trainStep (l : List Training) (a : State) (ch : Nat) : State :=
  match nth l .absent ch with
  | .pass _ => if a.up (islMc (ch / 4)) then a.setChannel ch .active else a
  | .fail => a
  | .absent => a

theorem trainAll_clk (l : List Training) (s : State) : (trainAll l s).clk = s.clk := by
  unfold trainAll
  generalize List.range 128 = cs
  show (cs.foldl (trainStep l) s).clk = s.clk
  refine foldl_keeps (p := State.clk) (fun a ch => ?_) cs s
  unfold trainStep
  split
  · split <;> rfl
  · rfl
  · rfl

theorem State.channel_active_setChannel {s : State} (c : Nat) {ch : Nat} (h : c = ch ∨ (s.channel ch).state = .active) :
    ((s.setChannel c .active).channel ch).state = .active := by
  by_cases e : c = ch
  · subst e
    unfold State.setChannel State.modChannel State.channel
    rw [Tbl.at_upd_self]
  · exact State.state_modChannel (by decide) (fun _ => rfl) (h.resolve_left e)

theorem trainStep_up (l : List Training) (a : State) (ch i : Nat) : (trainStep l a ch).up i = a.up i := by
  unfold trainStep
  split
  · split <;> rfl
  · rfl
  · rfl

theorem trainStep_active {l : List Training} {a : State} (c : Nat) {ch : Nat} (h : (a.channel ch).state = .active) :
    ((trainStep l a c).channel ch).state = .active := by
  unfold trainStep
  split
  · split
    · exact State.channel_active_setChannel c (.inr h)
    · exact h
  · exact h
  · exact h

/-- A channel that passes training on a controller that is up is in service, and stays so. -/
theorem foldl_trainStep_active {l : List Training} {ch d : Nat} (hp : nth l .absent ch = .pass d) {cs : List Nat} {s : State}
    (hu : s.up (islMc (ch / 4)) = true) (h : ch ∈ cs ∨ (s.channel ch).state = .active) :
    ((cs.foldl (trainStep l) s).channel ch).state = .active := by
  induction cs generalizing s with
  | nil => exact h.resolve_left List.not_mem_nil
  | cons c t ih =>
    refine ih ((trainStep_up ..).trans hu) ?_
    rcases h with h | h
    · rcases List.mem_cons.1 h with rfl | h
      · refine .inr ?_
        unfold trainStep
        rw [hp]
        dsimp only
        rw [if_pos hu]
        exact State.channel_active_setChannel ch (.inl rfl)
      · exact .inl h
    · exact .inr (trainStep_active c h)

theorem trainAll_active {l : List Training} {s : State} {ch d : Nat} (h : ch < 128) (hp : nth l .absent ch = .pass d)
    (hu : s.up (islMc (ch / 4)) = true) : ((trainAll l s).channel ch).state = .active := by
  have hm := List.mem_range.2 h
  unfold trainAll
  generalize List.range 128 = cs at hm ⊢
  exact foldl_trainStep_active hp hu (.inl hm)

theorem boardClaims_rest (fns : List Nat) (s : State) : ∃ w, boardClaims fns s = { s with svc := w } := by
  unfold boardClaims
  dsimp only
  split
  · exact ⟨_, rfl⟩
  · exact ⟨_, rfl⟩

/-- The state in which firmware becomes ready: the board's pins claimed, the loop started, the channels trained after power-on. -/
def startedState (l : List Training) (s : State) : State :=
  let u := startLoop (boardClaims s.board.fns s)
  let v := if s.ctl.trained then u else trainAll l u
  reserveMem { v with ctl := { v.ctl with staging := [], stagingLen := 0 } }

theorem startLoop_boardClaims (s : State) : (startLoop (boardClaims s.board.fns s)).ctl = s.ctl ∧
    (startLoop (boardClaims s.board.fns s)).clk.vreq = 750 ∧ (startLoop (boardClaims s.board.fns s)).clk.alertC = s.board.alertC ∧
    (startLoop (boardClaims s.board.fns s)).clk.throttleC = s.board.throttleC := by
  obtain ⟨w, hw⟩ := boardClaims_rest s.board.fns s
  rw [hw]
  exact ⟨rfl, rfl, rfl, rfl⟩

theorem startedState_staging (l : List Training) (s : State) : (startedState l s).ctl.staging = [] := rfl

theorem startedState_clk (l : List Training) (s : State) : (startedState l s).clk = (startLoop (boardClaims s.board.fns s)).clk := by
  show (if s.ctl.trained then _ else trainAll l _).clk = _
  split
  · rfl
  · exact trainAll_clk ..

theorem startedState_active {l : List Training} {s : State} {ch d : Nat} (hn : s.ctl.trained = false) (h : ch < 128)
    (hp : nth l .absent ch = .pass d) (hu : s.up (islMc (ch / 4)) = true) : ((startedState l s).channel ch).state = .active := by
  show ((if s.ctl.trained then _ else trainAll l _).channel ch).state = _
  rw [hn, if_neg Bool.false_ne_true]
  refine trainAll_active h hp ?_
  unfold State.up
  rw [(startLoop_boardClaims s).1]
  exact hu

theorem firmwareStart_steady (l : List Training) {s : State} (h : s.ctl.surveyor = .starting) :
    Steady { startedState l s with ctl := { (startedState l s).ctl with surveyor := .ready, stage := 4, trained := true } } (firmwareStart l s) := by
  have he : firmwareStart l s = if s.ctl.trained then ready (startedState l s) else discTrigger (ready (startedState l s)) :=
    if_neg (by simp [h])
  rw [he]
  exact .ite (ready_steady _) (.discTrigger (ready_steady _))

/-! BOOT_LOAD (R564, R565). -/

/-- No session but those that a list names remains once it is ended one by one. -/
theorem foldl_endSession_sessions {l : List Nat} {s : State} (h : ∀ e ∈ s.rcp.sessions, e.1 ∈ l) :
    (l.foldl (fun a k => endSession k a) s).rcp.sessions = [] := by
  induction l generalizing s with
  | nil =>
    cases hs : s.rcp.sessions with
    | nil => exact hs
    | cons e t => exact absurd (h e (hs ▸ List.mem_cons_self)) List.not_mem_nil
  | cons k t ih =>
    refine ih fun e he => ?_
    have hne : e.1 ≠ k := of_decide_eq_true (by simpa using (List.mem_filter.1 he).2)
    obtain ⟨-, -, -, hkeys, -⟩ := Steady.endSession (sid := k) (.refl s)
    obtain ⟨e', he', heq⟩ := List.mem_map.1 (hkeys e he)
    exact (List.mem_cons.1 (heq ▸ h e' he')).resolve_left hne

/-- Every session ends. -/
theorem endSessions_sessions (s : State) : (endSessions s).rcp.sessions = [] :=
  foldl_endSession_sessions fun _ he => List.mem_map_of_mem he

/-- Bytes staged one after another, each with its place. -/
def stage (off : Nat) (t : Tbl Byte) (l : List (Byte × Nat)) : Tbl Byte := l.foldl (fun t b => t.upd 0 (off + b.2) b.1) t

/-- A place before every byte staged keeps its byte. -/
theorem stage_at_below {off a : Nat} {l : List Byte} {k : Nat} {t : Tbl Byte} (h : t.sorted = true) (ha : a < off + k) :
    (stage off t (l.zipIdx k)).at 0 a = t.at 0 a := by
  induction l generalizing k t with
  | nil => rfl
  | cons b l ih =>
    rw [List.zipIdx_cons]
    exact (ih (Tbl.sorted_upd _ _ _ _ h) (by omega)).trans (Tbl.at_upd_ne _ _ _ (by omega) h)

/-- Each byte staged is read back at its place. -/
theorem stage_at {off : Nat} {l : List Byte} {k i : Nat} {t : Tbl Byte} (h : t.sorted = true) (hi : i < l.length) :
    (stage off t (l.zipIdx k)).at 0 (off + (k + i)) = l[i] := by
  induction l generalizing k i t with
  | nil => exact absurd hi (Nat.not_lt_zero _)
  | cons b l ih =>
    rw [List.zipIdx_cons]
    show (stage off (t.upd 0 (off + k) b) (l.zipIdx (k + 1))).at 0 _ = _
    have hs := Tbl.sorted_upd t 0 (off + k) b h
    cases i with
    | zero => exact (stage_at_below hs (by omega)).trans (Tbl.at_upd_self ..)
    | succ i =>
      have hstep := ih (k := k + 1) (i := i) hs (by simpa using hi)
      rw [List.getElem_cons_succ, ← hstep]
      congr 1
      omega

/-- The state after a WRITE of BOOT_LOAD: its bytes staged. -/
def bootStaged (off : Nat) (data : List Byte) (s : State) : State :=
  { s with ctl := { s.ctl with
    staging := stage off s.ctl.staging data.zipIdx
    stagingLen := max s.ctl.stagingLen (off + data.length) } }

theorem bootStaged_staged {off : Nat} {data : List Byte} {s : State} (h : s.ctl.staging.sorted = true) :
    (bootStaged off data s).staged off data.length = data := by
  refine List.ext_getElem (by simp [State.staged]) fun i hi hd => ?_
  simp only [State.staged, List.getElem_map, List.getElem_range]
  have hb := stage_at (off := off) (k := 0) h hd
  rwa [Nat.zero_add] at hb

section
variable {f : Frame} {s : State}

theorem bootLoad_write (h : passes (bootLoadFails f s) = true) (ha : fld f.payload 0 1 = 0) (n : Nat) (x : Session) :
    bootLoad f n x s = .ok [] (bootStaged (fld f.payload 8 8) (f.payload.drop 16) s) := by
  unfold bootLoad
  rw [Reply.check_of_passes _ _ h, ha]
  rfl

theorem bootLoad_run_error {e : Err} (h : passes (bootLoadFails f s) = true) (ha : fld f.payload 0 1 = 1)
    (hc : checkImage s.fw.fuses 2 s.ctl.stagingLen s.staged = .error e) (n : Nat) (x : Session) : bootLoad f n x s = .err e s := by
  unfold bootLoad
  rw [Reply.check_of_passes _ _ h, ha, hc]
  rfl

theorem bootLoad_run {img : FwImage} (h : passes (bootLoadFails f s) = true) (ha : fld f.payload 0 1 = 1)
    (hc : checkImage s.fw.fuses 2 s.ctl.stagingLen s.staged = .ok img) (n : Nat) (x : Session) : bootLoad f n x s =
      .okThen [] s (fun s => jumpTo img (endSessions { s with fw := { s.fw with kept := s.staged 0 s.ctl.stagingLen } })) := by
  unfold bootLoad
  rw [Reply.check_of_passes _ _ h, ha, hc]
  rfl

theorem bootLoad_abort (h : passes (bootLoadFails f s) = true) (ha : fld f.payload 0 1 = 2) (n : Nat) (x : Session) :
    bootLoad f n x s = .ok [] { s with ctl := { s.ctl with staging := [], stagingLen := 0 } } := by
  unfold bootLoad
  rw [Reply.check_of_passes _ _ h, ha]
  rfl
end

/-- Settles O39: the boot ROM's ways, the rereading of the image, the start of firmware and the actions of BOOT_LOAD, each by its rule above. -/
theorem bootAndFirmwareStart : Obligations.BootAndFirmwareStart := by
  unfold Obligations.BootAndFirmwareStart
  refine ⟨fun s => ⟨fun h => ?_, fun ha hr => ?_, fun ha hr => ?_, fun l => ?_⟩, fun f s x => ?_⟩
  · exact ⟨congrArg Host.Outcome.next (bootRomStart_elsewhere (.inl h)), congrArg Host.Outcome.next (relockPath_elsewhere (.inl h))⟩
  · refine ⟨congrArg Host.Outcome.next (relockPath_elsewhere (.inr hr)), fun h => ?_, fun hs hu l k r hl =>
      ⟨fun t img hc hk => ?_, fun er hc hk => ?_⟩⟩
    · exact ⟨_, congrArg Host.Outcome.next (bootRomStart_waits ha hr h), rfl, rfl, rfl, rfl, rfl⟩
    · obtain ⟨n, hn⟩ := bootRomStart_enters ha hr hs hu hl hc hk
      have hmr := triedState_mr k n r (romState s)
      obtain ⟨h0, h1⟩ := jumpTo_mr img (triedState k n r (romState s)) (by rw [hmr]; rfl)
      rw [hmr] at h0 h1
      rw [bootRecord_congr (s := s) (by rw [triedState_ctl]; rfl) (by rw [triedState_fuses]; rfl)] at h1
      exact ⟨_, congrArg Host.Outcome.next hn, rfl, rfl, rfl, triedState_fuses .., h0, h1, rfl, triedState_flash ..⟩
    · exact ⟨_, congrArg Host.Outcome.next (bootRomStart_fails ha hr hs hu hl hc hk), rfl, rfl⟩
  · refine ⟨congrArg Host.Outcome.next (bootRomStart_elsewhere (.inr hr)), fun e he => ⟨relockPath s, rfl, ?_⟩, fun img hi => ?_⟩
    · rw [relockPath_error ha hr he]
      exact ⟨rfl, rfl, rfl, rfl⟩
    · exact ⟨relockPath s, rfl, relockPath_runs ha hr hi⟩
  · refine ⟨fun h => congrArg Host.Outcome.next (if_pos h), fun h => ⟨firmwareStart l s, rfl, ?_⟩⟩
    obtain ⟨hctl, hclk, -, -, hch⟩ := firmwareStart_steady l h
    obtain ⟨-, hv, hal, hth⟩ := startLoop_boardClaims s
    have hclk := hclk.trans (startedState_clk l s)
    rw [hctl, hclk]
    exact ⟨rfl, rfl, rfl, startedState_staging l s, hv, hal, hth, fun hn _ ch d hc hp hu => hch ch (startedState_active hn hc hp hu)⟩
  · intro p u off hp
    refine ⟨fun ha => ?_, fun ha => ?_, fun ha => ?_⟩ <;> have hact := acceptedAs_action ha <;> have hacc := acceptedAs_accepted ha
    · refine ⟨_, congrArg Host.Outcome.next ((rcpAction_eq_rcpRun _ ha).trans (rcpRun_ok hacc (bootLoad_write hp hact _ _))), ?_, fun hs => ?_⟩
      · show max (seen f s).ctl.stagingLen (off + (p.drop 16).length) = _
        rw [seen_ctl, List.length_drop]
      · rw [← List.length_drop]
        exact bootStaged_staged (by rw [seen_ctl]; exact hs)
    · have hst : (seen f s).staged = s.staged := by unfold State.staged; rw [seen_ctl]
      have hfw : (seen f s).fw = s.fw := State.modSession_fw ..
      refine ⟨fun e he => ?_, fun img hi => ⟨?_, fun a => ⟨endSessions_sessions a, rfl, rfl, rfl, rfl⟩⟩⟩
      · refine congrArg Host.Outcome.next ((rcpAction_eq_rcpRun _ ha).trans (rcpRun_err hacc (bootLoad_run_error hp hact ?_ _ _)))
        rw [hst, hfw, seen_ctl]
        exact he
      · have hi' : checkImage u.fw.fuses 2 u.ctl.stagingLen u.staged = .ok img := by
          rw [hst, hfw, seen_ctl]
          exact hi
        have hctl : (doneOk 0x0A02 f [] u).ctl = s.ctl := (State.complete_ctl ..).trans (seen_ctl f s)
        refine congrArg Host.Outcome.next ((rcpAction_eq_rcpRun _ ha).trans ((rcpRun_okThen hacc (bootLoad_run hp hact hi' _ _)).trans ?_))
        have hk : (doneOk 0x0A02 f [] u).staged 0 (doneOk 0x0A02 f [] u).ctl.stagingLen = s.staged 0 s.ctl.stagingLen := by
          unfold State.staged
          rw [hctl]
        rw [hk]
    · exact ⟨_, congrArg Host.Outcome.next ((rcpAction_eq_rcpRun _ ha).trans (rcpRun_ok hacc (bootLoad_abort hp hact _ _))), rfl, rfl⟩

end Sys2Proof.Machine

namespace Sys2Proof.Machine
open Sys2Proof

/-! Memory that is zeroed (R206). -/

/-- No byte is listed at an address. -/
def Mem.blank (m : Mem) (a : Nat) : Prop := ∀ e ∈ m.bytes, e.1 ≠ a

theorem Mem.byte_of_blank {m : Mem} {a : Nat} (h : m.blank a) : m.byte a = 0 := by
  unfold Mem.byte Tbl.at
  cases e : m.bytes.find a with
  | none => rfl
  | some x => exact absurd rfl (h _ (Tbl.find_mem e))

theorem Mem.blank_zero {m : Mem} {pa len a : Nat} (h : m.blank a ∨ pa ≤ a ∧ a < pa + len) : (m.zero pa len).blank a := by
  intro e he hea
  obtain ⟨hm, hk⟩ := List.mem_filter.1 he
  rcases h with h | ⟨h1, h2⟩
  · exact h e hm hea
  · simp [hea, h1, h2] at hk

theorem foldl_zero_blank {es : List Extent} {m : Mem} {a : Nat} (h : m.blank a ∨ ∃ e ∈ es, e.pa ≤ a ∧ a < e.pa + e.len) :
    (es.foldl (fun m e => m.zero e.pa e.len) m).blank a := by
  induction es generalizing m with
  | nil => exact h.resolve_right fun ⟨_, he, _⟩ => absurd he List.not_mem_nil
  | cons e t ih =>
    refine ih ?_
    rcases h with h | ⟨e', he, hr⟩
    · exact .inl (Mem.blank_zero (.inl h))
    · rcases List.mem_cons.1 he with rfl | he
      · exact .inl (Mem.blank_zero (.inr hr))
      · exact .inr ⟨e', he, hr⟩

/-- Every byte of the extents zeroed reads 0. -/
theorem State.zeroAll_byte {s : State} {es : List Extent} {e : Extent} (he : e ∈ es) {a : Nat} (h1 : e.pa ≤ a) (h2 : a < e.pa + e.len) :
    (s.zeroAll es).mem.byte a = 0 :=
  Mem.byte_of_blank (foldl_zero_blank (.inr ⟨e, he, h1, h2⟩))

theorem State.zeroAll_contexts (s : State) (es : List Extent) : (s.zeroAll es).mem.contexts = s.mem.contexts := by
  unfold State.zeroAll
  exact foldl_keeps (p := Mem.contexts) (g := fun (m : Mem) (e : Extent) => m.zero e.pa e.len) (fun _ _ => rfl) es s.mem

/-! MAP (R205 to R207). -/

theorem mem_insertBy {α : Type} {le : α → α → Bool} {x y : α} {l : List α} : y ∈ insertBy le x l ↔ y = x ∨ y ∈ l := by
  induction l with
  | nil => simp [insertBy]
  | cons z t ih =>
    unfold insertBy
    split
    · simp
    · rw [List.mem_cons, ih, List.mem_cons]
      exact or_left_comm

section
variable (f : Frame) (s : State)

/-- The context that a MAP names, as it stands. -/
def mapCtx : Ctx := (s.mem.contexts.find (fld f.payload 0x20 2)).getD (Ctx.init false 0)

/-- The memory that a MAP finds for its range, and the check granules that it leaves. -/
def mapMade : Option (List Extent × Tbl (List Nat)) :=
  if fld f.payload 0x10 1 = 0 then
    s.allocate (fld f.payload 0x14 1) (pageBytes (fld f.payload 0x11 1)) (fld f.payload 8 8) (fld f.payload 0x13 1 == 1)
  else if fld f.payload 0x10 1 = 1 then some ((mapCtx f s).behind (fld f.payload 0x18 8) (fld f.payload 8 8), s.mem.checks)
  else some ([⟨fld f.payload 8 8, fld f.payload 0x18 8⟩], s.mem.checks)

/-- The extents that a MAP zeroes: those it allocates, and the pages of a store that no mapping of the context holds. -/
def mapFresh (es : List Extent) : List Extent :=
  if fld f.payload 0x10 1 = 0 then es else if fld f.payload 0x10 1 = 1 then [] else
    ((List.range (fld f.payload 8 8 / 4096)).map (fun i => fld f.payload 0x18 8 + 4096 * i)).filter (fun a => !(mapCtx f s).holds a)
      |>.map (fun a => ⟨4096, a⟩)

/-- The mapping that a MAP adds. -/
def mapEntry (es : List Extent) : Mapping :=
  ⟨fld f.payload 0 8, fld f.payload 8 8, if fld f.payload 0x10 1 = 0 then .alloc else if fld f.payload 0x10 1 = 1 then .aliased else .store,
    fld f.payload 0x11 1, bit (fld f.payload 0x12 1) 0, bit (fld f.payload 0x12 1) 1, false, fld f.payload 0x13 1 == 1, es, false⟩

/-- The state that a MAP leaves. -/
def mapped (es : List Extent) (ck : Tbl (List Nat)) : State :=
  ((s.zeroAll (mapFresh f s es)).withChecks ck).modCtx (fld f.payload 0x20 2) (fun c => c.addMap (mapEntry f es))
end

section
variable {f : Frame} {s : State} {x : Session}

theorem mapNow_eq (h : passes (mapNowFails f x s) = true) (n : Nat) : mapNow f n x s = match mapMade f s with
    | none => .err (errD stLimit 2) s
    | some (es, ck) => if (mapCtx f s).maps.length ≥ 65536 then .err (errD stLimit 3) s else .ok [] (mapped f s es ck) := by
  unfold mapNow
  rw [Reply.check_of_passes _ _ h]
  rfl

theorem mapNow_full (h : passes (mapNowFails f x s) = true) (hm : mapMade f s = none) (n : Nat) : mapNow f n x s = .err (errD stLimit 2) s := by
  rw [mapNow_eq h, hm]

theorem mapNow_maps {es : List Extent} {ck : Tbl (List Nat)} (h : passes (mapNowFails f x s) = true) (hm : mapMade f s = some (es, ck))
    (hl : (mapCtx f s).maps.length < 65536) (n : Nat) : mapNow f n x s = .ok [] (mapped f s es ck) := by
  rw [mapNow_eq h, hm]
  exact if_neg (Nat.not_le.2 hl)

/-- A MAP that passes its table names an open context, a KIND of 0 to 2 and a range below 2^48 that no mapping touches. -/
theorem mapNowFails_passed (h : passes (mapNowFails f x s) = true) : fld f.payload 0x10 1 ≤ 2 ∧
    fld f.payload 0 8 + fld f.payload 8 8 ≤ 2 ^ 48 ∧ (mapCtx f s).touching (fld f.payload 0 8) (fld f.payload 8 8) = [] ∧
    s.mem.contexts.find (fld f.payload 0x20 2) = some (mapCtx f s) := by
  rw [passes_iff] at h
  have hkind := h (decide (fld f.payload 0x10 1 > 2), errAt stArg 0x10) (by simp [mapNowFails])
  have hrange := h (decide (fld f.payload 0 8 < 0x1000 ∨ fld f.payload 0 8 + fld f.payload 8 8 > 2 ^ 48), errAt stRange 0) (by simp [mapNowFails])
  have htouch := h (!((mapCtx f s).touching (fld f.payload 0 8) (fld f.payload 8 8)).isEmpty, errAt stOverlap 0) (by simp [mapNowFails, mapCtx])
  have hopen := h ((s.mem.contexts.find (fld f.payload 0x20 2)).isNone || (mapCtx f s).destroying, errAt stState 0x20)
    (by simp [mapNowFails, mapCtx])
  rw [decide_eq_false_iff_not] at hkind hrange
  rw [Bool.not_eq_false', List.isEmpty_iff] at htouch
  rw [Bool.or_eq_false_iff] at hopen
  refine ⟨by omega, by omega, htouch, ?_⟩
  unfold mapCtx
  cases hc : s.mem.contexts.find (fld f.payload 0x20 2) with
  | none => rw [hc] at hopen; cases hopen.1
  | some c => rfl

/-- A context with a mapping added finds it at each address of it that no other mapping covers. -/
theorem Ctx.mapAt_addMap {c : Ctx} {m : Mapping} {a : Nat} (hd : m.dying = false) (h1 : m.va ≤ a) (h2 : a < m.va + m.len)
    (ht : c.touching m.va m.len = []) : (c.addMap m).mapAt a false = some m := by
  unfold Ctx.mapAt Ctx.addMap
  dsimp only
  cases hf : (insertBy (fun a b : Mapping => a.va ≤ b.va) m c.maps).find? (fun m => m.va ≤ a && a < m.va + m.len && (false || !m.dying)) with
  | none =>
    have hn := List.find?_eq_none.1 hf m (mem_insertBy.2 (.inl rfl))
    simp [hd, h1, h2] at hn
  | some k =>
    have hk := List.find?_some hf
    simp only [Bool.and_eq_true, decide_eq_true_eq, Bool.false_or, Bool.not_eq_true'] at hk
    rcases mem_insertBy.1 (List.mem_of_find?_eq_some hf) with rfl | hm
    · rfl
    · have hin : k ∈ c.touching m.va m.len := by
        refine List.mem_filter.2 ⟨hm, ?_⟩
        simp only [Bool.and_eq_true, decide_eq_true_eq, Bool.not_eq_true']
        exact ⟨⟨hk.2, by omega⟩, by omega⟩
      rw [ht] at hin
      cases hin

theorem State.contexts_modCtx {s : State} {k : Nat} {c : Ctx} (g : Ctx → Ctx) (h : s.mem.contexts.find k = some c) :
    (s.modCtx k g).mem.contexts = s.mem.contexts.put k (g c) := by
  unfold State.modCtx
  rw [h]

theorem State.bytes_modCtx (s : State) (k : Nat) (g : Ctx → Ctx) : (s.modCtx k g).mem.bytes = s.mem.bytes := by
  unfold State.modCtx
  split <;> rfl

theorem mapped_contexts (h : passes (mapNowFails f x s) = true) (es : List Extent) (ck : Tbl (List Nat)) :
    (mapped f s es ck).mem.contexts = s.mem.contexts.put (fld f.payload 0x20 2) ((mapCtx f s).addMap (mapEntry f es)) := by
  have hz : ((s.zeroAll (mapFresh f s es)).withChecks ck).mem.contexts = s.mem.contexts := State.zeroAll_contexts ..
  unfold mapped
  rw [State.contexts_modCtx (c := mapCtx f s) _ (by rw [hz]; exact (mapNowFails_passed h).2.2.2), hz]

/-- Each address of the range translates to its memory, for an access that the permissions asked for allow. -/
theorem mapped_atu (h : passes (mapNowFails f x s) = true) (es : List Extent) (ck : Tbl (List Nat)) {off : Nat}
    (ho : off < fld f.payload 8 8) {n : Need} (hn : n.met (mapEntry f es) = true) :
    atu (mapped f s es ck) (fld f.payload 0x20 2) (fld f.payload 0 8 + off) n =
      match extAt es off with
      | none => .error stXlate
      | some pa => .ok (pa, fld f.payload 0x13 1 == 1) := by
  obtain ⟨-, hr, ht, -⟩ := mapNowFails_passed h
  have hm : ((mapCtx f s).addMap (mapEntry f es)).mapAt (fld f.payload 0 8 + off) false = some (mapEntry f es) :=
    Ctx.mapAt_addMap rfl (Nat.le_add_right _ _) (Nat.add_lt_add_left ho _) ht
  have hsub : fld f.payload 0 8 + off - (mapEntry f es).va = off := Nat.add_sub_cancel_left ..
  unfold atu
  rw [if_neg (by omega), mapped_contexts h, Tbl.find_put_self]
  simp only [hm, hsub, hn]
  show (match extAt es off with | none => _ | some pa => _) = _
  cases extAt es off <;> rfl

theorem mapped_bytes (es : List Extent) (ck : Tbl (List Nat)) : (mapped f s es ck).mem.bytes = (s.zeroAll (mapFresh f s es)).mem.bytes :=
  State.bytes_modCtx ..

theorem mapped_byte {es : List Extent} (ck : Tbl (List Nat)) {e : Extent} (he : e ∈ mapFresh f s es) {a : Nat} (h1 : e.pa ≤ a)
    (h2 : a < e.pa + e.len) : (mapped f s es ck).mem.byte a = 0 :=
  (Mem.byte_congr (mapped_bytes es ck) a).trans (State.zeroAll_byte he h1 h2)

end

/-! UNMAP (R208). -/

section
variable {f : Frame} {s : State} {x : Session}

/-- The context that an UNMAP names, as it stands. -/
def unmapCtx (f : Frame) (s : State) : Ctx := (s.mem.contexts.find (fld f.payload 0x10 2)).getD (Ctx.init false 0)

/-- The state in which an UNMAP that waits for accesses leaves a context: nothing of the range admits another. -/
def unmapDying (ctx va len : Nat) (s : State) : State :=
  s.modCtx ctx (fun c => { c with maps := c.maps.map (fun m => if va ≤ m.va && m.va + m.len ≤ va + len then { m with dying := true } else m) })

theorem unmapNow_waits (h : passes (unmapNowFails f x s) = true)
    (ha : s.accessing (fld f.payload 0x10 2) (fld f.payload 0 8) (fld f.payload 8 8) = true) (n : Nat) :
    unmapNow f n x s = .wait (.unmap (fld f.payload 0x10 2) (fld f.payload 0 8) (fld f.payload 8 8))
      (unmapDying (fld f.payload 0x10 2) (fld f.payload 0 8) (fld f.payload 8 8) s) := by
  unfold unmapNow
  rw [Reply.check_of_passes _ _ h]
  exact if_pos ha

theorem unmapNow_ends (h : passes (unmapNowFails f x s) = true)
    (ha : s.accessing (fld f.payload 0x10 2) (fld f.payload 0 8) (fld f.payload 8 8) = false) (n : Nat) :
    unmapNow f n x s = .ok [] (s.unmapRange (fld f.payload 0x10 2) (fld f.payload 0 8) (fld f.payload 8 8)) := by
  unfold unmapNow
  rw [Reply.check_of_passes _ _ h]
  exact if_neg (by rw [ha]; exact Bool.false_ne_true)

/-- An UNMAP that passes its table names a context, and each mapping that its range touches lies within it. -/
theorem unmapNowFails_passed (h : passes (unmapNowFails f x s) = true) : s.mem.contexts.find (fld f.payload 0x10 2) = some (unmapCtx f s) ∧
    ∀ m ∈ (unmapCtx f s).maps, m.dying = false → m.va < fld f.payload 0 8 + fld f.payload 8 8 → fld f.payload 0 8 < m.va + m.len →
      fld f.payload 0 8 ≤ m.va ∧ m.va + m.len ≤ fld f.payload 0 8 + fld f.payload 8 8 := by
  rw [passes_iff] at h
  have hin := h (((unmapCtx f s).touching (fld f.payload 0 8) (fld f.payload 8 8)).any (fun m =>
    decide (m.va < fld f.payload 0 8 ∨ fld f.payload 0 8 + fld f.payload 8 8 < m.va + m.len)), errAt stRange 0) (by simp [unmapNowFails, unmapCtx])
  have hopen := h ((s.mem.contexts.find (fld f.payload 0x10 2)).isNone || ((unmapCtx f s).touching (fld f.payload 0 8) (fld f.payload 8 8)).isEmpty,
    errAt stState 0) (by simp [unmapNowFails, unmapCtx])
  rw [Bool.or_eq_false_iff] at hopen
  constructor
  · unfold unmapCtx
    cases hc : s.mem.contexts.find (fld f.payload 0x10 2) with
    | none => rw [hc] at hopen; cases hopen.1
    | some c => rfl
  · intro m hm hd h1 h2
    have hk : m ∈ (unmapCtx f s).touching (fld f.payload 0 8) (fld f.payload 8 8) :=
      List.mem_filter.2 ⟨hm, by simp [hd, h1, h2]⟩
    have hn := List.any_eq_false.1 hin m hk
    rw [decide_eq_true_eq] at hn
    omega

/-- A context none of whose mappings admits an access at an address refuses it. -/
theorem atu_refuses {ctx a : Nat} {c : Ctx} (hc : s.mem.contexts.find ctx = some c)
    (h : ∀ m ∈ c.maps, m.dying = false → m.va ≤ a → ¬ a < m.va + m.len) (n : Need) : atu s ctx a n = .error stXlate := by
  have hm : c.mapAt a false = none := by
    refine List.find?_eq_none.2 fun m hm hk => ?_
    simp only [Bool.and_eq_true, decide_eq_true_eq, Bool.false_or, Bool.not_eq_true'] at hk
    exact h m hm hk.2 hk.1.1 hk.1.2
  unfold atu
  split
  · rfl
  · rw [hc]
    dsimp only
    rw [hm]

theorem unmapDying_refuses (h : passes (unmapNowFails f x s) = true) {a : Nat} (h1 : fld f.payload 0 8 ≤ a)
    (h2 : a < fld f.payload 0 8 + fld f.payload 8 8) (n : Need) :
    atu (unmapDying (fld f.payload 0x10 2) (fld f.payload 0 8) (fld f.payload 8 8) s) (fld f.payload 0x10 2) a n = .error stXlate := by
  obtain ⟨hc, hin⟩ := unmapNowFails_passed h
  refine atu_refuses (by rw [unmapDying, State.contexts_modCtx _ hc, Tbl.find_put_self]) (fun m hm hd ha hb => ?_) n
  obtain ⟨k, hk, rfl⟩ := List.mem_map.1 hm
  by_cases hw : (fld f.payload 0 8 ≤ k.va && k.va + k.len ≤ fld f.payload 0 8 + fld f.payload 8 8) = true
  · rw [if_pos hw] at hd
    cases hd
  · rw [if_neg hw] at hd ha hb
    have hw' := hin k hk hd (by omega) (by omega)
    simp [hw'] at hw

/-- A mapping dropped, its context keeps the others. -/
theorem State.contexts_dropMap {s : State} {ctx va : Nat} {c : Ctx} (h : s.mem.contexts.find ctx = some c) :
    ∃ c', (s.dropMap ctx va).mem.contexts.find ctx = some c' ∧ c'.maps = c.maps.filter (fun m => m.va != va) := by
  refine ⟨{ c with maps := c.maps.filter (fun m => m.va != va) }, ?_, rfl⟩
  have hm := State.contexts_modCtx (fun c => { c with maps := c.maps.filter (fun m => m.va != va) }) h
  unfold State.dropMap
  rw [h]
  dsimp only
  split
  · rw [hm, Tbl.find_put_self]
  · show (s.modCtx ctx _).mem.contexts.find ctx = _
    rw [hm, Tbl.find_put_self]

theorem State.contexts_dropMaps {ctx : Nat} {vas : List Nat} {s : State} {c : Ctx} (h : s.mem.contexts.find ctx = some c) :
    ∃ c', (vas.foldl (fun a v => a.dropMap ctx v) s).mem.contexts.find ctx = some c' ∧ ∀ m ∈ c'.maps, m ∈ c.maps ∧ m.va ∉ vas := by
  induction vas generalizing s c with
  | nil => exact ⟨c, h, fun m hm => ⟨hm, List.not_mem_nil⟩⟩
  | cons v t ih =>
    obtain ⟨c1, h1, hmaps⟩ := State.contexts_dropMap (va := v) h
    obtain ⟨c2, h2, hall⟩ := ih h1
    refine ⟨c2, h2, fun m hm => ?_⟩
    obtain ⟨hm1, hn⟩ := hall m hm
    rw [hmaps] at hm1
    obtain ⟨hmc, hne⟩ := List.mem_filter.1 hm1
    exact ⟨hmc, fun hv => (List.mem_cons.1 hv).elim (fun e => by simp [e] at hne) hn⟩

theorem unmapRange_refuses (h : passes (unmapNowFails f x s) = true) {a : Nat} (h1 : fld f.payload 0 8 ≤ a)
    (h2 : a < fld f.payload 0 8 + fld f.payload 8 8) (n : Need) :
    atu (s.unmapRange (fld f.payload 0x10 2) (fld f.payload 0 8) (fld f.payload 8 8)) (fld f.payload 0x10 2) a n = .error stXlate := by
  obtain ⟨hc, hin⟩ := unmapNowFails_passed h
  unfold State.unmapRange
  rw [hc]
  dsimp only
  obtain ⟨c', hc', hall⟩ := State.contexts_dropMaps (vas := ((unmapCtx f s).maps.filter (fun m =>
    fld f.payload 0 8 ≤ m.va && m.va + m.len ≤ fld f.payload 0 8 + fld f.payload 8 8)).map Mapping.va) hc
  refine atu_refuses hc' (fun m hm hd ha hb => ?_) n
  obtain ⟨hmc, hn⟩ := hall m hm
  refine hn (List.mem_map_of_mem (List.mem_filter.2 ⟨hmc, ?_⟩))
  simpa using hin m hmc hd (by omega) (by omega)

end

/-! RETRAIN_CHANNEL (R219 to R221). -/

section
variable {f : Frame} {s : State}

/-- A channel with a RETRAIN_CHANNEL begun on it and its state set. -/
def retrainBegun (ch act : Nat) (st : ChState) (s : State) : State :=
  { s with mem := { s.mem with retrains := s.mem.retrains.put ch ⟨act, 0⟩ } }.setChannel ch st

theorem retrainChannel_retrains (h : passes (retrainChannelFails f s) = true) (ha : fld f.payload 1 1 = 0) (n : Nat) (x : Session) :
    retrainChannel f n x s = .wait (.channel (fld f.payload 0 1))
      (retrainBegun (fld f.payload 0 1) 0 (if (s.inUse (fld f.payload 0 1)).isEmpty then .retraining else .draining) s) := by
  unfold retrainChannel
  rw [Reply.check_of_passes _ _ h, ha]
  refine (if_neg (by decide)).trans ?_
  by_cases he : (s.inUse (fld f.payload 0 1)).isEmpty = true
  · rw [if_pos he, if_pos he]
    rfl
  · rw [if_neg he, if_neg he]
    rfl

theorem retrainChannel_leaves (h : passes (retrainChannelFails f s) = true) (ha : fld f.payload 1 1 = 1)
    (he : (s.inUse (fld f.payload 0 1)).isEmpty = true) (n : Nat) (x : Session) :
    retrainChannel f n x s = .ok (movedPayload 0) ((retrainBegun (fld f.payload 0 1) 1 .outOfService s).endRetrain (fld f.payload 0 1)) := by
  unfold retrainChannel
  rw [Reply.check_of_passes _ _ h, ha]
  exact (if_neg (by decide)).trans (if_pos he)

theorem retrainChannel_drains (h : passes (retrainChannelFails f s) = true) (ha : fld f.payload 1 1 = 1)
    (he : (s.inUse (fld f.payload 0 1)).isEmpty = false) (n : Nat) (x : Session) :
    retrainChannel f n x s = .wait (.channel (fld f.payload 0 1)) (retrainBegun (fld f.payload 0 1) 1 .draining s) := by
  unfold retrainChannel
  rw [Reply.check_of_passes _ _ h, ha]
  exact (if_neg (by decide)).trans (if_neg (by rw [he]; exact Bool.false_ne_true))

theorem retrainChannel_restores (h : passes (retrainChannelFails f s) = true) (ha : fld f.payload 1 1 = 2) (n : Nat) (x : Session) :
    retrainChannel f n x s = .wait (.channel (fld f.payload 0 1)) (retrainBegun (fld f.payload 0 1) 2 .retraining s) := by
  unfold retrainChannel
  rw [Reply.check_of_passes _ _ h, ha]
  exact if_pos rfl
end

/-! Bytes of memory after a write and after zeroing (R206, R222). -/

theorem Mem.byte_zero_in (m : Mem) {pa len a : Nat} (h1 : pa ≤ a) (h2 : a < pa + len) : (m.zero pa len).byte a = 0 :=
  Mem.byte_of_blank (Mem.blank_zero (.inr ⟨h1, h2⟩))

theorem Mem.byte_zero_other {m : Mem} {pa len a : Nat} (hw : m.wf = true) (h : a < pa ∨ pa + len ≤ a) : (m.zero pa len).byte a = m.byte a := by
  have hs := ((Mem.wf_iff m).1 hw).1
  unfold Mem.byte Tbl.at
  refine congrArg (Option.getD · 0) (Tbl.find_filter_ne m.bytes _ (fun x => ?_) hs)
  simp only [Bool.not_eq_true', Bool.and_eq_false_iff, decide_eq_false_iff_not]
  omega

/-- Memory read where its bytes are known. -/
theorem Mem.read_of_bytes {m k : Mem} {pa qa n : Nat} (h : ∀ i < n, m.byte (pa + i) = k.byte (qa + i)) : m.read pa n = k.read qa n := by
  induction n generalizing pa qa with
  | zero => rfl
  | succ n ih =>
    refine congrArg₂ List.cons (h 0 (Nat.succ_pos n)) (ih fun i hi => ?_)
    have hs := h (i + 1) (Nat.succ_lt_succ hi)
    rwa [← Nat.add_assoc, Nat.add_right_comm, ← Nat.add_assoc qa, Nat.add_right_comm qa] at hs

theorem Mem.read_of_zero {m : Mem} {pa n : Nat} (h : ∀ i < n, m.byte (pa + i) = 0) : m.read pa n = zeros n := by
  induction n generalizing pa with
  | zero => rfl
  | succ n ih =>
    refine congrArg₂ List.cons (h 0 (Nat.succ_pos n)) (ih fun i hi => ?_)
    have hs := h (i + 1) (Nat.succ_lt_succ hi)
    rwa [← Nat.add_assoc, Nat.add_right_comm] at hs

@[simp] theorem Mem.read_length (m : Mem) (pa n : Nat) : (m.read pa n).length = n := by
  induction n generalizing pa with
  | zero => rfl
  | succ n ih => exact congrArg (· + 1) (ih _)

/-- Memory with a block of bytes carried from one place to another: its old place is zero. -/
def Mem.carry (m : Mem) (src dst len : Nat) : Mem := ((m.zero dst len).write dst (m.read src len)).zero src len

theorem Mem.read_carry {m : Mem} {src dst len : Nat} (hw : m.wf = true) (h : src + len ≤ dst ∨ dst + len ≤ src) :
    (m.carry src dst len).read dst len = m.read src len ∧ (m.carry src dst len).read src len = zeros len := by
  have hz := Mem.wf_zero m dst len hw
  have hx := Mem.wf_write _ dst (m.read src len) hz
  constructor
  · have hr := Mem.read_write (m.zero dst len) dst (m.read src len) hz
    rw [Mem.read_length] at hr
    refine (Mem.read_of_bytes fun i hi => ?_).trans hr
    exact Mem.byte_zero_other hx (by omega)
  · exact Mem.read_of_zero fun i hi => Mem.byte_zero_in _ (Nat.le_add_right _ _) (Nat.add_lt_add_left hi _)

theorem Mem.carry_channels (m : Mem) (src dst len : Nat) : (m.carry src dst len).channels = m.channels :=
  Mem.write_channels (m.zero dst len) dst (m.read src len)

/-! Moving granules (R221, R222). -/

theorem State.moveGranule_bytes (s : State) (src dst : Nat) :
    (s.moveGranule src dst).mem.bytes = (s.mem.carry (4096 * src) (4096 * dst) 4096).bytes := by
  unfold State.moveGranule
  extract_lets m fix m1 bad bads checks s1
  have h1 : m1 = s.mem.carry (4096 * src) (4096 * dst) 4096 := rfl
  rw [← h1]
  clear_value m1 bads checks
  rfl

theorem State.finishAll_mem (s : State) (w : Wait) (st : Nat) (b : List Byte) : (s.finishAll w st b).mem = s.mem :=
  foldl_keeps (p := State.mem) (g := fun a (c : Nat × Nat) => a.finish c.1 c.2 st b) (fun a c => a.finish_mem c.1 c.2 st b) _ s

theorem retrainSettle_bytes (ch : Nat) (s : State) : (retrainSettle ch s).mem.bytes = s.mem.bytes := by
  unfold retrainSettle
  split
  · rfl
  · split
    · split
      · split
        · exact (congrArg Mem.bytes (State.finishAll_mem ..)).trans rfl
        · rfl
      · rfl
    · split
      · exact (congrArg Mem.bytes (State.finishAll_mem ..)).trans rfl
      · rfl
    · rfl

/-- A count of granules added to the RETRAIN_CHANNEL of a channel. -/
def countMoved (ch : Nat) (r : Retrain) (n : Nat) (s : State) : State :=
  { s with mem := { s.mem with retrains := s.mem.retrains.put ch { r with count := r.count + n } } }

theorem countMoved_channel (ch : Nat) (r : Retrain) (n : Nat) (s : State) (c : Nat) : (countMoved ch r n s).channel c = s.channel c := rfl

theorem countMoved_bytes (ch : Nat) (r : Retrain) (n : Nat) (s : State) : (countMoved ch r n s).mem.bytes = s.mem.bytes := rfl

theorem countMoved_retrains (ch : Nat) (r : Retrain) (n : Nat) (s : State) :
    (countMoved ch r n s).mem.retrains.find ch = some { r with count := r.count + n } := Tbl.find_put_self ..

/-- The state after a granule has left a channel that is drained. -/
def granuleDrained (ch g d : Nat) (r : Retrain) (s : State) : State :=
  countMoved ch r (s.copied g d false) (((s.moveGranule g d).trackMoved g d s.mem.moves).modChannel ch (fun c => { c with
    moved := c.moved ++ [⟨g, d, s.mem.moves⟩] }))

/-- The state after a granule has come back to a channel that is restored. -/
def granuleRestored (ch : Nat) (x : Moved) (r : Retrain) (s : State) : State :=
  countMoved ch r (if r.action = 2 then s.copied x.now x.own true else 0) ((s.moveGranule x.now x.own).trackMoved x.now x.own x.nth)

section
variable {ch : Nat} {s : State}

theorem granuleCopyDone_idle (h : s.frozen (partIsland (islMc (ch / 4))) = true ∨ s.mem.retrains.find ch = none) : granuleCopyDone ch s = s := by
  unfold granuleCopyDone
  split
  · rfl
  · rename_i hf
    rw [h.resolve_left hf]

theorem granuleCopyDone_drains {r : Retrain} {g d : Nat} (hf : s.frozen (partIsland (islMc (ch / 4))) = false)
    (hr : s.mem.retrains.find ch = some r) (hs : (s.channel ch).state = .draining) (hm : s.nextMove ch = some (g, d)) :
    granuleCopyDone ch s = retrainSettle ch (granuleDrained ch g d r s) := by
  unfold granuleCopyDone
  rw [if_neg (by rw [hf]; exact Bool.false_ne_true), hr]
  dsimp only
  rw [hs, hm]
  rfl

theorem granuleCopyDone_restores {r : Retrain} {x : Moved} {l : List Moved} (hf : s.frozen (partIsland (islMc (ch / 4))) = false)
    (hr : s.mem.retrains.find ch = some r) (hs : (s.channel ch).state = .restoring) (hm : (s.channel ch).moved = x :: l) :
    granuleCopyDone ch s = retrainSettle ch (granuleRestored ch x r s) := by
  unfold granuleCopyDone
  rw [if_neg (by rw [hf]; exact Bool.false_ne_true), hr]
  dsimp only
  rw [hs]
  dsimp only
  rw [hm]
  rfl

/-- A granule moved has the bytes it had, and its old place reads zero. -/
theorem granule_carried {v : State} {src dst : Nat} (hw : s.mem.wf = true) (hne : src ≠ dst)
    (hv : v.mem.bytes = (s.moveGranule src dst).mem.bytes) :
    v.mem.read (4096 * dst) 4096 = s.mem.read (4096 * src) 4096 ∧ v.mem.read (4096 * src) 4096 = zeros 4096 := by
  obtain ⟨h1, h2⟩ := Mem.read_carry (src := 4096 * src) (dst := 4096 * dst) (len := 4096) hw (by omega)
  have hb := hv.trans (s.moveGranule_bytes src dst)
  exact ⟨(Mem.read_congr hb ..).trans h1, (Mem.read_congr hb ..).trans h2⟩

theorem State.state_moveGranule {src dst : Nat} {st : ChState} (hst : st ≠ .absent) (h : (s.channel ch).state = st) :
    ((s.moveGranule src dst).channel ch).state = st := by
  unfold State.moveGranule
  extract_lets m fix m1 bad bads checks s1
  have hm : m1 = s.mem.carry (4096 * src) (4096 * dst) 4096 := rfl
  have hc : m1.channels = s.mem.channels := by rw [hm, Mem.carry_channels]
  clear_value m1 bads checks
  have h1 : (s1.channel ch).state = st := by
    unfold State.channel
    rw [show s1.mem.channels = s.mem.channels from hc]
    exact h
  have h2 := State.state_modChannel (f := fun c => { c with reads := c.reads + 64 }) (c := channelOf (4096 * src)) hst
    (fun e => by rw [e]; exact h1) h1
  exact State.state_modChannel hst (fun e => by rw [e]; exact h2) h2

theorem State.state_trackMoved (src dst n : Nat) : ((s.trackMoved src dst n).channel ch).state = (s.channel ch).state := by
  unfold State.trackMoved State.channel Tbl.at
  dsimp only
  rw [Tbl.find_mapV]
  cases s.mem.channels.find ch <;> rfl

theorem granuleDrained_state {g d : Nat} {r : Retrain} (h : (s.channel ch).state = .draining) :
    ((granuleDrained ch g d r s).channel ch).state = .draining := by
  have h1 : (((s.moveGranule g d).trackMoved g d s.mem.moves).channel ch).state = .draining :=
    (State.state_trackMoved ..).trans (State.state_moveGranule (by decide) h)
  rw [granuleDrained, countMoved_channel]
  generalize (s.moveGranule g d).trackMoved g d s.mem.moves = u at h1 ⊢
  exact State.state_modChannel (by decide) (fun _ => h1) h1

theorem retrainSettle_goesOn {r : Retrain} (hr : s.mem.retrains.find ch = some r) (hs : (s.channel ch).state = .draining) (ha : r.action ≠ 1) :
    (retrainSettle ch s).mem.retrains.find ch = some r := by
  unfold retrainSettle
  rw [hr]
  dsimp only
  rw [hs]
  dsimp only
  split
  · exact hr
  · exact hr

/-! Where a granule that leaves a channel goes (R221): to another channel. -/

theorem mem_sortBy {α : Type} {le : α → α → Bool} {y : α} {l : List α} : y ∈ sortBy le l ↔ y ∈ l := by
  induction l with
  | nil => rfl
  | cons x t ih =>
    show y ∈ insertBy le x (sortBy le t) ↔ _
    rw [mem_insertBy, ih, List.mem_cons]

theorem channelOf_of_inUse {g : Nat} (h : g ∈ s.inUse ch) : channelOf (4096 * g) = ch := by
  unfold State.inUse granulesOn at h
  obtain ⟨e, -, hg⟩ := List.mem_flatMap.1 (List.mem_eraseDups.1 (mem_sortBy.1 h))
  have hp := (List.mem_filter.1 hg).2
  simp only [Bool.and_eq_true, beq_iff_eq] at hp
  exact hp.2

theorem bits_page {v hi lo : Nat} (h : 12 ≤ lo) : bits (4096 * (v / 4096)) hi lo = bits v hi lo := by
  have hp : 2 ^ lo = 4096 * 2 ^ (lo - 12) := by
    rw [show (4096 : Nat) = 2 ^ 12 from rfl, ← Nat.pow_add]
    congr 1
    omega
  unfold bits
  rw [hp, ← Nat.div_div_eq_div_mul, ← Nat.div_div_eq_div_mul, Nat.mul_div_cancel_left _ (by decide)]

/-- An address lies on the channel of its granule. -/
theorem channelOf_page (pa : Nat) : channelOf (4096 * (pa / 4096)) = channelOf pa := by
  unfold channelOf ctrlOf chanOf
  simp only [bits_page, Nat.reduceLeDiff]

theorem findPages_one {used : List Extent} {ok : Nat → Bool} {top : Nat} {n pa : Nat} {e : Extent} {es : List Extent}
    (h : findPages used ok 4096 top n pa 1 [] = some (e :: es)) : ok e.pa = true := by
  induction n generalizing pa with
  | zero => cases h
  | succ n ih =>
    unfold findPages at h
    rw [if_neg (by decide)] at h
    split at h
    · cases h
    · split at h
      · exact ih h
      · split at h
        · rename_i hok
          cases n with
          | zero => cases h
          | succ n =>
            unfold findPages at h
            rw [if_pos (by decide)] at h
            cases h
            exact hok
        · exact ih h

/-- A granule that leaves a channel goes to another. -/
theorem State.nextMove_ne {g d : Nat} (h : s.nextMove ch = some (g, d)) : g ≠ d := by
  unfold State.nextMove at h
  split at h
  · cases h
  · rename_i k t hk
    have hin : k ∈ s.inUse ch := (List.mem_filter.1 (hk ▸ List.mem_cons_self)).1
    dsimp only at h
    split at h
    · rename_i e l hp
      have hok := findPages_one hp
      simp only [Bool.and_eq_true, bne_iff_ne] at hok
      obtain ⟨⟨-, hne⟩, -⟩ := hok
      cases h
      intro hgd
      have hc := channelOf_of_inUse hin
      rw [hgd, channelOf_page] at hc
      exact hne hc
    · cases h

/-! Training (R221). -/

theorem State.channel_setChannel (s : State) (ch : Nat) (st : ChState) : (s.setChannel ch st).channel ch = { s.channel ch with state := st } :=
  Tbl.at_upd_self ..

theorem channelTrainingDone_elsewhere (h : (s.channel ch).state ≠ .retraining ∨ s.up (islMc (ch / 4)) = false) (r : Training) :
    channelTrainingDone ch r s = s :=
  if_pos (h.imp_right fun hu => by rw [hu]; rfl)

theorem channelTrainingDone_eq (hs : (s.channel ch).state = .retraining) (hu : s.up (islMc (ch / 4)) = true) (r : Training) :
    channelTrainingDone ch r s = match r with
      | .pass _ => retrainSettle ch (s.setChannel ch .restoring)
      | .fail => ((s.setChannel ch .outOfService).endRetrain ch).failAll (.channel ch) (errD stHw 1)
      | .absent => ((s.setChannel ch .outOfService).endRetrain ch).failAll (.channel ch) (errD stHw 1) :=
  if_neg (by simp [hs, hu])

/-- A channel being restored that has nothing to bring back is in service, and its command ends. -/
theorem retrainSettle_restored {r : Retrain} (hr : s.mem.retrains.find ch = some r) (hs : (s.channel ch).state = .restoring)
    (hm : (s.channel ch).moved = []) :
    retrainSettle ch s = ((s.setChannel ch .active).endRetrain ch).finishAll (.channel ch) stOk (movedPayload r.count) := by
  unfold retrainSettle
  rw [hr]
  dsimp only
  rw [hs]
  dsimp only
  rw [hm]
  rfl

theorem retrainSettle_restores (hr : s.mem.retrains.find ch ≠ none) (hs : (s.channel ch).state = .restoring)
    (hm : (s.channel ch).moved ≠ []) : retrainSettle ch s = s := by
  unfold retrainSettle
  cases hc : s.mem.retrains.find ch with
  | none => exact absurd hc hr
  | some r =>
    dsimp only
    rw [hs]
    exact if_neg (by rw [List.isEmpty_iff]; exact hm)
end

/-! The reservation rebuilt (R360): entries without a readable copy settled by the array, then the lost copies copied from the others. -/

/-- A bank's shadow copies as a settling of entries that have no readable copy leaves them: those of every other entry of the bank as they were. -/
structure CopiesKept (s : State) (b : Nat) (a : State) : Prop where
  banks : a.gaz.banks.sorted = true
  sorted0 : (a.gazBank b).sh0.sorted = true
  sorted1 : (a.gazBank b).sh1.sorted = true
  same : ∀ e, shadowsReadable s b e ≠ (false, false) →
    (a.gazBank b).sh0.at 0 e = (s.gazBank b).sh0.at 0 e ∧ (a.gazBank b).sh1.at 0 e = (s.gazBank b).sh1.at 0 e

theorem State.gazBank_modBank_ne {s : State} (h : s.gaz.banks.sorted = true) {b c : Nat} (hc : c ≠ b) (f : GazBank → GazBank) :
    (s.modBank b f).gazBank c = s.gazBank c := Tbl.at_upd_ne _ _ _ hc h

theorem State.sorted_modBank {s : State} (h : s.gaz.banks.sorted = true) (b : Nat) (f : GazBank → GazBank) :
    (s.modBank b f).gaz.banks.sorted = true := Tbl.sorted_upd _ _ _ _ h

section
variable {s a : State} {b : Nat}

/-- A change of another bank. -/
theorem CopiesKept.modBank_ne (h : CopiesKept s b a) {c : Nat} (hc : b ≠ c) (f : GazBank → GazBank) : CopiesKept s b (a.modBank c f) := by
  obtain ⟨hb, h0, h1, hs⟩ := h
  have he := State.gazBank_modBank_ne hb hc f
  exact ⟨State.sorted_modBank hb c f, by rw [he]; exact h0, by rw [he]; exact h1, by rw [he]; exact hs⟩

/-- A change of the bank that leaves its copies. -/
theorem CopiesKept.modBank (h : CopiesKept s b a) (c : Nat) {f : GazBank → GazBank} (h0 : ∀ k, (f k).sh0 = k.sh0) (h1 : ∀ k, (f k).sh1 = k.sh1) :
    CopiesKept s b (a.modBank c f) := by
  by_cases hc : b = c
  · subst hc
    obtain ⟨hb, hs0, hs1, hs⟩ := h
    have he := State.gazBank_modBank_self a b f
    exact ⟨State.sorted_modBank hb b f, by rw [he, h0]; exact hs0, by rw [he, h1]; exact hs1, by rw [he, h0, h1]; exact hs⟩
  · exact h.modBank_ne hc f

/-- A rewriting of an entry without a readable copy. -/
theorem CopiesKept.write (h : CopiesKept s b a) {c e : Nat} (hn : shadowsReadable s c e = (false, false)) {r : Nat} {f : GazBank → GazBank}
    (h0 : ∀ k, (f k).sh0 = k.sh0.upd 0 e r) (h1 : ∀ k, (f k).sh1 = k.sh1.upd 0 e r) : CopiesKept s b (a.modBank c f) := by
  by_cases hc : b = c
  · subst hc
    obtain ⟨hb, hs0, hs1, hs⟩ := h
    have he := State.gazBank_modBank_self a b f
    refine ⟨State.sorted_modBank hb b f, ?_, ?_, fun e' he' => ?_⟩
    · rw [he, h0]; exact Tbl.sorted_upd _ _ _ _ hs0
    · rw [he, h1]; exact Tbl.sorted_upd _ _ _ _ hs1
    · have hne : e' ≠ e := fun eq => he' (eq ▸ hn)
      rw [he, h0, h1, Tbl.at_upd_ne _ _ _ hne hs0, Tbl.at_upd_ne _ _ _ hne hs1]
      exact hs e' he'
  · exact h.modBank_ne hc f

/-- A change of no bank. -/
theorem CopiesKept.of_gaz (h : CopiesKept s b a) {u : State} (hg : u.gaz = a.gaz) : CopiesKept s b u := by
  obtain ⟨hb, h0, h1, hs⟩ := h
  have he := State.gazBank_of_gaz hg b
  exact ⟨by rw [hg]; exact hb, by rw [he]; exact h0, by rw [he]; exact h1, by rw [he]; exact hs⟩

theorem reportEntry_gaz (c e how : Nat) (a : State) : (reportEntry c e how a).gaz = a.gaz := by
  unfold reportEntry
  dsimp only
  rw [State.event_gaz]
  split_ifs
  · exact State.fireInjected_gaz ..
  · exact State.fire_gaz ..

theorem settleEntry_copies (h : CopiesKept s b a) {c e : Nat} (hn : shadowsReadable s c e = (false, false)) :
    CopiesKept s b (settleEntry c e a) := by
  unfold settleEntry
  dsimp only
  split
  · split
    · exact h.modBank c (fun _ => rfl) (fun _ => rfl)
    · split
      · exact h.write hn (fun _ => rfl) (fun _ => rfl)
      · exact h
  · exact (h.of_gaz (reportEntry_gaz ..)).write hn (fun _ => rfl) (fun _ => rfl)

theorem settleOne_copies (h : CopiesKept s b a) {c e : Nat} (hn : e < bankEntries → shadowsReadable s c e = (false, false)) :
    CopiesKept s b (settleOne c e a) := by
  unfold settleOne
  split
  · rename_i he
    exact settleEntry_copies h (hn he)
  · unfold settlePair
    exact h.modBank c (fun _ => rfl) (fun _ => rfl)

theorem foldl_settleOne_copies {c : Nat} {l : List Nat} (hl : ∀ e ∈ l, e < bankEntries → shadowsReadable s c e = (false, false))
    (h : CopiesKept s b a) : CopiesKept s b (l.foldl (fun a e => settleOne c e a) a) := by
  induction l generalizing a with
  | nil => exact h
  | cons e t ih => exact ih (fun x hx => hl x (List.mem_cons_of_mem _ hx)) (settleOne_copies h (hl e List.mem_cons_self))
end

/-- The entries of a bank, and past the last entry the segments, of which no shadow copy can be read. -/
def lostEntries (s : State) (b : Nat) : List Nat :=
  let none_ := fun (e : Nat) => shadowsReadable s b e == (false, false)
  (List.range bankEntries).filter none_ ++ ((List.range 256).filter (fun g => none_ (1024 * g))).map (· + bankEntries)

theorem lostEntries_unreadable {s : State} {b e : Nat} (h : e ∈ lostEntries s b) (he : e < bankEntries) :
    shadowsReadable s b e = (false, false) := by
  rcases List.mem_append.1 h with h | h
  · simpa using (List.mem_filter.1 h).2
  · obtain ⟨g, -, rfl⟩ := List.mem_map.1 h
    exact absurd he (Nat.not_lt.2 (Nat.le_add_left ..))

/-- The state in which the lost copies are copied. -/
def entriesSettled (s : State) : State :=
  (List.range 8).foldl (fun a b => (lostEntries s b).foldl (fun a e => settleOne b e a) a) s

theorem entriesSettled_copies {s : State} {b : Nat} (h : CopiesKept s b s) : CopiesKept s b (entriesSettled s) :=
  foldl_inv (P := CopiesKept s b) (fun _ _ ha => foldl_settleOne_copies (fun _ he => lostEntries_unreadable he) ha) h

theorem rebuilt_idle {s : State} (h : s.svc.lostControllers = []) : rebuilt s = s := if_pos (.inr (by rw [h]; rfl))

theorem rebuilt_eq {s : State} (hf : s.fwReady = true) (hl : s.svc.lostControllers ≠ []) :
    ∃ v : State, rebuilt s = v ∧ v.svc.lostControllers = [] ∧
      v.gaz = ((List.range 8).foldl (fun a b => a.modBank b (rebuildShadows s b)) (entriesSettled s)).gaz := by
  unfold rebuilt
  rw [if_neg (by simp [hf, hl])]
  dsimp only
  refine ⟨_, rfl, rfl, ?_⟩
  unfold entriesSettled lostEntries
  dsimp only

/-- A bank that a list of other banks leaves. -/
theorem foldl_modBank_ne {g : Nat → GazBank → GazBank} {l : List Nat} {b : Nat} (hb : b ∉ l) {a : State} (h : a.gaz.banks.sorted = true) :
    (l.foldl (fun a c => a.modBank c (g c)) a).gazBank b = a.gazBank b := by
  induction l generalizing a with
  | nil => rfl
  | cons c t ih =>
    refine (ih (fun hm => hb (List.mem_cons_of_mem _ hm)) (State.sorted_modBank h c _)).trans ?_
    exact State.gazBank_modBank_ne h (List.ne_of_not_mem_cons hb) _

/-- Each bank of a list changed once. -/
theorem foldl_modBank {g : Nat → GazBank → GazBank} {l : List Nat} (hd : l.Nodup) {b : Nat} (hb : b ∈ l) {a : State}
    (h : a.gaz.banks.sorted = true) : (l.foldl (fun a c => a.modBank c (g c)) a).gazBank b = g b (a.gazBank b) := by
  induction l generalizing a with
  | nil => cases hb
  | cons c t ih =>
    obtain ⟨hc, ht⟩ := List.nodup_cons.1 hd
    have hs := State.sorted_modBank h c (g c)
    rcases List.mem_cons.1 hb with rfl | hb
    · exact (foldl_modBank_ne hc hs).trans (State.gazBank_modBank_self ..)
    · refine (ih ht hb hs).trans ?_
      rw [State.gazBank_modBank_ne h (ne_of_mem_of_not_mem hb hc)]

/-- One entry's lost copy copied from the other. -/
def copyShadow (s : State) (b : Nat) (p : Tbl Nat × Tbl Nat) (e : Nat) : Tbl Nat × Tbl Nat :=
  let ok := shadowsReadable s b e
  if ok.1 && !ok.2 then (p.1, p.2.upd 0 e (p.1.at 0 e)) else if ok.2 && !ok.1 then (p.1.upd 0 e (p.2.at 0 e), p.2) else p

section
variable {s : State} {b : Nat} {p : Tbl Nat × Tbl Nat}

theorem copyShadow_sorted (h : p.1.sorted = true ∧ p.2.sorted = true) (e : Nat) :
    (copyShadow s b p e).1.sorted = true ∧ (copyShadow s b p e).2.sorted = true := by
  unfold copyShadow
  dsimp only
  split
  · exact ⟨h.1, Tbl.sorted_upd _ _ _ _ h.2⟩
  · split
    · exact ⟨Tbl.sorted_upd _ _ _ _ h.1, h.2⟩
    · exact h

theorem copyShadow_ne (h : p.1.sorted = true ∧ p.2.sorted = true) {e x : Nat} (hx : e ≠ x) :
    (copyShadow s b p x).1.at 0 e = p.1.at 0 e ∧ (copyShadow s b p x).2.at 0 e = p.2.at 0 e := by
  unfold copyShadow
  dsimp only
  split
  · exact ⟨rfl, Tbl.at_upd_ne _ _ _ hx h.2⟩
  · split
    · exact ⟨Tbl.at_upd_ne _ _ _ hx h.1, rfl⟩
    · exact ⟨rfl, rfl⟩

theorem copyShadow_first {e : Nat} (hr : shadowsReadable s b e = (true, false)) : copyShadow s b p e = (p.1, p.2.upd 0 e (p.1.at 0 e)) := by
  unfold copyShadow
  rw [hr]
  rfl

theorem copyShadow_second {e : Nat} (hr : shadowsReadable s b e = (false, true)) : copyShadow s b p e = (p.1.upd 0 e (p.2.at 0 e), p.2) := by
  unfold copyShadow
  rw [hr]
  rfl

/-- The second copies that were lost hold what the first hold, once copied entry by entry. -/
theorem foldl_copyShadow_first {e : Nat} (hr : shadowsReadable s b e = (true, false)) {l : List Nat} (h : p.1.sorted = true ∧ p.2.sorted = true) :
    (l.foldl (copyShadow s b) p).2.at 0 e = if e ∈ l then p.1.at 0 e else p.2.at 0 e := by
  induction l generalizing p with
  | nil => rfl
  | cons x t ih =>
    refine (ih (copyShadow_sorted h x)).trans ?_
    by_cases hx : e = x
    · subst hx
      rw [copyShadow_first hr, Tbl.at_upd_self, if_pos List.mem_cons_self]
      exact ite_self _
    · obtain ⟨h1, h2⟩ := copyShadow_ne (s := s) (b := b) h hx
      simp only [h1, h2, List.mem_cons, hx, false_or]

theorem foldl_copyShadow_second {e : Nat} (hr : shadowsReadable s b e = (false, true)) {l : List Nat} (h : p.1.sorted = true ∧ p.2.sorted = true) :
    (l.foldl (copyShadow s b) p).1.at 0 e = if e ∈ l then p.2.at 0 e else p.1.at 0 e := by
  induction l generalizing p with
  | nil => rfl
  | cons x t ih =>
    refine (ih (copyShadow_sorted h x)).trans ?_
    by_cases hx : e = x
    · subst hx
      rw [copyShadow_second hr, Tbl.at_upd_self, if_pos List.mem_cons_self]
      exact ite_self _
    · obtain ⟨h1, h2⟩ := copyShadow_ne (s := s) (b := b) h hx
      simp only [h1, h2, List.mem_cons, hx, false_or]
end

theorem Tbl.at_of_not_key {t : Tbl Nat} {a : Nat} (h : a ∉ t.keys) : t.at 0 a = 0 := by
  unfold Tbl.at
  cases hf : t.find a with
  | none => rfl
  | some x => exact absurd (List.mem_map_of_mem (f := Prod.fst) (Tbl.find_mem hf)) h

theorem rebuildShadows_shadows (s : State) (b : Nat) (k : GazBank) : ((rebuildShadows s b k).sh0, (rebuildShadows s b k).sh1) =
    ((k.sh0.keys ++ k.sh1.keys).eraseDups).foldl (copyShadow s b) (k.sh0, k.sh1) := rfl

section
variable {s : State} {b : Nat} {k : GazBank} {e : Nat} (h : k.sh0.sorted = true ∧ k.sh1.sorted = true)
include h

theorem rebuildShadows_first (hr : shadowsReadable s b e = (true, false)) : (rebuildShadows s b k).sh1.at 0 e = k.sh0.at 0 e := by
  have he : (rebuildShadows s b k).sh1 = _ := congrArg Prod.snd (rebuildShadows_shadows s b k)
  rw [he, foldl_copyShadow_first hr h]
  split
  · rfl
  · rename_i hn
    have hk := mt List.mem_eraseDups.2 hn
    rw [List.mem_append, not_or] at hk
    exact (Tbl.at_of_not_key hk.2).trans (Tbl.at_of_not_key hk.1).symm

theorem rebuildShadows_second (hr : shadowsReadable s b e = (false, true)) : (rebuildShadows s b k).sh0.at 0 e = k.sh1.at 0 e := by
  have he : (rebuildShadows s b k).sh0 = _ := congrArg Prod.fst (rebuildShadows_shadows s b k)
  rw [he, foldl_copyShadow_second hr h]
  split
  · rfl
  · rename_i hn
    have hk := mt List.mem_eraseDups.2 hn
    rw [List.mem_append, not_or] at hk
    exact (Tbl.at_of_not_key hk.1).trans (Tbl.at_of_not_key hk.2).symm
end

theorem shadowsReadable_of_none_lost {s : State} (h : s.svc.lostControllers = []) (b e : Nat) : shadowsReadable s b e = (true, true) := by
  unfold shadowsReadable
  rw [h]
  rfl

/-- The copies of a bank once the reservation is rebuilt: the lost ones hold what the surviving ones held. -/
theorem rebuilt_shadows {s v : State} {b : Nat} (hb : b < 8) (h : CopiesKept s b s)
    (hv : v.gaz = ((List.range 8).foldl (fun a b => a.modBank b (rebuildShadows s b)) (entriesSettled s)).gaz) (e : Nat) :
    (shadowsReadable s b e = (true, false) → (v.gazBank b).sh1.at 0 e = (s.gazBank b).sh0.at 0 e) ∧
      (shadowsReadable s b e = (false, true) → (v.gazBank b).sh0.at 0 e = (s.gazBank b).sh1.at 0 e) := by
  obtain ⟨hbanks, h0, h1, hsame⟩ := entriesSettled_copies h
  have hbank : v.gazBank b = rebuildShadows s b ((entriesSettled s).gazBank b) := by
    rw [State.gazBank_of_gaz hv b, foldl_modBank (g := fun c => rebuildShadows s c) List.nodup_range (List.mem_range.2 hb) hbanks]
  rw [hbank]
  refine ⟨fun hr => ?_, fun hr => ?_⟩
  · exact (rebuildShadows_first ⟨h0, h1⟩ hr).trans (hsame e (by rw [hr]; decide)).1
  · exact (rebuildShadows_second ⟨h0, h1⟩ hr).trans (hsame e (by rw [hr]; decide)).2

/-! The commands and the rows of memory. -/

section
variable {f : Frame} {s : State} {x : Session}

theorem inTurn_waits {off : Nat} (h : Handler) {n : Nat} {y : Session} {u : State} (hb : u.mapBusy (fld f.payload off 2) = true) :
    inTurn off h f n y u = .wait (.mapQueue (fld f.payload off 2) f) u := if_pos hb

theorem inTurn_goes {off : Nat} (h : Handler) {n : Nat} {y : Session} {u : State} (hb : u.mapBusy (fld f.payload off 2) = false) :
    inTurn off h f n y u = h f n y u := if_neg (by rw [hb]; exact Bool.false_ne_true)

theorem map_waits (ha : accepted 0x0202 f s x = true) (hb : (seen f s).mapBusy (fld f.payload 0x20 2) = true) :
    exec (.map f) s = .next (frameInFlight f 0x0202 (.mapQueue (fld f.payload 0x20 2) f) (seen f s)) :=
  congrArg Host.Outcome.next (rcpRun_wait ha (inTurn_waits mapNow hb))

theorem map_full (ha : accepted 0x0202 f s x = true) (hb : (seen f s).mapBusy (fld f.payload 0x20 2) = false)
    (hp : passes (mapNowFails f x (seen f s)) = true) (hm : mapMade f (seen f s) = none) :
    exec (.map f) s = .next (frameComplete f 0x0202 stLimit (errPayload (errD stLimit 2)) (seen f s)) := by
  have hst : (errD stLimit 2).status = stLimit := rfl
  rw [← hst]
  exact congrArg Host.Outcome.next (rcpRun_err ha ((inTurn_goes mapNow hb).trans (mapNow_full (x := heard s x) hp hm _)))

theorem map_maps {es : List Extent} {ck : Tbl (List Nat)} (ha : accepted 0x0202 f s x = true)
    (hb : (seen f s).mapBusy (fld f.payload 0x20 2) = false) (hp : passes (mapNowFails f x (seen f s)) = true)
    (hm : mapMade f (seen f s) = some (es, ck)) (hl : (mapCtx f (seen f s)).maps.length < 65536) :
    exec (.map f) s = .next (doneOk 0x0202 f [] (mapped f (seen f s) es ck)) :=
  congrArg Host.Outcome.next (rcpRun_ok ha ((inTurn_goes mapNow hb).trans (mapNow_maps (x := heard s x) hp hm hl _)))

/-- What a MAP finds, by its KIND: where memory is not allocated, the check granules stay. -/
theorem mapMade_eq {es : List Extent} {ck : Tbl (List Nat)} (hk : fld f.payload 0x10 1 ≤ 2)
    (h0 : fld f.payload 0x10 1 = 0 →
      s.allocate (fld f.payload 0x14 1) (pageBytes (fld f.payload 0x11 1)) (fld f.payload 8 8) (fld f.payload 0x13 1 == 1) = some (es, ck))
    (h1 : fld f.payload 0x10 1 = 1 → es = (mapCtx f s).behind (fld f.payload 0x18 8) (fld f.payload 8 8))
    (h2 : fld f.payload 0x10 1 = 2 → es = [⟨fld f.payload 8 8, fld f.payload 0x18 8⟩]) : ∃ ck', mapMade f s = some (es, ck') := by
  unfold mapMade
  split
  · rename_i hk0
    exact ⟨ck, h0 hk0⟩
  · split
    · rename_i hk1
      exact ⟨s.mem.checks, by rw [h1 hk1]⟩
    · exact ⟨s.mem.checks, by rw [h2 (by omega)]⟩

/-- A MAP that allocates zeroes all that it allocates. -/
theorem mem_mapFresh_alloc {es : List Extent} (hk : fld f.payload 0x10 1 = 0) {e : Extent} (he : e ∈ es) : e ∈ mapFresh f s es := by
  unfold mapFresh
  rwa [if_pos hk]

/-- A MAP of a store zeroes each page of it that the context does not hold. -/
theorem mem_mapFresh_store {es : List Extent} (hk : fld f.payload 0x10 1 = 2) {i : Nat} (hi : i < fld f.payload 8 8 / 4096)
    (hh : (mapCtx f s).holds (fld f.payload 0x18 8 + 4096 * i) = false) : ⟨4096, fld f.payload 0x18 8 + 4096 * i⟩ ∈ mapFresh f s es := by
  unfold mapFresh
  rw [if_neg (by omega), if_neg (by omega)]
  refine List.mem_map.2 ⟨_, List.mem_filter.2 ⟨List.mem_map.2 ⟨i, List.mem_range.2 hi, rfl⟩, ?_⟩, rfl⟩
  rw [hh]
  rfl

/-- A MAP of memory that is mapped already changes no byte. -/
theorem mapped_bytes_aliased (hk : fld f.payload 0x10 1 = 1) (es : List Extent) (ck : Tbl (List Nat)) : (mapped f s es ck).mem.bytes = s.mem.bytes := by
  have hf : mapFresh f s es = [] := by
    unfold mapFresh
    rw [if_neg (by omega), if_pos hk]
  rw [mapped_bytes, hf]
  rfl

theorem unmap_waits (ha : accepted 0x0203 f s x = true) (hb : (seen f s).mapBusy (fld f.payload 0x10 2) = true) :
    exec (.unmap f) s = .next (frameInFlight f 0x0203 (.mapQueue (fld f.payload 0x10 2) f) (seen f s)) :=
  congrArg Host.Outcome.next (rcpRun_wait ha (inTurn_waits unmapNow hb))

/-- The state that an UNMAP leaves, its frame's completion or wait apart. -/
def unmapped (f : Frame) (u : State) : State :=
  if u.accessing (fld f.payload 0x10 2) (fld f.payload 0 8) (fld f.payload 8 8) then
    unmapDying (fld f.payload 0x10 2) (fld f.payload 0 8) (fld f.payload 8 8) u
  else u.unmapRange (fld f.payload 0x10 2) (fld f.payload 0 8) (fld f.payload 8 8)

theorem unmap_unmaps (ha : accepted 0x0203 f s x = true) (hb : (seen f s).mapBusy (fld f.payload 0x10 2) = false)
    (hp : passes (unmapNowFails f x (seen f s)) = true) : exec (.unmap f) s =
      .next (if (seen f s).accessing (fld f.payload 0x10 2) (fld f.payload 0 8) (fld f.payload 8 8) then
        frameInFlight f 0x0203 (.unmap (fld f.payload 0x10 2) (fld f.payload 0 8) (fld f.payload 8 8)) (unmapped f (seen f s))
      else doneOk 0x0203 f [] (unmapped f (seen f s))) := by
  unfold unmapped
  cases hacc : (seen f s).accessing (fld f.payload 0x10 2) (fld f.payload 0 8) (fld f.payload 8 8) with
  | true => exact congrArg Host.Outcome.next (rcpRun_wait ha ((inTurn_goes unmapNow hb).trans (unmapNow_waits (x := heard s x) hp hacc _)))
  | false => exact congrArg Host.Outcome.next (rcpRun_ok ha ((inTurn_goes unmapNow hb).trans (unmapNow_ends (x := heard s x) hp hacc _)))

theorem unmapped_refuses (hp : passes (unmapNowFails f x s) = true) {a : Nat} (h1 : fld f.payload 0 8 ≤ a)
    (h2 : a < fld f.payload 0 8 + fld f.payload 8 8) (n : Need) : atu (unmapped f s) (fld f.payload 0x10 2) a n = .error stXlate := by
  unfold unmapped
  split
  · exact unmapDying_refuses hp h1 h2 n
  · exact unmapRange_refuses hp h1 h2 n

/-- A row of RETRAIN_CHANNEL whose command waits. -/
theorem retrain_waits {act : Nat} {w : Wait} {v : State} (ha : acceptedAs 0x0204 1 act f s x = true)
    (h : retrainChannel f f.sessionId.toNat (heard s x) (seen f s) = .wait w v) :
    rcpAction 0x0204 1 act retrainChannel f s = frameInFlight f 0x0204 w v :=
  (rcpAction_eq_rcpRun _ ha).trans (rcpRun_wait (acceptedAs_accepted ha) h)

/-- A row of RETRAIN_CHANNEL whose command ends at once. -/
theorem retrain_ends {act : Nat} {b : List Byte} {v : State} (ha : acceptedAs 0x0204 1 act f s x = true)
    (h : retrainChannel f f.sessionId.toNat (heard s x) (seen f s) = .ok b v) :
    rcpAction 0x0204 1 act retrainChannel f s = doneOk 0x0204 f b v :=
  (rcpAction_eq_rcpRun _ ha).trans (rcpRun_ok (acceptedAs_accepted ha) h)
end

section
variable {ch : Nat} {s : State}

theorem granuleDrained_bytes (g d : Nat) (r : Retrain) : (retrainSettle ch (granuleDrained ch g d r s)).mem.bytes = (s.moveGranule g d).mem.bytes := by
  refine (retrainSettle_bytes ..).trans ((countMoved_bytes ..).trans ?_)
  generalize s.moveGranule g d = u
  rfl

theorem granuleRestored_bytes (x : Moved) (r : Retrain) :
    (retrainSettle ch (granuleRestored ch x r s)).mem.bytes = (s.moveGranule x.now x.own).mem.bytes := by
  refine (retrainSettle_bytes ..).trans ((countMoved_bytes ..).trans ?_)
  generalize s.moveGranule x.now x.own = u
  rfl

/-- A granule that leaves a draining channel is counted, unless the channel goes out of service. -/
theorem granuleDrained_counted {r : Retrain} {g d : Nat} (hs : (s.channel ch).state = .draining) (ha : r.action ≠ 1) :
    (retrainSettle ch (granuleDrained ch g d r s)).mem.retrains.find ch = some ⟨r.action, r.count + s.copied g d false⟩ :=
  retrainSettle_goesOn (countMoved_retrains ..) (granuleDrained_state hs) ha

/-- Training that passes, with nothing to bring back: the channel is in service and its command ends. -/
theorem channelTrainingDone_active (hs : (s.channel ch).state = .retraining) (hu : s.up (islMc (ch / 4)) = true) (n : Nat) {r : Retrain}
    (hr : s.mem.retrains.find ch = some r) (hm : (s.channel ch).moved = []) : channelTrainingDone ch (.pass n) s =
      ((((s.setChannel ch .restoring).setChannel ch .active).endRetrain ch).finishAll (.channel ch) stOk (movedPayload r.count)) :=
  (channelTrainingDone_eq hs hu _).trans (retrainSettle_restored hr (by rw [State.channel_setChannel]) (by rw [State.channel_setChannel]; exact hm))

/-- Training that passes, with granules to bring back: the channel is restored. -/
theorem channelTrainingDone_restoring (hs : (s.channel ch).state = .retraining) (hu : s.up (islMc (ch / 4)) = true) (n : Nat)
    (hr : s.mem.retrains.find ch ≠ none) (hm : (s.channel ch).moved ≠ []) : channelTrainingDone ch (.pass n) s = s.setChannel ch .restoring :=
  (channelTrainingDone_eq hs hu _).trans (retrainSettle_restores hr (by rw [State.channel_setChannel]) (by rw [State.channel_setChannel]; exact hm))

theorem State.state_endRetrain_active (s : State) (ch : Nat) : (((s.setChannel ch .active).endRetrain ch).channel ch).state = .active :=
  congrArg Channel.state (State.channel_setChannel s ch .active)
end

theorem mapped_others {f : Frame} {s : State} {x : Session} (h : passes (mapNowFails f x s) = true) (es : List Extent) (ck : Tbl (List Nat)) {k : Nat}
    (hk : k ≠ fld f.payload 0x20 2) : (mapped f s es ck).mem.contexts.find k = s.mem.contexts.find k := by
  rw [mapped_contexts h, Tbl.find_put_ne _ _ hk]

/-- Settles O33: the rows of memory, each by what its handler does; a copied granule by what writing and zeroing leave at other addresses, the rebuilt
reservation by the copies that the settling of unreadable entries keeps. -/
theorem memoryCommandsAndChannels : Obligations.MemoryCommandsAndChannels := by
  unfold Obligations.MemoryCommandsAndChannels
  refine ⟨fun f s x => ⟨fun ha => ⟨map_waits ha, fun hb hp => ⟨fun hk hm => ?_, fun es ck h0 h1 h2 hl => ?_⟩⟩,
    fun ha => ⟨unmap_waits ha, fun hb hp => ⟨_, unmap_unmaps ha hb hp, fun a n h1 h2 => unmapped_refuses hp h1 h2 n⟩⟩,
    fun hp => ⟨fun ha => ?_, fun ha => ⟨fun he => ?_, fun he => ?_⟩, fun ha => ?_⟩⟩,
    fun ch s => ⟨fun h => ?_, fun r hf hr hw => ⟨fun g d hs hm => ?_, fun y l hs hm hne => ?_⟩, fun h r => ?_,
      fun hs hu => ⟨fun n r hr hm => ?_, fun n hm hr => ?_, ?_, ?_⟩, rfl⟩,
    fun mc s => ⟨rfl, rfl⟩, fun s => ⟨fun h => ?_, fun hf hl => ?_⟩⟩
  · exact map_full ha hb hp ((if_pos hk).trans hm)
  · obtain ⟨ck', hmade⟩ := mapMade_eq (mapNowFails_passed hp).1 h0 h1 h2
    refine ⟨_, map_maps ha hb hp hmade hl, fun off ho n hn => ?_, fun hk e he a ha1 ha2 => ?_, fun hk => ?_, fun hk i hi hh a ha1 ha2 => ?_,
      fun k hk => ?_⟩
    · exact mapped_atu hp es ck' ho hn
    · exact mapped_byte ck' (mem_mapFresh_alloc hk he) ha1 ha2
    · exact (mapped_bytes_aliased hk es ck').trans (congrArg Mem.bytes (seen_mem f s))
    · exact mapped_byte ck' (mem_mapFresh_store hk hi hh) ha1 ha2
    · exact (mapped_others hp es ck' hk).trans (by rw [seen_mem])
  · exact congrArg Host.Outcome.next (retrain_waits ha (retrainChannel_retrains hp (acceptedAs_action ha) _ _))
  · exact congrArg Host.Outcome.next (retrain_ends ha (retrainChannel_leaves hp (acceptedAs_action ha) he _ _))
  · exact congrArg Host.Outcome.next (retrain_waits ha (retrainChannel_drains hp (acceptedAs_action ha) he _ _))
  · exact congrArg Host.Outcome.next (retrain_waits ha (retrainChannel_restores hp (acceptedAs_action ha) _ _))
  · exact congrArg Host.Outcome.next (granuleCopyDone_idle h)
  · obtain ⟨hd, hg⟩ := granule_carried hw (State.nextMove_ne hm) (granuleDrained_bytes g d r)
    exact ⟨_, congrArg Host.Outcome.next (granuleCopyDone_drains hf hr hs hm), hd, hg, granuleDrained_counted hs⟩
  · obtain ⟨hd, hg⟩ := granule_carried hw hne (granuleRestored_bytes y r)
    exact ⟨_, congrArg Host.Outcome.next (granuleCopyDone_restores hf hr hs hm), hd, hg⟩
  · exact congrArg Host.Outcome.next (channelTrainingDone_elsewhere h r)
  · exact ⟨_, congrArg Host.Outcome.next (channelTrainingDone_active hs hu n hr hm), State.state_endRetrain_active .., Tbl.find_del_self ..⟩
  · exact congrArg Host.Outcome.next (channelTrainingDone_restoring hs hu n hr hm)
  · exact congrArg Host.Outcome.next (channelTrainingDone_eq hs hu .fail)
  · exact congrArg Host.Outcome.next (channelTrainingDone_eq hs hu .absent)
  · exact congrArg Host.Outcome.next (rebuilt_idle h)
  · obtain ⟨v, hv, hlost, hgaz⟩ := rebuilt_eq hf hl
    refine ⟨v, congrArg Host.Outcome.next hv, shadowsReadable_of_none_lost hlost, fun hbanks b hb h0 h1 e => ?_⟩
    exact rebuilt_shadows hb ⟨hbanks, h0, h1, fun _ _ => ⟨rfl, rfl⟩⟩ hgaz e

end Sys2Proof.Machine
